-- ==== Sys2Proof/Word.lean ====
section
/-!
DEFINITION. The word types of the block and the one shape of sparse table the state uses:
a list of (key, value) pairs with strictly rising keys.
-/

namespace Sys2Proof

/-- A Stallcode register (03 R51). -/
abbrev Word := BitVec 64

/-- One byte. -/
abbrev Byte := BitVec 8

/-- A general register number (03 R52). -/
abbrev Reg := Fin 32

/-- A core index of a lane (01 R24). -/
abbrev CoreIx := Fin 16

/-- A sparse table by key, sorted with strictly rising keys. -/
abbrev NMap (α : Type) := List (Nat × α)

/-- The value stored under a key. -/
def nget? {α : Type} : NMap α → Nat → Option α
  | [], _ => none
  | (k, v) :: rest, i => if k = i then some v else if i < k then none else nget? rest i

/-- The value stored under a key, or a default. -/
def nget {α : Type} (m : NMap α) (i : Nat) (d : α) : α := (nget? m i).getD d

/-- Store a value under a key, keeping the keys rising. -/
def nset {α : Type} : NMap α → Nat → α → NMap α
  | [], i, v => [(i, v)]
  | (k, w) :: rest, i, v =>
    if i < k then (i, v) :: (k, w) :: rest
    else if i = k then (i, v) :: rest
    else (k, w) :: nset rest i v

/-- Remove a key. -/
def nerase {α : Type} : NMap α → Nat → NMap α
  | [], _ => []
  | (k, w) :: rest, i => if k = i then rest else if i < k then (k, w) :: rest else (k, w) :: nerase rest i

/-- Change the value under a key, if there is one. -/
def nupd {α : Type} (m : NMap α) (i : Nat) (f : α → α) : NMap α :=
  match nget? m i with
  | none => m
  | some v => nset m i (f v)

/-- Is the key present? -/
def nhas {α : Type} (m : NMap α) (i : Nat) : Bool := (nget? m i).isSome

/-- Keys strictly rising from a bound. -/
def nrising {α : Type} : Nat → NMap α → Bool
  | _, [] => true
  | b, (k, _) :: rest => b ≤ k && nrising (k + 1) rest

/-- The canonical form: keys strictly rising. -/
def nwf {α : Type} (m : NMap α) : Bool := nrising 0 m

/-- Keep the canonical form of a table whose unlisted keys read `d`: a value equal to `d` is not listed. -/
def nput {α : Type} [DecidableEq α] (m : NMap α) (i : Nat) (v d : α) : NMap α :=
  if v = d then nerase m i else nset m i v

/-- One element of a fixed array replaced. -/
def vupd {α : Type} {n : Nat} (v : Vector α n) (i : Nat) (f : α → α) : Vector α n :=
  if h : i < n then v.set i (f v[i]) h else v

/-- One element of a fixed array, or a default outside it. -/
def vget {α : Type} {n : Nat} (v : Vector α n) (i : Nat) (d : α) : α :=
  if h : i < n then v[i] else d

end Sys2Proof
end

