-- ==== Sys2Proof/Syntax.lean ====
section
/-!
DEFINITION. The commands that the block takes, one constructor of `Instr` per row of the opcode table,
and the plain records that some commands carry.
-/

namespace Sys2Proof

/-- A DAP message as it arrives (02 R40): header fields after the operation, and the bytes that follow the header. -/
structure DapMsg where
  version : Nat := 1
  reqId : Nat := 0
  index : Nat := 0
  sub : Nat := 0
  flags : Nat := 0
  elen : Nat := 0
  plen : Nat := 0
  body : List Byte := []
  deriving DecidableEq, Repr

/-- What a hub reads at an image close (05 R121, 08 R213): its train time, input power in mW, its temperature in 0.1 C
the input voltage in mV, and the release digest that its voter reports where that is not the one it computed (06 R171). -/
structure HubReading where
  t : Nat := 0
  power : Nat := 0
  temp : Int := 0
  vin : Nat := 0
  relDigest : Option Nat := none
  deriving DecidableEq, Repr

/-- An item of an image as one die holds it (06 R160): kind, source, sequence number, arrival stamp and content. -/
structure LaneItem where
  kind : Nat := 0
  source : Nat := 0
  seq : Nat := 0
  stamp : Nat := 0
  data : List Byte := []
  deriving DecidableEq, Repr

/-- How one lane's copy of a stall's checkpointed state differs from the others' (06 R172): general registers and memory bytes,
and for the stall id 0xFFFF the values of entries, by entry key, in the supervisor's own state. -/
structure LaneDiff where
  lane : Nat := 0
  stall : Nat := 0xFFFF
  regs : List (Nat × Word) := []
  mem : List (Nat × Byte) := []
  dict : List (Nat × Nat) := []
  deriving DecidableEq, Repr

/-- What the Agree phase of a crossing brings (06 R161-R163, R177): where a lane has not received a hub's image as that hub closed
it, the lane, the hub and the items that reached it, none where nothing did; where a lane's merged image differs, the items that it
holds in place of the others; equivocating lanes; each lane's temperature and oscillator correction; and how the state received by a
lane about to join differs. -/
structure AgreeReport where
  recv : List (Nat × Nat × Option (List LaneItem)) := []
  dev : List (Nat × List LaneItem) := []
  equiv : List Nat := []
  join : List LaneDiff := []
  temps : List Int := []
  oscs : List Int := []
  deriving DecidableEq, Repr

/-- How an alignment marker is received (09 R229): whether both lanes brought it with their lane numbers, whether a lane's BER monitor
reports high BER, and the errored blocks since the marker before. -/
structure MarkerIn where
  ok : Bool := true
  hiBer : Bool := false
  errs : Nat := 0
  deriving DecidableEq, Repr

/-- What a start block begins on a link (09 R233): how long it lasts, in ps, whether it is broken off by block errors or loss of lock or
bonding, and its bytes. -/
structure RelayIn where
  dur : Nat := 0
  broken : Bool := false
  data : List Byte := []
  deriving DecidableEq, Repr

/-- A bell as a hub receives it (09 R234, 10 R270): the fields of its body, whether its tag verifies under the key it names, the
instant of arrival of its start block in ps of the hub's own train time, and whether it is one of the joining ferryman's last
bells (10 R281). -/
structure Bell where
  crossing : Nat := 0
  time : Nat := 0
  tagOk : Bool := true
  key : Nat := 0
  cold : Bool := false
  merge : Bool := false
  last : Bool := false
  priority : Nat := 0
  address : Nat := 0
  n : Nat := 8
  inaug : Nat := 0
  plan : Nat := 0
  arrival : Int := 0
  deriving DecidableEq, Repr

/-- A backbone frame as a hub receives it (09 R236, R249): header fields, the arrival of its start block in ps of the hub's own
train time, whether it is complete, whether version, plane bit and reserved bits are right, whether its tag verifies under the key it names,
the telegram header's fields, its bytes, and the instant at which its terminate block was received. -/
structure BbFrame where
  slot : Nat := 0
  node : Nat := 0
  plan : Nat := 0
  crossing : Nat := 0
  key : Nat := 0
  len : Nat := 64
  force : Bool := false
  twin : Bool := false
  holder : Bool := false
  start : Int := 0
  complete : Bool := true
  hdrOk : Bool := true
  tagOk : Bool := true
  ident : Nat := 0
  kind : Nat := 1
  stale : Bool := false
  mirrored : Bool := false
  dest : Nat := 0
  seq : Nat := 0
  data : List Byte := []
  t : Nat := 0
  deriving DecidableEq, Repr

/-- A foreign segment's claim (10 R266, R279): priority, crossing length, serial number and offset in ns. -/
structure Foreign where
  priority : Nat := 0
  n : Nat := 0
  serial : Nat := 0
  offset : Int := 0
  deriving DecidableEq, Repr

/-- An outward chain (10 R266, R267): travel, hops, the sender's offsets in ps, and the serial number, priority and crossing
length of the ferryman that originated it. -/
structure OutChain where
  crossing : Nat := 0
  tagOk : Bool := true
  aft : Bool := true
  cold : Bool := false
  merge : Bool := false
  hops : Nat := 0
  sender : Nat := 0
  wAft : Int := 0
  wFore : Int := 0
  serial : Nat := 0
  priority : Nat := 0
  n : Nat := 8
  deriving DecidableEq, Repr

/-- A unit record (10 Table 10-5), with its placement in a roster. -/
structure UnitRec where
  id : Nat := 0
  plan : Nat := 0
  reversed : Bool := false
  admitted : Bool := false
  vehicles : Nat := 0
  nodes : Nat := 0
  n : Nat := 8
  entries : Nat := 0
  vbase : Nat := 0
  sbase : Nat := 0
  refusal : Nat := 0
  deriving DecidableEq, Repr

/-- An inward chain (10 R266, R268): travel, hops, the originating end's offsets in ps, what the edge learned, and the unit
records. -/
structure InChain where
  crossing : Nat := 0
  tagOk : Bool := true
  aft : Bool := true
  cold : Bool := false
  merge : Bool := false
  hops : Nat := 0
  sender : Nat := 0
  wAft : Int := 0
  wFore : Int := 0
  edge : Option Foreign := none
  units : List UnitRec := []
  deriving DecidableEq, Repr

/-- A roster (10 R269, Table 10-6). -/
structure Roster where
  cold : Bool := false
  merge : Bool := false
  vehicles : Nat := 0
  nodes : Nat := 0
  n : Nat := 8
  entries : Nat := 0
  plan : Nat := 0
  inaug : Nat := 0
  effective : Nat := 0
  shiftAft : Int := 0
  shiftFore : Int := 0
  units : List UnitRec := []
  deriving DecidableEq, Repr

/-- A roster as a hub receives it. -/
structure RosterMsg where
  crossing : Nat := 0
  tagOk : Bool := true
  roster : Roster := {}
  deriving DecidableEq, Repr

/-- An Ethernet frame at a consist port (11 R288, R290): addresses, its VLAN tag where it has one, whether a second tag or TPID
0x88A8 stands in it, what it carries (`op` the operation of an ARP message or the type of an ICMP message), its length and its FCS. -/
structure EthFrame where
  dst : Nat := 0
  src : Nat := 0
  vid : Option Nat := none
  badTag : Bool := false
  ethertype : Nat := 0
  dstIp : Nat := 0
  proto : Nat := 0
  dstUdp : Nat := 0
  op : Nat := 0
  fragmented : Bool := false
  options : Bool := false
  len : Nat := 64
  fcsOk : Bool := true
  t : Nat := 0
  deriving DecidableEq, Repr

/-- A handshake fragment (11 R297): index, count and the body bytes it holds. -/
structure Fragment where
  version : Nat := 1
  num : Nat := 0
  count : Nat := 1
  data : List Byte := []
  deriving DecidableEq, Repr

/-- What a HELLO holds once its fragments are together (11 R297 to R299): whether it is well formed and its algorithms and
extensions supported, the peer's fingerprint, the certificate of the CA that the chain leads to, whether every signature of the
chain verifies, the chain's validity in UTC ns, and the peer's nonce and key shares. -/
structure HelloMsg where
  formed : Bool := true
  supported : Bool := true
  fp : Nat := 0
  root : List Byte := []
  chainOk : Bool := true
  notBefore : Nat := 0
  notAfter : Nat := 0
  nonce : Nat := 0
  share : Nat := 0
  deriving DecidableEq, Repr

/-- What a FINISH holds once its fragments are together (11 R298): whether it is well formed, and whether signature and
confirmation verify. -/
structure FinishMsg where
  formed : Bool := true
  ok : Bool := true
  deriving DecidableEq, Repr

/-- A protected session record as it arrives (11 R294 to R296): the version and the port (16 the service port), the header's session number,
key phase and sequence number, whether the tag verifies under the keys of that phase, and the sender's addresses. -/
structure SessRecord where
  version : Nat := 1
  port : Nat := 0
  session : Nat := 0
  phase : Nat := 0
  seq : Nat := 0
  tagOk : Bool := true
  mac : Nat := 0
  ip : Nat := 0
  udp : Nat := 0
  vlan : Nat := 0
  t : Nat := 0
  deriving DecidableEq, Repr

/-- A twin HELLO (12 R313 to R315). -/
structure TwinHello where
  serial : Nat := 0
  gen : Nat := 1
  node : Nat := 0
  home : Nat := 0
  n : Nat := 8
  nonce : Nat := 0
  tagOk : Bool := true
  deriving DecidableEq, Repr

/-- The header values of image k that a mirror record carries (12 R332). -/
structure MirHead where
  k : Nat := 0
  tk : Nat := 0
  pos : Int := 0
  speed : Int := 0
  mode : Nat := 2
  supply : Nat := 1
  lease : Bool := false
  lanes : Nat := 3
  temp : Int := 0
  osc : Int := 0
  deriving DecidableEq, Repr

/-- An item of a mirror record (12 R332): the mirrored stall and image map entry that map it, its kind and source, the arrival
stamp and sequence number of its copy, and its bytes with the 16-byte item header. -/
structure MirItem where
  stall : Nat := 0
  sub : Nat := 0
  kind : Nat := 0
  source : Nat := 0
  stamp : Nat := 0
  seq : Nat := 0
  bytes : List Byte := []
  deriving DecidableEq, Repr

/-- A mirror record (12 R332): train crossing, whether it is complete, header values and items of image k, results (stall, tag,
code, value) and trigger entries (stall, 32 bytes) of mirrored stalls, the activations due in k + 1, next sequence numbers
(identifier, number), next tags (stall, tag), pair-scope writes (index, sub-index, instance, value), timed actions (channel,
value, instant), the CRC of each mirrored stall's descriptor with the K_tw digest of its CODE, and the K_tw digests of the
activations that ended in k − 1. -/
structure MirrorRec where
  crossing : Nat := 0
  complete : Bool := true
  head : MirHead := {}
  items : List MirItem := []
  results : List (Nat × Nat × Nat × Nat) := []
  trigs : List (Nat × List Byte) := []
  due : List Nat := []
  seqs : List (Nat × Nat) := []
  tags : List (Nat × Nat) := []
  writes : List (Nat × Nat × Nat × Nat) := []
  timed : List (Nat × Bool × Nat) := []
  codes : List (Nat × Nat × Nat) := []
  digests : List (Nat × Nat) := []
  deriving DecidableEq, Repr

/-- A catch-up message (12 R334): cells of the copy's memory, and with the join the rest of its state: general registers, pc,
status word, fuel, next tag, activation count, and the bytes dirtied in the previous crossing. -/
structure CatchUp where
  join : Bool := false
  cells : List (Nat × Byte) := []
  regs : List Word := []
  pc : Word := 0
  sw : Word := 0
  fuel : Nat := 0
  nextTag : Nat := 1
  activations : Nat := 0
  dirty : Nat := 0
  deriving DecidableEq, Repr

/-- A field output command as a field die receives it (05 R136, 14 R367): sequence number, one bit per channel,
timed actions (channel, value, instant) and channels whose pending action it withdraws (07 R204), and safety requests
(instance, reset) (15 R393). -/
structure OutCmd where
  seq : Nat := 0
  bits : Nat := 0
  timed : List (Nat × Bool × Nat) := []
  withdraw : List Nat := []
  reqs : List (Nat × Bool) := []
  deriving DecidableEq, Repr

/-- A CAN frame as it is received (13 Table 13-5). -/
structure CanFrame where
  id : Nat := 0
  ext : Bool := false
  fd : Bool := false
  brs : Bool := false
  rtr : Bool := false
  esi : Bool := false
  data : List Byte := []
  deriving DecidableEq, Repr

/-- The valid yard header that a hub finds on a device (17 R435, R436), with the page after the last one of its forward search
and that page's sequence number. -/
structure YardHead where
  serial : Nat := 0
  format : Nat := 0
  seq : Nat := 0
  wraps : Nat := 0
  shared : Bool := false
  page : Nat := 0
  pageSeq : Nat := 0
  deriving DecidableEq, Repr

/-- What a hub finds when its storage link trains: bytes of the record area, and the newest valid header. -/
structure YardFound where
  capacity : Nat := 0
  header : Option YardHead := none
  deriving DecidableEq, Repr

/-- What the phases of a module start find (20 R486): its duration in ms up to T_0; where the copy of an armed package fails,
the abort code, the block, and whether a block failed its read-back twice (18 R455); the torn settings pages that each hub
erases (18 R459); the masks of root and CA slots whose copies differ (18 R464); the injection tests that fail, each with the die
tested, 0-2 a lane, 3 and 4 a hub (06 R182); and the values that the conversion of settings gives, by entry key (18 R461). -/
structure StartReport where
  ms : Nat := 1410
  copy : Option (Nat × Nat × Bool) := none
  torn : Nat × Nat := (0, 0)
  roots : Nat := 0
  cas : Nat := 0
  tests : List (Nat × Nat) := []
  conv : List (Nat × Nat) := []
  deriving DecidableEq, Repr

/-- The commands of the block, one constructor per row of the opcode table, in its order. -/
inductive Instr where
  /-- ADD (R58: Integer add modulo 2^64 of ra and rb into rd.) -/
  | add (core : CoreIx) (rd : Reg) (ra : Reg) (rb : Reg)
  /-- SUB (R58: Integer subtract modulo 2^64 of rb from ra into rd.) -/
  | sub (core : CoreIx) (rd : Reg) (ra : Reg) (rb : Reg)
  /-- AND (R58: Bitwise AND of ra and rb into rd.) -/
  | and (core : CoreIx) (rd : Reg) (ra : Reg) (rb : Reg)
  /-- OR (R58: Bitwise OR of ra and rb into rd.) -/
  | or (core : CoreIx) (rd : Reg) (ra : Reg) (rb : Reg)
  /-- XOR (R58: Bitwise XOR of ra and rb into rd.) -/
  | xor (core : CoreIx) (rd : Reg) (ra : Reg) (rb : Reg)
  /-- SLL (R69: Shift ra left by rb[5:0] into rd.) -/
  | sll (core : CoreIx) (rd : Reg) (ra : Reg) (rb : Reg)
  /-- SRL (R69: Shift ra right by rb[5:0] with zero fill into rd.) -/
  | srl (core : CoreIx) (rd : Reg) (ra : Reg) (rb : Reg)
  /-- SRA (R69: Shift ra right by rb[5:0] with sign fill into rd.) -/
  | sra (core : CoreIx) (rd : Reg) (ra : Reg) (rb : Reg)
  /-- SLT (R58: Set rd to 1 if ra is less than rb signed, else 0.) -/
  | slt (core : CoreIx) (rd : Reg) (ra : Reg) (rb : Reg)
  /-- SLTU (R58: Set rd to 1 if ra is less than rb unsigned, else 0.) -/
  | sltu (core : CoreIx) (rd : Reg) (ra : Reg) (rb : Reg)
  /-- MUL (R58: Low 64 bits of ra times rb into rd.) -/
  | mul (core : CoreIx) (rd : Reg) (ra : Reg) (rb : Reg)
  /-- MULH (R58: High 64 bits of the signed product of ra and rb into rd.) -/
  | mulh (core : CoreIx) (rd : Reg) (ra : Reg) (rb : Reg)
  /-- MULHU (R58: High 64 bits of the unsigned product of ra and rb into rd.) -/
  | mulhu (core : CoreIx) (rd : Reg) (ra : Reg) (rb : Reg)
  /-- DIV (R69: Signed division truncated toward zero; divide fault on rb = 0.) -/
  | div (core : CoreIx) (rd : Reg) (ra : Reg) (rb : Reg)
  /-- DIVU (R69: Unsigned division; divide fault on rb = 0.) -/
  | divu (core : CoreIx) (rd : Reg) (ra : Reg) (rb : Reg)
  /-- REM (R69: Signed remainder taking the sign of the dividend; divide fault on rb = 0.) -/
  | rem (core : CoreIx) (rd : Reg) (ra : Reg) (rb : Reg)
  /-- REMU (R69: Unsigned remainder; divide fault on rb = 0.) -/
  | remu (core : CoreIx) (rd : Reg) (ra : Reg) (rb : Reg)
  /-- MIN (R58: Signed lesser of ra and rb into rd.) -/
  | min (core : CoreIx) (rd : Reg) (ra : Reg) (rb : Reg)
  /-- MAX (R58: Signed greater of ra and rb into rd.) -/
  | max (core : CoreIx) (rd : Reg) (ra : Reg) (rb : Reg)
  /-- MINU (R58: Unsigned lesser of ra and rb into rd.) -/
  | minu (core : CoreIx) (rd : Reg) (ra : Reg) (rb : Reg)
  /-- MAXU (R58: Unsigned greater of ra and rb into rd.) -/
  | maxu (core : CoreIx) (rd : Reg) (ra : Reg) (rb : Reg)
  /-- CLZ (R58: Count leading zero bits of ra into rd.) -/
  | clz (core : CoreIx) (rd : Reg) (ra : Reg)
  /-- CTZ (R58: Count trailing zero bits of ra into rd.) -/
  | ctz (core : CoreIx) (rd : Reg) (ra : Reg)
  /-- POPC (R58: Count 1 bits of ra into rd.) -/
  | popc (core : CoreIx) (rd : Reg) (ra : Reg)
  /-- BSWAP (R58: Reverse the byte order of ra into rd.) -/
  | bswap (core : CoreIx) (rd : Reg) (ra : Reg)
  /-- MOVNZ (R58: Copy ra to rd when rb is non-zero.) -/
  | movnz (core : CoreIx) (rd : Reg) (ra : Reg) (rb : Reg)
  /-- MOVZ (R58: Copy ra to rd when rb is zero.) -/
  | movz (core : CoreIx) (rd : Reg) (ra : Reg) (rb : Reg)
  /-- ADDI (R58: Add sign-extended imm16 to ra into rd.) -/
  | addi (core : CoreIx) (rd : Reg) (ra : Reg) (imm : BitVec 16)
  /-- ANDI (R58: AND ra with zero-extended imm16 into rd.) -/
  | andi (core : CoreIx) (rd : Reg) (ra : Reg) (imm : BitVec 16)
  /-- ORI (R58: OR ra with zero-extended imm16 into rd.) -/
  | ori (core : CoreIx) (rd : Reg) (ra : Reg) (imm : BitVec 16)
  /-- XORI (R58: XOR ra with zero-extended imm16 into rd.) -/
  | xori (core : CoreIx) (rd : Reg) (ra : Reg) (imm : BitVec 16)
  /-- SLTI (R58: Signed compare of ra with sign-extended imm16.) -/
  | slti (core : CoreIx) (rd : Reg) (ra : Reg) (imm : BitVec 16)
  /-- SLTIU (R58: Unsigned compare of ra with sign-extended imm16.) -/
  | sltiu (core : CoreIx) (rd : Reg) (ra : Reg) (imm : BitVec 16)
  /-- SLLI (R57: Shift left by imm16[5:0]; nonzero imm16[15:6] is illegal.) -/
  | slli (core : CoreIx) (rd : Reg) (ra : Reg) (sh : BitVec 6)
  /-- SRLI (R57: Logical shift right by imm16[5:0].) -/
  | srli (core : CoreIx) (rd : Reg) (ra : Reg) (sh : BitVec 6)
  /-- SRAI (R57: Arithmetic shift right by imm16[5:0].) -/
  | srai (core : CoreIx) (rd : Reg) (ra : Reg) (sh : BitVec 6)
  /-- LUI (R58: Load sign-extended imm16 shifted by 16 into rd.) -/
  | lui (core : CoreIx) (rd : Reg) (imm : BitVec 16)
  /-- SHORI (R58: Shift ra left 16 and OR zero-extended imm16 into rd.) -/
  | shori (core : CoreIx) (rd : Reg) (ra : Reg) (imm : BitVec 16)
  /-- BEQ (R68: Branch when ra equals rb; target outside CODE raises ACC after retirement.) -/
  | beq (core : CoreIx) (ra : Reg) (rb : Reg) (off : BitVec 16)
  /-- BNE (R68: Branch when ra differs from rb.) -/
  | bne (core : CoreIx) (ra : Reg) (rb : Reg) (off : BitVec 16)
  /-- BLT (R68: Branch when ra is less than rb signed.) -/
  | blt (core : CoreIx) (ra : Reg) (rb : Reg) (off : BitVec 16)
  /-- BGE (R68: Branch when ra is at least rb signed.) -/
  | bge (core : CoreIx) (ra : Reg) (rb : Reg) (off : BitVec 16)
  /-- BLTU (R68: Branch when ra is less than rb unsigned.) -/
  | bltu (core : CoreIx) (ra : Reg) (rb : Reg) (off : BitVec 16)
  /-- BGEU (R68: Branch when ra is at least rb unsigned.) -/
  | bgeu (core : CoreIx) (ra : Reg) (rb : Reg) (off : BitVec 16)
  /-- JMP (R68: Jump pc-relative by off26.) -/
  | jmp (core : CoreIx) (off : BitVec 26)
  /-- CALL (R68: Write pc + 4 to g30 and jump pc-relative by off26.) -/
  | call (core : CoreIx) (off : BitVec 26)
  /-- JALR (R68: Jump to ra + imm16 with link in rd; misaligned target raises ALN.) -/
  | jalr (core : CoreIx) (rd : Reg) (ra : Reg) (imm : BitVec 16)
  /-- LD_B (R66: Load sign-extended byte at ea.) -/
  | ldB (core : CoreIx) (rt : Reg) (ra : Reg) (disp : BitVec 16)
  /-- LD_BU (R66: Load zero-extended byte at ea.) -/
  | ldBu (core : CoreIx) (rt : Reg) (ra : Reg) (disp : BitVec 16)
  /-- LD_H (R66: Load sign-extended halfword with alignment and access checks.) -/
  | ldH (core : CoreIx) (rt : Reg) (ra : Reg) (disp : BitVec 16)
  /-- LD_HU (R66: Load zero-extended halfword.) -/
  | ldHu (core : CoreIx) (rt : Reg) (ra : Reg) (disp : BitVec 16)
  /-- LD_W (R66: Load sign-extended word.) -/
  | ldW (core : CoreIx) (rt : Reg) (ra : Reg) (disp : BitVec 16)
  /-- LD_WU (R66: Load zero-extended word.) -/
  | ldWu (core : CoreIx) (rt : Reg) (ra : Reg) (disp : BitVec 16)
  /-- LD_D (R66: Load doubleword at ea, DICTWIN accesses further checked under R49.) -/
  | ldD (core : CoreIx) (rt : Reg) (ra : Reg) (disp : BitVec 16)
  /-- ST_B (R66: Store low byte of rt at ea.) -/
  | stB (core : CoreIx) (rt : Reg) (ra : Reg) (disp : BitVec 16)
  /-- ST_H (R66: Store low halfword of rt at ea.) -/
  | stH (core : CoreIx) (rt : Reg) (ra : Reg) (disp : BitVec 16)
  /-- ST_W (R66: Store low word of rt at ea.) -/
  | stW (core : CoreIx) (rt : Reg) (ra : Reg) (disp : BitVec 16)
  /-- ST_D (R66: Store rt at ea; a DICTWIN store becomes an output applied at the boundary.) -/
  | stD (core : CoreIx) (rt : Reg) (ra : Reg) (disp : BitVec 16)
  /-- FADD (R70: Binary64 addition with flags and optional trap.) -/
  | fadd (core : CoreIx) (rd : Reg) (ra : Reg) (rb : Reg)
  /-- FSUB (R70: Binary64 subtraction.) -/
  | fsub (core : CoreIx) (rd : Reg) (ra : Reg) (rb : Reg)
  /-- FMUL (R70: Binary64 multiplication.) -/
  | fmul (core : CoreIx) (rd : Reg) (ra : Reg) (rb : Reg)
  /-- FDIV (R70: Binary64 division, correctly rounded.) -/
  | fdiv (core : CoreIx) (rd : Reg) (ra : Reg) (rb : Reg)
  /-- FSQRT (R70: Binary64 square root, correctly rounded.) -/
  | fsqrt (core : CoreIx) (rd : Reg) (ra : Reg)
  /-- FMADD (R70: Fused multiply-add with one rounding.) -/
  | fmadd (core : CoreIx) (rd : Reg) (ra : Reg) (rb : Reg)
  /-- FMSUB (R70: Fused multiply-subtract with one rounding.) -/
  | fmsub (core : CoreIx) (rd : Reg) (ra : Reg) (rb : Reg)
  /-- FMIN (R74: Minimum number of ra and rb.) -/
  | fmin (core : CoreIx) (rd : Reg) (ra : Reg) (rb : Reg)
  /-- FMAX (R74: Maximum number of ra and rb.) -/
  | fmax (core : CoreIx) (rd : Reg) (ra : Reg) (rb : Reg)
  /-- FEQ (R74: Quiet equality compare.) -/
  | feq (core : CoreIx) (rd : Reg) (ra : Reg) (rb : Reg)
  /-- FLT (R74: Signalling less-than compare.) -/
  | flt (core : CoreIx) (rd : Reg) (ra : Reg) (rb : Reg)
  /-- FLE (R74: Signalling less-or-equal compare.) -/
  | fle (core : CoreIx) (rd : Reg) (ra : Reg) (rb : Reg)
  /-- FNEG (R71: Invert bit 63 of ra.) -/
  | fneg (core : CoreIx) (rd : Reg) (ra : Reg)
  /-- FABS (R71: Clear bit 63 of ra.) -/
  | fabs (core : CoreIx) (rd : Reg) (ra : Reg)
  /-- FCPYS (R71: Copy ra with the sign bit of rb.) -/
  | fcpys (core : CoreIx) (rd : Reg) (ra : Reg) (rb : Reg)
  /-- ITOF (R70: Convert I64 to binary64.) -/
  | itof (core : CoreIx) (rd : Reg) (ra : Reg)
  /-- UTOF (R70: Convert U64 to binary64.) -/
  | utof (core : CoreIx) (rd : Reg) (ra : Reg)
  /-- FTOI (R73: Convert binary64 to I64 with saturation rules.) -/
  | ftoi (core : CoreIx) (rd : Reg) (ra : Reg)
  /-- FTOU (R73: Convert binary64 to U64 with saturation rules.) -/
  | ftou (core : CoreIx) (rd : Reg) (ra : Reg)
  /-- FINT (R73: Round to integral binary64, ties to even.) -/
  | fint (core : CoreIx) (rd : Reg) (ra : Reg)
  /-- FTRUNC (R73: Round to integral binary64 toward zero.) -/
  | ftrunc (core : CoreIx) (rd : Reg) (ra : Reg)
  /-- BRK (R88: Raise a breakpoint with frame pc at the BRK.) -/
  | brk (core : CoreIx)
  /-- ERET (R87: Return from handler, restoring pc, status word and g1-g3 from the frame.) -/
  | eret (core : CoreIx)
  /-- RDSW (R55: Copy the status word into rd.) -/
  | rdsw (core : CoreIx) (rd : Reg)
  /-- WRSW (R55: Replace status-word trap-enable and flag bits from ra.) -/
  | wrsw (core : CoreIx) (ra : Reg)
  /-- RDFUEL (R58: Read remaining fuel after this instruction's charge.) -/
  | rdfuel (core : CoreIx) (rd : Reg)
  /-- BCOPY (R79: Block copy in granules from g2 to g1.) -/
  | bcopy (core : CoreIx)
  /-- BFILL (R80: Block fill at g1 with the address-tied pattern of g2.) -/
  | bfill (core : CoreIx)
  /-- BCRC (R81: Block CRC-32C over g1 updating g2.) -/
  | bcrc (core : CoreIx)
  /-- BCMP (R82: Block compare of g1 and g2 writing -1, 0 or +1 to rd.) -/
  | bcmp (core : CoreIx) (rd : Reg)
  /-- ILLEGAL_INSTRUCTION (R57: An unassigned or malformed word raises an illegal-instruction exception.) -/
  | illegalInstruction (core : CoreIx) (word : BitVec 32)
  /-- SVC_YIELD (R84: End the activation, resuming at pc + 4.) -/
  | svcYield (core : CoreIx)
  /-- SEND_BACKBONE_TELEGRAM (R134: SVC_SEND of an OUTBOX backbone telegram, checked and posted.) -/
  | sendBackboneTelegram (core : CoreIx)
  /-- SEND_STALL_DATA_TELEGRAM (R305: SVC_SEND of a stall data telegram on a session.) -/
  | sendStallDataTelegram (core : CoreIx)
  /-- BRIDGE_WRITE (R350: SVC_SEND of a bridge WRITE operation to a window.) -/
  | bridgeWrite (core : CoreIx)
  /-- BRIDGE_READ (R351: SVC_SEND of a bridge READ operation to a window.) -/
  | bridgeRead (core : CoreIx)
  /-- BRIDGE_LOCK (R353: SVC_SEND of a LOCK on a semaphore group.) -/
  | bridgeLock (core : CoreIx)
  /-- BRIDGE_UNLOCK (R353: SVC_SEND of an UNLOCK on a semaphore group.) -/
  | bridgeUnlock (core : CoreIx)
  /-- SEND_FIELD_OUTPUT_COMMAND (R135: SVC_SEND of a DO channel command.) -/
  | sendFieldOutputCommand (core : CoreIx)
  /-- SVC_TRIG_ARM (R200: Post a trigger arm request after SVC checks.) -/
  | svcTrigArm (core : CoreIx)
  /-- SVC_TRIG_CANCEL (R207: Post a trigger cancel request.) -/
  | svcTrigCancel (core : CoreIx)
  /-- SVC_EVENT (R420: Post a stall-defined event record subject to rate limiting.) -/
  | svcEvent (core : CoreIx)
  /-- SVC_SAFETY_REQ_START (R393: Post a start request for an evaluator evaluator.) -/
  | svcSafetyReqStart (core : CoreIx)
  /-- SVC_SAFETY_REQ_RESET (R393: Post a reset request for an evaluator evaluator.) -/
  | svcSafetyReqReset (core : CoreIx)
  /-- SVC_FAULT (R115: Fault and stop the stall with a stall-defined code.) -/
  | svcFault (core : CoreIx)
  /-- SVC_UNASSIGNED (R86: An SVC number absent from the table returns 0x0200_0000.) -/
  | svcUnassigned (core : CoreIx) (number : BitVec 16)
  /-- SUPERVISOR_PAUSE (R65: The lane supervisor pauses a stall to serve its own interrupts.) -/
  | supervisorPause (lane : Fin 3) (core : CoreIx) (cycles : Nat)
  /-- ACTIVATION_START (R139: A core starts the next activation of the crossing, building IMAGE and loading the checker.) -/
  | activationStart (core : CoreIx)
  /-- FIELD_SAMPLE (R120: Field dies sample every input at T_k - 6 us and send to both hubs.) -/
  | fieldSample (die : Fin 2) (t : Nat) (toHa : Bool) (toHb : Bool)
  /-- IMAGE_CLOSE (R121: Hubs close image k at T_k and send the close marker with digest.) -/
  | imageClose (hub : Fin 2) (rd : HubReading)
  /-- CROSSING_BOUNDARY (R511: Lane supervisors apply everything due at boundary b in the order of Table 21-4.) -/
  | crossingBoundary
  /-- INPUT_AGREEMENT (R162: Lanes merge hub images, exchange digests with echo and adopt image k.) -/
  | inputAgreement (rep : AgreeReport)
  /-- CHECKPOINT_AGREEMENT (R174: Checkpoint digests exchanged with echo in the End phase and agreed.) -/
  | checkpointAgreement (dev : List LaneDiff) (equiv : List Nat)
  /-- ROLLBACK_COMPLETE (R180: A lane completes its rollback restart.) -/
  | rollbackComplete (lane : Fin 3)
  /-- TIMING_LAG (R123: A core still running at T_{k+1} + C - 12 us reports timing lag.) -/
  | timingLag (lane : Fin 3) (core : CoreIx)
  /-- VOTER_COPY_ARRIVAL (R165: A lane's output word copy reaches a voter and is compared; release on a match.) -/
  | voterCopyArrival (hub : Fin 2) (lane : Fin 3) (payload : Word) (pos : BitVec 40) (mark : BitVec 24) (t : Nat)
  /-- SKEW_WINDOW_CLOSE (R165: The skew window closes, faulting absent lanes or starting a mismatch restart.) -/
  | skewWindowClose (hub : Fin 2) (index : Nat) (t : Nat)
  /-- RELEASE_DEADLINE (R168: An unreleased item at its deadline is replaced by its held copy.) -/
  | releaseDeadline (hub : Fin 2) (item : Nat) (t : Nat)
  /-- VOTE_HOLD_LIMIT_EXPIRY (R169: Held output beyond VOTE_HOLD_LIMIT gives empty slots and safe-state commands.) -/
  | voteHoldLimitExpiry (hub : Fin 2) (key : Nat) (t : Nat)
  /-- INTERNAL_LINK_TRANSFER (R13: A die receives an internal-link transfer checked by CRC and sequence.) -/
  | internalLinkTransfer (link : Fin 34) (seq : Nat) (crcOk : Bool) (t : Nat)
  /-- INTERNAL_LINK_DISCARD_LIMIT (R13: Eight consecutive crossings with a discard declare the link failed.) -/
  | internalLinkDiscardLimit (link : Fin 34) (t : Nat)
  /-- INTERNAL_LINK_SILENCE (R13: Silence beyond the link's limit declares the link failed.) -/
  | internalLinkSilence (link : Fin 34) (t : Nat)
  /-- INTERNAL_LINK_RESTORED (R13: A failed link is restored after one crossing without error.) -/
  | internalLinkRestored (link : Fin 34) (t : Nat)
  /-- DIE_RESET_COMMAND (R16: A die receives a command reset, refusing one from a single hub while both are healthy.) -/
  | dieResetCommand (die : Fin 7) (fromHa : Bool) (fromHb : Bool) (t : Nat)
  /-- DAP_READ (R43: DAP READ request returning the value held at the crossing start.) -/
  | dapRead (ctx : Nat) (msg : DapMsg)
  /-- DAP_WRITE (R43: DAP WRITE request judged and applied at boundary j + 2.) -/
  | dapWrite (ctx : Nat) (msg : DapMsg)
  /-- DAP_LOGIN (R467: DAP LOGIN held for password derivation, then role raised or refused.) -/
  | dapLogin (ctx : Nat) (msg : DapMsg)
  /-- DAP_LOGOUT (R32: DAP LOGOUT returning the context to Observer.) -/
  | dapLogout (ctx : Nat) (msg : DapMsg)
  /-- DAP_DESCRIBE (R530: DAP DESCRIBE returning an entry's attributes.) -/
  | dapDescribe (ctx : Nat) (msg : DapMsg)
  /-- DICT_WRITE (R43: Write to an entry with no behaviour of its own, stored at the boundary.) -/
  | dictWrite (ctx : Nat) (index : Nat) (sub : Nat) (v : Nat)
  /-- SELECT_WRITE (R36: Write of a context's select entry choosing the instance reached.) -/
  | selectWrite (ctx : Nat) (index : Nat) (v : Nat)
  /-- LOCK_BITS_WRITE (R38: Set-only write of lock bits.) -/
  | lockBitsWrite (ctx : Nat) (sub : Nat) (v : Nat)
  /-- LOCK_AT_START_WRITE (R500: Write of the lock bits to set at S9.) -/
  | lockAtStartWrite (ctx : Nat) (sub : Nat) (v : Nat)
  /-- STALL_LOAD (R103: Load a stall package into the lowest free id.) -/
  | stallLoad (ctx : Nat) (pkg : Nat) (grant : Word)
  /-- LOAD_COPY_COMPLETE (R104: A lane finishes copying a package and reports its digest.) -/
  | loadCopyComplete (lane : Fin 3) (stall : Nat) (digest : Nat)
  /-- STALL_CMD_START (R138: START admits a stall at the lowest fitting phase and makes it RUNNING.) -/
  | stallCmdStart (ctx : Nat)
  /-- STALL_CMD_STOP (R111: STOP makes a stall STOPPED and releases its admission.) -/
  | stallCmdStop (ctx : Nat)
  /-- STALL_CMD_RESTART (R111: RESTART reinitialises DATA, STACK, OUTBOX and BULK and resumes RUNNING.) -/
  | stallCmdRestart (ctx : Nat)
  /-- STALL_CMD_UNLOAD (R108: UNLOAD puts the stall in UNLOADING and frees it.) -/
  | stallCmdUnload (ctx : Nat)
  /-- STALL_REPLACE (R106: Start loading a replacement package beside the running version.) -/
  | stallReplace (ctx : Nat) (pkg : Nat)
  /-- STALL_HOLD (R143: HOLD turns a RUNNING stall HELD and the module to HOLD.) -/
  | stallHold (ctx : Nat)
  /-- STALL_RELEASE (R143: RELEASE returns a HELD stall to RUNNING.) -/
  | stallRelease (ctx : Nat)
  /-- STALL_IMAP_WRITE (R131: Write of an image map entry with admission recheck.) -/
  | stallImapWrite (ctx : Nat) (sub : Nat) (v : Nat)
  /-- CYCLE_MODE_CMD_RUN (R142: Command the module into RUN.) -/
  | cycleModeCmdRun (ctx : Nat)
  /-- CYCLE_MODE_CMD_STOP (R142: Command the module into STOP.) -/
  | cycleModeCmdStop (ctx : Nat)
  /-- CYCLE_CPF_WRITE (R138: Write of cycles per fuel unit, refused if an admitted stall would not fit.) -/
  | cycleCpfWrite (ctx : Nat) (v : Nat)
  /-- DI_FORCE (R147: Set or remove a force on a DI channel.) -/
  | diForce (ctx : Nat) (v : Nat)
  /-- DO_FORCE (R147: Set or remove a force on a DO channel.) -/
  | doForce (ctx : Nat) (v : Nat)
  /-- AI_FORCE (R147: Set or remove a force on an analog channel.) -/
  | aiForce (ctx : Nat) (v : Nat)
  /-- FORCE_CLEAR_ALL (R147: Remove every force.) -/
  | forceClearAll (ctx : Nat)
  /-- FORCE_EXPIRY (R147: A force expires after FORCE_TIMEOUT and records event 0x2053.) -/
  | forceExpiry (kind : Fin 3) (channel : Nat)
  /-- RETAIN_COMMIT_PASS (R149: A pass commits every stall's retained data to both MRAM retain stores.) -/
  | retainCommitPass (bad : List Nat)
  /-- RESTABLE_CMD (R175: Start re-stabling of a lane in OUT.) -/
  | restableCmd (ctx : Nat) (v : Nat)
  /-- LANE_RESET_COMPLETE (R175: A target lane completes its reset, allowing bulk.) -/
  | laneResetComplete (lane : Fin 3) (t : Nat)
  /-- RESTABLE_BULK_COMPLETE (R175: Bulk state transfer to the target lane completes.) -/
  | restableBulkComplete (lane : Fin 3)
  /-- RESTABLE_LIMIT_EXPIRY (R178: An attempt not joined within RESTABLE_LIMIT is abandoned.) -/
  | restableLimitExpiry (lane : Fin 3)
  /-- RESTABLE_RETRY (R178: A new re-stabling attempt starts 1 s after an abandonment.) -/
  | restableRetry (lane : Fin 3)
  /-- LANE_RESET (R497: Command reset of a lane in OUT or FAILED.) -/
  | laneReset (ctx : Nat)
  /-- BELL_RECEIVED (R271: A hub checks a bell and computes its phase error.) -/
  | bellReceived (link : Fin 4) (bell : Bell)
  /-- BELL_LOSS (R187: No valid bell for 3 crossings moves the time base to HOLDOVER.) -/
  | bellLoss (plane : Fin 2)
  /-- OSC_CORRECTION_OUT_OF_RANGE (R192: Required oscillator correction out of range for 8 crossings faults a lane or frees a hub.) -/
  | oscCorrectionOutOfRange (die : Fin 5) (ppb : Int) (t : Nat)
  /-- TIME_HUB_DIFF_ALERT (R190: Hub time difference above 200 ns for 8 crossings records event 0x2071.) -/
  | timeHubDiffAlert
  /-- TACHO_TRANSITION (R193: A quadrature transition is counted or flagged as a phase error.) -/
  | tachoTransition (ch : Fin 4) (phaseB : Bool) (level : Bool) (t : Nat)
  /-- TACHO_FAULT_CLEAR (R193: The 1 s phase-error fault bit of a channel expires.) -/
  | tachoFaultClear (ch : Fin 4) (t : Nat)
  /-- POS_DATUM_SET (R199: Write sets the position of the next image as a datum.) -/
  | posDatumSet (ctx : Nat) (v : Nat)
  /-- TRIG_CANCEL (R207: Maintenance cancel of the selected trigger with a LAST entry.) -/
  | trigCancel (ctx : Nat)
  /-- TIMED_DO_INSTANT (R204: A field die switches a carried TIMED_DO channel at its target.) -/
  | timedDoInstant (die : Fin 2) (channel : Nat) (t : Nat)
  /-- SUPPLY_MODE_CMD (R211: Write of the supply mode, effective at the boundary after.) -/
  | supplyModeCmd (ctx : Nat) (v : Nat)
  /-- SHED_RECEIVER_STOP (R224: At T_{b+2} a closing port shed stops its receivers and drops partial data.) -/
  | shedReceiverStop (shed : Fin 12) (dropped : Nat) (t : Nat)
  /-- BUDGET_OVERRUN_ALERT (R219: Level 8 with P_avg above budget for 1000 ms records event 0x1033.) -/
  | budgetOverrunAlert
  /-- THERMAL_TRIP (R219: A die at 125 C junction is reset by its hardware thermal trip.) -/
  | thermalTrip (die : Fin 7) (t : Nat)
  /-- ALIGNMENT_MARKER (R229: A bonding alignment marker received locks or loses bonding.) -/
  | alignmentMarker (link : Fin 4) (m : MarkerIn) (count : Nat) (skew : Nat)
  /-- LINK_PEER_SILENCE (R230: No valid bell or frame from the peer for 3 crossings moves a link to ALIGNED.) -/
  | linkPeerSilence (link : Fin 4)
  /-- LINK_DOWN (R283: A backbone link goes DOWN, splitting the plane.) -/
  | linkDown (link : Fin 4)
  /-- RELAY_START_BLOCK (R233: A start block is relayed at its planned time or counted as unplanned.) -/
  | relayStartBlock (link : Fin 4) (bell : Bool) (start : Int) (rx : RelayIn) (t : Nat)
  /-- BELL_SEND (R234: The ferryman sends the bell at unit 0 of every crossing.) -/
  | bellSend (plane : Fin 2)
  /-- SLOT_TRANSMIT (R246: A node sends its telegram, held copy or nothing at a slot's passage time.) -/
  | slotTransmit (plane : Fin 2) (slot : Nat) (t : Nat)
  /-- BACKBONE_FRAME_RECEIVED (R249: A hub checks a received frame and counts the slot outcome.) -/
  | backboneFrameReceived (link : Fin 4) (frame : BbFrame)
  /-- SPEED_REF_TELEGRAM (R254: A SPEED_REF system telegram supplies v_ref.) -/
  | speedRefTelegram (speed : Int) (valid : Bool)
  /-- DATUM_TELEGRAM (R255: A DATUM telegram with a new instant schedules a datum.) -/
  | datumTelegram (instant : Nat)
  /-- UTC_TELEGRAM (R256: A UTC telegram with VALID sets the UTC offset at the next boundary.) -/
  | utcTelegram (offset : Int) (valid : Bool)
  /-- BB_PLAN_LOAD (R245: Load a slot plan package as the configured plan.) -/
  | bbPlanLoad (ctx : Nat) (v : Nat)
  /-- BB_KEY_ACTIVE (R241: Select the backbone key named in later bells.) -/
  | bbKeyActive (ctx : Nat) (v : Nat)
  /-- BB_DATUM_ANNOUNCE (R255: Announce a datum in the next eight DATUM slots.) -/
  | bbDatumAnnounce (ctx : Nat) (v : Nat)
  /-- BB_COMPANION_LOAD (R276: Load a companion plan package.) -/
  | bbCompanionLoad (ctx : Nat) (v : Nat)
  /-- BB_COMPANION_REMOVE (R276: Remove a companion plan.) -/
  | bbCompanionRemove (ctx : Nat) (v : Nat)
  /-- PROBE_SEND (R265: A hub sends one probe per crossing on each aligned link.) -/
  | probeSend (link : Fin 4) (t : Int)
  /-- PROBE_RECEIVED (R265: A probe is answered with an echo after 96 ns.) -/
  | probeReceived (link : Fin 4) (count : Nat) (busy : Bool) (t : Int)
  /-- ECHO_RECEIVED (R265: An echo yields a link delay sample.) -/
  | echoReceived (link : Fin 4) (count : Nat) (t : Int)
  /-- LINK_DELAY_LOSS (R265: No valid delay sample in 16 crossings leaves a link without delay.) -/
  | linkDelayLoss (link : Fin 4)
  /-- CHAIN_ORIGINATE (R266: Ferryman and segment ends originate outward and inward chains each crossing.) -/
  | chainOriginate (plane : Fin 2)
  /-- OUTWARD_CHAIN (R267: A received outward chain sets offsets and orientation and is regenerated.) -/
  | outwardChain (link : Fin 4) (ch : OutChain)
  /-- INWARD_CHAIN (R268: A received inward chain has a unit record appended and is regenerated.) -/
  | inwardChain (link : Fin 4) (ch : InChain)
  /-- ROSTER_SEND (R269: The ferryman sends the roster each crossing.) -/
  | rosterSend (plane : Fin 2)
  /-- ROSTER_RECEIVED (R269: A hub receives a roster announcing an effective crossing.) -/
  | rosterReceived (link : Fin 4) (ros : RosterMsg)
  /-- LISTEN_TIMEOUT (R272: Listen time runs out and the module claims with COLD bells.) -/
  | listenTimeout (plane : Fin 2)
  /-- COLD_BELL_RECEIVED (R273: A COLD bell is compared and a better claim makes the module land on it.) -/
  | coldBellReceived (link : Fin 4) (bell : Bell)
  /-- CLAIM_CONFIRMED (R273: Eight unchallenged bells confirm the ferryman.) -/
  | claimConfirmed
  /-- EDGE_DETECTED (R279: A link reaches UP towards a foreign segment and becomes an edge.) -/
  | edgeDetected (link : Fin 4) (ch : OutChain)
  /-- MERGE_YIELD (R281: The joining ferryman yields once the offset is within 40 ns for two crossings.) -/
  | mergeYield
  /-- CONTENTION_TIMEOUT (R283: After holdover and 255 - p crossings without a bell, a module sends bells.) -/
  | contentionTimeout
  /-- UNIT_ABSENCE_REMOVAL (R276: A unit absent from inward chains for 64 crossings is removed from the roster.) -/
  | unitAbsenceRemoval (unitId : Nat)
  /-- PORT_FRAME_RECEIVED (R288: A consist port receives an Ethernet frame, filtered, switched or terminated.) -/
  | portFrameReceived (port : Fin 16) (fr : EthFrame)
  /-- MAC_AGEING (R289: A learned MAC address ages out after 300 s.) -/
  | macAgeing (hub : Fin 2) (mac : Nat) (t : Nat)
  /-- ARP_REQUEST (R290: Answer an ARP request for the endpoint address.) -/
  | arpRequest (port : Fin 17) (ip : Nat) (mac : Nat) (vlan : Nat)
  /-- ICMP_ECHO_REQUEST (R290: Answer an ICMP echo within the rate limit.) -/
  | icmpEchoRequest (port : Fin 17) (ip : Nat) (src : Nat) (data : List Byte) (t : Nat)
  /-- HELLO (R297: A handshake HELLO is reassembled, checked and answered with ANSWER or REFUSE.) -/
  | hello (port : Fin 17) (id : Nat) (frag : Fragment) (hs : HelloMsg) (t : Nat)
  /-- FINISH (R298: A FINISH is checked and answered with READY or REFUSE.) -/
  | finish (port : Fin 17) (id : Nat) (frag : Fragment) (fin : FinishMsg) (t : Nat)
  /-- FRAGMENT_TIMEOUT (R297: An incomplete fragment set is discarded after 1 s.) -/
  | fragmentTimeout (id : Nat) (t : Nat)
  /-- HANDSHAKE_TIMEOUT (R297: A handshake not at step 4 within 5 s is abandoned.) -/
  | handshakeTimeout (id : Nat) (t : Nat)
  /-- SESSION_DAP_RECORD (R303: A protected DAP record is verified, replay-checked and queued.) -/
  | sessionDapRecord (hub : Fin 2) (rec : SessRecord) (op : Nat) (msg : DapMsg)
  /-- SESSION_TELEGRAM_RECORD (R304: A TELEGRAM record enters the image under its identifier.) -/
  | sessionTelegramRecord (hub : Fin 2) (rec : SessRecord) (ident : Nat) (data : List Byte)
  /-- SESSION_PING (R306: A PING record refreshes the session.) -/
  | sessionPing (hub : Fin 2) (rec : SessRecord)
  /-- SESSION_CLOSE_RECORD (R306: A CLOSE record closes the session with cause 1.) -/
  | sessionCloseRecord (hub : Fin 2) (rec : SessRecord)
  /-- REKEY (R301: A peer REKEY is answered with REKEY_ANSWER and phase p + 1 is accepted.) -/
  | rekey (hub : Fin 2) (rec : SessRecord) (share : Nat)
  /-- REKEY_ANSWER (R301: A REKEY_ANSWER moves sealing to phase p + 1.) -/
  | rekeyAnswer (hub : Fin 2) (rec : SessRecord) (share : Nat)
  /-- MODULE_REKEY_START (R301: Rekey interval or 2^32 sealed records start a module REKEY.) -/
  | moduleRekeyStart (session : Nat) (t : Nat)
  /-- PHASE_KEY_ERASE (R301: Phase p keys are erased 10 s after first sealing under p + 1.) -/
  | phaseKeyErase (session : Nat) (t : Nat)
  /-- REKEY_RETRY (R302: An unanswered module REKEY is resent after 2 s, closing after three failures.) -/
  | rekeyRetry (session : Nat) (t : Nat)
  /-- IDLE_PING (R306: A PING is sent after SESS_IDLE_LIMIT / 3 without sending.) -/
  | idlePing (session : Nat) (t : Nat)
  /-- SESSION_IDLE_TIMEOUT (R306: No verified record for SESS_IDLE_LIMIT closes the session with cause 2.) -/
  | sessionIdleTimeout (session : Nat) (t : Nat)
  /-- PATH_FORGET (R294: A peer path not refreshed for SESS_IDLE_LIMIT is forgotten.) -/
  | pathForget (session : Nat) (netB : Bool) (t : Nat)
  /-- CERT_EXPIRY (R299: A chain certificate's notAfter passes and the session closes with cause 7.) -/
  | certExpiry (session : Nat)
  /-- SESS_CLOSE (R306: Write closing the selected session with cause 3.) -/
  | sessClose (ctx : Nat)
  /-- SESS_RESERVE (R292: Write of a session number reservation.) -/
  | sessReserve (ctx : Nat) (sub : Nat) (v : Nat)
  /-- SESS_DENY (R292: Write of a denied fingerprint, closing its session with cause 5.) -/
  | sessDeny (ctx : Nat) (sub : Nat) (v : Nat)
  /-- TRDP_PROCESS_DATA (R307: An allowlisted TRDP process-data telegram enters the image UNVERIFIED.) -/
  | trdpProcessData (port : Fin 16) (comId : Nat) (src : Nat) (vlan : Nat) (seq : Nat) (formed : Bool) (data : List Byte) (t : Nat)
  /-- TWIN_HELLO (R315: A twin link HELLO is checked for pairing.) -/
  | twinHello (link : Fin 4) (seq : Nat) (msg : TwinHello) (t : Nat)
  /-- TWIN_KEEPALIVE_SEND (R312: KEEPALIVE sent on a twin link silent for 1 us.) -/
  | twinKeepaliveSend (link : Fin 4) (t : Nat)
  /-- LEASE_RENEW_SEND (R317: The holder sends RENEW on every twin link at each lease boundary.) -/
  | leaseRenewSend (t : Nat)
  /-- TWIN_RENEW (R317: A RENEW is acknowledged and extends E_s, or triggers a claim.) -/
  | twinRenew (link : Fin 4) (seq : Nat) (tagOk : Bool) (boundary : Nat) (yields : Bool) (count : Nat) (markK : Nat) (markItem : Nat) (t : Nat)
  /-- TWIN_ACK (R317: An ACK extends the holder's lease end E_h.) -/
  | twinAck (link : Fin 4) (seq : Nat) (tagOk : Bool) (count : Nat) (t : Nat)
  /-- TWIN_CLAIM (R322: A CLAIM is compared and the loser ceases.) -/
  | twinClaim (link : Fin 4) (seq : Nat) (tagOk : Bool) (boundary : Nat) (holding : Bool) (t : Nat)
  /-- TWIN_RELEASE (R321: A RELEASE hands the lease to the receiving module after 4 us.) -/
  | twinRelease (link : Fin 4) (seq : Nat) (tagOk : Bool) (holder : Bool) (t : Nat)
  /-- LEASE_CEASE (R320: The holder ceases single-actor duties at E_h - 4 us.) -/
  | leaseCease (t : Nat)
  /-- LEASE_TAKE (R320: The other module takes the lease at E_s + 4 us and sends its shadow queue.) -/
  | leaseTake (t : Nat)
  /-- LISTEN_CLAIM_TIMEOUT (R322: In LISTEN, 100 us after pairing without RENEW, a module sends CLAIM.) -/
  | listenClaimTimeout (t : Nat)
  /-- ALONE_WAIT_EXPIRY (R322: Nothing heard of the twin for TWIN_ALONE_WAIT puts the module ALONE.) -/
  | aloneWaitExpiry (t : Nat)
  /-- REVERT_CLAIM (R323: The home module claims after TWIN_REVERT_DELAY of health.) -/
  | revertClaim (t : Nat)
  /-- BACKBONE_CLAIM_COMPARE (R324: A holder without links hearing HOLDER frames twice compares claims.) -/
  | backboneClaimCompare (t : Nat)
  /-- MIRROR_RECORD (R332: A twin mirror record is received and feeds SYNC copies.) -/
  | mirrorRecord (link : Fin 4) (seq : Nat) (tagOk : Bool) (rec : MirrorRec) (t : Nat)
  /-- CATCHUP (R334: A CATCHUP message delivers checkpointed state to a catching-up copy.) -/
  | catchup (link : Fin 4) (seq : Nat) (tagOk : Bool) (stall : Nat) (st : CatchUp) (t : Nat)
  /-- CATCHUP_TIMEOUT (R334: Catch-up not joined within 10 s restarts the copy in FREE.) -/
  | catchupTimeout (stall : Nat)
  /-- SHADOW_ITEM_EXPIRY (R329: A shadow queue item older than four crossings is dropped.) -/
  | shadowItemExpiry
  /-- TWIN_ENABLE_WRITE (R321: Write of TWIN_ENABLE; false sends RELEASE.) -/
  | twinEnableWrite (ctx : Nat) (v : Nat)
  /-- TWIN_DO_PARALLEL_WRITE (R337: Write of the parallel-wired DO list, refusing safety points.) -/
  | twinDoParallelWrite (ctx : Nat) (v : Nat)
  /-- MVB_PORT_RECEIVED (R347: An MVB process-data port value is received into its window.) -/
  | mvbPortReceived (ifc : Fin 2) (port : Nat) (data : List Byte) (lineB : Bool) (checkErr : Bool) (t : Nat)
  /-- MVB_MESSAGE_RECEIVED (R344: An MVB message frame is queued in its window.) -/
  | mvbMessageReceived (ifc : Fin 2) (src : Nat) (dst : Nat) (data : List Byte) (t : Nat)
  /-- CAN_FRAME_RECEIVED (R344: A CAN frame is queued in matching windows or completes a READ.) -/
  | canFrameReceived (ifc : Fin 2) (f : CanFrame) (t : Nat)
  /-- SER_BYTE_RECEIVED (R345: A SER byte is packed into an 8-byte word.) -/
  | serByteReceived (ifc : Fin 2) (b : Byte) (err : Fin 3) (t : Nat)
  /-- SER_PACK_TIMEOUT (R345: A partial SER word is flushed at an image close after BR_PACK_TIMEOUT.) -/
  | serPackTimeout (window : Nat)
  /-- SER_FRAME_END (R345: SER line idle for SER_GAP closes the word with notice 1.) -/
  | serFrameEnd (ifc : Fin 2) (t : Nat)
  /-- CAN_BUS_OFF (R342: A CAN interface goes bus-off and starts recovery.) -/
  | canBusOff (ifc : Fin 2) (t : Nat)
  /-- CAN_RESTART_HOLD_EXPIRY (R342: After CAN_RESTART_HOLD the interface returns to error-active.) -/
  | canRestartHoldExpiry (ifc : Fin 2) (t : Nat)
  /-- BRIDGE_READ_TIMEOUT (R351: A READ not completed within BR_READ_TIMEOUT queues notice 2.) -/
  | bridgeReadTimeout (window : Nat) (t : Nat)
  /-- LOCK_LIMIT_EXPIRY (R353: A semaphore group held beyond BR_LOCK_LIMIT is released.) -/
  | lockLimitExpiry (group : Nat)
  /-- BR_WINDOW_WRITE (R343: Write of a bridge window definition.) -/
  | brWindowWrite (ctx : Nat) (sub : Nat) (v : Nat)
  /-- DI_RAW_CHANGE (R360: A raw comparator change is stamped and starts the filter time.) -/
  | diRawChange (ch : Fin 64) (level : Bool) (t : Nat)
  /-- DI_EDGE_CONFIRMED (R360: A level held for the filter time becomes an edge.) -/
  | diEdgeConfirmed (ch : Fin 64) (t : Nat)
  /-- WIRE_BREAK_TIMER (R361: Voltage below or above limits for 20 ms declares or restores a wire break.) -/
  | wireBreakTimer (ch : Fin 64) (mv : Nat) (t : Nat)
  /-- COMPARATOR_TEST (R362: Once per second each input comparator is tested.) -/
  | comparatorTest (ch : Fin 64) (pass : Bool) (t : Nat)
  /-- FIELD_CONFIG_RECEIVED (R357: A field configuration message is applied under the first-copy rule.) -/
  | fieldConfigReceived (die : Fin 2) (hub : Fin 2) (seq : Nat) (t : Nat)
  /-- OUTPUT_COMMAND_RECEIVED (R20: A field die applies the first copy of an output command.) -/
  | outputCommandReceived (die : Fin 2) (hub : Fin 2) (cmd : OutCmd) (t : Nat)
  /-- HOLD_COMMAND_RECEIVED (R167: A hold command keeps outputs and counts as hub activity.) -/
  | holdCommandReceived (die : Fin 2) (hub : Fin 2) (seq : Nat) (t : Nat)
  /-- SAFE_STATE_COMMAND_RECEIVED (R169: A safe-state command drives programmed safe states.) -/
  | safeStateCommandReceived (die : Fin 2) (hub : Fin 2) (seq : Nat) (t : Nat)
  /-- LOGIC_SILENT_TIMEOUT (R369: No hub activity for FIELD_SILENT_TIMEOUT puts the die SILENT with safe states.) -/
  | logicSilentTimeout (die : Fin 2) (t : Nat)
  /-- DO_OVERLOAD_TRIP (R364: Current limit or thermal limit latches a channel OVERLOAD.) -/
  | doOverloadTrip (ch : Fin 32) (thermal : Bool) (ma : Nat) (t : Nat)
  /-- DO_RESET (R364: Write clearing an OVERLOAD latch.) -/
  | doReset (ctx : Nat)
  /-- READBACK_MISMATCH (R366: Readback disagreeing beyond DO_READBACK_DELAY sets MISMATCH or EXTERNAL.) -/
  | readbackMismatch (ch : Fin 32) (high : Bool) (t : Nat)
  /-- OPEN_LOAD_DETECT (R366: Current below open-load threshold for 100 ms sets OPEN.) -/
  | openLoadDetect (ch : Fin 32) (ma : Nat) (t : Nat)
  /-- DO_SAFE_STATE_WRITE (R368: Write of a channel's programmed safe state.) -/
  | doSafeStateWrite (ctx : Nat) (v : Nat)
  /-- EVALUATOR_CYCLE (R376: Every 50 us each field die evaluates every evaluator and exchanges state.) -/
  | evaluatorCycle (t : Nat)
  /-- DISCREPANCY_TIMEOUT (R378: A pair inconsistent beyond SAF_DISCREPANCY faults its instance.) -/
  | discrepancyTimeout (inst : Fin 32) (t : Nat)
  /-- CROSS_DISAGREEMENT_TIMEOUT (R380: Dies disagreeing for 2 ms fault the instance with cause CROSS.) -/
  | crossDisagreementTimeout (inst : Fin 32) (t : Nat)
  /-- SYNC_TIMEOUT (R382: Second hand not active within SAF_SYNC puts TWO_HAND in SAFE.) -/
  | syncTimeout (inst : Fin 32) (t : Nat)
  /-- HELD_LIMIT_EXPIRY (R387: A command pair active beyond SAF_HELD_LIMIT faults with HELD.) -/
  | heldLimitExpiry (inst : Fin 32) (t : Nat)
  /-- COMMAND_INACTIVE_TIMER (R386: A command pair inactive for 100 ms clears INHIBIT or leaves HELD.) -/
  | commandInactiveTimer (inst : Fin 32) (t : Nat)
  /-- OUTPUT_TEST (R392: Every 10 s the switch of an on safety output is opened and checked.) -/
  | outputTest (ch : Fin 32) (pass : Bool) (t : Nat)
  /-- CUTOFF_TEST (R392: 5 s after the switch test the cut-off is opened and checked.) -/
  | cutoffTest (ch : Fin 32) (pass : Bool) (t : Nat)
  /-- SAF_EDIT_OPEN (R397: Write of SAF_EDIT true opening a pending copy.) -/
  | safEditOpen (ctx : Nat)
  /-- SAF_EDIT_DISCARD (R397: Write of SAF_EDIT false discarding the pending copy.) -/
  | safEditDiscard (ctx : Nat)
  /-- SAF_PARAM_WRITE (R397: Write of a safety parameter into the pending copy.) -/
  | safParamWrite (ctx : Nat) (index : Nat) (sub : Nat) (v : Nat)
  /-- SAF_TYPE_WRITE (R540: Write of an instance type resetting start mode and filter defaults.) -/
  | safTypeWrite (ctx : Nat) (v : Nat)
  /-- SAF_COMMIT (R399: Commit the pending set when its CRC matches and checks pass.) -/
  | safCommit (ctx : Nat) (v : Nat)
  /-- AI_OUTPUT (R407: A channel's decimation filter produces an output on its frame.) -/
  | aiOutput (ch : Fin 16) (raw : Int) (t : Nat)
  /-- MODULATOR_LOSS_START (R411: No transition for 1 us or a failed coupler frame begins a data loss.) -/
  | modulatorLossStart (ch : Fin 16) (t : Nat)
  /-- MODULATOR_LOSS_END (R411: The first intact coupler frame ends a loss and restarts the filter.) -/
  | modulatorLossEnd (ch : Fin 16) (t : Nat)
  /-- MODULATOR_FAULT (R411: A loss lasting 100 ms sets MODULATOR.) -/
  | modulatorFault (ch : Fin 16) (t : Nat)
  /-- BURDEN_OPEN (R404: Current above the protection threshold opens the burden.) -/
  | burdenOpen (ch : Fin 16) (t : Nat)
  /-- BURDEN_CLOSE (R404: The burden closes after 1 s and the filter restarts.) -/
  | burdenClose (ch : Fin 16) (t : Nat)
  /-- RECORD_RECEIVED (R420: A hub takes a record into its buffer after stamping counters.) -/
  | recordReceived (hub : Fin 2)
  /-- SUPPRESSION_RUN_END (R423: A suppression run ends and a summary record is issued.) -/
  | suppressionRunEnd (origin : Nat) (source : Nat) (code : Nat) (t : Nat)
  /-- BUFFER_AGE_FLUSH (R424: The oldest buffered record waiting 1 s triggers a flush.) -/
  | bufferAgeFlush (hub : Fin 2) (t : Nat)
  /-- OPERATING_SECOND_TICK (R421: HA advances operating seconds, storing them every 60 s.) -/
  | operatingSecondTick
  /-- MRAM_WRITE_ERROR (R429: MRAM write errors declare the hub's journal failed.) -/
  | mramWriteError (hub : Fin 2) (addr : Nat) (t : Nat)
  /-- REC_FREEZE_ON (R431: Write starting a journal freeze.) -/
  | recFreezeOn (ctx : Nat)
  /-- REC_FREEZE_OFF (R431: Write ending a journal freeze.) -/
  | recFreezeOff (ctx : Nat)
  /-- FREEZE_EXPIRY (R431: A freeze ends after 30 s.) -/
  | freezeExpiry (t : Nat)
  /-- REC_CLEAR (R433: Password-carrying clear that writes a clear record and sweeps the journals.) -/
  | recClear (ctx : Nat) (password : List Byte)
  /-- REC_WINDOW_READ (R430: Read returning up to 16 records after the context's cursor.) -/
  | recWindowRead (ctx : Nat) (reqId : Nat)
  /-- MIGRATION_PAGE_WRITE (R437: A yard page is written when 63 records wait or the oldest waited 10 s.) -/
  | migrationPageWrite (hub : Fin 2) (t : Nat)
  /-- YARD_WRITE_COMPLETE (R437: A FUA page write completes and its records are marked migrated.) -/
  | yardWriteComplete (hub : Fin 2) (t : Nat)
  /-- YARD_HEADER_WRITE (R436: The yard header is written at most once per second.) -/
  | yardHeaderWrite (hub : Fin 2) (t : Nat)
  /-- YARD_COMMAND_ERROR (R439: NVMe errors three times or a 1 s write timeout make the yard FAILED.) -/
  | yardCommandError (hub : Fin 2) (status : Nat) (timeout : Bool) (t : Nat)
  /-- YARD_HEALTH_POLL (R440: Every 60 s the error and SMART logs are read.) -/
  | yardHealthPoll (hub : Fin 2) (health : Nat) (t : Nat)
  /-- YARD_FORMAT (R439: Format the yard on a link with a new format id.) -/
  | yardFormat (ctx : Nat) (v : Nat)
  /-- CHUNK (R448: A transfer CHUNK is stored and a completed block is checked.) -/
  | chunk (pkg : Nat) (part : Nat) (block : Nat) (chunk : Nat) (crc : Nat) (data : List Byte) (t : Nat)
  /-- CHUNK_STALE_TIMEOUT (R451: An incomplete block idle for 60 s is discarded and the transfer PAUSED.) -/
  | chunkStaleTimeout (t : Nat)
  /-- PACKAGE_EXPIRY (R451: A PAUSED package unresumed for 86 400 operating seconds is erased.) -/
  | packageExpiry (pkg : Nat)
  /-- UPD_OPEN (R447: Open a new transfer or resume a partial package.) -/
  | updOpen (ctx : Nat) (v : Nat)
  /-- UPD_ABORT (R451: Erase the package of the transfer.) -/
  | updAbort (ctx : Nat)
  /-- UPD_ACTIVATE_ARM (R454: Arm a complete FIRMWARE package for the next start.) -/
  | updActivateArm (ctx : Nat) (v : Nat)
  /-- UPD_ACTIVATE_DISARM (R454: Write of 0 disarming any armed package.) -/
  | updActivateDisarm (ctx : Nat)
  /-- UPD_FALLBACK (R457: Select the other boot bank at the next start.) -/
  | updFallback (ctx : Nat)
  /-- LOFT_DELETE (R453: Erase a loft package not in use.) -/
  | loftDelete (ctx : Nat) (v : Nat)
  /-- SET_RESET (R462: Schedule a settings reset to defaults at the next start.) -/
  | setReset (ctx : Nat)
  /-- SETTINGS_PART_WRITE (R459: A pending persistent value is written to the settings store.) -/
  | settingsPartWrite (key : Nat) (torn : Bool)
  /-- TR_ROOT_LOAD (R464: Load a ROOT package into a root slot.) -/
  | trRootLoad (ctx : Nat) (v : Nat)
  /-- TR_CA_LOAD (R464: Load a CERT package into a CA slot.) -/
  | trCaLoad (ctx : Nat) (v : Nat)
  /-- TR_ROOT_CLEAR (R464: Empty a root slot.) -/
  | trRootClear (ctx : Nat) (v : Nat)
  /-- TR_CA_CLEAR (R464: Empty a CA slot.) -/
  | trCaClear (ctx : Nat) (v : Nat)
  /-- TR_LOCK_MASK_WRITE (R465: Write of the tack-room lock mask.) -/
  | trLockMaskWrite (ctx : Nat) (v : Nat)
  /-- PWD_SET (R466: Set a role password after derivation.) -/
  | pwdSet (ctx : Nat) (sub : Nat) (password : List Byte)
  /-- PASSWORD_DERIVATION_DONE (R467: A 40 ms password derivation completes and the request arrives.) -/
  | passwordDerivationDone (ctx : Nat) (t : Nat)
  /-- LOCKOUT_EXPIRY (R467: A role lockout ends after 15 min.) -/
  | lockoutExpiry (role : Fin 6) (t : Nat)
  /-- PC_CTRL_WRITE (R472: Write of a programmable counter control, zeroing it at the boundary.) -/
  | pcCtrlWrite (ctx : Nat) (core : CoreIx) (ctr : Fin 8) (v : Nat)
  /-- PC_CLEAR (R472: Zero every programmable counter at the boundary.) -/
  | pcClear (ctx : Nat)
  /-- PC_SNAP_CMD (R477: Request a snapshot at the next boundary.) -/
  | pcSnapCmd (ctx : Nat)
  /-- PC_SAMPLE_K_WRITE (R474: Enable or disable instruction tag sampling for a core index.) -/
  | pcSampleKWrite (ctx : Nat) (core : CoreIx) (v : Nat)
  /-- PC_LAT_ARM (R476: Empty and arm the latency record of every lane.) -/
  | pcLatArm (ctx : Nat)
  /-- SUPPLY_GOOD (R517: Input above supply-good for 50 ms begins a POWER_ON module start.) -/
  | supplyGood (t : Nat)
  /-- MODULE_START (R486: Phases S1 to S9 run in order up to crossing 0.) -/
  | moduleStart (rep : StartReport)
  /-- HUB_ALONE_TIMEOUT (R485: A hub hearing nothing of the other within 50 ms of S1 starts alone.) -/
  | hubAloneTimeout (hub : Fin 2) (t : Nat)
  /-- CLOSE_MARKER_SILENCE (R485: A lane without close markers for 2 ms stops and waits for reset.) -/
  | closeMarkerSilence (lane : Fin 3) (t : Nat)
  /-- RESET_CMD (R484: Module reset: release, final commits, flush and restart of all dies.) -/
  | resetCmd (ctx : Nat)
  /-- HUB_WATCHDOG (R483: A hub watchdog restarts that hub, or both hubs within 50 ms reset the module.) -/
  | hubWatchdog (hub : Fin 2) (t : Nat)
  /-- LANE_WATCHDOG (R497: A lane watchdog resets the lane as a cause 7 fault.) -/
  | laneWatchdog (lane : Fin 3) (t : Nat)
  /-- FIELD_RESTART (R498: A field die restarts, takes defaults and is reconfigured.) -/
  | fieldRestart (die : Fin 2) (cause : Nat) (t : Nat)
  /-- HUB_RESTART (R495: A restarted hub runs S1 to S3 and takes state from the other hub.) -/
  | hubRestart (hub : Fin 2) (cause : Nat) (t : Nat)
  /-- HUB_REJOIN (R496: A restarted hub whose voter tests passed rejoins at the boundary.) -/
  | hubRejoin (hub : Fin 2)
  /-- RECOVER_PRESS (R491: A RECOVER button closure of at least 20 ms begins a press.) -/
  | recoverPress (t : Nat)
  /-- RECOVER_HOLD (R492: A press inside the window held 5 s starts a recovery start.) -/
  | recoverHold (t : Nat)
  /-- RECOVER_STUCK (R491: A button pressed for 3600 s records event 0x1004.) -/
  | recoverStuck (t : Nat)
  /-- RECOVER_RELEASE (R491: Button release ends a press.) -/
  | recoverRelease (t : Nat)
  /-- RECOVERY_PWD_RESET (R494: In recovery, reset passwords and lockouts.) -/
  | recoveryPwdReset (ctx : Nat)
  /-- POWER_FAIL_WARNING (R518: Input below the warning threshold starts release, flush and stops.) -/
  | powerFailWarning (vin : Nat) (t : Nat)
  /-- HOLDUP_READY (R519: Supply good for 200 ms marks the hold-up store ready.) -/
  | holdupReady (t : Nat)
  /-- HOLDUP_EXHAUSTED (R519: Store at 40 V holds every lane and hub in reset.) -/
  | holdupExhausted (t : Nat)
  /-- POWER_RESTORED (R520: Input back above supply-good for 100 ms ends power-fail.) -/
  | powerRestored (t : Nat)
  /-- HOLDUP_MEASURE (R521: Periodic discharge measurement of the hold-up store.) -/
  | holdupMeasure (ms10 : Nat) (t : Nat)
  /-- LANE_HARDWARE_ERROR (R91: An uncorrectable ECC error or core parity error detected on one lane stops the stall on that lane and declares a lane fault of cause 7.) -/
  | laneHardwareError (lane : Fin 3) (core : CoreIx) (t : Nat)
  /-- CONSIST_PORT_LINK_CHANGE (R287: A consist port gains or loses block lock (or its LOS input changes), moving PORT_STATE between DOWN and UP.) -/
  | consistPortLinkChange (port : Fin 16) (lock : Bool) (los : Bool)
  /-- STORAGE_LINK_CHANGE (R439: The PCIe storage link trains or drops, or its NVMe controller appears or vanishes, moving the yard into or out of ABSENT.) -/
  | storageLinkChange (hub : Fin 2) (up : Bool) (found : YardFound) (t : Nat)
  /-- MVB_LINE_STATE_CHANGE (R342: An MVB line fails or returns, changing MVB_LINE_STATE and the interface state (degraded or down), recording event 0x3050 and queuing notices 6, 3 or 4.) -/
  | mvbLineStateChange (ifc : Fin 2) (lineA : Bool) (lineB : Bool) (onB : Bool) (t : Nat)
  /-- MVB_MASTER_FRAME_RECEIVED (R350: A master frame polling one of the module's MVB source ports or its device address arrives, and the hub answers with the current port value or message frame.) -/
  | mvbMasterFrameReceived (ifc : Fin 2) (fcode : Nat) (addr : Nat) (t : Nat)
  /-- MVB_MASTER_FRAME_SEND (R341: As bus administrator, HA emits the next master frame of its administrator list on MVB1.) -/
  | mvbMasterFrameSend (t : Nat)
  /-- BRIDGE_BUS_TRANSMIT_DONE (R351: A frame or byte sequence of a queued bridge operation finishes leaving the bus, so the next queued operation of the window or interface may leave.) -/
  | bridgeBusTransmitDone (window : Nat) (t : Nat)
  /-- CLEAR_SWEEP_COMPLETE (R433: The sweep of both journals that follows an accepted clear completes, ending the clear activity in ARB_ACTIVE.) -/
  | clearSweepComplete (t : Nat)
  deriving DecidableEq, Repr

end Sys2Proof
end

