-- ==== Sys2Proof/Decode.lean ====
section
/-!
DEFINITION. Commands spelt by a word: no row of the opcode table gives bits, so no word spells a command.
-/

namespace Sys2Proof

/-- The command that a word spells by the table's bits: the table of this block gives its rows none. -/
def decodeTableWord (_nbits _w : Nat) : Option Instr := none

end Sys2Proof
end

