-- ==== Sys2Proof/Machine/Entries.lean ====
section
/-!
DEFINITION. The module's own dictionary entries (23 Table 23-3): for each entry its indices, sub-indices, type, length,
roles, stall access, persistence, lock bit, mode, twin scope, limits, default and the select entry it follows.
-/

namespace Sys2Proof.Machine

/-- Which select value an entry follows (02 R36, 23 R532). -/
inductive Sel where
  | none | ctx | lane | core | stall | trig | link | slot | node | port | session | di | dout | saf | ai
  deriving DecidableEq, Repr

/-- An entry's attributes (02 R30, 23 R530). -/
structure Entry where
  /-- lowest and highest index -/
  idx : Nat
  idxHi : Nat
  /-- lowest and highest sub-index -/
  sub : Nat
  subHi : Nat
  /-- type code of Table 23-1 -/
  ty : Nat
  /-- declared length in bytes -/
  len : Nat
  /-- read role number, 255 none -/
  rd : Nat
  /-- write role number, 255 none, 254 named by a rule -/
  wr : Nat
  /-- stall access: 0 none, 1 read, 2 read/write -/
  stall : Nat
  persist : Bool
  /-- lock bit, 0xFFFF none -/
  lock : Nat
  /-- writes are accepted in STOP only -/
  stopOnly : Bool
  /-- pair twin scope -/
  pair : Bool
  /-- limits, where the entry has them -/
  lim : Option (Int × Int)
  /-- default, as the little-endian number of its bytes -/
  dflt : Nat
  sel : Sel
  /-- held by the lane supervisors (else by hubs and field dies) -/
  sup : Bool
  deriving DecidableEq, Repr

namespace E
/-- LANE_SEL (0x2000:01) -/
def laneSel : Entry := ⟨0x2000, 0x2000, 1, 1, 3, 2, 0, 0, 2, false, 65535, false, false, some (0, 2), 0, .ctx, true⟩
/-- CORE_SEL (0x2040:01) -/
def coreSel : Entry := ⟨0x2040, 0x2040, 1, 1, 3, 2, 0, 0, 2, false, 65535, false, false, some (0, 15), 0, .ctx, true⟩
/-- STALL_SEL (0x2200:01) -/
def stallSel : Entry := ⟨0x2200, 0x2200, 1, 1, 3, 2, 0, 0, 2, false, 65535, false, false, some (0, 511), 0, .ctx, true⟩
/-- TRIG_SEL (0x2580:01) -/
def trigSel : Entry := ⟨0x2580, 0x2580, 1, 1, 3, 2, 0, 0, 2, false, 65535, false, false, some (0, 1023), 0, .ctx, true⟩
/-- LINK_SEL (0x3000:01) -/
def linkSel : Entry := ⟨0x3000, 0x3000, 1, 1, 3, 2, 0, 0, 2, false, 65535, false, false, some (0, 3), 0, .ctx, true⟩
/-- SLOT_SEL (0x3100:01) -/
def slotSel : Entry := ⟨0x3100, 0x3100, 1, 1, 3, 2, 0, 0, 2, false, 65535, false, false, some (0, 4095), 0, .ctx, true⟩
/-- NODE_SEL (0x3200:01) -/
def nodeSel : Entry := ⟨0x3200, 0x3200, 1, 1, 3, 2, 0, 0, 2, false, 65535, false, false, some (0, 125), 0, .ctx, true⟩
/-- PORT_SEL (0x3400:01) -/
def portSel : Entry := ⟨0x3400, 0x3400, 1, 1, 3, 2, 0, 0, 2, false, 65535, false, false, some (0, 15), 0, .ctx, true⟩
/-- SESSION_SEL (0x3500:01) -/
def sessionSel : Entry := ⟨0x3500, 0x3500, 1, 1, 3, 2, 0, 0, 2, false, 65535, false, false, some (0, 4095), 0, .ctx, true⟩
/-- DI_SEL (0x4000:01) -/
def diSel : Entry := ⟨0x4000, 0x4000, 1, 1, 3, 2, 0, 0, 2, false, 65535, false, false, some (0, 63), 0, .ctx, true⟩
/-- DO_SEL (0x4100:01) -/
def doSel : Entry := ⟨0x4100, 0x4100, 1, 1, 3, 2, 0, 0, 2, false, 65535, false, false, some (0, 31), 0, .ctx, true⟩
/-- SAF_SEL (0x4200:01) -/
def safSel : Entry := ⟨0x4200, 0x4200, 1, 1, 3, 2, 0, 0, 2, false, 65535, false, false, some (0, 31), 0, .ctx, true⟩
/-- AI_SEL (0x4300:01) -/
def aiSel : Entry := ⟨0x4300, 0x4300, 1, 1, 3, 2, 0, 0, 2, false, 65535, false, false, some (0, 15), 0, .ctx, true⟩
/-- STALL_LOAD (0x2200:02) -/
def stallLoad : Entry := ⟨0x2200, 0x2200, 2, 2, 12, 16, 255, 3, 0, false, 65535, false, false, none, 0, .none, true⟩
/-- STALL_LAST_ID (0x2200:03) -/
def stallLastId : Entry := ⟨0x2200, 0x2200, 3, 3, 3, 2, 0, 255, 0, false, 65535, false, false, none, 65535, .none, true⟩
/-- STALL_COUNT (0x2200:04) -/
def stallCount : Entry := ⟨0x2200, 0x2200, 4, 4, 3, 2, 0, 255, 0, false, 65535, false, false, none, 0, .none, true⟩
/-- STALL_STATE_FREE (0x2200:05) -/
def stallStateFree : Entry := ⟨0x2200, 0x2200, 5, 5, 4, 4, 0, 255, 0, false, 65535, false, false, none, 0, .none, true⟩
/-- STALL_CMD (0x2201:01) -/
def stallCmd : Entry := ⟨0x2201, 0x2201, 1, 1, 2, 1, 255, 2, 0, false, 65535, false, false, some (1, 4), 0, .stall, true⟩
/-- STALL_STATE (0x2201:02) -/
def stallState : Entry := ⟨0x2201, 0x2201, 2, 2, 2, 1, 0, 255, 0, false, 65535, false, false, none, 0, .stall, true⟩
/-- STALL_PKG (0x2201:03) -/
def stallPkg : Entry := ⟨0x2201, 0x2201, 3, 3, 4, 4, 0, 255, 0, false, 65535, false, false, none, 0, .stall, true⟩
/-- STALL_RIGHTS (0x2201:04) -/
def stallRights : Entry := ⟨0x2201, 0x2201, 4, 4, 5, 8, 0, 255, 0, false, 65535, false, false, none, 0, .stall, true⟩
/-- STALL_REPLACE (0x2201:05) -/
def stallReplace : Entry := ⟨0x2201, 0x2201, 5, 5, 4, 4, 255, 3, 0, false, 65535, false, false, none, 0, .stall, true⟩
/-- STALL_RESTARTS (0x2201:06) -/
def stallRestarts : Entry := ⟨0x2201, 0x2201, 6, 6, 4, 4, 0, 255, 0, false, 65535, false, false, none, 0, .stall, true⟩
/-- STALL_FAULT (0x2201:07) -/
def stallFault : Entry := ⟨0x2201, 0x2201, 7, 7, 5, 8, 0, 255, 0, false, 65535, false, false, none, 0, .stall, true⟩
/-- STALL_RESCUE (0x2201:08) -/
def stallRescue : Entry := ⟨0x2201, 0x2201, 8, 8, 12, 64, 0, 255, 0, false, 65535, false, false, none, 0, .stall, true⟩
/-- FORCE_COUNT (0x2410:01) -/
def forceCount : Entry := ⟨0x2410, 0x2410, 1, 1, 3, 2, 0, 255, 0, false, 65535, false, false, none, 0, .none, true⟩
/-- FORCE_TIMEOUT (0x2410:02) -/
def forceTimeout : Entry := ⟨0x2410, 0x2410, 2, 2, 4, 4, 0, 2, 0, true, 65535, false, false, some (60, 28800), 1800, .none, true⟩
/-- FORCE_CLEAR_ALL (0x2410:03) -/
def forceClearAll : Entry := ⟨0x2410, 0x2410, 3, 3, 1, 1, 255, 2, 0, false, 65535, false, false, none, 0, .none, true⟩
/-- DI_FORCE (0x40F0:01) -/
def diForce : Entry := ⟨0x40F0, 0x40F0, 1, 1, 2, 1, 0, 2, 0, false, 65535, false, false, some (0, 2), 0, .di, true⟩
/-- DI_FORCE_LEFT (0x40F0:02) -/
def diForceLeft : Entry := ⟨0x40F0, 0x40F0, 2, 2, 4, 4, 0, 255, 0, false, 65535, false, false, none, 0, .di, false⟩
/-- DO_FORCE (0x41F0:01) -/
def doForce : Entry := ⟨0x41F0, 0x41F0, 1, 1, 2, 1, 0, 2, 0, false, 65535, false, false, some (0, 2), 0, .dout, true⟩
/-- DO_FORCE_LEFT (0x41F0:02) -/
def doForceLeft : Entry := ⟨0x41F0, 0x41F0, 2, 2, 4, 4, 0, 255, 0, false, 65535, false, false, none, 0, .dout, false⟩
/-- AI_FORCE (0x43F0:01) -/
def aiForce : Entry := ⟨0x43F0, 0x43F0, 1, 1, 1, 1, 0, 2, 0, false, 65535, false, false, none, 0, .ai, true⟩
/-- AI_FORCE_VALUE (0x43F0:02) -/
def aiForceValue : Entry := ⟨0x43F0, 0x43F0, 2, 2, 11, 8, 0, 2, 0, false, 65535, false, false, none, 0, .ai, true⟩
/-- AI_FORCE_LEFT (0x43F0:03) -/
def aiForceLeft : Entry := ⟨0x43F0, 0x43F0, 3, 3, 4, 4, 0, 255, 0, false, 65535, false, false, none, 0, .ai, false⟩
/-- CROSSING_NUMBER (0x2400:03) -/
def crossingNumber : Entry := ⟨0x2400, 0x2400, 3, 3, 5, 8, 0, 255, 0, false, 65535, false, false, none, 0, .none, true⟩
/-- CYCLE_CPF (0x2400:04) -/
def cycleCpf : Entry := ⟨0x2400, 0x2400, 4, 4, 2, 1, 0, 3, 0, true, 65535, true, false, some (1, 64), 4, .none, true⟩
/-- CORE_CAPACITY (0x2400:05) -/
def coreCapacity : Entry := ⟨0x2400, 0x2400, 5, 5, 4, 4, 0, 255, 0, false, 65535, false, false, none, 0, .none, true⟩
/-- HELD_COUNT (0x2400:07) -/
def heldCount : Entry := ⟨0x2400, 0x2400, 7, 7, 3, 2, 0, 255, 0, false, 65535, false, false, none, 0, .none, true⟩
/-- CORE_ADMITTED (0x2420:01) -/
def coreAdmitted : Entry := ⟨0x2420, 0x2420, 1, 16, 4, 4, 0, 255, 0, false, 65535, false, false, none, 0, .none, true⟩
/-- STALL_LAST_FUEL (0x2201:0C) -/
def stallLastFuel : Entry := ⟨0x2201, 0x2201, 12, 12, 4, 4, 0, 255, 0, false, 65535, false, false, none, 0, .stall, true⟩
/-- STALL_DROPPED (0x2201:0D) -/
def stallDropped : Entry := ⟨0x2201, 0x2201, 13, 13, 4, 4, 0, 255, 0, false, 65535, false, false, none, 0, .stall, true⟩
/-- VOTE_SKEW (0x2100:01) -/
def voteSkew : Entry := ⟨0x2100, 0x2100, 1, 1, 4, 4, 0, 3, 0, true, 65535, true, false, some (5, 100), 20, .none, true⟩
/-- LANE_SET (0x2100:02) -/
def laneSet : Entry := ⟨0x2100, 0x2100, 2, 2, 2, 1, 0, 255, 0, false, 65535, false, false, none, 7, .none, false⟩
/-- VOTER_STATE (0x2100:03) -/
def voterState : Entry := ⟨0x2100, 0x2100, 3, 3, 2, 1, 0, 255, 0, false, 65535, false, false, none, 3, .none, false⟩
/-- VOTE_HOLD_LIMIT (0x2100:04) -/
def voteHoldLimit : Entry := ⟨0x2100, 0x2100, 4, 4, 4, 4, 0, 3, 0, true, 65535, false, false, some (10, 1000), 50, .none, true⟩
/-- RESTABLE_AUTO (0x2100:05) -/
def restableAuto : Entry := ⟨0x2100, 0x2100, 5, 5, 1, 1, 0, 3, 0, true, 65535, false, false, none, 1, .none, true⟩
/-- RESTABLE_LIMIT (0x2100:06) -/
def restableLimit : Entry := ⟨0x2100, 0x2100, 6, 6, 4, 4, 0, 3, 0, true, 65535, false, false, some (64, 1000), 64, .none, true⟩
/-- RESTABLE_CMD (0x2100:07) -/
def restableCmd : Entry := ⟨0x2100, 0x2100, 7, 7, 2, 1, 255, 2, 0, false, 65535, false, false, some (0, 2), 0, .none, true⟩
/-- RESTABLE_PROGRESS (0x2100:08) -/
def restableProgress : Entry := ⟨0x2100, 0x2100, 8, 8, 4, 4, 0, 255, 0, false, 65535, false, false, none, 0, .none, false⟩
/-- MISMATCH_RESTARTS (0x2100:09) -/
def mismatchRestarts : Entry := ⟨0x2100, 0x2100, 9, 9, 4, 4, 0, 255, 0, false, 65535, false, false, none, 0, .none, false⟩
/-- VOTE_STALE_ITEMS (0x2100:0A) -/
def voteStaleItems : Entry := ⟨0x2100, 0x2100, 10, 11, 4, 4, 0, 255, 0, false, 65535, false, false, none, 0, .none, false⟩
/-- LANE_STATUS (0x2001:01) -/
def laneStatus : Entry := ⟨0x2001, 0x2001, 1, 1, 2, 1, 0, 255, 0, false, 65535, false, false, none, 0, .lane, false⟩
/-- LANE_FAULT_CAUSE (0x2001:02) -/
def laneFaultCause : Entry := ⟨0x2001, 0x2001, 2, 2, 2, 1, 0, 255, 0, false, 65535, false, false, none, 0, .lane, false⟩
/-- LANE_FAULTS (0x2001:03) -/
def laneFaults : Entry := ⟨0x2001, 0x2001, 3, 3, 4, 4, 0, 255, 0, false, 65535, false, false, none, 0, .lane, false⟩
/-- LANE_RESTABLES (0x2001:04) -/
def laneRestables : Entry := ⟨0x2001, 0x2001, 4, 4, 4, 4, 0, 255, 0, false, 65535, false, false, none, 0, .lane, false⟩
/-- LANE_ABANDONED (0x2001:05) -/
def laneAbandoned : Entry := ⟨0x2001, 0x2001, 5, 5, 4, 4, 0, 255, 0, false, 65535, false, false, none, 0, .lane, false⟩
/-- LANE_LATE_COPIES (0x2001:06) -/
def laneLateCopies : Entry := ⟨0x2001, 0x2001, 6, 6, 4, 4, 0, 255, 0, false, 65535, false, false, none, 0, .lane, false⟩
/-- LANE_WITHIN_COPIES (0x2001:07) -/
def laneWithinCopies : Entry := ⟨0x2001, 0x2001, 7, 7, 4, 4, 0, 255, 0, false, 65535, false, false, none, 0, .lane, false⟩
/-- TIME_NOW (0x2500:01) -/
def timeNow : Entry := ⟨0x2500, 0x2500, 1, 1, 14, 8, 0, 255, 1, false, 65535, false, false, none, 0, .none, true⟩
/-- TIME_CROSSING_LEN (0x2500:02) -/
def timeCrossingLen : Entry := ⟨0x2500, 0x2500, 2, 2, 4, 4, 0, 255, 0, false, 65535, false, false, none, 0, .none, true⟩
/-- TIME_STATE (0x2500:03) -/
def timeState : Entry := ⟨0x2500, 0x2500, 3, 3, 2, 1, 0, 255, 0, false, 65535, false, false, none, 0, .none, false⟩
/-- TIME_SLEW_MAX (0x2500:04) -/
def timeSlewMax : Entry := ⟨0x2500, 0x2500, 4, 4, 4, 4, 0, 3, 0, true, 65535, false, false, some (1, 500), 20, .none, true⟩
/-- TIME_STEPS (0x2500:05) -/
def timeSteps : Entry := ⟨0x2500, 0x2500, 5, 5, 4, 4, 0, 255, 0, false, 65535, false, false, none, 0, .none, true⟩
/-- TIME_HUB_DIFF (0x2500:06) -/
def timeHubDiff : Entry := ⟨0x2500, 0x2500, 6, 6, 8, 4, 0, 255, 0, false, 65535, false, false, none, 0, .none, false⟩
/-- TIME_UTC_OFFSET (0x2500:07) -/
def timeUtcOffset : Entry := ⟨0x2500, 0x2500, 7, 7, 9, 8, 0, 255, 1, false, 65535, false, false, none, 0, .none, true⟩
/-- TIME_UTC_VALID (0x2500:08) -/
def timeUtcValid : Entry := ⟨0x2500, 0x2500, 8, 8, 1, 1, 0, 255, 1, false, 65535, false, false, none, 0, .none, true⟩
/-- POS_NOW (0x2500:09) -/
def posNow : Entry := ⟨0x2500, 0x2500, 9, 9, 15, 8, 0, 255, 1, false, 65535, false, false, none, 0, .none, true⟩
/-- POS_QUALITY (0x2500:0A) -/
def posQuality : Entry := ⟨0x2500, 0x2500, 10, 10, 2, 1, 0, 255, 1, false, 65535, false, false, none, 0, .none, true⟩
/-- POS_DATUM_NUMBER (0x2500:0B) -/
def posDatumNumber : Entry := ⟨0x2500, 0x2500, 11, 11, 3, 2, 0, 255, 1, false, 65535, false, false, none, 0, .none, true⟩
/-- POS_DATUM_SET (0x2500:0C) -/
def posDatumSet : Entry := ⟨0x2500, 0x2500, 12, 12, 15, 8, 255, 3, 0, false, 65535, false, true, none, 0, .none, true⟩
/-- POS_SLIP_ABS (0x2500:0D) -/
def posSlipAbs : Entry := ⟨0x2500, 0x2500, 13, 13, 4, 4, 0, 3, 0, true, 65535, false, false, some (50, 5000), 300, .none, true⟩
/-- POS_SLIP_REL (0x2500:0E) -/
def posSlipRel : Entry := ⟨0x2500, 0x2500, 14, 14, 3, 2, 0, 3, 0, true, 65535, false, false, some (5, 500), 50, .none, true⟩
/-- POS_REF_MAX_AGE (0x2500:0F) -/
def posRefMaxAge : Entry := ⟨0x2500, 0x2500, 15, 15, 3, 2, 0, 3, 0, true, 65535, false, false, some (1, 1024), 8, .none, true⟩
/-- TRIG_COUNT (0x2580:02) -/
def trigCount : Entry := ⟨0x2580, 0x2580, 2, 2, 3, 2, 0, 255, 0, false, 65535, false, false, none, 0, .none, true⟩
/-- TRIG_REFUSED (0x2580:03) -/
def trigRefused : Entry := ⟨0x2580, 0x2580, 3, 3, 4, 4, 0, 255, 0, false, 65535, false, false, none, 0, .none, true⟩
/-- TRIG_STATE (0x2581:01) -/
def trigState : Entry := ⟨0x2581, 0x2581, 1, 1, 2, 1, 0, 255, 0, false, 65535, false, false, none, 0, .trig, true⟩
/-- TRIG_OWNER (0x2581:02) -/
def trigOwner : Entry := ⟨0x2581, 0x2581, 2, 2, 3, 2, 0, 255, 0, false, 65535, false, false, none, 0, .trig, true⟩
/-- TRIG_REQUEST (0x2581:03) -/
def trigRequest : Entry := ⟨0x2581, 0x2581, 3, 3, 12, 32, 0, 255, 0, false, 65535, false, false, none, 0, .trig, true⟩
/-- TRIG_NEXT (0x2581:04) -/
def trigNext : Entry := ⟨0x2581, 0x2581, 4, 4, 5, 8, 0, 255, 0, false, 65535, false, false, none, 0, .trig, true⟩
/-- TRIG_FIRINGS (0x2581:05) -/
def trigFirings : Entry := ⟨0x2581, 0x2581, 5, 5, 4, 4, 0, 255, 0, false, 65535, false, false, none, 0, .trig, true⟩
/-- TRIG_CANCEL (0x2581:06) -/
def trigCancel : Entry := ⟨0x2581, 0x2581, 6, 6, 1, 1, 255, 2, 0, false, 65535, false, false, none, 0, .trig, true⟩
/-- TACHO_ENABLE (0x4401:01) -/
def tachoEnable : Entry := ⟨0x4401, 0x4401, 1, 4, 1, 1, 0, 3, 0, true, 65535, true, false, none, 0, .none, true⟩
/-- TACHO_PPR (0x4402:01) -/
def tachoPpr : Entry := ⟨0x4402, 0x4402, 1, 4, 3, 2, 0, 3, 0, true, 65535, true, false, some (1, 1024), 100, .none, true⟩
/-- TACHO_WHEEL_DIA (0x4403:01) -/
def tachoWheelDia : Entry := ⟨0x4403, 0x4403, 1, 4, 4, 4, 0, 3, 0, true, 65535, false, false, some (500000, 1300000), 920000, .none, true⟩
/-- TACHO_SIGN (0x4404:01) -/
def tachoSign : Entry := ⟨0x4404, 0x4404, 1, 4, 6, 1, 0, 3, 0, true, 65535, true, false, some (-1, 1), 1, .none, true⟩
/-- TACHO_COUNT (0x4405:01) -/
def tachoCount : Entry := ⟨0x4405, 0x4405, 1, 4, 9, 8, 0, 255, 0, false, 65535, false, false, none, 0, .none, false⟩
/-- TACHO_STANDSTILL (0x4406:01) -/
def tachoStandstill : Entry := ⟨0x4406, 0x4406, 1, 4, 3, 2, 0, 3, 0, true, 65535, false, false, some (50, 5000), 500, .none, true⟩
/-- SUPPLY_MODE (0x1300:01) -/
def supplyMode : Entry := ⟨0x1300, 0x1300, 1, 1, 2, 1, 0, 255, 1, false, 65535, false, false, none, 1, .none, true⟩
/-- SUPPLY_MODE_CMD (0x1300:02) -/
def supplyModeCmd : Entry := ⟨0x1300, 0x1300, 2, 2, 2, 1, 255, 1, 2, false, 65535, false, false, some (1, 3), 0, .none, true⟩
/-- BUDGET_LINE (0x1300:03) -/
def budgetLine : Entry := ⟨0x1300, 0x1300, 3, 3, 3, 2, 0, 3, 0, true, 65535, false, false, some (30, 105), 105, .none, true⟩
/-- BUDGET_BATTERY (0x1300:04) -/
def budgetBattery : Entry := ⟨0x1300, 0x1300, 4, 4, 3, 2, 0, 3, 0, true, 65535, false, false, some (20, 105), 60, .none, true⟩
/-- BUDGET_STABLING (0x1300:05) -/
def budgetStabling : Entry := ⟨0x1300, 0x1300, 5, 5, 3, 2, 0, 3, 0, true, 65535, false, false, some (15, 105), 25, .none, true⟩
/-- BUDGET_HYST (0x1300:06) -/
def budgetHyst : Entry := ⟨0x1300, 0x1300, 6, 6, 3, 2, 0, 3, 0, true, 65535, false, false, some (1, 20), 3, .none, true⟩
/-- ENERGY_STEP (0x1300:07) -/
def energyStep : Entry := ⟨0x1300, 0x1300, 7, 7, 3, 2, 0, 3, 0, true, 65535, false, false, some (1, 256), 16, .none, true⟩
/-- ENERGY_LEVEL (0x1300:08) -/
def energyLevel : Entry := ⟨0x1300, 0x1300, 8, 8, 2, 1, 0, 255, 1, false, 65535, false, false, none, 0, .none, true⟩
/-- POWER_IN (0x1300:09) -/
def powerIn : Entry := ⟨0x1300, 0x1300, 9, 9, 4, 4, 0, 255, 1, false, 65535, false, false, none, 0, .none, true⟩
/-- ENERGY_IN (0x1300:0A) -/
def energyIn : Entry := ⟨0x1300, 0x1300, 10, 10, 5, 8, 0, 255, 0, false, 65535, false, false, none, 0, .none, true⟩
/-- THERMAL_WARN (0x1301:01) -/
def thermalWarn : Entry := ⟨0x1301, 0x1301, 1, 1, 7, 2, 0, 3, 0, true, 65535, false, false, some (700, 1100), 1000, .none, true⟩
/-- THERMAL_CRIT (0x1301:02) -/
def thermalCrit : Entry := ⟨0x1301, 0x1301, 2, 2, 7, 2, 0, 3, 0, true, 65535, false, false, some (900, 1200), 1150, .none, true⟩
/-- DIE_TEMP (0x1301:03) -/
def dieTemp : Entry := ⟨0x1301, 0x1301, 3, 7, 7, 2, 0, 255, 1, false, 65535, false, false, none, 0, .none, true⟩
/-- SHED_STATE (0x1310:01) -/
def shedState : Entry := ⟨0x1310, 0x1310, 1, 12, 2, 1, 0, 255, 0, false, 65535, false, false, none, 0, .none, true⟩
/-- SHED_ALLOW (0x1311:01) -/
def shedAllow : Entry := ⟨0x1311, 0x1311, 1, 12, 2, 1, 0, 3, 0, true, 65535, false, false, none, 4, .none, true⟩
/-- SHED_DROPPED_IN (0x1312:01) -/
def shedDroppedIn : Entry := ⟨0x1312, 0x1312, 1, 12, 4, 4, 0, 255, 0, false, 65535, false, false, none, 0, .none, false⟩
/-- STALL_SHEDS (0x2201:0E) -/
def stallSheds : Entry := ⟨0x2201, 0x2201, 14, 14, 2, 1, 0, 3, 0, true, 65535, false, false, none, 15, .stall, true⟩
/-- STALL_CURTAIL (0x2201:0F) -/
def stallCurtail : Entry := ⟨0x2201, 0x2201, 15, 15, 2, 1, 0, 255, 0, false, 65535, false, false, none, 1, .stall, true⟩
/-- BB_CROSSING_N (0x3000:02) -/
def bbCrossingN : Entry := ⟨0x3000, 0x3000, 2, 2, 2, 1, 0, 3, 0, true, 65535, true, false, some (1, 128), 8, .none, true⟩
/-- BB_PLAN_NUMBER (0x3000:03) -/
def bbPlanNumber : Entry := ⟨0x3000, 0x3000, 3, 3, 3, 2, 0, 255, 0, false, 65535, false, false, none, 0, .none, false⟩
/-- BB_PLAN_ENTRIES (0x3000:04) -/
def bbPlanEntries : Entry := ⟨0x3000, 0x3000, 4, 4, 3, 2, 0, 255, 0, false, 65535, false, false, none, 0, .none, false⟩
/-- BB_PLAN_LOAD (0x3000:05) -/
def bbPlanLoad : Entry := ⟨0x3000, 0x3000, 5, 5, 4, 4, 255, 3, 0, false, 65535, false, false, none, 0, .none, true⟩
/-- BB_PLAN_CONFIGURED (0x3000:06) -/
def bbPlanConfigured : Entry := ⟨0x3000, 0x3000, 6, 6, 3, 2, 0, 255, 0, false, 65535, false, false, none, 0, .none, false⟩
/-- BB_DATUM_ANNOUNCE (0x3000:0A) -/
def bbDatumAnnounce : Entry := ⟨0x3000, 0x3000, 10, 10, 14, 8, 255, 3, 2, false, 65535, false, true, none, 0, .none, true⟩
/-- BB_BELLS_MISSED (0x3000:0B) -/
def bbBellsMissed : Entry := ⟨0x3000, 0x3000, 11, 11, 4, 4, 0, 255, 0, false, 65535, false, false, none, 0, .none, false⟩
/-- BB_UNPLANNED (0x3000:0C) -/
def bbUnplanned : Entry := ⟨0x3000, 0x3000, 12, 12, 4, 4, 0, 255, 0, false, 65535, false, false, none, 0, .none, false⟩
/-- BB_UTC_SET (0x3000:0D) -/
def bbUtcSet : Entry := ⟨0x3000, 0x3000, 13, 13, 9, 8, 0, 3, 2, false, 65535, false, false, none, 0, .none, true⟩
/-- BB_KEY (0x3010:01) -/
def bbKey : Entry := ⟨0x3010, 0x3010, 1, 4, 12, 32, 255, 3, 0, true, 40, false, true, none, 0, .none, true⟩
/-- BB_KEY_CHECK (0x3011:01) -/
def bbKeyCheck : Entry := ⟨0x3011, 0x3011, 1, 4, 4, 4, 0, 255, 0, false, 65535, false, false, none, 0, .none, false⟩
/-- BB_KEY_ACTIVE (0x3012:01) -/
def bbKeyActive : Entry := ⟨0x3012, 0x3012, 1, 1, 2, 1, 0, 3, 0, true, 65535, false, true, some (0, 3), 0, .none, true⟩
/-- LINK_STATE (0x3001:01) -/
def linkState : Entry := ⟨0x3001, 0x3001, 1, 1, 2, 1, 0, 255, 0, false, 65535, false, false, none, 0, .link, false⟩
/-- LINK_SKEW (0x3001:02) -/
def linkSkew : Entry := ⟨0x3001, 0x3001, 2, 2, 3, 2, 0, 255, 0, false, 65535, false, false, none, 0, .link, false⟩
/-- LINK_BLOCK_ERRORS (0x3001:03) -/
def linkBlockErrors : Entry := ⟨0x3001, 0x3001, 3, 3, 4, 4, 0, 255, 0, false, 65535, false, false, none, 0, .link, false⟩
/-- LINK_RELAYED (0x3001:04) -/
def linkRelayed : Entry := ⟨0x3001, 0x3001, 4, 4, 5, 8, 0, 255, 0, false, 65535, false, false, none, 0, .link, false⟩
/-- LINK_GUARD_CUTS (0x3001:05) -/
def linkGuardCuts : Entry := ⟨0x3001, 0x3001, 5, 5, 4, 4, 0, 255, 0, false, 65535, false, false, none, 0, .link, false⟩
/-- LINK_TAG_FAIL (0x3001:06) -/
def linkTagFail : Entry := ⟨0x3001, 0x3001, 6, 6, 4, 4, 0, 255, 0, false, 65535, false, false, none, 0, .link, false⟩
/-- SLOT_ENTRY (0x3101:01) -/
def slotEntry : Entry := ⟨0x3101, 0x3101, 1, 1, 12, 24, 0, 255, 0, false, 65535, false, false, none, 0, .slot, false⟩
/-- SLOT_OWNER (0x3102:01) -/
def slotOwner : Entry := ⟨0x3102, 0x3102, 1, 1, 3, 2, 0, 255, 0, false, 65535, false, false, none, 0, .slot, false⟩
/-- SLOT_STALL (0x3102:02) -/
def slotStall : Entry := ⟨0x3102, 0x3102, 2, 2, 3, 2, 0, 255, 0, false, 65535, false, false, none, 0, .slot, false⟩
/-- SLOT_TELEGRAM (0x3103:01) -/
def slotTelegram : Entry := ⟨0x3103, 0x3103, 1, 1, 4, 4, 0, 255, 0, false, 65535, false, false, none, 0, .slot, false⟩
/-- SLOT_OFFSET (0x3103:02) -/
def slotOffset : Entry := ⟨0x3103, 0x3103, 2, 2, 4, 4, 0, 255, 0, false, 65535, false, false, none, 0, .slot, false⟩
/-- SLOT_PERIOD (0x3104:01) -/
def slotPeriod : Entry := ⟨0x3104, 0x3104, 1, 1, 2, 1, 0, 255, 0, false, 65535, false, false, none, 0, .slot, false⟩
/-- SLOT_LEN (0x3104:02) -/
def slotLen : Entry := ⟨0x3104, 0x3104, 2, 2, 3, 2, 0, 255, 0, false, 65535, false, false, none, 0, .slot, false⟩
/-- SLOT_RX (0x3105:01) -/
def slotRx : Entry := ⟨0x3105, 0x3105, 1, 2, 4, 4, 0, 255, 0, false, 65535, false, false, none, 0, .slot, false⟩
/-- SLOT_MISSED (0x3106:01) -/
def slotMissed : Entry := ⟨0x3106, 0x3106, 1, 2, 4, 4, 0, 255, 0, false, 65535, false, false, none, 0, .slot, false⟩
/-- SLOT_EMPTY (0x3107:01) -/
def slotEmpty : Entry := ⟨0x3107, 0x3107, 1, 2, 4, 4, 0, 255, 0, false, 65535, false, false, none, 0, .slot, false⟩
/-- SLOT_SUPERSEDED (0x3108:01) -/
def slotSuperseded : Entry := ⟨0x3108, 0x3108, 1, 1, 4, 4, 0, 255, 0, false, 65535, false, false, none, 0, .slot, false⟩
/-- BB_PRIORITY (0x3020:01) -/
def bbPriority : Entry := ⟨0x3020, 0x3020, 1, 1, 2, 1, 0, 3, 0, true, 65535, true, false, some (0, 255), 1, .none, true⟩
/-- BB_UNIT_ID (0x3020:02) -/
def bbUnitId : Entry := ⟨0x3020, 0x3020, 2, 2, 4, 4, 0, 3, 0, true, 65535, true, false, none, 0, .none, true⟩
/-- BB_CONFIG_NODE (0x3020:03) -/
def bbConfigNode : Entry := ⟨0x3020, 0x3020, 3, 3, 3, 2, 0, 3, 0, true, 65535, true, false, none, 4, .none, true⟩
/-- BB_COMPANION_LOAD (0x3020:04) -/
def bbCompanionLoad : Entry := ⟨0x3020, 0x3020, 4, 4, 4, 4, 255, 3, 0, false, 65535, false, false, none, 0, .none, true⟩
/-- BB_COMPANION_REMOVE (0x3020:05) -/
def bbCompanionRemove : Entry := ⟨0x3020, 0x3020, 5, 5, 3, 2, 255, 3, 0, false, 65535, false, false, none, 0, .none, true⟩
/-- BB_COMPANIONS (0x3021:01) -/
def bbCompanions : Entry := ⟨0x3021, 0x3021, 1, 8, 3, 2, 0, 255, 0, true, 65535, false, false, none, 0, .none, false⟩
/-- BB_NODE_STATE (0x3022:01) -/
def bbNodeState : Entry := ⟨0x3022, 0x3022, 1, 2, 2, 1, 0, 255, 0, false, 65535, false, false, none, 0, .none, false⟩
/-- BB_NODE_ADDRESS (0x3022:03) -/
def bbNodeAddress : Entry := ⟨0x3022, 0x3022, 3, 3, 3, 2, 0, 255, 1, false, 65535, false, false, none, 0, .none, false⟩
/-- BB_FERRYMAN (0x3022:04) -/
def bbFerryman : Entry := ⟨0x3022, 0x3022, 4, 4, 3, 2, 0, 255, 0, false, 65535, false, false, none, 0, .none, false⟩
/-- BB_INAUG_COUNT (0x3022:05) -/
def bbInaugCount : Entry := ⟨0x3022, 0x3022, 5, 5, 4, 4, 0, 255, 1, false, 65535, false, false, none, 0, .none, false⟩
/-- BB_VEHICLES (0x3022:06) -/
def bbVehicles : Entry := ⟨0x3022, 0x3022, 6, 6, 2, 1, 0, 255, 1, false, 65535, false, false, none, 0, .none, false⟩
/-- BB_NODES (0x3022:07) -/
def bbNodes : Entry := ⟨0x3022, 0x3022, 7, 7, 2, 1, 0, 255, 0, false, 65535, false, false, none, 0, .none, false⟩
/-- BB_VEHICLE_BASE (0x3022:08) -/
def bbVehicleBase : Entry := ⟨0x3022, 0x3022, 8, 8, 2, 1, 0, 255, 1, false, 65535, false, false, none, 0, .none, false⟩
/-- BB_UNIT_REVERSED (0x3022:09) -/
def bbUnitReversed : Entry := ⟨0x3022, 0x3022, 9, 9, 1, 1, 0, 255, 1, false, 65535, false, false, none, 0, .none, false⟩
/-- BB_ORIENT_REVERSED (0x3022:0A) -/
def bbOrientReversed : Entry := ⟨0x3022, 0x3022, 10, 10, 1, 1, 0, 255, 1, false, 65535, false, false, none, 0, .none, false⟩
/-- BB_UNIT_REFUSAL (0x3022:0B) -/
def bbUnitRefusal : Entry := ⟨0x3022, 0x3022, 11, 11, 4, 4, 0, 255, 0, false, 65535, false, false, none, 0, .none, false⟩
/-- BB_W_AFT (0x3023:01) -/
def bbWAft : Entry := ⟨0x3023, 0x3023, 1, 2, 8, 4, 0, 255, 0, false, 65535, false, false, none, 0, .none, false⟩
/-- BB_W_FORE (0x3023:03) -/
def bbWFore : Entry := ⟨0x3023, 0x3023, 3, 4, 8, 4, 0, 255, 0, false, 65535, false, false, none, 0, .none, false⟩
/-- BB_PHASE_ERR (0x3023:05) -/
def bbPhaseErr : Entry := ⟨0x3023, 0x3023, 5, 6, 8, 4, 0, 255, 0, false, 65535, false, false, none, 0, .none, false⟩
/-- LINK_DELAY (0x3001:07) -/
def linkDelay : Entry := ⟨0x3001, 0x3001, 7, 7, 4, 4, 0, 255, 0, false, 65535, false, false, none, 0, .link, false⟩
/-- NODE_ADDR (0x3201:01) -/
def nodeAddr : Entry := ⟨0x3201, 0x3201, 1, 1, 3, 2, 0, 255, 0, false, 65535, false, false, none, 0, .node, false⟩
/-- NODE_UNIT (0x3201:02) -/
def nodeUnit : Entry := ⟨0x3201, 0x3201, 2, 2, 4, 4, 0, 255, 0, false, 65535, false, false, none, 0, .node, false⟩
/-- NODE_LAST_HEARD (0x3201:03) -/
def nodeLastHeard : Entry := ⟨0x3201, 0x3201, 3, 3, 14, 8, 0, 255, 0, false, 65535, false, false, none, 0, .node, false⟩
/-- CON_IP (0x3400:02) -/
def conIp : Entry := ⟨0x3400, 0x3400, 2, 3, 4, 4, 0, 3, 0, true, 41, false, false, none, 0, .none, true⟩
/-- CON_VLAN (0x3400:04) -/
def conVlan : Entry := ⟨0x3400, 0x3400, 4, 5, 3, 2, 0, 3, 0, true, 41, false, false, some (1, 4094), 1, .none, true⟩
/-- CON_MAC (0x3400:06) -/
def conMac : Entry := ⟨0x3400, 0x3400, 6, 7, 12, 6, 0, 255, 0, false, 65535, false, false, none, 0, .none, false⟩
/-- CON_MTU (0x3400:08) -/
def conMtu : Entry := ⟨0x3400, 0x3400, 8, 8, 3, 2, 0, 3, 0, true, 65535, true, false, some (1500, 9216), 1500, .none, true⟩
/-- CON_MAC_FULL (0x3400:09) -/
def conMacFull : Entry := ⟨0x3400, 0x3400, 9, 9, 4, 4, 0, 255, 0, false, 65535, false, false, none, 0, .none, false⟩
/-- TRDP_DISCARDED (0x3400:0A) -/
def trdpDiscarded : Entry := ⟨0x3400, 0x3400, 10, 10, 4, 4, 0, 255, 0, false, 65535, false, false, none, 0, .none, false⟩
/-- TRDP_ALLOW (0x3400:40) -/
def trdpAllow : Entry := ⟨0x3400, 0x3400, 64, 191, 12, 16, 0, 3, 0, true, 41, false, false, none, 0, .none, true⟩
/-- PORT_STATE (0x3401:01) -/
def portState : Entry := ⟨0x3401, 0x3401, 1, 1, 2, 1, 0, 255, 0, false, 65535, false, false, none, 0, .port, false⟩
/-- PORT_PVID (0x3402:01) -/
def portPvid : Entry := ⟨0x3402, 0x3402, 1, 1, 3, 2, 0, 3, 0, true, 41, false, false, some (1, 4094), 1, .port, true⟩
/-- PORT_VLANS (0x3402:02) -/
def portVlans : Entry := ⟨0x3402, 0x3402, 2, 2, 12, 16, 0, 3, 0, true, 41, false, false, none, 0, .port, true⟩
/-- PORT_TRANSIT (0x3402:03) -/
def portTransit : Entry := ⟨0x3402, 0x3402, 3, 3, 1, 1, 0, 3, 0, true, 41, false, false, none, 0, .port, true⟩
/-- PORT_RX_FRAMES (0x3403:01) -/
def portRxFrames : Entry := ⟨0x3403, 0x3403, 1, 1, 5, 8, 0, 255, 0, false, 65535, false, false, none, 0, .port, false⟩
/-- PORT_TX_FRAMES (0x3403:02) -/
def portTxFrames : Entry := ⟨0x3403, 0x3403, 2, 2, 5, 8, 0, 255, 0, false, 65535, false, false, none, 0, .port, false⟩
/-- PORT_DISCARDS (0x3403:03) -/
def portDiscards : Entry := ⟨0x3403, 0x3403, 3, 3, 4, 4, 0, 255, 0, false, 65535, false, false, none, 0, .port, false⟩
/-- SESS_COUNT (0x3500:02) -/
def sessCount : Entry := ⟨0x3500, 0x3500, 2, 2, 3, 2, 0, 255, 0, false, 65535, false, false, none, 0, .none, false⟩
/-- SESS_REFUSED (0x3500:03) -/
def sessRefused : Entry := ⟨0x3500, 0x3500, 3, 3, 4, 4, 0, 255, 0, false, 65535, false, false, none, 0, .none, false⟩
/-- SESS_HS_DROPPED (0x3500:04) -/
def sessHsDropped : Entry := ⟨0x3500, 0x3500, 4, 4, 4, 4, 0, 255, 0, false, 65535, false, false, none, 0, .none, false⟩
/-- SESS_IDLE_LIMIT (0x3500:05) -/
def sessIdleLimit : Entry := ⟨0x3500, 0x3500, 5, 5, 3, 2, 0, 3, 0, true, 65535, false, false, some (5, 600), 30, .none, true⟩
/-- SESS_REKEY_INTERVAL (0x3500:06) -/
def sessRekeyInterval : Entry := ⟨0x3500, 0x3500, 6, 6, 4, 4, 0, 3, 0, true, 65535, false, false, some (60, 86400), 3600, .none, true⟩
/-- SESS_RESERVE (0x3500:20) -/
def sessReserve : Entry := ⟨0x3500, 0x3500, 32, 159, 12, 20, 0, 3, 0, true, 41, false, false, none, 0, .none, true⟩
/-- SESS_DENY (0x3500:A0) -/
def sessDeny : Entry := ⟨0x3500, 0x3500, 160, 223, 12, 16, 0, 3, 0, true, 65535, false, false, none, 0, .none, true⟩
/-- SESS_STATE (0x3501:01) -/
def sessState : Entry := ⟨0x3501, 0x3501, 1, 1, 2, 1, 0, 255, 0, false, 65535, false, false, none, 0, .session, false⟩
/-- SESS_PEER_FP (0x3501:02) -/
def sessPeerFp : Entry := ⟨0x3501, 0x3501, 2, 2, 12, 16, 0, 255, 0, false, 65535, false, false, none, 0, .session, false⟩
/-- SESS_ANCHOR (0x3501:03) -/
def sessAnchor : Entry := ⟨0x3501, 0x3501, 3, 3, 2, 1, 0, 255, 0, false, 65535, false, false, none, 0, .session, false⟩
/-- SESS_FLAGS (0x3501:04) -/
def sessFlags : Entry := ⟨0x3501, 0x3501, 4, 4, 2, 1, 0, 255, 0, false, 65535, false, false, none, 0, .session, false⟩
/-- SESS_ROLE (0x3501:05) -/
def sessRole : Entry := ⟨0x3501, 0x3501, 5, 5, 2, 1, 0, 255, 0, false, 65535, false, false, none, 0, .session, false⟩
/-- SESS_OPENED (0x3501:06) -/
def sessOpened : Entry := ⟨0x3501, 0x3501, 6, 6, 14, 8, 0, 255, 0, false, 65535, false, false, none, 0, .session, false⟩
/-- SESS_KEY_PHASE (0x3501:07) -/
def sessKeyPhase : Entry := ⟨0x3501, 0x3501, 7, 7, 2, 1, 0, 255, 0, false, 65535, false, false, none, 0, .session, false⟩
/-- SESS_TX_SEQ (0x3502:01) -/
def sessTxSeq : Entry := ⟨0x3502, 0x3502, 1, 1, 5, 8, 0, 255, 0, false, 65535, false, false, none, 0, .session, false⟩
/-- SESS_RX_HIGH (0x3502:02) -/
def sessRxHigh : Entry := ⟨0x3502, 0x3502, 2, 3, 5, 8, 0, 255, 0, false, 65535, false, false, none, 0, .session, false⟩
/-- SESS_REPLAYS (0x3502:04) -/
def sessReplays : Entry := ⟨0x3502, 0x3502, 4, 4, 4, 4, 0, 255, 0, false, 65535, false, false, none, 0, .session, false⟩
/-- SESS_AUTH_FAIL (0x3502:05) -/
def sessAuthFail : Entry := ⟨0x3502, 0x3502, 5, 5, 4, 4, 0, 255, 0, false, 65535, false, false, none, 0, .session, false⟩
/-- SESS_REFUSALS (0x3502:06) -/
def sessRefusals : Entry := ⟨0x3502, 0x3502, 6, 6, 4, 4, 0, 255, 0, false, 65535, false, false, none, 0, .session, false⟩
/-- SESS_CLOSE (0x3502:07) -/
def sessClose : Entry := ⟨0x3502, 0x3502, 7, 7, 1, 1, 255, 3, 0, false, 65535, false, false, none, 0, .session, true⟩
/-- SESS_TG_SUPERSEDED (0x3502:08) -/
def sessTgSuperseded : Entry := ⟨0x3502, 0x3502, 8, 8, 4, 4, 0, 255, 0, false, 65535, false, false, none, 0, .session, false⟩
/-- TWIN_ENABLE (0x3800:01) -/
def twinEnable : Entry := ⟨0x3800, 0x3800, 1, 1, 1, 1, 0, 3, 0, true, 42, true, false, none, 0, .none, true⟩
/-- TWIN_PEER_NODE (0x3800:02) -/
def twinPeerNode : Entry := ⟨0x3800, 0x3800, 2, 2, 3, 2, 0, 3, 0, true, 42, true, false, none, 0, .none, true⟩
/-- TWIN_HOME (0x3800:03) -/
def twinHome : Entry := ⟨0x3800, 0x3800, 3, 3, 2, 1, 0, 3, 0, true, 42, false, false, some (0, 2), 0, .none, true⟩
/-- TWIN_REVERT_DELAY (0x3800:04) -/
def twinRevertDelay : Entry := ⟨0x3800, 0x3800, 4, 4, 4, 4, 0, 3, 0, true, 65535, false, false, some (0, 3600), 10, .none, true⟩
/-- TWIN_ALONE_WAIT (0x3800:05) -/
def twinAloneWait : Entry := ⟨0x3800, 0x3800, 5, 5, 4, 4, 0, 3, 0, true, 65535, false, false, some (0, 3600), 10, .none, true⟩
/-- TWIN_LEASE (0x3800:06) -/
def twinLease : Entry := ⟨0x3800, 0x3800, 6, 6, 2, 1, 0, 255, 1, false, 65535, false, false, none, 0, .none, false⟩
/-- TWIN_MODE (0x3800:07) -/
def twinMode : Entry := ⟨0x3800, 0x3800, 7, 7, 2, 1, 0, 255, 0, false, 65535, false, false, none, 0, .none, false⟩
/-- TWIN_LINKS (0x3800:08) -/
def twinLinks : Entry := ⟨0x3800, 0x3800, 8, 8, 2, 1, 0, 255, 0, false, 65535, false, false, none, 0, .none, false⟩
/-- TWIN_PEER_SERIAL (0x3800:09) -/
def twinPeerSerial : Entry := ⟨0x3800, 0x3800, 9, 9, 13, 12, 0, 255, 0, false, 65535, false, false, none, 0, .none, false⟩
/-- TWIN_HANDOVERS (0x3800:0A) -/
def twinHandovers : Entry := ⟨0x3800, 0x3800, 10, 10, 4, 4, 0, 255, 0, false, 65535, false, false, none, 0, .none, false⟩
/-- TWIN_CATCHUP_KIB (0x3800:0B) -/
def twinCatchupKib : Entry := ⟨0x3800, 0x3800, 11, 11, 4, 4, 0, 255, 0, false, 65535, false, false, none, 0, .none, false⟩
/-- TWIN_SHADOW_DROPPED (0x3800:0D) -/
def twinShadowDropped : Entry := ⟨0x3800, 0x3800, 13, 13, 4, 4, 0, 255, 0, false, 65535, false, false, none, 0, .none, false⟩
/-- TWIN_DO_PARALLEL (0x3800:0E) -/
def twinDoParallel : Entry := ⟨0x3800, 0x3800, 14, 14, 4, 4, 0, 3, 0, true, 65535, true, false, none, 0, .none, true⟩
/-- TWIN_SHARED_YARD (0x3800:0F) -/
def twinSharedYard : Entry := ⟨0x3800, 0x3800, 15, 15, 1, 1, 0, 3, 0, true, 65535, true, false, none, 0, .none, true⟩
/-- TWIN_MIRROR_USED (0x3800:10) -/
def twinMirrorUsed : Entry := ⟨0x3800, 0x3800, 16, 16, 4, 4, 0, 255, 0, false, 65535, false, false, none, 0, .none, false⟩
/-- TWIN_KEY (0x3810:01) -/
def twinKey : Entry := ⟨0x3810, 0x3810, 1, 1, 12, 32, 255, 3, 0, true, 42, false, false, none, 0, .none, true⟩
/-- TWIN_KEY_CHECK (0x3811:01) -/
def twinKeyCheck : Entry := ⟨0x3811, 0x3811, 1, 1, 4, 4, 0, 255, 0, false, 65535, false, false, none, 0, .none, false⟩
/-- STALL_MIRROR (0x2201:10) -/
def stallMirror : Entry := ⟨0x2201, 0x2201, 16, 16, 2, 1, 0, 255, 0, false, 65535, false, false, none, 0, .stall, true⟩
/-- BR_PACK_TIMEOUT (0x3900:02) -/
def brPackTimeout : Entry := ⟨0x3900, 0x3900, 2, 2, 2, 1, 0, 3, 0, true, 65535, false, false, some (1, 64), 2, .none, true⟩
/-- BR_LOCK_LIMIT (0x3900:03) -/
def brLockLimit : Entry := ⟨0x3900, 0x3900, 3, 3, 3, 2, 0, 3, 0, true, 65535, false, false, some (1, 4096), 16, .none, true⟩
/-- BR_READ_TIMEOUT (0x3900:04) -/
def brReadTimeout : Entry := ⟨0x3900, 0x3900, 4, 4, 3, 2, 0, 3, 0, true, 65535, false, false, some (1, 10000), 100, .none, true⟩
/-- BR_WINDOW (0x3910:01) -/
def brWindow : Entry := ⟨0x3910, 0x3910, 1, 128, 12, 16, 0, 3, 0, true, 65535, true, false, none, 0, .none, true⟩
/-- MVB_DEV_ADDR (0x3920:01) -/
def mvbDevAddr : Entry := ⟨0x3920, 0x3920, 1, 2, 3, 2, 0, 3, 0, true, 65535, true, false, some (0, 4095), 0, .none, true⟩
/-- MVB_BA_ENABLE (0x3920:03) -/
def mvbBaEnable : Entry := ⟨0x3920, 0x3920, 3, 3, 1, 1, 0, 3, 0, true, 65535, true, false, none, 0, .none, true⟩
/-- MVB_BA_LIST (0x3920:04) -/
def mvbBaList : Entry := ⟨0x3920, 0x3920, 4, 4, 4, 4, 0, 3, 0, true, 65535, true, false, none, 0, .none, true⟩
/-- MVB_LINE_STATE (0x3921:01) -/
def mvbLineState : Entry := ⟨0x3921, 0x3921, 1, 2, 2, 1, 0, 255, 0, false, 65535, false, false, none, 0, .none, false⟩
/-- CAN_BITRATE (0x3930:01) -/
def canBitrate : Entry := ⟨0x3930, 0x3930, 1, 2, 4, 4, 0, 3, 0, true, 65535, true, false, some (125000, 1000000), 500000, .none, true⟩
/-- CAN_DATA_BITRATE (0x3930:03) -/
def canDataBitrate : Entry := ⟨0x3930, 0x3930, 3, 4, 4, 4, 0, 3, 0, true, 65535, true, false, none, 2000000, .none, true⟩
/-- CAN_RESTART_HOLD (0x3930:05) -/
def canRestartHold : Entry := ⟨0x3930, 0x3930, 5, 5, 3, 2, 0, 3, 0, true, 65535, false, false, some (0, 10000), 100, .none, true⟩
/-- CAN_STATE (0x3931:01) -/
def canState : Entry := ⟨0x3931, 0x3931, 1, 2, 2, 1, 0, 255, 0, false, 65535, false, false, none, 0, .none, false⟩
/-- SER_BAUD (0x3940:01) -/
def serBaud : Entry := ⟨0x3940, 0x3940, 1, 2, 4, 4, 0, 3, 0, true, 65535, true, false, some (1200, 4000000), 115200, .none, true⟩
/-- SER_FORMAT (0x3940:03) -/
def serFormat : Entry := ⟨0x3940, 0x3940, 3, 4, 2, 1, 0, 3, 0, true, 65535, true, false, none, 0, .none, true⟩
/-- SER_GAP (0x3940:05) -/
def serGap : Entry := ⟨0x3940, 0x3940, 5, 5, 4, 4, 0, 3, 0, true, 65535, false, false, some (0, 1000000), 0, .none, true⟩
/-- BR_WIN_LOST (0x3950:01) -/
def brWinLost : Entry := ⟨0x3950, 0x3950, 1, 128, 4, 4, 0, 255, 0, false, 65535, false, false, none, 0, .none, false⟩
/-- BR_WIN_DROPPED (0x3952:01) -/
def brWinDropped : Entry := ⟨0x3952, 0x3952, 1, 128, 4, 4, 0, 255, 0, false, 65535, false, false, none, 0, .none, false⟩
/-- BR_LOCK_HOLDER (0x3951:01) -/
def brLockHolder : Entry := ⟨0x3951, 0x3951, 1, 15, 3, 2, 0, 255, 0, false, 65535, false, false, none, 65535, .none, false⟩
/-- DI_GROUP_SET (0x4000:02) -/
def diGroupSet : Entry := ⟨0x4000, 0x4000, 2, 9, 2, 1, 0, 3, 0, true, 65535, true, false, some (0, 2), 0, .none, true⟩
/-- DI_FILTER (0x4001:01) -/
def diFilter : Entry := ⟨0x4001, 0x4001, 1, 1, 3, 2, 0, 3, 0, true, 65535, false, false, some (0, 20000), 500, .di, true⟩
/-- DI_WB_ENABLE (0x4001:02) -/
def diWbEnable : Entry := ⟨0x4001, 0x4001, 2, 2, 1, 1, 0, 3, 0, true, 65535, false, false, none, 0, .di, true⟩
/-- DI_LEVEL (0x4002:01) -/
def diLevel : Entry := ⟨0x4002, 0x4002, 1, 1, 1, 1, 0, 255, 1, false, 65535, false, false, none, 0, .di, false⟩
/-- DI_FAULT (0x4002:02) -/
def diFault : Entry := ⟨0x4002, 0x4002, 2, 2, 2, 1, 0, 255, 0, false, 65535, false, false, none, 0, .di, false⟩
/-- DI_EDGES (0x4002:03) -/
def diEdges : Entry := ⟨0x4002, 0x4002, 3, 3, 4, 4, 0, 255, 0, false, 65535, false, false, none, 0, .di, false⟩
/-- FIELD_SILENT_TIMEOUT (0x4100:02) -/
def fieldSilentTimeout : Entry := ⟨0x4100, 0x4100, 2, 2, 3, 2, 0, 4, 0, true, 192, true, false, some (2, 250), 10, .none, true⟩
/-- FIELD_STATE (0x4100:03) -/
def fieldState : Entry := ⟨0x4100, 0x4100, 3, 3, 2, 1, 0, 255, 0, false, 65535, false, false, none, 0, .none, false⟩
/-- FIELD_DISSIPATION (0x4100:04) -/
def fieldDissipation : Entry := ⟨0x4100, 0x4100, 4, 4, 4, 4, 0, 255, 0, false, 65535, false, false, none, 0, .none, false⟩
/-- DO_ROLE (0x4101:01) -/
def doRole : Entry := ⟨0x4101, 0x4101, 1, 1, 2, 1, 0, 255, 0, false, 65535, false, false, none, 0, .dout, false⟩
/-- DO_SAFE_STATE (0x4101:02) -/
def doSafeState : Entry := ⟨0x4101, 0x4101, 2, 2, 2, 1, 0, 3, 0, true, 65535, false, false, some (0, 1), 0, .dout, true⟩
/-- DO_READBACK_DELAY (0x4101:03) -/
def doReadbackDelay : Entry := ⟨0x4101, 0x4101, 3, 3, 3, 2, 0, 3, 0, true, 65535, false, false, some (1, 100), 5, .dout, true⟩
/-- DO_OPEN_LOAD (0x4101:04) -/
def doOpenLoad : Entry := ⟨0x4101, 0x4101, 4, 4, 1, 1, 0, 3, 0, true, 65535, false, false, none, 0, .dout, true⟩
/-- DO_RESET (0x4101:05) -/
def doReset : Entry := ⟨0x4101, 0x4101, 5, 5, 1, 1, 255, 2, 0, false, 65535, false, false, none, 0, .dout, true⟩
/-- DO_APPLIED (0x4102:01) -/
def doApplied : Entry := ⟨0x4102, 0x4102, 1, 1, 1, 1, 0, 255, 0, false, 65535, false, false, none, 0, .dout, false⟩
/-- DO_CURRENT (0x4102:02) -/
def doCurrent : Entry := ⟨0x4102, 0x4102, 2, 2, 3, 2, 0, 255, 0, false, 65535, false, false, none, 0, .dout, false⟩
/-- DO_FAULT (0x4102:03) -/
def doFault : Entry := ⟨0x4102, 0x4102, 3, 3, 2, 1, 0, 255, 0, false, 65535, false, false, none, 0, .dout, false⟩
/-- SAF_OUT_X (0x4200:02) -/
def safOutX : Entry := ⟨0x4200, 0x4200, 2, 2, 3, 2, 0, 4, 0, true, 192, false, false, none, 0, .none, true⟩
/-- SAF_OUT_Y (0x4200:03) -/
def safOutY : Entry := ⟨0x4200, 0x4200, 3, 3, 3, 2, 0, 4, 0, true, 192, false, false, none, 0, .none, true⟩
/-- SAF_EDIT (0x4200:04) -/
def safEdit : Entry := ⟨0x4200, 0x4200, 4, 4, 1, 1, 0, 4, 0, false, 65535, false, false, none, 0, .none, true⟩
/-- SAF_COMMIT (0x4200:05) -/
def safCommit : Entry := ⟨0x4200, 0x4200, 5, 5, 4, 4, 255, 4, 0, false, 65535, false, false, none, 0, .none, true⟩
/-- SAF_ACTIVE_CRC (0x4200:06) -/
def safActiveCrc : Entry := ⟨0x4200, 0x4200, 6, 6, 4, 4, 0, 255, 0, false, 65535, false, false, none, 0, .none, false⟩
/-- SAF_PENDING_CRC (0x4200:07) -/
def safPendingCrc : Entry := ⟨0x4200, 0x4200, 7, 7, 4, 4, 0, 255, 0, false, 65535, false, false, none, 0, .none, false⟩
/-- SAF_COMMITS (0x4200:08) -/
def safCommits : Entry := ⟨0x4200, 0x4200, 8, 8, 4, 4, 0, 255, 0, true, 65535, false, false, none, 0, .none, false⟩
/-- SAF_LOG (0x4200:10) -/
def safLog : Entry := ⟨0x4200, 0x4200, 16, 31, 12, 32, 0, 255, 0, true, 65535, false, false, none, 0, .none, false⟩
/-- SAF_TYPE (0x4201:01) -/
def safType : Entry := ⟨0x4201, 0x4201, 1, 1, 2, 1, 0, 4, 0, true, 192, false, false, some (0, 4), 0, .saf, true⟩
/-- SAF_PAIR_A (0x4201:02) -/
def safPairA : Entry := ⟨0x4201, 0x4201, 2, 2, 2, 1, 0, 4, 0, true, 192, false, false, none, 255, .saf, true⟩
/-- SAF_PAIR_B (0x4201:03) -/
def safPairB : Entry := ⟨0x4201, 0x4201, 3, 3, 2, 1, 0, 4, 0, true, 192, false, false, none, 255, .saf, true⟩
/-- SAF_START_PAIR (0x4201:04) -/
def safStartPair : Entry := ⟨0x4201, 0x4201, 4, 4, 2, 1, 0, 4, 0, true, 192, false, false, none, 255, .saf, true⟩
/-- SAF_WIRING (0x4201:05) -/
def safWiring : Entry := ⟨0x4201, 0x4201, 5, 5, 2, 1, 0, 4, 0, true, 192, false, false, none, 7, .saf, true⟩
/-- SAF_START_MODE (0x4201:06) -/
def safStartMode : Entry := ⟨0x4201, 0x4201, 6, 6, 2, 1, 0, 4, 0, true, 192, false, false, some (0, 2), 0, .saf, true⟩
/-- SAF_FILTER (0x4201:07) -/
def safFilter : Entry := ⟨0x4201, 0x4201, 7, 7, 3, 2, 0, 4, 0, true, 192, false, false, some (0, 20000), 0, .saf, true⟩
/-- SAF_DISCREPANCY (0x4201:08) -/
def safDiscrepancy : Entry := ⟨0x4201, 0x4201, 8, 8, 3, 2, 0, 4, 0, true, 192, false, false, some (5, 500), 30, .saf, true⟩
/-- SAF_HELD_LIMIT (0x4201:09) -/
def safHeldLimit : Entry := ⟨0x4201, 0x4201, 9, 9, 3, 2, 0, 4, 0, true, 192, false, false, some (1, 3600), 60, .saf, true⟩
/-- SAF_SYNC (0x4201:0A) -/
def safSync : Entry := ⟨0x4201, 0x4201, 10, 10, 3, 2, 0, 4, 0, true, 192, false, false, some (100, 500), 500, .saf, true⟩
/-- SAF_OUT_MASK (0x4201:0B) -/
def safOutMask : Entry := ⟨0x4201, 0x4201, 11, 11, 3, 2, 0, 4, 0, true, 192, false, false, none, 0, .saf, true⟩
/-- SAF_REL_MASK (0x4201:0C) -/
def safRelMask : Entry := ⟨0x4201, 0x4201, 12, 12, 3, 2, 0, 4, 0, true, 192, false, false, none, 0, .saf, true⟩
/-- SAF_STANDSTILL (0x4201:0D) -/
def safStandstill : Entry := ⟨0x4201, 0x4201, 13, 13, 2, 1, 0, 4, 0, true, 192, false, false, some (0, 2), 0, .saf, true⟩
/-- SAF_REQ_STALL (0x4201:0E) -/
def safReqStall : Entry := ⟨0x4201, 0x4201, 14, 14, 3, 2, 0, 4, 0, true, 192, false, false, none, 65535, .saf, true⟩
/-- SAF_STATE (0x4202:01) -/
def safState : Entry := ⟨0x4202, 0x4202, 1, 1, 2, 1, 0, 255, 1, false, 65535, false, false, none, 0, .saf, false⟩
/-- SAF_CAUSE (0x4202:02) -/
def safCause : Entry := ⟨0x4202, 0x4202, 2, 2, 2, 1, 0, 255, 1, false, 65535, false, false, none, 0, .saf, false⟩
/-- SAF_TRIPS (0x4202:03) -/
def safTrips : Entry := ⟨0x4202, 0x4202, 3, 3, 4, 4, 0, 255, 0, false, 65535, false, false, none, 0, .saf, false⟩
/-- SAF_LAST_REACTION (0x4202:04) -/
def safLastReaction : Entry := ⟨0x4202, 0x4202, 4, 4, 4, 4, 0, 255, 0, false, 65535, false, false, none, 0, .saf, false⟩
/-- SAF_LAST_DEMAND (0x4202:05) -/
def safLastDemand : Entry := ⟨0x4202, 0x4202, 5, 5, 14, 8, 0, 255, 0, true, 65535, false, false, none, 0, .saf, false⟩
/-- SAF_REQ_IGNORED (0x4202:06) -/
def safReqIgnored : Entry := ⟨0x4202, 0x4202, 6, 6, 4, 4, 0, 255, 0, false, 65535, false, false, none, 0, .saf, false⟩
/-- AI_RANGE (0x4301:01) -/
def aiRange : Entry := ⟨0x4301, 0x4301, 1, 1, 2, 1, 0, 3, 0, true, 65535, false, false, some (0, 2), 0, .ai, true⟩
/-- AI_RATE (0x4301:02) -/
def aiRate : Entry := ⟨0x4301, 0x4301, 2, 2, 2, 1, 0, 3, 0, true, 65535, false, false, some (0, 4), 2, .ai, true⟩
/-- AI_GAIN (0x4301:03) -/
def aiGain : Entry := ⟨0x4301, 0x4301, 3, 3, 11, 8, 0, 3, 0, true, 65535, false, false, none, 4517329193108106637, .ai, true⟩
/-- AI_OFFSET (0x4301:04) -/
def aiOffset : Entry := ⟨0x4301, 0x4301, 4, 4, 11, 8, 0, 3, 0, true, 65535, false, false, none, 0, .ai, true⟩
/-- AI_RMS_LEN (0x4302:01) -/
def aiRmsLen : Entry := ⟨0x4302, 0x4302, 1, 1, 2, 1, 0, 3, 0, true, 65535, false, false, some (4, 16), 10, .ai, true⟩
/-- AI_RMS_AC (0x4302:02) -/
def aiRmsAc : Entry := ⟨0x4302, 0x4302, 2, 2, 1, 1, 0, 3, 0, true, 65535, false, false, none, 0, .ai, true⟩
/-- AI_ENV_RELEASE (0x4302:03) -/
def aiEnvRelease : Entry := ⟨0x4302, 0x4302, 3, 3, 4, 4, 0, 3, 0, true, 65535, false, false, some (100, 10000000), 100000, .ai, true⟩
/-- AI_RAW (0x4303:01) -/
def aiRaw : Entry := ⟨0x4303, 0x4303, 1, 1, 8, 4, 0, 255, 1, false, 65535, false, false, none, 0, .ai, false⟩
/-- AI_VALUE (0x4303:02) -/
def aiValue : Entry := ⟨0x4303, 0x4303, 2, 2, 11, 8, 0, 255, 1, false, 65535, false, false, none, 0, .ai, false⟩
/-- AI_STATUS (0x4303:03) -/
def aiStatus : Entry := ⟨0x4303, 0x4303, 3, 3, 3, 2, 0, 255, 0, false, 65535, false, false, none, 256, .ai, false⟩
/-- AI_LOSSES (0x4303:04) -/
def aiLosses : Entry := ⟨0x4303, 0x4303, 4, 4, 4, 4, 0, 255, 0, false, 65535, false, false, none, 0, .ai, false⟩
/-- REC_COUNT (0x5000:02) -/
def recCount : Entry := ⟨0x5000, 0x5000, 2, 2, 4, 4, 0, 255, 0, false, 65535, false, false, none, 0, .none, false⟩
/-- REC_RESERVE_USED (0x5000:03) -/
def recReserveUsed : Entry := ⟨0x5000, 0x5000, 3, 3, 4, 4, 0, 255, 0, false, 65535, false, false, none, 0, .none, false⟩
/-- REC_DROPPED (0x5000:04) -/
def recDropped : Entry := ⟨0x5000, 0x5000, 4, 4, 4, 4, 0, 255, 0, false, 65535, false, false, none, 0, .none, false⟩
/-- REC_SUPPRESSED (0x5000:05) -/
def recSuppressed : Entry := ⟨0x5000, 0x5000, 5, 5, 4, 4, 0, 255, 0, false, 65535, false, false, none, 0, .none, false⟩
/-- REC_POISONED (0x5000:06) -/
def recPoisoned : Entry := ⟨0x5000, 0x5000, 6, 6, 4, 4, 0, 255, 0, false, 65535, false, false, none, 0, .none, false⟩
/-- REC_LOST_UNMIGRATED (0x5000:07) -/
def recLostUnmigrated : Entry := ⟨0x5000, 0x5000, 7, 7, 4, 4, 0, 255, 0, false, 65535, false, false, none, 0, .none, false⟩
/-- REC_OPERATING_S (0x5000:08) -/
def recOperatingS : Entry := ⟨0x5000, 0x5000, 8, 8, 4, 4, 0, 255, 1, false, 65535, false, false, none, 0, .none, false⟩
/-- REC_POWER_CYCLES (0x5000:09) -/
def recPowerCycles : Entry := ⟨0x5000, 0x5000, 9, 9, 4, 4, 0, 255, 1, false, 65535, false, false, none, 0, .none, false⟩
/-- REC_BUFFERED (0x5000:0A) -/
def recBuffered : Entry := ⟨0x5000, 0x5000, 10, 10, 3, 2, 0, 255, 0, false, 65535, false, false, none, 0, .none, false⟩
/-- REC_FREEZE (0x5000:0B) -/
def recFreeze : Entry := ⟨0x5000, 0x5000, 11, 11, 1, 1, 0, 2, 0, false, 65535, false, false, none, 0, .none, true⟩
/-- REC_FREEZE_LEFT (0x5000:0C) -/
def recFreezeLeft : Entry := ⟨0x5000, 0x5000, 12, 12, 3, 2, 0, 255, 0, false, 65535, false, false, none, 0, .none, false⟩
/-- REC_CLEAR (0x5000:0D) -/
def recClear : Entry := ⟨0x5000, 0x5000, 13, 13, 13, 64, 255, 2, 0, false, 65535, false, false, none, 0, .none, true⟩
/-- REC_CURSOR (0x5001:01) -/
def recCursor : Entry := ⟨0x5001, 0x5001, 1, 1, 12, 16, 0, 0, 0, false, 65535, false, false, none, 0, .ctx, true⟩
/-- REC_WINDOW (0x5001:02) -/
def recWindow : Entry := ⟨0x5001, 0x5001, 2, 2, 12, 1024, 0, 255, 0, false, 65535, false, false, none, 0, .ctx, false⟩
/-- REC_FILTER (0x5001:03) -/
def recFilter : Entry := ⟨0x5001, 0x5001, 3, 3, 2, 1, 0, 0, 0, false, 65535, false, false, some (0, 4), 0, .ctx, true⟩
/-- YARD_STATE (0x5010:01) -/
def yardState : Entry := ⟨0x5010, 0x5010, 1, 2, 2, 1, 0, 255, 0, false, 65535, false, false, none, 0, .none, false⟩
/-- YARD_CAPACITY (0x5010:03) -/
def yardCapacity : Entry := ⟨0x5010, 0x5010, 3, 4, 5, 8, 0, 255, 0, false, 65535, false, false, none, 0, .none, false⟩
/-- YARD_BACKLOG (0x5010:05) -/
def yardBacklog : Entry := ⟨0x5010, 0x5010, 5, 6, 4, 4, 0, 255, 0, false, 65535, false, false, none, 0, .none, false⟩
/-- YARD_WRITTEN (0x5010:07) -/
def yardWritten : Entry := ⟨0x5010, 0x5010, 7, 8, 5, 8, 0, 255, 0, false, 65535, false, false, none, 0, .none, false⟩
/-- YARD_HEALTH (0x5010:09) -/
def yardHealth : Entry := ⟨0x5010, 0x5010, 9, 10, 12, 16, 0, 255, 0, false, 65535, false, false, none, 0, .none, false⟩
/-- YARD_WRAP (0x5011:01) -/
def yardWrap : Entry := ⟨0x5011, 0x5011, 1, 1, 1, 1, 0, 3, 0, true, 65535, true, false, none, 0, .none, true⟩
/-- YARD_FORMAT (0x5011:02) -/
def yardFormat : Entry := ⟨0x5011, 0x5011, 2, 2, 2, 1, 255, 3, 0, false, 65535, false, false, some (1, 2), 0, .none, true⟩
/-- PWD_SET (0x1110:01) -/
def pwdSet : Entry := ⟨0x1110, 0x1110, 1, 5, 13, 64, 255, 254, 0, false, 65535, false, false, none, 0, .none, true⟩
/-- PWD_STATE (0x1111:01) -/
def pwdState : Entry := ⟨0x1111, 0x1111, 1, 5, 2, 1, 0, 255, 0, false, 65535, false, false, none, 0, .none, false⟩
/-- PWD_FAILS (0x1112:01) -/
def pwdFails : Entry := ⟨0x1112, 0x1112, 1, 5, 2, 1, 0, 255, 0, false, 65535, false, false, none, 0, .none, false⟩
/-- TR_ROOT_LOAD (0x1150:01) -/
def trRootLoad : Entry := ⟨0x1150, 0x1150, 1, 1, 4, 4, 255, 3, 0, false, 65535, false, false, none, 0, .none, true⟩
/-- TR_CA_LOAD (0x1150:02) -/
def trCaLoad : Entry := ⟨0x1150, 0x1150, 2, 2, 4, 4, 255, 3, 0, false, 65535, false, false, none, 0, .none, true⟩
/-- TR_ROOT_CLEAR (0x1150:03) -/
def trRootClear : Entry := ⟨0x1150, 0x1150, 3, 3, 2, 1, 255, 3, 0, false, 65535, false, false, some (0, 3), 0, .none, true⟩
/-- TR_CA_CLEAR (0x1150:04) -/
def trCaClear : Entry := ⟨0x1150, 0x1150, 4, 4, 2, 1, 255, 3, 0, false, 65535, false, false, some (0, 7), 0, .none, true⟩
/-- TR_ROOT_CHECK (0x1151:01) -/
def trRootCheck : Entry := ⟨0x1151, 0x1151, 1, 4, 4, 4, 0, 255, 0, false, 65535, false, false, none, 0, .none, false⟩
/-- TR_ROOT_KINDS (0x1151:05) -/
def trRootKinds : Entry := ⟨0x1151, 0x1151, 5, 8, 2, 1, 0, 255, 0, false, 65535, false, false, none, 0, .none, false⟩
/-- TR_CA_CHECK (0x1153:01) -/
def trCaCheck : Entry := ⟨0x1153, 0x1153, 1, 8, 4, 4, 0, 255, 0, false, 65535, false, false, none, 0, .none, false⟩
/-- TR_CA_USE (0x1153:09) -/
def trCaUse : Entry := ⟨0x1153, 0x1153, 9, 16, 2, 1, 0, 255, 0, false, 65535, false, false, none, 0, .none, false⟩
/-- TR_LOCK_MASK (0x1154:01) -/
def trLockMask : Entry := ⟨0x1154, 0x1154, 1, 1, 4, 4, 0, 3, 0, true, 239, false, false, none, 0, .none, true⟩
/-- UPD_OPEN (0x5100:01) -/
def updOpen : Entry := ⟨0x5100, 0x5100, 1, 1, 4, 4, 255, 3, 0, false, 65535, false, false, none, 0, .none, true⟩
/-- UPD_STATE (0x5100:02) -/
def updState : Entry := ⟨0x5100, 0x5100, 2, 2, 2, 1, 0, 255, 0, false, 65535, false, false, none, 0, .none, false⟩
/-- UPD_PACKAGE (0x5100:03) -/
def updPackage : Entry := ⟨0x5100, 0x5100, 3, 3, 4, 4, 0, 255, 0, false, 65535, false, false, none, 0, .none, false⟩
/-- UPD_NEXT_BLOCK (0x5100:04) -/
def updNextBlock : Entry := ⟨0x5100, 0x5100, 4, 4, 4, 4, 0, 255, 0, false, 65535, false, false, none, 0, .none, false⟩
/-- UPD_ABORT (0x5100:05) -/
def updAbort : Entry := ⟨0x5100, 0x5100, 5, 5, 1, 1, 255, 3, 0, false, 65535, false, false, none, 0, .none, true⟩
/-- UPD_ACTIVATE (0x5100:06) -/
def updActivate : Entry := ⟨0x5100, 0x5100, 6, 6, 4, 4, 0, 3, 0, false, 238, false, false, none, 0, .none, true⟩
/-- UPD_FALLBACK (0x5100:07) -/
def updFallback : Entry := ⟨0x5100, 0x5100, 7, 7, 1, 1, 255, 3, 0, false, 238, true, false, none, 0, .none, true⟩
/-- UPD_EPOCH (0x5100:09) -/
def updEpoch : Entry := ⟨0x5100, 0x5100, 9, 9, 3, 2, 0, 255, 0, false, 65535, false, false, none, 0, .none, false⟩
/-- UPD_BANK (0x5101:01) -/
def updBank : Entry := ⟨0x5101, 0x5101, 1, 2, 12, 16, 0, 255, 0, false, 65535, false, false, none, 0, .none, false⟩
/-- LOFT_INFO (0x5110:01) -/
def loftInfo : Entry := ⟨0x5110, 0x5110, 1, 64, 12, 32, 0, 255, 0, false, 65535, false, false, none, 0, .none, false⟩
/-- LOFT_DELETE (0x5110:41) -/
def loftDelete : Entry := ⟨0x5110, 0x5110, 65, 65, 4, 4, 255, 3, 0, false, 65535, false, false, none, 0, .none, true⟩
/-- LOFT_FREE (0x5110:42) -/
def loftFree : Entry := ⟨0x5110, 0x5110, 66, 66, 4, 4, 0, 255, 0, false, 65535, false, false, none, 16382, .none, false⟩
/-- SET_FORMAT (0x5200:01) -/
def setFormat : Entry := ⟨0x5200, 0x5200, 1, 1, 3, 2, 0, 255, 0, false, 65535, false, false, none, 0, .none, false⟩
/-- SET_SNAPSHOT_FORMAT (0x5200:02) -/
def setSnapshotFormat : Entry := ⟨0x5200, 0x5200, 2, 2, 3, 2, 0, 255, 0, false, 65535, false, false, none, 0, .none, false⟩
/-- SET_RESET (0x5200:03) -/
def setReset : Entry := ⟨0x5200, 0x5200, 3, 3, 1, 1, 255, 3, 0, false, 65535, true, false, none, 0, .none, true⟩
/-- SET_PENDING (0x5200:04) -/
def setPending : Entry := ⟨0x5200, 0x5200, 4, 4, 3, 2, 0, 255, 0, false, 65535, false, false, none, 0, .none, false⟩
/-- SET_TORN (0x5200:05) -/
def setTorn : Entry := ⟨0x5200, 0x5200, 5, 5, 4, 4, 0, 255, 0, false, 65535, false, false, none, 0, .none, false⟩
/-- SVC_IP (0x5200:06) -/
def svcIp : Entry := ⟨0x5200, 0x5200, 6, 6, 4, 4, 0, 3, 0, true, 65535, false, false, none, 2852015361, .none, true⟩
/-- CORE_CYCLES (0x2050:01) -/
def coreCycles : Entry := ⟨0x2050, 0x2050, 1, 1, 5, 8, 0, 255, 0, false, 65535, false, false, none, 0, .core, false⟩
/-- CORE_PC (0x2050:02) -/
def corePc : Entry := ⟨0x2050, 0x2050, 2, 9, 5, 8, 0, 255, 0, false, 65535, false, false, none, 0, .core, false⟩
/-- CORE_PC_OVF (0x2050:0A) -/
def corePcOvf : Entry := ⟨0x2050, 0x2050, 10, 10, 2, 1, 0, 255, 0, false, 65535, false, false, none, 0, .core, false⟩
/-- CORE_SAMPLES (0x2051:01) -/
def coreSamples : Entry := ⟨0x2051, 0x2051, 1, 1, 12, 1024, 0, 255, 0, false, 65535, false, false, none, 0, .core, false⟩
/-- CORE_SAMPLE_COUNT (0x2051:02) -/
def coreSampleCount : Entry := ⟨0x2051, 0x2051, 2, 2, 4, 4, 0, 255, 0, false, 65535, false, false, none, 0, .core, false⟩
/-- PC_SNAP_CMD (0x5300:01) -/
def pcSnapCmd : Entry := ⟨0x5300, 0x5300, 1, 1, 1, 1, 255, 2, 0, false, 65535, false, false, none, 0, .none, true⟩
/-- PC_SNAP_PERIOD (0x5300:02) -/
def pcSnapPeriod : Entry := ⟨0x5300, 0x5300, 2, 2, 3, 2, 0, 2, 0, false, 65535, false, false, some (0, 4096), 0, .none, true⟩
/-- PC_SNAP_NUMBER (0x5300:03) -/
def pcSnapNumber : Entry := ⟨0x5300, 0x5300, 3, 3, 4, 4, 0, 255, 1, false, 65535, false, false, none, 0, .none, false⟩
/-- PC_SNAP_CROSSING (0x5300:04) -/
def pcSnapCrossing : Entry := ⟨0x5300, 0x5300, 4, 4, 5, 8, 0, 255, 1, false, 65535, false, false, none, 0, .none, false⟩
/-- PC_SNAP_FLAGS (0x5300:05) -/
def pcSnapFlags : Entry := ⟨0x5300, 0x5300, 5, 5, 4, 4, 0, 255, 1, false, 65535, false, false, none, 0, .none, false⟩
/-- PC_CLEAR (0x5300:07) -/
def pcClear : Entry := ⟨0x5300, 0x5300, 7, 7, 1, 1, 255, 2, 0, false, 65535, false, false, none, 0, .none, true⟩
/-- PC_CTRL (0x5310:01) -/
def pcCtrl : Entry := ⟨0x5310, 0x531F, 1, 8, 4, 4, 0, 2, 0, false, 65535, false, false, none, 0, .none, true⟩
/-- PC_SNAP_VAL (0x5320:01) -/
def pcSnapVal : Entry := ⟨0x5320, 0x532F, 1, 9, 5, 8, 0, 255, 1, false, 65535, false, false, none, 0, .none, false⟩
/-- PC_SAMPLE_K (0x5330:01) -/
def pcSampleK : Entry := ⟨0x5330, 0x5330, 1, 16, 2, 1, 0, 2, 0, false, 65535, false, false, some (0, 24), 0, .none, true⟩
/-- PC_LAT_STALL (0x5340:01) -/
def pcLatStall : Entry := ⟨0x5340, 0x5340, 1, 1, 3, 2, 0, 2, 0, false, 65535, false, false, some (0, 511), 65535, .none, true⟩
/-- PC_LAT_MIN (0x5340:02) -/
def pcLatMin : Entry := ⟨0x5340, 0x5340, 2, 2, 4, 4, 0, 2, 0, false, 65535, false, false, some (1, 10000000), 100, .none, true⟩
/-- PC_LAT_ARM (0x5340:03) -/
def pcLatArm : Entry := ⟨0x5340, 0x5340, 3, 3, 1, 1, 255, 2, 0, false, 65535, false, false, none, 0, .none, true⟩
/-- PC_LAT_COUNT (0x5341:01) -/
def pcLatCount : Entry := ⟨0x5341, 0x5341, 1, 3, 3, 2, 0, 255, 0, false, 65535, false, false, none, 0, .none, false⟩
/-- PC_LAT_REC (0x5342:01) -/
def pcLatRec : Entry := ⟨0x5342, 0x5344, 1, 4, 12, 1024, 0, 255, 0, false, 65535, false, false, none, 0, .none, false⟩
/-- PC_BLOCK_TIME (0x5380:01) -/
def pcBlockTime : Entry := ⟨0x5380, 0x5380, 1, 1, 14, 8, 0, 255, 0, false, 65535, false, false, none, 0, .none, false⟩
/-- PC_BLOCK_CAUSE (0x5380:02) -/
def pcBlockCause : Entry := ⟨0x5380, 0x5380, 2, 2, 2, 1, 0, 255, 0, false, 65535, false, false, none, 0, .none, false⟩
/-- LOCK_AT_START (0x1141:01) -/
def lockAtStart : Entry := ⟨0x1141, 0x1141, 1, 4, 5, 8, 0, 3, 0, true, 65535, false, false, none, 0, .none, true⟩
/-- RESET_CMD (0x1200:01) -/
def resetCmd : Entry := ⟨0x1200, 0x1200, 1, 1, 2, 1, 255, 3, 0, false, 65535, false, false, some (1, 1), 0, .none, true⟩
/-- START_CAUSE (0x1200:02) -/
def startCause : Entry := ⟨0x1200, 0x1200, 2, 2, 2, 1, 0, 255, 1, false, 65535, false, false, none, 0, .none, false⟩
/-- START_MODE (0x1200:03) -/
def startMode : Entry := ⟨0x1200, 0x1200, 3, 3, 2, 1, 0, 3, 0, true, 65535, false, false, some (1, 2), 1, .none, true⟩
/-- START_T0 (0x1200:04) -/
def startT0 : Entry := ⟨0x1200, 0x1200, 4, 4, 14, 8, 0, 255, 1, false, 65535, false, false, none, 0, .none, false⟩
/-- START_DURATION (0x1200:05) -/
def startDuration : Entry := ⟨0x1200, 0x1200, 5, 5, 4, 4, 0, 255, 0, false, 65535, false, false, none, 0, .none, false⟩
/-- START_COMPLETE (0x1200:06) -/
def startComplete : Entry := ⟨0x1200, 0x1200, 6, 6, 1, 1, 0, 255, 0, false, 65535, false, false, none, 0, .none, false⟩
/-- RECOVERY (0x1200:07) -/
def recovery : Entry := ⟨0x1200, 0x1200, 7, 7, 1, 1, 0, 255, 0, false, 65535, false, false, none, 0, .none, false⟩
/-- RECOVERY_PWD_RESET (0x1200:08) -/
def recoveryPwdReset : Entry := ⟨0x1200, 0x1200, 8, 8, 1, 1, 255, 0, 0, false, 65535, false, false, none, 0, .none, true⟩
/-- RESET_COUNTS (0x1201:01) -/
def resetCounts : Entry := ⟨0x1201, 0x1201, 1, 6, 4, 4, 0, 255, 0, true, 65535, false, false, none, 0, .none, false⟩
/-- LANE_RESET (0x2001:08) -/
def laneReset : Entry := ⟨0x2001, 0x2001, 8, 8, 1, 1, 255, 3, 0, false, 65535, false, false, none, 0, .lane, true⟩
/-- ARB_ACTIVE (0x1130:01) -/
def arbActive : Entry := ⟨0x1130, 0x1130, 1, 1, 3, 2, 0, 255, 1, false, 65535, false, false, none, 0, .none, true⟩
/-- ARB_REFUSED (0x1130:02) -/
def arbRefused : Entry := ⟨0x1130, 0x1130, 2, 2, 4, 4, 0, 255, 0, false, 65535, false, false, none, 0, .none, true⟩
/-- ARB_LAST_REFUSAL (0x1130:03) -/
def arbLastRefusal : Entry := ⟨0x1130, 0x1130, 3, 3, 12, 8, 0, 255, 0, false, 65535, false, false, none, 0, .none, true⟩
/-- SUPPLY_VIN (0x1302:01) -/
def supplyVin : Entry := ⟨0x1302, 0x1302, 1, 1, 4, 4, 0, 255, 1, false, 65535, false, false, none, 0, .none, false⟩
/-- HOLDUP_STATE (0x1302:02) -/
def holdupState : Entry := ⟨0x1302, 0x1302, 2, 2, 2, 1, 0, 255, 0, false, 65535, false, false, none, 0, .none, false⟩
/-- HOLDUP_MS (0x1302:03) -/
def holdupMs : Entry := ⟨0x1302, 0x1302, 3, 3, 3, 2, 0, 255, 0, false, 65535, false, false, none, 0, .none, false⟩
/-- PF_WARNINGS (0x1302:04) -/
def pfWarnings : Entry := ⟨0x1302, 0x1302, 4, 4, 4, 4, 0, 255, 0, true, 65535, false, false, none, 0, .none, false⟩
/-- PART_NUMBER (0x1000:01) -/
def partNumber : Entry := ⟨0x1000, 0x1000, 1, 1, 13, 8, 0, 255, 1, false, 65535, false, false, none, 3696710165250463300, .none, false⟩
/-- COMPAT_GEN (0x1000:02) -/
def compatGen : Entry := ⟨0x1000, 0x1000, 2, 2, 2, 1, 0, 255, 1, false, 65535, false, false, none, 1, .none, false⟩
/-- HW_REVISION (0x1000:03) -/
def hwRevision : Entry := ⟨0x1000, 0x1000, 3, 3, 2, 1, 0, 255, 1, false, 65535, false, false, none, 0, .none, false⟩
/-- SERIAL_NUMBER (0x1000:04) -/
def serialNumber : Entry := ⟨0x1000, 0x1000, 4, 4, 13, 12, 0, 255, 0, false, 65535, false, false, none, 0, .none, false⟩
/-- FW_VERSION (0x1000:05) -/
def fwVersion : Entry := ⟨0x1000, 0x1000, 5, 5, 4, 4, 0, 255, 1, false, 65535, false, false, none, 0, .none, false⟩
/-- CTX_ROLE (0x1100:01) -/
def ctxRole : Entry := ⟨0x1100, 0x1100, 1, 1, 2, 1, 0, 255, 0, false, 65535, false, false, none, 0, .ctx, false⟩
/-- CTX_ID (0x1100:02) -/
def ctxId : Entry := ⟨0x1100, 0x1100, 2, 2, 3, 2, 0, 255, 0, false, 65535, false, false, none, 0, .ctx, false⟩
/-- LOCK_BITS (0x1140:01) -/
def lockBits : Entry := ⟨0x1140, 0x1140, 1, 4, 5, 8, 0, 254, 1, false, 65535, false, false, none, 0, .none, true⟩
/-- CHG_COUNT (0x1160:01) -/
def chgCount : Entry := ⟨0x1160, 0x1160, 1, 1, 4, 4, 0, 255, 0, false, 65535, false, false, none, 0, .none, true⟩
/-- CHG_LOG (0x1160:02) -/
def chgLog : Entry := ⟨0x1160, 0x1160, 2, 17, 12, 16, 0, 255, 0, false, 65535, false, false, none, 0, .none, true⟩
/-- CORE_STALLS (0x2041:01) -/
def coreStalls : Entry := ⟨0x2041, 0x2041, 1, 1, 3, 2, 0, 255, 0, false, 65535, false, false, none, 0, .core, false⟩
/-- CORE_CODE_FREE (0x2041:02) -/
def coreCodeFree : Entry := ⟨0x2041, 0x2041, 2, 2, 3, 2, 0, 255, 0, false, 65535, false, false, none, 512, .core, false⟩
/-- CORE_DATA_FREE (0x2041:03) -/
def coreDataFree : Entry := ⟨0x2041, 0x2041, 3, 3, 3, 2, 0, 255, 0, false, 65535, false, false, none, 512, .core, false⟩
/-- STALL_HOLD (0x2201:09) -/
def stallHold : Entry := ⟨0x2201, 0x2201, 9, 9, 2, 1, 255, 3, 0, false, 65535, false, false, some (1, 2), 0, .stall, true⟩
/-- STALL_PHASE (0x2201:0A) -/
def stallPhase : Entry := ⟨0x2201, 0x2201, 10, 10, 3, 2, 0, 255, 0, false, 65535, false, false, none, 0, .stall, true⟩
/-- STALL_OVERRUNS (0x2201:0B) -/
def stallOverruns : Entry := ⟨0x2201, 0x2201, 11, 11, 4, 4, 0, 255, 0, false, 65535, false, false, none, 0, .stall, true⟩
/-- STALL_IMAP (0x2210:01) -/
def stallImap : Entry := ⟨0x2210, 0x2210, 1, 255, 12, 16, 0, 3, 0, true, 65535, false, false, none, 0, .stall, true⟩
/-- CYCLE_MODE (0x2400:01) -/
def cycleMode : Entry := ⟨0x2400, 0x2400, 1, 1, 2, 1, 0, 255, 1, false, 65535, false, false, none, 0, .none, true⟩
/-- CYCLE_MODE_CMD (0x2400:02) -/
def cycleModeCmd : Entry := ⟨0x2400, 0x2400, 2, 2, 2, 1, 255, 3, 0, false, 65535, false, false, some (1, 2), 0, .none, true⟩
/-- RETAIN_USED (0x2400:06) -/
def retainUsed : Entry := ⟨0x2400, 0x2400, 6, 6, 4, 4, 0, 255, 0, false, 65535, false, false, none, 0, .none, true⟩
/-- BLOCK_HUB (0x5381:01) -/
def blockHub : Entry := ⟨0x5381, 0x5382, 1, 12, 4, 4, 0, 255, 0, false, 65535, false, false, none, 0, .none, false⟩
/-- BLOCK_FIELD (0x5383:01) -/
def blockField : Entry := ⟨0x5383, 0x5384, 1, 8, 4, 4, 0, 255, 0, false, 65535, false, false, none, 0, .none, false⟩
/-- BLOCK_BRIDGE (0x5385:01) -/
def blockBridge : Entry := ⟨0x5385, 0x5386, 1, 7, 4, 4, 0, 255, 0, false, 65535, false, false, none, 0, .none, false⟩

end E

/-- Part 0 of the entry list. -/
def entryList0 : List Entry := [E.laneSel, E.coreSel, E.stallSel, E.trigSel, E.linkSel, E.slotSel, E.nodeSel, E.portSel, E.sessionSel, E.diSel, E.doSel, E.safSel, E.aiSel, E.stallLoad, E.stallLastId, E.stallCount, E.stallStateFree, E.stallCmd, E.stallState, E.stallPkg, E.stallRights, E.stallReplace, E.stallRestarts, E.stallFault, E.stallRescue, E.forceCount, E.forceTimeout, E.forceClearAll, E.diForce, E.diForceLeft, E.doForce, E.doForceLeft, E.aiForce, E.aiForceValue, E.aiForceLeft, E.crossingNumber, E.cycleCpf, E.coreCapacity, E.heldCount, E.coreAdmitted]

/-- Part 1 of the entry list. -/
def entryList1 : List Entry := [E.stallLastFuel, E.stallDropped, E.voteSkew, E.laneSet, E.voterState, E.voteHoldLimit, E.restableAuto, E.restableLimit, E.restableCmd, E.restableProgress, E.mismatchRestarts, E.voteStaleItems, E.laneStatus, E.laneFaultCause, E.laneFaults, E.laneRestables, E.laneAbandoned, E.laneLateCopies, E.laneWithinCopies, E.timeNow, E.timeCrossingLen, E.timeState, E.timeSlewMax, E.timeSteps, E.timeHubDiff, E.timeUtcOffset, E.timeUtcValid, E.posNow, E.posQuality, E.posDatumNumber, E.posDatumSet, E.posSlipAbs, E.posSlipRel, E.posRefMaxAge, E.trigCount, E.trigRefused, E.trigState, E.trigOwner, E.trigRequest, E.trigNext]

/-- Part 2 of the entry list. -/
def entryList2 : List Entry := [E.trigFirings, E.trigCancel, E.tachoEnable, E.tachoPpr, E.tachoWheelDia, E.tachoSign, E.tachoCount, E.tachoStandstill, E.supplyMode, E.supplyModeCmd, E.budgetLine, E.budgetBattery, E.budgetStabling, E.budgetHyst, E.energyStep, E.energyLevel, E.powerIn, E.energyIn, E.thermalWarn, E.thermalCrit, E.dieTemp, E.shedState, E.shedAllow, E.shedDroppedIn, E.stallSheds, E.stallCurtail, E.bbCrossingN, E.bbPlanNumber, E.bbPlanEntries, E.bbPlanLoad, E.bbPlanConfigured, E.bbDatumAnnounce, E.bbBellsMissed, E.bbUnplanned, E.bbUtcSet, E.bbKey, E.bbKeyCheck, E.bbKeyActive, E.linkState, E.linkSkew]

/-- Part 3 of the entry list. -/
def entryList3 : List Entry := [E.linkBlockErrors, E.linkRelayed, E.linkGuardCuts, E.linkTagFail, E.slotEntry, E.slotOwner, E.slotStall, E.slotTelegram, E.slotOffset, E.slotPeriod, E.slotLen, E.slotRx, E.slotMissed, E.slotEmpty, E.slotSuperseded, E.bbPriority, E.bbUnitId, E.bbConfigNode, E.bbCompanionLoad, E.bbCompanionRemove, E.bbCompanions, E.bbNodeState, E.bbNodeAddress, E.bbFerryman, E.bbInaugCount, E.bbVehicles, E.bbNodes, E.bbVehicleBase, E.bbUnitReversed, E.bbOrientReversed, E.bbUnitRefusal, E.bbWAft, E.bbWFore, E.bbPhaseErr, E.linkDelay, E.nodeAddr, E.nodeUnit, E.nodeLastHeard, E.conIp, E.conVlan]

/-- Part 4 of the entry list. -/
def entryList4 : List Entry := [E.conMac, E.conMtu, E.conMacFull, E.trdpDiscarded, E.trdpAllow, E.portState, E.portPvid, E.portVlans, E.portTransit, E.portRxFrames, E.portTxFrames, E.portDiscards, E.sessCount, E.sessRefused, E.sessHsDropped, E.sessIdleLimit, E.sessRekeyInterval, E.sessReserve, E.sessDeny, E.sessState, E.sessPeerFp, E.sessAnchor, E.sessFlags, E.sessRole, E.sessOpened, E.sessKeyPhase, E.sessTxSeq, E.sessRxHigh, E.sessReplays, E.sessAuthFail, E.sessRefusals, E.sessClose, E.sessTgSuperseded, E.twinEnable, E.twinPeerNode, E.twinHome, E.twinRevertDelay, E.twinAloneWait, E.twinLease, E.twinMode]

/-- Part 5 of the entry list. -/
def entryList5 : List Entry := [E.twinLinks, E.twinPeerSerial, E.twinHandovers, E.twinCatchupKib, E.twinShadowDropped, E.twinDoParallel, E.twinSharedYard, E.twinMirrorUsed, E.twinKey, E.twinKeyCheck, E.stallMirror, E.brPackTimeout, E.brLockLimit, E.brReadTimeout, E.brWindow, E.mvbDevAddr, E.mvbBaEnable, E.mvbBaList, E.mvbLineState, E.canBitrate, E.canDataBitrate, E.canRestartHold, E.canState, E.serBaud, E.serFormat, E.serGap, E.brWinLost, E.brWinDropped, E.brLockHolder, E.diGroupSet, E.diFilter, E.diWbEnable, E.diLevel, E.diFault, E.diEdges, E.fieldSilentTimeout, E.fieldState, E.fieldDissipation, E.doRole, E.doSafeState]

/-- Part 6 of the entry list. -/
def entryList6 : List Entry := [E.doReadbackDelay, E.doOpenLoad, E.doReset, E.doApplied, E.doCurrent, E.doFault, E.safOutX, E.safOutY, E.safEdit, E.safCommit, E.safActiveCrc, E.safPendingCrc, E.safCommits, E.safLog, E.safType, E.safPairA, E.safPairB, E.safStartPair, E.safWiring, E.safStartMode, E.safFilter, E.safDiscrepancy, E.safHeldLimit, E.safSync, E.safOutMask, E.safRelMask, E.safStandstill, E.safReqStall, E.safState, E.safCause, E.safTrips, E.safLastReaction, E.safLastDemand, E.safReqIgnored, E.aiRange, E.aiRate, E.aiGain, E.aiOffset, E.aiRmsLen, E.aiRmsAc]

/-- Part 7 of the entry list. -/
def entryList7 : List Entry := [E.aiEnvRelease, E.aiRaw, E.aiValue, E.aiStatus, E.aiLosses, E.recCount, E.recReserveUsed, E.recDropped, E.recSuppressed, E.recPoisoned, E.recLostUnmigrated, E.recOperatingS, E.recPowerCycles, E.recBuffered, E.recFreeze, E.recFreezeLeft, E.recClear, E.recCursor, E.recWindow, E.recFilter, E.yardState, E.yardCapacity, E.yardBacklog, E.yardWritten, E.yardHealth, E.yardWrap, E.yardFormat, E.pwdSet, E.pwdState, E.pwdFails, E.trRootLoad, E.trCaLoad, E.trRootClear, E.trCaClear, E.trRootCheck, E.trRootKinds, E.trCaCheck, E.trCaUse, E.trLockMask, E.updOpen]

/-- Part 8 of the entry list. -/
def entryList8 : List Entry := [E.updState, E.updPackage, E.updNextBlock, E.updAbort, E.updActivate, E.updFallback, E.updEpoch, E.updBank, E.loftInfo, E.loftDelete, E.loftFree, E.setFormat, E.setSnapshotFormat, E.setReset, E.setPending, E.setTorn, E.svcIp, E.coreCycles, E.corePc, E.corePcOvf, E.coreSamples, E.coreSampleCount, E.pcSnapCmd, E.pcSnapPeriod, E.pcSnapNumber, E.pcSnapCrossing, E.pcSnapFlags, E.pcClear, E.pcCtrl, E.pcSnapVal, E.pcSampleK, E.pcLatStall, E.pcLatMin, E.pcLatArm, E.pcLatCount, E.pcLatRec, E.pcBlockTime, E.pcBlockCause, E.lockAtStart, E.resetCmd]

/-- Part 9 of the entry list. -/
def entryList9 : List Entry := [E.startCause, E.startMode, E.startT0, E.startDuration, E.startComplete, E.recovery, E.recoveryPwdReset, E.resetCounts, E.laneReset, E.arbActive, E.arbRefused, E.arbLastRefusal, E.supplyVin, E.holdupState, E.holdupMs, E.pfWarnings, E.partNumber, E.compatGen, E.hwRevision, E.serialNumber, E.fwVersion, E.ctxRole, E.ctxId, E.lockBits, E.chgCount, E.chgLog, E.coreStalls, E.coreCodeFree, E.coreDataFree, E.stallHold, E.stallPhase, E.stallOverruns, E.stallImap, E.cycleMode, E.cycleModeCmd, E.retainUsed, E.blockHub, E.blockField, E.blockBridge]

/-- Every entry that the module defines (23 R531). -/
def entryList : List Entry :=
  entryList0 ++ entryList1 ++ entryList2 ++ entryList3 ++ entryList4 ++ entryList5 ++ entryList6 ++ entryList7 ++ entryList8 ++ entryList9

/-- Does the entry hold the index and sub-index? -/
def Entry.has (e : Entry) (idx sub : Nat) : Bool :=
  e.idx ≤ idx && idx ≤ e.idxHi && e.sub ≤ sub && sub ≤ e.subHi

/-- The entry at an index and sub-index (23 R531). -/
def findEntry (idx sub : Nat) : Option Entry := entryList.find? (fun e => e.has idx sub)

/-- The highest sub-index in use at an index (02 R27), where the index holds an entry. -/
def highestSub (idx : Nat) : Option Nat :=
  match (entryList.filter (fun e => e.idx ≤ idx && idx ≤ e.idxHi)).map Entry.subHi with
  | [] => none
  | x :: xs => some (xs.foldl max x)

/-- The key under which a value of an entry is held. -/
def ekey (idx sub inst : Nat) : Nat := idx * 16777216 + sub * 65536 + inst

/-- The default of an entry at a sub-index (02 R30); the sheds' allowances differ (08 Table 08-6). -/
def Entry.dfltAt (e : Entry) (sub : Nat) : Nat :=
  if e.idx = 0x1311 then (if sub = 1 then 0 else if sub ≤ 4 then 7 else 4) else e.dflt

/-- The lock bit of an entry at a sub-index (23 Table 23-5): 236 freezes PWD_SET of roles 1 to 3, 237 that of role 4. -/
def Entry.lockAt (e : Entry) (sub : Nat) : Nat :=
  if e.idx = 0x1110 then (if sub ≤ 3 then 236 else if sub = 4 then 237 else 65535) else e.lock

/-- Sub-index 0x00 of an index (02 R27): a U8 that gives the highest sub-index in use, read by every role, by the stalls that may read
some sub-index of the index, and written by none. -/
def countEntry (idx : Nat) (rd : Bool) (n : Nat) : Entry :=
  { idx := idx, idxHi := idx, sub := 0, subHi := 0, ty := 2, len := 1, rd := 0, wr := 255, stall := b01 rd, persist := false
    lock := 65535, stopOnly := false, pair := false, lim := none, dflt := n, sel := .none, sup := false }
where
  b01 (b : Bool) : Nat := if b then 1 else 0

/-- Sub-index 0x00 of an index of the module's own entries. -/
def subZero (idx : Nat) : Option Entry :=
  (highestSub idx).map (countEntry idx (entryList.any (fun e => e.idx ≤ idx && idx ≤ e.idxHi && e.stall ≠ 0)))

end Sys2Proof.Machine
end

