-- ==== Sys2Proof/Config.lean ====
section
/-!
DEFINITION. What an implementation fixes and the spec leaves open: the free values, constants with no body,
so that nothing in Lean can evaluate one or prove a value of it, and the cryptographic functions,
which the spec takes from other standards.
-/

namespace Sys2Proof

/-- A fresh value that the spec leaves open (log 6): applied to a counter that the step advances. -/
opaque Config.freeNat : Nat → Nat

/-- The value of a counter after it passes the largest value of its width, where the spec states none (log 7):
from the entry key and the count. -/
opaque Config.counterPast : Nat → Nat

/-- AES-256-GCM (log 8), sealing: key, IV, associated data, plaintext give the sealed bytes and tag. -/
opaque Config.aeadSeal : Nat → Nat → List Byte → List Byte → List Byte

/-- AES-256-GCM (log 8), opening: key, IV, associated data, sealed bytes; `none` where the tag fails. -/
opaque Config.aeadOpen : Nat → Nat → List Byte → List Byte → Option (List Byte)

/-- GMAC tag of a frame under a 256-bit key and IV (log 8). -/
opaque Config.gmac : Nat → Nat → List Byte → Nat

/-- SHA-384 of a byte string (log 8). -/
opaque Config.sha384 : List Byte → Nat

/-- The first 4 bytes of AES-256 under a key of an all-zero block (log 8, 09 R241). -/
opaque Config.aesCheck : Nat → Nat

/-- The serial number of the module, 12 decimal digits (log 25). -/
opaque Config.serial : Nat

/-- The MAC address of each hub (log 25). -/
opaque Config.mac : Nat → Nat

/-- HKDF expansion (log 8): secret, label and context give a key. -/
opaque Config.hkdf : Nat → Nat → Nat → Nat

/-- The module's certificate chain in the form of HELLO (log 8, 11 Table 11-3). -/
opaque Config.moduleChain : List Byte

/-- The module's signature over a digest (log 8, 11 Table 11-3). -/
opaque Config.moduleSign : Nat → List Byte

/-- PBKDF2 of a password with a salt (log 8, 18 R466). -/
opaque Config.pbkdf2 : List Byte → Nat → Nat

/-- Does an ECDSA P-384 signature verify: key, digest, signature (log 8)? -/
opaque Config.ecdsaOk : Nat → Nat → Nat → Bool

/-- Does an ML-DSA-65 signature verify: key, digest, signature (log 8)? -/
opaque Config.mldsaOk : Nat → Nat → Nat → Bool

/-- Does a DER certificate hold a P-384 or ML-DSA-65 key and basicConstraints cA true (log 8, 18 R464)? -/
opaque Config.caOk : List Byte → Bool

/-- Is a text the password with which a role is delivered (18 R466, log 27)? -/
opaque Config.deliveryPassword : Nat → List Byte → Bool

/-- The hardware revision (23 Table 23-4, log 25): which of the letters A to Z except I and O. -/
opaque Config.hwRevision : Nat

end Sys2Proof
end

