-- ==== Sys2Proof/Machine/State.lean ====
section
/-!
DEFINITION. The state of the block as plain data, its reset, and the reasons a step can stop.
Every field's comment names the chapter and rule of the spec that gives it.
-/

namespace Sys2Proof.Machine

/-- A stall's memory: (address, byte) pairs, addresses strictly rising, no byte equal to 0. An unlisted byte reads 0
(04 R104: every byte the package does not give is 0). -/
abbrev Mem := List Host.Cell

/-- A stop with a fault. No command of this block stops with one: every effect the spec gives is a next state. -/
inductive Fault where
  /-- Raised by no command; kept because the interface has a fault type. Safe: nothing is stopped. -/
  | unused
  deriving DecidableEq, Repr

/-- A command without a meaning. -/
inductive Refusal where
  /-- The command is not modelled yet; raised by the dispatcher alone. Safe: the run stops. -/
  | notModelled (mnemonic : String)
  deriving DecidableEq, Repr

/-- The states of a stall id that is not EMPTY (04 Table 04-6). -/
inductive StallSt where
  | loading | stopped | running | held | faulted | restarting | unloading
  deriving DecidableEq, Repr

/-- The states of a lane (06 Table 06-1). -/
inductive LaneSt where
  | inSet | out | restabling | shadow | failed
  deriving DecidableEq, Repr

/-- What a posted request asks (03 R84, 05 R134). -/
inductive PostedReq where
  | send (kind flags dest : Nat) (data : List (BitVec 8))
  | trigArm (req : Nat)
  | trigCancel (handle : Nat)
  | event (code sev : Nat) (data : List (BitVec 8))
  | safety (inst : Nat) (reset : Bool)
  deriving DecidableEq, Repr

/-- The kinds of output the block sends (the model's own record of what leaves it). -/
inductive EgKind where
  | dapResponse | telegram | heldTelegram | bell | outwardChain | inwardChain | roster | probe | echo | relay
  | sessionRecord | handshakeAnswer | handshakeRefuse | handshakeReady | ethFrame | arpReply | icmpReply
  | twinHello | twinKeepalive | twinRenew | twinAck | twinClaim | twinRelease | twinYield | twinMirror | twinCatchup
  | outputCommand | holdCommand | safeCommand | fieldConfig
  | busWrite | busRead | mvbSlave | mvbMaster | dieReset | mismatchMarker | doDrive | yardPage | yardHeader | nvme
  deriving DecidableEq, Repr

/-- Table 04-8 exception frame / rescue frame. -/
structure Frame where
  /-- 04 R113: frame pc -/
  pc : BitVec 64 := 0
  /-- 04 R113: status word -/
  sw : BitVec 64 := 0
  /-- 04 R112: cause field -/
  cause : BitVec 64 := 0
  /-- 04 R112: fault address -/
  fa : BitVec 64 := 0
  /-- 04 R113: fuel remaining -/
  fuel : BitVec 64 := 0
  /-- 04 R113: g1 -/
  g1 : BitVec 64 := 0
  /-- 04 R113: g2 -/
  g2 : BitVec 64 := 0
  /-- 04 R113: g3 -/
  g3 : BitVec 64 := 0
  deriving DecidableEq, Repr

/-- A stall's execution state: the registers of R51 and bytes 0-383 of its control block (Table 04-9), with its segments' memory. -/
structure Exec where
  /-- 03 R51, 04 R105: g0-g31, 64 bits each; g0 reads 0 (R52) -/
  regs : Vector (BitVec 64) 32 := Vector.replicate 32 0
  /-- 03 R51, 04 R105: program counter, 64 bits -/
  pc : BitVec 64 := 0
  /-- 03 R55: status word, 64 bits -/
  sw : BitVec 64 := 0
  /-- 03 R63: fuel remaining in the activation -/
  fuel : Nat := 0
  /-- 04 R92, R94: bytes of CODE, DATA, STACK, RETAIN, MIRROR, IMAGE, OUTBOX, BULK; unlisted byte reads 0 (R104) -/
  mem : Mem := []
  /-- 04 R118: last stop reason (0 none, 1 SVC_YIELD, 2 fuel stop, 3 fault, 4 STOP, 5 HOLD), 8 bits -/
  stopReason : Nat := 0
  /-- 04 R118: restart count, 32 bits -/
  restarts : Nat := 0
  /-- 03 R85: next posted-request tag, 32 bits, starts at 1 at load -/
  nextTag : Nat := 1
  /-- 04 R118: posted requests accepted in this activation, 32 bits -/
  posted : Nat := 0
  /-- 04 R118: activation count, 64 bits -/
  activations : Nat := 0
  /-- 04 R118: exceptions delivered, 32 bits -/
  exceptions : Nat := 0
  /-- 04 R117, R118: train times of the automatic restarts of the last 3600 s (their number is SCB bytes 300-303) -/
  autoTimes : List Nat := []
  /-- 04 R118: time of last fault, TIME64 -/
  faultTime : Nat := 0
  /-- 04 R118: cause of last fault (STALL_FAULT) -/
  faultCause : BitVec 64 := 0
  /-- 04 R115, R118: rescue frame, 64 bytes (STALL_RESCUE) -/
  rescue : Frame := {}
  deriving DecidableEq, Repr

/-- Table 04-2 stall descriptor. -/
structure Descriptor where
  /-- 04 R98: VIS 32 as a little-endian number -/
  name : Nat := 0
  /-- 04 R98: U32 -/
  supplier : Nat := 0
  /-- 04 R98: U32 -/
  version : Nat := 0
  /-- 04 R98, R101: requested rights -/
  rights : BitVec 64 := 0
  /-- 04 R98: E0-E3 -/
  energyClass : Nat := 0
  /-- 04 R98: 0-15 -/
  homeCore : Nat := 0
  /-- 04 R98: flags [0] -/
  mirrored : Bool := false
  /-- 04 R98: flags [1] -/
  autoRestart : Bool := false
  /-- 04 R98: flags [2] -/
  shareDict : Bool := false
  /-- 04 R98: 0-15 -/
  restartLimit : Nat := 0
  /-- 04 R98, 05 R137: crossings -/
  period : Nat := 1
  /-- 04 R98, 05 R137: budget -/
  fuel : Nat := 64
  /-- 04 R93: bytes -/
  codeSize : Nat := 4096
  /-- 04 R93: bytes -/
  dataSize : Nat := 0
  /-- 04 R98: bytes -/
  dataInit : Nat := 0
  /-- 04 R93: bytes -/
  stackSize : Nat := 4096
  /-- 04 R93: bytes -/
  retainSize : Nat := 0
  /-- 04 R93: bytes -/
  mirrorSize : Nat := 0
  /-- 04 R93: bytes -/
  imageSize : Nat := 0
  /-- 04 R93: bytes -/
  outboxSize : Nat := 0
  /-- 04 R93: bytes -/
  bulkSize : Nat := 0
  /-- 04 R98: U64 -/
  entryPc : BitVec 64 := 0x10000000
  /-- 04 R98: U64, 0 none -/
  handlerPc : BitVec 64 := 0
  /-- 04 R98: U64 -/
  initG31 : BitVec 64 := 0x30001000
  /-- 04 R98: U32 -/
  retainTag : Nat := 0
  /-- 04 R98: U16 -/
  dictBase : Nat := 0
  /-- 04 R98: U16 -/
  dictCount : Nat := 0
  /-- 04 R98: U32 -/
  mapOffset : Nat := 256
  /-- 04 R98: U32 -/
  mapCount : Nat := 0
  /-- 04 R98: CRC-32C of the descriptor -/
  crc : Nat := 0
  deriving DecidableEq, Repr

/-- Table 04-4 DICTWIN map item. -/
structure MapItem where
  /-- 04 R100: first slot -/
  slot : Nat := 1
  /-- 04 R100: entry index -/
  index : Nat := 0
  /-- 04 R100: entry sub-index -/
  sub : Nat := 0
  /-- 04 R100: flags [0] -/
  selected : Bool := false
  /-- 04 R100: flags [1] -/
  write : Bool := false
  /-- 04 R100: fixed instance -/
  inst : Nat := 0
  deriving DecidableEq, Repr

/-- Table 23-6 stall-defined entry declaration. -/
structure Decl where
  /-- 23 R536: U16 -/
  index : Nat := 0
  /-- 23 R536: U8 -/
  sub : Nat := 1
  /-- 23 R536: type code, Table 23-1 -/
  ty : Nat := 2
  /-- 23 R536: bytes -/
  len : Nat := 1
  /-- 23 R536: 0-5 -/
  readRole : Nat := 0
  /-- 23 R536: 1-3 -/
  writeRole : Nat := 1
  /-- 23 R536: flags [0] -/
  persistent : Bool := false
  /-- 23 R536: raw little-endian value -/
  min : Nat := 0
  /-- 23 R536: raw little-endian value -/
  max : Nat := 0
  /-- 23 R536: raw little-endian value -/
  dflt : Nat := 0
  deriving DecidableEq, Repr

/-- The five parts of a stall package (04 R543). -/
structure StallPkg where
  /-- 04 R98: descriptor -/
  desc : Descriptor := {}
  /-- 04 R100: DICTWIN map -/
  map : List MapItem := []
  /-- 23 R536: declaration block -/
  decls : List Decl := []
  /-- 04 R543: CODE image -/
  code : List (BitVec 8) := []
  /-- 04 R543: initialised DATA -/
  data : List (BitVec 8) := []
  deriving DecidableEq, Repr

/-- A posted request accepted at an SVC, waiting for its outcome at the boundary (03 R85, 05 R132). -/
structure Posted where
  /-- 05 R132: stall id -/
  stall : Nat := 0
  /-- 03 R85: tag -/
  tag : Nat := 0
  /-- 03 R84: what is asked -/
  req : PostedReq := .event 0 0 []
  /-- 05 R132, R135: outcome decided from the agreed state, where it leaves in the crossing of the SVC -/
  code : Nat := 0
  /-- 05 R132: outcome value decided with it -/
  value : Nat := 0
  /-- 05 R135: code and value have been decided -/
  decided : Bool := false
  /-- 04 R107: its version has been replaced: the outcome is discarded -/
  dropped : Bool := false
  /-- 08 R223: its destination shed was not OPEN at the start of the crossing of its SVC -/
  shut : Bool := false
  deriving DecidableEq, Repr

/-- One outcome of the result area (05 R132). -/
structure Outcome1 where
  /-- 05 R132: U32 -/
  tag : Nat := 0
  /-- 05 R132: abort code or 0 -/
  code : Nat := 0
  /-- 05 R132: U64 -/
  value : Nat := 0
  deriving DecidableEq, Repr

/-- Table 07-5 trigger entry waiting for delivery. -/
structure TrigEntry where
  /-- 07 R205: U32 -/
  handle : Nat := 0
  /-- 07 R205: U32 -/
  userTag : Nat := 0
  /-- 07 R203: TIME64 -/
  stamp : Nat := 0
  /-- 07 R206: U64 -/
  lateness : Nat := 0
  /-- 07 R205: U16 -/
  firings : Nat := 0
  /-- 07 R205: 1 time 2 position -/
  kind : Nat := 0
  /-- 07 R205: LATE 1 LAST 2 SUPPRESSED 4 DEFERRED 8 MORE 16 TIME_STEP 32 DATUM_END 64 -/
  flags : Nat := 0
  /-- 07 R205: U32 -/
  crossing : Nat := 0
  deriving DecidableEq, Repr

/-- A load or replacement in progress (04 R104, R106). -/
structure Loading where
  /-- 04 R103: package number -/
  pkgNo : Nat := 0
  /-- 04 R104: the parts being copied -/
  pkg : StallPkg := {}
  /-- 04 R106: a replacement beside the running version -/
  replace : Bool := false
  /-- 04 R104, 21 R508: T_a, or the boundary from which R508 counts -/
  since : Nat := 0
  /-- 21 R508: waits for re-stabling -/
  waiting : Bool := false
  /-- 04 R96: placement of the version being loaded -/
  placed : List Nat := [0, 0, 0]
  /-- 04 R104: digest reported by each lane, 128 bits -/
  digests : NMap Nat := []
  deriving DecidableEq, Repr

/-- An inbound record of a window (Table 13-5). -/
structure BRec where
  /-- 13 R344: record sequence -/
  seq : Nat := 0
  /-- 13 R344: the record -/
  bytes : List (BitVec 8) := []
  /-- 13 R344: RESUMED -/
  resumed : Bool := false
  /-- 13 R348: a notice record -/
  notice : Bool := false
  /-- 05 R130: hub arrival stamp -/
  at_ : Nat := 0
  deriving DecidableEq, Repr

/-- Accumulation of a stall's mapped items since its previous activation (05 R130). -/
structure ImgWin where
  /-- 05 R152: rising-edge flags of DI 0-63, a bit each -/
  rise : Nat := 0
  /-- 05 R152: falling-edge flags of DI 0-63, a bit each -/
  fall : Nat := 0
  /-- 16 R413: per analog channel: peak high, peak low, samples -/
  peaks : NMap (Int × Int × Nat) := []
  /-- 16 R413: analog channels with LOST in an image -/
  aiLost : List Nat := []
  /-- 13 R344: per bridge window: records since the previous activation -/
  queue : NMap (List BRec) := []
  /-- 13 R344: per bridge window: records lost since the previous activation -/
  lost : NMap Nat := []
  deriving DecidableEq, Repr

/-- A loaded stall. -/
structure Stall where
  /-- 04 R110: Table 04-6 -/
  state : StallSt := .loading
  /-- 04 R102: STALL_PKG, U32 -/
  pkgNo : Nat := 0
  /-- 08 R222: suspended, and since its resumption not every shed that it needs has been OPEN -/
  resuming : Bool := false
  /-- 04 R98: Table 04-2 -/
  desc : Descriptor := {}
  /-- 04 R101: grant of the load command -/
  grant : BitVec 64 := 0
  /-- 04 R100: DICTWIN map -/
  map : List MapItem := []
  /-- 23 R536: stall-defined entries -/
  decls : List Decl := []
  /-- 03 R51, 04 R118: live execution state, equal on every lane of the set (03 R89) -/
  exec : Exec := {}
  /-- 04 R104, R106: load or replacement in progress -/
  loading : Option Loading := none
  /-- 05 R138: holds an admission -/
  admitted : Bool := false
  /-- 05 R138: STALL_PHASE, U16 -/
  phase : Nat := 0
  /-- 05 R128: FIRST due in the next header -/
  first : Bool := true
  /-- 05 R128, R140: CONTINUED due in the next header -/
  continued : Bool := false
  /-- 05 R150: RETAIN_LOST due in the next header -/
  retainLost : Bool := false
  /-- 05 R141: SKIPPED due in the next header -/
  skipped : Bool := false
  /-- 05 R151: TIME_STEP due in the next header -/
  stepped : Bool := false
  /-- 05 R128: crossing of the previous activation -/
  lastActivation : Nat := 0
  /-- 06 R174: crossing in which its newest activation ended -/
  endedK : Nat := 0
  /-- 12 R332: train crossing in which the newest activation of a mirrored stall ended, and its K_tw digest -/
  ckTw : Option (Nat × Nat) := none
  /-- 05 R128, R149: T_k of the last retain commit, 0 never -/
  retainCommit : Nat := 0
  /-- 05 R132: outcomes waiting for the result area -/
  results : List Outcome1 := []
  /-- 07 R205: trigger entries waiting -/
  trigWait : List TrigEntry := []
  /-- 02 R48: DICTWIN slot 0 abort code, U32 -/
  dwAbort : Nat := 0
  /-- 02 R48: DICTWIN slot 0 refused writes, U32 -/
  dwCount : Nat := 0
  /-- 02 R43, R50: first slots of the items written in this activation, in order of first store -/
  dwOrder : List Nat := []
  /-- 02 R50: DICTWIN slots written in this activation, value U64 -/
  dwWrites : NMap Nat := []
  /-- 04 R108: context of an accepted UNLOAD -/
  unloadFor : Nat := 0xFFFF
  /-- 21 R508: UNLOAD deferred by re-stabling -/
  unloadWait : Bool := false
  /-- 04 R111: boundary at which RESTARTING began -/
  restartAt : Option Nat := none
  /-- 04 R117: faulted since the last boundary, automatic restart to be judged -/
  autoPending : Bool := false
  /-- 04 R107, R116, 05 R144: trigger actions and outcomes discarded -/
  discarded : Nat := 0
  /-- 05 R140: the previous activation ended in a fuel stop -/
  lastFuelStop : Bool := false
  /-- 12 R331: STALL_MIRROR, Table 12-7 -/
  mirrorSt : Nat := 0
  /-- 12 R334: start of a catch-up attempt -/
  catchStart : Option Nat := none
  /-- 07 R204: an ACTIVATE firing or notice asks for an activation -/
  dueWanted : Bool := false
  /-- 05 R130, R152: accumulation over the images adopted since the previous activation -/
  imgWin : ImgWin := {}
  /-- 04 R96: placement of CODE, DATA, STACK: 0 scratchpad, 1 lane SRAM, 2 LPDDR5 -/
  placed : List Nat := [0, 0, 0]
  /-- 02 R50: DICTWIN slot values of the adopted image, U64 each -/
  dwImage : NMap Nat := []
  /-- 05 R131: STALL_IMAP entries in use, 16 bytes each as a number -/
  imap : NMap Nat := []
  /-- 12 R332: items of the mirror record that a mirrored copy reads, by image map entry -/
  mirItems : NMap (List (BitVec 8)) := []
  /-- 12 R332: items of the record of this crossing -/
  mirNext : NMap (List (BitVec 8)) := []
  /-- 12 R332: outcomes of the record that the copy reads -/
  mirResults : List Outcome1 := []
  /-- 12 R332: trigger entries of that record -/
  mirTrigs : List TrigEntry := []
  /-- 12 R332: outcomes in the record of this crossing -/
  resNext : List Outcome1 := []
  /-- 12 R332: trigger entries in it -/
  trigNext : List TrigEntry := []
  /-- 05 R130: crossing from which adopted data counts as since the load or restart (NEVER) -/
  dataFrom : Nat := 0
  /-- 12 R331: the record of the previous crossing marks an activation due -/
  mirDue : Bool := false
  deriving DecidableEq, Repr

/-- An armed trigger or one with entries waiting (07 R200-R207). -/
structure Trigger where
  /-- 07 R201: generation, 22 bits -/
  gen : Nat := 0
  /-- 07 R209: TRIG_OWNER -/
  owner : Nat := 0
  /-- 07 R200: the 32-byte request, Table 07-4, as a little-endian number (TRIG_REQUEST) -/
  req : Nat := 0
  /-- 07 R203: still to be evaluated -/
  armed : Bool := true
  /-- 07 R203, R209: TRIG_NEXT: ns or mm -/
  next : Int := 0
  /-- 07 R209: TRIG_FIRINGS, U32 -/
  firings : Nat := 0
  /-- 07 R202: a LENIENT arm that had passed -/
  late : Bool := false
  /-- 07 R203, R204: TIMED_DO carried in an output command -/
  carried : Bool := false
  /-- 07 R204: the carried action is not carried out -/
  supp : Bool := false
  deriving DecidableEq, Repr

/-- An item of an input image (05 R121, R125, R130). -/
structure Item where
  /-- 05 Table 05-8: item kind -/
  kind : Nat := 0
  /-- 05 Table 05-8: source -/
  source : Nat := 0
  /-- 05 R125: sequence number -/
  seq : Nat := 0
  /-- 05 R130: hub arrival stamp, TIME64 -/
  stamp : Nat := 0
  /-- 09 R251: came with FORCE -/
  forced : Bool := false
  /-- 08 R224: consist port by which it arrived, 0xFF none -/
  port : Nat := 0xFF
  /-- 05 R121: content -/
  data : List (BitVec 8) := []
  deriving DecidableEq, Repr

/-- Last adopted data of a source (merge state, 05 R125, R126). -/
structure Adopted where
  /-- 05 R126: last adopted copy -/
  item : Item := {}
  /-- 05 R126: crossing of adoption (age) -/
  k : Nat := 0
  /-- 10 R282: HELD -/
  held : Bool := false
  deriving DecidableEq, Repr

/-- One digital input in a field sample (05 R121). -/
structure DiSamp where
  /-- 05 R152: level at the sample -/
  value : Bool := false
  /-- 05 R121: a rising edge since the previous sample -/
  rise : Bool := false
  /-- 05 R121: a falling edge since the previous sample -/
  fall : Bool := false
  /-- 05 R152: edges since start-up -/
  edges : Nat := 0
  /-- 05 R152: stamp of the last edge -/
  last : Nat := 0
  /-- 14 R361, R362: fault bits -/
  fault : Nat := 0
  deriving DecidableEq, Repr

/-- One digital output in a field sample (14 R374). -/
structure DoSamp where
  /-- 14 R374: state driven -/
  applied : Bool := false
  /-- 14 R366: fault bits -/
  fault : Nat := 0
  /-- 14 R374: mA -/
  current : Nat := 0
  /-- 14 R367: readback level -/
  level : Bool := false
  /-- 14 R367: cut-off closed -/
  cutoff : Bool := false
  /-- 14 R367: driven at its programmed safe state -/
  safe : Bool := false
  deriving DecidableEq, Repr

/-- Table 16-3 values of a field sample. -/
structure AiItem where
  /-- 16 R413: output instant -/
  instant : Nat := 0
  /-- 16 R413: raw -/
  raw : Int := 0
  /-- 16 R413: peak high -/
  hi : Int := 0
  /-- 16 R413: peak low -/
  lo : Int := 0
  /-- 16 R413: RMS -/
  rms : Nat := 0
  /-- 16 R413: envelope -/
  env : Nat := 0
  /-- 16 R413: status -/
  status : Nat := 0x0100
  /-- 16 R413: samples -/
  samples : Nat := 0
  deriving DecidableEq, Repr

/-- One tacho channel in a field sample (07 R195). -/
structure TachoSamp where
  /-- 07 R193: count -/
  count : Int := 0
  /-- 07 R195: speed, mm/s -/
  v : Int := 0
  /-- 07 R196: stamp of the last edge -/
  lastEdge : Nat := 0
  /-- 07 R193: fault bits -/
  fault : Nat := 0
  /-- 07 R195: standstill -/
  still : Bool := true
  deriving DecidableEq, Repr

/-- One evaluator instance in a field sample (15 R394). -/
structure SafSamp where
  /-- 15 R394: state -/
  state : Nat := 0
  /-- 15 R394: cause -/
  cause : Nat := 0
  /-- 15 R394: type -/
  ty : Nat := 0
  /-- 15 R394: flags -/
  perm : Nat := 0
  /-- 15 R394: levels, U16 -/
  levels : Nat := 0
  /-- 15 R394: safety outputs on, U16 -/
  outs : Nat := 0
  /-- 15 R394: last change, TIME64 -/
  last : Nat := 0
  deriving DecidableEq, Repr

/-- A field die's sample (05 R120, R121). -/
structure Sample where
  /-- 05 R125: field sequence number -/
  seq : Nat := 0
  /-- 05 R120: sample instant, TIME64 -/
  at_ : Nat := 0
  /-- 05 R121: 32 inputs -/
  di : List DiSamp := []
  /-- 14 R374: 16 outputs -/
  outs : List DoSamp := []
  /-- 16 R413: 8 analog channels -/
  ai : List AiItem := []
  /-- 07 R195: 2 tacho channels -/
  tacho : List TachoSamp := []
  /-- 15 R394: 32 instances -/
  saf : List SafSamp := []
  /-- 08 R213: temperature, 0.1 C -/
  temp : Int := 0
  /-- 14 R369: SILENT -/
  silent : Bool := false
  /-- 14 R367: sequence number of the output command applied -/
  cmdSeq : Nat := 0
  /-- 05 R126, R130: crossing of its adoption -/
  k : Option Nat := none
  deriving DecidableEq, Repr

/-- A hub's closed image (05 R121). -/
structure HubImage where
  /-- 05 R121: crossing it belongs to -/
  k : Nat := 0
  /-- 07 R190: T_k of the close marker -/
  tk : Nat := 0
  /-- 05 R121: items in arrival order -/
  items : List Item := []
  /-- 08 R213: hub power reading, mW -/
  power : Nat := 0
  /-- 08 R213: hub temperature, 0.1 C -/
  temp : Int := 0
  /-- 06 R161: image digest under K_in, 128 bits -/
  digest : Nat := 0
  /-- 05 R121: field samples received from FX, FY -/
  samples : Vector (Option Sample) 2 := Vector.replicate 2 none
  /-- 22 R527: input voltage reading, mV -/
  vin : Nat := 0
  /-- 06 R170: highest numbers and tags that the hub's voter has released, by the key of their counter -/
  released : NMap Nat := []
  /-- 07 R190: step that the hub's time base applied at T_k -/
  step : Int := 0
  /-- 10 R272: crossing length that the hub counts from T_k on, where it changes -/
  cDue : Option Nat := none
  /-- 05 R121: an image is closed and not yet judged -/
  closed : Bool := false
  deriving DecidableEq, Repr

/-- Agreed header values of the adopted image (Table 05-5). -/
structure HeadVals where
  /-- 05 R128: crossing number -/
  k : Nat := 0
  /-- 05 R128: T_k -/
  tk : Nat := 0
  /-- 05 R129: lane temperature, 0.1 C -/
  temp : Int := 0
  /-- 05 R129: oscillator correction, ppb -/
  osc : Int := 0
  /-- 06 R155: lanes field -/
  lanes : Nat := 3
  /-- 01 R19, 08 R213: temperatures of HA and HB in the newest image used, 0.1 C -/
  hubTemp : Vector Int 2 := Vector.replicate 2 0
  /-- 01 R19, 22 R527: input voltage in it, mV -/
  vin : Nat := 0
  deriving DecidableEq, Repr

/-- An activation of a crossing, with what it reads (05 R122, R126). -/
structure Queued where
  /-- 05 R122: stall id -/
  stall : Nat := 0
  /-- 05 R122: crossing -/
  k : Nat := 0
  /-- 05 R122: its T_k -/
  tk : Nat := 0
  /-- 05 R127: the stall's IMAGE of the adopted image, by address -/
  image : Mem := []
  /-- 02 R50: its DICTWIN slot values -/
  dw : NMap Nat := []
  deriving DecidableEq, Repr

/-- Activations of one core index (05 R122). -/
structure CoreRun where
  /-- 05 R122: stall running -/
  run : Option Nat := none
  /-- 05 R122: activations still to be activated in this crossing, in activation order -/
  queue : List Queued := []
  /-- 05 R139: fuel granted to the running activation -/
  start : Nat := 0
  /-- 05 R122: T_k of the crossing of the running activation -/
  tk : Nat := 0
  /-- 05 R122: crossing of the running activation -/
  kRun : Nat := 0
  deriving DecidableEq, Repr

/-- Crossing, modes, image. -/
structure Cycle where
  /-- 05 R119: crossing number -/
  k : Nat := 0
  /-- 05 R119, 07 R188: T_k, ns -/
  tk : Nat := 1000000000
  /-- 05 R119: crossing length C, ns (125 us x n) -/
  c : Nat := 1000000
  /-- 20 R489: crossings are executed (crossing 0 has begun) -/
  running : Bool := false
  /-- 05 R123: lanes that reported timing lag in this crossing -/
  lagLanes : List Nat := []
  /-- 05 R121: arrivals of each hub for the next image -/
  hubOpen : Vector (List Item) 2 := Vector.replicate 2 []
  /-- 05 R121: closed image of each hub -/
  hubImg : Vector HubImage 2 := Vector.replicate 2 {}
  /-- 05 R128: header values of the adopted image -/
  head : HeadVals := {}
  /-- 06 R162: crossing whose image has been adopted -/
  agreedK : Option Nat := none
  /-- 06 R174: crossing whose checkpoint digests have been agreed -/
  endDone : Option Nat := none
  /-- 05 R125: copies discarded by the merge, per plane or hub -/
  discards : Vector Nat 2 := Vector.replicate 2 0
  /-- 06 R180: crossing from which crossings are not executed (mismatch restart) -/
  skipFrom : Option Nat := none
  /-- 07 R206: step that the last boundary applied to train time, ns -/
  lastStep : Int := 0
  /-- 05 R122: activation queue of each core -/
  runs : Vector CoreRun 16 := Vector.replicate 16 {}
  deriving DecidableEq, Repr

/-- A force (05 R145-R147). -/
structure Force where
  /-- 05 R147: 0/1, or the binary64 bits -/
  value : Nat := 0
  /-- 05 R147: train time of expiry -/
  expires : Nat := 0
  deriving DecidableEq, Repr

/-- Last accepted value of a DO channel (05 R136). -/
structure DoCmd where
  /-- 05 R136: commanding stall -/
  stall : Nat := 0
  /-- 05 R136: value -/
  on : Bool := false
  /-- 05 R136: crossing of the command -/
  k : Nat := 0
  deriving DecidableEq, Repr

/-- A TIMED_DO action carried to a field die (07 R204). -/
structure TimedDo where
  /-- 07 R204: DO channel -/
  channel : Nat := 0
  /-- 07 R204: value -/
  on : Bool := false
  /-- 07 R204: instant -/
  at_ : Nat := 0
  /-- 07 R204: trigger index -/
  trig : Nat := 0
  deriving DecidableEq, Repr

/-- A copy of one output word held by a voter (06 R164-R166). -/
structure Copy where
  /-- 06 R165: lane -/
  lane : Nat := 0
  /-- 06 R164: payload -/
  payload : BitVec 64 := 0
  /-- 06 R164: tag -/
  tag : BitVec 64 := 0
  deriving DecidableEq, Repr

/-- A word position of a voter (06 R165). -/
structure WordPos where
  /-- 06 R165: instant of the first copy -/
  opened : Nat := 0
  /-- 06 R165: copies in arrival order -/
  copies : List Copy := []
  /-- 06 R165: the value that met the release condition -/
  matched : Option Copy := none
  /-- 06 R165: released -/
  released : Bool := false
  /-- 06 R165: window closed -/
  closed : Bool := false
  /-- 06 R164: the item that holds the word: crossing bits and stream position -/
  item : Nat := 0
  deriving DecidableEq, Repr

/-- An item being voted (06 R164, R167). -/
structure OutItem where
  /-- 06 R167: telegram identifier, command sequence or tag -/
  ident : Nat := 0
  /-- 06 R164: item kind -/
  kind : Nat := 0
  /-- 06 R181: issuing stall, 0xFFFF the supervisor -/
  stall : Nat := 0xFFFF
  /-- 06 R167: release deadline -/
  deadline : Option Nat := none
  /-- 06 R168: replaced by its held copy -/
  stale : Bool := false
  /-- 06 R168: released whole -/
  whole : Bool := false
  /-- 06 R170: sequence number -/
  seq : Nat := 0
  /-- 06 R170: tag of the posted request -/
  tag : Nat := 0
  /-- 06 R164: content -/
  data : List (BitVec 8) := []
  /-- 12 R313: item number in the crossing -/
  num : Nat := 0
  /-- 12 R327: a single-actor item -/
  single : Bool := false
  /-- 12 R333: produced by a mirrored stall -/
  mirrored : Bool := false
  deriving DecidableEq, Repr

/-- Egress voter of one hub (06 R164-R171). -/
structure Voter where
  /-- 06 R171, R184: VOTER_STATE bit -/
  inService : Bool := true
  /-- 06 R167: last released data per (kind, identifier) -/
  held : NMap OutItem := []
  /-- 06 R169: start of an unbroken hold per (kind, identifier) -/
  holdSince : NMap Nat := []
  /-- 06 R179: output hold after a mismatch -/
  outputHold : Bool := false
  /-- 06 R169: sends safe-state commands -/
  safeCmd : Bool := false
  /-- 06 R171: words that met the release condition, for the release digest -/
  matchedLog : List Copy := []
  /-- 06 R167: last released command sequence number -/
  lastCmd : Nat := 0
  /-- 06 R165, R166: word positions of the crossing, keyed by crossing[15:0] and index -/
  words : NMap WordPos := []
  /-- 06 R167, R168: items of the crossing in the voter, by stream position -/
  items : NMap OutItem := []
  /-- 06 R170: highest numbers and tags released, by the key of their counter -/
  relSeq : NMap Nat := []
  /-- 06 R177: copies of a lane in SHADOW that came before their word's window opened, by word key -/
  early : NMap Copy := []
  /-- 06 R171: failed by the lanes, out of service from the next boundary -/
  failDue : Bool := false
  deriving DecidableEq, Repr

/-- A re-stabling attempt (06 R175-R178). -/
structure Attempt where
  /-- 06 R185: 1 reset 2 bulk 3 converge 4 join 5 shadow -/
  phase : Nat := 1
  /-- 06 R185: attempt number -/
  number : Nat := 1
  /-- 06 R178: instant from which RESTABLE_LIMIT counts -/
  start : Option Nat := none
  /-- 06 R185: start of bulk, for the duration of event 0x2062 -/
  began : Nat := 0
  /-- 06 R177: bytes of the granules dirtied in the previous crossing -/
  dirty : Nat := 0
  /-- 06 R175: state source lane -/
  source : Nat := 0
  /-- 06 R175: code source lane -/
  codeSource : Nat := 0
  /-- 06 R175, R177: end of the dirty pass being sent -/
  passEnd : Nat := 0
  /-- 06 R177: the granules dirtied during bulk have been sent -/
  passed : Bool := false
  /-- 06 R184: bytes sent in the attempt's finished transfers (RESTABLE_PROGRESS) -/
  sent : Nat := 0
  /-- 06 R175: bytes of checkpointed and supervisor state that bulk sends -/
  state : Nat := 0
  /-- 06 R175: bytes of CODE that bulk sends -/
  code : Nat := 0
  /-- 06 R175: bulk has begun -/
  bulk : Bool := false
  deriving DecidableEq, Repr

/-- A lane die. -/
structure Lane where
  /-- 06 R156: Table 06-1 -/
  state : LaneSt := .inSet
  /-- 06 R184: LANE_FAULT_CAUSE -/
  cause : Nat := 0
  /-- 06 R158: holds K_in and K_ck -/
  keys : Bool := true
  /-- 07 R192: oscillator correction, ppb -/
  osc : Int := 0
  /-- 08 R213: temperature, 0.1 C -/
  temp : Int := 0
  /-- 06 R162, 20 R485: stopped executing (awaits reset) -/
  halted : Bool := false
  /-- 06 R157: reset to be commanded at the next boundary -/
  resetDue : Bool := false
  /-- 06 R175: reset under way -/
  resetting : Bool := false
  /-- 06 R179: rollback restart under way -/
  rollback : Bool := false
  /-- 06 R175: re-stabling attempt -/
  attempt : Option Attempt := none
  /-- 06 R178: time of the next attempt -/
  retryAt : Option Nat := none
  deriving DecidableEq, Repr

/-- A DAP response decided and leaving as a voted output (02 R41, R43). -/
structure Resp where
  /-- 02 R35: context key -/
  ctx : Nat := 0
  /-- 02 R41: request id -/
  reqId : Nat := 0
  /-- 02 R40: operation -/
  op : Nat := 1
  /-- 02 R41: index -/
  index : Nat := 0
  /-- 02 R41: sub-index -/
  sub : Nat := 0
  /-- 02 R46: abort code, 0 success -/
  code : Nat := 0
  /-- 02 R42: crossing in which it was decided -/
  k : Nat := 0
  /-- 02 R40: entry length field of the request, echoed for READ and WRITE -/
  elen : Nat := 0
  /-- 08 R224: port of a CLOSING shed by which the request came, and by which alone the answer leaves -/
  via : Option Nat := none
  /-- 02 R40: payload -/
  data : List (BitVec 8) := []
  deriving DecidableEq, Repr

/-- One receiving end of an internal link (01 R12, R13). -/
structure ILink where
  /-- 01 R13: last accepted sequence number -/
  lastSeq : Nat := 0
  /-- 01 R13: discarded transfers -/
  discards : Nat := 0
  /-- 01 R13: consecutive crossings with a discarded transfer -/
  badRun : Nat := 0
  /-- 01 R13: a transfer was discarded in this crossing -/
  badNow : Bool := false
  /-- 01 R13: declared failed -/
  failed : Bool := false
  /-- 01 R13: time of the last transfer -/
  lastHeard : Nat := 0
  /-- 01 R13: sequence numbers accepted, newest first -/
  seen : List Nat := []
  /-- 01 R13: a transfer was accepted in this crossing -/
  okNow : Bool := false
  /-- 01 R13: the crossing before had an accepted transfer and no discard -/
  clean : Bool := false
  deriving DecidableEq, Repr

/-- Table 17-1 event record. -/
structure Record where
  /-- 17 R417: TIME64 -/
  stamp : Nat := 0
  /-- 17 R421: operating seconds -/
  opS : Nat := 0
  /-- 17 R421: power-cycle count -/
  pwr : Nat := 0
  /-- 17 R418: source number -/
  source : Nat := 0
  /-- 17 R417: code -/
  code : Nat := 0
  /-- 17 R417: severity 0-4 -/
  sev : Nat := 0
  /-- 17 R417: POWER_FAIL 8 CLEAR 4 SUMMARY 2 ONE_HUB 1 -/
  flags : Nat := 0
  /-- 17 R417: stall id -/
  stall : Nat := 0xFFFF
  /-- 17 R417: 36 data bytes -/
  data : List (BitVec 8) := []
  deriving DecidableEq, Repr

/-- An occupied journal slot (17 R426). -/
structure JSlot where
  /-- 17 R426: the record -/
  rec_ : Record := {}
  /-- 17 R426: entry number -/
  entry : Nat := 0
  /-- 17 R426: migration mark -/
  migrated : Bool := false
  /-- 17 R428: a torn word or failed CRC -/
  poisoned : Bool := false
  deriving DecidableEq, Repr

/-- A hub's MRAM journal. -/
structure Journal where
  /-- 17 R426: occupied slots 0-1048575 -/
  slots : NMap JSlot := []
  /-- 17 R426: next entry number -/
  nextEntry : Nat := 1
  /-- 17 R429: declared failed -/
  failed : Bool := false
  deriving DecidableEq, Repr

/-- One copy of a stall's retained data (05 R148). -/
structure RetainCopy where
  /-- 05 R148: retain format tag -/
  tag : Nat := 0
  /-- 05 R148: RETAIN size -/
  retainSize : Nat := 0
  /-- 05 R148: MIRROR size -/
  mirrorSize : Nat := 0
  /-- 05 R148: commit sequence, 64 bits -/
  seq : Nat := 0
  /-- 05 R148: commit crossing's T_k -/
  tk : Nat := 0
  /-- 05 R148: RETAIN and MIRROR bytes -/
  data : Mem := []
  /-- 05 R148: CRC holds -/
  valid : Bool := true
  deriving DecidableEq, Repr

/-- The two copies written alternately (05 R148). -/
structure RetainCopies where
  /-- 05 R148: first copy -/
  a : Option RetainCopy := none
  /-- 05 R148: second copy -/
  b : Option RetainCopy := none
  deriving DecidableEq, Repr

/-- A learned address (11 R289). -/
structure MacEntry where
  /-- 11 R289: MAC -/
  mac : Nat := 0
  /-- 11 R289: port -/
  port : Nat := 0
  /-- 11 R289: last seen -/
  at_ : Nat := 0
  deriving DecidableEq, Repr

/-- A hub die. -/
structure HubDie where
  /-- 01 R23: failed -/
  failed : Bool := false
  /-- 20 R495: in HUB_RESTART -/
  restarting : Bool := false
  /-- 20 R496: instant of the restart -/
  restarted : Nat := 0
  /-- 20 R495: S1 to S3 and the voter tests of the restart have completed -/
  ready : Bool := false
  /-- 20 R501: restart cause -/
  cause : Nat := 0
  /-- 07 R187: Table 07-1 -/
  timeState : Nat := 0
  /-- 07 R189: step to be applied at the next boundary -/
  stepDue : Option Int := none
  /-- 07 R192: oscillator correction, ppb -/
  corr : Int := 0
  /-- 07 R192: the required correction is out of range: the hub cannot land -/
  oscBad : Bool := false
  /-- 08 R213: temperature, 0.1 C -/
  temp : Int := 0
  /-- 08 R213: power reading, mW -/
  power : Nat := 0
  /-- 06 R164: egress voter -/
  voter : Voter := {}
  /-- 17 R424: recorder buffer, oldest first -/
  buffer : List Record := []
  /-- 17 R420: records on their way to this hub -/
  inflight : List Record := []
  /-- 17 R426: MRAM journal -/
  journal : Journal := {}
  /-- 17 R425: clean-stop mark -/
  cleanStop : Bool := true
  /-- 17 R421: stored operating seconds -/
  opSeconds : Nat := 0
  /-- 17 R421: stored power-cycle count -/
  powerCycles : Nat := 0
  /-- 05 R148: retain store: two copies per stall -/
  retain : NMap RetainCopies := []
  /-- 11 R289: learned source addresses -/
  macs : List MacEntry := []
  /-- 20 R483: instant of the last watchdog -/
  watchdogAt : Option Nat := none
  /-- 07 R186: T_k of the hub's own last boundary, ns -/
  time : Nat := 1000000000
  /-- 05 R121: newest field sample received from FX, FY -/
  sample : Vector (Option Sample) 2 := Vector.replicate 2 none
  /-- 06 R161: items lost with an image of this hub that was not used -/
  imgLost : Nat := 0
  deriving DecidableEq, Repr

/-- A suppression run (17 R423). -/
structure SuppRun where
  /-- 17 R423: start -/
  began : Nat := 0
  /-- 17 R423: suppressed -/
  count : Nat := 0
  /-- 17 R442: first suppressed -/
  first : Nat := 0
  /-- 17 R442: last suppressed -/
  last : Nat := 0
  /-- 17 R423: highest severity suppressed -/
  sev : Nat := 0
  deriving DecidableEq, Repr

/-- A token bucket (17 R422, R423). -/
structure Bucket where
  /-- 17 R422: units of 1/1000 token -/
  tokens : Nat := 20000
  /-- 17 R422: time of the last refill -/
  at_ : Nat := 0
  /-- 17 R423: suppression run -/
  run : Option SuppRun := none
  deriving DecidableEq, Repr

/-- A storage link's yard (17 R435-R440). -/
structure Yard where
  /-- 17 R439: Table 17-5 -/
  state : Nat := 0
  /-- 17 R439: PCIe link trained and controller present -/
  linkUp : Bool := false
  /-- 17 R435: format id -/
  format : Nat := 0
  /-- 17 R435: serial in the header -/
  serial : Nat := 0
  /-- 17 R436: header sequence -/
  headerSeq : Nat := 0
  /-- 17 R435: next page -/
  writePage : Nat := 0
  /-- 17 R435: wraps -/
  wraps : Nat := 0
  /-- 17 R435: SHARED -/
  shared : Bool := false
  /-- 17 R435: page sequence -/
  pageSeq : Nat := 0
  /-- 17 R435: records per page -/
  pages : NMap (List Record) := []
  /-- 17 R436: time of the last header write -/
  lastHeader : Nat := 0
  /-- 17 R437: entry numbers of the records of the page write under way -/
  inPage : List Nat := []
  /-- 17 R439: consecutive command errors -/
  errors : Nat := 0
  /-- 17 R438: unmigrated records replaced since the yard was last ACTIVE -/
  lost : Nat := 0
  /-- 17 R436: a valid header exists -/
  headerWritten : Bool := false
  deriving DecidableEq, Repr

/-- Recorder. -/
structure Recorder where
  /-- 17 R422: token bucket per (die, source, code) -/
  buckets : NMap Bucket := []
  /-- 17 R431: freezing context and instant -/
  freeze : Option (Nat × Nat) := none
  /-- 17 R431: instant the last freeze ended -/
  freezeEnded : Option Nat := none
  /-- 17 R433: clear point and context of the sweep in progress -/
  clearPoint : Option (Nat × Nat) := none
  /-- 17 R421: operating seconds in force -/
  seconds : Nat := 0
  /-- 17 R421: power-cycle count in force -/
  cycles : Nat := 0
  /-- 17 R435: yards of storage links 1, 2 -/
  yards : Vector Yard 2 := Vector.replicate 2 {}
  /-- 17 R421: operating seconds last stored -/
  lastStored : Nat := 0
  deriving DecidableEq, Repr

/-- Agreed state of a tacho channel (07 R196-R198). -/
structure TachoImg where
  /-- 07 R198: not excluded -/
  healthy : Bool := true
  /-- 07 R198: count at the adopted image -/
  count : Int := 0
  /-- 07 R196: count at the datum -/
  datumCount : Int := 0
  /-- 07 R195: speed, mm/s -/
  v : Int := 0
  /-- 07 R196: last edge, TIME64 -/
  lastEdge : Nat := 0
  /-- 07 R193: fault bits -/
  fault : Nat := 0
  /-- 07 R195: standstill -/
  still : Bool := true
  /-- 20 R498: first image after a restart counts a difference of 0 -/
  restart : Bool := true
  deriving DecidableEq, Repr

/-- Distance base and time of the module. -/
structure TimePos where
  /-- 07 R191: TIME_UTC_OFFSET, I64 -/
  utcOffset : Int := 0
  /-- 07 R191: TIME_UTC_VALID -/
  utcValid : Bool := false
  /-- 07 R197: distance base, nm -/
  base : Int := 0
  /-- 07 R197: E_k, nm -/
  e : Int := 0
  /-- 07 R197: E_(k-1), nm -/
  ePrev : Int := 0
  /-- 07 R198: T_k of the image last fused -/
  tkPrev : Nat := 0
  /-- 07 R199, R203: T_k and E_k of the images fused, newest first -/
  track : List (Nat × Int) := []
  /-- 07 R198: fused speed, mm/s -/
  vFused : Int := 0
  /-- 07 R198: POS_QUALITY -/
  quality : Nat := 0
  /-- 09 R254: reference speed and crossing of its adoption -/
  refV : Option (Int × Nat) := none
  /-- 07 R199: POS_DATUM_NUMBER -/
  datumNumber : Nat := 0
  /-- 09 R255: datum instant announced, waiting for its boundary -/
  datumInstant : Option Nat := none
  /-- 07 R199: datum instant whose boundary has come, for the image of this crossing -/
  datumDue : Option Nat := none
  /-- 07 R191: offset to be applied at the next boundary -/
  utcDue : Option Int := none
  /-- 07 R199: position written by POS_DATUM_SET, with context -/
  datumWrite : Option (Int × Nat) := none
  /-- 09 R255: last datum instant applied -/
  lastDatum : Option Nat := none
  /-- 07 R197, R198: agreed tacho values of TAX0, TAX1, TAY0, TAY1 -/
  tacho : Vector TachoImg 4 := Vector.replicate 4 {}
  deriving DecidableEq, Repr

/-- A tacho channel. -/
structure Tacho where
  /-- 07 R193: phase A level -/
  a : Bool := false
  /-- 07 R193: phase B level -/
  b : Bool := false
  /-- 07 R193: signed 64-bit count -/
  count : Int := 0
  /-- 07 R193: count added by the last transition -/
  lastDelta : Int := 0
  /-- 07 R195: edges of the last standstill window: stamp and count -/
  edges : List (Nat × Int) := []
  /-- 07 R196: stamp of the last edge, 0 none -/
  lastEdge : Nat := 0
  /-- 07 R193: stamp of the edge before it -/
  prevEdge : Nat := 0
  /-- 07 R196: its translated stamp, TIME64 -/
  lastT : Nat := 0
  /-- 14 R372: instant of the last A transition -/
  lastA : Nat := 0
  /-- 14 R372: instant of the last B transition -/
  lastB : Nat := 0
  /-- 07 R193: fault bit set until -/
  faultUntil : Option Nat := none
  /-- 05 R121: count at the newest field sample -/
  sampleCount : Int := 0
  /-- 07 R195: speed at the newest field sample, mm/s -/
  sampleV : Int := 0
  /-- 07 R195: at standstill -/
  still : Bool := true
  deriving DecidableEq, Repr

/-- A shed (08 R222-R224). -/
structure Shed where
  /-- 08 R222: 0 OPEN 1 CLOSING 2 CLOSED 3 OPENING -/
  state : Nat := 0
  /-- 08 R222: boundary at which the state was entered -/
  since : Nat := 0
  /-- 08 R222: became needed while CLOSING -/
  neededAgain : Bool := false
  deriving DecidableEq, Repr

/-- Energy manager and sheds. -/
structure Energy where
  /-- 08 R211: 1 LINE 2 BATTERY 3 STABLING -/
  supplyMode : Nat := 1
  /-- 08 R211: mode commanded and its context number, effective at the boundary after -/
  supplyDue : Option (Nat × Nat) := none
  /-- 08 R211: mode applied before the present boundary, effective at its step 6 -/
  supplyNow : Option (Nat × Nat) := none
  /-- 08 R215: ENERGY_LEVEL 0-8 in force for the next crossing -/
  level : Nat := 0
  /-- 08 R217: level in force for the current crossing -/
  levelCur : Nat := 0
  /-- 08 R213: p of the 32 most recent images, newest first -/
  powers : List Nat := []
  /-- 08 R213: highest temperature -/
  theta : Int := 0
  /-- 08 R219: start of level 8 with P_avg above budget -/
  overSince : Option Nat := none
  /-- 08 R219: event 0x1033 recorded -/
  overDone : Bool := false
  /-- 08 R220: sheds 0-11 -/
  sheds : Vector Shed 12 := Vector.replicate 12 {}
  deriving DecidableEq, Repr

/-- A backbone link (09 R227-R233, 10 R265). -/
structure BLink where
  /-- 09 R230: LINK_STATE 0 DOWN 1 ALIGNED 2 UP -/
  state : Nat := 0
  /-- 09 R229: consecutive consistent markers -/
  good : Nat := 0
  /-- 09 R229: consecutive missing or inconsistent markers -/
  bad : Nat := 0
  /-- 09 R229: last marker count, 16 bits -/
  marker : Nat := 0
  /-- 09 R230: crossing of the last valid bell or frame from the peer -/
  lastPeer : Nat := 0
  /-- 10 R265: count and send instant (ps) of the probe awaiting its echo -/
  probeSent : Option (Nat × Nat) := none
  /-- 10 R265: probe count, 16 bits -/
  probeCount : Nat := 0
  /-- 10 R265: last 16 valid delay samples, ps, newest first -/
  samples : List Nat := []
  /-- 10 R265: crossing of the last valid sample -/
  lastSample : Nat := 0
  /-- 10 R265: the link has no delay -/
  noDelay : Bool := true
  /-- 10 R279: an edge to a foreign segment -/
  edge : Bool := false
  /-- 10 R279: what the edge learned -/
  foreign : Option Foreign := none
  /-- 22 R515: LOS -/
  los : Bool := false
  /-- 10 R265: crossing of the last probe sent -/
  probeAt : Option Nat := none
  /-- 10 R265: event 0x3016 recorded since the last valid sample -/
  delayLost : Bool := false
  /-- 10 R279: at an edge: bell time minus own reading at arrival, ps, of the foreign segment's last bell -/
  fBell : Option Int := none
  /-- 10 R281: an edge of the keeping half that opens at the next boundary -/
  opens : Bool := false
  deriving DecidableEq, Repr

/-- Table 09-7 slot plan entry. -/
structure PlanEntry where
  /-- 09 R242: slot number -/
  slot : Nat := 0
  /-- 09 R242: owner node -/
  node : Nat := 0
  /-- 09 R242: owner stall -/
  stall : Nat := 0xFFFF
  /-- 09 R242: exponent -/
  period : Nat := 0
  /-- 09 R242: phase -/
  phase : Nat := 0
  /-- 09 R242: identifier -/
  ident : Nat := 0
  /-- 09 R242: plan units -/
  offset : Nat := 16
  /-- 09 R242: frame length -/
  len : Nat := 64
  /-- 09 R242: destination -/
  dest : Nat := 0
  /-- 09 R242: MIRROR -/
  mirror : Bool := false
  deriving DecidableEq, Repr

/-- Table 09-6 slot plan. -/
structure Plan where
  /-- 09 R242: plan number, 0 none -/
  number : Nat := 0
  /-- 09 R242: crossing length -/
  n : Nat := 8
  /-- 09 R242: vehicles -/
  vehicles : Nat := 0
  /-- 09 R242: nodes -/
  nodes : Nat := 0
  /-- 09 R242: speed reference publisher -/
  speedRef : Nat := 0
  /-- 09 R245: loft package it came from -/
  pkgNo : Nat := 0
  /-- 09 R242: entries -/
  entries : List PlanEntry := []
  deriving DecidableEq, Repr

/-- One plane at one hub (10). -/
structure Plane where
  /-- 10 R263: node state, Table 10-1 -/
  node : Nat := 0
  /-- 10 R261: W_aft, ps -/
  wAft : Int := 0
  /-- 10 R261: W_fore, ps -/
  wFore : Int := 0
  /-- 10 R271: phase error, ps -/
  phaseErr : Int := 0
  /-- 10 R271: consecutive accepted bells with |e| above 200 ns -/
  errRun : Nat := 0
  /-- 07 R187: crossings without an accepted bell -/
  missed : Nat := 0
  /-- 10 R275: bell accepted in this crossing -/
  bellOk : Bool := false
  /-- 10 R275: outward chain received in this crossing -/
  chainOk : Bool := false
  /-- 10 R275: roster received in this crossing -/
  rosterOk : Bool := false
  /-- 10 R275: a start block outside the planned windows in this crossing -/
  unplanned : Bool := false
  /-- 10 R272: first link ALIGNED -/
  listenSince : Option Nat := none
  /-- 10 R260: BB_ORIENT_REVERSED -/
  reversed : Bool := false
  /-- 10 R275: link that faces the ferryman (0 fore 1 aft) -/
  facing : Nat := 0
  /-- 09 R246: telegrams released and not yet sent, by identifier -/
  released : NMap OutItem := []
  /-- 09 R241: previously named key -/
  keyPrev : Option Nat := none
  /-- 09 R241: key named by the last bell -/
  keyCur : Nat := 0
  /-- 09 R241: crossing of the key change -/
  keyChanged : Nat := 0
  /-- 09 R241: key number whose absence event 0x3006 has recorded -/
  keyReported : Option Nat := none
  /-- 09 R235, 10 R272: plan number that this hub checks bells against -/
  planNo : Nat := 0
  /-- 10 R272: crossing number taken from a first bell, until the next boundary -/
  takenX : Option Nat := none
  /-- 10 R266: crossing in which it first received an outward chain -/
  chainAt : Option Nat := none
  /-- 10 R266: nodes from the ferryman -/
  hops : Nat := 0
  /-- 09 R250: due slots with their outcome (1 received 2 missed 3 sent here), keyed by train crossing x 4096 + slot -/
  slotSeen : NMap Nat := []
  /-- 10 R274: records of the last inward chain that travelled aft, from the fore end -/
  foreUnits : List UnitRec := []
  /-- 10 R274: records of the last inward chain that travelled fore, from the aft end -/
  aftUnits : List UnitRec := []
  /-- 10 R274: W_aft of the fore end, as reported -/
  endAft : Int := 0
  /-- 10 R274: W_fore of the aft end, as reported -/
  endFore : Int := 0
  /-- 10 R274: anchor shifts aft and fore of the announced roster, in ps, for this plane -/
  shift : Int × Int := (0, 0)
  /-- 10 R269: crossing in which the roster was last sent -/
  rosterAt : Option Nat := none
  /-- 10 R266: COLD of the bell last accepted -/
  bellCold : Bool := false
  /-- 10 R266: MERGE of the bell last accepted -/
  bellMerge : Bool := false
  /-- 10 R281: the hub of a joining half takes plan and crossing numbers from the first bell after the yield -/
  joins : Bool := false
  deriving DecidableEq, Repr

/-- Backbone. -/
structure Backbone where
  /-- 09 R227: A fore, A aft, B fore, B aft -/
  links : Vector BLink 4 := Vector.replicate 4 {}
  /-- 10 R259: planes A, B -/
  planes : Vector Plane 2 := Vector.replicate 2 {}
  /-- 09 R241: BB_KEY slots, 256 bits -/
  keys : Vector (Option Nat) 4 := Vector.replicate 4 none
  /-- 09 R241: key number of the next bell when ferryman -/
  keyNamed : Nat := 0
  /-- 09 R245: configured plan -/
  configured : Option Plan := none
  /-- 10 R278: companion plans (at most 8) -/
  companions : List Plan := []
  /-- 10 R278: plan in force (number 0 none) -/
  inForce : Plan := {}
  /-- 10 R269: roster in force -/
  roster : Roster := {}
  /-- 10 R269: roster announced -/
  rosterNext : Option Roster := none
  /-- 10 R278: inauguration count -/
  inaug : Nat := 0
  /-- 10 R272: highest count seen since start-up -/
  inaugSeen : Nat := 0
  /-- 10 R285: BB_FERRYMAN -/
  ferryman : Nat := 0
  /-- 10 R273: its priority -/
  ferryPriority : Nat := 0
  /-- 10 R259: this module is ferryman -/
  isFerry : Bool := false
  /-- 10 R272: this module claims -/
  claiming : Bool := false
  /-- 10 R273: COLD bells sent in this claim -/
  coldSent : Nat := 0
  /-- 10 R270: COLD bells ever sent (MRAM) -/
  coldEver : Nat := 0
  /-- 10 R274: COLD set in bells -/
  coldFlag : Bool := false
  /-- 10 R280: MERGE set in bells -/
  mergeFlag : Bool := false
  /-- 10 R280: consecutive crossings with offset at most 40 ns -/
  mergeRun : Nat := 0
  /-- 10 R277: BB_NODE_ADDRESS -/
  address : Nat := 0
  /-- 10 R277: BB_VEHICLE_BASE -/
  vbase : Nat := 0
  /-- 10 R277: BB_UNIT_REVERSED -/
  unitReversed : Bool := false
  /-- 10 R276: BB_UNIT_REFUSAL -/
  refusal : Nat := 0
  /-- 10 R276: consecutive crossings of absence per unit id -/
  absent : NMap Nat := []
  /-- 10 R285: NODE_LAST_HEARD per node address -/
  lastHeard : NMap Nat := []
  /-- 09 R255: datum instant and DATUM slots still to carry it -/
  datumSlots : Option (Nat × Nat) := none
  /-- 09 R256: BB_UTC_SET written since start-up -/
  utcSet : Bool := false
  /-- 10 R279: serial number of the ferryman followed -/
  ferrySerial : Nat := 0
  /-- 10 R283: the claim is a running contention -/
  running : Bool := false
  /-- 10 R272, R283: inauguration count carried in the claim's bells -/
  claimInaug : Nat := 0
  /-- 10 R270: crossing in which a bell of the claim was last counted -/
  bellK : Option Nat := none
  /-- 10 R284: event 0x3011 with priority 0 recorded -/
  noFerry : Bool := false
  /-- 10 R272: crossing length taken, effective at the next boundary, ns -/
  cDue : Option Nat := none
  /-- 10 R272: the next boundary falls at a multiple of the crossing length -/
  alignDue : Bool := false
  /-- 10 R276: ids of the units in the inward chains of this crossing -/
  unitsFound : List Nat := []
  /-- 10 R276: units to be removed at the next roster change -/
  removals : List Nat := []
  /-- 10 R280: serial of the foreign ferryman whose claim has been compared -/
  judged : Option Nat := none
  /-- 10 R280: this module is the joining ferryman -/
  mergeJoin : Bool := false
  /-- 10 R280: MERGE is set from the next crossing -/
  mergeDue : Bool := false
  /-- 10 R280: remaining offset, ns -/
  mergeOffset : Int := 0
  /-- 10 R281: crossing Y of the joining half's last bells -/
  yieldK : Option Nat := none
  /-- 10 R281: orientation before the merge -/
  orientWas : Option Bool := none
  deriving DecidableEq, Repr

/-- A consist port (11 R287-R290). -/
structure Port where
  /-- 11 R287: block lock -/
  blockLock : Bool := false
  /-- 22 R515: LOS -/
  los : Bool := false
  deriving DecidableEq, Repr

/-- Replay window of one hub (11 R296). -/
structure Window1 where
  /-- 11 R296: h -/
  high : Nat := 0
  /-- 11 R296: accepted numbers from h-1023 to h -/
  seen : List Nat := []
  deriving DecidableEq, Repr

/-- Where a peer was last heard (11 R294). -/
structure Path where
  /-- 11 R294: MAC -/
  mac : Nat := 0
  /-- 11 R294: IPv4 -/
  ip : Nat := 0
  /-- 11 R294: UDP port -/
  udp : Nat := 0
  /-- 11 R294: VLAN -/
  vlan : Nat := 0
  /-- 11 R294: port -/
  port : Nat := 0
  /-- 11 R294: refreshed at -/
  at_ : Nat := 0
  deriving DecidableEq, Repr

/-- A secure session or the service-port session (11 R291-R306). -/
structure Session where
  /-- 11 R309: SESS_STATE 1 HANDSHAKE 2 OPEN 3 REKEYING -/
  state : Nat := 1
  /-- 11 R291: fingerprint, 128 bits -/
  fp : Nat := 0
  /-- 11 R299: CA slot -/
  anchor : Nat := 0
  /-- 11 R299: UNDATED -/
  undated : Bool := false
  /-- 11 R292: RESERVED -/
  reserved : Bool := false
  /-- 11 R294: path on network A -/
  pathA : Option Path := none
  /-- 11 R294: path on network B -/
  pathB : Option Path := none
  /-- 11 R309: SESS_OPENED -/
  opened : Nat := 0
  /-- 11 R301: phase used for sending -/
  phase : Nat := 0
  /-- 11 R298, R301: key material (PRK) per key phase held -/
  secrets : NMap Nat := []
  /-- 11 R301: instant the phase began -/
  phaseBegan : Nat := 0
  /-- 11 R301: records sealed under the phase -/
  sealedCount : Nat := 0
  /-- 11 R301, R302: module REKEY unanswered: instant, tries, secret -/
  rekeyMine : Option (Nat × Nat × Nat) := none
  /-- 11 R301: phase p+1 accepted -/
  rekeyAccept : Bool := false
  /-- 11 R301: instant at which the old phase's keys are erased -/
  oldUntil : Option Nat := none
  /-- 11 R295: last lane-series number -/
  txSeq : Nat := 0
  /-- 11 R295: last hub-series number -/
  hubSeq : Nat := 0x8000000000000000
  /-- 11 R296: replay windows HA, HB -/
  wins : Vector Window1 2 := Vector.replicate 2 {}
  /-- 11 R306: last verified record -/
  lastRx : Nat := 0
  /-- 11 R306: last record sent -/
  lastTx : Nat := 0
  /-- 11 R306: cause of a close due at the boundary -/
  closing : Option Nat := none
  /-- 11 R299: earliest notAfter of the chain, UTC ns -/
  notAfter : Option Nat := none
  /-- 11 R299: latest notBefore of the chain, UTC ns -/
  notBefore : Option Nat := none
  /-- 11 R302: REKEY records ignored -/
  ignored : Nat := 0
  /-- 11 R302: instant of the previous phase change -/
  phaseChanged : Option Nat := none
  /-- 11 R301: records verified under the phase -/
  recvCount : Nat := 0
  /-- 11 R296: peer sequence numbers adopted within the last 1024 -/
  taken : List Nat := []
  /-- 11 R296: SESS_REPLAYS -/
  replays : Nat := 0
  /-- 11 R294: SESS_AUTH_FAIL -/
  authFail : Nat := 0
  /-- 11 R305: SESS_TG_SUPERSEDED -/
  superseded : Nat := 0
  deriving DecidableEq, Repr

/-- A handshake in progress (11 R297). -/
structure Handshake where
  /-- 11 R297: first HELLO fragment -/
  since : Nat := 0
  /-- 11 R297: fragments received -/
  frags : NMap (List (BitVec 8)) := []
  /-- 11 R297: fragment count -/
  count : Nat := 1
  /-- 11 R297: collecting FINISH -/
  finish : Bool := false
  /-- 11 R291: number assigned at ANSWER (0xFFFE service port) -/
  number : Option Nat := none
  /-- 11 R291: fingerprint -/
  fp : Nat := 0
  /-- 11 R299: CA slot -/
  anchor : Nat := 0
  /-- 11 R297: networks from which a HELLO fragment arrived, bits A B -/
  nets : Nat := 0
  /-- 11 R297: READY sent -/
  done : Bool := false
  /-- 18 R443: on the service port -/
  service : Bool := false
  /-- 11 R299: UTC not valid at the check -/
  undated : Bool := false
  /-- 11 R299: validity of the chain, UTC ns -/
  valid : Option (Nat × Nat) := none
  /-- 11 R298: PRK of the session being made -/
  secret : Nat := 0
  /-- 11 R297: first fragment of the set being collected -/
  fragSince : Nat := 0
  /-- 11 R297: the ANSWER sent, for a byte-identical copy -/
  answered : List (BitVec 8) := []
  /-- 11 R297: the READY sent, for a byte-identical copy -/
  ready : List (BitVec 8) := []
  deriving DecidableEq, Repr

/-- Consist ports and sessions. -/
structure Consist where
  /-- 11 R287: HA_CP0-7, HB_CP0-7 -/
  ports : Vector Port 16 := Vector.replicate 16 {}
  /-- 11 R291: sessions held by number; 0xFFFE the service port -/
  sessions : NMap Session := []
  /-- 11 R297: handshakes by identifier (at most 64) -/
  handshakes : NMap Handshake := []
  /-- 11 R290: ICMP answers of the last second per hub -/
  icmp : NMap (List Nat) := []
  /-- 11 R310: HELLOs discarded since the last event 0x3035 -/
  hsDropped : Nat := 0
  /-- 18 R443: hub that serves the service port -/
  svcHub : Nat := 0
  /-- 11 R292: a reservation or deny change takes effect at the next boundary -/
  listPend : Bool := false
  /-- 11 R292: reservation entries in effect, by sub-index -/
  reserve : NMap Nat := []
  /-- 11 R292: deny entries in effect, by sub-index -/
  deny : NMap Nat := []
  deriving DecidableEq, Repr

/-- A twin link (12 R311-R317). -/
structure TLink where
  /-- 12 R312: last sent -/
  lastTx : Nat := 0
  /-- 12 R313: sequence number sent -/
  txSeq : Nat := 0
  /-- 12 R313: sequence number received last -/
  rxSeq : Nat := 0
  /-- 12 R313, 01 R13: sequence numbers received in the link session -/
  seen : List Nat := []
  /-- 12 R314: link session runs -/
  session : Bool := false
  /-- 12 R314: HELLO sent -/
  helloSent : Bool := false
  /-- 12 R314: link key -/
  key : Nat := 0
  /-- 12 R314: nonce of the module's own HELLO -/
  nonce : Nat := 0
  deriving DecidableEq, Repr

/-- A pair-scope write (12 R330). -/
structure PairWrite where
  /-- 12 R330: index -/
  index : Nat := 0
  /-- 12 R330: sub-index -/
  sub : Nat := 0
  /-- 12 R330: instance -/
  inst : Nat := 0
  /-- 12 R330: value -/
  value : Nat := 0
  deriving DecidableEq, Repr

/-- A queued single-actor item (12 R329). -/
structure ShadowItem where
  /-- 12 R329: hub -/
  hub : Nat := 0
  /-- 12 R329: crossing -/
  k : Nat := 0
  /-- 12 R329: the item -/
  item : OutItem := {}
  deriving DecidableEq, Repr

/-- Twin and mooring lease. -/
structure Twin where
  /-- 12 R311: T0-T3 -/
  links : Vector TLink 4 := Vector.replicate 4 {}
  /-- 12 R315: paired -/
  paired : Bool := false
  /-- 12 R322: instant of pairing -/
  pairedAt : Nat := 0
  /-- 12 R315: TWIN_PEER_SERIAL -/
  peerSerial : Nat := 0
  /-- 12 R315: peer's configured node -/
  peerPlan : Nat := 0
  /-- 12 R316: TWIN_LEASE, Table 12-3 -/
  lease : Nat := 0
  /-- 12 R317: E_h -/
  eH : Nat := 0
  /-- 12 R317: E_s -/
  eS : Nat := 0
  /-- 12 R318: long end -/
  long : Nat := 0
  /-- 12 R318: crossing of the last long renewal or acknowledgement -/
  longSeen : Option Nat := none
  /-- 12 R319: TWIN_MODE -/
  mode : Nat := 0
  /-- 12 R313: renewal count -/
  renewCount : Nat := 0
  /-- 12 R317: send instant per renewal count -/
  renewSent : NMap Nat := []
  /-- 12 R329: shadow queue (256 KiB), oldest first -/
  shadow : List ShadowItem := []
  /-- 12 R329: newest single-actor item transmitted -/
  mark : Option (Nat × Nat) := none
  /-- 12 R322: claim boundary of the last own CLAIM -/
  claimAt : Option Nat := none
  /-- 12 R322: lease boundary at which it began to hold -/
  heldFrom : Nat := 0
  /-- 12 R323: conditions met since -/
  revertSince : Option Nat := none
  /-- 12 R328: LEASE_HOLDER of the current crossing -/
  leaseFlag : Bool := false
  /-- 12 R330: pair-scope writes carried by the mirror record -/
  pairWrites : List PairWrite := []
  /-- 12 R315: links refused, bits -/
  refused : Nat := 0
  /-- 12 R319: lease end in force -/
  end_ : Nat := 0
  /-- 12 R322: last heard of the twin on any path -/
  heard : Nat := 0
  /-- 12 R322: instant from which TWIN_ALONE_WAIT counts: start-up or ceasing -/
  aloneFrom : Nat := 0
  /-- 12 R320-R323: instant at which the lease is to be taken -/
  takeAt : Option Nat := none
  /-- 12 R322: send instant of the last own CLAIM -/
  claimSent : Nat := 0
  /-- 12 R323: the home module has claimed; YIELD due -/
  yieldReq : Bool := false
  /-- 12 R323: this module, the home module, has claimed and awaits YIELD -/
  homeClaim : Bool := false
  /-- 12 R324: consecutive crossings with the twin's HOLDER frames -/
  foreignHold : Nat := 0
  /-- 12 R324: crossing of the newest of them -/
  foreignK : Nat := 0
  /-- 12 R324: ceases at the next crossing boundary -/
  ceaseDue : Bool := false
  /-- 12 R334: the holder has its copies' state still to send -/
  catchDue : Bool := false
  /-- 12 R314: paired since start-up -/
  hadPair : Bool := false
  /-- 12 R314: K_tw has been derived since start-up -/
  keyed : Bool := false
  /-- 12 R318: a long-lease renewal of the twin has been accepted while this module does not hold -/
  longHeard : Bool := false
  /-- 12 R332: newest mirror record of the holder -/
  record : Option MirrorRec := none
  /-- 05 R125: the hub whose twin link brought it -/
  recordHub : Nat := 0
  /-- 05 R125: copies of it that the merge discards, with the hub of each -/
  recordDup : List (Nat × MirrorRec) := []
  /-- 12 R332: header values of the module's own record of the previous crossing -/
  head : MirHead := {}
  /-- 12 R332: header values of the record of this crossing -/
  headNext : MirHead := {}
  /-- 12 R330: pair-scope writes received, due at the next boundary -/
  peerWrites : List PairWrite := []
  /-- 21 R512: released for output hold; does not claim again until R323 allows -/
  noClaim : Bool := false
  deriving DecidableEq, Repr

/-- A bus interface. -/
structure BIf where
  /-- 13 R344: 0 off 1 active 2 degraded 3 down -/
  state : Nat := 0
  /-- 13 R354: MVB_LINE_STATE bits -/
  lines : Nat := 0
  /-- 13 R342: instant of the bus-off whose recovery is under way -/
  busOff : Option Nat := none
  /-- 13 R350: values of the source ports -/
  mports : NMap (List (BitVec 8)) := []
  /-- 13 R345: arrival of the newest byte since the last frame end -/
  lastByte : Option Nat := none
  deriving DecidableEq, Repr

/-- A queued bridge operation (13 R351). -/
structure BOp where
  /-- 13 R349: stall -/
  stall : Nat := 0
  /-- 13 R351: tag -/
  tag : Nat := 0
  /-- 13 R349: READ, else WRITE -/
  read : Bool := false
  /-- 13 R351: ORDERED -/
  ordered : Bool := false
  /-- 13 R349: offset -/
  offset : Nat := 0
  /-- 13 R349: data -/
  data : List (BitVec 8) := []
  /-- 13 R350: bytes of the data that have left -/
  sent : Nat := 0
  deriving DecidableEq, Repr

/-- Value of an MVB sink port. -/
structure PortVal where
  /-- 13 R344: last valid receipt -/
  at_ : Nat := 0
  /-- 13 R344: VALID -/
  valid : Bool := false
  /-- 13 R344: LINE_B -/
  lineB : Bool := false
  /-- 13 R344: CHECK_ERR -/
  checkErr : Bool := false
  /-- 13 R344: port value -/
  data : List (BitVec 8) := []
  deriving DecidableEq, Repr

/-- A window's state. -/
structure BWin where
  /-- 13 R344: inbound queue in hub SRAM -/
  queue : List BRec := []
  /-- 13 R344: next record sequence -/
  nextSeq : Nat := 1
  /-- 13 R345, R346: the next data record carries RESUMED -/
  resume : Bool := false
  /-- 13 R345: only a flushed word is the cause of that -/
  flushed : Bool := false
  /-- 13 R351: operation queue (64) -/
  ops : List BOp := []
  /-- 13 R351: READ awaiting its response, since -/
  reading : Option (BOp × Nat) := none
  /-- 13 R345: partial SER word -/
  word : List (BitVec 8) := []
  /-- 13 R345: ERROR of the partial word -/
  wordErr : Bool := false
  /-- 13 R345: arrival of its newest byte -/
  wordAt : Nat := 0
  /-- 13 R351: response bytes received of a SER READ -/
  resp : Nat := 0
  /-- 13 R344, R346: records lost since the last image -/
  lost : Nat := 0
  /-- 13 R344, R347: kind 1: current value per port -/
  ports : NMap PortVal := []
  /-- 13 R346: write pointer (true copy) -/
  wptr : Nat := 0
  /-- 13 R346: write pointer (second copy, held complemented) -/
  wptrN : Nat := 0
  /-- 13 R346: read pointer (true copy) -/
  rptr : Nat := 0
  /-- 13 R346: read pointer (second copy, held complemented) -/
  rptrN : Nat := 0
  deriving DecidableEq, Repr

/-- Legacy bridge. -/
structure Bridge where
  /-- 13 R340: MVB1 MVB2 CAN1 CAN2 SER1 SER2 -/
  ifs : Vector BIf 6 := Vector.replicate 6 {}
  /-- 13 R343: state of windows in use -/
  wins : NMap BWin := []
  /-- 13 R341: HA holds bus mastership -/
  master : Bool := false
  /-- 13 R341: next entry of the administrator list -/
  baNext : Nat := 0
  /-- 13 R343: window definitions in effect, 16 bytes each -/
  defs : NMap Nat := []
  /-- 13 R343: a definition takes effect at the next boundary -/
  defPend : Bool := false
  deriving DecidableEq, Repr

/-- A semaphore group (13 R353). -/
structure SemGroup where
  /-- 13 R353: holding stall -/
  holder : Option Nat := none
  /-- 13 R353: crossing of the grant -/
  since : Nat := 0
  /-- 13 R353: wait list in decision order -/
  waits : List Nat := []
  deriving DecidableEq, Repr

/-- A digital input at its field die. -/
structure Di where
  /-- 14 R358, R361: last reported voltage, mV -/
  volts : Nat := 0
  /-- 14 R360: raw comparator level -/
  raw : Bool := false
  /-- 14 R360: instant of the last raw change, ns of the die -/
  rawAt : Nat := 0
  /-- 14 R360: filtered level -/
  level : Bool := false
  /-- 14 R361: wire break -/
  broken : Bool := false
  /-- 14 R361: start of the voltage condition being timed -/
  wbSince : Option Nat := none
  /-- 14 R362: front-end fault -/
  frontEnd : Bool := false
  /-- 14 R362: consecutive failed comparator tests -/
  testFails : Nat := 0
  /-- 05 R152: edge count since start-up -/
  edgeCount : Nat := 0
  /-- 05 R152: instant of the last edge, ns of the die -/
  lastEdge : Nat := 0
  /-- 14 R360: its translated stamp, TIME64 -/
  lastT : Nat := 0
  /-- 05 R152: a rising edge since the previous sample -/
  rise : Bool := false
  /-- 05 R152: a falling edge since the previous sample -/
  fall : Bool := false
  /-- 15 R376: level filtered for the evaluator -/
  safLevel : Bool := false
  /-- 14 R357: threshold set applied at the die (110 V after reset) -/
  set : Nat := 2
  deriving DecidableEq, Repr

/-- A digital output at its field dies. -/
structure Do where
  /-- 14 R367: state driven by the switch -/
  applied : Bool := false
  /-- 14 R363: series cut-off closed -/
  cutoff : Bool := false
  /-- 14 R366: readback level high -/
  level : Bool := false
  /-- 14 R374: current readback, mA -/
  current : Nat := 0
  /-- 14 R364: OVERLOAD latch -/
  overload : Bool := false
  /-- 14 R366: OPEN -/
  openLoad : Bool := false
  /-- 14 R366: MISMATCH -/
  mismatch : Bool := false
  /-- 14 R366: EXTERNAL -/
  external : Bool := false
  /-- 14 R366: commanded state -/
  cmd : Bool := false
  /-- 14 R367: driven at its programmed safe state -/
  safeDriven : Bool := false
  deriving DecidableEq, Repr

/-- A field die. -/
structure FieldDie where
  /-- 01 R23: lost -/
  failed : Bool := false
  /-- 14 R371: hub of the first copy -/
  cmdHub : Nat := 0
  /-- 14 R369: SILENT -/
  silent : Bool := false
  /-- 14 R369: last hub activity -/
  lastAct : Nat := 0
  /-- 14 R357: sequence of the configuration applied -/
  cfgSeq : Nat := 0
  /-- 14 R357: a configuration message has arrived since reset -/
  configured : Bool := false
  /-- 07 R204: pending TIMED_DO actions -/
  timed : List TimedDo := []
  /-- 14 R369: events kept in SILENT (up to 16) -/
  kept : List Record := []
  /-- 14 R360: value s_k of the 100 MHz counter at the newest sample -/
  counter : Nat := 0
  /-- 14 R360: value of the 100 MHz counter at the sample before -/
  counterPrev : Nat := 0
  /-- 05 R125: field sequence number -/
  seq : Nat := 0
  /-- 08 R213: temperature, 0.1 C -/
  temp : Int := 0
  /-- 15 R380: field cross link declared failed -/
  crossFailed : Bool := false
  /-- 20 R498: applies the first output command it receives -/
  fresh : Bool := true
  /-- 01 R20, 14 R367: newest output command applied: sequence number and content -/
  cmd : OutCmd := {}
  /-- 14 R367, 07 R204: states given by it and by the timed actions since, a bit per channel -/
  bits : Nat := 0
  /-- 14 R357: configuration held: values by entry key; before the first message the defaults of R357 -/
  cfg : NMap Nat := []
  /-- 06 R169: a safe-state command is in force -/
  safeCmd : Bool := false
  /-- 14 R360: train time of the newest sample -/
  sampleAt : Nat := 0
  deriving DecidableEq, Repr

/-- Evaluation state of one pair of an instance (15 R377-R388). -/
structure PairSt where
  /-- 15 R377: 0 clear/active, 1 the opposite combination, 2 inconsistent -/
  state : Nat := 2
  /-- 15 R378: start of the state -/
  since : Nat := 0
  /-- 15 R382, R388: start of the latest activation -/
  activeAt : Nat := 0
  /-- 15 R388: length of an activation that has ended and whose pair is not yet inactive -/
  activeFor : Option Nat := none
  /-- 15 R386: seen inactive for 100 ms: its activations count -/
  armed : Bool := false
  deriving DecidableEq, Repr

/-- A safety evaluator instance. -/
structure SafInst where
  /-- 15 R385: Table 15-3 -/
  state : Nat := 0
  /-- 15 R385: Table 15-4 -/
  cause : Nat := 0
  /-- 15 R383: main permit -/
  main : Bool := false
  /-- 15 R383: release permit -/
  release : Bool := false
  /-- 15 R386: INHIBIT -/
  inhibit : Bool := false
  /-- 15 R377: pair A -/
  pa : PairSt := {}
  /-- 15 R377: pair B -/
  pb : PairSt := {}
  /-- 15 R377: start pair -/
  ps : PairSt := {}
  /-- 15 R382: first activation of the synchronism window -/
  syncFrom : Option Nat := none
  /-- 15 R394: stamp of the last state change -/
  lastChange : Nat := 0
  /-- 15 R394: its translated stamp, TIME64 -/
  lastT : Nat := 0
  /-- 15 R395: raw stamp of the demand being measured -/
  demandAt : Option Nat := none
  /-- 15 R393: start (1) or reset (2) applied as an activation -/
  request : Nat := 0
  deriving DecidableEq, Repr

/-- Output test of a role-1 channel (15 R392). -/
structure OutTest where
  /-- 15 R392: instant of the last switch test -/
  lastSwitch : Nat := 0
  /-- 15 R392: instant of the last cut-off test -/
  lastCut : Nat := 0
  deriving DecidableEq, Repr

/-- Safety evaluators. -/
structure Safety where
  /-- 15 R376: instances 0-31 -/
  inst : Vector SafInst 32 := Vector.replicate 32 {}
  /-- 15 R397: editing context -/
  edit : Option Nat := none
  /-- 15 R397: pending copy of the changed parameters, by entry key -/
  pending : NMap Nat := []
  /-- 15 R392: output test state per safety output channel -/
  tests : NMap OutTest := []
  /-- 15 R396, R399: safety parameters in force at the field dies, by entry key -/
  cfg : NMap Nat := []
  /-- 15 R393: newest command whose requests have been applied -/
  reqSeq : Nat := 0
  deriving DecidableEq, Repr

/-- An analog channel at its field die. -/
structure Ai where
  /-- 16 R403, R410: range in effect at the die -/
  range : Nat := 0
  /-- 16 R406, R410: rate in effect at the die -/
  rate : Nat := 2
  /-- 16 R410: output periods since the last filter restart -/
  outputs : Nat := 0
  /-- 16 R409: last valid raw value, I32 -/
  raw : Int := 0
  /-- 16 R409: its instant -/
  instant : Nat := 0
  /-- 16 R409: VALID -/
  valid : Bool := false
  /-- 16 R409: SETTLING -/
  settling : Bool := false
  /-- 16 R411: data loss in progress since -/
  lossAt : Option Nat := none
  /-- 16 R411: LOST due in the next item -/
  lost : Bool := false
  /-- 16 R411: MODULATOR -/
  modulator : Bool := false
  /-- 16 R404: burden open since -/
  burdenOpen : Option Nat := none
  /-- 16 R404: openings since the last record -/
  burdenCount : Nat := 0
  /-- 16 R404: recorded; not again until one full settling -/
  burdenRec : Bool := false
  /-- 16 R412: peak high -/
  hi : Int := 0
  /-- 16 R412: peak low -/
  lo : Int := 0
  /-- 16 R412: a valid output since the peak detector's reset and the previous field sample -/
  peaked : Bool := false
  /-- 16 R412: AI_RMS_LEN in effect at the die -/
  rmsLen : Nat := 10
  /-- 16 R412: AI_RMS_AC in effect at the die -/
  rmsAc : Bool := false
  /-- 16 R412: AI_ENV_RELEASE in effect at the die -/
  envRel : Nat := 100000
  /-- 16 R416: length of the loss that set MODULATOR -/
  faultFor : Nat := 0
  /-- 16 R413: valid outputs since the previous field sample -/
  samples : Nat := 0
  /-- 16 R412: newest 2^m valid outputs, newest first -/
  rmsBuf : List Int := []
  /-- 16 R412: envelope -/
  env : Nat := 0
  /-- 16 R413: data of the newest field sample -/
  item : AiItem := {}
  deriving DecidableEq, Repr

/-- Field domain. -/
structure Field where
  /-- 14 R356: DIX00-31, DIY00-31 -/
  di : Vector Di 64 := Vector.replicate 64 {}
  /-- 14 R363: DOX00-15, DOY00-15 -/
  outs : Vector Do 32 := Vector.replicate 32 {}
  /-- 01 R12: FX, FY -/
  dies : Vector FieldDie 2 := Vector.replicate 2 {}
  /-- 16 R403: AIX0-7, AIY0-7 -/
  ai : Vector Ai 16 := Vector.replicate 16 {}
  /-- 14 R357: sequence of the newest configuration sent -/
  cfgSeq : Nat := 0
  /-- 14 R373: FIELD_DISSIPATION, mW -/
  dissipation : Nat := 0
  /-- 14 R357: content of the newest configuration sent -/
  cfgMsg : NMap Nat := []
  deriving DecidableEq, Repr

/-- A loft package (18 R445, R450). -/
structure Package where
  /-- 18 R445: kind 1-6, 0 while the header is awaited -/
  kind : Nat := 0
  /-- 18 R450: 1 PARTIAL 2 COMPLETE 3 ARMED -/
  state : Nat := 1
  /-- 18 R445: 4 KiB header -/
  header : List (BitVec 8) := []
  /-- 18 R445: manifest bytes -/
  manifest : List (BitVec 8) := []
  /-- 18 R445: verified payload bytes -/
  payload : List (BitVec 8) := []
  /-- 18 R448: verified manifest blocks -/
  manifestBlocks : Nat := 0
  /-- 18 R448: verified payload blocks -/
  payloadBlocks : Nat := 0
  /-- 18 R451: operating seconds of the last verified block -/
  progress : Nat := 0
  /-- 18 R446: root slot under which it verified -/
  root : Nat := 0
  /-- 18 R451: PAUSED -/
  paused : Bool := false
  deriving DecidableEq, Repr

/-- A boot bank (18 R455). -/
structure Bank where
  /-- 18 R455: 0 EMPTY 1 COPYING 2 TRIAL 3 GOOD 4 FAILED -/
  state : Nat := 0
  /-- 18 R456: trial starts -/
  trials : Nat := 0
  /-- 18 R469: version -/
  version : Nat := 0
  /-- 18 R455: bank sequence -/
  seq : Nat := 0
  /-- 18 R457: epoch -/
  epoch : Nat := 0
  /-- 18 R469: settings format -/
  format : Nat := 0
  /-- 18 R445: oldest format it migrates from -/
  oldest : Nat := 0
  /-- 18 R445: generations -/
  gens : List Nat := []
  deriving DecidableEq, Repr

/-- A root slot (18 R463). -/
structure Root where
  /-- 18 R463: kinds mask -/
  kinds : Nat := 0
  /-- 18 R463: ECDSA P-384 key, 97 bytes -/
  ecdsa : Nat := 0
  /-- 18 R463: ML-DSA-65 key, 1952 bytes -/
  mldsa : Nat := 0
  /-- 18 R464: sequence number -/
  seq : Nat := 0
  deriving DecidableEq, Repr

/-- A CA slot (18 R463). -/
structure Ca where
  /-- 18 R463: usage byte -/
  usage : Nat := 0
  /-- 18 R463: DER certificate -/
  cert : List (BitVec 8) := []
  /-- 18 R464: sequence number -/
  seq : Nat := 0
  deriving DecidableEq, Repr

/-- A role password (18 R466, R467). -/
structure Pwd where
  /-- 18 R466: 16-byte salt -/
  salt : Nat := 0
  /-- 18 R466: 32-byte PBKDF2 result; none unset -/
  hash : Option Nat := none
  /-- 18 R467: consecutive failures -/
  fails : Nat := 0
  /-- 18 R467: locked out since -/
  lockedAt : Option Nat := none
  /-- 18 R466, 20 R494: it is the password of delivery -/
  delivered : Bool := false
  deriving DecidableEq, Repr

/-- A DAP request carried by an image (02 R43). -/
structure Request where
  /-- 02 R43: context key -/
  ctx : Nat := 0
  /-- 02 R43: boundary at which a WRITE is applied (j + 2 for a request that arrives in crossing j) -/
  due : Nat := 0
  /-- 02 R40: request id -/
  reqId : Nat := 0
  /-- 02 R40: operation -/
  op : Nat := 1
  /-- 02 R40: index -/
  index : Nat := 0
  /-- 02 R40: sub-index -/
  sub : Nat := 0
  /-- 02 R40: entry length field -/
  elen : Nat := 0
  /-- 04 R100: instance of a DICTWIN item without SELECTED -/
  fixedInst : Option Nat := none
  /-- 02 R42: role that the context holds at the request's place in its order, once decided for a WRITE -/
  role : Option Nat := none
  /-- 08 R224: port of a CLOSING shed by which it arrived -/
  via : Option Nat := none
  /-- 02 R50: slots of a DICTWIN write that keep the value that the entry has at the boundary -/
  gaps : List Nat := []
  /-- 06 R161: hubs whose image carries it, a bit each -/
  hubs : Nat := 3
  /-- 11 R296: number of the session record that brought it -/
  seq : Nat := 0
  /-- 02 R40: payload -/
  payload : List (BitVec 8) := []
  deriving DecidableEq, Repr

/-- A password derivation in progress (18 R467). -/
structure PwdJob where
  /-- 18 R467: start -/
  since : Nat := 0
  /-- 18 R467: the request that waits for the derivation -/
  req : Request := {}
  deriving DecidableEq, Repr

/-- The open transfer (18 R447-R451). -/
structure Transfer where
  /-- 18 R447: package number -/
  pkg : Nat := 0
  /-- 18 R448: chunks of the block being received, with the CRC each carried -/
  chunks : NMap (Nat × List (BitVec 8)) := []
  /-- 18 R451: instant of the latest chunk -/
  lastChunk : Nat := 0
  deriving DecidableEq, Repr

/-- Update, settings and access. -/
structure Update where
  /-- 01 R18: the hub that writes the boot flash, the loft and the settings store -/
  writer : Nat := 0
  /-- 18 R450: packages by number -/
  loft : NMap Package := []
  /-- 18 R447: open transfer -/
  transfer : Option Transfer := none
  /-- 18 R451: UPD_STATE 4 -/
  paused : Bool := false
  /-- 18 R455: banks A, B -/
  banks : Vector Bank 2 := Vector.replicate 2 {}
  /-- 18 R455: active bank -/
  active : Nat := 0
  /-- 18 R457: UPD_EPOCH -/
  epoch : Nat := 0
  /-- 18 R457: the other bank at the next start -/
  fallback : Bool := false
  /-- 18 R462: settings reset at the next start -/
  setReset : Bool := false
  /-- 18 R463: root slots -/
  roots : Vector Root 4 := Vector.replicate 4 {}
  /-- 18 R463: CA slots -/
  cas : Vector Ca 8 := Vector.replicate 8 {}
  /-- 18 R466: passwords of roles 1-5 (slot 0 unused); Engineer and VendorService are delivered set -/
  pwds : Vector Pwd 6 := #v[{}, {}, {}, { delivered := true }, {}, { delivered := true }]
  /-- 18 R467: derivations in progress -/
  jobs : List PwdJob := []
  /-- 18 R458: settings store: value and sequence per entry key (parts) -/
  store : NMap (Nat × Nat) := []
  /-- 18 R460: values awaiting write with the boundary of the write -/
  storeDue : NMap (Nat × Nat) := []
  /-- 18 R469: SET_FORMAT -/
  format : Nat := 0
  /-- 18 R461: snapshot area -/
  snapshot : NMap Nat := []
  /-- 18 R461: SET_SNAPSHOT_FORMAT -/
  snapFormat : Nat := 0
  /-- 04 R109: stored stall set: package, grant, state -/
  storedStalls : NMap (Nat × Nat × Nat) := []
  /-- 18 R448: chunks discarded -/
  dropped : Nat := 0
  deriving DecidableEq, Repr

/-- Performance counters of one core of one lane (19 R471-R474). -/
structure CorePerf where
  /-- 19 R471: CORE_CYCLES, U64 -/
  cycles : Nat := 0
  /-- 19 R471: CORE_PC, 48 bits -/
  pc : Vector Nat 8 := Vector.replicate 8 0
  /-- 19 R473: CORE_PC_OVF -/
  ovf : BitVec 8 := 0
  /-- 19 R474: ring of 64 samples, 16 bytes each, oldest first -/
  samples : List Nat := []
  /-- 19 R474: CORE_SAMPLE_COUNT -/
  sampleCount : Nat := 0
  /-- 19 R474: instructions before the next tag -/
  countdown : Option Nat := none
  deriving DecidableEq, Repr

/-- Performance counters. -/
structure Perf where
  /-- 19 R471: lane x 16 + core -/
  cores : Vector CorePerf 48 := Vector.replicate 48 {}
  /-- 19 R476: latency record per lane, 16-byte entries -/
  lat : Vector (List Nat) 3 := Vector.replicate 3 []
  /-- 19 R476: recording -/
  latArmed : Bool := false
  /-- 19 R477: PC_SNAP_CMD written -/
  snapDue : Bool := false
  /-- 19 R477: values latched at the boundary -/
  latched : Vector (List Nat) 48 := Vector.replicate 48 []
  /-- 19 R477: snapshot boundary awaiting agreement -/
  latchedAt : Option Nat := none
  /-- 19 R478: PC_SNAP_FLAGS of the latched values -/
  latchedFlags : Nat := 0
  /-- 19 R478: LANE_SET_CHANGED -/
  setChanged : Bool := false
  /-- 19 R478: MISSED -/
  missed : Bool := false
  /-- 19 R478: CONFIG_CHANGED -/
  cfgChanged : Bool := false
  /-- 19 R480: live block counters by entry key, U32 saturating -/
  blocks : NMap Nat := []
  deriving DecidableEq, Repr

/-- Start-up and reset. -/
structure Startup where
  /-- 20 R486: phase 0 none, 1-9, 10 running -/
  phase : Nat := 0
  /-- 20 R500: START_CAUSE -/
  cause : Nat := 0
  /-- 20 R486: start of the module start (train time) -/
  since : Nat := 0
  /-- 20 R489: START_T0 -/
  t0 : Nat := 0
  /-- 20 R500: START_DURATION, ms -/
  duration : Nat := 0
  /-- 20 R490: START_COMPLETE -/
  complete : Bool := false
  /-- 20 R493: RECOVERY -/
  recovery : Bool := false
  /-- 20 R489: held in start-up -/
  heldIn : Bool := false
  /-- 20 R490: a FATAL event since the start began -/
  fatal : Bool := false
  /-- 18 R461: settings replaced by defaults -/
  defaults : Bool := false
  /-- 20 R491: press in progress, ms from supply good -/
  pressAt : Option Nat := none
  /-- 20 R501: the mode before a recovery start -/
  prevMode : Nat := 0
  /-- 20 R492: it began inside the window -/
  pressIn : Bool := false
  /-- 20 R491: ignored until released -/
  ignorePress : Bool := false
  /-- 20 R491: event 0x1004 recorded -/
  stuckDone : Bool := false
  /-- 20 R484: context of a RESET_CMD to act at the boundary -/
  resetDue : Option Nat := none
  /-- 20 R492: a recovery start follows -/
  recoverDue : Bool := false
  /-- 20 R490: settings migration finished -/
  migrated : Bool := true
  /-- 20 R486: ports open -/
  ports : Bool := false
  /-- (model): MODEL's own: counter applied to the opaque free values -/
  freeCount : Nat := 0
  deriving DecidableEq, Repr

/-- A DAP context (02 R31, R35). -/
structure Context where
  /-- 02 R31: 0-5 -/
  role : Nat := 0
  /-- 02 R35: select values in the order of Table 02-5 -/
  sels : Vector Nat 15 := Vector.replicate 15 0
  /-- 17 R430: REC_CURSOR, 16 bytes -/
  cursor : Nat := 0
  /-- 17 R430: REC_FILTER -/
  filter : Nat := 0
  /-- 02 R42: requests outstanding (at most 16) -/
  outstanding : Nat := 0
  /-- 02 R47: refusals and discards counted (SESS_REFUSALS of a session) -/
  refusals : Nat := 0
  deriving DecidableEq, Repr

/-- Agreed view of one digital input (05 R146, R152). -/
structure DiView where
  /-- 05 R152: current level, forced value included -/
  value : Bool := false
  /-- 05 R146: unforced level -/
  raw : Bool := false
  /-- 05 R152: wire break or front-end fault -/
  fault : Nat := 0
  /-- 05 R152: edges since start-up -/
  count : Nat := 0
  /-- 05 R152: last edge, TIME64 -/
  last : Nat := 0
  /-- 05 R130: sample instant -/
  at_ : Nat := 0
  /-- 05 R146: the view was forced at the last adoption -/
  forced : Bool := false
  deriving DecidableEq, Repr

/-- Power conversion and hold-up (22). -/
structure Supply where
  /-- 22 R528: SUPPLY_VIN, mV -/
  vin : Nat := 0
  /-- 22 R528: HOLDUP_STATE -/
  holdup : Nat := 0
  /-- 22 R528: HOLDUP_MS, 0.1 ms -/
  holdupMs : Nat := 0
  /-- 22 R518, R520: instant of the warning while power-fail is in progress -/
  powerFail : Option Nat := none
  /-- 22 R517: input above the supply-good threshold -/
  supplyGood : Bool := false
  /-- 08 R225: input energy since reset, mW x ns -/
  energy : Nat := 0
  /-- 22 R521: operating seconds of the last measurement -/
  lastMeasure : Nat := 0
  /-- 22 R521: a measurement has been made since crossing 0 -/
  measured : Bool := false
  deriving DecidableEq, Repr

/-- A shed at its hub (08 R224). -/
structure ShedHub where
  /-- 08 R224: receivers stopped, ports powered down -/
  stopped : Bool := false
  /-- 08 R222: the storage link has reported up since the wake-up -/
  back : Bool := false
  deriving DecidableEq, Repr

/-- One CHG_LOG record (23 R534). -/
structure Chg where
  /-- 23 R534: boundary TIME64 -/
  at_ : Nat := 0
  /-- 23 R534: index -/
  index : Nat := 0
  /-- 23 R534: sub-index -/
  sub : Nat := 0
  /-- 23 R534: role, 0xFF a stall -/
  role : Nat := 0
  /-- 23 R534: context -/
  ctx : Nat := 0
  /-- 23 R534: select value used -/
  inst : Nat := 0xFFFF
  deriving DecidableEq, Repr

/-- What leaves the block, newest first: the observable outputs (MODEL's own record). -/
structure Egress where
  /-- (model): what it is -/
  kind : EgKind := .dapResponse
  /-- (model): hub, plane, link or port it leaves by -/
  port : Nat := 0
  /-- (model): first field -/
  a : Nat := 0
  /-- (model): second field -/
  b : Nat := 0
  /-- (model): third field -/
  c : Nat := 0
  /-- (model): content -/
  data : List (BitVec 8) := []
  deriving DecidableEq, Repr

/-- What dictionary writes change outside the supervisors' state and a rollback undoes (06 R180), as of the agreed generation. -/
structure Undo where
  /-- 18 R460: values awaiting write -/
  storeDue : NMap (Nat × Nat) := []
  /-- 18 R463: root slots -/
  roots : Vector Root 4 := Vector.replicate 4 {}
  /-- 18 R463: CA slots -/
  cas : Vector Ca 8 := Vector.replicate 8 {}
  /-- 18 R466: passwords -/
  pwds : Vector Pwd 6 := Vector.replicate 6 {}
  /-- 09 R241: BB_KEY slots -/
  keys : Vector (Option Nat) 4 := Vector.replicate 4 none
  /-- 09 R245: configured plan -/
  configured : Option Plan := none
  /-- 10 R278: companion plans -/
  companions : List Plan := []
  /-- 15 R397: editing context -/
  edit : Option Nat := none
  /-- 15 R397: pending parameters -/
  pending : NMap Nat := []
  deriving DecidableEq, Repr

/-- 2oo3 agreement. -/
structure Agree where
  /-- 06 R158: K_in, 128 bits -/
  kIn : Nat := 0
  /-- 06 R158: K_ck, 128 bits -/
  kCk : Nat := 0
  /-- 12 R314: K_tw -/
  kTw : Nat := 0
  /-- 06 R179: a mismatch restart is under way -/
  mismatch : Bool := false
  /-- 06 R180: requests to be answered ABT_STATE detail 3 at the resume boundary -/
  affected : List Resp := []
  /-- 06 R181: time and named stall (0xFFFF none) of the previous mismatch restart -/
  lastMismatch : Option (Nat × Nat) := none
  /-- 06 R180: every lane has completed its restart -/
  resumeDue : Bool := false
  /-- 01 R23, 06 R181: module lost (second lane lost) -/
  lost : Bool := false
  /-- 06 R171: release digest reported by each voter -/
  reportDigest : Vector (Option Nat) 2 := Vector.replicate 2 none
  /-- 09 R247: crossing in which an identifier last took a number -/
  seqK : NMap Nat := []
  /-- 06 R180: what a rollback restores beside the agreed generation, once one has been agreed -/
  undo : Option Undo := none
  deriving DecidableEq, Repr

/-- The lane supervisors' replicated state (06 R172), equal on every lane of the set. -/
structure Sup where
  /-- 02 R27-R30: values of the entries held by the supervisors; unlisted entries read their default -/
  dict : NMap Nat := []
  /-- 04 R97, R110: loaded stalls by id (an unlisted id is EMPTY) -/
  stalls : NMap Stall := []
  /-- 02 R31, R35: contexts by key: 0 service port, 1 + session, 5000 + stall -/
  ctxs : NMap Context := []
  /-- 02 R43: DAP writes carried by an image, waiting for their boundary -/
  reqs : List Request := []
  /-- 02 R43, 06 R180: responses to requests whose effect is not yet agreed -/
  resps : List Resp := []
  /-- 05 R142: CYCLE_MODE 1 RUN 2 STOP 3 HOLD -/
  mode : Nat := 2
  /-- 05 R142: mode commanded and its context number, effective at the next boundary -/
  modePending : Option (Nat × Nat) := none
  /-- 05 R125, R126: merge state and adopted data per (kind, source) -/
  adopted : NMap Adopted := []
  /-- 05 R121: adopted field samples of FX, FY -/
  samples : Vector Sample 2 := Vector.replicate 2 {}
  /-- 05 R146, R152: agreed view of the digital inputs -/
  di : Vector DiView 64 := Vector.replicate 64 {}
  /-- 05 R132: posted requests accepted in the crossing -/
  posted : List Posted := []
  /-- 06 R164: output stream of the crossing, in order -/
  outs : List OutItem := []
  /-- 05 R122, 06 R164: output stream of the crossing before, with what its late activations add -/
  outsPrev : List OutItem := []
  /-- 05 R145-R147: DI forces by channel -/
  forceDi : NMap Force := []
  /-- 05 R145-R147: DO forces by channel -/
  forceDo : NMap Force := []
  /-- 05 R145-R147: analog forces by channel -/
  forceAi : NMap Force := []
  /-- 05 R136: last value accepted per DO channel with its commanding stall -/
  doLast : NMap DoCmd := []
  /-- 05 R136, 14 R367: sequence number of the output command, U32 -/
  cmdSeq : Nat := 0
  /-- 15 R393: safety requests to travel in the next command (instance, reset) -/
  safReqs : List (Nat × Bool) := []
  /-- 07 R204: TIMED_DO actions to travel in the output command of the crossing -/
  timedDo : List TimedDo := []
  /-- 07 R204: channels whose carried action the next output command withdraws -/
  withdraw : List Nat := []
  /-- 05 R148: commit sequence per stall -/
  retainSeq : NMap Nat := []
  /-- 07: time and position -/
  tp : TimePos := {}
  /-- 07 R200: triggers by index 0-1023 -/
  triggers : NMap Trigger := []
  /-- 07 R201: generation count per index -/
  trigGen : NMap Nat := []
  /-- 08: energy manager and sheds -/
  en : Energy := {}
  /-- 13 R353: bridge semaphore groups 1-15 -/
  groups : NMap SemGroup := []
  /-- 23 R534: CHG_LOG ring by position 0-15 -/
  chg : NMap Chg := []
  /-- 23 R534: CHG_COUNT -/
  chgCount : Nat := 0
  /-- 21 R504: arming done at this boundary -/
  arbArm : Bool := false
  /-- 21 R504: tack change done at this boundary -/
  arbTack : Bool := false
  /-- 09 R247, 11 R295: next sequence number per telegram identifier -/
  seqs : NMap Nat := []
  /-- 17 R422: token buckets of the records that the lane supervisors originate -/
  buckets : NMap Bucket := []
  deriving DecidableEq, Repr

/-- The block. -/
structure State where
  /-- 06 R172: live replicated state of the lane supervisors -/
  sup : Sup := {}
  /-- 06 R173: agreed checkpoint generation of stalls and supervisor -/
  agreed : Sup := {}
  /-- 05: crossing, images, core queues -/
  cyc : Cycle := {}
  /-- 06 R156: LA, LB, LC -/
  lanes : Vector Lane 3 := Vector.replicate 3 {}
  /-- 06: agreement keys and mismatch state -/
  agree : Agree := {}
  /-- 01 R13: receiving ends of the internal links -/
  ilinks : Vector ILink 34 := Vector.replicate 34 {}
  /-- 01 R12: HA, HB -/
  hubs : Vector HubDie 2 := Vector.replicate 2 {}
  /-- 07 R190: TIME_HUB_DIFF, ns -/
  hubDiff : Int := 0
  /-- 07 R190: consecutive crossings with a difference above 200 ns -/
  hubDiffRun : Nat := 0
  /-- 07 R190: event 0x2071 recorded for the run -/
  hubDiffDone : Bool := false
  /-- 17: recorder -/
  recd : Recorder := {}
  /-- 22: supply and hold-up -/
  supply : Supply := {}
  /-- 08 R222-R224: sheds 0-11 at their hubs -/
  shedHub : Vector ShedHub 12 := Vector.replicate 12 {}
  /-- 09, 10: backbone -/
  bb : Backbone := {}
  /-- 11: consist ports and sessions -/
  con : Consist := {}
  /-- 12: twin and mooring lease -/
  twin : Twin := {}
  /-- 13: legacy bridge -/
  br : Bridge := {}
  /-- 14, 16: field domain -/
  field : Field := {}
  /-- 07 R193: TAX0, TAX1, TAY0, TAY1 at their field dies -/
  tacho : Vector Tacho 4 := Vector.replicate 4 {}
  /-- 15: safety evaluators -/
  saf : Safety := {}
  /-- 18: update, settings and access -/
  upd : Update := {}
  /-- 19: performance counters -/
  perf : Perf := {}
  /-- 20: start-up and reset -/
  st : Startup := {}
  /-- 02 R27-R30: values of the entries that hubs and field dies keep; unlisted entries read their default -/
  cnt : NMap Nat := []
  /-- (model): what has left the block, newest first -/
  egress : List Egress := []
  /-- (model): commands waiting, first in, first out -/
  pending : List Instr := []
  deriving DecidableEq, Repr

/-- The machine right after reset: every field at the value the spec states for reset, or at the one a log entry names
(log 1); no command waits. -/
def State.reset : State := {}

end Sys2Proof.Machine
end

