-- ==== Sys2Proof/Machine/Ops.lean ====
section
/-!
DEFINITION. The named operations over bytes, stall memory, dictionary values, contexts, lanes and records that every
command is written with, and the taking of a Stallcode exception.
-/

namespace Sys2Proof.Machine

/-- The outcome of a command. -/
abbrev Out := Host.Outcome State Fault Refusal

/-! ## Bytes (R10: little-endian) -/

/-- The number that bytes hold, least significant first. -/
def leNat : List Byte → Nat
  | [] => 0
  | b :: bs => b.toNat + 256 * leNat bs

/-- A number as `n` bytes, least significant first. -/
def leBytes : Nat → Nat → List Byte
  | 0, _ => []
  | n + 1, x => BitVec.ofNat 8 x :: leBytes n (x / 256)

def u8 (x : Nat) : List Byte := leBytes 1 x
def u16 (x : Nat) : List Byte := leBytes 2 x
def u32 (x : Nat) : List Byte := leBytes 4 x
def u64 (x : Nat) : List Byte := leBytes 8 x

/-- A signed value as an unsigned number of `n` bytes (two's complement). -/
def ofInt (n : Nat) (x : Int) : Nat := (x % (2 ^ (8 * n) : Nat)).toNat

/-- The signed value of an `n`-byte number (two's complement). -/
def toInt (n : Nat) (x : Nat) : Int :=
  if x % 2 ^ (8 * n) < 2 ^ (8 * n - 1) then ((x % 2 ^ (8 * n) : Nat) : Int)
  else ((x % 2 ^ (8 * n) : Nat) : Int) - (2 ^ (8 * n) : Nat)

/-- The number in bytes `off` to `off + len - 1`. -/
def fieldAt (bs : List Byte) (off len : Nat) : Nat := leNat ((bs.drop off).take len)

/-- Bits `lo` to `lo + len - 1` of a number. -/
def bits (x lo len : Nat) : Nat := x / 2 ^ lo % 2 ^ len

/-- One bit of a number. -/
def bit (x i : Nat) : Bool := x.testBit i

/-- A Bool as 0 or 1. -/
def b2n (b : Bool) : Nat := if b then 1 else 0

/-- A number with one bit set or cleared. -/
def setBit (x i : Nat) (b : Bool) : Nat :=
  if b then x ||| 2 ^ i else if x.testBit i then x - 2 ^ i else x

/-- One step of the reflected CRC-32C over a bit (R81). -/
def crcBit (c : Nat) : Nat := if c % 2 = 1 then (c / 2) ^^^ 0x82F63B78 else c / 2

/-- The CRC register after one byte (R81). -/
def crcByte (c : Nat) (b : Byte) : Nat :=
  crcBit (crcBit (crcBit (crcBit (crcBit (crcBit (crcBit (crcBit (c ^^^ b.toNat))))))))

/-- The CRC register after a byte string (R81). -/
def crcRun (c : Nat) (bs : List Byte) : Nat := bs.foldl crcByte c

/-- CRC-32C in standard form (R81). -/
def crc32c (bs : List Byte) : Nat := crcRun 0xFFFFFFFF bs ^^^ 0xFFFFFFFF

/-! ## Digests (06 R159) -/

/-- The number in bytes, most significant first. -/
def beNat (bs : List Byte) : Nat := leNat bs.reverse

/-- A text of decimal digits, most significant first. -/
def digits (n x : Nat) : List Byte := ((List.range n).map (fun i => BitVec.ofNat 8 (0x30 + x / 10 ^ i % 10))).reverse

/-- `n` bytes, most significant first (00 R10). -/
def beBytes (n x : Nat) : List Byte := (leBytes n x).reverse

/-- The serial number as a claim or a HELLO carries it: 40 bits (10 R266, R270, 12 R313). -/
def serial40 : Nat := Config.serial % 2 ^ 40

/-- Multiplication in the field of GCM (SP 800-38D): a block is a number whose bit 127 is the coefficient of 1. -/
def ghMulGo : Nat → Nat → Nat → Nat → Nat
  | 0, _, _, z => z
  | n + 1, x, v, z =>
    ghMulGo n x (if v % 2 = 1 then v / 2 ^^^ 0xE1000000000000000000000000000000 else v / 2) (if x.testBit n then z ^^^ v else z)

def ghMul (x y : Nat) : Nat := ghMulGo 128 x y 0

/-- The 16-byte blocks of a byte string padded with zeros. -/
def blocks16 (bs : List Byte) : List Nat :=
  (List.range ((bs.length + 15) / 16)).map (fun i =>
    let b := (bs.drop (16 * i)).take 16
    beNat (b ++ List.replicate (16 - b.length) 0))

/-- The digest of a byte string under a key: GHASH of its padded blocks and of the block of its bit length (R159). -/
def digest (key : Nat) (bs : List Byte) : Nat :=
  (blocks16 bs ++ [8 * bs.length % 2 ^ 64]).foldl (fun y b => ghMul (y ^^^ b) key) 0

/-! ## Stall memory: a canonical list of (address, byte), no listed byte equal to 0 -/

/-- The byte at an address; an unlisted byte reads 0. -/
def mget : Mem → Nat → Byte
  | [], _ => 0
  | (k, v) :: rest, a => if k = a then v else if a < k then 0 else mget rest a

/-- The memory without an address. -/
def mdel : Mem → Nat → Mem
  | [], _ => []
  | (k, v) :: rest, a => if k = a then rest else if a < k then (k, v) :: rest else (k, v) :: mdel rest a

/-- The memory with an address listed. -/
def mins : Mem → Nat → Byte → Mem
  | [], a, b => [(a, b)]
  | (k, v) :: rest, a, b =>
    if a < k then (a, b) :: (k, v) :: rest else if a = k then (a, b) :: rest else (k, v) :: mins rest a b

/-- The memory after one byte is written. -/
def mput (m : Mem) (a : Nat) (b : Byte) : Mem := if b = 0 then mdel m a else mins m a b

/-- The memory after bytes are written from an address up. -/
def mputs : Mem → Nat → List Byte → Mem
  | m, _, [] => m
  | m, a, b :: bs => mputs (mput m a b) (a + 1) bs

/-- `n` bytes from an address up. -/
def mgets (m : Mem) (a n : Nat) : List Byte := (List.range n).map (fun i => mget m (a + i))

/-- The little-endian value of `n` bytes (R58). -/
def mread (m : Mem) (a n : Nat) : Nat := leNat (mgets m a n)

/-- The memory after an `n`-byte little-endian value is written. -/
def mwrite (m : Mem) (a n x : Nat) : Mem := mputs m a (leBytes n x)

/-- The memory without the addresses from `lo` to `hi - 1`. -/
def mclear (m : Mem) (lo hi : Nat) : Mem := m.filter (fun c => !(lo ≤ c.1 && c.1 < hi))

/-- The memory restricted to the addresses from `lo` to `hi - 1`. -/
def mkeep (m : Mem) (lo hi : Nat) : Mem := m.filter (fun c => lo ≤ c.1 && c.1 < hi)

/-- Addresses strictly rising from a bound and no byte 0. -/
def mrising : Nat → Mem → Bool
  | _, [] => true
  | b, (k, v) :: rest => b ≤ k && v ≠ 0 && mrising (k + 1) rest

/-- The canonical form of a stall's memory. -/
def Mem.wf (m : Mem) : Bool := mrising 0 m

/-! ## Free values -/

/-- A fresh free value (log 6). -/
def freeVal (s : State) : Nat := Config.freeNat s.st.freeCount

/-- The state once a free value has been taken. -/
def freeNext (s : State) : State := { s with st.freeCount := s.st.freeCount + 1 }

/-! ## Dictionary values -/

/-- The value that a dictionary table gives an entry. -/
def dval (d : NMap Nat) (e : Entry) (idx sub inst : Nat) : Nat := nget d (ekey idx sub inst) (e.dfltAt sub)

/-- The stored value of an entry at an index, sub-index and instance. -/
def gvx (s : State) (e : Entry) (idx sub inst : Nat) : Nat :=
  dval (if e.sup then s.sup.dict else s.cnt) e idx sub inst

/-- The stored value of an entry at a sub-index and instance. -/
def gvs (s : State) (e : Entry) (sub inst : Nat) : Nat := gvx s e e.idx sub inst

/-- The stored value of an entry of an instance. -/
def gvi (s : State) (e : Entry) (inst : Nat) : Nat := gvx s e e.idx e.sub inst

/-- The stored value of an entry. -/
def gv (s : State) (e : Entry) : Nat := gvx s e e.idx e.sub 0

/-- The signed stored value of an entry at a sub-index and instance. -/
def gvsInt (s : State) (e : Entry) (sub inst : Nat) : Int := toInt e.len (gvs s e sub inst)

/-- Store an entry's value: a value equal to its default is not listed among the supervisor's; a counter once written stays
listed. -/
def svx (s : State) (e : Entry) (idx sub inst v : Nat) : State :=
  if e.sup then { s with sup.dict := nput s.sup.dict (ekey idx sub inst) v (e.dfltAt sub) }
  else { s with cnt := nset s.cnt (ekey idx sub inst) v }

def svs (s : State) (e : Entry) (sub inst v : Nat) : State := svx s e e.idx sub inst v
def svi (s : State) (e : Entry) (inst v : Nat) : State := svx s e e.idx e.sub inst v
def sv (s : State) (e : Entry) (v : Nat) : State := svx s e e.idx e.sub 0 v

/-- A counter advanced by `n`; past its width the spec states no value (log 7). -/
def bumpx (s : State) (e : Entry) (idx sub inst n : Nat) : State :=
  let v := gvx s e idx sub inst + n
  svx s e idx sub inst (if v < 256 ^ e.len then v else Config.counterPast v % 256 ^ e.len)

def bumps (s : State) (e : Entry) (sub inst n : Nat) : State := bumpx s e e.idx sub inst n
def bumpi (s : State) (e : Entry) (inst : Nat) : State := bumpx s e e.idx e.sub inst 1
def bump (s : State) (e : Entry) : State := bumpx s e e.idx e.sub 0 1

/-- A saturating block counter of a die advanced by 1 (R480). -/
def blockCount (s : State) (idx sub : Nat) : State :=
  let v := nget s.perf.blocks (ekey idx sub 0) 0
  { s with perf.blocks := nset s.perf.blocks (ekey idx sub 0) (min 0xFFFFFFFF (v + 1)) }

/-! ## Contexts -/

/-- The 16-bit context number used in records (R47): 0xFFFE service port, session number, 0x0100 plus the stall id. -/
def ctxCode (ctx : Nat) : Nat := if ctx = 0 then 0xFFFE else if ctx < 5000 then ctx - 1 else 0x100 + (ctx - 5000)

/-- Is the context a stall's? -/
def ctxIsStall (ctx : Nat) : Bool := 5000 ≤ ctx

/-- A context's data; an unknown context reads as an empty one. -/
def getCtx (s : State) (ctx : Nat) : Context := nget s.sup.ctxs ctx {}

/-- Change a context's data. -/
def updCtx (s : State) (ctx : Nat) (f : Context → Context) : State :=
  { s with sup.ctxs := nset s.sup.ctxs ctx (f (getCtx s ctx)) }

/-- A context's role number. -/
def roleOf (s : State) (ctx : Nat) : Nat := (getCtx s ctx).role

/-- Does a role satisfy a required role (02 Table 02-4)? -/
def roleOk (have_ need : Nat) : Bool :=
  if need ≤ 3 then need ≤ have_ else if need = 4 then have_ = 4 else if need = 5 then have_ = 5 else false

/-! ## Parts of the state -/

def updStall (s : State) (i : Nat) (f : Stall → Stall) : State := { s with sup.stalls := nupd s.sup.stalls i f }
def setStall (s : State) (i : Nat) (st : Stall) : State := { s with sup.stalls := nset s.sup.stalls i st }
def getStall? (s : State) (i : Nat) : Option Stall := nget? s.sup.stalls i
def updLane (s : State) (l : Nat) (f : Lane → Lane) : State := { s with lanes := vupd s.lanes l f }
def getLane (s : State) (l : Nat) : Lane := vget s.lanes l {}
def updHub (s : State) (h : Nat) (f : HubDie → HubDie) : State := { s with hubs := vupd s.hubs h f }
def getHub (s : State) (h : Nat) : HubDie := vget s.hubs h {}
def updVoter (s : State) (h : Nat) (f : Voter → Voter) : State := updHub s h (fun d => { d with voter := f d.voter })
def updRun (s : State) (c : Nat) (f : CoreRun → CoreRun) : State := { s with cyc.runs := vupd s.cyc.runs c f }
def getRun (s : State) (c : Nat) : CoreRun := vget s.cyc.runs c {}
def updShed (s : State) (i : Nat) (f : Shed → Shed) : State := { s with sup.en.sheds := vupd s.sup.en.sheds i f }
def getShed (s : State) (i : Nat) : Shed := vget s.sup.en.sheds i {}

/-- Is the hub in operation: neither failed nor restarting? -/
def hubUp (s : State) (h : Nat) : Bool := !(getHub s h).failed && !(getHub s h).restarting

/-- Does a hub send by its plane, consist ports, bridge interfaces, storage link and twin links: it is in operation, and its voter has
not failed (01 R21, 06 R171)? -/
def hubSends (s : State) (h : Nat) : Bool := hubUp s h && (getHub s h).voter.inService

/-- The shed of a consist port (08 Table 08-3). -/
def portShed (port : Nat) : Nat := if port < 8 then 4 + port / 4 else 8 + (port - 8) / 4

/-- Does a port of a session's path send: its hub sends, and its shed is neither CLOSED nor OPENING (08 R224)? The service port does. -/
def portSends (s : State) (p : Nat) : Bool := 16 ≤ p || (hubSends s (p / 8) && (getShed s (portShed p)).state < 2)

/-- Is the hub-to-hub link in operation at both ends? -/
def hubLinkUp (s : State) : Bool := !(vget s.ilinks 18 {}).failed && !(vget s.ilinks 19 {}).failed

/-- Does a hub hear an originating die (01 R12): 0 the lanes, 1 HA, 2 HB, 3 FX, 4 FY? It hears the other hub over the link between
them, and a field die over its own link with it. -/
def hears (s : State) (origin h : Nat) : Bool :=
  if origin = 0 || origin = h + 1 then true
  else if origin < 3 then hubLinkUp s
  else !(vget s.ilinks (17 + 2 * h + origin) {}).failed

/-- The hub that keeps the duties of HA (01 R18): HA, or HB while HA is failed. -/
def dutyHub (s : State) : Nat := if hubUp s 0 then 0 else 1

/-- Does the hub that has the boot flash, the loft and the settings store operate (01 R18)? Until they are handed over nothing is
written to them. -/
def storeWrites (s : State) : Bool := hubUp s s.upd.writer

/-- They are handed over to a hub (01 R18). -/
def handOver (s : State) (h : Nat) : State := { s with upd.writer := h }

/-- Is the lane in the lane set (R155)? -/
def inSet (s : State) (l : Nat) : Bool := (getLane s l).state = .inSet

/-- The members of the lane set. -/
def laneSet (s : State) : List Nat := [0, 1, 2].filter (inSet s)

/-- The lane set as the bits of LANE_SET. -/
def laneMask (s : State) : Nat := b2n (inSet s 0) + 2 * b2n (inSet s 1) + 4 * b2n (inSet s 2)

/-- Record what leaves the block. -/
def send (s : State) (e : Egress) : State := { s with egress := e :: s.egress }

/-! ## Event records (17) -/

/-- Source numbers of the dies (17 R418). -/
def srcLane (l : Nat) : Nat := 1 + l
def srcHub (h : Nat) : Nat := 0x10 + h
def srcField (f : Nat) : Nat := 0x20 + f
def srcStall (i : Nat) : Nat := 0x100 + i

/-- A bucket after it has refilled up to an instant: one unit per 100 us (R422). -/
def Bucket.refill (b : Bucket) (t : Nat) : Bucket :=
  { b with
    tokens := min 20000 (b.tokens + (t - b.at_) / 100000)
    at_ := if t < b.at_ then t else b.at_ + (t - b.at_) / 100000 * 100000 }

/-- Is a record never limited (R422)? -/
def unlimited (code sev : Nat) : Bool := 3 ≤ sev || code = 0x5001 || code = 0x5002

/-- A bucket after it has judged one record at an instant; true where the record passes (R422, R423). -/
def Bucket.judge (b : Bucket) (t sev : Nat) : Bool × Bucket :=
  let b := b.refill t
  if 1000 ≤ b.tokens then (true, { b with tokens := b.tokens - 1000 })
  else
    let r := match b.run with
      | none => { began := t, count := 1, first := t, last := t, sev := sev }
      | some r => { r with count := r.count + 1, last := t, sev := max r.sev sev }
    (false, { b with run := some r })

/-- The key of a pair of source and code at an originating die: 0 the lanes, 1 HA, 2 HB, 3 FX, 4 FY. -/
def pairKey (origin src code : Nat) : Nat := (origin * 65536 + src) * 65536 + code

/-- Give a record to every hub in operation that hears its originating die: it is on its way to each (R420, 01 R12), with the counters
in force (R421). -/
def deliver (s : State) (origin : Nat) (r : Record) : State :=
  let r := { r with opS := s.recd.seconds, pwr := s.recd.cycles }
  { s with hubs := s.hubs.mapIdx (fun h d =>
      if d.failed || d.restarting || !(hears s origin h) then d else { d with inflight := d.inflight ++ [r] }) }

/-- The 36 data bytes of a record (R417). -/
def recData (data : List Byte) : List Byte := (data ++ List.replicate 36 0).take 36

/-- Originate a record at a die (R420, R422); also answers whether it passed the rate limit. -/
def emitJ (s : State) (origin t src code sev : Nat) (data : List Byte) (stall : Nat) : Bool × State :=
  let r : Record :=
    { stamp := t, source := src, code := code, sev := sev, stall := stall, data := recData data }
  if unlimited code sev then (true, deliver s origin r)
  else
    let k := pairKey origin src code
    let b := nget (if origin = 0 then s.sup.buckets else s.recd.buckets) k {}
    let (ok, b) := b.judge t sev
    let s := if origin = 0 then { s with sup.buckets := nset s.sup.buckets k b }
      else { s with recd.buckets := nset s.recd.buckets k b }
    if ok then (true, deliver s origin r) else (false, bump s E.recSuppressed)

/-- A record of the lane supervisors, stamped T_k. -/
def emitL (s : State) (src code sev : Nat) (data : List Byte) (stall : Nat := 0xFFFF) : State :=
  (emitJ s 0 s.cyc.tk src code sev data stall).2

/-- A record of a hub's own observation. -/
def emitH (s : State) (hub t src code sev : Nat) (data : List Byte) : State :=
  (emitJ s (1 + hub) t src code sev data 0xFFFF).2

/-- The value of a field die's 100 MHz counter at an instant of the die in ns (R360, log 21). -/
def tickAt (t : Nat) : Nat := t / 10

/-- The train time of the counter stamp of an instant of a field die (R360): the newest sample's instant, scaled by the die's rate
over the last crossing; before the second sample, by the nominal rate (log 13). -/
def fieldTime (s : State) (die t : Nat) : Nat :=
  let d := vget s.field.dies die {}
  let span := d.counter - d.counterPrev
  let scale := fun n => if d.counterPrev = 0 || span = 0 then n * 10 else n * s.cyc.c / span
  if d.counter ≤ tickAt t then d.sampleAt + scale (tickAt t - d.counter) else d.sampleAt - scale (d.counter - tickAt t)

/-- A record of a field die's own observation, at an instant of the die; a SILENT die keeps up to 16 (R369). -/
def emitF (s : State) (die t code sev : Nat) (data : List Byte) : State :=
  let d := vget s.field.dies die {}
  if d.silent then
    if d.kept.length < 16 then
      let r : Record := { stamp := fieldTime s die t, source := srcField die, code := code, sev := sev, data := recData data }
      { s with field.dies := vupd s.field.dies die (fun d => { d with kept := d.kept ++ [r] }) }
    else s
  else (emitJ s (3 + die) (fieldTime s die t) (srcField die) code sev data 0xFFFF).2

/-- A field die delivers the events that it kept while SILENT (R369). -/
def flushKept (s : State) (die : Nat) : State :=
  let s' := (vget s.field.dies die {}).kept.foldl
    (fun s r => (emitJ s (3 + die) r.stamp r.source r.code r.sev r.data 0xFFFF).2) s
  { s' with field.dies := vupd s'.field.dies die (fun d => { d with kept := [] }) }

/-! ## Responses (02 R41 to R47) -/

/-- Abort classes (02 Table 02-8). -/
def abtAccess : Nat := 1
def abtObject : Nat := 2
def abtWidth : Nat := 3
def abtRange : Nat := 4
def abtState : Nat := 5
def abtLock : Nat := 6
def abtBusy : Nat := 7
def abtCapacity : Nat := 8
def abtTime : Nat := 9
def abtAuth : Nat := 10
def abtIntegrity : Nat := 11

/-- An abort code (R46). -/
def abort (cls detail : Nat) : Nat := cls * 0x1000000 + detail

/-- The rank of an abort class in the order of R45. -/
def abortRank (cls : Nat) : Nat :=
  match cls with
  | 2 => 0 | 10 => 1 | 1 => 2 | 3 => 3 | 6 => 4 | 7 => 5 | 5 => 6 | 4 => 7 | _ => 8

/-- The code that R45 chooses among the conditions met: the first class in its order, with the lowest detail; 0 for none. -/
def chooseAbort : List Nat → Nat
  | [] => 0
  | c :: cs =>
    let r := chooseAbort cs
    if c = 0 then r
    else if r = 0 then c
    else if abortRank (c / 0x1000000) < abortRank (r / 0x1000000) then c
    else if abortRank (r / 0x1000000) < abortRank (c / 0x1000000) then r
    else min c r

/-- A condition that refuses. -/
def refuseIf (p : Bool) (cls detail : Nat) : List Nat := if p then [abort cls detail] else []

/-- The session number of a context: 0xFFFE that of the service port. -/
def ctxSession (ctx : Nat) : Nat := if ctx = 0 then 0xFFFE else ctx - 1

/-- The context of a session number. -/
def sessCtx (n : Nat) : Nat := if n = 0xFFFE then 0 else n + 1

/-- A record is sealed at an instant (11 R301): the first one under a new phase starts the 10 s after which the old phase's keys
are erased. -/
def sealRec (e : Session) (t : Nat) : Session :=
  { e with
    lastTx := t, sealedCount := e.sealedCount + 1
    oldUntil := if e.oldUntil.isNone && nhas e.secrets ((e.phase + 3) % 4) then some (t + 10000000000) else e.oldUntil }

/-- A session takes its next lane-series number for a record that it seals at T_k (11 R295). -/
def laneTx (s : State) (n : Nat) : State :=
  { s with con.sessions := nupd s.con.sessions n (fun e => { sealRec e s.cyc.tk with txSeq := e.txSeq + 1 }) }

/-- The 12 octets of a DAP header (02 Table 02-6), most significant octet first (R10). -/
def dapHead (op reqId index sub flags elen plen : Nat) : List Byte :=
  u8 1 ++ u8 op ++ beBytes 2 reqId ++ beBytes 2 index ++ u8 sub ++ u8 flags ++ beBytes 2 elen ++ beBytes 2 plen

/-- The octets of a response (R40, R41): RESP, and ERR where it refuses; READ and WRITE give the entry length. -/
def respBytes (r : Resp) : List Byte :=
  dapHead r.op r.reqId r.index r.sub (if r.code = 0 then 0x80 else 0xC0) (if r.op ≤ 2 then r.elen else 0) r.data.length ++ r.data

/-- The identifier of a response item: the context, and above it one more than the port by which alone it leaves (08 R224). -/
def respIdent (r : Resp) : Nat := r.ctx + 65536 * (match r.via with | some p => p + 1 | none => 0)

/-- The 16 octets of a session record header (11 Table 11-1), most significant octet first (R10): `len` is the length of the body. -/
def sessHead (ty session key frag len seq : Nat) : List Byte :=
  u8 1 ++ u8 ty ++ beBytes 2 session ++ u8 (key % 4) ++ u8 frag ++ beBytes 2 len ++ beBytes 8 seq

/-- A session record as it is before it is sealed (11 R293, R294, log 8): header and body. -/
def sessRecord (s : State) (n ty seq : Nat) (body : List Byte) : List Byte :=
  sessHead ty n ((nget s.con.sessions n {}).phase) 0 body.length seq ++ body

/-- A response joins the output stream of the crossing as a voted item without a deadline (R43, 06 Table 06-5), kind 5 (log 16);
that of a session takes the session's next number. -/
def pushResp (s : State) (r : Resp) : State :=
  let s := if ctxIsStall r.ctx then s else laneTx s (ctxSession r.ctx)
  { s with sup.outs := s.sup.outs ++
      [{ ident := respIdent r, kind := 5, seq := ((nget? s.con.sessions (ctxSession r.ctx)).map (·.txSeq)).getD 0
         tag := r.reqId, num := s.sup.outs.length, data := respBytes r }] }

/-- Answer a request; the response stays listed until its effect is part of the agreed generation (R43, R180). -/
def respond (s : State) (r : Resp) : State :=
  let s := updCtx s r.ctx (fun c => { c with outstanding := c.outstanding - 1 })
  pushResp { s with sup.resps := s.sup.resps ++ [{ r with k := s.cyc.k }] } r

/-- Count a refusal of a context, or record it (R47). -/
def noteRefusal (s : State) (ctx idx sub code pkg : Nat) (own : Bool) : State :=
  let cls := code / 0x1000000
  if cls = abtCapacity || cls = abtAuth || cls = abtIntegrity then
    if own then s
    else
      let src := if ctxIsStall ctx then srcStall (ctx - 5000) else srcHub 0
      emitL s src 0x1044 1 (u32 code ++ u16 idx ++ u8 sub ++ u16 (ctxCode ctx) ++ u32 pkg)
        (if ctxIsStall ctx then ctx - 5000 else 0xFFFF)
  else updCtx s ctx (fun c => { c with refusals := c.refusals + 1 })

/-! ## Stallcode exceptions (04 R112 to R116) -/

/-- Segment bases (04 Table 04-1). -/
def baseCode : Nat := 0x10000000
def baseData : Nat := 0x20000000
def baseStack : Nat := 0x30000000
def baseRetain : Nat := 0x40000000
def baseMirror : Nat := 0x50000000
def baseImage : Nat := 0x60000000
def baseOutbox : Nat := 0x70000000
def baseDictwin : Nat := 0x80000000
def baseBulk : Nat := 0x100000000

/-- The status word bits of 03 Table 03-2. -/
def swExl : Nat := 23
def swBip : Nat := 22

/-- A status word with one bit set or cleared. -/
def swSet (w : Word) (i : Nat) (b : Bool) : Word :=
  if b then w ||| BitVec.ofNat 64 (2 ^ i) else w &&& ~~~ BitVec.ofNat 64 (2 ^ i)

/-- A general register; g0 reads 0 (R52). -/
def rget (x : Exec) (r : Reg) : Word := if r.val = 0 then 0 else x.regs[r]

/-- Write a general register; a write to g0 is discarded (R52, R53). -/
def rset (x : Exec) (r : Reg) (v : Word) : Exec := if r.val = 0 then x else { x with regs := x.regs.set r v }

/-- The cause field (R112). -/
def causeField (cause detail orig code : Nat) : Word :=
  BitVec.ofNat 64 (cause + detail * 256 + orig * 65536 + code * 4294967296)

/-- The frame of an exception at the pc (R113, 04 Table 04-8). -/
def mkFrame (x : Exec) (pc cause fa : Word) : Frame :=
  { pc := pc, sw := x.sw, cause := cause, fa := fa, fuel := BitVec.ofNat 64 x.fuel,
    g1 := rget x 1, g2 := rget x 2, g3 := rget x 3 }

/-- The 64 bytes of a frame (04 Table 04-8). -/
def frameBytes (f : Frame) : List Byte :=
  u64 f.pc.toNat ++ u64 f.sw.toNat ++ u64 f.cause.toNat ++ u64 f.fa.toNat ++ u64 f.fuel.toNat
    ++ u64 f.g1.toNat ++ u64 f.g2.toNat ++ u64 f.g3.toNat

/-- Do 64 bytes from an address lie within the declared STACK, the address a multiple of 8 (R113, R114)? -/
def frameOk (d : Descriptor) (a : Nat) : Bool :=
  a % 8 = 0 && baseStack ≤ a && a + 64 ≤ baseStack + d.stackSize

/-- What taking an exception leads to (R113). -/
inductive Entry113 where
  | fuelStop
  | faulted (cause : Nat)
  | entered (x : Exec)
  deriving DecidableEq, Repr

/-- Exception entry (R113): `x` is the execution state as at the exception, `p` the address that the frame holds. -/
def takeException (d : Descriptor) (x : Exec) (p fa : Word) (cause detail : Nat) : Entry113 :=
  if x.fuel < 4 then .fuelStop
  else if x.sw.getLsbD swExl then .faulted 0x11
  else if d.handlerPc = 0 then .faulted 0x12
  else
    let a := (rget x 31).toNat - 64
    if (rget x 31).toNat < 64 || !(frameOk d a) then .faulted 0x10
    else
      let f := mkFrame x p (causeField cause detail 0 0) fa
      let x1 := rset { x with mem := mputs x.mem a (frameBytes f) } 31 (BitVec.ofNat 64 a)
      .entered { x1 with
        sw := swSet (swSet x.sw swExl true) swBip false
        pc := d.handlerPc
        fuel := x.fuel - 4
        exceptions := x.exceptions + 1 }

/-- What returning from an exception handler leads to (R87, R114). -/
inductive Ret87 where
  | illegal
  | badFrame
  | returned (x : Exec)
  deriving DecidableEq, Repr

/-- Exception return (R87, R114). -/
def exceptionReturn (d : Descriptor) (x : Exec) : Ret87 :=
  let a := (rget x 31).toNat
  if !(x.sw.getLsbD swExl) then .illegal
  else if !(frameOk d a) then .badFrame
  else
    let w := fun off => BitVec.ofNat 64 (mread x.mem (a + off) 8)
    let x1 := rset (rset (rset x 1 (w 40)) 2 (w 48)) 3 (w 56)
    .returned { rset x1 31 (BitVec.ofNat 64 (a + 64)) with
      pc := w 0
      sw := w 8 &&& BitVec.ofNat 64 (2 ^ 22 + 0x1F00 + 0x1F) }

end Sys2Proof.Machine
end

