-- ==== Sys2Proof/Machine/Operands.lean ====
section
/-!
DEFINITION. Every operand form of Stallcode: registers and immediates, segment checks of loads, stores, fetches, block
granules and SVC pointers, the DICTWIN slots, and the entries that a context reaches.
-/

namespace Sys2Proof.Machine

/-! ## Immediates and targets (03 Table 03-3) -/

def sext16 (v : BitVec 16) : Word := v.signExtend 64
def zext16 (v : BitVec 16) : Word := v.zeroExtend 64

/-- The target of a branch: pc + 4 x sext(off16). -/
def target16 (pc : Word) (off : BitVec 16) : Word := pc + (off.signExtend 64 <<< 2)

/-- The target of a jump: pc + 4 x sext(off26). -/
def target26 (pc : Word) (off : BitVec 26) : Word := pc + (off.signExtend 64 <<< 2)

/-- The effective address of a load or store (R66). -/
def effAddr (x : Exec) (ra : Reg) (disp : BitVec 16) : Word := rget x ra + sext16 disp

/-! ## Segments (04 R92 to R94) -/

/-- Is the address in the declared extent of a segment? -/
def inSeg (base size a : Nat) : Bool := base ≤ a && a < base + size

/-- May the stall read the byte (R94), DICTWIN aside? -/
def canRead (d : Descriptor) (a : Nat) : Bool :=
  inSeg baseCode d.codeSize a || inSeg baseData d.dataSize a || inSeg baseStack d.stackSize a
    || inSeg baseRetain d.retainSize a || inSeg baseMirror d.mirrorSize a || inSeg baseImage d.imageSize a
    || inSeg baseOutbox d.outboxSize a || inSeg baseBulk d.bulkSize a

/-- May the stall write the byte (R94), DICTWIN aside? -/
def canWrite (d : Descriptor) (a : Nat) : Bool :=
  inSeg baseData d.dataSize a || inSeg baseStack d.stackSize a
    || inSeg baseRetain d.retainSize a || inSeg baseMirror d.mirrorSize a
    || inSeg baseOutbox d.outboxSize a || inSeg baseBulk d.bulkSize a

/-- Does the address lie in the DICTWIN segment? -/
def inDictwin (a : Nat) : Bool := inSeg baseDictwin 65536 a

/-- The first of `n` addresses from `a` up that fails a check. -/
def firstBad (ok : Nat → Bool) : Nat → Nat → Option Nat
  | _, 0 => none
  | a, n + 1 => if ok (a % 2 ^ 64) then firstBad ok (a + 1) n else some (a % 2 ^ 64)

/-! ## Entries and instances (02 R34 to R37) -/

/-- A binary32 or binary64 pattern as an integer of the same order, both zeros as 0. -/
def floatOrder (len v : Nat) : Int :=
  let m := v % 2 ^ (8 * len - 1)
  if v / 2 ^ (8 * len - 1) % 2 = 1 then - (m : Int) else (m : Int)

/-- A stall-defined declaration as an entry (23 R536, R537). -/
def declEntry (c : Decl) : Entry :=
  { idx := c.index, idxHi := c.index, sub := c.sub, subHi := c.sub, ty := c.ty, len := c.len, rd := c.readRole,
    wr := c.writeRole, stall := 2, persist := c.persistent, lock := 0xFFFF, stopOnly := false, pair := false,
    lim := if 2 ≤ c.ty && c.ty ≤ 5 || c.ty = 14 then some ((c.min : Int), (c.max : Int))
      else if 6 ≤ c.ty && c.ty ≤ 9 || c.ty = 15 then some (toInt c.len c.min, toInt c.len c.max)
      else if c.ty = 10 || c.ty = 11 then some (floatOrder c.len c.min, floatOrder c.len c.max) else none,
    dflt := c.dflt, sel := .none, sup := true }

/-- Sub-index 0x00 of a stall-defined index (R27). -/
def declCount (decls : List Decl) (idx : Nat) : Option Entry :=
  match (decls.filter (fun c => c.index = idx)).map (·.sub) with
  | [] => none
  | x :: xs => some (countEntry idx true (xs.foldl max x))

/-- The stall that a stall-defined index is allotted to, with its id. -/
def allottee (s : State) (idx : Nat) : Option (Nat × Stall) :=
  s.sup.stalls.find? (fun p => p.2.desc.dictBase ≤ idx && idx < p.2.desc.dictBase + p.2.desc.dictCount)

/-- The entry at an index and sub-index, stall-defined ones included (23 R531, R536). -/
def lookupEntry (s : State) (idx sub : Nat) : Option Entry :=
  if 0x6000 ≤ idx && idx ≤ 0x7FFF then
    match allottee s idx with
    | none => none
    | some (_, st) =>
      if sub = 0 then declCount st.decls idx else (st.decls.find? (fun c => c.index = idx && c.sub = sub)).map declEntry
  else if sub = 0 then subZero idx
  else findEntry idx sub

/-- The position of a select entry among the values that a context holds (02 Table 02-5). -/
def selPos (idx : Nat) : Nat :=
  match idx with
  | 0x2000 => 0 | 0x2040 => 1 | 0x2200 => 2 | 0x2580 => 3 | 0x3000 => 4 | 0x3100 => 5 | 0x3200 => 6 | 0x3400 => 7
  | 0x3500 => 8 | 0x4000 => 9 | 0x4100 => 10 | 0x4200 => 11 | 0x4300 => 12 | _ => 14

/-- A context's value of a select entry (R35). -/
def selVal (c : Context) (pos : Nat) : Nat := vget c.sels pos 0

/-- The instance number that a context's select values name for an entry (R36). -/
def instOf (c : Context) (sel : Sel) : Nat :=
  match sel with
  | .none => 0
  | .ctx => 0
  | .lane => selVal c 0
  | .core => selVal c 0 * 16 + selVal c 1
  | .stall => selVal c 2
  | .trig => selVal c 3
  | .link => selVal c 4
  | .slot => selVal c 5
  | .node => selVal c 6
  | .port => selVal c 7
  | .session => selVal c 8
  | .di => selVal c 9
  | .dout => selVal c 10
  | .saf => selVal c 11
  | .ai => selVal c 12

/-- Does the instance exist (R37)? Slots are entries of the plan in force, nodes those of the roster in force, sessions the
numbers held, stalls those not EMPTY and triggers those held; every other instance always exists. -/
def instExists (s : State) (sel : Sel) (inst : Nat) : Bool :=
  match sel with
  | .stall => nhas s.sup.stalls inst
  | .trig => true
  | .slot => s.bb.inForce.entries.any (fun p => p.slot = inst)
  | .node => inst < s.bb.roster.nodes
  | .session => nhas s.con.sessions inst
  | _ => true

/-- Natural size of an entry in DICTWIN (02 Table 02-2). -/
def natSize (e : Entry) : Nat := if e.ty = 12 || e.ty = 13 then 8 else e.len

/-- How many slots an entry takes (R48). -/
def slotCount (e : Entry) : Nat := if e.len ≤ 8 then 1 else (e.len + 7) / 8

/-- The map item that covers a slot, with its entry. An item whose entry no descriptor in force allots covers nothing, so that an access to
its slot is one to an unmapped slot, ACC detail 4: DESIGN CHOICE (log 133), for R107 does not say what it raises. -/
def slotItem (s : State) (st : Stall) (slot : Nat) : Option (MapItem × Entry) :=
  match st.map.find? (fun m => match lookupEntry s m.index m.sub with
      | some e => m.slot ≤ slot && slot < m.slot + slotCount e
      | none => false) with
  | none => none
  | some m => (lookupEntry s m.index m.sub).map (fun e => (m, e))

/-- What a data access comes to: a value or a place to write, or the exception's cause, detail and fault address. -/
inductive Acc where
  | mem (a : Nat)
  | dict (slot off : Nat)
  | bad (cause detail : Nat) (fa : Word)
  deriving DecidableEq, Repr

/-- Check a load or store of `n` bytes (R66, R49). -/
def checkAccess (s : State) (st : Stall) (ea : Word) (n : Nat) (write : Bool) : Acc :=
  let a := ea.toNat
  if a % n ≠ 0 then .bad 2 (if write then 2 else 1) ea
  else if inDictwin a then
    let slot := (a - baseDictwin) / 8
    let off := (a - baseDictwin) % 8
    if slot = 0 then
      if write || 8 < off + n then .bad 3 4 ea else .dict 0 off
    else
      match slotItem s st slot with
      | none => .bad 3 4 ea
      | some (m, e) =>
        let nat_ := natSize e
        if write then
          if n = nat_ && off = 0 && m.write then .dict slot 0 else .bad 3 4 ea
        else if off + n ≤ nat_ then .dict slot off else .bad 3 4 ea
  else
    match firstBad (if write then canWrite st.desc else canRead st.desc) a n with
    | some _ => .bad 3 (if write then 2 else 1) ea
    | none => .mem a

/-- The value of a DICTWIN slot for the running activation (R48, R50). -/
def slotValue (st : Stall) (slot : Nat) : Nat :=
  match nget? st.dwWrites slot with
  | some v => v
  | none => nget st.dwImage slot 0

/-- Is a byte readable for a block granule or an SVC pointer: every DICTWIN byte fails (R77, R86)? -/
def blockRead (d : Descriptor) (a : Nat) : Bool := canRead d a

/-- Is a byte writable for a block granule (R77)? -/
def blockWrite (d : Descriptor) (a : Nat) : Bool := canWrite d a

/-- The memory level of an address: 0 scratchpad, 1 lane SRAM, 2 LPDDR5 (R60, R96). -/
def levelOf (st : Stall) (a : Nat) : Nat :=
  if inSeg baseCode st.desc.codeSize a then st.placed.getD 0 1
  else if inSeg baseData st.desc.dataSize a then st.placed.getD 1 1
  else if inSeg baseStack st.desc.stackSize a then st.placed.getD 2 1
  else if inSeg baseBulk st.desc.bulkSize a then 2
  else 1

/-- May the stall fetch an instruction from the address (R94)? The pc is a multiple of 4 (R54); a frame may give ERET another
one, at which no word stands, and its fetch then fails (log 28). -/
def canFetch (d : Descriptor) (pc : Word) : Bool := inSeg baseCode d.codeSize pc.toNat && pc.toNat % 4 = 0

end Sys2Proof.Machine
end

