-- ==== Sys2Proof/Machine/Dap.lean ====
section
/-!
DEFINITION. Judging and applying a dictionary write (02 R29 to R47), the maintenance arbiter (21 R502 to R510), the change
log (23 R534), and the arrival of a DAP message (02 R40 to R43, R541).
-/

namespace Sys2Proof.Machine

/-- A write as it is judged at its boundary. -/
structure WReq where
  ctx : Nat
  idx : Nat
  sub : Nat
  inst : Nat := 0
  /-- length in bytes as declared by the request -/
  len : Nat
  /-- little-endian value of the payload -/
  v : Nat
  reqId : Nat := 0
  /-- does a DAP request wait for the answer? -/
  answer : Bool := true
  /-- entry length field of the request, echoed in the response (R40) -/
  elen : Nat := 0
  /-- role that the context held at the request's place in its order (R42); none: the role that it holds -/
  role : Option Nat := none
  deriving DecidableEq, Repr

/-! ## Safety points (05 R145, 15 R389) -/

/-- A safety parameter: of the pending set where one is asked for and holds the parameter, else of the active set. -/
def safParam (s : State) (pend : Bool) (e : Entry) (sub inst : Nat) : Nat :=
  match (if pend then nget? s.saf.pending (ekey e.idx sub inst) else none) with
  | some v => v
  | none => gvs s e sub inst

/-- Is a pair a member of an instance in use? -/
def safUsesPair (s : State) (pend : Bool) (p : Nat) : Bool :=
  (List.range 32).any (fun i =>
    safParam s pend E.safType 1 i ≠ 0 &&
      (safParam s pend E.safPairA 2 i = p || safParam s pend E.safPairB 3 i = p || safParam s pend E.safStartPair 4 i = p))

/-- Is a DI channel a safety point: a member of an instance? Pair n is DIXn with DIYn. -/
def safDi (s : State) (pend : Bool) (ch : Nat) : Bool := safUsesPair s pend (ch % 32)

/-- The role of a DO channel (15 R389): 0 standard, 1 safety output, 2 cut-off. -/
def doRole (s : State) (pend : Bool) (ch : Nat) : Nat :=
  let n := ch % 16
  let x := bit (safParam s pend E.safOutX 2 0) n
  let y := bit (safParam s pend E.safOutY 3 0) n
  if ch < 16 then (if x then 1 else if y then 2 else 0) else (if y then 1 else if x then 2 else 0)

/-- Is a point a safety point (05 R145)? Kind 1 DI, 2 DO, 3 analog; no rule declares an analog channel safety-related. -/
def safetyPoint (s : State) (pend : Bool) (kind ch : Nat) : Bool :=
  if kind = 1 then safDi s pend ch else if kind = 2 then doRole s pend ch ≠ 0 else false

/-! ## The maintenance arbiter (21) -/

/-- Is a stall change in progress (21 Table 21-1)? -/
def stallChanging (s : State) : Bool :=
  s.sup.stalls.any (fun p => p.2.state = .loading || p.2.state = .unloading || p.2.loading.isSome)

/-- Is a re-stabling in progress: from the completion of the target's reset until it joins or is abandoned? -/
def restabling (s : State) : Bool :=
  s.lanes.toList.any (fun l => match l.attempt with | some a => 2 ≤ a.phase && a.phase ≤ 4 | none => false)

/-- Number of forces in being. -/
def forceCount (s : State) : Nat := s.sup.forceDi.length + s.sup.forceDo.length + s.sup.forceAi.length

/-- Number of stalls HELD. -/
def heldCount (s : State) : Nat := (s.sup.stalls.filter (fun p => p.2.state = .held)).length

/-- The activities in progress, as the bits of ARB_ACTIVE (R502). -/
def arbActive (s : State) : Nat :=
  b2n (s.upd.transfer.isSome && !s.upd.paused) + 8 * b2n (0 < forceCount s) + 16 * b2n (0 < heldCount s)
    + 32 * b2n s.recd.freeze.isSome + 64 * b2n s.recd.clearPoint.isSome + 128 * b2n s.saf.edit.isSome
    + 512 * b2n (stallChanging s) + 1024 * b2n (restabling s) + 2048 * b2n s.supply.powerFail.isSome

/-- A force that R507 refuses while a safety edit is open: its channel would be a safety point in the pending set. -/
def forceMeetsEdit (s : State) (kind ch : Nat) : Bool := s.saf.edit.isSome && safetyPoint s true kind ch

/-- Is a forced channel a safety point in the pending set (R507)? -/
def commitMeetsForce (s : State) : Bool :=
  s.sup.forceDi.any (fun p => safetyPoint s true 1 p.1) || s.sup.forceDo.any (fun p => safetyPoint s true 2 p.1)

/-- Did a freeze end within the last 10 s (17 R431)? -/
def freezeBar (s : State) : Bool :=
  match s.recd.freezeEnded with
  | some t => s.cyc.tk < t + 10000000000
  | none => false

/-- The bit that blocks a requested activity, where the arbiter refuses it (R503 to R507). `kind` and `ch` name the point of
a force. Freeze and clear are judged with R431's own bar. -/
def arbBlock (s : State) (act kind ch : Nat) : Option Nat :=
  let a := arbActive s
  let first := fun (l : List (Bool × Nat)) => (l.find? (fun p => p.1)).map Prod.snd
  match act with
  | 1 => first [(s.sup.arbArm, 1), (s.sup.arbTack, 2), (bit a 7, 7), (bit a 11, 11)]
  | 2 => first [(bit a 0, 0), (s.sup.arbArm, 1), (bit a 11, 11)]
  | 3 => first [(forceMeetsEdit s kind ch, 7), (bit a 11, 11)]
  | 5 => first [(bit a 5 || freezeBar s, 5), (bit a 6, 6), (bit a 11, 11)]
  | 6 => first [(bit a 5, 5), (bit a 6, 6), (bit a 11, 11)]
  | 7 => first [(s.sup.arbArm, 1), (bit a 11, 11)]
  | 8 => first [(commitMeetsForce s, 3), (bit a 11, 11)]
  | _ => first [(bit a 11, 11)]

/-- Count and describe a refusal by the arbiter (R510). -/
def arbRefuse (s : State) (w : WReq) (blk : Nat) : State :=
  sv (bump s E.arbRefused) E.arbLastRefusal
    (leNat (u16 w.idx ++ u8 w.sub ++ u8 blk ++ u16 (ctxCode w.ctx) ++ u16 0))

/-! ## Conditions that every write meets (02 R29 to R39) -/

/-- Does the value break the encoding of its type (R29)? -/
def badEncoding (e : Entry) (v : Nat) : Bool :=
  match e.ty with
  | 1 => 1 < v
  | 10 => bits v 23 8 = 255
  | 11 => bits v 52 11 = 2047
  | 13 =>
    let bs := (leBytes e.len v).map BitVec.toNat
    let txt := bs.takeWhile (· ≠ 0)
    txt.any (fun c => c < 0x20 || 0x7E < c) || (bs.drop txt.length).any (· ≠ 0)
  | 15 => bits v 48 16 ≠ (if bit v 47 then 65535 else 0)
  | _ => false

/-- The numeric value of an entry's bytes. -/
def numVal (e : Entry) (v : Nat) : Int :=
  if 6 ≤ e.ty && e.ty ≤ 9 || e.ty = 15 then toInt e.len v
  else if e.ty = 10 || e.ty = 11 then floatOrder e.len v else (v : Int)

/-- Is the value outside the entry's limits (R30)? -/
def offLimits (e : Entry) (v : Nat) : Bool :=
  match e.lim with
  | none => false
  | some (lo, hi) => numVal e v < lo || hi < numVal e v

/-- Is a lock bit set (R38)? -/
def lockBit (s : State) (n : Nat) : Bool := bit (gvs s E.lockBits (n / 64 + 1) 0) (n % 64)

/-- The role with which a write is judged (R42). -/
def WReq.roleIn (w : WReq) (s : State) : Nat := w.role.getD (roleOf s w.ctx)

/-- The role that a write needs: the entry's write role, and Engineer for an UNLOAD (04 R102). -/
def needRole (w : WReq) (e : Entry) : Nat := if e.idx = 0x2201 && e.sub = 1 && w.v = 4 then 3 else e.wr

/-- The access conditions of a write (R31, R33, R34). -/
def accessConds (s : State) (w : WReq) (e : Entry) : List Nat :=
  if e.wr = 255 then [abort abtAccess 0xFF]
  else if ctxIsStall w.ctx then
    match getStall? s (w.ctx - 5000) with
    | none => [abort abtAccess 0xFF]
    | some st =>
      if 0x6000 ≤ w.idx then
        refuseIf (!(st.desc.dictBase ≤ w.idx && w.idx < st.desc.dictBase + st.desc.dictCount)) abtAccess 0xFF
      else
        refuseIf (e.stall ≠ 2 || !(st.desc.rights.getLsbD 1)) abtAccess 0xFF
          ++ refuseIf (0x5300 ≤ w.idx && w.idx ≤ 0x53FF && !(st.desc.rights.getLsbD 2)) abtAccess 0xFF
  else if e.wr = 254 then []
  else refuseIf (!roleOk (w.roleIn s) (needRole w e)) abtAccess (needRole w e)

/-- Every condition that does not depend on the entry's own behaviour (R45), that of a pair-scope write at a module that does
not hold the lease (12 R330) among them. -/
def genericConds (s : State) (w : WReq) (e : Entry) : List Nat :=
  refuseIf (!instExists s e.sel w.inst) abtObject 1
    ++ accessConds s w e
    ++ refuseIf (w.len ≠ e.len) abtWidth e.len
    ++ refuseIf (e.lockAt w.sub ≠ 0xFFFF && lockBit s (e.lockAt w.sub)) abtLock (e.lockAt w.sub)
    ++ refuseIf (e.persist && s.supply.powerFail.isSome) abtBusy 1
    ++ refuseIf (e.stopOnly && s.sup.mode ≠ 2) abtState 1
    ++ refuseIf (e.pair && !(s.twin.lease = 3 || s.twin.lease = 4)) abtState 3
    ++ refuseIf (badEncoding e w.v) abtRange 2
    ++ refuseIf (!(badEncoding e w.v) && offLimits e w.v) abtRange 0

/-! ## Applying a write -/

/-- How an entry behaves when it is written. -/
structure Handler where
  /-- conditions of its own, beside those that every write meets -/
  conds : State → WReq → List Nat := fun _ _ => []
  /-- its effect once the write is accepted; the answer is success unless `held` -/
  eff : State → WReq → State
  /-- the activity of 21 Table 21-1 that it starts, with kind and channel of a force -/
  act : WReq → Option (Nat × Nat × Nat) := fun _ => none
  /-- does the refusing rule name an event of its own (R47)? It is then recorded by `refused`. -/
  own : Bool := false
  refused : State → WReq → Nat → State := fun s _ _ => s
  /-- the package number that a refusal's event names (R47) -/
  pkg : WReq → Nat := fun _ => 0
  /-- the answer is given later by the effect itself -/
  held : Bool := false
  /-- logged in CHG_LOG (R534) where the entry is persistent -/
  log : Bool := true

/-- The answer to a write. -/
def answerW (s : State) (w : WReq) (code : Nat) : State :=
  if w.answer && !(ctxIsStall w.ctx) then
    respond s { ctx := w.ctx, reqId := w.reqId, op := 2, index := w.idx, sub := w.sub, code := code, elen := w.elen
                data := if code = 0 then [] else (u32 code).reverse }
  else if ctxIsStall w.ctx && code ≠ 0 then
    updStall s (w.ctx - 5000) (fun st => { st with dwAbort := code, dwCount := min 0xFFFFFFFF (st.dwCount + 1) })
  else s

/-- A write to a persistent entry is logged (R534) and goes to the settings store within its time (18 R460). -/
def logWrite (s : State) (w : WReq) (e : Entry) : State :=
  let c : Chg :=
    { at_ := s.cyc.tk, index := w.idx, sub := w.sub, ctx := ctxCode w.ctx
      role := if ctxIsStall w.ctx then 0xFF else w.roleIn s
      inst := if e.sel = .none || e.sel = .ctx then 0xFFFF else w.inst }
  { s with
    sup.chg := nset s.sup.chg (s.sup.chgCount % 16) c
    sup.chgCount := s.sup.chgCount + 1
    upd.storeDue := nset s.upd.storeDue (ekey w.idx w.sub w.inst) (w.v, s.cyc.k) }

/-- The bit by which the arbiter blocks the activity that a write starts (R503). -/
def writeBlock (h : Handler) (s : State) (w : WReq) : Option Nat :=
  match h.act w with
  | none => none
  | some (a, kind, ch) => arbBlock s a kind ch

/-- The code with which a write is refused, or 0 (R45). -/
def judgeW (h : Handler) (e : Entry) (s : State) (w : WReq) : Nat :=
  chooseAbort (genericConds s w e ++ refuseIf (writeBlock h s w).isSome abtBusy 1 ++ h.conds s w)

/-- The activity that a refusal names (R503, R510), the first in column order: a safety edit of another context (15 R397) stands after
every activity but power-fail. -/
def blockingBit (h : Handler) (s : State) (w : WReq) (blk : Option Nat) : Nat :=
  let edit := (h.conds s w).contains (abort abtBusy 1)
  match blk with
  | some b => if b = 11 && edit then 7 else b
  | none => if edit then 7 else 11

/-- Judge a write and apply it or refuse it (R43 to R47, R503). -/
def applyW (h : Handler) (e : Entry) (s : State) (w : WReq) : State :=
  let blk := writeBlock h s w
  let code := judgeW h e s w
  if code = 0 then
    let s := h.eff s w
    let s := if e.persist && h.log then logWrite s w e else s
    let s := if e.pair then
        { s with twin.pairWrites := s.twin.pairWrites ++ [{ index := w.idx, sub := w.sub, inst := w.inst, value := w.v }] }
      else s
    if h.held then s else answerW s w 0
  else
    let s := if code = abort abtBusy 1 then arbRefuse s w (blockingBit h s w blk) else s
    let s := if h.own then h.refused s w code else s
    answerW (noteRefusal s w.ctx w.idx w.sub code (h.pkg w) h.own) w code

/-- Store the value in the entry: the behaviour of an entry without one of its own. -/
def storeEff (e : Entry) (s : State) (w : WReq) : State := svx s e w.idx w.sub w.inst w.v

/-- The handler of an entry that only keeps its value. -/
def storeHandler (e : Entry) : Handler := { eff := storeEff e }

/-- A write request of a command: the context's own select values name the instance (R36). -/
def mkW (s : State) (ctx idx sub len v : Nat) (e : Entry) : WReq :=
  { ctx := ctx, idx := idx, sub := sub, inst := instOf (getCtx s ctx) e.sel, len := len, v := v, answer := false }

/-- A write command of the table: the write is applied at the present boundary. A context that is not open writes
nothing (log 3). -/
def writeCmd (h : Handler) (e : Entry) (ctx idx sub v : Nat) (s : State) : State :=
  if nhas s.sup.ctxs ctx then applyW h e s (mkW s ctx idx sub e.len v e) else s

/-! ## Arrival of DAP messages (02 R40 to R43, R541) -/

/-- Is the payload of a LOGIN a role and a password (R541)? -/
def loginBody (body : List Byte) : Bool :=
  13 ≤ body.length && body.length ≤ 65 && 1 ≤ fieldAt body 0 1 && fieldAt body 0 1 ≤ 5
    && (body.drop 1).all (fun c => 0x20 ≤ c.toNat && c.toNat ≤ 0x7E)

/-- Is a LOGIN well formed (R541)? -/
def loginFormed (elen : Nat) (body : List Byte) : Bool := elen = 0 && loginBody body

/-- Is a role locked out (18 R467)? -/
def lockedOut (s : State) (role : Nat) : Bool := (vget s.upd.pwds role {}).lockedAt.isSome

/-- Does a write reach an entry whose value is a password (18 R466, 17 R432)? -/
def carriesPassword (idx sub : Nat) : Bool := (idx = 0x1110 && 1 ≤ sub && sub ≤ 5) || (idx = 0x5000 && sub = 13)

/-- Is a request held until a password derivation completes (18 R467)? -/
def needsDerivation (s : State) (op : Nat) (m : DapMsg) : Bool :=
  if op = 3 then loginFormed m.elen m.body && !(lockedOut s (fieldAt m.body 0 1))
  else op = 2 && carriesPassword m.index m.sub

/-- A DAP message that is malformed is discarded unanswered, and counted with the context's refusals (R541). -/
def dapDiscard (s : State) (ctx : Nat) : State :=
  if nhas s.sup.ctxs ctx then updCtx s ctx (fun c => { c with refusals := c.refusals + 1 }) else s

/-- A DAP message arrives in crossing j: it is discarded, refused at once, or enters the image of crossing j + 1; a WRITE
is applied at boundary j + 2. A request that carries a password arrives when its derivation completes. `via` is the port, where its
shed is CLOSING (08 R224); `hubs` has a bit for each hub whose image carries it, and `seq` is the number of its record. -/
def dapArrive (s : State) (ctx op : Nat) (m : DapMsg) (via : Option Nat := none) (hubs seq : Nat := 0) : State :=
  match nget? s.sup.ctxs ctx with
  | none => s
  | some c =>
    if m.version ≠ 1 || m.flags ≠ 0 || m.plen ≠ m.body.length || op = 0 || 5 < op then
      dapDiscard s ctx
    else if 16 ≤ c.outstanding then
      pushResp (updCtx s ctx (fun c => { c with refusals := c.refusals + 1 }))
        { ctx := ctx, reqId := m.reqId, op := op, index := m.index, sub := m.sub, elen := m.elen, code := abort abtBusy 2
          via := via, data := (u32 (abort abtBusy 2)).reverse }
    else
      let s := updCtx s ctx (fun c => { c with outstanding := c.outstanding + 1 })
      let r : Request := { ctx := ctx, due := s.cyc.k + 2, reqId := m.reqId, op := op, index := m.index, sub := m.sub,
                           elen := m.elen, payload := m.body, via := via, hubs := hubs, seq := seq }
      if via.isNone && needsDerivation s op m then { s with upd.jobs := s.upd.jobs ++ [{ since := s.cyc.tk, req := r }] }
      else { s with sup.reqs := s.sup.reqs ++ [r] }

end Sys2Proof.Machine
end

