-- ==== Sys2Proof/Machine/Outbox.lean ====
section
/-!
DEFINITION. What leaves a stall at the end of an activation: the outcomes of its posted messages and events (05 R134 to R136,
11 R305, 17 R420), the sequence numbers they take (09 R247, 11 R295) and the slots of the plan in force (09 R231, R242).
-/

namespace Sys2Proof.Machine

/-! ## Slots of the plan in force -/

/-- The train crossing number of a crossing that begins at an instant (05 R119). -/
def trainX (s : State) (tk : Nat) : Nat := tk / s.cyc.c

/-- Is an entry of a plan due in a train crossing (09 Table 09-7)? -/
def slotDue (p : PlanEntry) (x : Nat) : Bool := x % 2 ^ p.period = p.phase

/-! ## Vehicle numbers (10 R277) -/

/-- The vehicles of this unit's configured plan. -/
def ownVehicles (s : State) : Nat := (s.bb.configured.map (·.vehicles)).getD 0

/-- The train vehicle of a vehicle of the unit's own numbering, in a unit of base `b` and `n` vehicles. -/
def unitVehicle (b n : Nat) (reversed : Bool) (v : Nat) : Nat :=
  if 1 ≤ v && v ≤ n then (if reversed then b + n + 1 - v else b + v) else v

/-- The train identifier of an identifier in the unit's own numbering. -/
def trainIdent (s : State) (i : Nat) : Nat :=
  i / 64 * 64 + unitVehicle s.bb.vbase (ownVehicles s) s.bb.unitReversed (i % 64)

/-- The source under which a telegram of a train identifier is adopted: the unit's own numbering for its own vehicles, and with
bit 31 set for every other vehicle. -/
def srcOfTrain (s : State) (i : Nat) : Nat :=
  let b := s.bb.vbase
  let n := ownVehicles s
  let u := i % 64
  if b < u && u ≤ b + n then i / 64 * 64 + (if s.bb.unitReversed then b + n + 1 - u else u - b) else 2 ^ 31 + i

/-- The source that an image map entry of kind 1 names. -/
def srcOfMap (s : State) (m : Nat) : Nat :=
  if bit m 31 then srcOfTrain s (m % 2 ^ 31)
  else if 1 ≤ m % 64 && m % 64 ≤ ownVehicles s then m else srcOfTrain s m

/-- The entry of the plan in force that owns an identifier of the unit's numbering at this node, for a stall (05 Table 05-10,
09 R242). -/
def ownSlot (s : State) (ident stall : Nat) : Option PlanEntry :=
  let i := trainIdent s ident
  s.bb.inForce.entries.find? (fun p => p.ident = i && p.stall = stall && p.node = s.bb.address)

/-- The transmit start of a slot on a plane in a crossing: the earlier of its two passage times (09 R232, R246). -/
def transmitStart (s : State) (plane tk : Nat) (p : PlanEntry) : Nat :=
  let pl := vget s.bb.planes plane {}
  let w := min pl.wAft pl.wFore / 1000
  ((tk : Int) + 8 * (p.offset : Int) + w).toNat

/-- The release deadline of a telegram first voted at an instant: 1 us before the transmit start of its slot's next due
occurrence whose deadline it meets (06 Table 06-5, 09 R246); occurrences are counted from the present crossing on. -/
def slotDeadline (s : State) (plane t : Nat) (p : PlanEntry) : Option Nat :=
  (List.range (2 ^ p.period + 1)).findSome? (fun j =>
    let tk := s.cyc.tk + j * s.cyc.c
    let d := transmitStart s plane tk p - 1000
    if slotDue p (trainX s tk) && t ≤ d then some d else none)

/-! ## The mooring lease -/

/-- Does the module hold the lease (12 R316)? -/
def holdsLease (s : State) : Bool := s.twin.lease = 3 || s.twin.lease = 4

/-- LEASE_HOLDER for a stall (12 R328): for a copy in SYNC that of the holder's record, else the module's. -/
def leaseFor (s : State) (i : Nat) : Bool :=
  match getStall? s i with
  | some st => if st.mirrorSt = 2 then (match s.twin.record with | some r => r.head.lease | none => false) else s.twin.leaseFlag
  | none => s.twin.leaseFlag

/-- Is the stall a mirrored one? -/
def mirroredStall (s : State) (i : Nat) : Bool :=
  match getStall? s i with
  | some st => st.desc.mirrored
  | none => false

/-! ## Sessions -/

/-- The stall that owns the outbound telegrams of a session number (11 R292, R305), by the reservations in
effect. -/
def sessOwner (s : State) (n : Nat) : Option Nat :=
  s.con.reserve.findSome? (fun p =>
    if p.2 ≠ 0 && bits p.2 128 16 = n && bits p.2 144 16 ≠ 0xFFFF then some (bits p.2 144 16) else none)

/-- Is every shed that a session's paths lead through other than OPEN (08 R223)? -/
def sessionShut (s : State) (e : Session) : Bool :=
  let ports := [e.pathA, e.pathB].filterMap (fun p => p.map (·.port))
  ports ≠ [] && ports.all (fun p => (getShed s (portShed p)).state ≠ 0)

/-! ## Judging one message -/

/-- Is the destination of a message behind a shed that is not OPEN (08 R223)? It is judged at the SVC, in whose crossing no shed
changes. -/
def postShut (s : State) (p : PostedReq) : Bool :=
  match p with
  | .send 2 _ dest _ =>
    match nget? s.con.sessions (dest % 4096) with
    | some e => sessionShut s e
    | none => false
  | _ => false

/-- The refusal of a message of kinds 1, 2 and 4 (05 R135), or 0; `shut` says that its shed was not OPEN at its SVC. -/
def judgeSend (s : State) (i : Nat) (kind flags dest : Nat) (data : List Byte) (shut : Bool) : Nat :=
  chooseAbort ((match kind with
    | 1 =>
      match ownSlot s dest i with
      | none => [abort abtObject 1]
      | some p => refuseIf (data.length + 63 < p.len || p.len < data.length + 56) abtRange 0
    | 2 =>
      match nget? s.con.sessions (dest % 4096) with
      | none => [abort abtObject 1]
      | some e =>
        refuseIf (dest / 4096 % 256 = 0 || e.state < 2 || sessOwner s (dest % 4096) ≠ some i) abtObject 1
          ++ refuseIf (min 4088 (gv s E.conMtu - 68) < data.length) abtRange 0
          ++ refuseIf shut abtState 2
    | _ => refuseIf (doRole s false dest ≠ 0) abtAccess 0xFF)
    ++ refuseIf (bit flags 0 && !(leaseFor s i)) abtState 3)

/-- The sequence number of a telegram identifier in crossing `kc` (09 R247): one number for an identifier in each crossing. -/
def telegramSeq (s : State) (ident kc : Nat) : Nat × State :=
  match nget? s.agree.seqK ident, nget? s.sup.seqs ident with
  | some k, some nx =>
    if k = kc then ((nx + 2 ^ 48 - 1) % 2 ^ 48, s) else take s (nx % 2 ^ 48)
  | none, some nx => take s (nx % 2 ^ 48)
  | _, none => take s (s.cyc.tk / 125000 % 2 ^ 48)
where
  /-- Take a number: the identifier's next one follows it. -/
  take (s : State) (n : Nat) : Nat × State :=
    (n, { s with sup.seqs := nset s.sup.seqs ident (n + 1), agree.seqK := nset s.agree.seqK ident kc })

/-- An item at the end of a stream. -/
def joinStream (s : State) (l : List OutItem) (o : OutItem) : List OutItem :=
  l ++ [{ o with num := l.length, mirrored := mirroredStall s o.stall }]

/-- Put an item into the output stream of the crossing. -/
def pushOut (s : State) (o : OutItem) : State := { s with sup.outs := joinStream s s.sup.outs o }

/-- Put an item into the output stream of crossing `kc`: an activation issues outputs of its own crossing, even when it ends in the
next one (05 R122). -/
def pushOutOf (s : State) (kc : Nat) (o : OutItem) : State :=
  if kc = s.cyc.k then pushOut s o else { s with sup.outsPrev := joinStream s s.sup.outsPrev o }

/-- A telegram enters the output stream of crossing `kc`; an earlier one of the activation is superseded (09 R247). -/
def pushTelegram (s : State) (kc : Nat) (o : OutItem) (slot : Nat) : State :=
  let earlier := fun (x : OutItem) => x.kind = 1 && x.ident = o.ident && x.seq = o.seq && x.stall = o.stall
  let stream := if kc = s.cyc.k then s.sup.outs else s.sup.outsPrev
  let s := if stream.any earlier then bumpi s E.slotSuperseded slot else s
  let rest := stream.filter (fun x => !(earlier x))
  pushOutOf (if kc = s.cyc.k then { s with sup.outs := rest } else { s with sup.outsPrev := rest }) kc o

/-- The last accepted value of a DO channel: in one crossing the highest stall id's stands (05 R136). -/
def acceptDo (s : State) (ch i k : Nat) (on : Bool) : State :=
  match nget? s.sup.doLast ch with
  | some d => if d.k = k && i < d.stall then s
    else { s with sup.doLast := nset s.sup.doLast ch { stall := i, on := on, k := k } }
  | none => { s with sup.doLast := nset s.sup.doLast ch { stall := i, on := on, k := k } }

/-- Decide one posted request that leaves in the crossing of its SVC: a message of kind 1, 2 or 4, or an event. -/
def decidePosted (s : State) (i k tk : Nat) (p : Posted) : Posted × State :=
  match p.req with
  | .send kind flags dest data =>
    if kind = 3 then (p, s)
    else
      let code := judgeSend s i kind flags dest data p.shut
      if code ≠ 0 then ({ p with code := code, decided := true }, s)
      else
        match kind with
        | 1 =>
          let (n, s) := telegramSeq s dest k
          let slot := ((ownSlot s dest i).map (·.slot)).getD 0
          ({ p with value := n, decided := true },
            pushTelegram s k
              { ident := dest, kind := 1, stall := i, seq := n, tag := p.tag, single := bit flags 0, data := data } slot)
        | 2 =>
          let n := (nget s.con.sessions (dest % 4096) {}).txSeq + 1
          let s := laneTx s (dest % 4096)
          ({ p with value := n, decided := true },
            pushOutOf s k { ident := dest, kind := 2, stall := i, seq := n, tag := p.tag, single := bit flags 0, data := data })
        | _ => ({ p with decided := true }, acceptDo s dest i k (fieldAt data 0 1 = 1))
  | .event code sev data =>
    let (ok, s) := emitJ s 0 tk (srcStall i) code sev data i
    ({ p with value := b2n (!ok), decided := true }, s)
  | _ => (p, s)

/-- At the end of an activation of crossing `k`, decide in tag order everything that leaves with it. -/
def decideActivation (s : State) (i k tk : Nat) : State :=
  let (ps, s) := s.sup.posted.foldl (fun (acc : List Posted × State) p =>
    if p.stall = i && !p.decided then
      let (p, s) := decidePosted acc.2 i k tk p
      (acc.1 ++ [p], s)
    else (acc.1 ++ [p], acc.2)) ([], s)
  { s with sup.posted := ps }

end Sys2Proof.Machine
end

