-- ==== Sys2Proof/Machine/Lease.lean ====
section
/-!
DEFINITION. The mooring lease (12 R316 to R330): its states, modes and ends, and how it is ceased, taken and claimed.
-/

namespace Sys2Proof.Machine

def updTLink (s : State) (l : Nat) (f : TLink → TLink) : State := { s with twin.links := vupd s.twin.links l f }
def getTLink (s : State) (l : Nat) : TLink := vget s.twin.links l {}

/-- Is a twin link in service: its session runs and it is not failed (R312, R314)? -/
def twinLinkUp (s : State) (l : Nat) : Bool := (getTLink s l).session && !(vget s.ilinks (30 + l) {}).failed

/-- The twin links in service. -/
def twinLinks (s : State) : List Nat := [0, 1, 2, 3].filter (twinLinkUp s)

/-- A new lease state (R316): event 0x3041. The codes of its cause field are not stated: a free value (log 6). -/
def setLease (s : State) (new t : Nat) : State :=
  let old := s.twin.lease
  if old = new then s
  else
    let f := freeVal s
    let s := freeNext s
    let holds := fun (x : Nat) => x = 3 || x = 4
    let s := { s with twin.lease := new }
    let s := if holds old != holds new then bump s E.twinHandovers else s
    emitL s (srcHub 0) 0x3041 1 (u8 old ++ u8 new ++ u8 (f % 256) ++ u64 t)

/-- Does each twin own a slot of period exponent 0 (R318)? -/
def longAble (s : State) : Bool :=
  let own := fun (a : Nat) => s.bb.inForce.entries.any (fun p => p.node = a && p.period = 0)
  own s.bb.address && own (s.bb.address / 4 * 4 + gv s E.twinPeerNode % 4)

/-- The lease mode (R319): 0 unpaired, 1 SHORT, 2 LONG, 3 NONE. -/
def leaseMode (s : State) : Nat :=
  if s.twin.lease = 0 || s.twin.lease = 5 || !s.twin.hadPair then 0
  else if twinLinks s ≠ [] then 1
  else if s.twin.longSeen.any (fun k => s.cyc.k ≤ k + 1) then 2
  else 3

/-- The lease end of the mode in force: in NONE the one last computed (R319). -/
def refreshLease (s : State) : State :=
  let m := leaseMode s
  let short := if holdsLease s then s.twin.eH else s.twin.eS
  let e := if m = 1 then short else if m = 2 then max short s.twin.long else s.twin.end_
  let old := s.twin.mode
  let s := { s with twin.mode := m, twin.end_ := e }
  if old = m then s else emitL s (srcHub 0) 0x3043 1 (u8 old ++ u8 m)

/-- The type code of a twin message (12 Table 12-2). -/
def twinType : EgKind → Nat
  | .twinHello => 1
  | .twinKeepalive => 2
  | .twinRenew => 3
  | .twinAck => 4
  | .twinClaim => 5
  | .twinRelease => 6
  | .twinMirror => 7
  | .twinCatchup => 8
  | _ => 0

/-- TWIN_KEY. -/
def twinKey (s : State) : Nat := (nget? s.sup.dict (ekey 0x3810 1 0)).getD 0

/-- Does the twin have the higher serial number (R314)? -/
def lowerSerial (s : State) : Bool := serial40 < s.twin.peerSerial

/-- A twin message (R313, R314): header, body, tag and CRC-32C. HELLO is tagged under TWIN_KEY with the first 12 bytes of its nonce as IV,
every later message under the link key. -/
def twinMessage (s : State) (l n : Nat) (kind : EgKind) (c : Nat) (body : List Byte) : List Byte :=
  let hello := kind = .twinHello
  let bs := u8 1 ++ u8 (twinType kind) ++ u8 l ++ u8 (if kind = .twinRenew then c else 0) ++ beBytes 2 body.length ++ beBytes 2 0
    ++ beBytes 8 n ++ body
  let iv := if hello then beNat (body.take 12) else beNat (u8 (b2n (!(lowerSerial s))) ++ beBytes 3 0 ++ beBytes 8 n)
  let m := bs ++ beBytes 16 (Config.gmac (if hello then twinKey s else (getTLink s l).key) iv bs % 2 ^ 128)
  m ++ beBytes 4 (crc32c m)

/-- A twin message leaves by a link (R313); a hub whose voter has failed is silent (06 R171). -/
def twinSend (s : State) (l t : Nat) (kind : EgKind) (b c : Nat) (data : List Byte) : State :=
  if !(hubSends s (l / 2)) then s
  else
  let n := (getTLink s l).txSeq + 1
  send (updTLink s l (fun x => { x with txSeq := n, lastTx := t })) 
    { kind := kind, port := l, a := n, b := b, c := c, data := twinMessage s l n kind c data }

/-- The lease boundary at or before an instant (R317). -/
def leaseBoundary (t : Nat) : Nat := t / 8000 * 8000

/-- Send CLAIM on every twin link in service (R322): its boundary is that at which the module began to hold, or, if it does not
hold, the one at or before the CLAIM. -/
def sendClaim (s : State) (t : Nat) : State :=
  let b := if holdsLease s then s.twin.heldFrom else leaseBoundary t
  let holds := holdsLease s
  let s := { s with twin.claimAt := some b, twin.claimSent := t }
  (twinLinks s).foldl (fun s l => twinSend s l t .twinClaim b (b2n holds) (u64 b ++ u8 (b2n holds))) s

/-- The holder ceases every single-actor duty (R320): STANDBY. -/
def ceaseLease (s : State) (t : Nat) : State :=
  if holdsLease s then
    setLease { s with twin.aloneFrom := t, twin.yieldReq := false, twin.claimAt := none, twin.takeAt := none,
                        twin.eS := 0, twin.longHeard := false } 2 t
  else s

/-- RELEASE, three times 1 us apart, on every twin link in service (R321); a holder ceases at its first. -/
def releaseLease (s : State) (t : Nat) : State :=
  let role := if holdsLease s then 1 else 2
  let f := freeVal s
  let s := freeNext s
  let s := (twinLinks s).foldl (fun s l =>
    [0, 1000, 2000].foldl (fun s d => twinSend s l (t + d) .twinRelease role (f % 256) (u8 role ++ u8 (f % 256))) s) s
  refreshLease (ceaseLease s t)

/-- Is the destination of an item behind a shed that is not OPEN (21 Table 21-5)? -/
def itemShedShut (s : State) (o : OutItem) : Bool :=
  o.kind = 2 && (match nget? s.con.sessions (o.ident % 4096) with
    | some e => sessionShut s e
    | none => false)

/-- Items in the shadow queue older than four crossings are dropped and counted (R329). -/
def expireShadow (s : State) : State :=
  let old := s.twin.shadow.filter (fun x => x.k + 4 < s.cyc.k)
  bumps { s with twin.shadow := s.twin.shadow.filter (fun x => s.cyc.k ≤ x.k + 4) } E.twinShadowDropped E.twinShadowDropped.sub 0 old.length

/-- The result of comparing two claims at this module (R322): the earlier boundary wins, then the home module, then the lower
source number. -/
def winsClaim (s : State) (own peer : Nat) : Bool :=
  if own ≠ peer then own < peer
  else
    match gv s E.twinHome with
    | 1 => true
    | 2 => false
    | _ => gv s E.bbConfigNode < gv s E.twinPeerNode

/-- A frame of the twin's node with TWIN set passes R249 in a crossing (R318, R324). -/
def twinFrame (s : State) (holder : Bool) (t : Nat) : State :=
  let s := { s with twin.heard := t }
  let counts := longAble s && (if holdsLease s then !holder else holder)
  let s := if counts then { s with twin.long := s.cyc.tk + 3 * s.cyc.c, twin.longSeen := some s.cyc.k,
                                     twin.longHeard := s.twin.longHeard || !(holdsLease s) } else s
  let s :=
    if holder && s.twin.foreignK ≠ s.cyc.k then
      { s with twin.foreignHold := if s.twin.foreignK + 1 = s.cyc.k then s.twin.foreignHold + 1 else 1, twin.foreignK := s.cyc.k }
    else s
  refreshLease s

end Sys2Proof.Machine
end

