-- ==== Sys2Proof/Machine/Flags.lean ====
section
/-!
DEFINITION. Binary64 arithmetic (03 R70 to R74) over bit patterns, exact in integers and rounded once to nearest, ties to
even, and the flags it raises, in the order of the status word: NV 16, DZ 8, OF 4, UF 2, NX 1.
-/

namespace Sys2Proof.Machine

/-- A binary64 operand taken apart: a NaN (signalling or not), an infinity, or (-1)^sign x man x 2^exp. -/
inductive Fp where
  | nan (signalling : Bool)
  | inf (neg : Bool)
  | fin (neg : Bool) (man : Nat) (exp : Int)
  deriving DecidableEq, Repr

/-- Take a bit pattern apart. -/
def fpOf (w : Word) : Fp :=
  let n := w.toNat
  let neg := n.testBit 63
  let e : Nat := n / 2 ^ 52 % 2048
  let f : Nat := n % 2 ^ 52
  if e = 2047 then (if f = 0 then .inf neg else .nan (!(n.testBit 51)))
  else if e = 0 then .fin neg f (-1074)
  else .fin neg (f + 2 ^ 52) ((e : Int) - 1075)

/-- The canonical quiet NaN (R71). -/
def canonNaN : Word := 0x7FF8000000000000

def fNV : Nat := 16
def fDZ : Nat := 8
def fOF : Nat := 4
def fUF : Nat := 2
def fNX : Nat := 1

/-- The sign bit as a word. -/
def signW (neg : Bool) : Word := if neg then 0x8000000000000000 else 0

def infW (neg : Bool) : Word := signW neg ||| 0x7FF0000000000000

/-- A number shifted right by `k` bits, rounded to nearest, ties to even; true where bits were lost. -/
def shiftRound (m k : Nat) : Nat × Bool :=
  let q := m / 2 ^ k
  let r := m % 2 ^ k
  if r = 0 then (q, false)
  else if 2 ^ k < 2 * r || (2 * r = 2 ^ k && q % 2 = 1) then (q + 1, true)
  else (q, true)

/-- Round (-1)^neg x m x 2^e, m not 0, to binary64: the word and the flags. Tininess is detected after rounding (R70). -/
def roundPack (neg : Bool) (m : Nat) (e : Int) : Word × Nat :=
  let top : Int := e + Nat.log2 m
  let lsb : Int := max (top - 52) (-1074)
  let (q, inexact) := if lsb ≤ e then (m * 2 ^ (e - lsb).toNat, false) else shiftRound m (lsb - e).toNat
  let pat := if lsb = -1074 then q else (lsb + 1074).toNat * 2 ^ 52 + q
  if 0x7FF0000000000000 ≤ pat then (infW neg, fOF + fNX)
  else
    -- the result rounded with an unbounded exponent range, to tell tininess
    let u := if top - 52 ≤ e then m * 2 ^ (e - (top - 52)).toNat else (shiftRound m ((top - 52) - e).toNat).1
    let tiny := top < -1023 || (top = -1023 && u < 2 ^ 53)
    (signW neg ||| BitVec.ofNat 64 pat, if inexact then (if tiny then fNX + fUF else fNX) else 0)

/-- Round an exact value whose mantissa may be 0; the sign of an exact zero is given. -/
def roundInt (m : Int) (e : Int) (zeroNeg : Bool) : Word × Nat :=
  if m = 0 then (signW zeroNeg, 0) else roundPack (m < 0) m.natAbs e

/-- The signed mantissa of a finite operand. -/
def smant (neg : Bool) (m : Nat) : Int := if neg then -(m : Int) else m

/-- Is the operand a signalling NaN? -/
def isSnan : Fp → Bool
  | .nan sig => sig
  | _ => false

def isNaN : Fp → Bool
  | .nan _ => true
  | _ => false

/-- The canonical NaN, with NV where an operand is a signalling NaN. -/
def nanOf (xs : List Fp) : Word × Nat := (canonNaN, if xs.any isSnan then fNV else 0)

/-- The sum of two finite values, exact, rounded once. -/
def addFin (n1 : Bool) (m1 : Nat) (e1 : Int) (n2 : Bool) (m2 : Nat) (e2 : Int) : Word × Nat :=
  let e := min e1 e2
  let s := smant n1 m1 * 2 ^ (e1 - e).toNat + smant n2 m2 * 2 ^ (e2 - e).toNat
  roundInt s e (if m1 = 0 && m2 = 0 then n1 && n2 else false)

/-- FADD. -/
def fpAdd (a b : Word) : Word × Nat :=
  match fpOf a, fpOf b with
  | .nan x, q => nanOf [.nan x, q]
  | p, .nan y => nanOf [p, .nan y]
  | .inf n1, .inf n2 => if n1 = n2 then (infW n1, 0) else (canonNaN, fNV)
  | .inf n, .fin _ _ _ => (infW n, 0)
  | .fin _ _ _, .inf n => (infW n, 0)
  | .fin n1 m1 e1, .fin n2 m2 e2 => addFin n1 m1 e1 n2 m2 e2

/-- A bit pattern with its sign inverted. -/
def negW (a : Word) : Word := a ^^^ 0x8000000000000000

/-- FSUB: a NaN operand keeps its kind under the sign change. -/
def fpSub (a b : Word) : Word × Nat := fpAdd a (negW b)

/-- FMUL. -/
def fpMul (a b : Word) : Word × Nat :=
  match fpOf a, fpOf b with
  | .nan x, q => nanOf [.nan x, q]
  | p, .nan y => nanOf [p, .nan y]
  | .inf n1, .inf n2 => (infW (n1 != n2), 0)
  | .inf n1, .fin n2 m _ => if m = 0 then (canonNaN, fNV) else (infW (n1 != n2), 0)
  | .fin n1 m _, .inf n2 => if m = 0 then (canonNaN, fNV) else (infW (n1 != n2), 0)
  | .fin n1 m1 e1, .fin n2 m2 e2 =>
    if m1 * m2 = 0 then (signW (n1 != n2), 0) else roundPack (n1 != n2) (m1 * m2) (e1 + e2)

/-- FDIV: 120 quotient bits and a sticky bit decide the rounding exactly. -/
def fpDiv (a b : Word) : Word × Nat :=
  match fpOf a, fpOf b with
  | .nan x, q => nanOf [.nan x, q]
  | p, .nan y => nanOf [p, .nan y]
  | .inf _, .inf _ => (canonNaN, fNV)
  | .inf n1, .fin n2 _ _ => (infW (n1 != n2), 0)
  | .fin n1 _ _, .inf n2 => (signW (n1 != n2), 0)
  | .fin n1 m1 e1, .fin n2 m2 e2 =>
    if m2 = 0 then (if m1 = 0 then (canonNaN, fNV) else (infW (n1 != n2), fDZ))
    else if m1 = 0 then (signW (n1 != n2), 0)
    else
      let num := m1 * 2 ^ 120
      let sticky := if num % m2 = 0 then 0 else 1
      roundPack (n1 != n2) (num / m2 * 2 + sticky) (e1 - e2 - 121)

/-- The integer square root, bit by bit from bit `k` down. -/
def isqrtFrom (n : Nat) : Nat → Nat → Nat
  | 0, r => if (r + 1) * (r + 1) ≤ n then r + 1 else r
  | k + 1, r => let c := r + 2 ^ (k + 1); isqrtFrom n k (if c * c ≤ n then c else r)

/-- The integer square root. -/
def isqrt (n : Nat) : Nat := isqrtFrom n (Nat.log2 n / 2 + 1) 0

/-- FSQRT. -/
def fpSqrt (a : Word) : Word × Nat :=
  match fpOf a with
  | .nan x => nanOf [.nan x]
  | .inf neg => if neg then (canonNaN, fNV) else (infW false, 0)
  | .fin neg m e =>
    if m = 0 then (signW neg, 0)
    else if neg then (canonNaN, fNV)
    else
      let (m, e) := if e % 2 = 0 then (m, e) else (2 * m, e - 1)
      let n := m * 2 ^ 120
      let r := isqrt n
      roundPack false (r * 2 + (if r * r = n then 0 else 1)) (e / 2 - 61)

/-- FMADD and FMSUB: ra x rb + c, rounded once (R70). -/
def fpFma (a b c : Word) : Word × Nat :=
  match fpOf a, fpOf b with
  | .inf n1, .fin n2 m _ =>
    if m = 0 then (canonNaN, fNV)
    else match fpOf c with
      | .nan z => nanOf [.nan z]
      | .inf n3 => if n3 = (n1 != n2) then (infW n3, 0) else (canonNaN, fNV)
      | .fin _ _ _ => (infW (n1 != n2), 0)
  | .fin n1 m _, .inf n2 =>
    if m = 0 then (canonNaN, fNV)
    else match fpOf c with
      | .nan z => nanOf [.nan z]
      | .inf n3 => if n3 = (n1 != n2) then (infW n3, 0) else (canonNaN, fNV)
      | .fin _ _ _ => (infW (n1 != n2), 0)
  | .nan x, q => nanOf [.nan x, q, fpOf c]
  | p, .nan y => nanOf [p, .nan y, fpOf c]
  | .inf n1, .inf n2 =>
    match fpOf c with
    | .nan z => nanOf [.nan z]
    | .inf n3 => if n3 = (n1 != n2) then (infW n3, 0) else (canonNaN, fNV)
    | .fin _ _ _ => (infW (n1 != n2), 0)
  | .fin n1 m1 e1, .fin n2 m2 e2 =>
    match fpOf c with
    | .nan z => nanOf [.nan z]
    | .inf n3 => (infW n3, 0)
    | .fin n3 m3 e3 => addFin (n1 != n2) (m1 * m2) (e1 + e2) n3 m3 e3

/-- The order of two operands that are no NaNs: true where the first is less. -/
def fpLess (a b : Fp) : Bool :=
  match a, b with
  | .nan _, _ => false
  | _, .nan _ => false
  | .inf n1, .inf n2 => n1 && !n2
  | .inf n, .fin _ _ _ => n
  | .fin _ _ _, .inf n => !n
  | .fin n1 m1 e1, .fin n2 m2 e2 =>
    let e := min e1 e2
    smant n1 m1 * 2 ^ (e1 - e).toNat < smant n2 m2 * 2 ^ (e2 - e).toNat

/-- Equality of two operands that are no NaNs; the zeros are equal. -/
def fpSame (a b : Fp) : Bool := !isNaN a && !isNaN b && !fpLess a b && !fpLess b a

/-- FEQ (R74). -/
def fpEq (a b : Word) : Bool × Nat :=
  (fpSame (fpOf a) (fpOf b), if isSnan (fpOf a) || isSnan (fpOf b) then fNV else 0)

/-- FLT (R74). -/
def fpLt (a b : Word) : Bool × Nat :=
  if isNaN (fpOf a) || isNaN (fpOf b) then (false, fNV) else (fpLess (fpOf a) (fpOf b), 0)

/-- FLE (R74). -/
def fpLe (a b : Word) : Bool × Nat :=
  if isNaN (fpOf a) || isNaN (fpOf b) then (false, fNV) else (!fpLess (fpOf b) (fpOf a), 0)

/-- FMIN and FMAX (R74): -0 below +0. -/
def fpMinMax (max_ : Bool) (a b : Word) : Word × Nat :=
  let p := fpOf a
  let q := fpOf b
  let fl := if isSnan p || isSnan q then fNV else 0
  if isNaN p && isNaN q then (canonNaN, fl)
  else if isNaN p then (b, fl)
  else if isNaN q then (a, fl)
  else
    let aFirst := fpLess p q || (!fpLess q p && (a.getLsbD 63 || !(b.getLsbD 63)))
    (if aFirst != max_ then a else b, fl)

/-- A finite value rounded to an integer: to nearest with ties to even, or toward zero; with whether bits were lost. -/
def fpToInt (nearest : Bool) (m : Nat) (e : Int) : Nat × Bool :=
  if 0 ≤ e then (m * 2 ^ e.toNat, false)
  else if nearest then shiftRound m (-e).toNat
  else (m / 2 ^ (-e).toNat, m % 2 ^ (-e).toNat ≠ 0)

/-- FTOI (R73). DESIGN CHOICE (log 137): -0 itself converts without a flag, for nothing is lost; R73 names NX for a value that rounds to -0. -/
def fpToI (a : Word) : Word × Nat :=
  match fpOf a with
  | .nan _ => (0, fNV)
  | .inf neg => (if neg then 0x8000000000000000 else 0x7FFFFFFFFFFFFFFF, fNV)
  | .fin neg m e =>
    let (q, lost) := fpToInt true m e
    if neg && 2 ^ 63 < q then (0x8000000000000000, fNV)
    else if !neg && 2 ^ 63 ≤ q then (0x7FFFFFFFFFFFFFFF, fNV)
    else (BitVec.ofInt 64 (smant neg q), if lost then fNX else 0)

/-- FTOU (R73), with -0 as in FTOI (log 137). -/
def fpToU (a : Word) : Word × Nat :=
  match fpOf a with
  | .nan _ => (0, fNV)
  | .inf neg => (if neg then 0 else 0xFFFFFFFFFFFFFFFF, fNV)
  | .fin neg m e =>
    let (q, lost) := fpToInt true m e
    if neg && 0 < q then (0, fNV)
    else if !neg && 2 ^ 64 ≤ q then (0xFFFFFFFFFFFFFFFF, fNV)
    else (BitVec.ofNat 64 q, if lost then fNX else 0)

/-- FINT and FTRUNC (R73): no flag but NV for a signalling NaN; a zero result keeps the sign. -/
def fpRint (nearest : Bool) (a : Word) : Word × Nat :=
  match fpOf a with
  | .nan x => nanOf [.nan x]
  | .inf neg => (infW neg, 0)
  | .fin neg m e =>
    let q := (fpToInt nearest m e).1
    if q = 0 then (signW neg, 0) else ((roundPack neg q 0).1, 0)

/-- ITOF. -/
def fpOfI (a : Word) : Word × Nat := roundInt a.toInt 0 false

/-- UTOF. -/
def fpOfU (a : Word) : Word × Nat := roundInt (a.toNat : Int) 0 false

/-- The status word after flags are raised (R72). -/
def swFlags (w : Word) (fl : Nat) : Word := w ||| BitVec.ofNat 64 fl

/-- The flags raised whose trap is enabled (R72, 04 Table 04-7). -/
def swTraps (w : Word) (fl : Nat) : Nat := (w.toNat / 256 % 32) &&& fl

end Sys2Proof.Machine
end

