-- ==== Sys2Proof/Machine/Insn.lean ====
section
/-!
DEFINITION. How a core runs one Stallcode instruction: the fetch check, the fuel charge points, retirement, exception
entry, the stall fault, the end of an activation, and the performance counters that instructions advance.
-/

namespace Sys2Proof.Machine

/-! ## Performance counters (19) -/

/-- Occurrences of an event number among a list. -/
def evCount (evs : List (Nat × Nat)) (n : Nat) : Nat := (evs.map (fun e => if e.1 = n then e.2 else 0)).sum

/-- Does a counter control count an event of the running context (R473)? Events from 0x23 up are of scope A. -/
def ctrlCounts (ctrl : Nat) (ctx : Option Nat) : Bool :=
  bit ctrl 10 && (0x23 ≤ bits ctrl 0 6 ||
    match ctx with
    | none => bit ctrl 9
    | some i => bit ctrl 8 && (bits ctrl 16 16 = 0xFFFF || bits ctrl 16 16 = i))

/-- One core's counters after events, where `ctrls` gives the eight control words (R472, R473). -/
def CorePerf.count (p : CorePerf) (ctrls : List Nat) (ctx : Option Nat) (evs : List (Nat × Nat)) : CorePerf :=
  (List.range 8).foldl (fun p j =>
    let c := ctrls.getD j 0
    let n := if bits c 0 6 ≠ 0 && ctrlCounts c ctx then evCount evs (bits c 0 6) else 0
    let v := vget p.pc j 0 + n
    { p with
      pc := vupd p.pc j (fun _ => v % 2 ^ 48)
      ovf := if 2 ^ 48 ≤ v then p.ovf ||| BitVec.ofNat 8 (2 ^ j) else p.ovf }) p

/-- The eight control words of a core index. -/
def coreCtrls (s : State) (core : Nat) : List Nat := (List.range 8).map (fun j => gvx s E.pcCtrl (0x5310 + core) (1 + j) 0)

/-- Does the lane execute stalls (06 Table 06-1)? -/
def laneRuns (s : State) (l : Nat) : Bool := (getLane s l).state = .inSet || (getLane s l).state = .shadow

/-- Count events on a core of every lane that executes stalls. -/
def perfCount (s : State) (core : Nat) (ctx : Option Nat) (evs : List (Nat × Nat)) : State :=
  let ctrls := coreCtrls s core
  (List.range 3).foldl (fun s l =>
    if laneRuns s l then { s with perf.cores := vupd s.perf.cores (l * 16 + core) (fun p => p.count ctrls ctx evs) }
    else s) s

/-- A sample or latency record entry (19 Table 19-3) as a little-endian number. -/
def sampleEntry (pcOff stall ev core lat k : Nat) : Nat :=
  leNat (u32 pcOff ++ u16 stall ++ u8 ev ++ u8 core ++ u32 lat ++ u32 k)

/-- Tag sampling and the latency record of one lane for one instruction (R474 to R476). The latency lies from `lat.1` to
`lat.1 + lat.2`; within that range it is a free value (log 9). -/
def perfTag (s : State) (l core i : Nat) (pcOff : Nat) (lat : Nat × Nat) (ev : Nat) : State :=
  if !laneRuns s l then s
  else
    let cycles := lat.1 + freeVal s % (lat.2 + 1)
    let s := freeNext s
    let e := sampleEntry pcOff i ev core cycles s.cyc.k
    let k := gvs s E.pcSampleK (1 + core) 0
    let s := { s with perf.cores := vupd s.perf.cores (l * 16 + core) (fun p =>
      match p.countdown with
      | none => p
      | some 0 =>
        { p with samples := (if 64 ≤ p.samples.length then p.samples.drop 1 else p.samples) ++ [e]
                 sampleCount := p.sampleCount + 1
                 countdown := some (2 ^ (k - 1) + freeVal s % 2 ^ k - 1) }
      | some (n + 1) => { p with countdown := some n }) }
    let s := freeNext s
    if s.perf.latArmed && gv s E.pcLatStall = i && gv s E.pcLatMin ≤ cycles
      && (vget s.perf.lat l []).length < 256 then
      { s with perf.lat := vupd s.perf.lat l (· ++ [e]) }
    else s

/-- Everything an instruction of a stall adds to the performance counters. -/
def perfInsn (s : State) (core i : Nat) (evs : List (Nat × Nat)) (pc : Word) (lat : Nat × Nat) (ev : Nat) : State :=
  let off := (pc.toNat + 2 ^ 64 - baseCode) % 2 ^ 32
  let s := perfCount s core (some i) evs
  perfTag (perfTag (perfTag s 0 core i off lat ev) 1 core i off lat ev) 2 core i off lat ev

/-! ## Results of an instruction -/

/-- What one instruction comes to. -/
inductive IRes where
  /-- It retires: the stall as it leaves it (its pc set), extra performance events, latency, sample event bits, and a
  posted request that it makes. -/
  | retire (st : Stall) (evs : List (Nat × Nat)) (lat : Nat × Nat) (ev : Nat) (post : Option PostedReq)
  /-- It raises an exception: the state as at the exception, the state kept where fuel stops the entry, and the cause. -/
  | trap (x x0 : Exec) (p : Word) (cause detail : Nat) (fa : Word) (evs : List (Nat × Nat))
  /-- It faults the stall without an exception (R114, R115). -/
  | fault (x : Exec) (cause : Nat) (fa : Word) (code : Nat)
  /-- Fuel stops it at a granule. -/
  | stop (x : Exec) (evs : List (Nat × Nat))
  /-- It ends the activation (SVC_YIELD). -/
  | yield (x : Exec)
  /-- ERET returns: the status word, BIP included, is the frame's (R87, 03 Table 03-2). -/
  | returned (x : Exec)

/-- May a stall in a state carry out an activation that was assigned to it (05 R122, R139)? STOP and HOLD take effect for the next
crossings: an activation that is still to end runs to its end. -/
def carriesOn (st : StallSt) : Bool := st = .running || st = .stopped || st = .held

/-- The stall that a core runs, with its id: its activation has begun and not ended. -/
def running? (s : State) (core : Nat) : Option (Nat × Stall) :=
  match (getRun s core).run with
  | none => none
  | some i =>
    match getStall? s i with
    | none => none
    | some st => if carriesOn st.state then some (i, st) else none

/-- The DICTWIN writes of an ended activation as writes of the stall's own context, due at the next boundary (R43, R50): slots of an
entry that it has not written keep the value that the entry then has. -/
def dwRequests (s : State) (i : Nat) (st : Stall) : List Request :=
  st.dwOrder.filterMap (fun slot =>
    (slotItem s st slot).map (fun me =>
      let bytes := ((List.range (slotCount me.2)).map (fun j => leBytes 8 (slotValue st (me.1.slot + j)))).flatten
      { ctx := 5000 + i, due := s.cyc.k + 1, op := 2, index := me.1.index, sub := me.1.sub, elen := me.2.len,
        fixedInst := if me.1.selected then none else some me.1.inst,
        gaps := (List.range (slotCount me.2)).filter (fun j => !(nhas st.dwWrites (me.1.slot + j)))
        payload := if natSize me.2 = 8 then bytes else bytes.take me.2.len }))

/-- The end of the running activation of a core (R139): reason 1 SVC_YIELD, 2 fuel stop, 3 fault. -/
def endActivation (s : State) (core i : Nat) (reason : Nat) : State :=
  match getStall? s i with
  | none => s
  | some st =>
    let reqs := dwRequests s i st
    let used := (getRun s core).start - st.exec.fuel
    let s := svi s E.stallLastFuel i used
    let s := updStall s i (fun st => { st with
      exec.stopReason := reason, continued := reason = 2, dwWrites := [], dwOrder := [], endedK := s.cyc.k })
    let s := { s with sup.reqs := s.sup.reqs ++ reqs }
    let s := decideActivation s i (getRun s core).kRun (getRun s core).tk
    updRun s core (fun r => { r with run := none })

/-- A fuel stop (R63, R64, R140): the activation ends; the first of a row is recorded. -/
def fuelStop (s : State) (core i : Nat) (x : Exec) : State :=
  let s := updStall s i (fun st => { st with exec := x })
  let s := bumpi s E.stallOverruns i
  let s := perfCount s core (some i) [(0x21, 1)]
  let s := match getStall? s i with
    | none => s
    | some st =>
      if st.lastFuelStop then s
      else
        emitL s (srcStall i) 0x2048 1 (u64 x.pc.toNat ++ u32 st.desc.fuel ++ u64 (getRun s core).kRun) i
  endActivation (updStall s i (fun st => { st with lastFuelStop := true })) core i 2

/-- A stall fault (R115, R116): the rescue frame, FAULTED, event 0x2040, the end of the activation. -/
def stallFault (s : State) (core i : Nat) (x : Exec) (f : Frame) : State :=
  let s := updStall s i (fun st => { st with
    exec := { x with rescue := f, faultCause := f.cause, faultTime := s.cyc.tk }
    state := .faulted, autoPending := true, lastFuelStop := false })
  let s := emitL s (srcStall i) 0x2040 2
    (u64 f.cause.toNat ++ u64 f.pc.toNat ++ u64 f.fa.toNat ++ u64 f.fuel.toNat ++ u32 x.restarts) i
  let s := perfCount s core (some i) [(0x1F, 1)]
  endActivation s core i 3

/-- A status word once an instruction has retired: BIP clear (03 Table 03-2). -/
def retireSw (x : Exec) : Exec := { x with sw := swSet x.sw swBip false }

/-- Post a request that an SVC accepted: the tag it takes is the stall's next (R85). -/
def postRequest (s : State) (i tag : Nat) (p : PostedReq) : State :=
  { s with sup.posted := s.sup.posted ++ [{ stall := i, tag := tag, req := p, shut := postShut s p }] }

/-- The stall's execution state once a posted request has been accepted (R85): the tag after 0xFFFF_FFFF is 1. -/
def takeTag (x : Exec) : Exec :=
  { x with nextTag := if x.nextTag = 0xFFFFFFFF then 1 else x.nextTag + 1, posted := x.posted + 1 }

/-- The end of one instruction. `pc0` is its address and `charge` the fuel it costs at retirement. -/
def applyIRes (s : State) (core i : Nat) (st : Stall) (charge : Nat) (r : IRes) : State :=
  let pc0 := st.exec.pc
  match r with
  | .retire st' evs lat ev post =>
    let used := st.exec.fuel - (st'.exec.fuel - charge)
    let x := retireSw { st'.exec with fuel := st'.exec.fuel - charge }
    let s := setStall s i { st' with exec := match post with | none => x | some _ => takeTag x }
    let s := match post with
      | none => s
      | some p => postRequest s i st.exec.nextTag p
    perfInsn s core i ([(2, 1), (3, used)] ++ evs) pc0 lat ev
  | .trap x x0 p cause detail fa evs =>
    match takeException st.desc x p fa cause detail with
    | .fuelStop => fuelStop (perfInsn s core i evs pc0 (1, 0) 32) core i x0
    | .faulted c => stallFault (perfInsn s core i evs pc0 (1, 0) 0) core i x (mkFrame x p (causeField c detail cause 0) fa)
    | .entered x' =>
      perfInsn (updStall s i (fun st => { st with exec := x' })) core i ([(3, 4), (0x1E, 1)] ++ evs) pc0 (1, 0xFFFF) 8
  | .fault x cause fa code =>
    stallFault (perfInsn s core i [] pc0 (1, 0) 0) core i x (mkFrame x pc0 (causeField cause 0 0 code) fa)
  | .stop x evs => fuelStop (perfInsn s core i ([(3, st.exec.fuel - x.fuel)] ++ evs) pc0 (1, 0) 32) core i x
  | .yield x =>
    let x := retireSw { x with fuel := x.fuel - charge }
    let s := updStall s i (fun st => { st with exec := x, lastFuelStop := false })
    endActivation (perfInsn s core i [(2, 1), (3, charge), (0x1C, 1), (0x22, 1)] pc0 (1, 0xFFFF) 4) core i 1
  | .returned x =>
    perfInsn (setStall s i { st with exec := { x with fuel := x.fuel - charge } }) core i [(2, 1), (3, charge)] pc0 (6, 0) 0

/-- Run one instruction of the stall that a core runs: fetch (R54, R68), the charge point of its issue (R63), its body.
Where the core runs no stall, nothing happens (log 3). -/
def runInsn (core : CoreIx) (charge : Nat) (body : State → Stall → Exec → IRes) (s : State) : State :=
  match running? s core with
  | none => s
  | some (i, st) =>
    let x := st.exec
    if !(canFetch st.desc x.pc) then applyIRes s core i st 0 (.trap x x x.pc 3 3 x.pc [])
    else if x.fuel < charge then fuelStop s core i x
    else applyIRes s core i st charge (body s st x)

/-- Retire to the next instruction with a new execution state. -/
def retireX (st : Stall) (x : Exec) (evs : List (Nat × Nat)) (lat : Nat) : IRes :=
  .retire { st with exec := { x with pc := x.pc + 4 } } evs (lat, 0) 0 none

/-- Retire to a target (R68). -/
def retireTo (st : Stall) (x : Exec) (pc : Word) (evs : List (Nat × Nat)) (lat : Nat) : IRes :=
  .retire { st with exec := { x with pc := pc } } evs (lat, 0) 0 none

/-- A register result of an integer instruction. -/
def intOp (core : CoreIx) (rd : Reg) (lat : Nat) (evs : List (Nat × Nat)) (f : Exec → Word) (s : State) : State :=
  runInsn core 1 (fun _ st x => retireX st (rset x rd (f x)) evs lat) s

/-- An instruction that raises an exception at its own address, with nothing else done. -/
def trapAt (x : Exec) (cause detail : Nat) (fa : Word) (evs : List (Nat × Nat)) : IRes :=
  .trap x x x.pc cause detail fa evs

end Sys2Proof.Machine
end

