-- ==== Sys2Proof/Machine/Loft.lean ====
section
/-!
DEFINITION. Using a package of the loft (18 R445, R446, R452), and reading a stall package (04 R98 to R100, R543; 23 R536,
R537).
-/

namespace Sys2Proof.Machine

/-- Does a header verify under one root slot: both signatures over bytes 0 to 255 (R445, R446)? -/
def rootVerifies (r : Root) (hdr : List Byte) : Bool :=
  let dig := Config.sha384 (hdr.take 256)
  r.kinds ≠ 0 && bit r.kinds (fieldAt hdr 6 1)
    && Config.ecdsaOk r.ecdsa dig (beNat ((hdr.drop 256).take 96))
    && Config.mldsaOk r.mldsa dig (leNat ((hdr.drop 352).take 3309))

/-- Does a header verify under some root slot (R446)? -/
def headerVerifies (s : State) (hdr : List Byte) : Bool := s.upd.roots.toList.any (fun r => rootVerifies r hdr)

/-- The check that every use of a package makes (R452): 0, or the refusal's code. -/
def useCheck (s : State) (n kind : Nat) : Nat :=
  match nget? s.upd.loft n with
  | none => abort abtObject 1
  | some p =>
    if p.state < 2 || p.kind ≠ kind then abort abtObject 1
    else if !(headerVerifies s p.header) then abort abtIntegrity 3
    else 0

/-- The payload of a package, cut to the payload length that its header gives. -/
def pkgPayload (s : State) (n : Nat) : List Byte :=
  match nget? s.upd.loft n with
  | none => []
  | some p => p.payload.take (fieldAt p.header 24 8)

/-! ## Stall packages -/

/-- The descriptor of 256 bytes (04 Table 04-2). -/
def parseDesc (b : List Byte) : Descriptor :=
  let f := fieldAt b
  { name := f 8 32, supplier := f 40 4, version := f 44 4, rights := BitVec.ofNat 64 (f 48 8), energyClass := f 56 1,
    homeCore := f 57 1, mirrored := bit (f 58 1) 0, autoRestart := bit (f 58 1) 1, shareDict := bit (f 58 1) 2,
    restartLimit := f 59 1, period := f 60 4, fuel := f 64 4, codeSize := f 68 4, dataSize := f 72 4,
    dataInit := f 76 4, stackSize := f 80 4, retainSize := f 84 4, mirrorSize := f 88 4, imageSize := f 92 4,
    outboxSize := f 96 4, bulkSize := f 100 4, entryPc := BitVec.ofNat 64 (f 104 8),
    handlerPc := BitVec.ofNat 64 (f 112 8), initG31 := BitVec.ofNat 64 (f 120 8), retainTag := f 128 4,
    dictBase := f 132 2, dictCount := f 134 2, mapOffset := f 136 4, mapCount := f 140 4, crc := f 252 4 }

/-- Is the descriptor intact: magic, format, CRC-32C (R98)? -/
def descIntact (b : List Byte) : Bool :=
  256 ≤ b.length && fieldAt b 0 4 = 0x5354414C && fieldAt b 4 2 = 1 && fieldAt b 252 4 = crc32c (b.take 252)

/-- A size that a descriptor may declare (R93). -/
def sizeOk (n max_ : Nat) : Bool := n % 4096 = 0 && n ≤ max_

/-- Is the name a VIS value (R29)? -/
def visOk (bs : List Byte) : Bool :=
  let txt := bs.takeWhile (· ≠ 0)
  txt.all (fun c => 0x20 ≤ c.toNat && c.toNat ≤ 0x7E) && (bs.drop txt.length).all (· = 0)

/-- Are the descriptor's fields in range and its reserved bytes 0 (R93, R98, R137)? DESIGN CHOICE (log 132): with no dictionary index the
base must be 0, for R98 does not say whether a base of 0x6000 to 0x7FFF is then still in range. -/
def descRange (b : List Byte) (d : Descriptor) : Bool :=
  let pcOk := fun (a : Nat) => baseCode ≤ a && a < baseCode + d.codeSize && a % 4 = 0
  fieldAt b 6 2 = 0 && visOk ((b.drop 8).take 32) && d.rights.toNat < 1024 && d.energyClass ≤ 3 && d.homeCore ≤ 15
    && fieldAt b 58 1 < 8 && d.restartLimit ≤ 15
    && (List.range 13).any (fun n => d.period = 2 ^ n) && 64 ≤ d.fuel && d.fuel ≤ 16777215
    && sizeOk d.codeSize 16777216 && 4096 ≤ d.codeSize && sizeOk d.dataSize 67108864 && d.dataInit ≤ d.dataSize
    && sizeOk d.stackSize 1048576 && 4096 ≤ d.stackSize && sizeOk d.retainSize 1048576
    && sizeOk d.mirrorSize 4194304 && (d.mirrorSize = 0 || d.mirrored) && sizeOk d.imageSize 4194304
    && sizeOk d.outboxSize 1048576 && sizeOk d.bulkSize 268435456 && (d.bulkSize = 0 || d.rights.getLsbD 9)
    && pcOk d.entryPc.toNat && (d.handlerPc = 0 || pcOk d.handlerPc.toNat)
    && d.initG31.toNat % 8 = 0 && baseStack + 64 ≤ d.initG31.toNat && d.initG31.toNat ≤ baseStack + d.stackSize
    && (if d.dictCount = 0 then d.dictBase = 0
        else 0x6000 ≤ d.dictBase && d.dictBase + d.dictCount - 1 ≤ 0x7FFF)
    && d.mapCount ≤ 8191 && (b.drop 144).take 108 = List.replicate 108 0

/-- A DICTWIN map item of 8 bytes (04 Table 04-4). -/
def parseItem (b : List Byte) : MapItem :=
  { slot := fieldAt b 0 2, index := fieldAt b 2 2, sub := fieldAt b 4 1, selected := bit (fieldAt b 5 1) 0,
    write := bit (fieldAt b 5 1) 1, inst := fieldAt b 6 2 }

/-- A declaration record of 40 bytes (23 Table 23-6). -/
def parseDecl (b : List Byte) : Decl :=
  { index := fieldAt b 0 2, sub := fieldAt b 2 1, ty := fieldAt b 3 1, len := fieldAt b 4 2, readRole := fieldAt b 6 1,
    writeRole := fieldAt b 7 1, persistent := bit (fieldAt b 8 1) 0, min := fieldAt b 16 8, max := fieldAt b 24 8,
    dflt := fieldAt b 32 8 }

/-- Records of `n` bytes each, `k` of them. -/
def chunksOf (n : Nat) : Nat → List Byte → List (List Byte)
  | 0, _ => []
  | k + 1, bs => bs.take n :: chunksOf n k (bs.drop n)

/-- The five parts of a package laid out as R543 says; none where its length differs or the map offset breaks it. -/
def parsePkg (b : List Byte) : Option StallPkg :=
  let d := parseDesc b
  let mapEnd := d.mapOffset + 8 * d.mapCount
  let nDecl := fieldAt b mapEnd 4
  let declEnd := mapEnd + 4 + 40 * nDecl
  if d.mapOffset < 256 || d.mapOffset % 8 ≠ 0 || b.length ≠ declEnd + d.codeSize + d.dataInit then none
  else
    some
      { desc := d
        map := (chunksOf 8 d.mapCount (b.drop d.mapOffset)).map parseItem
        decls := (chunksOf 40 nDecl (b.drop (mapEnd + 4))).map parseDecl
        code := (b.drop declEnd).take d.codeSize
        data := (b.drop (declEnd + d.codeSize)).take d.dataInit }

/-- The length that a type code fixes (02 Table 02-2); none for OCTETS and VIS. -/
def typeLen (ty : Nat) : Option Nat :=
  match ty with
  | 1 | 2 | 6 => some 1
  | 3 | 7 => some 2
  | 4 | 8 | 10 => some 4
  | 5 | 9 | 11 | 14 | 15 => some 8
  | _ => none

/-- Is one declaration in range (23 R537, R34)? -/
def declOk (d : Descriptor) (raw : List Byte) (c : Decl) : Bool :=
  let e := declEntry c
  let numeric := 2 ≤ c.ty && c.ty ≤ 11 || c.ty = 14 || c.ty = 15
  d.dictBase ≤ c.index && c.index < d.dictBase + d.dictCount && 1 ≤ c.sub && 1 ≤ c.ty && c.ty ≤ 15
    && (match typeLen c.ty with
        | some n => c.len = n
        | none => 1 ≤ c.len && c.len ≤ (if c.ty = 12 then 1024 else 256))
    && c.readRole ≤ 5 && 1 ≤ c.writeRole && c.writeRole ≤ 3 && fieldAt raw 8 1 < 2 && fieldAt raw 9 7 = 0
    && (if numeric then c.min < 256 ^ c.len && c.max < 256 ^ c.len && c.dflt < 256 ^ c.len
          && !(badEncoding e c.min) && !(badEncoding e c.max) && !(badEncoding e c.dflt)
          && numVal e c.min ≤ numVal e c.max && numVal e c.min ≤ numVal e c.dflt && numVal e c.dflt ≤ numVal e c.max
        else c.min = 0 && c.max = 0 && c.dflt = 0)

/-- Are all declarations in range, none declared twice (23 R537)? -/
def declsOk (p : StallPkg) (b : List Byte) : Bool :=
  let mapEnd := p.desc.mapOffset + 8 * p.desc.mapCount
  let raws := chunksOf 40 p.decls.length (b.drop (mapEnd + 4))
  p.decls.length ≤ 4096 && (p.desc.dictCount ≠ 0 || p.decls.length = 0)
    && (p.decls.zip raws).all (fun x => declOk p.desc x.2 x.1)
    && (p.decls.map (fun c => c.index * 256 + c.sub)).Nodup

/-- The range of the select entry that an entry follows (02 Table 02-5). -/
def selRange (sel : Sel) : Nat :=
  match sel with
  | .lane => 3 | .core => 48 | .stall => 512 | .trig => 1024 | .link => 4 | .slot => 4096 | .node => 126 | .port => 16
  | .session => 4096 | .di => 64 | .dout => 32 | .saf => 32 | .ai => 16 | .none => 1 | .ctx => 1

/-- The entry that a map item of a package names: one that the package declares, or one of the module or of a loaded stall. -/
def pkgEntry (s : State) (p : StallPkg) (m : MapItem) : Option Entry :=
  if p.desc.dictBase ≤ m.index && m.index < p.desc.dictBase + p.desc.dictCount then
    if m.sub = 0 then declCount p.decls m.index
    else (p.decls.find? (fun c => c.index = m.index && c.sub = m.sub)).map declEntry
  else lookupEntry s m.index m.sub

/-- Is a DICTWIN map item allowed (R100)? `self` is the id that a replacement keeps. The entries of another stall are read only where
both descriptors declare the sharing (02 R34): the flag SHARE_DICT of each, DEDUCED (log 132). -/
def itemOk (s : State) (p : StallPkg) (self : Option Nat) (m : MapItem) : Bool :=
  let own := p.desc.dictBase ≤ m.index && m.index < p.desc.dictBase + p.desc.dictCount
  match pkgEntry s p m with
  | none => false
  | some e =>
    1 ≤ m.slot && m.slot + slotCount e ≤ 8192
      && (if 0x6000 ≤ m.index then
            (own && (!m.write || e.stall = 2)) || (!own && !m.write && p.desc.shareDict && match allottee s m.index with
              | some (i, st) => some i ≠ self && st.desc.shareDict
              | none => false)
          else
            e.stall ≠ 0 && (!m.write || e.stall = 2) && p.desc.rights.getLsbD 0 && (!m.write || p.desc.rights.getLsbD 1)
              && (!(0x5300 ≤ m.index && m.index ≤ 0x53FF) || p.desc.rights.getLsbD 2))
      && (if e.sel = .core then m.selected
          else if e.sel = .none || e.sel = .ctx || m.selected then m.inst = 0
          else m.inst < selRange e.sel)

/-- The slots that an item covers overlap no other item's (R100). -/
def slotsOk (s : State) (p : StallPkg) : Bool :=
  let span := fun (m : MapItem) =>
    ((pkgEntry s p m).map slotCount).getD 1
  (p.map.flatMap (fun m => (List.range (span m)).map (m.slot + ·))).Nodup

/-- Are the flags of the map items free of reserved bits (R9, 04 Table 04-4)? DESIGN CHOICE (log 132): R100 does not list a reserved
flag bit among its refusals; the model refuses the map with ABT_RANGE, as R98 does for the descriptor. -/
def itemFlagsOk (p : StallPkg) (b : List Byte) : Bool :=
  (chunksOf 8 p.map.length (b.drop p.desc.mapOffset)).all (fun r => fieldAt r 5 1 < 4)

/-- Does the package's index range overlap that of a loaded stall (R99)? -/
def dictOverlap (s : State) (d : Descriptor) (self : Option Nat) : Bool :=
  d.dictCount ≠ 0 && s.sup.stalls.any (fun p =>
    some p.1 ≠ self && p.2.desc.dictCount ≠ 0 && p.2.desc.dictBase < d.dictBase + d.dictCount
      && d.dictBase < p.2.desc.dictBase + p.2.desc.dictCount)

end Sys2Proof.Machine
end

