-- ==== Sys2Proof/Machine/Windows.lean ====
section
/-!
DEFINITION. Bridge windows (13 R343 to R348): definitions in effect, record layouts, inbound queues and notices.
-/

namespace Sys2Proof.Machine

/-! ## Definitions (Table 13-2) -/

/-- The definition of a window in effect; 0 where it is unused. -/
def winDef (s : State) (n : Nat) : Nat := nget s.br.defs n 0

def winKind (d : Nat) : Nat := bits d 0 8
def winIfc (d : Nat) : Nat := bits d 8 8
def winOwner (d : Nat) : Nat := bits d 16 16
def winGroup (d : Nat) : Nat := bits d 32 8
def winActivates (d : Nat) : Bool := bit d 40
def winClassic (d : Nat) : Bool := bit d 41
def winCap (d : Nat) : Nat := bits d 48 16
def winAddr (d : Nat) : Nat := bits d 64 32
def winQual (d : Nat) : Nat := bits d 96 32
def winFcode (d : Nat) : Nat := bits d 76 4
def winPort (d : Nat) : Nat := bits d 64 12

/-- The hub that carries the window's interface. -/
def winHub (d : Nat) : Nat := (winIfc d - 1) % 2

/-- Bytes of an MVB port of an F-code 0 to 4. -/
def portSize (f : Nat) : Nat := 2 * 2 ^ f

/-- Does the window keep a queue of records? -/
def winQueued (d : Nat) : Bool := 3 ≤ winKind d

/-- Bytes of one inbound record of the window (Table 13-5). -/
def recSize (d : Nat) : Nat :=
  match winKind d with
  | 1 => 8 + (portSize (winFcode d) + 7) / 8 * 8
  | 3 => 40
  | 4 | 5 => 80
  | 6 => 16
  | _ => 0

/-- The windows in use whose definitions satisfy a condition. -/
def winsWhere (s : State) (p : Nat → Bool) : List Nat := (s.br.defs.filter (fun x => p x.2)).map Prod.fst

/-! ## Records (Table 13-5) -/

/-- What a record is made from: its first field, data, flags of its kind other than RESUMED and NOTICE, notice code and tag. -/
structure RecIn where
  head : Nat := 0
  data : List Byte := []
  flags : Nat := 0
  notice : Nat := 0
  tag : Nat := 0
  deriving DecidableEq, Repr

/-- Exactly `n` bytes: cut or padded with 0. -/
def padTo (n : Nat) (bs : List Byte) : List Byte := (bs ++ List.replicate n 0).take n

/-- The bytes of a record. -/
def encRec (kind seq : Nat) (resumed : Bool) (r : RecIn) : List Byte :=
  let isN := b2n (r.notice ≠ 0)
  match kind with
  | 3 => u16 r.head ++ u8 (b2n resumed + 2 * isN) ++ u8 r.notice ++ u32 seq ++ padTo 32 r.data
  | 6 =>
    padTo 8 r.data ++ u8 (if r.notice = 0 then r.data.length else 0) ++ u8 (b2n resumed + r.flags + 8 * isN)
      ++ u8 r.notice ++ u8 0 ++ u32 seq
  | _ =>
    u32 r.head ++ u8 r.data.length ++ u8 (r.flags + 4 * b2n resumed + 8 * isN) ++ u8 r.notice ++ u8 0
      ++ padTo 64 r.data ++ u32 r.tag ++ u32 0

/-! ## The inbound queue (R346) -/

/-- Do the two copies of a window's pointers agree (R346)? -/
def BWin.sound (w : BWin) : Bool := w.wptr = w.wptrN && w.rptr = w.rptrN

def updWin (s : State) (n : Nat) (f : BWin → BWin) : State :=
  { s with br.wins := nset s.br.wins n (f (nget s.br.wins n {})) }

def getWin (s : State) (n : Nat) : BWin := nget s.br.wins n {}

/-- Put a record behind the others of a queue that has room. -/
def pushRec (s : State) (n t : Nat) (r : RecIn) : State :=
  let d := winDef s n
  updWin s n (fun w =>
    let resumed := w.resume && r.notice = 0
    { w with
      queue := w.queue ++ [{ seq := w.nextSeq, bytes := encRec (winKind d) w.nextSeq resumed r, resumed := resumed,
                             notice := r.notice ≠ 0, at_ := t }]
      nextSeq := w.nextSeq % 2 ^ 32 + 1
      resume := if r.notice = 0 then false else w.resume
      flushed := w.flushed && r.notice ≠ 0
      wptr := (w.wptr + 1) % 65536, wptrN := (w.wptr + 1) % 65536 })

/-- A queue whose pointers disagree is restarted (R346): content lost, notice 5, event 0x3051. -/
def soundQueue (s : State) (n t : Nat) : State :=
  let w := getWin s n
  if w.sound then s
  else
    let d := winDef s n
    let lost := w.queue.length
    let s := updWin s n (fun w => { w with
      queue := [], wptr := 0, wptrN := 0, rptr := 0, rptrN := 0, resume := true, flushed := false, lost := w.lost + lost })
    let s := bumps s E.brWinLost (n + 1) 0 lost
    let s := pushRec s n t { notice := 5 }
    let s := blockCount s (0x5385 + winHub d) 7
    emitH s (winHub d) t (srcHub (winHub d)) 0x3051 2 (u8 n ++ u32 lost)

/-- A record enters the window's queue; a full queue takes none (R346). -/
def enqueue (s : State) (n t : Nat) (r : RecIn) : State :=
  let s := soundQueue s n t
  if winCap (winDef s n) ≤ (getWin s n).queue.length then
    updWin (bumps s E.brWinLost (n + 1) 0 1) n (fun w => { w with resume := true, flushed := false, lost := w.lost + 1 })
  else pushRec s n t r

/-- A partial SER word closes and enters the queue (R345): FLUSHED is flag 2, ERROR 4, TIMEOUT 16. -/
def closeWord (s : State) (n t flags : Nat) : State :=
  let w := getWin s n
  if w.word = [] then s
  else
    let s := updWin s n (fun w => { w with word := [], wordErr := false })
    enqueue s n t { data := w.word, flags := flags + 4 * b2n w.wordErr }

/-- A notice is placed behind what has arrived (R348); notice 2 carries TIMEOUT and the READ's tag. -/
def notice (s : State) (n t code tag : Nat) : State :=
  let d := winDef s n
  if !(winQueued d) then s
  else
    let s := if winKind d = 6 then closeWord s n t 0 else s
    enqueue s n t { notice := code, tag := tag, flags := if code = 2 then 16 else 0
                    data := if winKind d = 6 && code = 2 then u32 tag else [] }

/-- A bridge operation released by the voter enters the operation queue of its window, in the hub that carries the window's
interface; a full queue drops it, and notice 7 follows (R352). -/
def bridgeOp (s : State) (h : Nat) (o : OutItem) : State :=
  let d := winDef s o.ident
  if d = 0 || winHub d ≠ h then s
  else if 64 ≤ (getWin s o.ident).ops.length then
    let s := bumps s E.brWinDropped (o.ident + 1) 0 1
    if winKind d = 2 then s else notice s o.ident s.cyc.tk 7 0
  else
    let op : BOp := { stall := o.stall, tag := o.tag, read := fieldAt o.data 0 1 = 2, ordered := bit (fieldAt o.data 1 1) 0,
                      offset := fieldAt o.data 2 2, data := (o.data.drop 8).take (fieldAt o.data 4 2) }
    updWin s o.ident (fun w => { w with ops := w.ops ++ [op] })

end Sys2Proof.Machine
end

