-- ==== Sys2Proof/Machine/StallCtl.lean ====
section
/-!
DEFINITION. Loading, replacing, starting, stopping and unloading stalls (04 R96 to R111), admission (05 R138), the image map
(05 R131), modes (05 R142) and HOLD (05 R143).
-/

namespace Sys2Proof.Machine

/-- The code of a stall state (Table 04-6). -/
def stallStateCode : StallSt → Nat
  | .loading => 1
  | .stopped => 2
  | .running => 3
  | .held => 4
  | .faulted => 5
  | .restarting => 6
  | .unloading => 7

/-! ## Placement and pools (R96, R97) -/

/-- The descriptors that occupy memory, with their placements: each loaded version and each one being loaded. -/
def occupants (s : State) : List (Descriptor × List Nat) :=
  s.sup.stalls.flatMap (fun p =>
    (p.2.desc, p.2.placed) :: (match p.2.loading with
      | some l => if l.replace then [(l.pkg.desc, l.placed)] else []
      | none => []))

/-- Bytes of a descriptor placed on a level among CODE, DATA, STACK. -/
def onLevel (d : Descriptor) (pl : List Nat) (lvl : Nat) : Nat :=
  (if pl.getD 0 0 = lvl then d.codeSize else 0) + (if pl.getD 1 0 = lvl then d.dataSize else 0)
    + (if pl.getD 2 0 = lvl then d.stackSize else 0)

/-- Free bytes of the code scratchpad of a core index. -/
def codeFree (s : State) (core : Nat) : Nat :=
  524288 - ((occupants s).map (fun o => if o.1.homeCore = core && o.2.getD 0 0 = 0 then o.1.codeSize else 0)).sum

/-- Free bytes of the data scratchpad of a core index. -/
def dataFree (s : State) (core : Nat) : Nat :=
  524288 - ((occupants s).map (fun o =>
    if o.1.homeCore = core then
      (if o.2.getD 1 0 = 0 then o.1.dataSize else 0) + (if o.2.getD 2 0 = 0 then o.1.stackSize else 0)
    else 0)).sum

/-- Lane SRAM that a stall takes for its segments fixed there and its DICTWIN. -/
def sramFixed (d : Descriptor) : Nat := 65536 + d.retainSize + d.mirrorSize + d.imageSize + d.outboxSize

/-- Lane SRAM in use by stalls. -/
def sramUsed (s : State) : Nat := ((occupants s).map (fun o => sramFixed o.1 + onLevel o.1 o.2 1)).sum

/-- LPDDR5 in use by stalls. -/
def lpddrUsed (s : State) : Nat := ((occupants s).map (fun o => o.1.bulkSize + onLevel o.1 o.2 2)).sum

/-- Checkpointed state of a stall (R97). -/
def ckptSize (d : Descriptor) : Nat :=
  d.dataSize + d.stackSize + d.retainSize + d.mirrorSize + d.outboxSize + d.bulkSize + 512

/-- Checkpointed state in use. -/
def ckptUsed (s : State) : Nat := ((occupants s).map (fun o => ckptSize o.1)).sum

/-- The placement of a package's STACK, DATA and CODE (R96), in that order; none where STACK fits no level.
DESIGN CHOICE (log 132): the segments that lie in lane SRAM whatever the placement are reserved before the three are placed. -/
def placeSegs (s : State) (d : Descriptor) : Option (List Nat) :=
  let df := dataFree s d.homeCore
  let sf := 58720256 - sramUsed s - sramFixed d
  let stackL := if d.stackSize ≤ df then some 0 else if d.stackSize ≤ sf then some 1 else none
  match stackL with
  | none => none
  | some sl =>
    let df := if sl = 0 then df - d.stackSize else df
    let sf := if sl = 1 then sf - d.stackSize else sf
    let dl := if d.dataSize ≤ df then 0 else if d.dataSize ≤ sf then 1 else 2
    let sf := if dl = 1 then sf - d.dataSize else sf
    let cl := if d.codeSize ≤ codeFree s d.homeCore then 0 else if d.codeSize ≤ sf then 1 else 2
    some [cl, dl, sl]

/-- Do the pools hold the package beside what is loaded (R97)? -/
def poolsFit (s : State) (d : Descriptor) : Bool :=
  match placeSegs s d with
  | none => false
  | some pl =>
    sramUsed s + sramFixed d + onLevel d pl 1 ≤ 58720256
      && lpddrUsed s + d.bulkSize + onLevel d pl 2 ≤ 12884901888
      && ckptUsed s + ckptSize d ≤ 268435456

/-! ## Admission (05 R138) -/

/-- Capacity of a core per crossing for a value of CYCLE_CPF (R138). -/
def capacityFor (c cpf : Nat) : Nat := 9 * (c - 20000) * 1500 / (10000 * cpf)

/-- Capacity of a core per crossing (CORE_CAPACITY). -/
def capacity (s : State) : Nat := capacityFor s.cyc.c (gv s E.cycleCpf)

/-- Data length of an image map entry (05 Table 05-7) and its padded length (R130). -/
def imapLen (v : Nat) : Nat := bits v 96 16
def imapPadded (v : Nat) : Nat := 16 + (imapLen v + 7) / 8 * 8

/-- Total padded length of the mapped items. -/
def mappedBytes (m : NMap Nat) : Nat := (m.map (fun p => imapPadded p.2)).sum

/-- The admission charge (R138). -/
def chargeOf (fuel : Nat) (m : NMap Nat) : Nat := fuel + (mappedBytes m + 63) / 64

/-- The admitted stalls of a core other than one. -/
def admittedOn (s : State) (core self : Nat) : List Stall :=
  (s.sup.stalls.filter (fun p => p.1 ≠ self && p.2.admitted && p.2.desc.homeCore = core)).map Prod.snd

/-- The length over which the grid of a core repeats: the largest period, at most 4096. -/
def gridLen (l : List Stall) (period : Nat) : Nat := (l.map (fun st => st.desc.period)).foldl max period

/-- The charges of stalls due at a grid position. -/
def loadAt (l : List Stall) (pos : Nat) : Nat :=
  (l.map (fun st => if pos % st.desc.period = st.phase then chargeOf st.desc.fuel st.imap else 0)).sum

/-- Does a charge fit at a phase in every grid position? -/
def phaseFits (l : List Stall) (cap charge period phase : Nat) : Bool :=
  (List.range (gridLen l period / period)).all (fun j => loadAt l (phase + j * period) + charge ≤ cap)

/-- The lowest phase that fits (R138). -/
def lowestPhase (s : State) (id : Nat) (st : Stall) : Option Nat :=
  let l := admittedOn s st.desc.homeCore id
  (List.range st.desc.period).find? (phaseFits l (capacity s) (chargeOf st.desc.fuel st.imap) st.desc.period)

/-- Largest admitted charge at any grid position of a core (CORE_ADMITTED). -/
def coreAdmitted (s : State) (core : Nat) : Nat :=
  let l := admittedOn s core 65535
  ((List.range (gridLen l 1)).map (loadAt l)).foldl max 0

/-- RETAIN plus MIRROR of the admitted stalls other than one. -/
def retainTotal (s : State) (self : Nat) : Nat :=
  ((s.sup.stalls.filter (fun p => p.1 ≠ self && p.2.admitted)).map
    (fun p => p.2.desc.retainSize + p.2.desc.mirrorSize)).sum

/-- Largest mirror record of the admitted mirrored stalls with one more (12 R332): header, mapped items with headers, result
and trigger areas (log 14). -/
def mirrorBytes (s : State) (self : Nat) (extra : Option Stall) : Nat :=
  let l := (s.sup.stalls.filter (fun p => p.1 ≠ self && p.2.admitted && p.2.desc.mirrored)).map Prod.snd
  let one := fun (st : Stall) => 64 + mappedBytes st.imap + 1024 + 2048
  (l.map one).sum + (match extra with | some st => if st.desc.mirrored then one st else 0 | none => 0)

/-- The conditions of a START (R138, R148, 12 R332): the code of a refusal, or none. -/
def startConds (s : State) (id : Nat) (st : Stall) : List Nat :=
  refuseIf (lowestPhase s id st).isNone abtState 3
    ++ refuseIf (16777216 < retainTotal s id + st.desc.retainSize + st.desc.mirrorSize) abtState 3
    ++ refuseIf (st.desc.mirrored && 65536 * (s.cyc.c / 125000) < mirrorBytes s id (some st)) abtState 3

/-- Admit a stall at its lowest phase. -/
def admitAt (s : State) (id : Nat) (st : Stall) : Stall :=
  { st with admitted := true, phase := (lowestPhase s id st).getD 0 }

/-! ## Memory of a loaded version (R104, R105) -/

/-- The registers on entering STOPPED after a load or a restart (R105). -/
def initRegs (d : Descriptor) (x : Exec) : Exec :=
  rset { x with regs := Vector.replicate 32 0, pc := d.entryPc, sw := 0, fuel := 0 } 31 d.initG31

/-- The memory of a freshly copied package (R104). -/
def loadMem (p : StallPkg) : Mem := mputs (mputs [] baseCode p.code) baseData p.data

/-- Memory after RESTARTING: DATA, STACK, OUTBOX and BULK are those of a load; CODE, RETAIN and MIRROR are kept (R111). -/
def restartMem (d : Descriptor) (m : Mem) (data : List Byte) : Mem :=
  let m := mclear m baseData baseRetain
  let m := mclear m baseImage (baseBulk + d.bulkSize)
  mputs m baseData data

/-- The initialised DATA of the package in use: read again from the loft. -/
def pkgData (s : State) (n : Nat) : List Byte :=
  match parsePkg (pkgPayload s n) with
  | some p => p.data
  | none => []

/-! ## Triggers and outcomes of a stall -/

/-- Cancel every trigger that a stall armed. -/
def cancelTriggers (s : State) (id : Nat) : State :=
  { s with sup.triggers := s.sup.triggers.filter (fun p => p.2.owner ≠ id) }

/-- Values of stall-defined entries that a version no longer declares the same way are dropped (23 R538). -/
def dropDecls (s : State) (old new : List Decl) : State :=
  let keep := fun (c : Decl) => new.any (fun n => n.index = c.index && n.sub = c.sub && n.ty = c.ty && n.len = c.len
    && !(offLimits (declEntry n) (gvx s (declEntry c) c.index c.sub 0)))
  { s with sup.dict := old.foldl (fun d c => if keep c then d else nerase d (ekey c.index c.sub 0)) s.sup.dict }

/-! ## STALL_LOAD and STALL_REPLACE -/

/-- Settings parts that a version's persistent declarations need (23 R537, 18 R458). -/
def partsOf (decls : List Decl) : Nat :=
  let idxs := (decls.filter (·.persistent)).map (·.index) |>.dedup
  (idxs.map (fun i =>
    let lens := (decls.filter (fun c => c.persistent && c.index = i)).map (·.len)
    (lens.foldl (fun (acc : Nat × Nat) n => if acc.2 + n ≤ 4060 then (acc.1, acc.2 + n) else (acc.1 + 1, n)) (1, 0)).1)).sum

/-- Checks of a package beyond the grant and the capacity (R103 steps 3 to 5): the first step that refuses. -/
def pkgConds (s : State) (n : Nat) (self : Option Nat) : List Nat :=
  let b := pkgPayload s n
  let u := useCheck s n 2
  if u ≠ 0 then [u]
  else if !(descIntact b) then [abort abtIntegrity 1]
  else
    match parsePkg b with
    | none => [abort abtRange 0]
    | some p =>
      let others := s.sup.stalls.filter (fun q => some q.1 ≠ self)
      if !(descRange b p.desc) || dictOverlap s p.desc self || !(declsOk p b) || !(itemFlagsOk p b)
        || !(p.map.all (itemOk s p self)) || !(slotsOk s p)
        || 16384 < (others.map (fun q => q.2.decls.length)).sum + p.decls.length then [abort abtRange 0]
      else if 2048 < (others.map (fun q => partsOf q.2.decls)).sum + partsOf p.decls then [abort abtCapacity 7]
      else refuseIf (!(poolsFit s p.desc)) abtRange 0

/-- The descriptor of a package, where it can be read. -/
def pkgDesc (s : State) (n : Nat) : Option Descriptor :=
  let b := pkgPayload s n
  if useCheck s n 2 = 0 && descIntact b then some (parseDesc b) else none

/-- The refusal of a STALL_LOAD in the order of R103. -/
def loadConds (s : State) (w : WReq) : List Nat :=
  let n := bits w.v 0 32
  let grant := bits w.v 64 64
  let g := refuseIf (bits w.v 32 32 ≠ 0 || grant / 1024 ≠ 0) abtRange 1
    ++ refuseIf (bit grant 4 && w.roleIn s ≠ 4) abtAccess 4
    ++ (match pkgDesc s n with
        | some d => refuseIf (d.rights &&& ~~~ BitVec.ofNat 64 grant ≠ 0) abtAccess 0xFF
        | none => [])
  if g ≠ [] then g
  else if 512 ≤ s.sup.stalls.length then [abort abtCapacity 2]
  else pkgConds s n none

/-- The lowest free stall id. -/
def freeId (s : State) : Nat := ((List.range 512).find? (fun i => !(nhas s.sup.stalls i))).getD 511

/-- The effect of an accepted STALL_LOAD (R103, R508). -/
def loadEff (s : State) (w : WReq) : State :=
  let n := bits w.v 0 32
  match parsePkg (pkgPayload s n) with
  | none => s
  | some p =>
    let id := freeId s
    let pl := (placeSegs s p.desc).getD [2, 2, 1]
    let ld : Loading := { pkgNo := n, pkg := p, since := s.cyc.tk, waiting := restabling s, placed := pl }
    let st : Stall := { state := .loading, pkgNo := n, desc := p.desc, grant := BitVec.ofNat 64 (bits w.v 64 64),
                        map := p.map, decls := p.decls, placed := pl, loading := some ld }
    let s := setStall s id st
    let s := { s with sup.ctxs := nset s.sup.ctxs (5000 + id) {} }
    sv s E.stallLastId id

/-- STALL_LOAD (R103). -/
def hStallLoad : Handler :=
  { conds := loadConds, eff := loadEff, act := fun _ => some (9, 0, 0), pkg := fun w => bits w.v 0 32 }

/-- STALL_LOAD. -/
def execStallLoad (ctx pkg : Nat) (grant : Word) (s : State) : Out :=
  .next (writeCmd hStallLoad E.stallLoad ctx 0x2200 2 (pkg % 2 ^ 32 + grant.toNat * 2 ^ 64) s)

/-- The conditions of a STALL_REPLACE (R106). -/
def replaceConds (s : State) (w : WReq) : List Nat :=
  match getStall? s w.inst with
  | none => []
  | some st =>
    let g := refuseIf (!(st.state = .stopped || st.state = .running || st.state = .held) || st.loading.isSome) abtState 3
      ++ (match pkgDesc s w.v with
          | some d => refuseIf (d.rights &&& ~~~ st.grant ≠ 0) abtAccess 0xFF
          | none => [])
    if g ≠ [] then g
    else
      pkgConds s w.v (some w.inst) ++
        (match pkgDesc s w.v with
         | some d => refuseIf (d.retainTag ≠ st.desc.retainTag || d.retainSize ≠ st.desc.retainSize
             || d.mirrorSize ≠ st.desc.mirrorSize) abtRange 0
         | none => [])

/-- The effect of an accepted STALL_REPLACE (R106). -/
def replaceEff (s : State) (w : WReq) : State :=
  match parsePkg (pkgPayload s w.v) with
  | none => s
  | some p =>
    let pl := (placeSegs s p.desc).getD [2, 2, 1]
    let ld : Loading := { pkgNo := w.v, pkg := p, replace := true, since := s.cyc.tk, waiting := restabling s, placed := pl }
    updStall s w.inst (fun st => { st with loading := some ld })

/-- STALL_REPLACE (R106). -/
def hStallReplace : Handler :=
  { conds := replaceConds, eff := replaceEff, act := fun _ => some (9, 0, 0), pkg := fun w => w.v }

/-- STALL_REPLACE. -/
def execStallReplace (ctx pkg : Nat) (s : State) : Out := .next (writeCmd hStallReplace E.stallReplace ctx 0x2201 5 pkg s)

/-! ## STALL_CMD (R110, R111) -/

/-- Does another loaded stall map a shared entry of the stall (R108)? -/
def sharedMapped (s : State) (id : Nat) (st : Stall) : Bool :=
  s.sup.stalls.any (fun p => p.1 ≠ id && p.2.map.any (fun m =>
    st.desc.dictBase ≤ m.index && m.index < st.desc.dictBase + st.desc.dictCount))

/-- The conditions of a STALL_CMD write (04 Table 04-6). -/
def cmdConds (s : State) (w : WReq) : List Nat :=
  match getStall? s w.inst with
  | none => []
  | some st =>
    match w.v with
    | 1 => if st.state = .stopped then startConds s w.inst st else refuseIf (st.state ≠ .running) abtState 3
    | 2 => refuseIf (!(st.state = .stopped || st.state = .running || st.state = .held || st.state = .faulted)) abtState 3
    | 3 => if st.state = .stopped then startConds s w.inst st else refuseIf (st.state ≠ .faulted) abtState 3
    | 4 => refuseIf (!(ctxIsStall w.ctx) && !(roleOk (w.roleIn s) 3)) abtAccess 3
        ++ refuseIf (!(st.state = .stopped || st.state = .faulted) || sharedMapped s w.inst st) abtState 3
    | _ => []

/-- Nothing of a stall's activations runs on: what ran, or waited in a core's queue, is dropped. -/
def endRuns (s : State) (id : Nat) : State :=
  { s with cyc.runs := s.cyc.runs.map (fun r => { r with
      run := if r.run = some id then none else r.run, queue := r.queue.filter (fun q => q.stall ≠ id) }) }

/-- RESTARTING begins (R111): it ends in RUNNING at the next boundary. Waiting entries of the cancelled triggers are withdrawn (07 R207).
The restart count rises here, as RESTARTING begins (log 134). -/
def beginRestart (s : State) (id : Nat) (keepAdmission : Bool) : State :=
  let s := endRuns (cancelTriggers s id) id
  match getStall? s id with
  | none => s
  | some st =>
    let st := if keepAdmission then st else admitAt s id st
    let x := { st.exec with mem := restartMem st.desc st.exec.mem (pkgData s st.pkgNo) }
    setStall s id { st with
      state := .restarting, restartAt := some s.cyc.k, autoPending := false, first := true, continued := false
      skipped := false, stepped := false, lastFuelStop := false, imgWin := {}, trigWait := [], dataFrom := s.cyc.k
      dwWrites := [], dwOrder := []
      exec := { initRegs st.desc x with restarts := st.exec.restarts + 1 } }

/-- The mode once no stall is HELD any more, or one has become HELD (05 Table 05-11), with event 0x2050. -/
def holdMode (s : State) (ctx : Nat) : State :=
  let want := if s.sup.mode = 2 then 2 else if 0 < heldCount s then 3 else 1
  if want = s.sup.mode then s
  else
    let s' := { s with sup.mode := want }
    emitL s' (srcHub 0) 0x2050 0 (u8 s.sup.mode ++ u8 want ++ u16 (ctxCode ctx))

/-- What the supervisors do in the crossing of an unload (R108): triggers cancelled, outcomes discarded, event 0x2042. The id returns
to EMPTY at the boundary that ends the crossing. -/
def beginUnload (s : State) (id : Nat) : State :=
  let s := cancelTriggers s id
  let s := { s with sup.posted := s.sup.posted.filter (fun p => p.stall ≠ id) }
  match getStall? s id with
  | none => s
  | some st =>
    let s := setStall s id { st with unloadWait := false, restartAt := some s.cyc.k, results := [], trigWait := [] }
    emitL s (srcStall id) 0x2042 1 (u32 st.pkgNo ++ u16 st.unloadFor) id

/-- The effect of a STALL_CMD write. A STOP of a HELD or FAULTED stall leaves the last stop reason as it is (log 135). An UNLOAD ends
the load of a replacement. -/
def cmdEff (s : State) (w : WReq) : State :=
  match getStall? s w.inst with
  | none => s
  | some st =>
    match w.v with
    | 1 => if st.state = .stopped then setStall s w.inst { admitAt s w.inst st with state := .running } else s
    | 2 =>
      let held := st.state = .held
      let s := setStall s w.inst { st with state := .stopped, admitted := false, phase := 0,
                                           exec.stopReason := if st.state = .running then 4 else st.exec.stopReason,
                                           autoPending := false }
      if held then holdMode s w.ctx else s
    | 3 => beginRestart s w.inst (st.state = .faulted)
    | 4 =>
      let wait := restabling s
      let s := setStall s w.inst { st with
        state := .unloading, admitted := false, loading := none, unloadFor := ctxCode w.ctx, unloadWait := wait }
      if wait then s else beginUnload s w.inst
    | _ => s

/-- STALL_CMD (R110). -/
def hStallCmd : Handler :=
  { conds := cmdConds, eff := cmdEff, act := fun w => if w.v = 4 then some (9, 0, 0) else none }

/-- STALL_CMD = 1, START (R110, R138). -/
def execStallCmdStart (ctx : Nat) (s : State) : Out := .next (writeCmd hStallCmd E.stallCmd ctx 0x2201 1 1 s)

/-- STALL_CMD = 2, STOP (R111). -/
def execStallCmdStop (ctx : Nat) (s : State) : Out := .next (writeCmd hStallCmd E.stallCmd ctx 0x2201 1 2 s)

/-- STALL_CMD = 3, RESTART (R111). -/
def execStallCmdRestart (ctx : Nat) (s : State) : Out := .next (writeCmd hStallCmd E.stallCmd ctx 0x2201 1 3 s)

/-- STALL_CMD = 4, UNLOAD (R108). -/
def execStallCmdUnload (ctx : Nat) (s : State) : Out := .next (writeCmd hStallCmd E.stallCmd ctx 0x2201 1 4 s)

/-! ## HOLD and RELEASE (05 R143) -/

/-- Is an E0 function affected by holding the stall (R143)? -/
def holdHitsE0 (s : State) (id : Nat) (st : Stall) : Bool :=
  let idents := (s.bb.inForce.entries.filter (fun p => p.stall = id && p.node = s.bb.address)).map (fun p => srcOfTrain s p.ident)
  s.sup.stalls.any (fun p => p.2.desc.energyClass = 0 && p.1 ≠ id &&
    (p.2.imap.any (fun m => bits m.2 0 8 = 1 && idents.contains (srcOfMap s (bits m.2 32 32)))
      || p.2.map.any (fun m => st.desc.dictCount ≠ 0 && st.desc.dictBase ≤ m.index
          && m.index < st.desc.dictBase + st.desc.dictCount)))

/-- The conditions of a STALL_HOLD write. -/
def holdConds (s : State) (w : WReq) : List Nat :=
  match getStall? s w.inst with
  | none => []
  | some st =>
    if w.v = 1 then
      refuseIf (s.sup.mode = 2) abtState 1
        ++ refuseIf (st.state ≠ .running || st.desc.energyClass ≤ 1 || st.desc.mirrored || holdHitsE0 s w.inst st) abtState 3
    else refuseIf (w.v = 2 && st.state ≠ .held) abtState 3

/-- The effect of a STALL_HOLD write: the state, the module mode that follows, event 0x2051. -/
def holdEff (s : State) (w : WReq) : State :=
  let s := updStall s w.inst (fun st => { st with
    state := if w.v = 1 then .held else .running
    exec.stopReason := if w.v = 1 then 5 else st.exec.stopReason })
  let s := emitL s (srcStall w.inst) 0x2051 1 (u8 w.v ++ u16 (ctxCode w.ctx)) w.inst
  holdMode s w.ctx

/-- STALL_HOLD (R143). -/
def hStallHold : Handler :=
  { conds := holdConds, eff := holdEff, act := fun w => if w.v = 1 then some (4, 0, 0) else none }

/-- STALL_HOLD = 1 (R143). -/
def execStallHold (ctx : Nat) (s : State) : Out := .next (writeCmd hStallHold E.stallHold ctx 0x2201 9 1 s)

/-- STALL_HOLD = 2 (R143). -/
def execStallRelease (ctx : Nat) (s : State) : Out := .next (writeCmd hStallHold E.stallHold ctx 0x2201 9 2 s)

/-! ## The image map (05 R131) -/

/-- Length that a kind fixes (05 Table 05-8); 0 for a declared one. -/
def kindLen (kind : Nat) : Nat :=
  if kind = 5 then 80 else if kind = 6 || kind = 7 || kind = 8 then 32 else if kind = 9 then 16 else 0

/-- Does an image map entry set a reserved byte (Table 05-7, 00 R9)? -/
def imapReserved (v : Nat) : Bool := bits v 8 8 ≠ 0 || bits v 112 16 ≠ 0

/-- Is an image map entry in range, reserved bytes apart (R131)? -/
def imapOk (st : Stall) (sub v : Nat) : Bool :=
  let kind := bits v 0 8
  let off := bits v 64 32
  let len := imapLen v
  v = 0 || (1 ≤ kind && kind ≤ 10 && off % 8 = 0 && 0x1000 ≤ off
    && 1 ≤ len && len ≤ 4096 && (kindLen kind = 0 || len = kindLen kind)
    && off + imapPadded v ≤ st.desc.imageSize
    && st.imap.all (fun p => p.1 = sub || off + imapPadded v ≤ bits p.2 64 32 || bits p.2 64 32 + imapPadded p.2 ≤ off))

/-- Would the stall still fit at its phase with another image map (R138)? -/
def imapFits (s : State) (id : Nat) (st : Stall) (m : NMap Nat) : Bool :=
  !st.admitted || phaseFits (admittedOn s st.desc.homeCore id) (capacity s) (chargeOf st.desc.fuel m) st.desc.period st.phase

/-- Does a map entry of kind 4 hold no record of its window (13 R343)? -/
def imapNoRecord (s : State) (v : Nat) : Bool :=
  let d := winDef s (bits v 32 32)
  bits v 0 8 = 4 && d ≠ 0 && imapLen v < 8 + recSize d

/-- The conditions of a STALL_IMAP write. -/
def imapConds (s : State) (w : WReq) : List Nat :=
  match getStall? s w.inst with
  | none => []
  | some st =>
    refuseIf (imapReserved w.v) abtRange 1
      ++ refuseIf (!(imapOk st w.sub w.v) || imapNoRecord s w.v) abtRange 0
      ++ refuseIf (bits w.v 0 8 = 3 && st.desc.energyClass = 0) abtAccess 0xFF
      ++ refuseIf (st.state = .loading || st.state = .restarting || st.state = .unloading) abtState 3
      ++ refuseIf (!(imapFits s w.inst st (nput st.imap w.sub w.v 0))) abtState 3

/-- STALL_IMAP (R131): in use from the first image built after the write takes effect. -/
def hStallImap : Handler :=
  { conds := imapConds, eff := fun s w => updStall s w.inst (fun st => { st with imap := nput st.imap w.sub w.v 0 }) }

/-- STALL_IMAP. -/
def execStallImapWrite (ctx sub v : Nat) (s : State) : Out := .next (writeCmd hStallImap E.stallImap ctx 0x2210 sub v s)

/-! ## Modes and CYCLE_CPF -/

/-- CYCLE_MODE_CMD (R142): effective at the boundary after; it changes nothing where the mode is already so. In recovery a RUN
command is refused (20 R493). -/
def hCycleMode : Handler :=
  { conds := fun s w => refuseIf (w.v = 1 && s.st.recovery) abtState 1
    eff := fun s w =>
      if (w.v = 1 && s.sup.mode ≠ 2) || (w.v = 2 && s.sup.mode = 2) then s
      else { s with sup.modePending := some (w.v, ctxCode w.ctx) } }

/-- CYCLE_MODE_CMD = 1 (R142). -/
def execCycleModeCmdRun (ctx : Nat) (s : State) : Out := .next (writeCmd hCycleMode E.cycleModeCmd ctx 0x2400 2 1 s)

/-- CYCLE_MODE_CMD = 2 (R142). -/
def execCycleModeCmdStop (ctx : Nat) (s : State) : Out := .next (writeCmd hCycleMode E.cycleModeCmd ctx 0x2400 2 2 s)

/-- CYCLE_CPF (R138): refused if an admitted stall would no longer fit. -/
def hCycleCpf : Handler :=
  { conds := fun s w =>
      refuseIf (0 < w.v && (List.range 16).any (fun c => capacityFor s.cyc.c w.v < coreAdmitted s c)) abtState 3
    eff := storeEff E.cycleCpf }

/-- CYCLE_CPF. -/
def execCycleCpfWrite (ctx v : Nat) (s : State) : Out := .next (writeCmd hCycleCpf E.cycleCpf ctx 0x2400 4 v s)

end Sys2Proof.Machine
end

