-- ==== Sys2Proof/Machine/Lanes.lean ====
section
/-!
DEFINITION. The lane set, lane faults (06 R155 to R157), mismatch restart and loss of the module (06 R179 to R181), and
re-stabling (06 R175 to R178).
-/

namespace Sys2Proof.Machine

/-! ## Records whose code the spec does not state -/

/-- A record that a rule asks for without stating its code, severity or data: those are free values (log 6). -/
def emitOpen (s : State) (origin t src : Nat) : State :=
  let c := freeVal s
  let s := freeNext s
  let v := freeVal s
  let s := freeNext s
  let d := freeVal s
  (emitJ (freeNext s) origin t src (c % 65536) (v % 5) (leBytes 36 d) 0xFFFF).2

/-! ## Re-stabling attempts -/

/-- Is every core shed that holds a segment of a loaded stall OPEN (21 R512)? -/
def bulkShedsOpen (s : State) : Bool :=
  [1, 2, 3].all (fun i => (getShed s i).state = 0 || (occupants s).all (fun o =>
    o.1.homeCore / 4 ≠ i
      || ((o.2.getD 0 0 ≠ 0 || o.1.codeSize = 0) && (o.2.getD 1 0 ≠ 0 || o.1.dataSize = 0)
        && (o.2.getD 2 0 ≠ 0 || o.1.stackSize = 0))))

/-- An attempt ends without a join (R178), with event 0x2063; `cause` is the code of 06 Table 06-11. -/
def abandon (s : State) (l cause : Nat) : State :=
  match (getLane s l).attempt with
  | none => s
  | some a =>
    let s := emitL s (srcLane l) 0x2063 2 (u8 a.phase ++ u8 a.number ++ u8 cause)
    let s := bumpi s E.laneAbandoned l
    let n := gvi s E.laneAbandoned l
    updLane s l (fun d => { d with
      attempt := none
      state := if 3 ≤ n then .failed else .out
      retryAt := if 3 ≤ n then none else some (s.cyc.tk + 1000000000) })

/-- Abandon the attempts of every lane. -/
def abandonAll (s : State) (cause : Nat) : State := abandon (abandon (abandon s 0 cause) 1 cause) 2 cause

/-- A fresh attempt of a lane (R175): at its reset phase, or past it where the lane's reset has completed. Its limit counts from its
start (R178): RESTABLE_CMD, or the completion of the reset. -/
def newAttempt (s : State) (l phase : Nat) : Attempt :=
  { phase := phase, number := gvi s E.laneAbandoned l + 1 }

/-- The bytes of an attempt that have been sent at T_k (RESTABLE_PROGRESS): 8 bytes in a ns on each of the two links of bulk, or on
the one of a dirty pass (R175). -/
def sentSoFar (s : State) (a : Attempt) : Nat :=
  if a.phase = 2 && a.bulk then min a.state (8 * (s.cyc.tk - a.began)) + min a.code (8 * (s.cyc.tk - a.began))
  else a.sent - 8 * (a.passEnd - s.cyc.tk)

/-! ## Loss of the module, and mismatch restart -/

/-- All stalls stop, the hubs command programmed safe states (01 Table 01-6) and a twin sends RELEASE (12 R321), with event
0x2065. -/
def moduleLost (s : State) (cause : Nat) : State :=
  if s.agree.lost then s
  else
    let s := emitL s (srcHub 0) 0x2065 4 (u8 cause ++ u64 s.cyc.k)
    let s := releaseLease s s.cyc.tk
    { s with
      agree.lost := true
      st.fatal := true
      cyc.runs := Vector.replicate 16 {}
      sup.outs := []
      hubs := s.hubs.map (fun h => { h with voter.safeCmd := true, voter.words := [], voter.items := [] }) }

/-- A stall is faulted with DIVERGED at its agreed generation, fuel remaining 0 (R181, 04 R115). -/
def diverge (s : State) (i : Nat) : State :=
  match getStall? s i with
  | none => s
  | some st =>
    let f := { mkFrame st.exec st.exec.pc (causeField 0x15 0 0 0) 0 with fuel := 0 }
    let s := setStall s i { st with
      exec := { st.exec with rescue := f, faultCause := f.cause, faultTime := s.cyc.tk, stopReason := 3 }
      state := .faulted, autoPending := true, lastFuelStop := false }
    emitL s (srcStall i) 0x2040 2
      (u64 f.cause.toNat ++ u64 f.pc.toNat ++ u64 f.fa.toNat ++ u64 f.fuel.toNat ++ u32 st.exec.restarts) i

/-- The key of a counter among the numbers released (R170): series 1 telegrams by identifier, 2 sessions, 3 tags by stall. -/
def relKey (series n : Nat) : Nat := series * 2 ^ 32 + n

/-- The highest number of a counter that the images of the hubs in operation carry as released (R170). -/
def highestReleased (s : State) (key : Nat) : Option Nat :=
  match [0, 1].filterMap (fun h => if hubUp s h then nget? (vget s.cyc.hubImg h {}).released key else none) with
  | [] => none
  | l => some (l.foldl max 0)

/-- At the end of a mismatch restart each counter of telegrams and datagrams goes one past the number released, and no tag is used
twice (R170, log 140). -/
def countersAfter (s : State) : State :=
  { s with
    sup.seqs := s.sup.seqs.map (fun p => (p.1, match highestReleased s (relKey 1 (p.1 % 2 ^ 32)) with
      | some m => (m + 1) % 2 ^ 48
      | none => p.2))
    sup.stalls := s.sup.stalls.map (fun p => (p.1, { p.2 with
      exec.nextTag := max p.2.exec.nextTag (match highestReleased s (relKey 3 p.1) with
        | some m => m + 1
        | none => 0) }))
    con.sessions := s.con.sessions.map (fun p => (p.1, { p.2 with
      txSeq := (highestReleased s (relKey 2 p.1)).getD p.2.txSeq })) }

/-- What dictionary writes have changed outside the supervisors' state. -/
def undoNow (s : State) : Undo :=
  { storeDue := s.upd.storeDue, roots := s.upd.roots, cas := s.upd.cas, pwds := s.upd.pwds, keys := s.bb.keys
    configured := s.bb.configured, companions := s.bb.companions, edit := s.saf.edit, pending := s.saf.pending }

/-- It is put back as it was with the agreed generation. -/
def undoBack (s : State) : State :=
  match s.agree.undo with
  | none => s
  | some u =>
    { s with
      upd := { s.upd with storeDue := u.storeDue, roots := u.roots, cas := u.cas, pwds := u.pwds }
      bb := { s.bb with keys := u.keys, configured := u.configured, companions := u.companions }
      saf.edit := u.edit, saf.pending := u.pending }

/-- A context after a rollback: role, select values, cursor and filter are those of the agreed generation; what it awaits and its
refusals go on. -/
def ctxBack (s : State) (key : Nat) (c : Context) : Context :=
  match nget? s.agreed.ctxs key with
  | none => c
  | some a => { a with outstanding := c.outstanding, refusals := c.refusals }

/-- The lanes return to the agreed generation (R173, R179, R180): requests wait for their answer at the resume boundary, and
the DICTWIN writes of agreed activations keep their place. -/
def rollback (s : State) : State :=
  let live := s.sup.reqs.filter (fun r => !(ctxIsStall r.ctx))
  let own := s.agreed.reqs.filter (fun r => ctxIsStall r.ctx)
  let ctxs := s.sup.ctxs.map (fun p => (p.1, ctxBack s p.1 p.2))
  let affected := s.agree.affected ++ s.sup.resps.filter (fun r => !(s.agreed.resps.contains r))
  { undoBack s with
    sup := { s.agreed with reqs := live ++ own, ctxs := ctxs, resps := [], outs := [], outsPrev := [], buckets := s.sup.buckets }
    agree.affected := affected }

/-- A mismatch restart (R179 to R181): `cause` is a code of 06 Table 06-12 and `named` the stalls that the mismatch names.
`executed` says whether the present crossing's activations have run. -/
def mismatch (s : State) (cause : Nat) (named : List Nat) (executed : Bool) : State :=
  if s.agree.lost || s.agree.mismatch then s
  else
    let sid := match named.dedup with | [i] => if i = 0xFFFF then 0xFFFF else i | _ => 0xFFFF
    let s := bump s E.mismatchRestarts
    let s := emitL s (srcHub 0) 0x2064 2 (u8 cause ++ u16 sid ++ u64 s.cyc.k ++ u8 (laneMask s))
    let second := match s.agree.lastMismatch with
      | none => none
      | some (t, n) => if s.cyc.tk - t ≤ 10000000000 then some n else none
    let s := { s with agree.lastMismatch := some (s.cyc.tk, sid) }
    match second with
    | some n =>
      if n = sid && sid ≠ 0xFFFF then restart s executed (some sid) else moduleLost s 3
    | none => restart s executed none
where
  /-- Steps 1 to 4 of R179. -/
  restart (s : State) (executed : Bool) (div : Option Nat) : State :=
    let s := abandonAll s 0xFF
    let s := rollback s
    let s := match div with
      | none => s
      | some i => let s := diverge s i
                  { s with agreed.stalls := s.sup.stalls }
    let s := { s with
      lanes := s.lanes.map (fun l => if l.state = .inSet then { l with rollback := true } else l)
      agree.mismatch := true
      agree.resumeDue := false
      cyc.skipFrom := some (if executed then s.cyc.k + 1 else s.cyc.k)
      cyc.runs := Vector.replicate 16 {}
      cyc.lagLanes := []
      hubs := s.hubs.map (fun h => { h with voter.outputHold := true, voter.words := [], voter.matchedLog := []
                                            voter.early := []
                                            voter.items := h.voter.items.filter (fun p => p.2.whole) }) }
    send s { kind := .mismatchMarker, a := s.cyc.k, b := laneMask s }

/-! ## Lane faults -/

/-- A lane fault of a cause of 06 Table 06-2 (R157): `det` is the detecting die's source number, `named` the stalls that a
mismatch restart in 2oo2 would name, `executed` as for `mismatch`. -/
def laneFault (s : State) (l cause det : Nat) (named : List Nat := []) (executed : Bool := true) : State :=
  let st := (getLane s l).state
  if s.agree.lost || st = .failed then s
  else
    let two := decide ((laneSet s).length ≤ 2)
    if cause = 11 && two then s
    else
      let s := emitL s (srcLane l) 0x2060 2 (u8 cause ++ u64 s.cyc.k ++ u16 det)
      let s := bumpi s E.laneFaults l
      let s := updLane s l (fun d => { d with cause := cause })
      if st = .inSet then
        if !two then
          let s := svi { s with perf.setChanged := true } E.laneAbandoned l 0
          updLane s l (fun d => { d with state := .out, resetDue := true, halted := true, retryAt := none })
        else if cause ≤ 5 then mismatch s 4 named executed
        else
          moduleLost (updLane s l (fun d => { d with state := .out, halted := true })) 4
      else abandon s l cause

/-- The stall named by an output item. -/
def itemStall (o : Option OutItem) : List Nat :=
  match o with
  | some o => if o.stall = 0xFFFF then [] else [o.stall]
  | none => []

/-- LANE_HARDWARE_ERROR (03 R91): the stall stops on that lane, which reports a lane fault of cause 7; outside the set it ends a
re-stabling (R157). -/
def execLaneHardwareError (lane : Fin 3) (_core : CoreIx) (_t : Nat) (s : State) : Out :=
  .next (laneFault s lane.val 7 (srcLane lane.val))

/-- TIMING_LAG (05 R123): a lane that executes reports that a core has not ended its activations; event 0x2049, which carries the
number of the crossing current at the report, as 0x204A does (log 139). What follows depends on how many lanes of the set have
reported when the crossing ends; the lag of a lane in SHADOW is its own (R157). -/
def execTimingLag (lane : Fin 3) (core : CoreIx) (s : State) : Out :=
  .next (
    let shadow := (getLane s lane.val).state = .shadow
    if (inSet s lane.val || shadow) && !s.agree.lost then
      let s := emitL s (srcLane lane.val) 0x2049 2 (u64 s.cyc.k ++ u8 core.val)
      if shadow then laneFault s lane.val 6 (srcLane lane.val)
      else if s.cyc.lagLanes.contains lane.val then s
      else { s with cyc.lagLanes := s.cyc.lagLanes ++ [lane.val] }
    else s)

/-- The lag reports of a crossing are judged at its end (R123). The context of a mode change without one is not stated: a free
value (log 6). -/
def judgeLag (s : State) : State :=
  match s.cyc.lagLanes with
  | [] => s
  | [l] => laneFault { s with cyc.lagLanes := [] } l 6 (srcLane l)
  | ls =>
    let s := { s with cyc.lagLanes := [] }
    let s := emitL s (srcHub 0) 0x204A 2 (u64 s.cyc.k ++ u8 (ls.foldl (fun m l => setBit m l true) 0))
    if s.sup.mode = 2 then s else freeNext { s with sup.modePending := some (2, freeVal s % 65536) }

/-- ROLLBACK_COMPLETE (R180): the lanes resume at the first boundary after every lane of the set has completed its restart. -/
def execRollbackComplete (lane : Fin 3) (s : State) : Out :=
  .next (
    if (getLane s lane.val).rollback then
      let s := updLane s lane.val (fun d => { d with rollback := false })
      if s.agree.mismatch && (laneSet s).all (fun l => !(getLane s l).rollback) then { s with agree.resumeDue := true } else s
    else s)

/-! ## Commands of re-stabling -/

/-- A lane die restarts, counted as a LANE_RESET: it loses its keys until the reset completes, its core counters and its latency
record (20 Table 20-1, Table 20-4, 19 R476). -/
def laneRestarts (s : State) (l : Nat) : State :=
  let s := updLane s l (fun d => { d with resetting := true, resetDue := false, keys := false, halted := true })
  let s := bumps s E.resetCounts 5 0 1
  { s with
    perf.cores := s.perf.cores.mapIdx (fun i p => if i / 16 = l then {} else p)
    perf.lat := vupd s.perf.lat l (fun _ => []) }

/-- Command a lane's reset (R157, R175). -/
def commandReset (s : State) (l : Nat) : State := send (laneRestarts s l) { kind := .dieReset, a := l }

/-- RESTABLE_CMD (R175): starts an attempt of a lane in OUT. -/
def hRestableCmd : Handler :=
  { conds := fun s w => refuseIf ((getLane s w.v).state ≠ .out) abtState 3
    eff := fun s w =>
      let d := getLane s w.v
      if d.attempt.isSome then s
      else
        let ready := d.keys && !d.resetting && !d.resetDue
        updLane s w.v (fun x => { x with
          attempt := some { newAttempt s w.v (if ready then 2 else 1) with start := some s.cyc.tk }, retryAt := none }) }

/-- RESTABLE_CMD. -/
def execRestableCmd (ctx v : Nat) (s : State) : Out := .next (writeCmd hRestableCmd E.restableCmd ctx 0x2100 7 v s)

/-- LANE_RESET (20 R497). -/
def hLaneReset : Handler :=
  { conds := fun s w =>
      refuseIf (w.v = 1 && !((getLane s w.inst).state = .out || (getLane s w.inst).state = .failed)) abtState 3
    eff := fun s w =>
      if w.v = 0 then s
      else
        let s := commandReset s w.inst
        let s := svi s E.laneAbandoned w.inst 0
        updLane s w.inst (fun d => { d with
          state := .out, retryAt := none
          attempt := if gv s E.restableAuto = 1 then some (newAttempt s w.inst 1) else none }) }

/-- LANE_RESET. -/
def execLaneReset (ctx : Nat) (s : State) : Out := .next (writeCmd hLaneReset E.laneReset ctx 0x2001 8 1 s)

/-- LANE_RESET_COMPLETE (R175): the lane has received the current keys; an attempt goes on to bulk. -/
def execLaneResetComplete (lane : Fin 3) (_t : Nat) (s : State) : Out :=
  .next (
    if (getLane s lane.val).resetting then
      updLane s lane.val (fun d => { d with
        resetting := false, halted := false, keys := true
        attempt := d.attempt.map (fun a => { a with
          phase := max a.phase 2, start := match a.start with | some t => some t | none => some s.cyc.tk }) })
    else s)

/-- RESTABLE_BULK_COMPLETE (R175): the bulk transfer has been sent; the dirty passes begin. -/
def execRestableBulkComplete (lane : Fin 3) (s : State) : Out :=
  .next (match (getLane s lane.val).attempt with
    | none => s
    | some a =>
      if a.phase = 2 && a.bulk then
        updLane s lane.val (fun d => { d with attempt := some { a with phase := 3, passEnd := s.cyc.tk, sent := a.state + a.code } })
      else s)

/-- RESTABLE_LIMIT_EXPIRY (R178): an attempt that has not joined within the limit is abandoned. -/
def execRestableLimitExpiry (lane : Fin 3) (s : State) : Out :=
  .next (match (getLane s lane.val).attempt with
    | none => s
    | some a => match a.start with
      | none => s
      | some t0 =>
        if a.phase ≤ 3 && t0 + gv s E.restableLimit * 1000000 ≤ s.cyc.tk then abandon s lane.val 0 else s)

/-- RESTABLE_RETRY (R178): a new attempt 1 s after an abandonment. -/
def execRestableRetry (lane : Fin 3) (s : State) : Out :=
  .next (
    let d := getLane s lane.val
    match d.retryAt with
    | none => s
    | some r =>
      if d.state = .out && r ≤ s.cyc.tk then
        let s := commandReset s lane.val
        updLane s lane.val (fun d => { d with retryAt := none, attempt := some (newAttempt s lane.val 1) })
      else s)

/-- Bytes of CODE and of checkpointed state that bulk sends (R175). The supervisor state's size, at most 8 MiB, is not fixed
(log 6). -/
def bulkBytes (s : State) : Nat × Nat :=
  ((s.sup.stalls.map (fun p => p.2.desc.codeSize)).sum,
   (s.sup.stalls.map (fun p => ckptSize p.2.desc)).sum + freeVal s % 8388609)

/-- Bulk begins (R175, R508, R512), with event 0x2061. -/
def beginBulk (s : State) (l : Nat) (a : Attempt) : State :=
  let (code, st) := bulkBytes s
  let s := freeNext s
  let members := laneSet s
  let s := updLane s l (fun d => { d with
    state := .restabling
    attempt := some { a with bulk := true, began := s.cyc.tk, source := members.headD 0
                             codeSource := members.getLastD 0, state := st, code := code } })
  emitL s (srcLane l) 0x2061 1 (u8 a.number ++ u64 st ++ u64 code)

/-- One lane's re-stabling at a boundary (R175 to R177): bulk begins, a dirty pass is sent, the residual is sent for the join, or the
lane enters IN. While a stall change holds bulk back the limit does not count: it counts from the first boundary without one
(21 R508). The bytes dirtied in a crossing include granules of the supervisor's own state, whose layout is not fixed: a free
value (log 6). -/
def stepAttempt (s : State) (l : Nat) : State :=
  match (getLane s l).attempt with
  | none => s
  | some a =>
    if a.phase = 2 && !a.bulk then
      if stallChanging s then updLane s l (fun x => { x with attempt := some { a with start := none } })
      else
        let a := { a with start := match a.start with | some t => some t | none => some s.cyc.tk }
        if bulkShedsOpen s then beginBulk s l a else updLane s l (fun x => { x with attempt := some a })
    else if a.phase = 3 then
      if s.cyc.tk < a.passEnd then s
      else
        let d := freeVal s / 64 * 64
        let s := freeNext s
        if a.passed && d ≤ 524288 then
          updLane s l (fun x => { x with attempt := some { a with phase := 4, dirty := d, sent := a.sent + d / 64 * 72 } })
        else
          updLane s l (fun x => { x with attempt := some { a with
            dirty := d, passed := true, passEnd := s.cyc.tk + d / 64 * 9, sent := a.sent + d / 64 * 72 } })
    else if a.phase = 5 && (getLane s l).state = .shadow then
      let s := updLane { s with perf.setChanged := true } l (fun x => { x with state := .inSet, attempt := none })
      let s := bumpi s E.laneRestables l
      emitL s (srcLane l) 0x2062 1 (u64 s.cyc.k ++ u64 (s.cyc.tk - a.began))
    else s

/-- Step 1 of a boundary for the lanes (21 Table 21-4): resets commanded, then each attempt. -/
def lanesBoundary (s : State) : State :=
  let s := [0, 1, 2].foldl (fun s l =>
    if (getLane s l).resetDue then
      let s := commandReset s l
      if gv s E.restableAuto = 1 then updLane s l (fun d => { d with attempt := some (newAttempt s l 1) }) else s
    else s) s
  stepAttempt (stepAttempt (stepAttempt s 0) 1) 2

end Sys2Proof.Machine
end

