-- ==== Sys2Proof/Machine/Digest.lean ====
section
/-!
DEFINITION. The digests that the lanes compare (06 R159, R160, R172): the canonical form of a merged image, the checkpointed state of a
stall and of the supervisors, and which lanes are in the minority (06 R162, R174).
-/

namespace Sys2Proof.Machine

/-! ## The minority of a lane set (R162, R174) -/

/-- The lanes in the minority of their set, from which pairs of them are equal; `none` where no two digests are equal in 2oo3 or two
differ in 2oo2. -/
def minority (set : List Nat) (same : Nat → Nat → Bool) : Option (List Nat) :=
  match set with
  | [a, b, c] =>
    if same a b then (if same a c then some [] else some [c])
    else if same a c then some [b]
    else if same b c then some [a]
    else none
  | [a, b] => if same a b then some [] else none
  | _ => some []

/-! ## The canonical form of an image (R160) -/

/-- A byte string padded to a multiple of 16. -/
def pad16 (bs : List Byte) : List Byte := bs ++ List.replicate ((16 - bs.length % 16) % 16) 0

/-- An item in canonical form: its 16-byte descriptor and its data. -/
def canonItem (x : LaneItem) : List Byte := u8 x.kind ++ u8 0 ++ u8 0 ++ u8 0 ++ u32 x.source ++ u64 x.seq ++ pad16 x.data

/-- Ascending item kind, source and sequence number. -/
def itemBefore (a b : LaneItem) : Bool :=
  a.kind < b.kind || (a.kind = b.kind && (a.source < b.source || (a.source = b.source && a.seq ≤ b.seq)))

/-- An image in canonical form. -/
def canonical (l : List LaneItem) : List Byte := (l.mergeSort itemBefore).flatMap canonItem

/-- The input digest of a merged image, under K_in (R160). -/
def inputDigest (s : State) (l : List LaneItem) : Nat := digest s.agree.kIn (canonical l)

/-- The content of a field sample, as the items of its channels (log 142). -/
def sampleItems (die : Nat) (x : Sample) : List LaneItem :=
  let di := x.di.zipIdx.map (fun p =>
    ({ kind := 5, source := die * 32 + p.2, seq := x.seq, stamp := x.at_
       data := u8 (b2n p.1.value + 2 * b2n p.1.rise + 4 * b2n p.1.fall + 8 * p.1.fault) ++ u64 p.1.edges ++ u64 p.1.last } : LaneItem))
  let dout := x.outs.zipIdx.map (fun p =>
    ({ kind := 6, source := die * 16 + p.2, seq := x.seq, stamp := x.at_
       data := u8 (b2n p.1.applied + 2 * b2n p.1.level + 4 * b2n p.1.cutoff + 8 * b2n p.1.safe) ++ u8 p.1.fault ++ u16 p.1.current }
      : LaneItem))
  let ai := x.ai.zipIdx.map (fun p =>
    ({ kind := 7, source := die * 8 + p.2, seq := x.seq, stamp := x.at_
       data := u64 p.1.instant ++ u32 (ofInt 4 p.1.raw) ++ u32 (ofInt 4 p.1.hi) ++ u32 (ofInt 4 p.1.lo) ++ u32 p.1.rms ++ u32 p.1.env
         ++ u16 p.1.status ++ u16 p.1.samples } : LaneItem))
  let ta := x.tacho.zipIdx.map (fun p =>
    ({ kind := 8, source := die * 2 + p.2, seq := x.seq, stamp := x.at_
       data := u64 (ofInt 8 p.1.count) ++ u32 (ofInt 4 p.1.v) ++ u64 p.1.lastEdge ++ u8 p.1.fault ++ u8 (b2n p.1.still) } : LaneItem))
  let saf := x.saf.zipIdx.map (fun p =>
    ({ kind := 9, source := die * 32 + p.2, seq := x.seq, stamp := x.at_
       data := u8 p.1.ty ++ u8 p.1.state ++ u8 p.1.cause ++ u8 p.1.perm ++ u16 p.1.levels ++ u16 p.1.outs ++ u64 p.1.last } : LaneItem))
  di ++ dout ++ ai ++ ta ++ saf

/-- A DAP request as an item of the image (R160). Kinds 11 and 12 and the place in the context's order as a sequence number are
the model's (log 142). -/
def requestItem (r : Request) (n : Nat) : LaneItem :=
  { kind := 11, source := r.ctx, seq := n
    data := dapHead r.op r.reqId r.index r.sub 0 r.elen r.payload.length ++ r.payload }

/-- The requests of a list as items, in their order. -/
def requestItems (l : List Request) : List LaneItem := l.zipIdx.map (fun p => requestItem p.1 p.2)

/-- The outcomes that wait for a stall's result area as items of the image. -/
def outcomeItems (i : Nat) (st : Stall) : List LaneItem :=
  st.results.map (fun o => { kind := 12, source := i, seq := o.tag, data := u32 o.code ++ u64 o.value })

/-- The merged image of the crossing (R125, R160): every item adopted in it, the field samples adopted in it, the requests `reqs` that
it carries and the outcomes of posted requests. Lane-local values are no part of it. -/
def mergedImage (s : State) (reqs : List Request) : List LaneItem :=
  let items := (s.sup.adopted.map Prod.snd).filter (fun a => a.k = s.cyc.k)
  let smp := fun (d : Nat) => let x := vget s.sup.samples d {}; if x.k = some s.cyc.k then sampleItems d x else []
  items.map (fun a => { kind := a.item.kind, source := a.item.source, seq := a.item.seq, stamp := a.item.stamp, data := a.item.data })
    ++ smp 0 ++ smp 1 ++ requestItems reqs ++ s.sup.stalls.flatMap (fun p => outcomeItems p.1 p.2)

/-- An image with other items in the place of its own of the same kind and source. -/
def replaceItems (l dev : List LaneItem) : List LaneItem :=
  l.filter (fun x => !(dev.any (fun y => y.kind = x.kind && y.source = x.source))) ++ dev

/-- What a lane's merged image holds otherwise than the one here. -/
def devOf (rep : AgreeReport) (l : Nat) : List LaneItem := (rep.dev.filter (fun p => p.1 = l)).flatMap Prod.snd

/-- Do two lanes show equal input digests? The digest of an equivocating lane counts with none. -/
def sameInput (s : State) (img : List LaneItem) (rep : AgreeReport) (a b : Nat) : Bool :=
  !(rep.equiv.contains a) && !(rep.equiv.contains b) &&
    (devOf rep a = devOf rep b
      || inputDigest s (replaceItems img (devOf rep a)) = inputDigest s (replaceItems img (devOf rep b)))

/-! ## Checkpointed state (R172, 04 Table 04-9) -/

/-- Bytes 0 to 383 of a stall control block. -/
def scbBytes (i : Nat) (st : Stall) : List Byte :=
  let x := st.exec
  u16 i ++ u8 (stallStateCode st.state) ++ u8 x.stopReason ++ u32 x.restarts ++ u64 x.pc.toNat ++ u64 x.sw.toNat ++ u64 x.fuel
    ++ (x.regs.toList.drop 1).flatMap (fun r => u64 r.toNat) ++ u32 x.nextTag ++ u32 x.posted ++ u64 x.activations ++ u32 x.exceptions
    ++ u32 x.autoTimes.length ++ u64 x.faultTime ++ u64 x.faultCause.toNat ++ frameBytes x.rescue

/-- A stall's checkpointed state: the control block, then DATA, STACK, RETAIN, MIRROR, OUTBOX and BULK. -/
def ckptBytes (i : Nat) (st : Stall) : List Byte :=
  let d := st.desc
  let m := st.exec.mem
  scbBytes i st ++ mgets m baseData d.dataSize ++ mgets m baseStack d.stackSize ++ mgets m baseRetain d.retainSize
    ++ mgets m baseMirror d.mirrorSize ++ mgets m baseOutbox d.outboxSize ++ mgets m baseBulk d.bulkSize

/-- The K_tw digest of a stall's CODE (12 R331). -/
def codeDigest (s : State) (st : Stall) : Nat := digest s.agree.kTw (mgets st.exec.mem baseCode st.desc.codeSize)

/-- A stall as one lane holds it. -/
def diffStall (d : LaneDiff) (st : Stall) : Stall :=
  { st with exec := { st.exec with
      regs := d.regs.foldl (fun r p => r.mapIdx (fun i x => if i = p.1 && i ≠ 0 then p.2 else x)) st.exec.regs
      mem := d.mem.foldl (fun m p => mput m p.1 p.2) st.exec.mem } }

/-- The supervisors' own state with the entry values that one lane holds. -/
def diffDict (d : LaneDiff) (m : NMap Nat) : NMap Nat := d.dict.foldl (fun m p => nset m p.1 p.2) m

/-- The supervisors' replicated state as bytes: merge state, admission state, triggers, mode and entry values, in an order of the
model's own (log 142). -/
def supBytes (s : State) (dict : NMap Nat) : List Byte :=
  s.sup.adopted.flatMap (fun p => u64 p.1 ++ u64 p.2.item.seq)
    ++ s.sup.stalls.flatMap (fun p => u16 p.1 ++ u8 (b2n p.2.admitted) ++ u16 p.2.phase ++ u64 p.2.lastActivation)
    ++ s.sup.triggers.flatMap (fun p => u16 p.1 ++ u16 p.2.owner ++ leBytes 32 p.2.req ++ u16 p.2.firings) ++ u8 s.sup.mode
    ++ dict.flatMap (fun p => u64 p.1 ++ u64 p.2)

/-- The checkpoint digest of an id, under K_ck, as a lane with some differences computes it. -/
def checkpointDigest (s : State) (i : Nat) (ds : List LaneDiff) : Nat :=
  digest s.agree.kCk (
    if i = 0xFFFF then supBytes s (ds.foldl (fun m d => diffDict d m) s.sup.dict)
    else match getStall? s i with
      | some st => ckptBytes i (ds.foldl (fun st d => diffStall d st) st)
      | none => [])

/-- The differences of a lane that bear on an id. -/
def diffsOf (dev : List LaneDiff) (l i : Nat) : List LaneDiff := dev.filter (fun d => d.lane = l && d.stall = i)

/-- What differences hold, the lane that holds them apart. -/
def diffContent (ds : List LaneDiff) : List LaneDiff := ds.map (fun d => { d with lane := 0 })

/-- Do two lanes show equal checkpoint digests of an id? -/
def sameCheckpoint (s : State) (dev : List LaneDiff) (equiv : List Nat) (i a b : Nat) : Bool :=
  !(equiv.contains a) && !(equiv.contains b) &&
    (diffContent (diffsOf dev a i) = diffContent (diffsOf dev b i)
      || checkpointDigest s i (diffsOf dev a i) = checkpointDigest s i (diffsOf dev b i))

/-- The state of two equal lanes stands, where they differ from what is held here. -/
def applyDiffs (s : State) (ds : List LaneDiff) : State :=
  ds.foldl (fun s d =>
    if d.stall = 0xFFFF then { s with sup.dict := diffDict d s.sup.dict } else updStall s d.stall (diffStall d)) s

/-- Does a lane about to join show every digest equal to the agreed one (R177)? -/
def joinEqual (s : State) (join : List LaneDiff) (l : Nat) : Bool :=
  (((join.filter (fun d => d.lane = l)).map (·.stall)).dedup).all (fun i =>
    diffsOf join l i = [] || checkpointDigest s i (diffsOf join l i) = checkpointDigest s i [])

end Sys2Proof.Machine
end

