-- ==== Sys2Proof/Machine/Voter.lean ====
section
/-!
DEFINITION. The egress voters (06 R164 to R171): copies of words, skew windows, release, deadlines, held copies and the hold
limit.
-/

namespace Sys2Proof.Machine

/-! ## Keys -/

/-- The key of a word position: crossing bits [15:0] and word index, tag [63:24] (R164). -/
def wordKey (tag : Word) : Nat := tag.toNat / 2 ^ 24

/-- The key of an item of the output stream: crossing bits [15:0] and its position in the stream. -/
def itemKey (crossing item : Nat) : Nat := crossing % 65536 * 2 ^ 24 + item % 2 ^ 24

/-- FIRST is tag [1] and LAST tag [0] (log 20). -/
def isLast (tag : Word) : Bool := tag.getLsbD 0

/-! ## The lanes' output stream (R164) -/

/-- The bytes of an item in the stream: identifier, data length, issuing stall and sequence number, then the data (log 20). -/
def itemPayload (o : OutItem) : List Byte := u32 o.ident ++ u16 o.data.length ++ u16 o.stall ++ u64 o.seq ++ o.data

/-- The words of an item. -/
def itemWords (o : OutItem) : Nat := ((itemPayload o).length + 7) / 8

/-- The tag of a word: crossing number, word index, item kind, FIRST and LAST; every other bit is 0. -/
def wordTag (k idx kind : Nat) (first last : Bool) : Word :=
  BitVec.ofNat 64 (k % 65536 * 2 ^ 48 + idx % 2 ^ 24 * 2 ^ 24 + kind % 256 * 2 ^ 16 + 2 * b2n first + b2n last)

/-- The words of an item whose first word has an index: payload and tag. -/
def wordsOf (k idx : Nat) (o : OutItem) : List (Word × Word) :=
  let bs := itemPayload o
  let n := itemWords o
  (List.range n).map (fun j =>
    (BitVec.ofNat 64 (leNat ((bs.drop (8 * j)).take 8)), wordTag k (idx + j) o.kind (j = 0) (j + 1 = n)))

/-- The words of a stream from an index on. -/
def streamFrom (k : Nat) : Nat → List OutItem → List (Word × Word)
  | _, [] => []
  | idx, o :: rest => wordsOf k idx o ++ streamFrom k (idx + itemWords o) rest

/-- The items of the stream of the present crossing, or of the one before it. -/
def streamItems (s : State) (k : Nat) : List OutItem :=
  if k = s.cyc.k then s.sup.outs else if k + 1 = s.cyc.k then s.sup.outsPrev else []

/-- The stream of words that each lane sends of a crossing. -/
def laneStream (s : State) (k : Nat) : List (Word × Word) := streamFrom k 0 (streamItems s k)

/-- The item that holds the word of an index: its position, the index of its first word, and itself. -/
def findWord : List OutItem → Nat → Nat → Nat → Option (Nat × Nat × OutItem)
  | [], _, _, _ => none
  | o :: rest, pos, first, idx =>
    if idx < first + itemWords o then some (pos, first, o) else findWord rest (pos + 1) (first + itemWords o) idx

/-- The crossing, the present one or the one before, that a word key or item key names. -/
def keyCrossing (s : State) (key : Nat) : Nat := if key / 2 ^ 24 = s.cyc.k % 65536 then s.cyc.k else s.cyc.k - 1

/-- The item that a word key names: position, index of its first word, and itself. -/
def wordItem (s : State) (key : Nat) : Option (Nat × Nat × OutItem) :=
  let k := keyCrossing s key
  if key / 2 ^ 24 = k % 65536 then findWord (streamItems s k) 0 0 (key % 2 ^ 24) else none

/-- The key of the held field output command. -/
def cmdKey : Nat := 4 * 2 ^ 32

/-- The key of what a voter holds: item kind and identifier, one key for all output commands. -/
def heldKey (o : OutItem) : Nat := if o.kind = 4 then cmdKey else o.kind * 2 ^ 32 + o.ident % 2 ^ 32

/-! ## Items in a voter -/

/-- The deadline of an item of a crossing that began at `tk` (06 Table 06-5); `t` is the instant from which its slots count. -/
def itemDeadline (s : State) (h tk t : Nat) (o : OutItem) : Option Nat :=
  if o.kind = 1 then
    match ownSlot s o.ident o.stall with
    | some p => slotDeadline s h t p
    | none => none
  else if o.kind = 4 then some (tk + s.cyc.c - 8000)
  else none

/-- The beginning of the crossing that a key names. -/
def keyTk (s : State) (key : Nat) : Nat := if keyCrossing s key = s.cyc.k then s.cyc.tk else s.cyc.tk - s.cyc.c

/-- The item of a stream that a key names. -/
def streamItem (s : State) (key : Nat) : Option OutItem :=
  let k := keyCrossing s key
  if key / 2 ^ 24 = k % 65536 then (streamItems s k)[key % 2 ^ 24]? else none

/-- The item as the voter has it, or as it stands in the output stream. -/
def voterItem (s : State) (h key : Nat) : Option OutItem :=
  match nget? (getHub s h).voter.items key with
  | some o => some o
  | none => streamItem s key

/-- The port by which a hub sends what belongs to a session: that over which it last heard the peer (11 R294), unless the port's shed
is CLOSED or OPENING (08 R224). -/
def sessionPort (s : State) (h n : Nat) : Option Nat :=
  match (nget? s.con.sessions n).bind (fun e => if h = 0 then e.pathA else e.pathB) with
  | none => none
  | some p => if portSends s p.port then some p.port else none

/-- A hub sends a response (02 R43): one of the service port leaves at the hub that hosts it, one that came by a port of a CLOSING shed
by that port alone. -/
def sendResponse (s : State) (h : Nat) (o : OutItem) : State :=
  let ctx := o.ident % 65536
  let out := fun (s : State) => send s { kind := .dapResponse, port := h, a := ctx, b := o.seq, c := o.tag,
                                          data := sessRecord s (ctxSession ctx) 0x10 o.seq o.data }
  if ctx = 0 then (if h = s.con.svcHub then out s else s)
  else
    match (if o.ident / 65536 = 0 then sessionPort s h (ctxSession ctx)
           else if (o.ident / 65536 - 1) / 8 = h then some (o.ident / 65536 - 1) else none) with
    | none => s
    | some p => out (if p < 16 then bumpi s E.portTxFrames p else s)

/-- A hub transmits an item: a datagram as a TELEGRAM record (11 Table 11-7). A telegram that replaces one released and not sent is counted once, by the first hub that has both
(09 R246). -/
def transmitItem (s : State) (h : Nat) (o : OutItem) : State :=
  match o.kind with
  | 1 =>
    let replaces := fun (h : Nat) => match nget? (vget s.bb.planes h {}).released o.ident with
      | some x => decide (x.seq ≠ o.seq) && !x.stale
      | none => false
    let other := (getHub s (1 - h)).voter.held
    let counted := match nget? other (heldKey o) with
      | some x => decide (x.seq = o.seq)
      | none => false
    let s := match ownSlot s o.ident o.stall with
      | some p => if replaces h && !counted then bumpi s E.slotSuperseded p.slot else s
      | none => s
    { s with bb.planes := vupd s.bb.planes h (fun p => { p with released := nset p.released o.ident o }) }
  | 2 =>
    match sessionPort s h (o.ident % 4096) with
    | none => s
    | some p =>
      let s := if p < 16 then bumpi s E.portTxFrames p else s
      let body := u8 (o.ident / 4096) ++ u8 (b2n o.mirrored) ++ beBytes 2 o.data.length ++ u32 0 ++ o.data
      send s { kind := .sessionRecord, port := h, a := o.ident % 4096, b := o.seq, c := o.ident
               data := sessRecord s (o.ident % 4096) 0x11 o.seq body }
  | 3 => bridgeOp s h o
  | 4 => send s { kind := .outputCommand, port := h, a := o.ident, data := o.data }
  | 5 => sendResponse s h o
  | _ => s

/-- The shadow queue of a hub in bytes (12 R329). -/
def shadowBytes (s : State) (h : Nat) : Nat :=
  ((s.twin.shadow.filter (fun x => x.hub = h)).map (fun x => x.item.data.length)).sum

/-- A single-actor item goes into the shadow queue of the hub; a full queue drops it (12 R329). -/
def shadowItem (s : State) (h : Nat) (o : OutItem) : State :=
  if 262144 < shadowBytes s h + o.data.length then bump s E.twinShadowDropped
  else { s with twin.shadow := s.twin.shadow ++ [{ hub := h, k := s.cyc.k, item := o }] }

/-- The number and the tag that an item's release makes known (06 R170): a telegram's by identifier, that of a datagram or response by
session, and the tag of a posted request by stall. -/
def noteReleased (m : NMap Nat) (o : OutItem) : NMap Nat :=
  let up := fun (m : NMap Nat) (key n : Nat) => nset m key (max n (nget m key 0))
  let m := match o.kind with
    | 1 => up m (relKey 1 (o.ident % 2 ^ 32)) o.seq
    | 2 => up m (relKey 2 (o.ident % 4096)) o.seq
    | 5 => up m (relKey 2 (ctxSession (o.ident % 65536))) o.seq
    | _ => m
  if o.stall = 0xFFFF then m else up m (relKey 3 o.stall) o.tag

/-- What a hub does with an item that its voter has released whole: a single-actor item leaves only while the module holds the
lease (12 R329). -/
def deliverItem (s : State) (h : Nat) (o : OutItem) : State :=
  let s := updVoter s h (fun v => { v with
    held := nset v.held (heldKey o) o, holdSince := nerase v.holdSince (heldKey o)
    relSeq := noteReleased v.relSeq o
    lastCmd := if o.kind = 4 then o.ident else v.lastCmd
    safeCmd := if o.kind = 4 then false else v.safeCmd })
  if o.single && !(holdsLease s) then shadowItem s h o
  else
    let s := if o.single then { s with twin.mark := some (s.cyc.k, o.num) } else s
    transmitItem s h o

/-- Does a word's item still leave: not replaced by its held copy (R168)? -/
def itemLeaves (o : OutItem) : Bool := !o.stale

/-- The payload of a word as a voter released it, of a word that it has not the lanes' own. -/
def releasedPayload (s : State) (h key : Nat) (own : Word) : Word :=
  match (nget? (getHub s h).voter.words key).bind (·.matched) with
  | some m => m.payload
  | none => own

/-- An item released whole, with the data that its released words carry. -/
def wholeItem (s : State) (h key : Nat) (o : OutItem) : OutItem :=
  match wordItem s key with
  | none => { o with whole := true }
  | some (_, first, _) =>
    let base := key / 2 ^ 24 * 2 ^ 24
    let bs := (wordsOf (keyCrossing s key) first o).zipIdx.flatMap (fun p =>
      u64 (releasedPayload s h (base + (first + p.2) % 2 ^ 24) p.1.1).toNat)
    { o with whole := true, data := (bs.drop 16).take o.data.length }

/-- One word is released (R165): copies that differ name their lanes, and the last word of an item releases it whole. -/
def releaseWord (s : State) (h key : Nat) (w : WordPos) (m : Copy) : State :=
  let ik := w.item
  let o := voterItem s h ik
  let s := updVoter s h (fun v => { v with words := nset v.words key { w with released := true } })
  let s := blockCount s (0x5381 + h) 1
  let bad := (w.copies.filter (fun c => c.payload ≠ m.payload || c.tag ≠ m.tag)).map (·.lane)
  let s := bad.foldl (fun s l =>
    if inSet s l then laneFault s l 4 (srcHub h) (itemStall o)
    else if (getLane s l).state = .shadow then laneFault s l 9 (srcHub h) else s) s
  if isLast m.tag && !s.agree.mismatch && !s.agree.lost then
    match o with
    | none => s
    | some o =>
      if itemLeaves o then
        let o := wholeItem s h key o
        let s := updVoter s h (fun v => { v with items := nset v.items ik o })
        deliverItem s h o
      else s
  else s

/-- Release in word-index order (R165): from a position on, every matched word whose predecessor is released or closed. -/
def releaseFrom (s : State) (h : Nat) : Nat → Nat → State
  | 0, _ => s
  | n + 1, key =>
    let v := (getHub s h).voter
    match nget? v.words key with
    | none => s
    | some w =>
      let free := key % 2 ^ 24 = 0 || (match nget? v.words (key - 1) with
        | some p => p.released || p.closed
        | none => false)
      if !free then s
      else if w.released || w.closed then releaseFrom s h n (key + 1)
      else
        match w.matched with
        | none => s
        | some m => releaseFrom (releaseWord s h key w m) h n (key + 1)

/-- Does a copy equal the value of another? -/
def sameCopy (a b : Copy) : Bool := a.payload = b.payload && a.tag = b.tag

/-- The key of the item that a word key names. -/
def itemOfWord (s : State) (key : Nat) : Nat :=
  itemKey (key / 2 ^ 24) (match wordItem s key with | some (pos, _, _) => pos | none => key % 2 ^ 24)

/-- The window of a word opens at its first counted copy; a copy of a lane in SHADOW that came before it joins it. -/
def openWindow (s : State) (h key : Nat) (c : Copy) (t : Nat) : State :=
  let ik := itemOfWord s key
  let v := (getHub s h).voter
  let s := match nget? v.items ik, streamItem s ik with
    | none, some o =>
      updVoter s h (fun v => { v with items := nset v.items ik { o with deadline := itemDeadline s h (keyTk s key) t o } })
    | _, _ => s
  let early := match nget? v.early key with
    | some e => [e]
    | none => []
  updVoter s h (fun v => { v with
    words := nset v.words key { opened := t, copies := early ++ [c], item := ik }, early := nerase v.early key })

/-- A copy reaches a voter (R165). -/
def copyArrives (s : State) (h : Nat) (c : Copy) (t : Nat) : State :=
  let key := wordKey c.tag
  let v := (getHub s h).voter
  let skew := gv s E.voteSkew * 1000
  let counted := inSet s c.lane
  let shadow := (getLane s c.lane).state = .shadow
  match nget? v.words key with
  | none =>
    if counted then openWindow s h key c t
    else if shadow && !(nhas v.early key) then updVoter s h (fun v => { v with early := nset v.early key c })
    else s
  | some w =>
    if w.opened + skew < t || w.closed then
      if counted || (getLane s c.lane).state = .out then bumpi s E.laneLateCopies c.lane else s
    else if w.copies.any (fun x => x.lane = c.lane) then s
    else if w.released then
      let s := updVoter s h (fun v => { v with words := nset v.words key { w with copies := w.copies ++ [c] } })
      let s := blockCount s (0x5381 + h) 2
      let bad := match w.matched with
        | some m => !(sameCopy m c)
        | none => false
      let s := if counted then bumpi s E.laneWithinCopies c.lane else s
      if bad && counted then laneFault s c.lane 4 (srcHub h) (itemStall (voterItem s h w.item))
      else if bad && shadow then laneFault s c.lane 9 (srcHub h)
      else s
    else
      let hit := counted && w.matched.isNone && w.copies.any (fun x => inSet s x.lane && sameCopy x c)
      let w' := { w with copies := w.copies ++ [c], matched := if hit then some c else w.matched }
      let s := updVoter s h (fun v => { v with
        words := nset v.words key w'
        matchedLog := if hit then v.matchedLog ++ [c] else v.matchedLog })
      releaseFrom s h 65536 key

/-- VOTER_COPY_ARRIVAL (R165): a voter in service takes copies of lanes of the set, and compares those of a lane in SHADOW. The tag is the
word's position, crossing and index, above the item kind and the marks (R164). -/
def execVoterCopyArrival (hub : Fin 2) (lane : Fin 3) (payload : Word) (pos : BitVec 40) (mark : BitVec 24) (t : Nat) (s : State) : Out :=
  .next (
    if (getHub s hub.val).voter.inService && hubUp s hub.val && !s.agree.mismatch && !s.agree.lost then
      copyArrives s hub.val { lane := lane.val, payload := payload, tag := pos ++ mark } t
    else s)

/-- The word position of an index whose window has run out: of the crossing before, or of this one. -/
def openWord (s : State) (h index t : Nat) : Option (Nat × WordPos) :=
  let words := (getHub s h).voter.words
  let at_ := fun (k : Nat) =>
    let key := k % 65536 * 2 ^ 24 + index % 2 ^ 24
    match nget? words key with
    | some w => if w.closed || t < w.opened + gv s E.voteSkew * 1000 then none else some (key, w)
    | none => none
  match at_ (s.cyc.k - 1) with
  | some x => some x
  | none => at_ s.cyc.k

/-- A skew window closes (R165 steps 4 and 5): lanes of the set that have sent no copy are faulted; a word without a release is a
mismatch restart. -/
def closeWindow (s : State) (h key : Nat) (w : WordPos) : State :=
  let o := voterItem s h w.item
  let s := updVoter s h (fun v => { v with words := nset v.words key { w with closed := true } })
  let absent := (laneSet s).filter (fun l => !(w.copies.any (fun c => c.lane = l)))
  let s := absent.foldl (fun s l => laneFault s l 5 (srcHub h) (itemStall o)) s
  if w.released then releaseFrom s h 65536 (key + 1) else mismatch s 2 (itemStall o) true

/-- SKEW_WINDOW_CLOSE (R165). -/
def execSkewWindowClose (hub : Fin 2) (index t : Nat) (s : State) : Out :=
  .next (match openWord s hub.val index t with
    | none => s
    | some (key, w) => closeWindow s hub.val key w)

/-! ## Deadlines and holds -/

/-- A telegram's slot carries the held copy, marked STALE, unless a released telegram waits for it or none was ever released
(06 Table 06-5). -/
def stageHeld (s : State) (h : Nat) (o : OutItem) : State :=
  let pl := vget s.bb.planes h {}
  match nget? (getHub s h).voter.held (heldKey o) with
  | some x =>
    if nhas pl.released o.ident then s
    else { s with bb.planes := vupd s.bb.planes h (fun p => { p with released := nset p.released o.ident { x with stale := true } }) }
  | none => s

/-- An item has reached its deadline without release whole (R168): counted, recorded, held, its held copy sent. -/
def holdItem (s : State) (h t : Nat) (o : OutItem) : State :=
  let s := bumps s E.voteStaleItems (10 + h) 0 1
  let s := emitH s h t (srcHub h) 0x2067 1 (u8 o.kind ++ u32 o.ident ++ u64 s.cyc.k)
  let key := heldKey o
  let s := updVoter s h (fun v => { v with holdSince := if nhas v.holdSince key then v.holdSince else nset v.holdSince key t })
  if o.kind = 4 then
    let v := (getHub s h).voter
    if v.safeCmd then send s { kind := .safeCommand, port := h, a := v.lastCmd }
    else send s { kind := .holdCommand, port := h, a := v.lastCmd }
  else if o.kind = 1 then stageHeld s h o
  else s

/-- The item at a stream position that has reached its deadline in a voter: of the crossing before, or of this one. -/
def staleItem (s : State) (h item t : Nat) : Option (Nat × OutItem) :=
  let at_ := fun (k : Nat) =>
    let key := itemKey k item
    match voterItem s h key with
    | none => none
    | some o =>
      let dl := match o.deadline with
        | some d => some d
        | none => itemDeadline s h (keyTk s key) t o
      match dl with
      | none => none
      | some d => if d ≤ t && !o.whole && !o.stale then some (key, o) else none
  match at_ (s.cyc.k - 1) with
  | some x => some x
  | none => at_ s.cyc.k

/-- RELEASE_DEADLINE (R167, R168). In output hold (R179) no item is released, and the field output command of the crossing
still reaches its deadline; a telegram's is judged at its slot. -/
def execReleaseDeadline (hub : Fin 2) (item t : Nat) (s : State) : Out :=
  .next (
    let h := hub.val
    if !((getHub s h).voter.inService && hubUp s h) then s
    else if s.agree.mismatch || s.agree.lost then
      if s.cyc.tk + s.cyc.c ≤ t + 8000 then holdItem s h t { kind := 4, ident := (getHub s h).voter.lastCmd } else s
    else
      match staleItem s h item t with
      | none => s
      | some (key, o) =>
        holdItem (updVoter s h (fun v => { v with items := nset v.items key { o with stale := true } })) h t o)

/-- At a boundary the stream of the crossing that ends becomes the previous one, for copies still on their way and for late
activations; the voters drop what is older. -/
def votersBoundary (s : State) : State :=
  let k := s.cyc.k
  let recent := fun (key : Nat) => key / 2 ^ 24 = k % 65536 || key / 2 ^ 24 = (k - 1) % 65536
  let keep := fun (s : State) (h : Nat) =>
    updVoter s h (fun v => { v with
      items := v.items.filter (fun x => recent x.1), words := v.words.filter (fun x => recent x.1)
      early := v.early.filter (fun x => recent x.1) })
  let s := keep (keep s 0) 1
  { s with sup.outsPrev := s.sup.outs, sup.outs := [] }

/-! ## The release digest (R171) -/

/-- The words of the crossing before that met the release condition at a voter, in word-index order. -/
def releasedWords (s : State) (h : Nat) : List (Nat × Copy) :=
  ((getHub s h).voter.words.filterMap (fun p =>
    if p.1 / 2 ^ 24 = (s.cyc.k - 1) % 65536 then p.2.matched.map (fun m => (p.1 % 2 ^ 24, m)) else none)).mergeSort (fun a b => a.1 ≤ b.1)

/-- The digest of words under K_ck. -/
def wordsDigest (s : State) (l : List (Word × Word)) : Nat := digest s.agree.kCk (l.flatMap (fun w => u64 w.1.toNat ++ u64 w.2.toNat))

/-- The release digest that a voter computes. -/
def voterDigest (s : State) (h : Nat) : Nat := wordsDigest s ((releasedWords s h).map (fun p => (p.2.payload, p.2.tag)))

/-- The digest that the lanes compute of their own stream, over the words that met the release condition by the close of the image
(log 143). -/
def lanesDigest (s : State) (h : Nat) : Nat :=
  let st := laneStream s (s.cyc.k - 1)
  wordsDigest s ((releasedWords s h).map (fun p => st.getD p.1 (p.2.payload, p.2.tag)))

/-- Did a voter that reports its own digest match the very words of the lanes' stream? Its digest then equals theirs. -/
def sameWords (s : State) (h : Nat) : Bool :=
  let st := laneStream s (s.cyc.k - 1)
  (vget s.agree.reportDigest h none).isNone
    && (releasedWords s h).all (fun p => st.getD p.1 (p.2.payload, p.2.tag) = (p.2.payload, p.2.tag))

/-- A voter is found failed (R171), with event 0x2066: it leaves service at the next boundary. -/
def failVoter (s : State) (h reported : Nat) : State :=
  if !(getHub s h).voter.inService || (getHub s h).voter.failDue then s
  else
    let s := emitL s (srcHub h) 0x2066 2 (u64 (s.cyc.k - 1) ++ leBytes 16 reported ++ leBytes 16 (lanesDigest s h))
    updVoter s h (fun v => { v with failDue := true })

/-- At a boundary a failed voter leaves service; without a voter the module is lost (R171). -/
def voterFailures (s : State) : State :=
  if [0, 1].all (fun h => !((getHub s h).voter.failDue)) then s
  else
    let s := { s with hubs := s.hubs.map (fun d => { d with voter :=
      { d.voter with inService := d.voter.inService && !d.voter.failDue, failDue := false } }) }
    if [0, 1].any (fun h => (getHub s h).voter.inService && hubUp s h) then s else moduleLost s 1

/-- Does the digest that a voter reports equal the lanes'? It reports the one that it computed, unless its image says otherwise. -/
def reportAgrees (s : State) (h : Nat) : Bool :=
  match vget s.agree.reportDigest h none with
  | some d => d = lanesDigest s h
  | none => voterDigest s h = lanesDigest s h

/-- The digest that a voter reports. -/
def reportedDigest (s : State) (h : Nat) : Nat := (vget s.agree.reportDigest h none).getD (voterDigest s h)

/-- The lanes judge the release digests that the used images report, of the crossing before (R171). -/
def judgeReleases (s : State) (used : List Nat) : State :=
  let one := fun (s : State) (h : Nat) =>
    let s := if !(used.contains h) || sameWords s h || reportAgrees s h then s else failVoter s h (reportedDigest s h)
    updVoter { s with agree.reportDigest := vupd s.agree.reportDigest h (fun _ => none) } h
      (fun v => { v with matchedLog := [] })
  one (one s 0) 1

end Sys2Proof.Machine
end

