-- ==== Sys2Proof/Machine/Bridge.lean ====
section
/-!
DEFINITION. The legacy bus bridge (13): interfaces, what arrives on them, operations that leave, semaphore groups and the
window definitions.
-/

namespace Sys2Proof.Machine

/-! ## Interfaces -/

/-- The interface with number 1 to 6 (Table 13-2). -/
def getIf (s : State) (i : Nat) : BIf := vget s.br.ifs (i - 1) {}
def updIf (s : State) (i : Nat) (f : BIf → BIf) : State := { s with br.ifs := vupd s.br.ifs (i - 1) f }

/-- An interface changes state (R342): event 0x3050, and notice 3, 6 or 4 in every queued window of it. -/
def setIfState (s : State) (i new t : Nat) : State :=
  let old := (getIf s i).state
  if old = new then s
  else
    let s := updIf s i (fun x => { x with state := new })
    let s := if i = 3 || i = 4 then svs s E.canState (i - 2) 0 new else s
    let h := (i - 1) % 2
    let s := emitH s h t (srcHub h) 0x3050 1 (u8 i ++ u8 old ++ u8 new)
    let code := if new = 3 then 3 else if new = 2 then 6 else 4
    (winsWhere s (fun d => winIfc d = i && winQueued d)).foldl (fun s n => notice s n t code 0) s

/-- The state that MVB lines give an interface. -/
def lineState (lines : Nat) : Nat := if lines % 4 = 3 then 1 else if lines % 4 = 0 then 3 else 2

/-- The interfaces open at the end of start-up (20 R486; log 26): CAN and SER active, MVB as its lines give. -/
def openInterfaces (s : State) : State :=
  { s with br.ifs := Vector.ofFn (fun (i : Fin 6) =>
      let x := s.br.ifs[i]
      { x with state := if i.val < 2 then lineState x.lines else 1 }) }

/-- MVB_LINE_STATE_CHANGE (R342, R354). -/
def execMvbLineStateChange (ifc : Fin 2) (lineA lineB onB : Bool) (t : Nat) (s : State) : Out :=
  .next (
    let i := ifc.val + 1
    let lines := b2n lineA + 2 * b2n lineB + 4 * b2n onB
    let old := (getIf s i).lines
    let s := updIf s i (fun x => { x with lines := lines })
    let s := svs s E.mvbLineState i 0 lines
    let s := if bit old 2 = onB then s else blockCount s (0x5385 + ifc.val) 2
    if (getIf s i).state = 0 then s else setIfState s i (lineState lines) t)

/-- CAN_BUS_OFF (R342). -/
def execCanBusOff (ifc : Fin 2) (t : Nat) (s : State) : Out :=
  .next (
    let i := ifc.val + 3
    if (getIf s i).state = 0 || (getIf s i).state = 3 then s
    else setIfState (updIf s i (fun x => { x with busOff := some t })) i 3 t)

/-- CAN_RESTART_HOLD_EXPIRY (R342): the recovery of the standard comes before the hold. -/
def execCanRestartHoldExpiry (ifc : Fin 2) (t : Nat) (s : State) : Out :=
  .next (
    let i := ifc.val + 3
    match (getIf s i).busOff with
    | none => s
    | some t0 =>
      if t0 + gv s E.canRestartHold * 1000000 ≤ t && (getIf s i).state = 3 then
        setIfState (updIf s i (fun x => { x with busOff := none })) i 1 t
      else s)

/-! ## What arrives -/

/-- MVB_PORT_RECEIVED (R344, R347): a port's value, or a check error on it. -/
def execMvbPortReceived (ifc : Fin 2) (port : Nat) (data : List Byte) (lineB checkErr : Bool) (t : Nat) (s : State) : Out :=
  .next (
    let i := ifc.val + 1
    if (getIf s i).state = 0 then s
    else
      let s := if checkErr then blockCount s (0x5385 + ifc.val) 1 else s
      let wins := winsWhere s (fun d => winKind d = 1 && winIfc d = i && winPort d ≤ port && port < winPort d + winCap d)
      wins.foldl (fun s n =>
        let d := winDef s n
        if checkErr then
          updWin s n (fun w => { w with ports := nset w.ports port { nget w.ports port {} with checkErr := true } })
        else if data.length ≠ portSize (winFcode d) then s
        else
          updWin s n (fun w => { w with
            ports := nset w.ports port { at_ := t, valid := true, lineB := lineB, data := data }
            nextSeq := w.nextSeq % 2 ^ 32 + 1 })) s)

/-- MVB_MESSAGE_RECEIVED (R340, R344): a frame of F-code 12 to the device address. -/
def execMvbMessageReceived (ifc : Fin 2) (src dst : Nat) (data : List Byte) (t : Nat) (s : State) : Out :=
  .next (
    let i := ifc.val + 1
    if (getIf s i).state = 0 || dst ≠ gvs s E.mvbDevAddr i 0 || data.length ≠ 32 then s
    else
      (winsWhere s (fun d => winKind d = 3 && winIfc d = i)).foldl
        (fun s n => enqueue s n t { head := src, data := data }) s)

/-- Head and flags of a CAN record (Table 13-5). -/
def canHead (f : CanFrame) : Nat := f.id % 2 ^ 29 + 2 ^ 29 * b2n f.brs + 2 ^ 30 * b2n f.fd + 2 ^ 31 * b2n f.ext
def canFlags (f : CanFrame) : Nat := b2n f.rtr + 2 * b2n f.esi

/-- Does a CAN frame match a window of kind 4 (Table 13-3)? -/
def canMatches (d : Nat) (f : CanFrame) : Bool :=
  bit (winAddr d) 31 = f.ext && (f.id &&& (winQual d % 2 ^ 29)) = (winAddr d % 2 ^ 29 &&& (winQual d % 2 ^ 29))

/-- Is a CAN frame the response of a window of kind 5? -/
def canAnswers (d : Nat) (f : CanFrame) : Bool := bit (winAddr d) 31 = f.ext && f.id = winQual d % 2 ^ 29

/-- CAN_FRAME_RECEIVED (R344, R351): queued in the windows it matches; the first response completes a READ. -/
def execCanFrameReceived (ifc : Fin 2) (f : CanFrame) (t : Nat) (s : State) : Out :=
  .next (
    let i := ifc.val + 3
    if (getIf s i).state = 0 || (getIf s i).state = 3 then s
    else
      let s := (winsWhere s (fun d => winKind d = 4 && winIfc d = i && canMatches d f)).foldl
        (fun s n => enqueue s n t { head := canHead f, data := f.data, flags := canFlags f }) s
      (winsWhere s (fun d => winKind d = 5 && winIfc d = i && canAnswers d f)).foldl (fun s n =>
        match (getWin s n).reading with
        | none => s
        | some (op, _) =>
          let s := updWin s n (fun w => { w with reading := none })
          enqueue s n t { head := canHead f, data := f.data, flags := canFlags f, tag := op.tag }) s)

/-- A byte reaches a SER window (R345, R351): the eighth closes the word, and the response byte limit completes a READ. -/
def serByte (s : State) (n t : Nat) (b : Byte) (err : Bool) : State :=
  let s := updWin s n (fun w => { w with
    word := w.word ++ [b], wordErr := w.wordErr || err, wordAt := t, resp := if w.reading.isSome then w.resp + 1 else w.resp })
  let w := getWin s n
  let cut := w.reading.isSome && winQual (winDef s n) ≠ 0 && winQual (winDef s n) % 65536 ≤ w.resp
  let s := if 8 ≤ w.word.length || cut then closeWord s n t (if cut then 16 else 0) else s
  if cut then updWin s n (fun w => { w with reading := none, resp := 0 }) else s

/-- SER_BYTE_RECEIVED (R345): `err` 1 a framing error, 2 a parity error. -/
def execSerByteReceived (ifc : Fin 2) (b : Byte) (err : Fin 3) (t : Nat) (s : State) : Out :=
  .next (
    let i := ifc.val + 5
    if (getIf s i).state = 0 then s
    else
      let s := if err.val = 0 then s else blockCount s (0x5385 + ifc.val) (4 + err.val)
      let s := updIf s i (fun x => { x with lastByte := some t })
      (winsWhere s (fun d => winKind d = 6 && winIfc d = i)).foldl (fun s n => serByte s n t b (err.val ≠ 0)) s)

/-- SER_PACK_TIMEOUT (R345): at the image close of the next boundary. -/
def execSerPackTimeout (window : Nat) (s : State) : Out :=
  .next (
    let w := getWin s window
    let close := s.cyc.tk + s.cyc.c
    if winKind (winDef s window) = 6 && w.word ≠ [] && w.wordAt + gv s E.brPackTimeout * s.cyc.c ≤ close then
      let s := closeWord s window close 2
      updWin s window (fun w => { w with resume := true, flushed := w.flushed || !w.resume })
    else s)

/-- SER_FRAME_END (R345, R351): the line idle for SER_GAP closes the word, queues notice 1 and ends a SER READ; the next word is not
RESUMED for a word flushed before. -/
def execSerFrameEnd (ifc : Fin 2) (t : Nat) (s : State) : Out :=
  .next (
    let i := ifc.val + 5
    let gap := gv s E.serGap
    match (getIf s i).lastByte with
    | none => s
    | some t0 =>
      if gap = 0 || t < t0 + gap * 1000 || (getIf s i).state = 0 then s
      else
        let s := updIf s i (fun x => { x with lastByte := none })
        (winsWhere s (fun d => winKind d = 6 && winIfc d = i)).foldl (fun s n =>
          let s := updWin (notice s n t 1 0) n (fun w => if w.flushed then { w with resume := false, flushed := false } else w)
          updWin s n (fun w => if w.reading.isSome && 0 < w.resp then { w with reading := none, resp := 0 } else w)) s)

/-! ## Operations that leave (R350, R351) -/

/-- The position in the queue of the operation that may leave next (R351): writes in issue order, a READ after every earlier
write, one READ awaiting its response, an ORDERED write behind every earlier READ. -/
def nextOp (w : BWin) : Option Nat :=
  match w.ops with
  | [] => none
  | o :: _ =>
    if o.read then
      if w.reading.isNone then some 0
      else
        match w.ops.findIdx? (fun x => !x.read) with
        | none => none
        | some j => if (w.ops[j]?.getD {}).ordered then none else some j
    else if o.ordered && w.reading.isSome then none else some 0

/-- Does a window of a SER interface await a response (R351 rule 5)? -/
def serBusy (s : State) (i : Nat) : Bool :=
  (winsWhere s (fun d => winKind d = 6 && winIfc d = i)).any (fun n => (getWin s n).reading.isSome)

/-- The part of an operation that leaves at once: a port, a frame, or all bytes of a SER operation. -/
def unitLen (d : Nat) (op : BOp) : Nat :=
  let left := op.data.length - op.sent
  match winKind d with
  | 2 =>
    let sz := portSize (winFcode d)
    min left (sz - (op.offset + op.sent) % sz)
  | 3 => min left 32
  | 5 => min left (if winClassic d then 8 else 64)
  | _ => left

/-- A source port takes the bytes written to it; the others keep their values (R350). -/
def writePort (s : State) (d : Nat) (pos : Nat) (bs : List Byte) : State :=
  let sz := portSize (winFcode d)
  let port := winPort d + pos / sz
  let off := pos % sz
  updIf s (winIfc d) (fun x =>
    let old := padTo sz (nget x.mports port [])
    { x with mports := nset x.mports port (old.take off ++ bs ++ old.drop (off + bs.length)) })

/-- BRIDGE_BUS_TRANSMIT_DONE (R350, R351): the next part of the window's operation has left. -/
def execBridgeBusTransmitDone (window t : Nat) (s : State) : Out :=
  .next (
    let d := winDef s window
    let w := getWin s window
    let i := winIfc d
    let down := (getIf s i).state = 0 || (getIf s i).state = 3
    match nextOp w with
    | none => s
    | some j =>
      if d = 0 || down || !(hubSends s (winHub d)) || s.agree.lost || (winKind d = 6 && serBusy s i) then s
      else
        match w.ops[j]? with
        | none => s
        | some op =>
          let n := unitLen d op
          let part := (op.data.drop op.sent).take n
          let s := if winKind d = 2 then writePort s d (op.offset + op.sent) part
            else send s { kind := if op.read then .busRead else .busWrite, port := i, a := window, b := t,
                          c := if winKind d = 5 then winAddr d else 0, data := part }
          let whole := op.data.length ≤ op.sent + n
          updWin s window (fun w => { w with
            ops := if whole then w.ops.eraseIdx j else w.ops.modify j (fun o => { o with sent := o.sent + n })
            reading := if whole && op.read then some (op, t) else w.reading
            resp := if whole && op.read then 0 else w.resp }))

/-- BRIDGE_READ_TIMEOUT (R351). -/
def execBridgeReadTimeout (window t : Nat) (s : State) : Out :=
  .next (
    match (getWin s window).reading with
    | none => s
    | some (op, t0) =>
      if t0 + gv s E.brReadTimeout * 1000000 ≤ t then
        let s := notice s window t 2 op.tag
        updWin s window (fun w => { w with reading := none, resp := 0 })
      else s)

/-- MVB_MASTER_FRAME_RECEIVED (R340, R350): a source port is answered with its value, the device address with the next message
frame. -/
def execMvbMasterFrameReceived (ifc : Fin 2) (fcode addr t : Nat) (s : State) : Out :=
  .next (
    let i := ifc.val + 1
    if (getIf s i).state = 0 || !(hubSends s ifc.val) || s.agree.lost then s
    else if fcode = 12 then
      if addr ≠ gvs s E.mvbDevAddr i 0 then s
      else
        match (winsWhere s (fun d => winKind d = 3 && winIfc d = i)).find? (fun n => (nextOp (getWin s n)).isSome) with
        | none => s
        | some n =>
          match (getWin s n).ops.head? with
          | none => s
          | some op => send s { kind := .mvbSlave, port := i, a := addr, b := t, c := fcode, data := (op.data.drop op.sent).take 32 }
    else
      let own := fun (d : Nat) =>
        winKind d = 2 && winIfc d = i && winFcode d = fcode && winPort d ≤ addr && addr < winPort d + winCap d
      if (winsWhere s own).isEmpty then s
      else send s { kind := .mvbSlave, port := i, a := addr, b := t, c := fcode
                    data := padTo (portSize fcode) (nget (getIf s i).mports addr []) })

/-- MVB_MASTER_FRAME_SEND (R341): the bytes of the administrator list are not laid out by the spec, so the frame is a free value
(log 6). While voter HA is out of service HA gives up mastership. -/
def execMvbMasterFrameSend (t : Nat) (s : State) : Out :=
  .next (
    let able := gv s E.mvbBaEnable = 1 && hubSends s 0 && (getIf s 1).state ≠ 0
      && useCheck s (gv s E.mvbBaList) 4 = 0
    if able then
      let v := freeVal s
      send { freeNext s with br.master := true, br.baNext := s.br.baNext + 1 }
        { kind := .mvbMaster, port := 1, a := s.br.baNext, b := t, c := v % 65536 }
    else { s with br.master := false })

/-! ## Deciding operations (R349, R353) -/

/-- The refusal of a bridge operation (R135, R349, R353), or 0. -/
def judgeBridge (s : State) (i n flags : Nat) (data : List Byte) : Nat :=
  let d := winDef s n
  let kind := winKind d
  let op := fieldAt data 0 1
  let off := fieldAt data 2 2
  let len := fieldAt data 4 2
  let allowed := match op with
    | 1 => kind = 2 || kind = 3 || kind = 5 || kind = 6
    | 2 => (kind = 5 && bit (winQual d) 31) || kind = 6
    | 3 | 4 => (kind = 2 || kind = 3 || kind = 5 || kind = 6) && winGroup d ≠ 0
    | _ => false
  let beyond := if kind = 2 then winCap d * portSize (winFcode d) < off + len else off ≠ 0
  let tooLong := op = 1 && ((kind = 5 && 1024 < len) || (kind = 6 && 4088 < len))
  let formed := 8 ≤ data.length && data.length = 8 + len && fieldAt data 1 1 < 2 && fieldAt data 6 2 = 0
  let g := nget s.sup.groups (winGroup d) {}
  let other := winGroup d ≠ 0 && g.holder.isSome && g.holder ≠ some i
  if d = 0 || 128 ≤ n then abort abtObject 1
  else
    chooseAbort (refuseIf (winOwner d ≠ 0xFFFF && winOwner d ≠ i) abtObject 1
      ++ refuseIf (!allowed || beyond || tooLong || !formed) abtRange 0
      ++ refuseIf (bit flags 0 && !(leaseFor s i)) abtState 3
      ++ refuseIf (other && (op = 1 || op = 2)) abtState 3
      ++ refuseIf (op = 4 && g.holder ≠ some i && !(g.waits.contains i)) abtState 3)

/-- A group is released: it passes to its first waiter (R353). -/
def passGroup (s : State) (n : Nat) : State :=
  { s with sup.groups := nupd s.sup.groups n (fun g =>
      match g.waits with
      | [] => { holder := none, since := s.cyc.k }
      | x :: rest => { holder := some x, since := s.cyc.k, waits := rest }) }

/-- LOCK by a stall (R353). -/
def lockGroup (s : State) (n i : Nat) : State :=
  let g := nget s.sup.groups n {}
  { s with sup.groups := nset s.sup.groups n (
      match g.holder with
      | none => { g with holder := some i, since := s.cyc.k }
      | some h => if h = i || g.waits.contains i then g else { g with waits := g.waits ++ [i] }) }

/-- UNLOCK by the holder or by a waiter (R353). -/
def unlockGroup (s : State) (n i : Nat) : State :=
  let g := nget s.sup.groups n {}
  if g.holder = some i then passGroup s n
  else { s with sup.groups := nset s.sup.groups n { g with waits := g.waits.filter (· ≠ i) } }

/-- A stall holds and awaits no group any more (R353). -/
def leaveGroups (s : State) (i : Nat) : State :=
  let s := { s with sup.groups := s.sup.groups.map (fun (p : Nat × SemGroup) => (p.1, { p.2 with waits := p.2.waits.filter (· ≠ i) })) }
  (s.sup.groups.filter (fun (p : Nat × SemGroup) => p.2.holder = some i)).foldl (fun s (p : Nat × SemGroup) => passGroup s p.1) s

/-- The stalls that hold or await a group and are neither running nor held leave their groups (R353). -/
def purgeGroups (s : State) : State :=
  let gone := fun (i : Nat) => match getStall? s i with
    | some st => !(st.state = .running || st.state = .held)
    | none => true
  let members := s.sup.groups.flatMap (fun p => (match p.2.holder with | some h => [h] | none => []) ++ p.2.waits)
  (members.filter gone).foldl leaveGroups s

/-- Decide one bridge operation (R349): a READ or WRITE enters the output stream, LOCK and UNLOCK act on the group. -/
def decideBridge (s : State) (p : Posted) : Posted × State :=
  match p.req with
  | .send 3 flags dest data =>
    let code := judgeBridge s p.stall dest flags data
    if code ≠ 0 then ({ p with code := code, decided := true }, s)
    else
      let g := winGroup (winDef s dest)
      let s := match fieldAt data 0 1 with
        | 3 => lockGroup s g p.stall
        | 4 => unlockGroup s g p.stall
        | _ => pushOut s { ident := dest, kind := 3, stall := p.stall, tag := p.tag, single := bit flags 0, data := data }
      ({ p with decided := true }, s)
  | _ => (p, s)

/-- Decide the bridge operations of the crossing in ascending stall id and tag (R349). -/
def decideBridges (s : State) : State :=
  (s.sup.stalls.map Prod.fst).foldl (fun s i =>
    let (ps, s') := s.sup.posted.foldl (fun (acc : List Posted × State) p =>
      if p.stall = i && !p.decided then
        let (q, s) := decideBridge acc.2 p
        (acc.1 ++ [q], s)
      else (acc.1 ++ [p], acc.2)) ([], s)
    { s' with sup.posted := ps }) s

/-- LOCK_LIMIT_EXPIRY (R353): event 0x3052. -/
def execLockLimitExpiry (group : Nat) (s : State) : Out :=
  .next (
    match nget? s.sup.groups group with
    | none => s
    | some g =>
      match g.holder with
      | none => s
      | some i =>
        if gv s E.brLockLimit < s.cyc.k - g.since then
          passGroup (emitL s (srcHub 0) 0x3052 1 (u8 group ++ u16 i ++ u32 (s.cyc.k - g.since))) group
        else s)

/-! ## Window definitions (R343) -/

/-- Do two windows share MVB ports? -/
def portsOverlap (a b : Nat) : Bool :=
  (winKind a = 1 || winKind a = 2) && (winKind b = 1 || winKind b = 2) && winIfc a = winIfc b
    && winPort a < winPort b + winCap b && winPort b < winPort a + winCap a

/-- Does a window definition set a reserved bit (00 R9): a bit that 13 Table 13-2 does not name? -/
def winReserved (v : Nat) : Bool :=
  let adr := winAddr v
  bits v 42 6 ≠ 0 || (match winKind v with
    | 1 | 2 => bits adr 16 16 ≠ 0
    | 4 => bits adr 29 2 ≠ 0
    | 5 => bits adr 29 2 ≠ 0 || bits (winQual v) 29 2 ≠ 0
    | 6 => 65536 ≤ winQual v
    | _ => false)

/-- Is a window definition in range, reserved bits apart (R343)? -/
def winRange (s : State) (n v : Nat) : Bool :=
  let kind := winKind v
  let ifc := winIfc v
  let adr := winAddr v
  let q := winQual v
  v = 0 ||
    ((if kind = 1 || kind = 2 || kind = 3 then ifc = 1 || ifc = 2
      else if kind = 4 || kind = 5 then ifc = 3 || ifc = 4
      else kind = 6 && (ifc = 5 || ifc = 6))
    && (winOwner v ≤ 511 || winOwner v = 0xFFFF) && winGroup v ≤ 15
    && !(winActivates v && winOwner v = 0xFFFF)
    && 1 ≤ winCap v && winCap v ≤ (if kind ≤ 2 then 8 else 1024)
    && (match kind with
      | 1 | 2 => winFcode v ≤ 4 && winPort v + winCap v ≤ 4096 && q = 0
      | 3 => adr = 0 && q = 0
      | 4 | 5 => bit adr 31 || bits adr 0 29 < 2048
      | _ => adr = 0)
    && (List.range 128).all (fun m => m + 1 = n || !(portsOverlap v (gvs s E.brWindow (m + 1) 0))))

/-- Is a window definition in range with no reserved bit set (R343)? -/
def winOk (s : State) (n v : Nat) : Bool := !(winReserved v) && winRange s n v

/-- BR_WINDOW (R343). -/
def hBrWindow : Handler :=
  { conds := fun s w => refuseIf (winReserved w.v) abtRange 1 ++ refuseIf (!(winRange s w.sub w.v)) abtRange 0
    eff := fun s w => { storeEff E.brWindow s w with br.defPend := true } }

/-- BR_WINDOW_WRITE (R343): in effect at the boundary after it is applied. -/
def execBrWindowWrite (ctx sub v : Nat) (s : State) : Out := .next (writeCmd hBrWindow E.brWindow ctx 0x3910 sub v s)

/-- The definitions written take effect (R343); a window whose definition changed starts anew (log 26). -/
def loadWindows (s : State) : State :=
  let all := (List.range 128).map (fun n => (n, gvs s E.brWindow (n + 1) 0))
  let changed := fun (n : Nat) => gvs s E.brWindow (n + 1) 0 ≠ winDef s n
  { s with
    br.defs := all.filter (fun p => p.2 ≠ 0)
    br.wins := s.br.wins.filter (fun p => !(changed p.1))
    br.defPend := false }

/-- The window definitions at a crossing boundary. -/
def windowsBoundary (s : State) : State := if s.br.defPend then loadWindows s else s

end Sys2Proof.Machine
end

