-- ==== Sys2Proof/Machine/Evaluators.lean ====
section
/-!
DEFINITION. The safety evaluators (15): pairs, instance states, permits, the driving of outputs, requests, output tests, and
the safety parameter set. Both field dies evaluate alike, so an instance is held once; `t` is an instant of the dies
in ns (log 21).
-/

namespace Sys2Proof.Machine

/-! ## Parts of the field domain -/

def updDie (s : State) (die : Nat) (f : FieldDie → FieldDie) : State := { s with field.dies := vupd s.field.dies die f }
def getDie (s : State) (die : Nat) : FieldDie := vget s.field.dies die {}
def updDi (s : State) (ch : Nat) (f : Di → Di) : State := { s with field.di := vupd s.field.di ch f }
def getDi (s : State) (ch : Nat) : Di := vget s.field.di ch {}
def updDo (s : State) (ch : Nat) (f : Do → Do) : State := { s with field.outs := vupd s.field.outs ch f }
def getDo (s : State) (ch : Nat) : Do := vget s.field.outs ch {}
def updInst (s : State) (i : Nat) (f : SafInst → SafInst) : State := { s with saf.inst := vupd s.saf.inst i f }
def getInst (s : State) (i : Nat) : SafInst := vget s.saf.inst i {}

/-- A value of the configuration that a die holds (R357): before its first message, the entry's default. -/
def dieCfg (s : State) (die : Nat) (e : Entry) (sub inst : Nat) : Nat := dval (getDie s die).cfg e e.idx sub inst

/-- A safety parameter in force at the dies. -/
def sp (s : State) (e : Entry) (i : Nat) : Nat := dval s.saf.cfg e e.idx e.sub i

/-- The role of a DO channel at the dies (R389): 0 standard, 1 safety output, 2 cut-off. -/
def roleAt (s : State) (ch : Nat) : Nat :=
  let x := bit (sp s E.safOutX 0) (ch % 16)
  let y := bit (sp s E.safOutY 0) (ch % 16)
  if ch < 16 then (if x then 1 else if y then 2 else 0) else (if y then 1 else if x then 2 else 0)

/-- The role-1 channel of a safety output number (R389). -/
def outChannel (s : State) (n : Nat) : Nat := if bit (sp s E.safOutX 0) n then n else 16 + n

/-! ## Pairs (R377, R378, R386, R388) -/

/-- The pairs that an instance uses, with their place: 0 A, 1 B, 2 start. -/
def pairsOf (s : State) (i : Nat) : List (Nat × Nat) :=
  [(0, sp s E.safPairA i), (1, sp s E.safPairB i), (2, sp s E.safStartPair i)].filter (fun p => p.2 ≠ 0xFF)

/-- Is a place a demand pair of the type (Table 15-2)? -/
def isDemand (ty place : Nat) : Bool := place = 0 && ty ≠ 3

/-- A pair's evaluation state. -/
def pairSt (x : SafInst) (place : Nat) : PairSt := if place = 0 then x.pa else if place = 1 then x.pb else x.ps

/-- Replace a pair's evaluation state. -/
def setPair (x : SafInst) (place : Nat) (p : PairSt) : SafInst :=
  if place = 0 then { x with pa := p } else if place = 1 then { x with pb := p } else { x with ps := p }

/-- The combination of a pair's channels (Table 15-1): 0 clear or active, 1 the opposite, 2 inconsistent. -/
def comboOf (antivalent x y : Bool) : Nat :=
  if antivalent then (if x && !y then 0 else if !x && y then 1 else 2)
  else (if x && y then 0 else if !x && !y then 1 else 2)

/-- A pair takes a combination at an instant; an activation that ends keeps its length until the pair is inactive. -/
def stepPair (p : PairSt) (c t : Nat) : PairSt :=
  if c = p.state then p
  else
    let q := { p with state := c, since := t }
    if c = 0 then { q with activeAt := t, activeFor := none }
    else if p.state = 0 then { q with activeFor := if p.armed then some (t - p.activeAt) else none }
    else q

/-- The raw level of an input as the evaluator sees it: a faulted input reads 0 (R361, R362, R379). -/
def rawLevel (d : Di) : Bool := d.raw && !d.broken && !d.frontEnd

/-- A channel's filtered level under its instance's own filter (R376, R377). -/
def filterChannel (s : State) (ch filt t : Nat) : State :=
  updDi s ch (fun d => if rawLevel d ≠ d.safLevel && d.rawAt + filt * 1000 ≤ t then { d with safLevel := rawLevel d } else d)

/-- Filter the channels of an instance, then take its pairs' states. -/
def stepPairs (s : State) (i t : Nat) : State :=
  let filt := sp s E.safFilter i
  (pairsOf s i).foldl (fun s p =>
    let s := filterChannel (filterChannel s p.2 filt t) (p.2 + 32) filt t
    let c := comboOf (bit (sp s E.safWiring i) p.1) (getDi s p.2).safLevel (getDi s (p.2 + 32)).safLevel
    updInst s i (fun x => setPair x p.1 (stepPair (pairSt x p.1) c t))) s

/-- The filtered levels as the records and items show them (Table 15-6). -/
def levelsOf (s : State) (i : Nat) : Nat :=
  (pairsOf s i).foldl (fun acc p =>
    acc + b2n (getDi s p.2).safLevel * 2 ^ (2 * p.1) + b2n (getDi s (p.2 + 32)).safLevel * 2 ^ (2 * p.1 + 1)) 0

/-! ## Permits and outputs (R383, R389, R390) -/

/-- Are both tacho channels that an instance names at standstill (R383)? -/
def atStandstill (s : State) (i : Nat) : Bool :=
  let c := sp s E.safStandstill i
  c = 0 || ((vget s.tacho (c - 1) {}).still && (vget s.tacho (c + 1) {}).still)

/-- The release permit (R383). -/
def releaseOf (s : State) (i : Nat) : Bool :=
  let x := getInst s i
  sp s E.safType i = 2 && sp s E.safPairB i ≠ 0xFF && x.pb.state = 0 && x.pb.armed && x.state ≠ 4 && atStandstill s i

/-- Set the permits of an instance from its state. -/
def setPermits (s : State) (i : Nat) : State :=
  let r := releaseOf s i
  updInst s i (fun x => { x with main := x.state = 3, release := r })

/-- The instances that drive a safety output number. -/
def driversOf (s : State) (n : Nat) : List Nat :=
  (List.range 32).filter (fun i =>
    sp s E.safType i ≠ 0 && (bit (sp s E.safOutMask i) n || bit (sp s E.safRelMask i) n))

/-- Do the permits hold for a safety output (R390)? -/
def permitted (s : State) (n : Nat) : Bool :=
  driversOf s n ≠ [] && (driversOf s n).all (fun i =>
    (!bit (sp s E.safOutMask i) n || (getInst s i).main) && (!bit (sp s E.safRelMask i) n || (getInst s i).release))

/-- Does a die's last applied command give a channel on? A safe-state command gives every safety output off (06 R169). -/
def cmdOn (s : State) (die ch : Nat) : Bool := bit (getDie s die).bits ch && !(getDie s die).safeCmd

/-- Is a die at its programmed safe states: SILENT (R369), or by a safe-state command (06 R169)? -/
def dieAtSafe (s : State) (die : Nat) : Bool := (getDie s die).silent || (getDie s die).safeCmd

/-- What a channel's switch is to drive, before its latch, and its series cut-off (R357, R363, R367, R369, R390). -/
def wanted (s : State) (ch : Nat) : Bool × Bool :=
  let die := ch / 16
  let own := (getDie s die).configured && !(getDie s die).failed
  let other := (getDie s (1 - die)).configured && !(getDie s (1 - die)).failed
  match roleAt s ch with
  | 0 =>
    let on := if dieAtSafe s die then dieCfg s die E.doSafeState 2 ch = 1 else bit (getDie s die).bits ch
    (own && on, other)
  | 1 =>
    let p := permitted s (ch % 16) && !(getDie s 0).silent && !(getDie s 1).silent
    (own && p && cmdOn s die ch, other && p && cmdOn s (1 - die) ch)
  | _ => (false, false)

/-- Drive one channel: a latched channel stays off (R364), and the latch clears on a command that gives the channel off; the
readback follows the path. -/
def driveOne (s : State) (ch : Nat) : State :=
  let (on, cut) := wanted s ch
  let safe := dieAtSafe s (ch / 16)
  let on := on && !(roleAt s ch = 1 && !cut)
  updDo s ch (fun d =>
    let path := on && !d.overload && cut
    { d with cmd := on, cutoff := cut, applied := on && !d.overload, safeDriven := safe
             level := if (d.applied && d.cutoff) = path then d.level else path
             current := if path then d.current else 0 })

/-- Drive every channel. -/
def driveOutputs (s : State) : State := (List.range 32).foldl driveOne s

/-! ## State changes (R385) -/

/-- An instance enters a state; FAULT makes every command pair meet R386 afresh. -/
def enter (s : State) (i state : Nat) (cause : Option Nat) (t : Nat) : State :=
  let waits := (pairsOf s i).any (fun p => !(isDemand (sp s E.safType i) p.1))
  let s := updInst s i (fun x =>
    let x := { x with state := state, lastChange := t, cause := cause.getD x.cause, syncFrom := none }
    if state = 4 then
      { x with inhibit := waits, pa.armed := false, pb.armed := false, ps.armed := false }
    else x)
  setPermits s i

/-- The two dies record an instance's event. -/
def emitBoth (s : State) (t code sev : Nat) (data : List Byte) : State :=
  [0, 1].foldl (fun s die => if (getDie s die).failed then s else emitF s die t code sev data) s

/-- An instance in use enters FAULT (Table 15-3), with event 0x4030; the time is that for which a pair has been
inconsistent, in ms. -/
def faultInst (s : State) (i cause t : Nat) : State :=
  if sp s E.safType i = 0 || (getInst s i).state = 4 then s
  else
    let x := getInst s i
    let disc := ((pairsOf s i).map (fun p => let q := pairSt x p.1; if q.state = 2 then t - q.since else 0)).foldl max 0
    let s := emitBoth s t 0x4030 3 (u8 i ++ u8 cause ++ u16 (levelsOf s i) ++ u16 (min 0xFFFF (disc / 1000000)))
    enter s i 4 (some cause) t

/-- Fault every instance that drives a safety output (R392). -/
def faultOutput (s : State) (n t : Nat) : State :=
  driveOutputs ((driversOf s n).foldl (fun s i => faultInst s i 4 t) s)

/-- Fault every instance with cause LINK (R380). -/
def faultLink (s : State) (t : Nat) : State :=
  driveOutputs ((List.range 32).foldl (fun s i => faultInst s i 6 t) s)

/-- Every instance in RUN of a list enters SAFE with a cause (R391). -/
def tripRun (s : State) (l : List Nat) (cause t : Nat) : State :=
  l.foldl (fun s i => if (getInst s i).state = 3 then enter s i 1 (some cause) t else s) s

/-- The pairs whose change is the demand: a demand pair, or the hands of a TWO_HAND instance that are not active. -/
def demanding (s : State) (i : Nat) : List (Nat × Nat) :=
  let ty := sp s E.safType i
  (pairsOf s i).filter (fun p => isDemand ty p.1 || (ty = 3 && p.1 ≤ 1 && (pairSt (getInst s i) p.1).state ≠ 0))

/-- The raw stamps of the demanding channels (R395): those of the demanding pairs that have left their level in Table 15-1's
clear or active combination. -/
def demandStamps (s : State) (i : Nat) : List Nat :=
  (demanding s i).flatMap (fun p =>
    (if (getDi s p.2).safLevel then [] else [(getDi s p.2).rawAt])
      ++ (if (getDi s (p.2 + 32)).safLevel = bit (sp s E.safWiring i) p.1 then [(getDi s (p.2 + 32)).rawAt] else []))

/-- A demand takes an instance to SAFE; one from RUN is counted and its reaction is measured from the first demanding channel's
raw stamp (R395). -/
def demand (s : State) (i t : Nat) : State :=
  let run := (getInst s i).state = 3
  let s := enter s i 1 (some 8) t
  if run then
    let raw := (demandStamps s i).foldl min t
    updInst (bumpi s E.safTrips i) i (fun x => { x with demandAt := some raw })
  else s

/-! ## Evaluation of one instance -/

/-- Is the field cross link failed, or a die lost? -/
def crossDown (s : State) : Bool :=
  (getDie s 0).crossFailed || (getDie s 1).crossFailed || (getDie s 0).failed || (getDie s 1).failed

/-- Does a channel of a pair in use carry a fault (R379)? -/
def inputFault (s : State) (i : Nat) : Bool :=
  (pairsOf s i).any (fun p => [p.2, p.2 + 32].any (fun c => (getDi s c).broken || (getDi s c).frontEnd))

/-- The command pairs of an instance. -/
def commandPairs (s : State) (i : Nat) : List PairSt :=
  let x := getInst s i
  ((pairsOf s i).filter (fun p => !(isDemand (sp s E.safType i) p.1))).map (fun p => pairSt x p.1)

/-- The hands of a TWO_HAND instance. -/
def hands (s : State) (i : Nat) : List PairSt :=
  let x := getInst s i
  ((pairsOf s i).filter (fun p => p.1 ≤ 1)).map (fun p => pairSt x p.1)

/-- May the instance leave SAFE (Table 15-3, R382, R386)? -/
def mayReady (s : State) (i t : Nat) : Bool :=
  let x := getInst s i
  let ty := sp s E.safType i
  (ty = 3 || x.pa.state = 0) && (commandPairs s i).all (fun p => p.state = 1 && p.armed)
    && (ty ≠ 3 || (hands s i).all (fun p => p.since + 100000000 ≤ t))

/-- An activation that counts now (R388): the start pair's, or a request of a stall (R393). It is spent. -/
def takeActivation (s : State) (i : Nat) : Bool × State :=
  let x := getInst s i
  let own := x.ps.state = 1 && (match x.ps.activeFor with
    | some d => 100000000 ≤ d && d ≤ 5000000000
    | none => false)
  let manual := sp s E.safStartMode i = 2 && sp s E.safType i ≠ 3
  let req := (x.request = 1 && x.state = 2 && manual) || (x.request = 2 && x.state = 4 && x.cause ≠ 2)
  let s := if x.request ≠ 0 && !req then bumpi s E.safReqIgnored i else s
  (own || req, updInst s i (fun x => { x with
    request := 0
    ps := if x.ps.state = 1 then { x.ps with activeFor := none } else x.ps }))

/-- READY: to SAFE on demand, to RUN on its start (Table 15-3, R382); a hand that ceases to be active takes the instance to
SAFE, even at the evaluation in which the other hand becomes active. -/
def fromReady (s : State) (i t : Nat) (act : Bool) : State :=
  let x := getInst s i
  let ty := sp s E.safType i
  if ty = 3 then
    let hs := hands s i
    let on := hs.filter (fun p => p.state = 0)
    let ats := on.map (·.activeAt)
    let ended := hs.any (fun p => p.state ≠ 0 && p.activeFor = some (t - p.activeAt))
    if x.syncFrom.isSome && ended then demand s i t
    else if on.length = hs.length && on.all (·.armed) then
      (if ats.foldl max 0 - ats.foldl min (ats.foldl max 0) ≤ sp s E.safSync i * 1000000 then enter s i 3 none t else demand s i t)
    else if on = [] then (if x.syncFrom.isSome then demand s i t else s)
    else updInst s i (fun x => { x with syncFrom := some (ats.foldl min (ats.foldl max 0)) })
  else if x.pa.state ≠ 0 then demand s i t
  else if sp s E.safStartMode i = 1 || act then enter s i 3 none t
  else s

/-- The transitions of an instance in one evaluation; `was` is its state before it. -/
def transitions (s : State) (i t was : Nat) (act : Bool) : State :=
  let x := getInst s i
  let ty := sp s E.safType i
  if was ≠ 4 && inputFault s i then faultInst s i 3 t
  else if was ≠ 4 && crossDown s then faultInst s i 6 t
  else
    match was with
    | 4 =>
      if act && x.cause ≠ 2 && (x.cause ≠ 6 || !(crossDown s)) && (ty = 3 || x.pa.state = 1)
          && (commandPairs s i).all (fun p => p.state = 1) then
        emitBoth (enter s i 1 none t) t 0x4031 1 (u8 i ++ u8 x.cause ++ u8 2)
      else s
    | 3 => if (if ty = 3 then (hands s i).any (fun p => p.state ≠ 0) else x.pa.state ≠ 0) then demand s i t else s
    | 2 => fromReady s i t act
    | 1 => if mayReady s i t then fromReady (enter s i 2 none t) i t false else s
    | _ => s

/-- The reaction time of the last demand from RUN (R395, R400), once every output that the instance drives reads low. -/
def measureReaction (s : State) (i t : Nat) : State :=
  match (getInst s i).demandAt with
  | none => s
  | some raw =>
    let outs := (List.range 16).filter (fun n => bit (sp s E.safOutMask i) n)
    if outs ≠ [] && outs.all (fun n => !(getDo s (outChannel s n)).level) then
      let us := (t - raw) / 1000
      let s := svi (svi s E.safLastReaction i us) E.safLastDemand i (fieldTime s 0 raw)
      emitBoth (updInst s i (fun x => { x with demandAt := none })) t 0x4032 0 (u8 i ++ u32 us)
    else s

/-- Evaluate one instance (R376 to R388). -/
def evalInst (s : State) (i t : Nat) : State :=
  if sp s E.safType i = 0 then s
  else
    let s := measureReaction s i t
    let was := (getInst s i).state
    let s := stepPairs s i t
    let (act, s) := takeActivation s i
    setPermits (transitions s i t was act) i

/-- EVALUATOR_CYCLE (R376). -/
def execEvaluatorCycle (t : Nat) (s : State) : Out :=
  .next (driveOutputs ((List.range 32).foldl (fun s i => evalInst s i t) s))

/-! ## Timers -/

/-- DISCREPANCY_TIMEOUT (R378). -/
def execDiscrepancyTimeout (inst : Fin 32) (t : Nat) (s : State) : Out :=
  let i := inst.val
  let x := getInst s i
  .next (if (pairsOf s i).any (fun p => (pairSt x p.1).state = 2 && (pairSt x p.1).since + sp s E.safDiscrepancy i * 1000000 ≤ t)
    then driveOutputs (faultInst s i 1 t) else s)

/-- CROSS_DISAGREEMENT_TIMEOUT (R380): the dies have held different states or permits for 2 ms. -/
def execCrossDisagreementTimeout (inst : Fin 32) (t : Nat) (s : State) : Out :=
  .next (driveOutputs (faultInst s inst.val 5 t))

/-- SYNC_TIMEOUT (R382): the second activation has not come within SAF_SYNC. -/
def execSyncTimeout (inst : Fin 32) (t : Nat) (s : State) : Out :=
  let i := inst.val
  let x := getInst s i
  .next (match x.syncFrom with
    | some t0 => if x.state = 2 && t0 + sp s E.safSync i * 1000000 < t then driveOutputs (demand s i t) else s
    | none => s)

/-- HELD_LIMIT_EXPIRY (R387): a command pair, or a start pair, stays active beyond SAF_HELD_LIMIT. -/
def execHeldLimitExpiry (inst : Fin 32) (t : Nat) (s : State) : Out :=
  let i := inst.val
  .next (if (commandPairs s i).any (fun p => p.state = 0 && p.activeAt + sp s E.safHeldLimit i * 1000000000 ≤ t)
    then driveOutputs (faultInst s i 2 t) else s)

/-- COMMAND_INACTIVE_TIMER (R382, R386, Table 15-3): pairs inactive for 100 ms count from now on; INHIBIT clears once every
command pair does; FAULT with cause HELD and SAFE go to READY. -/
def execCommandInactiveTimer (inst : Fin 32) (t : Nat) (s : State) : Out :=
  let i := inst.val
  let ty := sp s E.safType i
  let arm := fun (x : SafInst) (p : Nat × Nat) =>
    let q := pairSt x p.1
    if !(isDemand ty p.1) && q.state = 1 && q.since + 100000000 ≤ t then setPair x p.1 { q with armed := true } else x
  .next (
    if ty = 0 then s
    else
      let s := updInst s i (fun x => (pairsOf s i).foldl arm x)
      let all := (commandPairs s i).all (·.armed)
      let s := updInst s i (fun x => { x with inhibit := !all })
      let x := getInst s i
      let s :=
        if x.state = 4 && x.cause = 2 && all && (commandPairs s i).all (fun p => p.state = 1) then
          emitBoth (enter s i 2 none t) t 0x4031 1 (u8 i ++ u8 2 ++ u8 1)
        else if x.state = 1 && mayReady s i t then fromReady (enter s i 2 none t) i t false
        else s
      driveOutputs (setPermits s i))

/-! ## Output tests (R392, R509) -/

/-- A failed output test: event 0x4034 and FAULT with cause OUTPUT. -/
def testFailed (s : State) (ch kind t : Nat) : State :=
  let die := if kind = 1 then ch / 16 else 1 - ch / 16
  faultOutput (emitF s die t 0x4034 3 (u8 (ch % 16) ++ u8 kind)) (ch % 16) t

/-- OUTPUT_TEST: the switch die opens the switch of a role-1 channel that is on, every 10 s. -/
def execOutputTest (ch : Fin 32) (pass : Bool) (t : Nat) (s : State) : Out :=
  let x := nget s.saf.tests ch.val {}
  .next (if roleAt s ch.val = 1 && (getDo s ch.val).applied && x.lastSwitch + 10000000000 ≤ t then
      let s := { s with saf.tests := nset s.saf.tests ch.val { x with lastSwitch := t } }
      let s := blockCount s (0x5383 + ch.val / 16) 7
      if pass then s else testFailed s ch.val 1 t
    else s)

/-- CUTOFF_TEST: the cut-off die opens the cut-off 5 s after the switch test. -/
def execCutoffTest (ch : Fin 32) (pass : Bool) (t : Nat) (s : State) : Out :=
  let x := nget s.saf.tests ch.val {}
  .next (if roleAt s ch.val = 1 && (getDo s ch.val).applied && x.lastCut < x.lastSwitch && x.lastSwitch + 5000000000 ≤ t then
      let s := { s with saf.tests := nset s.saf.tests ch.val { x with lastCut := t } }
      let s := blockCount s (0x5384 - ch.val / 16) 7
      if pass then s else testFailed s ch.val 2 t
    else s)

/-! ## The safety parameter set (R396 to R399, R540) -/

/-- Sub-index and length of the instance parameters, in the order of the canonical image. -/
def safSubs : List (Nat × Nat) :=
  [(1, 1), (2, 1), (3, 1), (4, 1), (5, 1), (6, 1), (7, 2), (8, 2), (9, 2), (10, 2), (11, 2), (12, 2), (13, 1), (14, 2)]

/-- The entry of an instance parameter. -/
def safEntry (sub : Nat) : Entry := (findEntry 0x4201 sub).getD E.safType

/-- The canonical image of the active or the pending set (R396). -/
def safImage (s : State) (pend : Bool) : List Byte :=
  u16 (safParam s pend E.fieldSilentTimeout 2 0) ++ u16 (safParam s pend E.safOutX 2 0) ++ u16 (safParam s pend E.safOutY 3 0)
    ++ (List.range 32).flatMap (fun i => safSubs.flatMap (fun p => leBytes p.2 (safParam s pend (safEntry p.1) p.1 i)))

/-- CRC of the active or the pending set (R396, R397); 0 for the pending set with no edit open. -/
def safCrc (s : State) (pend : Bool) : Nat :=
  if pend && s.saf.edit.isNone then 0 else crc32c (safImage s pend)

/-- SAF_EDIT (R397). -/
def hSafEdit : Handler :=
  { conds := fun s w => match s.saf.edit with
      | some c => refuseIf (c ≠ w.ctx) abtBusy 1
      | none => []
    eff := fun s w =>
      if w.v = 1 then
        if s.saf.edit.isSome then s else { s with saf.edit := some w.ctx, saf.pending := [] }
      else { s with saf.edit := none, saf.pending := [] }
    act := fun w => if w.v = 1 then some (7, 0, 0) else none }

/-- SAF_EDIT = true. -/
def execSafEditOpen (ctx : Nat) (s : State) : Out := .next (writeCmd hSafEdit E.safEdit ctx 0x4200 4 1 s)

/-- SAF_EDIT = false. -/
def execSafEditDiscard (ctx : Nat) (s : State) : Out := .next (writeCmd hSafEdit E.safEdit ctx 0x4200 4 0 s)

/-- The pending copy is closed with the context that edits (R397). -/
def closeEdit (s : State) (ctx : Nat) : State :=
  if s.saf.edit = some ctx then { s with saf.edit := none, saf.pending := [] } else s

/-- The start modes that a type allows (Table 15-2). -/
def modeAllowed (ty mode : Nat) : Bool := if ty = 0 then mode = 0 else if ty = 3 then mode = 1 else mode = 1 || mode = 2

/-- Default start mode and filter of a type (Table 15-2, R540). -/
def typeDefaults (ty : Nat) : Nat × Nat :=
  match ty with
  | 1 => (2, 1000)
  | 2 => (1, 1300)
  | 3 => (1, 1100)
  | 4 => (2, 1200)
  | _ => (0, 0)

/-- The range conditions of a parameter (Table 15-8, R540). -/
def safRange (s : State) (w : WReq) : List Nat :=
  if w.idx ≠ 0x4201 then []
  else
    let ty := safParam s true E.safType 1 w.inst
    match w.sub with
    | 2 | 3 | 4 => refuseIf (32 ≤ w.v && w.v ≠ 0xFF) abtRange 0
    | 5 => refuseIf (8 ≤ w.v) abtRange 1
    | 6 => refuseIf (!(modeAllowed ty w.v)) abtRange 0
    | 7 => refuseIf (if ty = 0 then w.v ≠ 0 else w.v < 100 || 20000 < w.v) abtRange 0
    | 14 => refuseIf (512 ≤ w.v && w.v ≠ 0xFFFF) abtRange 0
    | _ => []

/-- The pending copy takes a value. -/
def pend (s : State) (idx sub inst v : Nat) : State := { s with saf.pending := nset s.saf.pending (ekey idx sub inst) v }

/-- A write of a safety parameter goes to the pending copy (R397), and to no log (23 R534); a changed type sets start mode and filter
(R540). -/
def hSafParam : Handler :=
  { conds := fun s w => (match s.saf.edit with
      | none => [abort abtState 3]
      | some c => refuseIf (c ≠ w.ctx) abtBusy 1) ++ safRange s w
    eff := fun s w =>
      let chg := w.idx = 0x4201 && w.sub = 1 && safParam s true E.safType 1 w.inst ≠ w.v
      let s := pend s w.idx w.sub w.inst w.v
      let d := typeDefaults w.v
      if chg then pend (pend s 0x4201 6 w.inst d.1) 0x4201 7 w.inst d.2 else s
    log := false }

/-- Is an entry part of the safety parameter set (R396)? -/
def inSafSet (idx sub : Nat) : Bool :=
  (idx = 0x4100 && sub = 2) || (idx = 0x4200 && (sub = 2 || sub = 3)) || (idx = 0x4201 && 1 ≤ sub && sub ≤ 14)

/-- SAF_PARAM_WRITE: an index outside the set names no such write (log 3). -/
def execSafParamWrite (ctx index sub v : Nat) (s : State) : Out :=
  .next (match findEntry index sub with
    | none => s
    | some e => if inSafSet index sub then writeCmd hSafParam e ctx index sub v s else s)

/-- SAF_TYPE. -/
def execSafTypeWrite (ctx v : Nat) (s : State) : Out := .next (writeCmd hSafParam E.safType ctx 0x4201 1 v s)

/-- The pending value of an instance parameter. -/
def pp (s : State) (e : Entry) (i : Nat) : Nat := safParam s true e e.sub i

/-- Every pair that the pending set uses, once per use. -/
def pairUses (s : State) : List Nat :=
  ((List.range 32).flatMap (fun i =>
    if pp s E.safType i = 0 then [] else [pp s E.safPairA i, pp s E.safPairB i, pp s E.safStartPair i])).filter (· ≠ 0xFF)

/-- The outputs of the pending set: bits 0-15. -/
def pendingOuts (s : State) : Nat := safParam s true E.safOutX 2 0 ||| safParam s true E.safOutY 3 0

/-- Does an instance of the pending set break R398? -/
def badInst (s : State) (i : Nat) : Bool :=
  let ty := pp s E.safType i
  let b := pp s E.safPairB i
  let st := pp s E.safStartPair i
  let stand := pp s E.safStandstill i
  let out := pp s E.safOutMask i
  let rel := pp s E.safRelMask i
  let outs := pendingOuts s
  ty ≠ 0 && (pp s E.safPairA i = 0xFF
    || (b ≠ 0xFF && (ty = 1 || ty = 4))
    || (st ≠ 0xFF && ty = 3)
    || (ty = 4 && bit (pp s E.safWiring i) 0)
    || (pp s E.safStartMode i = 2 && st = 0xFF && pp s E.safReqStall i = 0xFFFF)
    || ((rel ≠ 0 || stand ≠ 0) && (ty ≠ 2 || b = 0xFF))
    || (stand ≠ 0 && !(gvs s E.tachoEnable (E.tachoEnable.sub + stand - 1) 0 = 1
          && gvs s E.tachoEnable (E.tachoEnable.sub + stand + 1) 0 = 1))
    || (out ||| rel) &&& outs ≠ out ||| rel
    || out &&& rel ≠ 0)

/-- The instances that a commit changes, as a mask. -/
def changedInsts (s : State) : Nat :=
  (List.range 32).foldl (fun m i =>
    setBit m i (safSubs.any (fun p => safParam s true (safEntry p.1) p.1 i ≠ safParam s false (safEntry p.1) p.1 i))) 0

/-- The field sample that shows the evaluators' agreed state: FX's, or FY's while FX is lost. -/
def safSample (s : State) : Sample := vget s.sup.samples (if (getDie s 0).failed then 1 else 0) {}

/-- The agreed state and cause of an instance (R393, R394). -/
def agreedInst (s : State) (i : Nat) : SafSamp := (safSample s).saf.getD i {}

/-- Is a safety output whose role the pending set changes on? -/
def changesOnOutput (s : State) : Bool :=
  (List.range 32).any (fun ch => doRole s false ch = 1 && doRole s true ch ≠ 1
    && ((vget s.sup.samples (ch / 16) {}).outs.getD (ch % 16) {}).applied)

/-- The conditions of a commit (R397, R398). -/
def commitConds (s : State) (w : WReq) : List Nat :=
  match s.saf.edit with
  | none => [abort abtState 3]
  | some c =>
    if c ≠ w.ctx then [abort abtBusy 1]
    else
      refuseIf (w.v ≠ safCrc s true) abtIntegrity 2
        ++ refuseIf ((List.range 32).any (badInst s) || (pairUses s).dedup.length ≠ (pairUses s).length
            || (List.range 32).any (fun i => (List.range 32).any (fun j =>
                pp s E.safType i ≠ 0 && pp s E.safType j ≠ 0 && pp s E.safOutMask i &&& pp s E.safRelMask j ≠ 0))
            || safParam s true E.safOutX 2 0 &&& safParam s true E.safOutY 3 0 ≠ 0) abtRange 0
        ++ refuseIf ((List.range 32).any (fun ch => bit (gv s E.twinDoParallel) ch && doRole s true ch ≠ 0)) abtAccess 0xFF
        ++ refuseIf ((List.range 32).any (fun i => bit (changedInsts s) i && (agreedInst s i).state = 3) || changesOnOutput s)
            abtState 3

/-- Make the pending set the active one. -/
def activate (s : State) : State :=
  { s with
    sup.dict := s.saf.pending.foldl (fun d p =>
      match findEntry (p.1 / 16777216) (p.1 / 65536 % 256) with
      | some e => nput d p.1 p.2 (e.dfltAt (p.1 / 65536 % 256))
      | none => d) s.sup.dict
    upd.storeDue := s.saf.pending.foldl (fun d p => nset d p.1 (p.2, s.cyc.k)) s.upd.storeDue
    saf.edit := none
    saf.pending := [] }

/-- Does a commit change the role of a channel, or the masks that list it (R509)? -/
def changesChannel (s : State) (ch : Nat) : Bool :=
  let lists := fun (pend : Bool) (i : Nat) =>
    let used := decide (safParam s pend E.safType 1 i ≠ 0)
    (used && bit (safParam s pend E.safOutMask 11 i) (ch % 16), used && bit (safParam s pend E.safRelMask 12 i) (ch % 16))
  doRole s false ch ≠ doRole s true ch || (List.range 32).any (fun i => lists false i ≠ lists true i)

/-- The output tests of the channels that a commit changes are abandoned: the cut-off test that was to follow too (R509). -/
def abandonTests (s : State) : State :=
  { s with saf.tests := s.saf.tests.map (fun p =>
      if changesChannel s p.1 then (p.1, { p.2 with lastCut := max p.2.lastCut p.2.lastSwitch }) else p) }

/-- The effect of an accepted commit (R399, R509). -/
def commitEff (s : State) (w : WReq) : State :=
  let old := safCrc s false
  let chg := changedInsts s
  let s := activate (abandonTests s)
  let new := safCrc s false
  let s := emitL s (srcHub 0) 0x4033 3 (u32 old ++ u32 new ++ u16 (ctxCode w.ctx) ++ u32 chg)
  let n := gv s E.safCommits
  let s := bump s E.safCommits
  let e := leNat (u64 s.cyc.tk ++ u32 s.recd.seconds ++ u32 old ++ u32 new ++ u16 (ctxCode w.ctx))
  svs s E.safLog (16 + n % 16) 0 e

/-- SAF_COMMIT (R397 to R399). -/
def hSafCommit : Handler := { conds := commitConds, eff := commitEff, act := fun _ => some (8, 0, 0) }

/-- SAF_COMMIT. -/
def execSafCommit (ctx v : Nat) (s : State) : Out := .next (writeCmd hSafCommit E.safCommit ctx 0x4200 5 v s)

/-! ## Requests of stalls (R393) -/

/-- The refusal of a request of a stall, decided at a boundary, or 0. -/
def judgeSafReq (s : State) (stall inst : Nat) (reset : Bool) : Nat :=
  let x := agreedInst s inst
  chooseAbort (refuseIf (gvi s E.safType inst = 0) abtObject 1
    ++ refuseIf (gvi s E.safReqStall inst ≠ stall) abtAccess 0xFF
    ++ refuseIf (if reset then x.state ≠ 4 || x.cause = 2
        else x.state ≠ 2 || gvi s E.safStartMode inst ≠ 2) abtState 3)

/-- The dies apply the requests of a command once (R393). -/
def applyReqs (s : State) (c : OutCmd) : State :=
  if s.saf.reqSeq < c.seq then
    let s := { s with saf.reqSeq := c.seq }
    c.reqs.foldl (fun s p => updInst s p.1 (fun x => { x with request := if p.2 then 2 else 1 })) s
  else s

/-- What decides the output tests of a channel (R509): its role, and the instances that list it. -/
def testBasis (s : State) (ch : Nat) : Nat × List (Bool × Bool) :=
  (roleAt s ch, (List.range 32).map (fun i =>
    let used := decide (sp s E.safType i ≠ 0)
    (used && bit (sp s E.safOutMask i) (ch % 16), used && bit (sp s E.safRelMask i) (ch % 16))))

/-- New safety parameters reach the dies (R399): each changed instance enters SAFE with cause COMMIT and meets R386 afresh, and the
next output test of a changed channel falls 10 s later (R509). -/
def takeSafCfg (s : State) (new : NMap Nat) (t : Nat) : State :=
  let val := fun (m : NMap Nat) (sub i : Nat) => dval m (safEntry sub) 0x4201 sub i
  let chg := (List.range 32).filter (fun i => safSubs.any (fun p => val s.saf.cfg p.1 i ≠ val new p.1 i))
  let old := s
  let s := { s with saf.cfg := new }
  let anew := (List.range 32).filter (fun ch => testBasis old ch ≠ testBasis s ch)
  let s := { s with saf.tests := anew.foldl (fun m ch => nset m ch { lastSwitch := t, lastCut := t }) s.saf.tests }
  chg.foldl (fun s i =>
    let ty := sp s E.safType i
    let fresh : PairSt := { since := t }
    let s := updInst s i (fun x => { x with pa := fresh, pb := fresh, ps := fresh, inhibit := commandPairs s i ≠ [], demandAt := none, request := 0 })
    enter s i (if ty = 0 then 0 else 1) (if ty = 0 then none else some 11) t) s

end Sys2Proof.Machine
end

