-- ==== Sys2Proof/Machine/FieldIo.lean ====
section
/-!
DEFINITION. Digital inputs and outputs at the field dies (14): edges, wire break, comparator tests, configuration, output
commands, hub silence, latches and readback. `t` is an instant of the die in ns (log 21).
-/

namespace Sys2Proof.Machine

/-! ## Configuration (R357 to R359) -/

/-- Is an entry key part of the field dies' configuration? -/
def isFieldKey (k : Nat) : Bool :=
  let idx := k / 16777216
  (0x4000 ≤ idx && idx ≤ 0x43FF) || idx = 0x4401 || k / 65536 = 0x3800 * 256 + 14

/-- The field dies' configuration as the settings hold it. -/
def fieldCfg (s : State) : NMap Nat := s.sup.dict.filter (fun p => isFieldKey p.1)

/-- At a boundary, before its writes, a changed configuration is sent by both hubs (R357). -/
def sendConfig (s : State) : State :=
  let c := fieldCfg s
  if c = s.field.cfgMsg && s.field.cfgSeq ≠ 0 then s
  else
    send { s with field.cfgMsg := c, field.cfgSeq := s.field.cfgSeq + 1 } { kind := .fieldConfig, a := s.field.cfgSeq + 1 }

/-- With wire-break detection disabled, no input is declared broken (R361). -/
def clearBroken (s : State) (die : Nat) : State :=
  (List.range 32).foldl (fun s n =>
    let c := die * 32 + n
    if dieCfg s die E.diWbEnable 2 c = 0 then updDi s c (fun d => { d with broken := false }) else s) s

/-- A die applies a configuration (R357, R399). -/
def applyConfig (s : State) (die seq t : Nat) : State :=
  let c := s.field.cfgMsg
  let s := updDie s die (fun d => { d with cfg := c, cfgSeq := seq, configured := true })
  let s := clearBroken s die
  let saf := c.filter (fun p => inSafSet (p.1 / 16777216) (p.1 / 65536 % 256))
  let s := if s.saf.cfg = saf then s else takeSafCfg s saf t
  driveOutputs s

/-- FIELD_CONFIG_RECEIVED: the first copy of a sequence number newer than the one applied is applied; the message carries the
content that the hubs sent last (R20, R357). -/
def execFieldConfigReceived (die _hub : Fin 2) (seq t : Nat) (s : State) : Out :=
  let d := getDie s die.val
  .next (if !d.failed && seq = s.field.cfgSeq && (d.cfgSeq < seq || !d.configured) then applyConfig s die.val seq t else s)

/-- The threshold set of an input's group as its die has it (R357, R358): 110 V before configuration. -/
def groupSet (s : State) (ch : Nat) : Nat :=
  let die := ch / 32
  if (getDie s die).configured then dieCfg s die E.diGroupSet (2 + ch / 8) 0 else 2

/-! ## Digital inputs (R360 to R362) -/

/-- Is the die of an input in operation? -/
def diUp (s : State) (ch : Nat) : Bool := !(getDie s (ch / 32)).failed

/-- DI_RAW_CHANGE: the raw comparator output changes. -/
def execDiRawChange (ch : Fin 64) (level : Bool) (t : Nat) (s : State) : Out :=
  .next (if diUp s ch.val && (getDi s ch.val).raw ≠ level then updDi s ch.val (fun d => { d with raw := level, rawAt := t })
    else s)

/-- The filtered level takes a value, with an edge of the instant of the raw change. -/
def diEdge (d : Di) (v : Bool) : Di :=
  { d with level := v, lastEdge := d.rawAt, edgeCount := d.edgeCount + 1, rise := d.rise || v, fall := d.fall || !v }

/-- DI_EDGE_CONFIRMED (R360): the new level has held for the filter time. -/
def execDiEdgeConfirmed (ch : Fin 64) (t : Nat) (s : State) : Out :=
  let d := getDi s ch.val
  let filt := dieCfg s (ch.val / 32) E.diFilter 1 ch.val
  .next (if diUp s ch.val && d.raw ≠ d.level && d.rawAt + filt * 1000 ≤ t then updDi s ch.val (fun d => diEdge d d.raw) else s)

/-- Wire-break and healthy limits of a set, in mV (14 Table 14-1). -/
def wbLimits (set : Nat) : Nat × Nat := if set = 0 then (600, 1500) else if set = 1 then (2400, 6000) else (3600, 9000)

/-- WIRE_BREAK_TIMER (R361): the voltage has stayed at or below the wire-break limit, or at or above the healthy limit, for
20 ms. Timing restarts where the group's set has changed (R359). -/
def execWireBreakTimer (ch : Fin 64) (mv t : Nat) (s : State) : Out :=
  let c := ch.val
  let die := c / 32
  let d := getDi s c
  let (brk, ok) := wbLimits d.set
  let ripe := match d.wbSince with
    | some t0 => decide (t0 + 20000000 ≤ t)
    | none => true
  let s' := updDi s c (fun d => { d with volts := mv })
  .next (
    if !(diUp s c) then s
    else if !ripe || dieCfg s die E.diWbEnable 2 c = 0 then s'
    else if mv ≤ brk && !d.broken then
      emitF (updDi s' c (fun d => { d with broken := true })) die t 0x4001 1 (u8 (c % 32) ++ u8 1)
    else if ok ≤ mv && d.broken then
      emitF (updDi s' c (fun d => { d with broken := false })) die t 0x4001 1 (u8 (c % 32) ++ u8 2)
    else s')

/-- COMPARATOR_TEST (R362): two consecutive failures set the fault, one pass clears it. -/
def execComparatorTest (ch : Fin 64) (pass : Bool) (t : Nat) (s : State) : Out :=
  let c := ch.val
  let d := getDi s c
  let s' := blockCount s (0x5383 + c / 32) 6
  .next (
    if !(diUp s c) then s
    else if pass then updDi s' c (fun d => { d with testFails := 0, frontEnd := false })
    else
      let s := updDi s' c (fun d => { d with testFails := d.testFails + 1 })
      if d.testFails = 1 then
        emitF (updDi s c (fun d => { d with frontEnd := true })) (c / 32) t 0x4002 2 (u8 (c % 32))
      else s)

/-! ## Output commands (R20, R367 to R371) -/

/-- A latch clears when the die applies a command that gives the channel off (R364). -/
def clearLatches (s : State) (die : Nat) : State :=
  (List.range 16).foldl (fun s n =>
    let ch := die * 16 + n
    if bit (getDie s die).bits ch then s else updDo s ch (fun d => { d with overload := false })) s

/-- Does a hub in operation hear a field die? -/
def fieldHeard (s : State) (die : Nat) : Bool := [0, 1].any (fun h => hubUp s h && hears s (3 + die) h)

/-- A die leaves SILENT (R370), with event 0x4021; the events that it kept are delivered once a hub hears it (R369). -/
def leaveSilent (s : State) (die hub seq t : Nat) : State :=
  if (getDie s die).silent then
    let s := updDie s die (fun d => { d with silent := false })
    let s := if fieldHeard s die then flushKept s die else s
    emitF s die t 0x4021 1 (u32 seq ++ u16 (srcHub hub))
  else s

/-- Timed actions that a command carries join those pending; channels that it withdraws lose theirs (07 R204). -/
def mergeTimed (l : List TimedDo) (c : OutCmd) : List TimedDo :=
  l.filter (fun a => !(c.withdraw.contains a.channel)) ++ c.timed.map (fun a => { channel := a.1, on := a.2.1, at_ := a.2.2 })

/-- Instances in RUN that drive a safety output given off enter SAFE with cause COMMAND (R391). -/
def tripCommand (s : State) (bits t : Nat) : State :=
  ((List.range 32).filter (fun ch => roleAt s ch = 1 && !(bit bits ch))).foldl
    (fun s ch => tripRun s (driversOf s (ch % 16)) 9 t) s

/-- A die applies an output command (R20, R367, R370). -/
def applyCommand (s : State) (die hub : Nat) (c : OutCmd) (t : Nat) : State :=
  let s := leaveSilent s die hub c.seq t
  let s := updDie s die (fun d => { d with
    cmd := c, bits := c.bits, cmdHub := hub, safeCmd := false, fresh := false, timed := mergeTimed d.timed c })
  let s := tripCommand (clearLatches s die) c.bits t
  driveOutputs (applyReqs s c)

/-- OUTPUT_COMMAND_RECEIVED: the first copy of a newer sequence number is applied, the second discarded; a second copy that
differs is recorded (R20, R371). After a restart the die applies the first command that it receives (20 R498). -/
def execOutputCommandReceived (die hub : Fin 2) (cmd : OutCmd) (t : Nat) (s : State) : Out :=
  let d := getDie s die.val
  .next (
    if d.failed then s
    else
      let s := updDie s die.val (fun d => { d with lastAct := t })
      if d.fresh || d.cmd.seq < cmd.seq then applyCommand s die.val hub.val cmd t
      else
        let s := if cmd.seq = d.cmd.seq && cmd ≠ d.cmd then
            emitF s die.val t 0x4022 2 (u32 cmd.seq ++ u16 (srcHub d.cmdHub) ++ u16 (srcHub hub.val))
          else s
        if d.silent then
          driveOutputs (leaveSilent s die.val hub.val cmd.seq t)
        else s)

/-- HOLD_COMMAND_RECEIVED (R369): hub activity; it does not end SILENT (R370). -/
def execHoldCommandReceived (die _hub : Fin 2) (_seq t : Nat) (s : State) : Out :=
  .next (if (getDie s die.val).failed then s else updDie s die.val (fun d => { d with lastAct := t }))

/-- SAFE_STATE_COMMAND_RECEIVED (06 R169): applied where its sequence number is not below the newest one applied. -/
def execSafeStateCommandReceived (die hub : Fin 2) (seq t : Nat) (s : State) : Out :=
  let d := getDie s die.val
  .next (
    if d.failed then s
    else
      let s := updDie s die.val (fun d => { d with lastAct := t })
      if seq < d.cmd.seq then s
      else
        let s := leaveSilent s die.val hub.val seq t
        let s := updDie s die.val (fun d => { d with safeCmd := true })
        driveOutputs (tripCommand s 0 t))

/-- LOGIC_SILENT_TIMEOUT (R369): the die enters SILENT, with event 0x4020. -/
def execLogicSilentTimeout (die : Fin 2) (t : Nat) (s : State) : Out :=
  let n := die.val
  let d := getDie s n
  .next (
    if !d.failed && !d.silent && d.lastAct + dieCfg s n E.fieldSilentTimeout 2 0 * 1000000 ≤ t then
      let s := updDie s n (fun d => { d with silent := true, timed := [] })
      let s := emitF s n t 0x4020 2 (u32 d.cmd.seq ++ u64 (fieldTime s n d.lastAct))
      driveOutputs (tripRun s (List.range 32) 10 t)
    else s)

/-- TIMED_DO_INSTANT (07 R204): a pending action's instant is reached and the channel switches. -/
def execTimedDoInstant (die : Fin 2) (channel t : Nat) (s : State) : Out :=
  let n := die.val
  .next (match (getDie s n).timed.find? (fun a => a.channel = channel && a.at_ ≤ fieldTime s n t) with
    | none => s
    | some a =>
      if channel / 16 = n then
        let s := updDie s n (fun d => { d with timed := d.timed.erase a, bits := setBit d.bits channel a.on })
        driveOutputs (if a.on then s else clearLatches s n)
      else s)

/-! ## Latches and readback (R364, R366) -/

/-- DO_OVERLOAD_TRIP (R364): the channel is turned off and latched, with event 0x4010; on a safety output see R392. -/
def execDoOverloadTrip (ch : Fin 32) (thermal : Bool) (ma t : Nat) (s : State) : Out :=
  let c := ch.val
  let d := getDo s c
  .next (
    if (getDie s (c / 16)).failed || !d.applied then s
    else
      let s := updDo s c (fun d => { d with overload := true, current := ma })
      let s := emitF s (c / 16) t 0x4010 2 (u8 (c % 16) ++ u8 (if thermal then 2 else 1) ++ u16 ma)
      let s := driveOutputs s
      if roleAt s c = 1 then faultOutput s (c % 16) t else s)

/-- DO_RESET (R364): true clears OVERLOAD, and the channel follows its commands again. -/
def hDoReset : Handler :=
  { eff := fun s w => if w.v = 1 then driveOutputs (updDo s w.inst (fun d => { d with overload := false })) else s }

/-- DO_RESET. -/
def execDoReset (ctx : Nat) (s : State) : Out := .next (writeCmd hDoReset E.doReset ctx 0x4101 5 1 s)

/-- READBACK_MISMATCH (R366): the readback has read `high` for DO_READBACK_DELAY. MISMATCH and EXTERNAL are set where it
disagrees with the command, and cleared where their condition has been absent as long. -/
def execReadbackMismatch (ch : Fin 32) (high : Bool) (t : Nat) (s : State) : Out :=
  let c := ch.val
  let die := c / 16
  let d := getDo s c
  let mis := d.cmd && !d.overload && !high
  let ext := !d.cmd && high
  let parallel := bit (dieCfg s die E.twinDoParallel 14 0) c
  .next (
    if (getDie s die).failed then s
    else
      let s := updDo s c (fun d => { d with level := high, mismatch := mis, external := ext })
      let s := if mis && !d.mismatch then emitF s die t 0x4011 2 (u8 (c % 16) ++ u8 1) else s
      let s := if ext && !d.external && !parallel then emitF s die t 0x4011 2 (u8 (c % 16) ++ u8 2) else s
      if roleAt s c = 1 && (mis || ext) then faultOutput s (c % 16) t else s)

/-- OPEN_LOAD_DETECT (R366): the current has read `ma` for 100 ms. The threshold lies between 5 and 20 mA (Table 14-2) and is
otherwise open: a free value (log 6). -/
def execOpenLoadDetect (ch : Fin 32) (ma t : Nat) (s : State) : Out :=
  let c := ch.val
  let die := c / 16
  let d := getDo s c
  let low := ma < 5 + freeVal s % 16
  let opn := d.cmd && low && dieCfg s die E.doOpenLoad 4 c = 1
  .next (
    if (getDie s die).failed then s
    else
      let s := updDo (freeNext s) c (fun d => { d with current := ma, openLoad := opn })
      if opn && !d.openLoad then emitF s die t 0x4012 1 (u8 (c % 16) ++ u16 ma) else s)

/-- DO_SAFE_STATE (R368): a channel of role 1 or 2 always has safe state off. -/
def hDoSafeState : Handler :=
  { conds := fun s w => refuseIf (w.v = 1 && doRole s false w.inst ≠ 0) abtAccess 0xFF
    eff := storeEff E.doSafeState }

/-- DO_SAFE_STATE. -/
def execDoSafeStateWrite (ctx v : Nat) (s : State) : Out := .next (writeCmd hDoSafeState E.doSafeState ctx 0x4101 2 v s)

/-- Fault bits of an output (DO_FAULT). -/
def doFaultBits (d : Do) : Nat := b2n d.overload + 2 * b2n d.openLoad + 4 * b2n d.mismatch + 8 * b2n d.external

end Sys2Proof.Machine
end

