-- ==== Sys2Proof/Machine/Force.lean ====
section
/-!
DEFINITION. Forces (05 R145 to R147), the context's select entries (02 R35 to R37), the lock bits (02 R38, 20 R500), and the
arrival of the five DAP operations (02 R40 to R43).
-/

namespace Sys2Proof.Machine

/-! ## Forces -/

/-- The forces of a kind: 1 DI, 2 DO, 3 analog input. -/
def forcesOf (s : State) (kind : Nat) : NMap Force :=
  if kind = 1 then s.sup.forceDi else if kind = 2 then s.sup.forceDo else s.sup.forceAi

/-- Replace the forces of a kind. -/
def setForces (s : State) (kind : Nat) (m : NMap Force) : State :=
  if kind = 1 then { s with sup.forceDi := m } else if kind = 2 then { s with sup.forceDo := m }
  else { s with sup.forceAi := m }

/-- Remove one force, with event 0x2053 (R147): cause 1 by the point's entry, 2 FORCE_CLEAR_ALL, 3 expiry. -/
def dropForce (s : State) (kind ch cause : Nat) : State :=
  if nhas (forcesOf s kind) ch then
    emitL (setForces s kind (nerase (forcesOf s kind) ch)) (srcHub 0) 0x2053 1 (u8 kind ++ u8 ch ++ u8 cause)
  else s

/-- Set one force, with event 0x2052 (R147). -/
def putForce (s : State) (kind ch v ctx : Nat) : State :=
  let f : Force := { value := v, expires := s.cyc.tk + gv s E.forceTimeout * 1000000000 }
  emitL (setForces s kind (nset (forcesOf s kind) ch f)) (srcHub 0) 0x2052 1
    (u8 kind ++ u8 ch ++ u64 v ++ u16 (ctxCode ctx))

/-- The behaviour of DI_FORCE, DO_FORCE and AI_FORCE: `level` gives the forced value of a setting write. -/
def hForce (kind : Nat) (level : State → WReq → Nat) : Handler :=
  { conds := fun s w => refuseIf (w.v ≠ 0 && safetyPoint s false kind w.inst) abtAccess 0xFF
    eff := fun s w => if w.v = 0 then dropForce s kind w.inst 1 else putForce s kind w.inst (level s w) w.ctx
    act := fun w => if w.v = 0 then none else some (3, kind, w.inst) }

/-- DI_FORCE (05 Table 05-12). -/
def hDiForce : Handler := hForce 1 (fun _ w => w.v - 1)

/-- DO_FORCE (05 Table 05-12). -/
def hDoForce : Handler := hForce 2 (fun _ w => w.v - 1)

/-- AI_FORCE (05 Table 05-12): the forced value is AI_FORCE_VALUE of the channel. -/
def hAiForce : Handler := hForce 3 (fun s w => gvi s E.aiForceValue w.inst)

/-- DI_FORCE. -/
def execDiForce (ctx v : Nat) (s : State) : Out := .next (writeCmd hDiForce E.diForce ctx 0x40F0 1 v s)

/-- DO_FORCE. -/
def execDoForce (ctx v : Nat) (s : State) : Out := .next (writeCmd hDoForce E.doForce ctx 0x41F0 1 v s)

/-- AI_FORCE. -/
def execAiForce (ctx v : Nat) (s : State) : Out := .next (writeCmd hAiForce E.aiForce ctx 0x43F0 1 v s)

/-- Remove every force of a kind, each with its event. -/
def dropAll (s : State) (kind cause : Nat) : State :=
  let s' := (forcesOf s kind).foldl (fun s p => emitL s (srcHub 0) 0x2053 1 (u8 kind ++ u8 p.1 ++ u8 cause)) s
  setForces s' kind []

/-- FORCE_CLEAR_ALL (R147): true removes every force. -/
def hForceClear : Handler := { eff := fun s w => if w.v = 1 then dropAll (dropAll (dropAll s 1 2) 2 2) 3 2 else s }

/-- FORCE_CLEAR_ALL. -/
def execForceClearAll (ctx : Nat) (s : State) : Out := .next (writeCmd hForceClear E.forceClearAll ctx 0x2410 3 1 s)

/-- A force expires (R147): FORCE_TIMEOUT in train time since it was set. -/
def execForceExpiry (kind : Fin 3) (channel : Nat) (s : State) : Out :=
  .next (match nget? (forcesOf s (kind.val + 1)) channel with
    | none => s
    | some f => if f.expires ≤ s.cyc.tk then dropForce s (kind.val + 1) channel 3 else s)

/-! ## Select entries -/

/-- A select entry's value is the context's own (R35, R36); its range is the entry's limits (R37). -/
def hSelect : Handler :=
  { eff := fun s w => updCtx s w.ctx (fun c => { c with sels := vupd c.sels (selPos w.idx) (fun _ => w.v) }) }

/-- Is the index a select entry's (02 Table 02-5)? -/
def isSelect (idx : Nat) : Bool :=
  [0x2000, 0x2040, 0x2200, 0x2580, 0x3000, 0x3100, 0x3200, 0x3400, 0x3500, 0x4000, 0x4100, 0x4200, 0x4300].contains idx

/-- SELECT_WRITE: an index that is no select entry's names no such write (log 3). -/
def execSelectWrite (ctx index v : Nat) (s : State) : Out :=
  .next (match findEntry index 1 with
    | none => s
    | some e => if isSelect index then writeCmd hSelect e ctx index 1 v s else s)

/-! ## Lock bits -/

/-- The lock bits that a write of LOCK_BITS would newly set, counted from the sub-index's first. -/
def newLocks (s : State) (w : WReq) : Nat :=
  let old := gvs s E.lockBits w.sub 0
  w.v - (w.v &&& old)

/-- LOCK_BITS is set-only (R38); bits 0 to 191 and 224 to 255 need Eng (R38, 18 R465), bits 192 to 223 Saf. -/
def hLockBits : Handler :=
  { conds := fun s w =>
      let n := newLocks s w
      let safBits := if w.sub = 4 then n % 2 ^ 32 else 0
      let engBits := if w.sub = 4 then n / 2 ^ 32 else n
      refuseIf (engBits ≠ 0 && !roleOk (w.roleIn s) 3) abtAccess 3
        ++ refuseIf (safBits ≠ 0 && !roleOk (w.roleIn s) 4) abtAccess 4
    eff := fun s w => svs s E.lockBits w.sub 0 (gvs s E.lockBits w.sub 0 ||| w.v) }

/-- LOCK_BITS_WRITE. -/
def execLockBitsWrite (ctx sub v : Nat) (s : State) : Out :=
  .next (if 1 ≤ sub && sub ≤ 4 then writeCmd hLockBits E.lockBits ctx 0x1140 sub v s else s)

/-- LOCK_AT_START (20 Table 20-5). -/
def hLockAtStart : Handler :=
  { conds := fun s w =>
      let old := gvs s E.lockAtStart w.sub 0
      let cleared := (old - (old &&& w.v)) &&& gvs s E.lockBits w.sub 0
      refuseIf (w.sub = 4 && w.v % 2 ^ 32 ≠ 0 && !roleOk (w.roleIn s) 4) abtAccess 4
        ++ refuseIf (w.sub = 4 && w.v / 2 ^ 32 ≠ 0) abtRange 1
        ++ (match (List.range 64).find? (fun i => bit cleared i) with
            | some i => [abort abtLock (64 * (w.sub - 1) + i)]
            | none => [])
    eff := storeEff E.lockAtStart }

/-- LOCK_AT_START_WRITE. -/
def execLockAtStartWrite (ctx sub v : Nat) (s : State) : Out :=
  .next (if 1 ≤ sub && sub ≤ 4 then writeCmd hLockAtStart E.lockAtStart ctx 0x1141 sub v s else s)

/-! ## Arrival of the DAP operations -/

/-- A DAP message arrives at a context: the image of the hub that serves the service port carries a message of that port, and both
images one of a session whose records are not named (06 R161). -/
def dapCommand (s : State) (ctx op : Nat) (m : DapMsg) : State :=
  dapArrive s ctx op m none (if ctx = 0 then 2 ^ s.con.svcHub else 3) 0

/-- DAP READ. -/
def execDapRead (ctx : Nat) (msg : DapMsg) (s : State) : Out := .next (dapCommand s ctx 1 msg)

/-- DAP WRITE. -/
def execDapWrite (ctx : Nat) (msg : DapMsg) (s : State) : Out := .next (dapCommand s ctx 2 msg)

/-- DAP LOGIN. -/
def execDapLogin (ctx : Nat) (msg : DapMsg) (s : State) : Out := .next (dapCommand s ctx 3 msg)

/-- DAP LOGOUT. -/
def execDapLogout (ctx : Nat) (msg : DapMsg) (s : State) : Out := .next (dapCommand s ctx 4 msg)

/-- DAP DESCRIBE. -/
def execDapDescribe (ctx : Nat) (msg : DapMsg) (s : State) : Out := .next (dapCommand s ctx 5 msg)

end Sys2Proof.Machine
end

