-- ==== Sys2Proof/Machine/Energy.lean ====
section
/-!
DEFINITION. Energy and heat budget (08): supply mode, measured inputs, curtailment, sheds and their drains.
-/

namespace Sys2Proof.Machine

/-! ## Supply mode and budgets (R211, R212) -/

/-- SUPPLY_MODE_CMD: effective at the boundary after; a write of the current mode changes nothing. -/
def hSupplyMode : Handler :=
  { eff := fun s w => if w.v = s.sup.en.supplyMode then s else { s with sup.en.supplyDue := some (w.v, ctxCode w.ctx) } }

/-- SUPPLY_MODE_CMD. -/
def execSupplyModeCmd (ctx v : Nat) (s : State) : Out :=
  .next (writeCmd hSupplyMode E.supplyModeCmd ctx 0x1300 2 v s)

/-- A boundary begins: a mode applied at an earlier one takes effect at this one (R211, 02 R43). -/
def supplyLatch (s : State) : State := { s with sup.en.supplyNow := s.sup.en.supplyDue, sup.en.supplyDue := none }

/-- A commanded supply mode takes effect (21 Table 21-4 step 6), with event 0x1030. -/
def supplyBoundary (s : State) : State :=
  match s.sup.en.supplyNow with
  | none => s
  | some (m, ctx) =>
    let old := s.sup.en.supplyMode
    let s := { s with sup.en.supplyNow := none, sup.en.supplyMode := m, sup.en.overDone := false }
    if old = m then s else emitL s (srcHub 0) 0x1030 0 (u8 old ++ u8 m ++ u16 ctx)

/-- The budget in force, in mW. -/
def budget (s : State) : Nat :=
  (match s.sup.en.supplyMode with
   | 1 => gv s E.budgetLine
   | 2 => gv s E.budgetBattery
   | _ => gv s E.budgetStabling) * 1000

/-- A change of the budget in force lets event 0x1033 be recorded again (R219). -/
def hBudget (e : Entry) : Handler :=
  { eff := fun s w =>
      let s' := storeEff e s w
      if budget s' = budget s then s' else { s' with sup.en.overDone := false } }

/-- THERMAL_CRIT is at least THERMAL_WARN + 50 (Table 08-6). -/
def hThermalCrit : Handler :=
  { conds := fun s w => refuseIf (toInt 2 w.v < gvsInt s E.thermalWarn 1 0 + 50) abtRange 0
    eff := storeEff E.thermalCrit }

/-- SHED_ALLOW: a non-zero value for C0 is refused (Table 08-6). -/
def hShedAllow : Handler :=
  { conds := fun _ w => refuseIf (8 ≤ w.v) abtRange 1 ++ refuseIf (w.sub = 1 && w.v ≠ 0) abtRange 0
    eff := storeEff E.shedAllow }

/-! ## Curtailment (R214 to R218) -/

/-- The stretch factor of a stall at a level (Table 08-2); 0 suspended. -/
def factorAt (st : Stall) (level : Nat) : Nat :=
  if st.desc.mirrored || st.desc.energyClass ≤ 1 then 1
  else if st.desc.energyClass = 2 then
    if level ≤ 3 then 1 else if level = 4 then 2 else if level = 5 then 4 else if level ≤ 7 then 8 else 0
  else
    if level = 0 then 1 else if level = 1 then 2 else if level = 2 then 4 else if level ≤ 6 then 8 else 0

/-- The consist sheds that a stall's STALL_SHEDS names. -/
def stallSheds (s : State) (i : Nat) : List Nat :=
  let v := gvi s E.stallSheds i
  [(0, 4), (1, 5), (2, 8), (3, 9)].filterMap (fun p => if bit v p.1 then some p.2 else none)

/-- Are all the sheds that a stall needs OPEN? -/
def needsOpen (s : State) (i : Nat) (st : Stall) : Bool :=
  (getShed s (st.desc.homeCore / 4)).state = 0 && (stallSheds s i).all (fun j => (getShed s j).state = 0)

/-- May the stall be activated as far as sheds go: its home core is not gated (R220), and a stall resumed waits until every shed that it needs
has been OPEN (R222)? -/
def shedsOpen (s : State) (i : Nat) (st : Stall) : Bool :=
  (getShed s (st.desc.homeCore / 4)).state ≠ 2 && (!st.resuming || needsOpen s i st)

/-- A stall at a boundary: suspended, or resumed until its sheds are OPEN (R222). -/
def resumeMark (s : State) (i : Nat) (st : Stall) : Stall :=
  if st.state = .running && factorAt st s.sup.en.levelCur = 0 then { st with resuming := true }
  else if st.resuming && needsOpen s i st then { st with resuming := false }
  else st

/-- Is the stall due in a crossing (R138)? -/
def dueIn (st : Stall) (k : Nat) : Bool := st.admitted && k % st.desc.period = st.phase

/-- Is the stall's due activation in a crossing kept (R217, R222)? -/
def keptIn (s : State) (i : Nat) (st : Stall) (k : Nat) : Bool :=
  let f := factorAt st s.sup.en.levelCur
  dueIn st k && f ≠ 0 && (k - st.phase) / st.desc.period % f = 0 && shedsOpen s i st

/-! ## Measured inputs and the level (R213, R216, R219) -/

/-- The mean of the power of the newest images, at most 32. -/
def pAvg (s : State) : Nat :=
  let n := s.sup.en.powers.length
  if n = 0 then 0 else s.sup.en.powers.sum / n

/-- The temperatures that make θ, each with its die's source number, in the order of source numbers. -/
def temperatures (s : State) : List (Nat × Int) :=
  let lanes := (laneSet s).filter (fun l => (getLane s l).temp = s.cyc.head.temp) |>.take 1
  lanes.map (fun l => (srcLane l, s.cyc.head.temp))
    ++ ([0, 1].filter (hubUp s)).map (fun h => (srcHub h, (getHub s h).temp))
    ++ ([0, 1].filter (fun d => !(vget s.field.dies d {}).failed)).map (fun d => (srcField d, (vget s.sup.samples d {}).temp))

/-- The highest of them, with the lowest source number that gives it. -/
def hottest (s : State) : Nat × Int :=
  match temperatures s with
  | [] => (srcHub 0, 0)
  | x :: xs => xs.foldl (fun a b => if a.2 < b.2 then b else a) x

/-- The next level (R216). -/
def nextLevel (s : State) (k : Nat) (theta : Int) : Nat :=
  let lv := s.sup.en.level
  let b := budget s
  let p := pAvg s
  let crit := gvsInt s E.thermalCrit 2 0
  let warn := gvsInt s E.thermalWarn 1 0
  if crit ≤ theta then 8
  else if k % gv s E.energyStep = 0 then
    if b < p || warn ≤ theta then min (lv + 1) 8
    else if (p : Int) ≤ (b : Int) - ((gv s E.budgetHyst * 1000 : Nat) : Int) && theta ≤ warn - 50 then lv - 1
    else lv
  else lv

/-- In the Agree phase, once an image is adopted (R213, R216, R219): the power of the image joins, θ and the level for the
next crossing follow; events 0x1031 and 0x1034. -/
def energyAgree (s : State) (k power : Nat) : State :=
  let s := { s with
    sup.en.powers := (power :: s.sup.en.powers).take 32
    supply.energy := s.supply.energy + power * s.cyc.c }
  let (src, theta) := hottest s
  let crit := gvsInt s E.thermalCrit 2 0
  let s := if s.sup.en.theta < crit && crit ≤ theta then
      emitL s src 0x1034 2 (u16 (ofInt 2 theta) ++ u16 (ofInt 2 crit)) else s
  let old := s.sup.en.level
  let new := nextLevel s k theta
  let s := { s with sup.en.theta := theta, sup.en.level := new }
  let s := if old = new then s
    else emitL s (srcHub 0) 0x1031 0 (u8 old ++ u8 new ++ u32 (pAvg s) ++ u16 (ofInt 2 theta))
  if new = 8 && budget s < pAvg s then
    { s with sup.en.overSince := some (s.sup.en.overSince.getD s.cyc.tk) }
  else { s with sup.en.overSince := none }

/-- BUDGET_OVERRUN_ALERT (R219): level 8 with P_avg above the budget for 1000 ms; once until the mode or a budget changes. -/
def execBudgetOverrunAlert (s : State) : Out :=
  .next (match s.sup.en.overSince with
    | none => s
    | some t0 =>
      if t0 + 1000000000 ≤ s.cyc.tk && !s.sup.en.overDone then
        emitL { s with sup.en.overDone := true } (srcHub 0) 0x1033 1
          (u8 s.sup.en.supplyMode ++ u16 (budget s / 1000) ++ u32 (pAvg s))
      else s)

/-! ## Sheds (R220 to R224) -/

/-- May the shed be gated in the present supply mode (R221)? -/
def shedAllowed (s : State) (i : Nat) : Bool :=
  i ≠ 0 && bit (gvs s E.shedAllow (i + 1) 0) (s.sup.en.supplyMode - 1)
    && !((i = 7 || i = 11) && gv s E.twinEnable = 1)

/-- Records of a hub's journal not yet migrated to its yard. -/
def unmigrated (s : State) (h : Nat) : Nat := ((getHub s h).journal.slots.filter (fun p => !p.2.migrated)).length

/-- Does a lane wait to begin bulk, or is one in a re-stabling attempt whose bulk has begun (21 Table 21-5)? -/
def attemptWaits (s : State) : Bool :=
  s.lanes.toList.any (fun l => match l.attempt with | some a => 2 ≤ a.phase | none => false)

/-- Does the scratchpad of one of a core shed's cores hold a segment of a loaded stall? -/
def shedHolds (s : State) (i : Nat) : Bool :=
  (occupants s).any (fun o => o.1.homeCore / 4 = i
    && ((o.2.getD 0 0 = 0 && o.1.codeSize ≠ 0) || (o.2.getD 1 0 = 0 && o.1.dataSize ≠ 0)
      || (o.2.getD 2 0 = 0 && o.1.stackSize ≠ 0)))

/-- Is the shed needed (R221, 21 Table 21-5)? -/
def shedNeeded (s : State) (i : Nat) : Bool :=
  let runs := fun (st : Stall) => st.state = .running && factorAt st s.sup.en.level ≠ 0
  if i ≤ 3 then
    s.sup.stalls.any (fun p => p.2.desc.homeCore / 4 = i
      && (runs p.2 || p.2.state = .loading || p.2.state = .restarting || p.2.state = .unloading))
      || (attemptWaits s && shedHolds s i)
  else if i = 6 || i = 10 then
    let n := unmigrated s (if i = 6 then 0 else 1)
    if (getShed s i).state = 2 then 65536 ≤ n else 0 < n
  else if i = 7 || i = 11 then false
  else s.sup.stalls.any (fun p => runs p.2 && (stallSheds s p.1).contains i)

/-- The consist ports of a shed. -/
def shedPorts (i : Nat) : List Nat := (List.range 16).filter (fun p => portShed p = i)

/-- Do the paths of a session lead through a shed? -/
def sessionThrough (s : State) (n i : Nat) : Bool :=
  match nget? s.con.sessions n with
  | some e => [e.pathA, e.pathB].any (fun p => p.any (fun p => (shedPorts i).contains p.port))
  | none => false

/-- Is an item bound for a shed, or issued by a stall homed in it (R223)? -/
def boundFor (s : State) (i : Nat) (o : OutItem) : Bool :=
  if i ≤ 3 then
    match getStall? s o.stall with
    | some st => st.desc.homeCore / 4 = i
    | none => false
  else if o.kind = 2 then sessionThrough s (o.ident % 4096) i
  else if o.kind = 5 && o.ident % 65536 ≠ 0 then
    if o.ident / 65536 = 0 then sessionThrough s (ctxSession (o.ident % 65536)) i else (shedPorts i).contains (o.ident / 65536 - 1)
  else false

/-- Have the words of the previous crossing that concern a shed left both voters (R223)? What a voter has released is transmitted at once. -/
def egressClear (s : State) (i : Nat) : Bool :=
  [0, 1].all (fun h => !((getHub s h).voter.inService && hubUp s h)
    || (getHub s h).voter.words.all (fun p => p.1 / 2 ^ 24 ≠ (s.cyc.k - 1) % 65536 || p.2.released || p.2.closed
      || !((wordItem s p.1).any (fun w => boundFor s i w.2.2))))

/-- Has a shed woken (Table 08-4): a core shed by the next boundary, a port shed with its links up or after 5 ms? -/
def shedWoken (s : State) (i : Nat) : Bool :=
  i ≤ 3 || (getShed s i).since + 5000000 ≤ s.cyc.tk
    || (if i = 6 || i = 10 then (vget s.shedHub i {}).back
        else if i = 7 then (vget s.twin.links 0 {}).session && (vget s.twin.links 1 {}).session
        else if i = 11 then (vget s.twin.links 2 {}).session && (vget s.twin.links 3 {}).session
        else (shedPorts i).all (fun p => (vget s.con.ports p {}).blockLock))

/-- A shed enters a state, with event 0x1032. -/
def shedEnter (s : State) (i new : Nat) : State :=
  let old := (getShed s i).state
  let s := updShed s i (fun _ => { state := new, since := s.cyc.tk })
  let s := if new = 3 then { s with shedHub := vupd s.shedHub i (fun _ => {}) } else s
  emitL s (srcHub 0) 0x1032 0 (u8 i ++ u8 old ++ u8 new)

/-- One shed at a boundary (Table 08-4). No core shed enters CLOSING while a lane is being re-stabled (21 Table 21-5). -/
def stepShed (s : State) (i : Nat) : State :=
  let d := getShed s i
  let need := shedNeeded s i
  match d.state with
  | 0 => if shedAllowed s i && !need && !(i ≤ 3 && attemptWaits s) then shedEnter s i 1 else s
  | 1 =>
    let done := egressClear s i && d.since < s.cyc.tk && (i ≤ 3 || (vget s.shedHub i {}).stopped)
    let again := d.neededAgain || need
    if done then updShed (shedEnter s i 2) i (fun x => { x with neededAgain := again })
    else updShed s i (fun x => { x with neededAgain := again })
  | 2 => if d.neededAgain || need || !(shedAllowed s i) then shedEnter s i 3 else s
  | _ => if shedWoken s i then shedEnter s i 0 else s

/-- Step 6 of a boundary (21 Table 21-4): supply mode, then shed transitions. -/
def energyBoundary (s : State) : State :=
  let s := supplyBoundary s
  let s := { s with sup.en.levelCur := s.sup.en.level }
  let s := (List.range 12).foldl (fun s i => if i = 0 then s else stepShed s i) s
  { s with sup.stalls := s.sup.stalls.map (fun p => (p.1, resumeMark s p.1 p.2)) }

/-- SHED_RECEIVER_STOP (R224): at T_{b+2} a closing port shed stops its receivers. What was partly received (`dropped`) and
what is held in ingress is dropped and counted, with event 0x1035. -/
def execShedReceiverStop (shed : Fin 12) (dropped t : Nat) (s : State) : Out :=
  let i := shed.val
  let d := getShed s i
  let h := if i < 8 then 0 else 1
  .next (
    if 4 ≤ i && d.state = 1 && !(vget s.shedHub i {}).stopped && d.since + 2 * s.cyc.c ≤ t then
      let held := (vget s.cyc.hubOpen h []).filter (fun it => (shedPorts i).contains it.port)
      let n := dropped + held.length
      let s := { s with
        shedHub := vupd s.shedHub i (fun _ => { stopped := true })
        twin.links := s.twin.links.mapIdx (fun l x => if i = 7 + 4 * (l / 2) then { x with session := false } else x)
        cyc.hubOpen := vupd s.cyc.hubOpen h (fun l => l.filter (fun it => !((shedPorts i).contains it.port)))
        con.ports := Vector.ofFn (fun p : Fin 16 =>
          let x := vget s.con.ports p.val {}
          if (shedPorts i).contains p.val then { x with blockLock := false } else x) }
      if n = 0 then s
      else emitH (bumps s E.shedDroppedIn (i + 1) 0 n) h t (srcHub h) 0x1035 1 (u8 i ++ u32 n)
    else s)

end Sys2Proof.Machine
end

