-- ==== Sys2Proof/Machine/Tacho.lean ====
section
/-!
DEFINITION. Tacho counting and speed at the field dies (07 R193 to R196), the distance base (R197 to R199), and the time bases'
alerts (R190, R192).
-/

namespace Sys2Proof.Machine

def updTacho (s : State) (c : Nat) (f : Tacho → Tacho) : State := { s with tacho := vupd s.tacho c f }
def getTacho (s : State) (c : Nat) : Tacho := vget s.tacho c {}

/-- The die of a tacho channel in the order TAX0, TAX1, TAY0, TAY1. -/
def tachoDie (c : Nat) : Nat := c / 2

/-! ## Counting (R193, 14 R372) -/

/-- The position of a pair of levels in the order in which A leads B. -/
def quadPos (a b : Bool) : Nat := if !a && !b then 0 else if a && !b then 1 else if a && b then 2 else 3

/-- The count that a transition of one phase adds. -/
def quadDelta (a b a' b' : Bool) : Int :=
  if quadPos a' b' = (quadPos a b + 1) % 4 then 1 else if quadPos a b = (quadPos a' b' + 1) % 4 then -1 else 0

/-- Edges within a standstill window before an instant. -/
def edgesWithin (l : List (Nat × Int)) (t window : Nat) : List (Nat × Int) := l.filter (fun e => t ≤ e.1 + window)

/-- A transition that comes with one of the other phase, as they change together: a phase error (R193). Neither is counted, and what
the first one counted is taken back. -/
def phaseErrorAt (x : Tacho) (t : Nat) : Tacho :=
  { x with
    count := x.count - x.lastDelta
    edges := if x.lastDelta = 0 then x.edges else x.edges.drop 1
    lastEdge := if x.lastDelta = 0 then x.lastEdge else x.prevEdge
    lastDelta := 0, faultUntil := some (t + 1000000000) }

/-- TACHO_TRANSITION: counted, or with the other phase's transition less than 1 us before, a phase error: neither is counted,
and the fault bit is set for 1 s. -/
def execTachoTransition (ch : Fin 4) (phaseB : Bool) (level : Bool) (t : Nat) (s : State) : Out :=
  let c := ch.val
  let x := getTacho s c
  let old := if phaseB then x.b else x.a
  let a' := if phaseB then x.a else level
  let b' := if phaseB then level else x.b
  let other := if phaseB then x.lastA else x.lastB
  let stand := dieCfg s (tachoDie c) E.tachoStandstill (c + 1) 0 * 1000000
  .next (
    if (getDie s (tachoDie c)).failed || old = level then s
    else
      let x1 := { x with a := a', b := b', lastA := if phaseB then x.lastA else t, lastB := if phaseB then t else x.lastB }
      if other ≠ 0 && t < other + 1000 then
        updTacho s c (fun _ => phaseErrorAt x1 t)
      else
        let d := quadDelta x.a x.b a' b'
        updTacho s c (fun _ => { x1 with
          count := x.count + d, lastDelta := d, lastEdge := t, prevEdge := x.lastEdge
          edges := (t, x.count + d) :: edgesWithin x.edges t stand }))

/-- TACHO_FAULT_CLEAR: the fault bit expires after 1 s. -/
def execTachoFaultClear (ch : Fin 4) (t : Nat) (s : State) : Out :=
  .next (match (getTacho s ch.val).faultUntil with
    | some u => if u ≤ t then updTacho s ch.val (fun x => { x with faultUntil := none }) else s
    | none => s)

/-! ## Distance per count and speed (R194, R195) -/

/-- π in binary64. -/
def piW : Word := 0x400921FB54442D18

/-- Distance per count of a channel in nm, in binary64 with roundTiesToEven (R194). -/
def tachoQ (s : State) (c : Nat) : Int :=
  let d := gvs s E.tachoWheelDia (c + 1) 0
  let p := gvs s E.tachoPpr (c + 1) 0
  let num := (fpMul (fpMul piW (fpOfU (BitVec.ofNat 64 d)).1).1 (fpOfU 1000).1).1
  let q := (fpRint true (fpDiv num (fpOfU (BitVec.ofNat 64 (4 * p))).1).1).1
  (fpToI q).1.toInt

/-- TACHO_SIGN of a channel. -/
def tachoSign (s : State) (c : Nat) : Int := if gvs s E.tachoSign (c + 1) 0 = 1 then 1 else -1

/-- A channel at a field sample: standstill, count and speed. The rounding of the speed, and its value where fewer than two
edges lie in the last 20 ms, are not stated: free values (log 6). -/
def tachoSample (s : State) (c t : Nat) : State :=
  let x := getTacho s c
  let stand := dieCfg s (tachoDie c) E.tachoStandstill (c + 1) 0 * 1000000
  let edges := edgesWithin x.edges t stand
  let near := edgesWithin edges t 20000000
  let still := edges.length < 2
  let f := freeVal s
  let s := if still then s else freeNext s
  let v : Int :=
    if still then 0
    else match near.head?, near.getLast? with
      | some n, some o =>
        if tickAt n.1 = tickAt o.1 then toInt 4 f
        else
          let num := (n.2 - o.2) * tachoSign s c * tachoQ s c * 1000
          let den : Int := (((tickAt n.1 - tickAt o.1) * 10 : Nat) : Int)
          num / den + (if num % den = 0 then 0 else ((f % 2 : Nat) : Int))
      | _, _ => toInt 4 f
  updTacho s c (fun x => { x with edges := edges, still := still, sampleCount := x.count * tachoSign s c, sampleV := v })

/-- The channel's part of a field sample; `at_` is the translated stamp of its last edge. -/
def tachoItem (x : Tacho) (at_ : Nat) : TachoSamp :=
  { count := x.sampleCount, v := x.sampleV, lastEdge := at_, fault := b2n x.faultUntil.isSome, still := x.still }

/-! ## The distance base (R197 to R199) -/

/-- The median; for an even number of values the mean of the two middle ones, rounded toward zero. -/
def median (l : List Int) : Int :=
  let m := l.mergeSort (· ≤ ·)
  let n := m.length
  if n = 0 then 0
  else if n % 2 = 1 then m.getD (n / 2) 0
  else Int.tdiv (m.getD (n / 2 - 1) 0 + m.getD (n / 2) 0) 2

/-- Does a plane give the module its orientation: its hub operates and an outward chain has arrived on it (10 R260)? -/
def orients (s : State) (h : Nat) : Bool := hubUp s h && (vget s.bb.planes h {}).chainAt.isSome

/-- Is the module reversed (10 R260)? Plane A tells, or plane B where plane A does not and plane B does. -/
def moduleReversed (s : State) : Bool :=
  (vget s.bb.planes (if !(orients s 0) && orients s 1 then 1 else 0) {}).reversed

/-- The sign that turns local counts into the train's reference direction (R197, 10 R260). -/
def orientSign (s : State) : Int := if moduleReversed s then -1 else 1

/-- Is the reference speed valid in a crossing (R198)? -/
def refValid (s : State) (k : Nat) : Bool :=
  match s.sup.tp.refV with
  | some (_, k0) => k - k0 ≤ gv s E.posRefMaxAge
  | none => false

/-- Is a tacho channel healthy against the reference (R198)? -/
def tachoHealthy (s : State) (k : Nat) (v : Int) : Bool :=
  let ref := ((s.sup.tp.refV.map Prod.fst).getD 0)
  let tol : Int := max ((gv s E.posSlipAbs : Nat) : Int) ((gv s E.posSlipRel : Nat) * (ref.natAbs : Int) / 1000)
  !(refValid s k) || ((v - ref).natAbs : Int) ≤ tol

/-- The agreed sample of a tacho channel. -/
def tachoSampOf (s : State) (c : Nat) : TachoSamp := ((vget s.sup.samples (tachoDie c) {}).tacho.getD (c % 2) {})

/-- Does a channel take part in the fusion: enabled and without fault? -/
def tachoIn (s : State) (c : Nat) : Bool :=
  gvs s E.tachoEnable (c + 1) 0 = 1 && (tachoSampOf s c).fault = 0 && !(getDie s (tachoDie c)).failed

/-- The fusion of a crossing, from the samples just adopted (R197, R198). -/
def fuse (s : State) (k : Nat) : State :=
  let ins := (List.range 4).filter (tachoIn s)
  let sg := orientSign s
  let healthy := ins.filter (fun c => tachoHealthy s k (sg * (tachoSampOf s c).v))
  let tp := s.sup.tp
  let dist := fun (c : Nat) =>
    let im := vget tp.tacho c {}
    if im.restart then 0 else sg * ((tachoSampOf s c).count - im.count) * tachoQ s c
  let ref := refValid s k
  let refv := (tp.refV.map Prod.fst).getD 0
  let dt : Int := if s.cyc.lastStep ≠ 0 then (s.cyc.c : Int) else (s.cyc.tk : Int) - (tp.tkPrev : Int)
  let (dd, v, q) : Int × Int × Nat :=
    if healthy ≠ [] then (median (healthy.map dist), median (healthy.map (fun c => sg * (tachoSampOf s c).v)), if ref then 3 else 2)
    else if ref then (refv * dt / 1000, refv, 1)
    else (0, 0, 0)
  let s := ins.foldl (fun s c =>
    let was := (vget tp.tacho c {}).healthy
    let now := healthy.contains c
    if was = now then s
    else emitL s (srcField (tachoDie c)) 0x2074 1
      (u8 (c % 2) ++ u8 (if now then 2 else 1) ++ u32 (ofInt 4 (sg * (tachoSampOf s c).v)) ++ u32 (ofInt 4 refv))) s
  let s := if q = tp.quality then s else emitL s (srcHub 0) 0x2075 1 (u8 tp.quality ++ u8 q)
  let imgs := Vector.ofFn (fun i : Fin 4 =>
    let c := i.val
    let im := vget tp.tacho c {}
    let x := tachoSampOf s c
    { im with
      healthy := if ins.contains c then healthy.contains c else im.healthy
      count := x.count, v := x.v, lastEdge := x.lastEdge, fault := x.fault, still := x.still, restart := false
      datumCount := if im.restart then im.datumCount + x.count - im.count else im.datumCount })
  { s with
    sup.tp.tacho := imgs
    sup.tp.base := tp.base + dd
    sup.tp.ePrev := tp.e
    sup.tp.e := tp.base + dd + v * 6
    sup.tp.vFused := v
    sup.tp.quality := q
    sup.tp.tkPrev := s.cyc.tk
    sup.tp.track := (s.cyc.tk, tp.base + dd + v * 6) :: tp.track }

/-- A channel's distance since the datum in mm, rounded toward −∞ (Table 07-3). -/
def channelDistance (s : State) (c : Nat) : Int :=
  let im := vget s.sup.tp.tacho c {}
  (im.count - im.datumCount) * tachoQ s c / 1000000

/-- Move the distance base by a shift: the positions of this image and of the one before are counted from the new datum. -/
def rebase (s : State) (shift : Int) : State :=
  { s with
    sup.tp.base := s.sup.tp.base - shift, sup.tp.e := s.sup.tp.e - shift, sup.tp.ePrev := s.sup.tp.ePrev - shift
    sup.tp.track := s.sup.tp.track.map (fun p => (p.1, p.2 - shift))
    sup.tp.tacho := s.sup.tp.tacho.map (fun x => { x with datumCount := x.count }) }

/-- Event 0x2076 of a datum. The codes of its source field are not stated: a free value (log 6). -/
def datumEvent (s : State) (number : Nat) (before after : Int) : State :=
  let f := freeVal s
  emitL (freeNext s) (srcHub 0) 0x2076 0
    (u16 number ++ u8 (f % 256) ++ u64 (ofInt 8 (before / 1000000)) ++ u64 (ofInt 8 (after / 1000000)))

/-- The position of an instant between two images, in proportion to time. -/
def between (a b : Nat × Int) (t : Nat) : Int :=
  if a.1 = b.1 then b.2 else a.2 + Int.fdiv ((b.2 - a.2) * ((t : Int) - (a.1 : Int))) ((b.1 : Int) - (a.1 : Int))

/-- The position of an instant on the track of the images fused, newest first: between the two images around it, past the newest by the
newest two, and before the oldest that of the oldest (log 145). -/
def trackAt : List (Nat × Int) → Nat → Int
  | [], _ => 0
  | [b], _ => b.2
  | b :: a :: rest, t => if a.1 ≤ t then between a b t else trackAt (a :: rest) t

/-- Data due at this crossing's image (R199): a written position first, then an announced instant, at whose position on the track the
distance base becomes 0. -/
def applyDatums (s : State) : State :=
  let n := s.sup.tp.datumNumber
  let ann := s.sup.tp.datumDue
  let s := match s.sup.tp.datumWrite with
    | none => s
    | some (p, _) =>
      let e := s.sup.tp.e
      let s := rebase { s with sup.tp.datumWrite := none } (e - p * 1000000)
      datumEvent s (if ann.isSome then (if n = 1 then 0xFFFF else n - 1) else n) e s.sup.tp.e
  match ann with
  | none => s
  | some t =>
    let e := s.sup.tp.e
    let s := rebase { s with sup.tp.datumDue := none, sup.tp.lastDatum := some t } (trackAt s.sup.tp.track t)
    datumEvent s n e s.sup.tp.e

/-! ## Alerts of the time bases (R190, R192) -/

/-! ## System telegrams adopted (09 R254 to R256) -/

/-- SPEED_REF: v_ref is the speed of the copy last adopted; quality NONE counts as absent. -/
def takeSpeedRef (s : State) (speed : Int) (valid : Bool) : State :=
  { s with sup.tp.refV := if valid then some (speed, s.cyc.k) else none }

/-- DATUM: an instant other than the last one applied falls due at the next boundary. -/
def takeDatum (s : State) (instant : Nat) : State :=
  if s.sup.tp.lastDatum = some instant || s.sup.tp.datumInstant = some instant || s.sup.tp.datumDue = some instant then s
  else { s with sup.tp.datumInstant := some instant }

/-- UTC: an offset with VALID is applied at the next boundary (07 R191). -/
def takeUtc (s : State) (offset : Int) (valid : Bool) : State :=
  if valid then { s with sup.tp.utcDue := some offset } else s

/-- Bytes of a system telegram, most significant first. -/
def beAt (b : List Byte) (o n : Nat) : Nat := beNat ((b.drop o).take n)

/-- A copy of a backbone telegram has been adopted: a system telegram of 09 Table 09-8 acts. -/
def systemAdopted (s : State) (source : Nat) (data : List Byte) : State :=
  match source % 2 ^ 31 / 64 with
  | 4064 => takeSpeedRef s (toInt 4 (beAt data 0 4)) (beAt data 4 1 ≠ 0)
  | 4065 => takeDatum s (beAt data 0 8)
  | 4066 => takeUtc s (toInt 8 (beAt data 0 8)) (bit (beAt data 8 1) 0)
  | _ => s

/-- A hub's correction is out of range (R192): its time base enters FREE, and it cannot land until a later report says otherwise. -/
def hubOutOfRange (s : State) (h : Nat) : State :=
  { updHub s h (fun d => { d with timeState := 0, oscBad := true }) with
    bb.planes := vupd s.bb.planes h (fun p => if p.node = 3 || p.node = 4 || p.node = 6 then { p with node := 1 } else p) }

/-- OSC_CORRECTION_OUT_OF_RANGE (R192): the required correction, in ppb, has left ±200 ppm: a lane, after 8 crossings, is
faulted with cause 7; a hub cannot land and its time base enters FREE, until a correction within the range is reported. Event 0x2073. -/
def execOscCorrectionOutOfRange (die : Fin 5) (ppb : Int) (t : Nat) (s : State) : Out :=
  .next (
    if ppb.natAbs ≤ 200000 then (if die.val < 3 then s else updHub s (die.val - 3) (fun d => { d with oscBad := false }))
    else if die.val < 3 then
      let l := die.val
      if (getLane s l).state = .out || (getLane s l).state = .failed then s
      else laneFault (emitL s (srcLane l) 0x2073 2 (u32 (ofInt 4 ppb))) l 7 (srcLane l)
    else
      let h := die.val - 3
      if !(hubUp s h) then s
      else
        let old := (vget s.bb.planes h {}).node
        let s := blockCount (hubOutOfRange s h) (0x5381 + h) 12
        let new := (vget s.bb.planes h {}).node
        let s := if old = new then s else emitH s h t (srcHub h) 0x3010 1 (u8 h ++ u8 old ++ u8 new)
        emitH s h t (srcHub h) 0x2073 2 (u32 (ofInt 4 ppb)))

/-- Event 0x2071 (R190): both hubs' T_k and their difference. -/
def hubDiffEvent (s : State) : State :=
  emitL s (srcHub 0) 0x2071 2
    (u64 (getHub s 0).time ++ u64 (getHub s 1).time ++ u32 (ofInt 4 s.hubDiff))

/-- The phase difference of the two time bases, measured once per crossing (R190). -/
def measureHubDiff (s : State) (d : Int) : State :=
  if 200 < d.natAbs then { s with hubDiff := d, hubDiffRun := s.hubDiffRun + 1 }
  else { s with hubDiff := d, hubDiffRun := 0, hubDiffDone := false }

/-- TIME_HUB_DIFF_ALERT (R190): above 200 ns for 8 consecutive crossings, once. -/
def execTimeHubDiffAlert (s : State) : Out :=
  .next (if 8 ≤ s.hubDiffRun && !s.hubDiffDone then hubDiffEvent { s with hubDiffDone := true } else s)

end Sys2Proof.Machine
end

