-- ==== Sys2Proof/Machine/Backbone.lean ====
section
/-!
DEFINITION. The Emvauc backbone (09): links, relaying, frames and their slots, bells, keys, system telegrams, and loading of slot
plans.
-/

namespace Sys2Proof.Machine

def getLink (s : State) (i : Nat) : BLink := vget s.bb.links i {}
def updLink (s : State) (i : Nat) (f : BLink → BLink) : State := { s with bb.links := vupd s.bb.links i f }
def getPlane (s : State) (h : Nat) : Plane := vget s.bb.planes h {}
def updPlane (s : State) (h : Nat) (f : Plane → Plane) : State := { s with bb.planes := vupd s.bb.planes h f }

/-- The hub, and the plane, of a link (R227). -/
def linkHub (i : Nat) : Nat := i / 2

/-- The other link of a plane. -/
def otherLink (i : Nat) : Nat := i / 2 * 2 + (1 - i % 2)

/-! ## Node and link states -/

/-- A hub's node state changes (10 R263): event 0x3010. In LISTEN, CLAIM and LANDING the time base is FREE (10 Table 10-1). -/
def setNode (s : State) (h new : Nat) : State :=
  let old := (getPlane s h).node
  if old = new then s
  else
    let s := if 1 ≤ new && new ≤ 3 then updHub s h (fun d => { d with timeState := 0 }) else s
    emitH (updPlane s h (fun p => { p with node := new })) h s.cyc.tk (srcHub h) 0x3010 1 (u8 h ++ u8 old ++ u8 new)

/-- A link's state changes (R230): event 0x3001. -/
def setLink (s : State) (i new : Nat) : State :=
  let old := (getLink s i).state
  if old = new then s
  else
    let h := linkHub i
    emitH (updLink s i (fun l => { l with state := new })) h s.cyc.tk (srcHub h) 0x3001 1 (u8 i ++ u8 old ++ u8 new)

/-- A valid bell or frame from the peer (R230). -/
def peerHeard (s : State) (i : Nat) : State :=
  let s := updLink s i (fun l => { l with lastPeer := s.cyc.k })
  if (getLink s i).state = 1 then setLink s i 2 else s

/-- A link goes DOWN (R230, 10 R263, R283). -/
def downLink (s : State) (i : Nat) : State :=
  if (getLink s i).state = 0 then s
  else
    let h := linkHub i
    let s := setLink s i 0
    let s := updLink s i (fun l => { l with
      good := 0, bad := 0, noDelay := true, delayLost := false, samples := [], probeSent := none, edge := false, opens := false
      foreign := none, fBell := none })
    let s := if 3 ≤ (getPlane s h).node then emitH s h s.cyc.tk (srcHub h) 0x3014 1 (u8 h ++ u8 i ++ u64 s.cyc.k) else s
    if (getLink s (otherLink i)).state = 0 then
      let s := updPlane s h (fun p => { p with listenSince := none, chainAt := none, takenX := none })
      let s := updHub s h (fun d => { d with timeState := if d.timeState = 0 then 0 else 2 })
      setNode s h 0
    else s

/-- A link locks its bonding: ALIGNED; a node that was DOWN listens (R229, R230, 10 R272). -/
def alignLink (s : State) (i : Nat) : State :=
  let h := linkHub i
  let s := setLink s i 1
  let s := updLink s i (fun l => { l with lastSample := s.cyc.k, lastPeer := s.cyc.k })
  if (getPlane s h).node = 0 then
    setNode (updPlane s h (fun p => { p with listenSince := some s.cyc.tk, missed := 0 })) h 1
  else s

/-- A marker brought whole, compared with the one before (R229): its count follows, and its skew is that of the one before within a block
time (log 146). The first in DOWN, or after a bad one there, has none before it. -/
def markerFits (s : State) (i count skew : Nat) : Bool :=
  let l := getLink s i
  skew ≤ 409 && ((l.state = 0 && l.good = 0) || 
    (count = (l.marker + 1) % 65536 && skew ≤ gvi s E.linkSkew i + 6 && gvi s E.linkSkew i ≤ skew + 6))

/-- ALIGNMENT_MARKER (R229): bonding locks after two consecutive consistent markers and is lost after four missing or inconsistent ones,
or at once on high BER. Errored blocks count in LINK_BLOCK_ERRORS (R257). -/
def execAlignmentMarker (link : Fin 4) (m : MarkerIn) (count skew : Nat) (s : State) : Out :=
  .next (
    let i := link.val
    let l := getLink s i
    if !(hubUp s (linkHub i)) || !s.st.ports then s
    else
      let good := m.ok && markerFits s i count skew
      let s := if m.errs = 0 then s else bumpx s E.linkBlockErrors E.linkBlockErrors.sub i 0 m.errs
      if m.hiBer then downLink (updLink s i (fun l => { l with good := 0 })) i
      else if !m.ok then
        let s := updLink s i (fun l => { l with good := 0, bad := l.bad + 1, marker := (l.marker + 1) % 65536 })
        if 4 ≤ l.bad + 1 then downLink s i else s
      else
        let s := svi s E.linkSkew i (skew % 65536)
        if good then
          let s := updLink s i (fun l => { l with good := min 2 (l.good + 1), bad := 0, marker := count % 65536 })
          if l.state = 0 && 1 ≤ l.good then alignLink s i else s
        else
          let s := updLink s i (fun l => { l with good := if skew ≤ 409 then 1 else 0, bad := l.bad + 1, marker := count % 65536 })
          if 4 ≤ l.bad + 1 then downLink s i else s)

/-- LINK_PEER_SILENCE (R230): no valid bell or frame from the peer in three crossings. -/
def execLinkPeerSilence (link : Fin 4) (s : State) : Out :=
  .next (
    let l := getLink s link.val
    if l.state = 2 && l.lastPeer + 3 ≤ s.cyc.k then setLink s link.val 1 else s)

/-- LINK_DOWN (R230, 10 R283): a lane without block lock or bonding. -/
def execLinkDown (link : Fin 4) (s : State) : Out := .next (downLink s link.val)

/-! ## Relaying (R233, 10 R262) -/

/-- Does the roster in force name a plan that the module does not hold (10 R277)? -/
def rosterGap (s : State) : Bool :=
  s.bb.roster.units.any (fun u => u.admitted &&
    !((s.bb.configured.map (·.number)) = some u.plan || s.bb.companions.any (fun p => p.number = u.plan)))

/-- Does the hub relay transparently (10 R262, R277)? -/
def transparent (s : State) (h : Nat) : Bool :=
  let n := (getPlane s h).node
  n = 1 || n = 2 || n = 3 || n = 6 || (n = 4 && rosterGap s)

/-- Does a message that arrives on a physical link travel aft (10 R260)? -/
def arrivesAft (reversed : Bool) (i : Nat) : Bool := (i % 2 = 0) != reversed

/-- Does a message that leaves by a physical link travel aft (10 R260)? -/
def leavesAft (reversed : Bool) (i : Nat) : Bool := (i % 2 = 1) != reversed

/-- The passage time of a plan unit at the node, in ps, for a crossing that begins at `tk` and a direction (R232). -/
def passage (s : State) (h : Nat) (aft : Bool) (tk u : Nat) : Int :=
  ((tk * 1000 + 8000 * u : Nat) : Int) + (if aft then (getPlane s h).wAft else (getPlane s h).wFore)

/-- Does a start block that arrives on a link at an instant in ps lie in the acceptance window of a plan unit: within 200 ns of the planned
arrival, 600 ns before the passage time (R233)? -/
def inWindow (s : State) (i tk u : Nat) (start : Int) : Bool :=
  (start - (passage s (linkHub i) (arrivesAft (getPlane s (linkHub i)).reversed i) tk u - 600000)).natAbs ≤ 200000

/-- The train crossings whose traffic may pass the node now, with their T: the one before, the present one and the next (R233, note). -/
def nearCrossings (s : State) : List (Nat × Nat) :=
  let x := trainX s s.cyc.tk
  (if x = 0 then [] else [(x - 1, s.cyc.tk - s.cyc.c)]) ++ [(x, s.cyc.tk), (x + 1, s.cyc.tk + s.cyc.c)]

/-- The crossing, and its T, in whose window of a slot a start block arrives. -/
def slotWindow (s : State) (i : Nat) (p : PlanEntry) (start : Int) : Option (Nat × Nat) :=
  (nearCrossings s).find? (fun x => slotDue p x.1 && inWindow s i x.2 p.offset start)

/-- T of the crossing in whose bell window a start block arrives. -/
def bellWindow (s : State) (i : Nat) (start : Int) : Option Nat :=
  ((nearCrossings s).find? (fun x => inWindow s i x.2 0 start)).map (·.2)

/-- Does a link's counterpart take what is relayed: it works, is no edge, and the hub sends? -/
def relays (s : State) (i : Nat) : Bool :=
  (getLink s (otherLink i)).state ≠ 0 && !(getLink s (otherLink i)).edge && hubSends s (linkHub i)

/-- What was received leaves by the other link of the plane, unaltered (R233): its start block at an instant in ps; `ended` is 0 for a whole
copy, and 1 or 2 for one that an error control block ends, cut by the guard or broken off. LINK_RELAYED counts frames. -/
def relayOut (s : State) (i slot : Nat) (bell : Bool) (at_ : Int) (ended : Nat) (data : List Byte) : State :=
  if relays s i then
    send (if bell then s else bumpi s E.linkRelayed (otherLink i))
      { kind := .relay, port := otherLink i, a := slot, b := at_.toNat, c := ended, data := data }
  else s

/-- The time that a frame of a length takes, in ps: its blocks on two lanes (R236, R243). -/
def frameTime (len : Nat) : Nat := (len / 8 + 2 + 1) / 2 * 6400

/-- A frame received in a planned window (R233): it leaves at P, cut where it runs more than 32 ns beyond its planned length. -/
def relayFrame (s : State) (i : Nat) (p : PlanEntry) (tk dur : Nat) (broken : Bool) (data : List Byte) (t : Nat) : State :=
  let h := linkHub i
  let out := passage s h (arrivesAft (getPlane s h).reversed i) tk p.offset
  let cut := frameTime p.len + 32000 < dur
  let s' := relayOut s i p.slot false out (if cut then 1 else if broken then 2 else 0) (if cut then data.take p.len else data)
  if cut && relays s i then
    emitH (bumpi s' E.linkGuardCuts (otherLink i)) h t (srcHub h) 0x3003 2 (u8 i ++ u16 p.slot ++ u16 p.node ++ u64 s.cyc.k)
  else s'

/-- The slot, and T of the crossing, in whose acceptance window a frame's start block arrives (R233). -/
def slotAt (s : State) (i : Nat) (start : Int) : Option (PlanEntry × Nat) :=
  s.bb.inForce.entries.findSome? (fun p => (slotWindow s i p start).map (fun x => (p, x.2)))

/-- A transparent hub has no windows (10 R262), but a LANDING one notes a start block outside those of the plan in force (10 R275). -/
def noteUnplanned (s : State) (i : Nat) (bell : Bool) (start : Int) : State :=
  if (getPlane s (linkHub i)).node = 3 && (if bell then (bellWindow s i start).isNone else (slotAt s i start).isNone) then
    updPlane s (linkHub i) (fun p => { p with unplanned := true })
  else s

/-- RELAY_START_BLOCK: a bell's or a frame's start block arrives on a link at `start`, in ps of the hub's train time, and begins `rx`. -/
def execRelayStartBlock (link : Fin 4) (bell : Bool) (start : Int) (rx : RelayIn) (t : Nat) (s : State) : Out :=
  .next (
    let i := link.val
    let h := linkHub i
    if !(hubUp s h) || (getLink s i).state = 0 || (getPlane s h).node = 0 || (getLink s i).edge then s
    else if transparent s h then
      if bell && (getPlane s h).node = 2 then s
      else relayOut (noteUnplanned s i bell start) i 0xFFFF bell (start + 600000) (if rx.broken then 2 else 0) rx.data
    else if bell then
      match bellWindow s i start with
      | some tk => relayOut s i 0xFFFF true (passage s h (arrivesAft (getPlane s h).reversed i) tk 0) (if rx.broken then 2 else 0) rx.data
      | none => bump (updPlane s h (fun p => { p with unplanned := true })) E.bbUnplanned
    else
      match slotAt s i start with
      | some (p, tk) => relayFrame s i p tk rx.dur rx.broken rx.data t
      | none => bump (updPlane s h (fun p => { p with unplanned := true })) E.bbUnplanned)

/-! ## Keys and tags (R240, R241) -/

/-- The IV of a transmission (R240, 10 R270): sender, plane, type, slot or cell code, crossing number. -/
def bbIv (sender plane ty slot crossing : Nat) : Nat :=
  beNat (beBytes 2 sender ++ beBytes 1 (plane * 128 + ty * 16 + slot / 256 % 16) ++ beBytes 1 (slot % 256) ++ beBytes 8 crossing)

/-- The key that a key number names; an empty slot gives none. -/
def bbKeyOf (s : State) (n : Nat) : Option Nat := vget s.bb.keys n none

/-- The 16 bytes of a tag. -/
def bbTag (s : State) (key iv : Nat) (bs : List Byte) : List Byte :=
  beBytes 16 (Config.gmac ((bbKeyOf s key).getD 0) iv bs % 2 ^ 128)

/-- A hub follows the key number that a bell names (R241). -/
def nameKey (s : State) (h key : Nat) : State :=
  let p := getPlane s h
  if p.keyCur = key then s
  else updPlane s h (fun p => { p with keyPrev := some p.keyCur, keyCur := key, keyChanged := s.cyc.k, keyReported := none })

/-- Event 0x3006: the named key is not held, once per change. -/
def noKey (s : State) (h key : Nat) : State :=
  if (getPlane s h).keyReported = some key then s
  else
    emitH (updPlane s h (fun p => { p with keyReported := some key })) h s.cyc.tk (srcHub h) 0x3006 2 (u8 key ++ u32 0)

/-- May a frame come under the key number: the one the bell names, or for 64 crossings the one before? -/
def keyAllowed (s : State) (h key : Nat) : Bool :=
  let p := getPlane s h
  key = p.keyCur || (p.keyPrev = some key && s.cyc.k ≤ p.keyChanged + 64)

/-- The key under which a plane sends what belongs to a train crossing: the one that the bell of that crossing named (R241). -/
def keyFor (s : State) (h x : Nat) : Nat :=
  let p := getPlane s h
  if x < trainX s s.cyc.tk && p.keyChanged = s.cyc.k then p.keyPrev.getD p.keyCur else p.keyCur

/-- BB_KEY_ACTIVE: the number is named in the bell of the crossing after the write is applied. -/
def hBbKeyActive : Handler := storeHandler E.bbKeyActive

/-- BB_KEY_ACTIVE (R241). -/
def execBbKeyActive (ctx v : Nat) (s : State) : Out := .next (writeCmd hBbKeyActive E.bbKeyActive ctx 0x3012 1 v s)

/-- BB_KEY: the slot holds the key; it is never read. -/
def hBbKey : Handler :=
  { eff := fun s w => { s with bb.keys := vupd s.bb.keys (w.sub - 1) (fun _ => some w.v) } }

/-- The check value of a key slot (R241). -/
def bbKeyCheckOf (s : State) (n : Nat) : Nat :=
  match bbKeyOf s n with
  | some k => Config.aesCheck k % 2 ^ 32
  | none => 0

/-! ## Bells (R234, 10 R270) -/

/-- The number of the plan that this module's bells name: the plan in force, or that of its own unit during COLD. -/
def bellPlan (s : State) : Nat :=
  if s.bb.coldFlag then (s.bb.configured.map (·.number)).getD 0 else s.bb.inForce.number

/-- The crossing number in this module's bells (10 R270). -/
def bellX (s : State) : Nat :=
  if s.bb.coldFlag then serial40 * 2 ^ 24 + s.bb.coldEver % 2 ^ 24 else trainX s s.cyc.tk

/-- The vehicles and nodes in this module's bells. -/
def bellSize (s : State) : Nat × Nat :=
  if s.bb.coldFlag then ((s.bb.configured.map (·.vehicles)).getD 0, (s.bb.configured.map (·.nodes)).getD 0)
  else (s.bb.roster.vehicles, s.bb.roster.nodes)

/-- The first 32 bytes of a bell (09 Table 09-3). -/
def bellBody (s : State) : List Byte :=
  beBytes 1 1
    ++ beBytes 1 (128 * b2n s.bb.coldFlag + 64 * b2n s.bb.mergeFlag + 32 * b2n (0 < forceCount s))
    ++ beBytes 2 (if s.bb.coldFlag then 0xFFFF else s.bb.address)
    ++ beBytes 2 (bellPlan s) ++ beBytes 1 (s.cyc.c / 125000) ++ beBytes 1 s.bb.keyNamed
    ++ beBytes 8 (bellX s) ++ beBytes 8 s.cyc.tk ++ beBytes 1 (gv s E.bbPriority)
    ++ beBytes 1 (bellSize s).1 ++ beBytes 1 (bellSize s).2 ++ beBytes 1 0
    ++ beBytes 4 (if s.bb.claiming then s.bb.claimInaug else s.bb.inaug)

/-- Send a message of a plan unit on both links of a plane that work, on each at the passage time of its direction, in ps (R232); `a` is
what its first control block carries. The plane of a hub whose voter has failed is silent (06 R171). -/
def sendBoth (s : State) (plane : Nat) (kind : EgKind) (tk u a : Nat) (data : List Byte) : State :=
  let one := fun (s : State) (i : Nat) =>
    if (getLink s i).state = 0 then s
    else send s { kind := kind, port := i, a := a, b := (passage s plane (leavesAft (getPlane s plane).reversed i) tk u).toNat, data := data }
  if hubSends s plane then one (one s (2 * plane)) (2 * plane + 1) else s

/-- Count a crossing in which the module has sent its bell: a claim's bells (10 R273), and every COLD bell (10 R270). -/
def countClaimBell (s : State) : State :=
  if s.bb.bellK = some s.cyc.k then s
  else { s with bb.bellK := some s.cyc.k, bb.coldSent := if s.bb.claiming then s.bb.coldSent + 1 else s.bb.coldSent,
                bb.coldEver := if s.bb.coldFlag then s.bb.coldEver + 1 else s.bb.coldEver }

/-- BELL_SEND (R234, 10 R272, R283): the ferryman, or a module that claims; its own frames follow the key that its bell names (R241). -/
def execBellSend (plane : Fin 2) (s : State) : Out :=
  .next (
    let h := plane.val
    if !(hubUp s h) || (getPlane s h).node = 0 || !(s.bb.isFerry || s.bb.claiming) || s.bb.yieldK.any (· < s.cyc.k) then s
    else
      let s := nameKey (countClaimBell s) h s.bb.keyNamed
      let body := bellBody s
      let iv := bbIv (if s.bb.coldFlag then 0xFFFF else s.bb.address) h 1 0 (bellX s)
      sendBoth s h .bell s.cyc.tk 0 (bellX s % 2 ^ 24) (body ++ bbTag s s.bb.keyNamed iv body))

/-! ## Sending telegrams (R236 to R239, R246 to R248) -/

/-- The frame bytes of a telegram in a slot of a train crossing (R236, 09 Tables 09-4 and 09-5). -/
def frameOf (s : State) (plane x : Nat) (p : PlanEntry) (kind flags seq : Nat) (data : List Byte) : List Byte :=
  let key := keyFor s plane x
  let hdr := beBytes 1 1
    ++ beBytes 1 (128 * b2n (0 < forceCount s) + 64 * b2n (gv s E.twinEnable = 1) + 32 * b2n (holdsLease s))
    ++ beBytes 2 s.bb.address ++ beBytes 2 (plane * 2 ^ 15 + p.slot) ++ beBytes 2 s.bb.inForce.number
    ++ beBytes 8 x ++ beBytes 1 key ++ beBytes 3 0 ++ beBytes 2 p.len ++ beBytes 2 0
  let tel := beBytes 4 p.ident ++ beBytes 1 kind ++ beBytes 1 flags ++ beBytes 1 p.dest ++ beBytes 1 0
    ++ beBytes 2 data.length ++ beBytes 6 seq
  let body := hdr ++ tel ++ (data ++ List.replicate (p.len - 56 - data.length) 0)
  body ++ bbTag s key (bbIv s.bb.address plane 0 p.slot x) body

/-- The key of an occurrence of a slot. -/
def slotKey (x slot : Nat) : Nat := x * 4096 + slot

/-- Does some loaded stall map the source of kind 1? -/
def mapsTelegram (s : State) (src : Nat) : Bool :=
  s.sup.stalls.any (fun p => p.2.imap.any (fun m => bits m.2 0 8 = 1 && srcOfMap s (bits m.2 32 32) = src))

/-- A released copy of the module's own goes into the image where a stall maps it, stamped with the transmit start (R248); the sender of a
DATUM applies it as every node does (R255). -/
def placeOwn (s : State) (plane tk : Nat) (p : PlanEntry) (seq : Nat) (data : List Byte) : State :=
  let src := srcOfTrain s p.ident
  if mapsTelegram s src || p.ident / 64 = 4065 then
    let it : Item := { kind := 1, source := src, seq := seq, stamp := transmitStart s plane tk p,
                       forced := 0 < forceCount s, data := data }
    { s with cyc.hubOpen := vupd s.cyc.hubOpen plane (· ++ [it]) }
  else s

/-- Send a frame in its slot of a train crossing `x` that begins at `tk`, on both links of the plane. -/
def sendFrame (s : State) (plane x tk : Nat) (p : PlanEntry) (kind flags seq : Nat) (data : List Byte) (eg : EgKind) : State :=
  let s := sendBoth s plane eg tk p.offset p.slot (frameOf s plane x p kind flags seq data)
  updPlane s plane (fun pl => { pl with slotSeen := nset pl.slotSeen (slotKey x p.slot) 3 })

/-- Has a plane sent in a slot of a train crossing? -/
def sentIn (s : State) (plane x slot : Nat) : Bool := nget (getPlane s plane).slotSeen (slotKey x slot) 0 = 3

/-- The data of a system telegram that this node has to send in a slot of train crossing `x` (R253 to R256); none where it has nothing to
send. The two planes' copies of one slot are one sending of a DATUM. -/
def systemData (s : State) (plane x : Nat) (p : PlanEntry) : Option (List Byte) :=
  match p.ident / 64 with
  | 4064 =>
    if s.bb.inForce.speedRef = s.bb.address then
      let f := (fuse { s with sup.tp.refV := none } s.cyc.k).sup.tp
      some (beBytes 4 (ofInt 4 f.vFused) ++ beBytes 1 f.quality ++ beBytes 3 0
        ++ beBytes 8 (vget s.sup.samples 0 {}).at_)
    else none
  | 4065 => s.bb.datumSlots.bind (fun d => if 0 < d.2 || sentIn s (1 - plane) x p.slot then some (beBytes 8 d.1) else none)
  | 4066 =>
    if s.bb.isFerry then some (beBytes 8 (gv s E.bbUtcSet) ++ beBytes 1 (b2n s.bb.utcSet) ++ beBytes 7 0) else none
  | _ => none

/-- A DATUM slot of the node has carried the announcement (R255): eight due slots carry it, each counted once. -/
def datumSent (s : State) (plane x : Nat) (p : PlanEntry) : State :=
  if p.ident / 64 = 4065 && !(sentIn s (1 - plane) x p.slot) then
    { s with bb.datumSlots := s.bb.datumSlots.map (fun d => (d.1, d.2 - 1)) }
  else s

/-- The telegram data of a system telegram in a slot (R239): its fields, filled with reserved bytes to what the frame length asks for
(log 147). -/
def fillData (len : Nat) (d : List Byte) : List Byte := (d ++ List.replicate (len - 63 - d.length) 0).take (len - 56)

/-- May the held copy of a stall's telegram leave: the stall is not FAULTED, HELD or curtailed (R246, 04 R116, 05 R144, 08 R218)? -/
def issuesTelegrams (s : State) (i : Nat) : Bool :=
  match getStall? s i with
  | some st => st.state ≠ .faulted && st.state ≠ .held && factorAt st s.sup.en.levelCur ≠ 0
  | none => false

/-- In output hold the telegram of a slot reaches its deadline without release (06 R179, R168): held, where one has ever left. -/
def holdAtSlot (s : State) (plane tk : Nat) (p : PlanEntry) (src : Nat) : State :=
  let o : OutItem := { kind := 1, ident := src, stall := p.stall }
  if (getHub s plane).voter.outputHold && (getHub s plane).voter.inService && !(nhas (getPlane s plane).released src)
      && nhas (getHub s plane).voter.held (heldKey o) && issuesTelegrams s p.stall then
    holdItem s plane (transmitStart s plane tk p - 1000) o
  else s

/-- Send the telegram of an owned slot of train crossing `x` that begins at `tk` (R246): the released telegram, else the held copy, else
nothing. -/
def transmit (s : State) (plane x tk : Nat) (p : PlanEntry) : State :=
  if p.stall = 0xFFFF then
    match systemData s plane x p with
    | none => s
    | some d =>
      let (n, s) := telegramSeq s p.ident s.cyc.k
      let d := fillData p.len d
      let s := datumSent s plane x p
      let s := sendFrame s plane x tk p 2 0 n d .telegram
      if p.ident / 64 = 4065 then placeOwn s plane tk p n d else s
  else
    let src := srcOfTrain s p.ident
    let flag := 64 * b2n (mirroredStall s p.stall)
    let s := holdAtSlot s plane tk p src
    match nget? (getPlane s plane).released src with
    | some o =>
      let s := updPlane s plane (fun pl => { pl with released := nerase pl.released src })
      if o.stale then
        (if issuesTelegrams s p.stall then sendFrame s plane x tk p 1 (128 + flag) o.seq o.data .heldTelegram else s)
      else placeOwn (sendFrame s plane x tk p 1 flag o.seq o.data .telegram) plane tk p o.seq o.data
    | none => s

/-- The occurrence of an owned slot that passes the node: that of the present train crossing, or one of a neighbouring crossing whose passage
falls into the present one (R232, R233, note). One frame leaves in each. -/
def occurrence (s : State) (plane : Nat) (p : PlanEntry) (t : Nat) : Option (Nat × Nat) :=
  (nearCrossings s).find? (fun x =>
    let t0 := transmitStart s plane x.2 p
    slotDue p x.1 && !(nhas (getPlane s plane).slotSeen (slotKey x.1 p.slot)) && t0 ≤ t
      && (x.2 = s.cyc.tk || (s.cyc.tk ≤ t0 && t0 < s.cyc.tk + s.cyc.c)))

/-- SLOT_TRANSMIT: a due slot of this node passes (R246). Only a LANDED hub or the ferryman's sends (10 Table 10-1), and none once the
module is lost (01 R23). -/
def execSlotTransmit (plane : Fin 2) (slot t : Nat) (s : State) : Out :=
  .next (
    let h := plane.val
    let n := (getPlane s h).node
    match s.bb.inForce.entries.find? (fun p => p.slot = slot) with
    | none => s
    | some p =>
      if hubSends s h && !s.agree.lost && (n = 4 || n = 5) && p.node = s.bb.address then
        match occurrence s h p t with
        | some (x, tk) => transmit s h x tk p
        | none => s
      else s)

/-! ## Receiving (R249 to R252) -/

/-- The plan's data length for a frame length (R239). -/
def dataFits (len n : Nat) : Bool := len ≤ n + 63 && n + 56 ≤ len

/-- Is a frame that arrived in the window of a slot in train crossing `x` right for it, its tag apart (R249)? -/
def frameRight (s : State) (f : BbFrame) (p : PlanEntry) (x : Nat) : Bool :=
  f.complete && f.hdrOk && f.slot = p.slot && f.plan = s.bb.inForce.number && f.crossing = x
    && f.node = p.node && f.len = p.len

/-- Is its telegram header right? -/
def telegramRight (f : BbFrame) (p : PlanEntry) : Bool :=
  f.ident = p.ident && dataFits p.len f.data.length && f.kind = (if p.ident / 64 < 4064 then 1 else 2)

/-- A frame that passes every check enters the hub's image (R251). -/
def acceptFrame (s : State) (h i : Nat) (f : BbFrame) (p : PlanEntry) : State :=
  let s := bumps s E.slotRx (h + 1) p.slot 1
  let s := peerHeard s i
  let s := { s with bb.lastHeard := nset s.bb.lastHeard p.node f.t }
  let s := if f.twin && gv s E.twinEnable = 1 && p.node = s.bb.address / 4 * 4 + gv s E.twinPeerNode % 4 then twinFrame s f.holder f.t
    else s
  if (p.dest = 0 || p.dest = s.bb.address / 4) && ((getPlane s h).node = 4 || (getPlane s h).node = 5) then
    let it : Item := { kind := 1, source := srcOfTrain s p.ident, seq := f.seq, stamp := f.t, forced := f.force, data := f.data }
    { s with cyc.hubOpen := vupd s.cyc.hubOpen h (· ++ [it]) }
  else s

/-- A due slot with a start block in its window that failed (R250). -/
def missFrame (s : State) (h : Nat) (p : PlanEntry) : State := bumps s E.slotMissed (h + 1) p.slot 1

/-- Does the module hold the plan of the unit that a node belongs to (10 R277)? -/
def planHeldFor (s : State) (node : Nat) : Bool :=
  let v := node / 4
  s.bb.roster.units.all (fun u => !(u.admitted && u.vbase < v && v ≤ u.vbase + u.vehicles) ||
    (s.bb.configured.map (·.number)) = some u.plan || s.bb.companions.any (fun p => p.number = u.plan))

/-- A frame received in the window of a due slot that this node does not own (R249, R250): the slot's outcome is that of the window's own
crossing. -/
def receiveFrame (s : State) (h i : Nat) (f : BbFrame) (p : PlanEntry) (x : Nat) : State :=
  let s := updPlane s h (fun pl => { pl with slotSeen := nset pl.slotSeen (slotKey x p.slot) 1 })
  if !(frameRight s f p x) then missFrame s h p
  else if bbKeyOf s f.key = none && keyAllowed s h f.key then missFrame (noKey s h f.key) h p
  else if !f.tagOk || !(keyAllowed s h f.key) then
    emitH (missFrame (bumpi s E.linkTagFail i) h p) h f.t (srcHub h) 0x3002 2
      (u8 i ++ u16 p.slot ++ u16 f.node ++ u8 f.key ++ u64 s.cyc.k)
  else if telegramRight f p then acceptFrame s h i f p
  else missFrame s h p

/-- The slot, and the train crossing, in whose acceptance window a start block arrives at a hub (R249): one that the node does not own, whose
unit's plan it holds. -/
def windowAt (s : State) (i : Nat) (start : Int) : Option (PlanEntry × Nat) :=
  s.bb.inForce.entries.findSome? (fun p =>
    if p.node = s.bb.address || !(planHeldFor s p.node) then none else (slotWindow s i p start).map (fun x => (p, x.1)))

/-- BACKBONE_FRAME_RECEIVED (R249): each occurrence of a slot has one outcome at a LANDED hub or the ferryman's (R250). -/
def execBackboneFrameReceived (link : Fin 4) (frame : BbFrame) (s : State) : Out :=
  .next (
    let i := link.val
    let h := linkHub i
    let n := (getPlane s h).node
    if hubUp s h && (getLink s i).state ≠ 0 && !(getLink s i).edge && (n = 4 || n = 5) then
      match windowAt s i frame.start with
      | some (p, x) => if nhas (getPlane s h).slotSeen (slotKey x p.slot) then s else receiveFrame s h i frame p x
      | none => s
    else s)

/-- At a boundary, due slots of the crossing before last that brought no start block are empty (R250), and their marks are
dropped. A frame of a late slot can arrive in the crossing after its own (09 Table 09-2, note). -/
def judgeEmpty (s : State) (h x : Nat) : State :=
  let n := (getPlane s h).node
  let s :=
    if hubUp s h && (n = 4 || n = 5) && 2 ≤ x then
      s.bb.inForce.entries.foldl (fun s p =>
        if p.node ≠ s.bb.address && slotDue p (x - 2) && !(nhas (getPlane s h).slotSeen (slotKey (x - 2) p.slot)) then
          bumps s E.slotEmpty (h + 1) p.slot 1
        else s) s
    else s
  updPlane s h (fun p => { p with slotSeen := p.slotSeen.filter (fun e => x ≤ e.1 / 4096 + 1) })

/-! ## System telegrams (R254 to R256) -/

/-- SPEED_REF_TELEGRAM (R254): a copy is adopted, as the merge does with one of an image. -/
def execSpeedRefTelegram (speed : Int) (valid : Bool) (s : State) : Out := .next (takeSpeedRef s speed valid)

/-- DATUM_TELEGRAM (R255): a copy is adopted. -/
def execDatumTelegram (instant : Nat) (s : State) : Out := .next (takeDatum s instant)

/-- UTC_TELEGRAM (R256): a copy is adopted. -/
def execUtcTelegram (offset : Int) (valid : Bool) (s : State) : Out := .next (takeUtc s offset valid)

/-- BB_UTC_SET: the value that the module sends as ferryman. -/
def hBbUtcSet : Handler :=
  { eff := fun s w => { storeEff E.bbUtcSet s w with bb.utcSet := true } }

/-- BB_DATUM_ANNOUNCE (R255): refused where the plan gives the node no DATUM slot. -/
def hDatumAnnounce : Handler :=
  { conds := fun s _ =>
      refuseIf (!(s.bb.inForce.entries.any (fun p => p.ident / 64 = 4065 && p.node = s.bb.address))) abtState 3
    eff := fun s w => { s with bb.datumSlots := some (w.v, 8) } }

/-- BB_DATUM_ANNOUNCE (R255). -/
def execBbDatumAnnounce (ctx v : Nat) (s : State) : Out :=
  .next (writeCmd hDatumAnnounce E.bbDatumAnnounce ctx 0x3000 10 v s)

/-! ## Slot plans (R242 to R245) -/

/-- The entry of 24 bytes (09 Table 09-7). -/
def parseEntry (b : List Byte) : PlanEntry :=
  { slot := fieldAt b 0 2, node := fieldAt b 2 2, stall := fieldAt b 4 2, period := fieldAt b 6 1, phase := fieldAt b 7 1,
    ident := fieldAt b 8 4, offset := fieldAt b 12 4, len := fieldAt b 16 2, dest := fieldAt b 18 1,
    mirror := bit (fieldAt b 19 1) 0 }

/-- The plan of a payload (09 Table 09-6). -/
def parsePlan (b : List Byte) (pkg : Nat) : Plan :=
  { number := fieldAt b 6 2, n := fieldAt b 8 1, vehicles := fieldAt b 9 1, nodes := fieldAt b 10 1,
    speedRef := fieldAt b 14 2, pkgNo := pkg,
    entries := (chunksOf 24 (fieldAt b 12 2) (b.drop 64)).map parseEntry }

/-- Is the payload intact: magic, format, CRC-32C over bytes 0 to 59 and all entries? -/
def planIntact (b : List Byte) : Bool :=
  let n := fieldAt b 12 2
  64 ≤ b.length && fieldAt b 0 4 = 0x454D504C && fieldAt b 4 2 = 1
    && fieldAt b 60 4 = crc32c (b.take 60 ++ (b.drop 64).take (24 * n)) && b.length = 64 + 24 * n

/-- The plan units that a frame of a length takes (R243), in tenths of a nanosecond inside. -/
def slotUnits (len : Nat) : Nat := ((len / 8 + 2 + 1) / 2 * 64 + 320 + 79) / 80

/-- Is a node address of the form of R238 within the plan's vehicles? -/
def nodeOk (vehicles a : Nat) : Bool := a < 256 && 1 ≤ a / 4 && a / 4 ≤ vehicles

/-- Is one entry in range (R242) and does it meet the conditions of R244 that concern it alone? -/
def entryOk (n vehicles : Nat) (p : PlanEntry) : Bool :=
  nodeOk vehicles p.node && p.period ≤ 7 && p.phase < 2 ^ p.period
    && p.ident < 2 ^ 18 && p.ident % 64 = p.node / 4
    && 64 ≤ p.len && p.len ≤ 9216 && p.len % 8 = 0 && p.dest ≤ 63
    && 16 ≤ p.offset && p.offset + slotUnits p.len ≤ 15625 * n - 1280
    && (if p.ident / 64 < 4064 then p.stall ≤ 511 else p.stall = 0xFFFF)

/-- Do two entries never share a unit in a crossing in which both are due? -/
def apart (p q : PlanEntry) : Bool :=
  p.phase % 2 ^ min p.period q.period ≠ q.phase % 2 ^ min p.period q.period
    || p.offset + slotUnits p.len ≤ q.offset || q.offset + slotUnits q.len ≤ p.offset

/-- May two entries carry one identifier: the two of a mirrored telegram? -/
def mirrorPair (p q : PlanEntry) : Bool :=
  p.mirror && q.mirror && p.node ≠ q.node && p.node / 4 = q.node / 4 && p.len = q.len && p.period = q.period
    && p.phase = q.phase && p.dest = q.dest

/-- The conditions of R244 over a whole list of entries. -/
def entriesOk (n vehicles : Nat) (l : List PlanEntry) : Bool :=
  l.all (entryOk n vehicles) && l.Pairwise (fun p q => apart p q)
    && l.all (fun p =>
      let same := l.filter (fun q => q.ident = p.ident)
      same.length = 1 || (same.length = 2 && same.all (fun q => q.slot = p.slot || mirrorPair p q)))

/-- Is a plan valid (R242, R244)? `b` is its payload, whose reserved bytes are 0. -/
def planOk (p : Plan) (b : List Byte) : Bool :=
  1 ≤ p.number && 1 ≤ p.n && p.n ≤ 128 && 1 ≤ p.vehicles && p.vehicles ≤ 63 && 1 ≤ p.nodes && p.nodes ≤ 126
    && 1 ≤ p.entries.length && (p.speedRef = 0 || nodeOk p.vehicles p.speedRef)
    && visOk ((b.drop 16).take 32) && fieldAt b 11 1 = 0 && fieldAt b 48 12 = 0
    && (p.entries.zipIdx.all (fun e => e.1.slot = e.2))
    && (List.range p.entries.length).all (fun i => fieldAt b (64 + 24 * i + 19) 1 < 2 && fieldAt b (64 + 24 * i + 20) 4 = 0)
    && entriesOk p.n p.vehicles p.entries

/-- A plan with the entries that its payload does hold. -/
def heldEntries (b : List Byte) (p : Plan) : Plan := { p with entries := p.entries.take ((b.length - 64) / 24) }

/-- The conditions of loading a slot plan package (R245, 18 R452); 02 R45 decides among several. A payload shorter than its header has no
fields to judge. -/
def planConds (s : State) (w : WReq) : List Nat :=
  let use := useCheck s w.v 3
  if use ≠ 0 then [use]
  else
    let b := pkgPayload s w.v
    if b.length < 64 then [abort abtIntegrity 1]
    else
      refuseIf (4096 < fieldAt b 12 2) abtCapacity 4 ++ refuseIf (!(planIntact b)) abtIntegrity 1
        ++ refuseIf (!(planOk (heldEntries b (parsePlan b w.v)) b)) abtRange 0

/-- A refused plan: R245's own event, or that of R47 for a refusal that R245 does not name. -/
def planRefused (s : State) (w : WReq) (code : Nat) : State :=
  if code = abort abtCapacity 4 || code = abort abtIntegrity 1 then
    emitL s (srcHub 0) 0x3005 1 (u32 code ++ u32 w.v ++ u16 (ctxCode w.ctx))
  else noteRefusal s w.ctx w.idx w.sub code w.v false

/-- Is a refusal one that `planRefused` records or counts? Every refusal of a plan goes through it. -/
def hBbPlanLoad : Handler :=
  { conds := planConds
    eff := fun s w =>
      let p := parsePlan (pkgPayload s w.v) w.v
      emitL { s with bb.configured := some p } (srcHub 0) 0x3004 0 (u16 p.number ++ u16 p.entries.length ++ u16 (ctxCode w.ctx))
    own := true
    refused := fun s w code =>
      let c := code / 0x1000000
      if c = abtCapacity || c = abtIntegrity || c = abtAuth then planRefused s w code else s
    pkg := fun w => w.v }

/-- BB_PLAN_LOAD (R245). -/
def execBbPlanLoad (ctx v : Nat) (s : State) : Out := .next (writeCmd hBbPlanLoad E.bbPlanLoad ctx 0x3000 5 v s)

/-- BB_COMPANION_LOAD (10 Table 10-10): a ninth plan is refused; a plan of a number already held replaces it. -/
def hCompanionLoad : Handler :=
  { conds := fun s w =>
      let c := planConds s w
      c ++ refuseIf (8 ≤ s.bb.companions.length
        && !(s.bb.companions.any (fun p => p.number = (parsePlan (pkgPayload s w.v) w.v).number))) abtCapacity 0
    eff := fun s w =>
      let p := parsePlan (pkgPayload s w.v) w.v
      { s with bb.companions := s.bb.companions.filter (fun q => q.number ≠ p.number) ++ [p] }
    own := true
    refused := hBbPlanLoad.refused
    pkg := fun w => w.v }

/-- BB_COMPANION_LOAD (10 R276, R285). -/
def execBbCompanionLoad (ctx v : Nat) (s : State) : Out :=
  .next (writeCmd hCompanionLoad E.bbCompanionLoad ctx 0x3020 4 v s)

/-- BB_COMPANION_REMOVE (10 Table 10-10). -/
def hCompanionRemove : Handler :=
  { conds := fun s w => refuseIf (!(s.bb.companions.any (fun p => p.number = w.v))) abtObject 0
    eff := fun s w => { s with bb.companions := s.bb.companions.filter (fun q => q.number ≠ w.v) } }

/-- BB_COMPANION_REMOVE (10 R276, R285). -/
def execBbCompanionRemove (ctx v : Nat) (s : State) : Out :=
  .next (writeCmd hCompanionRemove E.bbCompanionRemove ctx 0x3020 5 v s)

end Sys2Proof.Machine
end

