-- ==== Sys2Proof/Machine/Svc.lean ====
section
/-!
DEFINITION. Supervisor calls (03 R83 to R86, Table 03-12; 05 R134 for SVC_SEND; 04 R115 for SVC_FAULT).
-/

namespace Sys2Proof.Machine

/-- Does the stall hold a right (04 Table 04-3)? Its effective rights are the requested rights of its descriptor. -/
def hasRight (st : Stall) (b : Nat) : Bool := st.desc.rights.getLsbD b

/-- An SVC returns: g1 and g2 take their results (R83), and a posted request is made where all checks passed (R85). -/
def svcReturn (st : Stall) (x : Exec) (code : Nat) (post : Option PostedReq) : IRes :=
  let g2 := match post with | none => 0 | some _ => x.nextTag
  let x1 := rset (rset x 1 (BitVec.ofNat 64 code)) 2 (BitVec.ofNat 64 g2)
  .retire { st with exec := { x1 with pc := x.pc + 4 } }
    (match post with | none => [(0x1C, 1)] | some _ => [(0x1C, 1), (0x1D, 1)]) (1, 0xFFFF) 4 post

/-- The checks of a posted service in the order of R85 (right, range, request limit), after the pointer check of R86. -/
def svcPosted (core : CoreIx) (charge : Nat) (ptr : Exec → Option (Word × Nat)) (right : Option Nat)
    (rangeOk : Exec → Bool) (req : Exec → PostedReq) (s : State) : State :=
  runInsn core charge (fun _ st x =>
    let bad := match ptr x with
      | none => none
      | some (a, n) => firstBad (blockRead st.desc) a.toNat n
    match bad with
    | some fa => trapAt x 3 5 (BitVec.ofNat 64 fa) []
    | none =>
      if (match right with | none => false | some b => !(hasRight st b)) then svcReturn st x (abort abtAccess 0xFF) none
      else if !(rangeOk x) then svcReturn st x (abort abtRange 0) none
      else if 64 ≤ x.posted then svcReturn st x (abort abtBusy 2) none
      else svcReturn st x 0 (some (req x))) s

/-- SVC_YIELD (R84): ends the activation, resuming at pc + 4 with g1 = 0. -/
def execSvcYield (core : CoreIx) (s : State) : Out :=
  .next (runInsn core 1 (fun _ _ x => .yield { rset x 1 0 with pc := x.pc + 4 }) s)

/-- The right that an OUTBOX message kind needs (05 Table 05-10); none for an unknown kind. -/
def outboxRight (kind : Nat) : Option Nat :=
  if kind = 1 then some 5 else if kind = 2 then some 6 else if kind = 3 then some 7 else if kind = 4 then some 8 else none

/-- Are the header and payload of an OUTBOX message in range (R134 step 3)? -/
def outboxArgs (m : List Byte) : Bool :=
  let kind := fieldAt m 0 1
  let dest := fieldAt m 4 4
  fieldAt m 2 2 = m.length - 8 && fieldAt m 1 1 < 2
    && (kind ≠ 2 || dest < 2 ^ 20)
    && (kind ≠ 4 || (m.length = 9 && fieldAt m 8 1 < 2 && dest < 32))

/-- SVC_SEND (R134): extent, right, argument range, request limit; the message is copied whole. -/
def svcSend (core : CoreIx) (s : State) : State :=
  runInsn core 8 (fun _ st x =>
    let off := (rget x 1).toNat
    let len := (rget x 2).toNat
    if len < 9 || 4096 < len || st.desc.outboxSize < off + len then svcReturn st x (abort abtRange 0) none
    else
      let m := mgets x.mem (baseOutbox + off) len
      match outboxRight (fieldAt m 0 1) with
      | none => svcReturn st x (abort abtRange 0) none
      | some r =>
        if !(hasRight st r) then svcReturn st x (abort abtAccess 0xFF) none
        else if !(outboxArgs m) then svcReturn st x (abort abtRange 0) none
        else if 64 ≤ x.posted then svcReturn st x (abort abtBusy 2) none
        else svcReturn st x 0 (some (.send (fieldAt m 0 1) (fieldAt m 1 1) (fieldAt m 4 4) (m.drop 8)))) s

/-- SVC_SEND of a backbone telegram, kind 1 (R134). -/
def execSendBackboneTelegram (core : CoreIx) (s : State) : Out := .next (svcSend core s)

/-- SVC_SEND of a stall data telegram, kind 2 (R134; its outcome under 11 R305). -/
def execSendStallDataTelegram (core : CoreIx) (s : State) : Out := .next (svcSend core s)

/-- SVC_SEND of a bridge WRITE, kind 3 (R134; 13 R350 decides it at the boundary). -/
def execBridgeWrite (core : CoreIx) (s : State) : Out := .next (svcSend core s)

/-- SVC_SEND of a bridge READ, kind 3 (R134; 13 R351 decides it at the boundary). -/
def execBridgeRead (core : CoreIx) (s : State) : Out := .next (svcSend core s)

/-- SVC_SEND of a bridge LOCK, kind 3 (R134; 13 R353 decides it at the boundary). -/
def execBridgeLock (core : CoreIx) (s : State) : Out := .next (svcSend core s)

/-- SVC_SEND of a bridge UNLOCK, kind 3 (R134; 13 R353 decides it at the boundary). -/
def execBridgeUnlock (core : CoreIx) (s : State) : Out := .next (svcSend core s)

/-- SVC_SEND of a field output command, kind 4 (R134; its outcome under R135). -/
def execSendFieldOutputCommand (core : CoreIx) (s : State) : Out := .next (svcSend core s)

/-- The checks of a trigger request at the SVC (07 R200), on its 32 bytes as a little-endian number. -/
def trigReqOk (r : Nat) : Bool :=
  let kind := bits r 0 8
  let act := bits r 8 8
  let fl := bits r 16 8
  let val := bits r 24 8
  let ch := bits r 32 16
  let tgt := toInt 8 (bits r 64 64)
  let rep := bits r 128 64
  (kind = 1 || kind = 2) && 1 ≤ act && act ≤ 3 && fl < 8 && bits r 48 16 = 0
    && !(act = 3 && kind = 2)
    && (if act = 3 then ch ≤ 31 && val ≤ 1 else val = 0 && ch = 0)
    && !(bit fl 2 && kind = 1)
    && (kind = 2 || rep = 0 || 125000 ≤ rep)
    && (kind = 1 || (-140737488355328 ≤ tgt && tgt ≤ 140737488355327 && rep ≤ 140737488355327))

/-- SVC_TRIG_ARM (R84, R85, R86): the 32-byte request is taken as a little-endian number. -/
def execSvcTrigArm (core : CoreIx) (s : State) : Out :=
  .next (svcPosted core 8 (fun x => some (rget x 1, 32)) (some 3)
    (fun x => trigReqOk (mread x.mem (rget x 1).toNat 32))
    (fun x => .trigArm (mread x.mem (rget x 1).toNat 32)) s)

/-- SVC_TRIG_CANCEL (R84, R85). -/
def execSvcTrigCancel (core : CoreIx) (s : State) : Out :=
  .next (svcPosted core 4 (fun _ => none) (some 3) (fun _ => true) (fun x => .trigCancel (rget x 1).toNat) s)

/-- SVC_EVENT (R84, R85, R86). -/
def execSvcEvent (core : CoreIx) (s : State) : Out :=
  .next (svcPosted core 8 (fun x => some (rget x 3, 36)) none
    (fun x => 0x8000 ≤ (rget x 1).toNat && (rget x 1).toNat ≤ 0xFFFF && (rget x 2).toNat ≤ 2)
    (fun x => .event (rget x 1).toNat (rget x 2).toNat (mgets x.mem (rget x 3).toNat 36)) s)

/-- The range of an SVC_SAFETY_REQ: instance 0-31, request 1 start or 2 reset. -/
def safReqRange (x : Exec) : Bool :=
  (rget x 1).toNat < 32 && ((rget x 2).toNat = 1 || (rget x 2).toNat = 2)

/-- SVC_SAFETY_REQ with g2 = 1, start (R84, R85; 15 R393). -/
def execSvcSafetyReqStart (core : CoreIx) (s : State) : Out :=
  .next (svcPosted core 4 (fun _ => none) (some 4) safReqRange
    (fun x => .safety (rget x 1).toNat ((rget x 2).toNat = 2)) s)

/-- SVC_SAFETY_REQ with g2 = 2, reset (R84, R85; 15 R393). -/
def execSvcSafetyReqReset (core : CoreIx) (s : State) : Out :=
  .next (svcPosted core 4 (fun _ => none) (some 4) safReqRange
    (fun x => .safety (rget x 1).toNat ((rget x 2).toNat = 2)) s)

/-- SVC_FAULT (R84, R115): cause 0x14 with the stall's code in bits [63:32]; the service is charged 1 unit.
DESIGN CHOICE (log 138): the code is g1[31:0], for R84 does not say what becomes of g1[63:32]. -/
def execSvcFault (core : CoreIx) (s : State) : Out :=
  .next (runInsn core 1 (fun _ _ x =>
    .fault { x with fuel := x.fuel - 1 } 0x14 0 ((rget x 1).toNat % 2 ^ 32)) s)

/-- The SVC numbers of Table 03-12. -/
def svcAssigned (n : Nat) : Bool := 1 ≤ n && n ≤ 7

/-- An SVC number absent from the table (R86): g1 takes 0x0200_0000 and g2 takes 0, charged 1 unit. A number that the table
lists is no occasion of this command and leaves the state as it is (log 3). -/
def execSvcUnassigned (core : CoreIx) (number : BitVec 16) (s : State) : Out :=
  .next (if svcAssigned number.toNat then s
    else runInsn core 1 (fun _ st x => svcReturn st x (abort abtObject 0) none) s)

end Sys2Proof.Machine
end

