-- ==== Sys2Proof/Machine/Triggers.lean ====
section
/-!
DEFINITION. Triggers (07 R200 to R207): arming and cancelling at a boundary, evaluation before Execute, and the entries that wait
for delivery.
-/

namespace Sys2Proof.Machine

/-! ## Fields of a request (Table 07-4) -/

def reqKind (t : Trigger) : Nat := bits t.req 0 8
def reqAction (t : Trigger) : Nat := bits t.req 8 8
def reqLenient (t : Trigger) : Bool := bit t.req 16
def reqSingle (t : Trigger) : Bool := bit t.req 17
def reqReverse (t : Trigger) : Bool := bit t.req 18
def reqValue (t : Trigger) : Bool := bits t.req 24 8 = 1
def reqChannel (t : Trigger) : Nat := bits t.req 32 16
def reqTarget (t : Trigger) : Int := if reqKind t = 1 then ((bits t.req 64 64 : Nat) : Int) else toInt 8 (bits t.req 64 64)
def reqInterval (t : Trigger) : Nat := bits t.req 128 64
def reqCount (t : Trigger) : Nat := bits t.req 192 32
def reqTag (t : Trigger) : Nat := bits t.req 224 32

/-- The handle of a trigger: table index [9:0], generation [31:10] (R201). -/
def trigHandle (idx : Nat) (t : Trigger) : Nat := idx + t.gen * 1024

/-- Firings still allowed; none where unlimited. -/
def firingsLeft (t : Trigger) : Option Nat :=
  if reqInterval t = 0 then some (1 - t.firings) else if reqCount t = 0 then none else some (reqCount t - t.firings)

/-! ## Entries (R205) -/

/-- Has the trigger an entry waiting? -/
def hasEntry (s : State) (idx : Nat) (t : Trigger) : Bool :=
  match getStall? s t.owner with
  | none => false
  | some st => st.trigWait.any (fun e => e.handle = trigHandle idx t)

/-- The entries that wait, after a firing: one of the same handle is updated (R205). -/
def mergeEntry (l : List TrigEntry) (e : TrigEntry) : List TrigEntry :=
  if l.any (fun x => x.handle = e.handle) then
    l.map (fun x =>
      if x.handle = e.handle then
        { x with stamp := e.stamp, crossing := e.crossing, firings := min 0xFFFF (x.firings + e.firings)
                 flags := x.flags ||| e.flags, lateness := if bit e.flags 0 then e.lateness else x.lateness }
      else x)
  else l ++ [e]

/-- A firing's entry: it updates a waiting one, or waits as a new one. -/
def putEntry (s : State) (idx : Nat) (t : Trigger) (stamp n flags late k : Nat) : State :=
  let e : TrigEntry :=
    { handle := trigHandle idx t, userTag := reqTag t, stamp := stamp, lateness := if bit flags 0 then late else 0
      firings := min 0xFFFF n, kind := reqKind t, flags := flags, crossing := k % 2 ^ 32 }
  updStall s t.owner (fun st => { st with trigWait := mergeEntry st.trigWait e })

/-- Withdraw a trigger's waiting entries. -/
def dropEntries (s : State) (idx : Nat) (t : Trigger) : State :=
  updStall s t.owner (fun st => { st with trigWait := st.trigWait.filter (fun e => e.handle ≠ trigHandle idx t) })

/-- Free the table entries of triggers whose last entry has been delivered, withdrawn or discarded (R201). -/
def freeTriggers (s : State) : State :=
  { s with sup.triggers := s.sup.triggers.filter (fun p => p.2.armed || p.2.carried || hasEntry s p.1 p.2) }

/-! ## Arming and cancelling at a boundary (R201, R202, R207) -/

/-- Lateness of a request that has passed (R202), in µs or mm; none where it has not passed. `b` is the present boundary: the
distance base is that of the image before, and T_{b-1} its start. -/
def passedBy (s : State) (t : Trigger) : Option Nat :=
  let tgt := reqTarget t
  let tb : Int := (s.cyc.tk : Int)
  let e := s.sup.tp.e
  if reqKind t = 1 then
    let passed := if reqAction t = 3 then tgt ≤ tb + (s.cyc.c : Int) else tgt ≤ (s.sup.tp.tkPrev : Int)
    if passed then some (min 0xFFFFFF ((tb - tgt).toNat / 1000)) else none
  else
    let passed := if reqReverse t then e ≤ tgt * 1000000 else tgt * 1000000 ≤ e
    if passed then some (min 0xFFFFFF ((e - tgt * 1000000).natAbs / 1000000)) else none

/-- The lowest free table index (log 22). -/
def freeTrigger (s : State) : Nat := ((List.range 1024).find? (fun i => !(nhas s.sup.triggers i))).getD 0

/-- Decide one arm request (R201): outcome code, value and state. -/
def decideArm (s : State) (p : Posted) (req : Nat) : Posted × State :=
  let t : Trigger := { req := req, owner := p.stall }
  let refuse := fun (code : Nat) (s : State) => ({ p with code := code, decided := true }, bump s E.trigRefused)
  let right := match getStall? s p.stall with | some st => hasRight st 8 | none => false
  if reqAction t = 3 && (!right || doRole s false (reqChannel t) ≠ 0) then refuse (abort abtAccess 0xFF) s
  else
    match passedBy s t, reqLenient t with
    | some late, false => refuse (abort abtTime late) s
    | passed, _ =>
      if 1024 ≤ s.sup.triggers.length then
        refuse (abort abtCapacity 3)
          (emitL s (srcStall p.stall) 0x2077 1 (u32 p.tag ++ u8 (reqKind t) ++ u32 (reqTag t)) p.stall)
      else
        let i := freeTrigger s
        let gen := match nget? s.sup.trigGen i with | some g => (g + 1) % 2 ^ 22 | none => 0
        let t := { t with gen := gen, next := reqTarget t, late := passed.isSome }
        ({ p with value := trigHandle i t, decided := true },
          { s with sup.triggers := nset s.sup.triggers i t, sup.trigGen := nset s.sup.trigGen i gen })

/-- Decide one cancel request (R207). -/
def decideCancel (s : State) (p : Posted) (h : Nat) : Posted × State :=
  let i := h % 1024
  match nget? s.sup.triggers i with
  | none => ({ p with code := abort abtObject 1, decided := true }, s)
  | some t =>
    if t.owner ≠ p.stall || trigHandle i t ≠ h then ({ p with code := abort abtObject 1, decided := true }, s)
    else
      let w := hasEntry s i t
      let s := dropEntries s i t
      ({ p with value := b2n w, decided := true }, { s with sup.triggers := nerase s.sup.triggers i })

/-- Posted requests in ascending stall id, then tag. -/
def postedOrder (l : List Posted) : List Posted :=
  l.mergeSort (fun a b => a.stall < b.stall || (a.stall = b.stall && a.tag ≤ b.tag))

/-- Step 7 of a boundary (21 Table 21-4): arm and cancel requests, before any firing. -/
def triggerRequests (s : State) : State :=
  let (ps, s) := (postedOrder s.sup.posted).foldl (fun (acc : List Posted × State) p =>
    if p.decided then (acc.1 ++ [p], acc.2)
    else
      match p.req with
      | .trigArm r => let (p, s) := decideArm acc.2 p r; (acc.1 ++ [p], s)
      | .trigCancel h => let (p, s) := decideCancel acc.2 p h; (acc.1 ++ [p], s)
      | _ => (acc.1 ++ [p], acc.2)) ([], s)
  { s with sup.posted := ps }

/-! ## Evaluation (R203, R204, R206) -/

/-- Flag bits of an entry (Table 07-5). -/
def tfLate : Nat := 1
def tfLast : Nat := 2
def tfSuppressed : Nat := 4
def tfDeferred : Nat := 8
def tfMore : Nat := 16
def tfStep : Nat := 32
def tfDatumEnd : Nat := 64

/-- Is a TIMED_DO to be carried out (R204)? -/
def timedAllowed (s : State) (t : Trigger) : Bool :=
  (match getStall? s t.owner with | some st => st.state = .running | none => false)
    && s.sup.mode ≠ 2 && (!(reqSingle t) || leaseFor s t.owner)

/-- Carry a TIMED_DO in the output command of the crossing, where it is to be carried out. -/
def carryTimed (s : State) (idx : Nat) (t : Trigger) : Trigger × State :=
  if timedAllowed s t then
    ({ t with carried := true, supp := false },
      { s with sup.timedDo := s.sup.timedDo ++
        [{ channel := reqChannel t, on := reqValue t, at_ := t.next.toNat, trig := idx }] })
  else ({ t with carried := true, supp := true }, s)

/-- An ACTIVATE firing (R116, R144, R204, R218): a RUNNING stall wants an activation, unless it is suspended. -/
def wantActivation (s : State) (i : Nat) : Bool × State :=
  match getStall? s i with
  | none => (false, s)
  | some st =>
    if st.state = .running then
      if factorAt st s.sup.en.levelCur = 0 then (true, s) else (false, setStall s i { st with dueWanted := true })
    else if st.state = .faulted || st.state = .held then (false, setStall s i { st with discarded := st.discarded + 1 })
    else (false, s)

/-- Repetitions due: the distance past the target in units of the interval, within the firings left. -/
def dueCount (t : Trigger) (past unit : Nat) : Nat :=
  let n := if unit = 0 then 1 else past / unit + 1
  match firingsLeft t with | some l => min n l | none => n

/-- The target after `n` firings: a REVERSE trigger's targets follow one another downwards (log 23). -/
def nextTarget (t : Trigger) (n : Nat) : Int :=
  if reqReverse t && reqKind t = 2 then t.next - (n * reqInterval t : Nat) else t.next + (n * reqInterval t : Nat)

/-- A trigger after `n` firings. -/
def afterFiring (t : Trigger) (n : Nat) : Trigger :=
  let t' := { t with firings := t.firings + n, late := false, carried := false, supp := false }
  if firingsLeft t' = some 0 then { t' with armed := false } else { t' with next := nextTarget t n }

/-- One firing of a trigger (R203 to R206): `n` repetitions, the last at target `tgt`; `resumed` after a mismatch restart. -/
def fire (s : State) (idx : Nat) (t : Trigger) (n : Nat) (tgt : Int) (stamp : Nat) (resumed : Bool) : State :=
  let tk : Int := (s.cyc.tk : Int)
  let time := reqKind t = 1
  let passedByStep := time && 0 < s.cyc.lastStep && tk - s.cyc.lastStep < tgt && tgt ≤ tk
  let late := t.late || passedByStep || resumed
  let lateness := if time then (tk - tgt).toNat else (s.sup.tp.e - tgt * 1000000).natAbs / 1000000
  let t' := afterFiring t n
  let barred := reqAction t ≠ 3 && reqSingle t && !(leaseFor s t.owner)
  let (suppA, s) :=
    if reqAction t = 2 && !barred then wantActivation s t.owner
    else if reqAction t = 3 then
      (t.supp, if t.supp then s else acceptDo s (reqChannel t) t.owner s.cyc.k (reqValue t))
    else (barred, s)
  let flags := (if late then tfLate else 0) + (if t'.armed then 0 else tfLast)
    + (if barred || suppA then tfSuppressed else 0) + (if passedByStep then tfStep else 0)
  let s := { s with sup.triggers := nset s.sup.triggers idx t' }
  putEntry s idx t stamp n flags lateness s.cyc.k

/-- The stamp of a position firing (R203), after the fusion of the crossing: T_(k-1) is that of the image before. -/
def positionStamp (s : State) (t : Trigger) (tgt : Int) : Nat :=
  let x := tgt * 1000000
  let e1 := s.sup.tp.e
  let e0 := s.sup.tp.ePrev
  let t0 := match s.sup.tp.track with
    | _ :: a :: _ => a.1
    | _ => s.cyc.tk - s.cyc.c
  let before := if reqReverse t then e0 ≤ x else x ≤ e0
  if before || e0 = e1 then s.cyc.tk
  else ((t0 : Int) + Int.fdiv ((s.cyc.c : Int) * (x - e0)) (e1 - e0)).toNat

/-- Evaluate one trigger. A LENIENT TIMED_DO that had passed is carried as an accepted value of this crossing. -/
def evalTrigger (s : State) (idx : Nat) (resumed : Bool) : State :=
  match nget? s.sup.triggers idx with
  | none => s
  | some t =>
    if !t.armed then s
    else
      let tk : Int := (s.cyc.tk : Int)
      if reqKind t = 1 && reqAction t ≠ 3 then
        if t.late || t.next ≤ tk then
          let n := dueCount t (tk - t.next).toNat (reqInterval t)
          let tgt := t.next + ((n - 1) * reqInterval t : Nat)
          fire s idx t n tgt tgt.toNat resumed
        else s
      else if reqKind t = 1 then
        let t := if !t.carried && (t.late || t.next ≤ tk) then { t with carried := true, supp := !(timedAllowed s t) } else t
        let s := if t.late || t.next ≤ tk then
            let n := dueCount t (tk - t.next).toNat (reqInterval t)
            let tgt := t.next + ((n - 1) * reqInterval t : Nat)
            fire s idx t n tgt tgt.toNat resumed
          else s
        match nget? s.sup.triggers idx with
        | none => s
        | some t =>
          if t.armed && !t.carried && t.next ≤ tk + 2 * (s.cyc.c : Int) then
            let (t, s) := carryTimed s idx t
            { s with sup.triggers := nset s.sup.triggers idx t }
          else s
      else
        let x := t.next * 1000000
        let e := s.sup.tp.e
        let reached := if reqReverse t then e ≤ x else x ≤ e
        if t.late || (reached && s.sup.tp.quality ≠ 0) then
          let n := if reached then dueCount t (e - x).natAbs (reqInterval t * 1000000) else 1
          let tgt := if reqReverse t then t.next - ((n - 1) * reqInterval t : Nat) else t.next + ((n - 1) * reqInterval t : Nat)
          fire s idx t n tgt (positionStamp s t tgt) resumed
        else s

/-- Is a trigger one of a mirrored copy that takes its triggers from the holder (12 R332)? -/
def evaluatedElsewhere (s : State) (idx : Nat) : Bool :=
  match (nget? s.sup.triggers idx).bind (fun t => getStall? s t.owner) with
  | some st => st.mirrorSt = 2 || st.mirrorSt = 4 || st.mirrorSt = 5
  | none => false

/-- Evaluate every armed trigger in ascending handle index (R203). -/
def evalTriggers (s : State) (resumed : Bool) : State :=
  (s.sup.triggers.map Prod.fst).foldl (fun s i => if evaluatedElsewhere s i then s else evalTrigger s i resumed) s

/-- A later output command sets a channel by item 1 or 2 of 05 R136 before a carried action's instant: the action is withdrawn,
and its entry will be flagged SUPPRESSED (R204). An action that the present command itself carries is not withdrawn by it. -/
def withdrawTimed (s : State) (ch : Nat) : State :=
  let hit := fun (p : Nat × Trigger) => p.2.armed && p.2.carried && !p.2.supp && reqAction p.2 = 3 && reqChannel p.2 = ch
    && !(s.sup.timedDo.any (fun a => a.trig = p.1))
  if s.sup.triggers.any hit then
    { s with
      sup.triggers := s.sup.triggers.map (fun p => if hit p then (p.1, { p.2 with supp := true }) else p)
      sup.withdraw := s.sup.withdraw ++ [ch] }
  else s

/-! ## Datum and maintenance cancel -/

/-- At a datum every armed position trigger ends with an entry flagged LAST and DATUM_END (R206), stamped T_b as the entry of
TRIG_CANCEL is (log 24). -/
def endPositionTriggers (s : State) : State :=
  s.sup.triggers.foldl (fun s p =>
    if p.2.armed && reqKind p.2 = 2 then
      let s := { s with sup.triggers := nset s.sup.triggers p.1 { p.2 with armed := false } }
      putEntry s p.1 p.2 s.cyc.tk 0 (tfLast + tfDatumEnd) 0 s.cyc.k
    else s) s

/-- A datum is set at the present boundary (R199): its number, and the end of the armed position triggers. -/
def datumBegin (s : State) : State :=
  let n := s.sup.tp.datumNumber
  endPositionTriggers { s with sup.tp.datumNumber := if n = 0xFFFF then 1 else n + 1 }

/-- Step 2 of a boundary: an announced datum (09 R255). -/
def datumBoundary (s : State) : State :=
  match s.sup.tp.datumInstant with
  | none => s
  | some t => datumBegin { s with sup.tp.datumInstant := none, sup.tp.datumDue := some t }

/-- POS_DATUM_SET (R199): the position of the next image becomes the written value. -/
def hPosDatumSet : Handler :=
  { eff := fun s w => datumBegin { s with sup.tp.datumWrite := some (toInt 8 w.v, w.ctx) } }

/-- POS_DATUM_SET. -/
def execPosDatumSet (ctx v : Nat) (s : State) : Out :=
  .next (writeCmd hPosDatumSet E.posDatumSet ctx 0x2500 12 v s)

/-- TRIG_CANCEL (R207): true removes the selected trigger, and its owner receives one entry flagged LAST. -/
def hTrigCancel : Handler :=
  { conds := fun s w => refuseIf (w.v = 1 && !(nhas s.sup.triggers w.inst)) abtState 3
    eff := fun s w =>
      if w.v ≠ 1 then s
      else
        match nget? s.sup.triggers w.inst with
        | none => s
        | some t =>
          let s := dropEntries s w.inst t
          let s := { s with sup.triggers := nerase s.sup.triggers w.inst }
          putEntry s w.inst t s.cyc.tk 0 tfLast 0 s.cyc.k }

/-- TRIG_CANCEL. -/
def execTrigCancel (ctx : Nat) (s : State) : Out := .next (writeCmd hTrigCancel E.trigCancel ctx 0x2581 6 1 s)

end Sys2Proof.Machine
end

