-- ==== Sys2Proof/Machine/Inaug.lean ====
section
/-!
DEFINITION. Inauguration, landing, clocks and coupling of the backbone (10): bells and the phase error, delay measurement, chains,
rosters, claims, merging and breaks.
-/

namespace Sys2Proof.Machine

/-- The module's own unit id (10 Table 10-10). -/
def unitId (s : State) : Nat :=
  let v := gv s E.bbUnitId
  if v = 0 then Config.serial % 2 ^ 32 else v

/-- Is the first claim better than the second: a higher priority, or at equal priority a lower serial number (R273)? -/
def betterClaim (p1 n1 p2 n2 : Nat) : Bool := p2 < p1 || (p1 = p2 && n1 < n2)

/-! ## Bells (R235, R271, R272) -/

/-- The phase error of a bell, in ps (R271). -/
def phaseError (s : State) (h i : Nat) (b : Bell) : Int :=
  let p := getPlane s h
  let w := if arrivesAft p.reversed i then p.wAft else p.wFore
  ((b.time * 1000 : Nat) : Int) + w - 600000 - b.arrival

/-- A step or a slew on a phase error in ps (07 R189): a step falls due where it exceeds TIME_SLEW_MAX. -/
def dueStep (s : State) (h : Nat) (e : Int) : State :=
  let ns := (e + 500) / 1000
  if ((gv s E.timeSlewMax * 1000 : Nat) : Int) < (ns.natAbs : Int) then updHub s h (fun d => { d with stepDue := some ns }) else s

/-- A hub accepts a bell (R235, R271). The rate correction that it drives is a free value (07 R192, log 6). `compares` says that
the hub lands, re-lands or leaves HOLDOVER (07 R189). -/
def acceptBell (s : State) (h i : Nat) (b : Bell) : State :=
  let p := getPlane s h
  let e := phaseError s h i b
  let compares := p.node = 3 || (getHub s h).timeState = 2
  let f := freeVal s
  let s := freeNext s
  let s := nameKey s h b.key
  let s := updPlane s h (fun p => { p with
    bellOk := true, missed := 0, phaseErr := e, facing := i % 2, bellCold := b.cold, bellMerge := b.merge
    errRun := if p.node = 4 && 200000 < e.natAbs then p.errRun + 1 else 0 })
  let s := if compares then dueStep s h e else s
  let s := updHub s h (fun d => { d with
    corr := ((f % 400001 : Nat) : Int) - 200000
    timeState := if d.timeState = 2 && (p.node = 4 || p.node = 6) then 1 else d.timeState })
  let s := { s with
    bb.ferryman := if b.cold then s.bb.ferryman else b.address
    bb.ferryPriority := b.priority, bb.inaugSeen := max s.bb.inaugSeen b.inaug
    bb.inaug := if b.cold then s.bb.inaug else b.inaug
    bb.noFerry := false }
  let s := if b.last && b.merge then { s with bb.yieldK := some s.cyc.k } else s
  if p.node = 4 && 3 ≤ (getPlane s h).errRun then
    let s := emitH s h s.cyc.tk (srcHub h) 0x3017 2 (u8 h ++ u64 (ofInt 8 e))
    setNode (updPlane s h (fun p => { p with errRun := 0 })) h 3
  else s

/-- The first bell that a LISTEN hub accepts, and one of a joining half after the yield (log 156): it takes plan number, crossing length and
crossing number, and lands (R272). -/
def takeBell (s : State) (h i : Nat) (b : Bell) : State :=
  let s := updPlane s h (fun p => { p with planNo := b.plan, takenX := some b.crossing, joins := false })
  let s := if b.n * 125000 = s.cyc.c then s else { s with bb.cDue := some (b.n * 125000) }
  acceptBell (setNode s h 3) h i b

/-- Does a bell match the hub's own plan number, crossing length and crossing number (R235)? -/
def bellMatches (s : State) (h : Nat) (b : Bell) : Bool :=
  let p := getPlane s h
  let c := s.bb.cDue.getD s.cyc.c
  b.plan = p.planNo && b.n * 125000 = c &&
    (match p.takenX with
     | some x => b.crossing = x || b.crossing = x + 1
     | none => b.crossing = trainX s s.cyc.tk)

/-- The claim of another module in a running contention: a better one ends this module's claim; between equal priorities the
lower node address is better (R283). -/
def hearBell (s : State) (b : Bell) : State :=
  if s.bb.claiming && s.bb.running && (gv s E.bbPriority < b.priority || (gv s E.bbPriority = b.priority && b.address < s.bb.address))
  then { s with bb.claiming := false }
  else s

/-- A bell that fails a check of R235: it is counted. -/
def missBell (s : State) : State := bump s E.bbBellsMissed

/-- A COLD bell (R272, R273): a LISTEN hub lands on it; a claimer that hears a better claim lands on it with both hubs; a LANDING
hub follows the best claim heard. Any other is not the hub's own bell, and is counted (R235). -/
def coldBell (s : State) (h i : Nat) (b : Bell) : State :=
  let n := (getPlane s h).node
  let serial := b.crossing / 2 ^ 24
  let follow := fun (s : State) => { s with bb.ferrySerial := serial, bb.ferryPriority := b.priority, bb.coldFlag := false }
  if n = 1 && !s.bb.isFerry then takeBell (follow s) h i b
  else if n = 2 then
    if betterClaim b.priority serial (gv s E.bbPriority) serial40 then
      let s := follow { s with bb.claiming := false }
      let o := 1 - h
      let s := if (getPlane s o).node = 2 then setNode s o 3 else s
      takeBell s h i b
    else missBell s
  else if n = 3 then
    if serial = s.bb.ferrySerial then
      acceptBell (updPlane s h (fun p => { p with takenX := some b.crossing })) h i b
    else if betterClaim b.priority serial s.bb.ferryPriority s.bb.ferrySerial then takeBell (follow s) h i b
    else missBell s
  else missBell s

/-- A bell arrives at a hub. A transparent hub has no acceptance windows (10 R262); a ferryman's hub keeps its own time base. -/
def bellArrives (s : State) (i : Nat) (b : Bell) : State :=
  let h := linkHub i
  let n := (getPlane s h).node
  let verifies := b.tagOk && (bbKeyOf s b.key).isSome
  let s := if (bbKeyOf s b.key).isSome then s else noKey (nameKey s h b.key) h b.key
  if !verifies then missBell s
  else
    let s := peerHeard s i
    if (getLink s i).edge then
      let s := updLink s i (fun l => { l with fBell := some (((b.time * 1000 : Nat) : Int) - b.arrival) })
      s
    else if b.cold then coldBell s h i b
    else if (n = 1 && !s.bb.isFerry) || (n = 3 && (getPlane s h).joins) then takeBell s h i b
    else if n = 3 || n = 4 || n = 6 then
      if (transparent s h || (bellWindow s i b.arrival).isSome) && bellMatches s h b then
        let s := hearBell s b
        if s.bb.claiming then s else acceptBell s h i b
      else missBell s
    else if n = 5 && (bellWindow s i b.arrival).isSome && bellMatches s h b then s
    else missBell s

/-- BELL_RECEIVED (R235, R271). -/
def execBellReceived (link : Fin 4) (bell : Bell) (s : State) : Out :=
  .next (if hubUp s (linkHub link.val) && (getLink s link.val).state ≠ 0 then bellArrives s link.val bell else s)

/-- COLD_BELL_RECEIVED (R273): a bell without COLD is none. -/
def execColdBellReceived (link : Fin 4) (bell : Bell) (s : State) : Out :=
  .next (
    if bell.cold && hubUp s (linkHub link.val) && (getLink s link.val).state ≠ 0 then bellArrives s link.val bell else s)

/-- BELL_LOSS (07 R187): no accepted bell for three crossings while LANDED or FERRYMAN. A ferryman's own hubs need none. -/
def execBellLoss (plane : Fin 2) (s : State) : Out :=
  .next (
    let h := plane.val
    let ts := (getHub s h).timeState
    if hubUp s h && 3 ≤ (getPlane s h).missed && (ts = 1 || ts = 3) && !(s.bb.isFerry && (getPlane s h).node = 5) then
      updHub s h (fun d => { d with timeState := 2 })
    else s)

/-! ## Delay measurement (R265) -/

/-- The measured delay of a link in ps: the mean of the last 16 valid samples; 0 with none. -/
def linkDelayPs (l : BLink) : Nat := if l.noDelay || l.samples = [] then 0 else l.samples.sum / l.samples.length

/-- PROBE_SEND (R265): one probe in a crossing on each ALIGNED or UP link. `t` is the send instant in ps. -/
def execProbeSend (link : Fin 4) (t : Int) (s : State) : Out :=
  .next (
    let i := link.val
    let l := getLink s i
    let h := linkHub i
    if hubSends s h && (getPlane s h).node ≠ 0 && l.state ≠ 0 && l.probeAt ≠ some s.cyc.k then
      let c := (l.probeCount + 1) % 65536
      let s := updLink s i (fun l => { l with probeCount := c, probeSent := some (c, t.toNat), probeAt := some s.cyc.k })
      send s { kind := .probe, port := i, a := c, b := t.toNat }
    else s)

/-- PROBE_RECEIVED (R265): the echo leaves 96 ns after the probe, unless a relayed block leaves the same link then. -/
def execProbeReceived (link : Fin 4) (count : Nat) (busy : Bool) (t : Int) (s : State) : Out :=
  .next (
    let i := link.val
    let h := linkHub i
    if hubSends s h && (getPlane s h).node ≠ 0 && (getLink s i).state ≠ 0 && !busy then
      send s { kind := .echo, port := i, a := count % 65536, b := (t + 96000).toNat }
    else s)

/-- ECHO_RECEIVED (R265): the sample d = (t_echo − t_probe − τ) / 2, valid from 0 to 640 ns. -/
def execEchoReceived (link : Fin 4) (count : Nat) (t : Int) (s : State) : Out :=
  .next (
    let i := link.val
    let l := getLink s i
    match l.probeSent with
    | none => s
    | some (c, t0) =>
      if !(hubUp s (linkHub i)) || l.state = 0 || count ≠ c then s
      else
        let d := (t - (t0 : Int) - 96000) / 2
        let s := updLink s i (fun l => { l with probeSent := none })
        if 0 ≤ d && d ≤ 640000 then
          updLink s i (fun l => { l with
            samples := (d.toNat :: l.samples).take 16, noDelay := false, delayLost := false, lastSample := s.cyc.k })
        else s)

/-- LINK_DELAY_LOSS (R265): no valid sample in 16 crossings. -/
def execLinkDelayLoss (link : Fin 4) (s : State) : Out :=
  .next (
    let i := link.val
    let h := linkHub i
    let l := getLink s i
    if hubUp s h && l.state ≠ 0 && l.lastSample + 16 ≤ s.cyc.k && !l.delayLost then
      let s := updLink s i (fun l => { l with noDelay := true, delayLost := true, samples := [] })
      emitH s h s.cyc.tk (srcHub h) 0x3016 2 (u8 i ++ u32 (l.samples.headD 0))
    else s)

/-! ## Units and rosters (R268, R269, R274, R276, R278) -/

/-- The unit record that this module appends to an inward chain (R268). -/
def ownUnit (s : State) (aft : Bool) : UnitRec :=
  let p := s.bb.configured.getD {}
  let v := gv s E.bbConfigNode / 4 % 64
  { id := unitId s, plan := p.number, vehicles := p.vehicles, nodes := p.nodes, n := p.n, entries := p.entries.length
    reversed := 1 < p.vehicles && (if aft then v = p.vehicles else v = 1) }

/-- The records after this module's own (R268). -/
def appendUnit (s : State) (aft : Bool) (l : List UnitRec) : List UnitRec :=
  if 63 ≤ l.length || (l.getLast?.map (·.id)) = some (unitId s) then l else l ++ [ownUnit s aft]

/-- Two lists in turn, the first one first. -/
def inTurn {α : Type} : List α → List α → List α
  | [], b => b
  | a, [] => a
  | x :: xs, y :: ys => x :: y :: inTurn xs ys

/-- Neighbouring records of one unit as one. -/
def mergeUnits : List UnitRec → List UnitRec
  | [] => []
  | u :: rest =>
    match mergeUnits rest with
    | [] => [u]
    | v :: vs => if u.id = v.id then v :: vs else u :: v :: vs

/-- The units of the segment in reference order from the fore end, as the ferryman's hub of a plane knows them. -/
def segmentUnits (s : State) (h : Nat) : List UnitRec :=
  let p := getPlane s h
  let fore := p.foreUnits
  let aft := p.aftUnits
  let own := if (fore ++ aft).any (fun u => u.id = unitId s) then [] else [ownUnit s (aft = [])]
  mergeUnits (fore ++ own ++ aft.reverse)

/-- The units of the segment nearest to the ferryman first, the fore one of two at the same distance (R276, log 154). -/
def nearestUnits (s : State) (h : Nat) : List UnitRec :=
  let p := getPlane s h
  inTurn (mergeUnits p.foreUnits).reverse (mergeUnits p.aftUnits).reverse

/-- A plan of a number that the module holds. -/
def heldPlan (s : State) (n : Nat) : Option Plan :=
  match s.bb.configured with
  | some p => if p.number = n then some p else s.bb.companions.find? (fun q => q.number = n)
  | none => s.bb.companions.find? (fun q => q.number = n)

/-- The entries of an admitted unit in the plan in force (R277, R278). -/
def unitEntries (s : State) (u : UnitRec) : List PlanEntry :=
  match heldPlan s u.plan with
  | none => []
  | some p => p.entries.map (fun e =>
      let tv := unitVehicle u.vbase u.vehicles u.reversed
      { e with
        slot := u.sbase + e.slot
        node := tv (e.node / 4) * 4 + e.node % 4
        ident := e.ident / 64 * 64 + tv (e.ident % 64)
        dest := tv e.dest })

/-- Sums over the admitted units. -/
def admittedSum (f : UnitRec → Nat) (l : List UnitRec) : Nat := ((l.filter (·.admitted)).map f).sum

/-- Judge one unit behind those already judged (R276). -/
def admitUnit (s : State) (n : Nat) (done : List UnitRec) (u : UnitRec) : UnitRec :=
  let vb := admittedSum (·.vehicles) done
  let sb := admittedSum (·.entries) done
  let cand := { u with admitted := true, vbase := vb, sbase := sb, refusal := 0 }
  let refuse := fun (code : Nat) => { u with admitted := false, vbase := 0, sbase := 0, refusal := code }
  if u.n ≠ n then refuse 0x04000000
  else if (heldPlan s u.plan).isNone then refuse 0x02000001
  else if 63 < vb + u.vehicles then refuse 0x08000006
  else if 126 < admittedSum (·.nodes) done + u.nodes then refuse 0x08000005
  else if 4096 < sb + u.entries then refuse 0x08000004
  else
    let joined := (done.filter (·.admitted)).flatMap (unitEntries s) ++ unitEntries s cand
    if entriesOk n (vb + u.vehicles) joined then cand else refuse 0x04000000

/-- Judge the units in the order of R276. -/
def admitUnits (s : State) (n : Nat) (l : List UnitRec) : List UnitRec :=
  l.foldl (fun done u => done ++ [admitUnit s n done u]) []

/-- The order in which the units of a roster change are considered (R276): those of the roster in force, without the ones to be
removed, then the others. -/
def considered (s : State) (found : List UnitRec) : List UnitRec :=
  let old := s.bb.roster.units.filter (fun u => !(s.bb.removals.contains u.id))
  old ++ found.filter (fun u => !(old.any (fun o => o.id = u.id)))

/-- The plan number of a roster (R278). -/
def planNumber (inaug : Nat) (l : List UnitRec) : Nat :=
  match l.filter (·.admitted) with
  | [u] => u.plan
  | _ => 0x8000 + inaug % 0x7FFF

/-- The anchor shifts of a cold start on a plane: the negated offsets of its ends, as the inward chains report them (R274). -/
def endShifts (p : Plane) : Int × Int :=
  (-(if p.foreUnits = [] then p.wAft else p.endAft), -(if p.aftUnits = [] then p.wFore else p.endFore))

/-- Has every plane on which the module is ferryman sent the roster of this crossing? -/
def rosterGone (s : State) : Bool :=
  s.bb.planes.toList.all (fun p => p.node ≠ 5 || p.rosterAt = some s.cyc.k)

/-- The roster that the ferryman announces, effective four crossings after the crossing in which it is first sent (R269, R274, R276), and
the refusals that it records (event 0x3015). Each plane has its own anchor shifts. -/
def announce (s : State) (cold merge : Bool) (found : List UnitRec) : State :=
  let n := if s.bb.roster.units = [] then s.cyc.c / 125000 else s.bb.roster.n
  let units := admitUnits s n (considered s found)
  let inaug := s.bb.inaug + 1
  let r : Roster :=
    { cold := cold, merge := merge, vehicles := admittedSum (·.vehicles) units, nodes := admittedSum (·.nodes) units, n := n
      entries := admittedSum (·.entries) units, plan := planNumber inaug units, inaug := inaug
      effective := trainX s s.cyc.tk + 4 + b2n (rosterGone s), units := units }
  let s := { s with
    bb.rosterNext := some r, bb.removals := []
    bb.planes := s.bb.planes.map (fun p => { p with shift := if cold then endShifts p else (0, 0) }) }
  units.foldl (fun s u =>
    if u.admitted then s else emitL s (srcHub 0) 0x3015 1 (u32 u.id ++ u32 u.refusal ++ u16 u.plan)) s

/-- The plan unit of a unit of the service window (R231, R264). -/
def serviceUnit (s : State) (u : Nat) : Nat := s.cyc.c / 8 - 1280 + u

/-- The header of a roster (10 Table 10-6) and its unit records. -/
def rosterBytes (r : Roster) : List Byte :=
  beBytes 1 1 ++ beBytes 1 (128 * b2n r.cold + 64 * b2n r.merge) ++ beBytes 1 r.units.length ++ beBytes 1 r.vehicles
    ++ beBytes 1 r.nodes ++ beBytes 1 r.n ++ beBytes 2 r.entries ++ beBytes 2 r.plan ++ beBytes 2 0 ++ beBytes 4 r.inaug
    ++ beBytes 8 r.effective ++ beBytes 4 (ofInt 4 r.shiftAft) ++ beBytes 4 (ofInt 4 r.shiftFore)
    ++ r.units.flatMap (fun u =>
      beBytes 4 u.id ++ beBytes 2 u.plan ++ beBytes 1 (b2n u.reversed + 2 * b2n u.admitted) ++ beBytes 1 u.vehicles
        ++ beBytes 1 u.nodes ++ beBytes 1 u.n ++ beBytes 2 u.entries
        ++ (if u.admitted then beBytes 1 u.vbase ++ beBytes 1 0 ++ beBytes 2 u.sbase else beBytes 4 u.refusal))

/-- ROSTER_SEND (R269): the ferryman, in every crossing; a changed roster once it is announced. -/
def execRosterSend (plane : Fin 2) (s : State) : Out :=
  .next (
    let h := plane.val
    if hubUp s h && s.bb.isFerry && (getPlane s h).node = 5 then
      let r := s.bb.rosterNext.getD s.bb.roster
      let p := getPlane s h
      let body := rosterBytes { r with shiftAft := p.shift.1, shiftFore := p.shift.2 }
      sendBoth (updPlane s h (fun p => { p with rosterAt := some s.cyc.k })) h .roster s.cyc.tk (serviceUnit s 576) 0
        (body ++ bbTag s (keyFor s h (trainX s s.cyc.tk)) (bbIv 0xFF00 h 2 5 (trainX s s.cyc.tk)) body)
    else s)

/-- ROSTER_RECEIVED (R269, R275). -/
def execRosterReceived (link : Fin 4) (ros : RosterMsg) (s : State) : Out :=
  .next (
    let i := link.val
    let h := linkHub i
    let n := (getPlane s h).node
    if !(hubUp s h) || (getLink s i).state = 0 || (getLink s i).edge || !(n = 3 || n = 4 || n = 6) || !ros.tagOk then s
    else
      let r := { ros.roster with shiftAft := 0, shiftFore := 0 }
      let s := updPlane s h (fun p => { p with rosterOk := true, shift := (ros.roster.shiftAft, ros.roster.shiftFore) })
      if s.bb.roster = r || s.bb.isFerry then s else { s with bb.rosterNext := some r })

/-- The plan in force of a roster (R278). -/
def planOf (s : State) (r : Roster) : Plan :=
  { number := r.plan, n := r.n, vehicles := r.vehicles, nodes := r.nodes
    speedRef :=
      ((r.units.filter (·.admitted)).findSome? (fun u => match heldPlan s u.plan with
        | some p => if p.speedRef = 0 then none
            else some (unitVehicle u.vbase u.vehicles u.reversed (p.speedRef / 4) * 4 + p.speedRef % 4)
        | none => none)).getD 0
    pkgNo := (s.bb.configured.map (·.pkgNo)).getD 0
    entries := (r.units.filter (·.admitted)).flatMap (unitEntries s) }

/-- A hub takes the plan number of a roster, and at the effective crossing of a cold start adds its plane's anchor shifts (R274). -/
def shiftPlane (cold : Bool) (r : Roster) (p : Plane) : Plane :=
  if cold then { p with wAft := p.wAft + p.shift.1, wFore := p.wFore + p.shift.2, planNo := r.plan }
  else { p with planNo := r.plan }

/-- A roster takes effect at a boundary that begins train crossing `x` (R269, R274, R276 to R278). -/
def rosterEffect (s : State) (x : Nat) (r : Roster) : State :=
  let own := r.units.find? (fun u => u.id = unitId s)
  let cn := gv s E.bbConfigNode
  let u := own.getD {}
  let cold := r.cold && r.effective = x
  let s := { s with
    bb.roster := r, bb.rosterNext := none, bb.inaug := r.inaug, bb.inaugSeen := max s.bb.inaugSeen r.inaug
    bb.inForce := planOf s r
    bb.vbase := if u.admitted then u.vbase else 0
    bb.unitReversed := u.admitted && u.reversed
    bb.address := if u.admitted then unitVehicle u.vbase u.vehicles u.reversed (cn / 4) * 4 + cn % 4 else 0
    bb.coldFlag := if s.bb.isFerry then false else s.bb.coldFlag
    bb.mergeFlag := false, bb.judged := none
    bb.planes := s.bb.planes.map (shiftPlane cold r) }
  let s := if s.bb.isFerry then { s with bb.ferryman := s.bb.address } else s
  let s := if u.admitted || own.isNone then s
    else
      emitL { s with bb.refusal := u.refusal } (srcHub 0) 0x3015 1 (u32 u.id ++ u32 u.refusal ++ u16 u.plan)
  let s := emitL s (srcHub 0) 0x3013 0 (u32 r.inaug ++ u16 r.plan ++ u8 r.units.length ++ u8 r.vehicles ++ u8 r.nodes)
  if rosterGap s then
    let miss := ((r.units.find? (fun u => u.admitted && (heldPlan s u.plan).isNone)).map (·.plan)).getD 0
    [0, 1].foldl (fun s h =>
      if (getPlane s h).node = 4 then emitH s h s.cyc.tk (srcHub h) 0x3019 2 (u8 h ++ u16 miss) else s) s
  else s

/-! ## Chains (R266 to R268) -/

/-- A chain's header (10 Table 10-4). -/
def chainBytes (aft : Bool) (edge : Option Foreign) (merge cold : Bool) (records hops sender : Nat) (wAft wFore : Int) : List Byte :=
  let f := edge.getD {}
  beBytes 1 1 ++ beBytes 1 ((if aft then 64 else 128) + 32 * b2n edge.isSome + 16 * b2n merge + 8 * b2n cold)
    ++ beBytes 1 records ++ beBytes 1 0 ++ beBytes 2 hops ++ beBytes 2 sender ++ beBytes 4 (ofInt 4 wAft)
    ++ beBytes 4 (ofInt 4 wFore) ++ beBytes 1 f.priority ++ beBytes 1 f.n ++ beBytes 5 f.serial ++ beBytes 1 0
    ++ beBytes 8 (ofInt 8 f.offset)

/-- A chain leaves by a link that works and has a delay, at the passage time of its cell (R264); its cell code is 1 or 2 outward, 3 or 4
inward. -/
def sendChain (s : State) (i : Nat) (kind : EgKind) (aft : Bool) (hops : Nat) (body : List Byte) : State :=
  if (getLink s i).state = 0 || (getLink s i).noDelay || !(hubSends s (linkHub i)) then s
  else
    let code := (if kind = .outwardChain then 1 else 3) + b2n (!aft)
    let h := linkHub i
    let x := trainX s s.cyc.tk
    send s { kind := kind, port := i
             b := (passage s h aft s.cyc.tk (serviceUnit s (if kind = .outwardChain then 192 else 320))).toNat
             data := body ++ bbTag s (keyFor s h x) (bbIv (0xFF00 + hops) h 2 code x) body }

/-- Does a link join the node to its own segment? -/
def inSegment (s : State) (i : Nat) : Bool := (getLink s i).state ≠ 0 && !(getLink s i).edge

/-- What this node's edges of a plane have learned. -/
def edgeInfo (s : State) (h : Nat) : Option Foreign :=
  [2 * h, 2 * h + 1].findSome? (fun i => if (getLink s i).edge then (getLink s i).foreign else none)

/-- The claim that an outward chain carries for a foreign segment (R279, log 155). -/
def ownClaim (s : State) : Foreign :=
  { priority := gv s E.bbPriority, n := s.cyc.c / 125000, serial := serial40 }

/-- Outward chains of the ferryman or a claimer on each of its links of a plane. -/
def originateOutward (s : State) (h : Nat) : State :=
  let p := getPlane s h
  [2 * h, 2 * h + 1].foldl (fun s i =>
    let aft := leavesAft p.reversed i
    let (wa, wf) : Int × Int := if s.bb.claiming && !s.bb.running then (0, 0) else (p.wAft, p.wFore)
    sendChain s i .outwardChain aft 0 (chainBytes aft (some (ownClaim s)) s.bb.mergeFlag s.bb.coldFlag 0 0 s.bb.address wa wf)) s

/-- The inward chain of a node that is an end of its segment. -/
def originateInward (s : State) (h : Nat) : State :=
  let p := getPlane s h
  match [2 * h, 2 * h + 1].filter (inSegment s) with
  | [i] =>
    if p.chainAt.any (· < s.cyc.k) then
      let aft := leavesAft p.reversed i
      let units := if p.node = 3 || p.node = 4 || p.node = 6 then appendUnit s aft [] else []
      let hdr := chainBytes aft (edgeInfo s h) p.bellMerge p.bellCold units.length 0 s.bb.address p.wAft p.wFore
      let recs := (rosterBytes { units := units.map (fun u => { u with admitted := false, refusal := 0 }) }).drop 32
      sendChain s i .inwardChain aft 0 (hdr ++ recs)
    else s
  | _ => s

/-- CHAIN_ORIGINATE (R266). -/
def execChainOriginate (plane : Fin 2) (s : State) : Out :=
  .next (
    let h := plane.val
    let n := (getPlane s h).node
    if !(hubUp s h) || n = 0 then s
    else if n = 5 || n = 2 || (s.bb.claiming && n = 4) then originateOutward s h
    else originateInward s h)

/-- Does the chain belong to the crossing that the hub counts? A hub that has not yet stepped counts with the bell. -/
def chainNow (s : State) (h crossing : Nat) : Bool :=
  match (getPlane s h).takenX with
  | some x => crossing = x || crossing = x + 1
  | none => (getPlane s h).node = 1 || (getPlane s h).node = 3 || crossing = trainX s s.cyc.tk

/-- The offsets behind a link of delay `d` ps (R267). -/
def offsetsAfter (aft : Bool) (wa wf : Int) (d : Nat) : Int × Int :=
  let step : Int := (d : Int) + 600000
  if aft then (wa + step, wf - step) else (wa - step, wf + step)

/-- An outward chain of the node's own segment (R266, R267). -/
def takeChain (s : State) (h i : Nat) (ch : OutChain) : State :=
  let (wa, wf) := offsetsAfter ch.aft ch.wAft ch.wFore (linkDelayPs (getLink s i))
  let s := updPlane s h (fun p => { p with
    wAft := wa, wFore := wf, facing := i % 2, chainOk := true, hops := ch.hops + 1
    reversed := (i % 2 = 0) != ch.aft
    chainAt := if p.chainAt.isSome then p.chainAt else some s.cyc.k })
  let s := { s with bb.ferrySerial := ch.serial }
  sendChain s (otherLink i) .outwardChain ch.aft (ch.hops + 1)
    (chainBytes ch.aft (some { priority := ch.priority, n := ch.n, serial := ch.serial }) ch.merge ch.cold 0 (ch.hops + 1) s.bb.address
      wa wf)

/-- The foreign claim that a chain across an edge brings (R279). -/
def learnEdge (s : State) (i : Nat) (ch : OutChain) : State :=
  let w := if ch.aft then ch.wAft else ch.wFore
  match (getLink s i).fBell with
  | none => s
  | some b =>
    let ps := b + w + (linkDelayPs (getLink s i) : Int)
    updLink s i (fun l => { l with
      foreign := some { priority := ch.priority, n := ch.n, serial := ch.serial, offset := ps / 1000 } })

/-- Is the chain that of a foreign segment (R279)? -/
def isForeign (s : State) (h : Nat) (ch : OutChain) : Bool :=
  4 ≤ (getPlane s h).node && (getPlane s h).node ≤ 5 && ch.serial ≠ (if s.bb.isFerry then serial40 else s.bb.ferrySerial)

/-! ## Merging (R280 to R282) -/

/-- The ferryman compares a foreign claim with its own (R280). -/
def judgeForeign (s : State) (f : Foreign) : State :=
  if !s.bb.isFerry || s.bb.mergeFlag || s.bb.mergeDue || s.bb.mergeJoin || s.bb.judged = some f.serial then s
  else
    let s := { s with bb.judged := some f.serial }
    if f.n * 125000 ≠ s.cyc.c then
      emitL s (srcHub 0) 0x3018 1 (u64 f.serial ++ u32 0x04000000)
    else
      let keep := betterClaim (gv s E.bbPriority) serial40 f.priority f.serial
      let s := emitL s (srcHub 0) 0x3012 1 (u8 (if keep then 1 else 2) ++ u64 f.serial ++ u64 (ofInt 8 f.offset))
      if keep then { s with bb.mergeDue := true }
      else
        let s := { s with bb.mergeJoin := true, bb.mergeOffset := f.offset, bb.mergeRun := 0 }
        if ((gv s E.timeSlewMax * 1000 : Nat) : Int) < (f.offset.natAbs : Int) then
          { s with hubs := s.hubs.map (fun d => { d with stepDue := some f.offset }), bb.mergeOffset := 0 }
        else s

/-- EDGE_DETECTED (R279): a link that has reached UP towards a foreign segment is an edge. An edge node that is itself the
ferryman compares the claim. -/
def execEdgeDetected (link : Fin 4) (ch : OutChain) (s : State) : Out :=
  .next (
    let i := link.val
    let h := linkHub i
    if hubUp s h && (getLink s i).state = 2 && ch.tagOk && isForeign s h ch then
      let s := learnEdge (updLink s i (fun l => { l with edge := true })) i ch
      match (getLink s i).foreign with
      | some f => judgeForeign s f
      | none => s
    else s)

/-- Does the node belong to the half that keeps (R280)? -/
def keepsOwn (s : State) (ch : OutChain) : Bool :=
  betterClaim s.bb.ferryPriority s.bb.ferrySerial ch.priority ch.serial

/-- OUTWARD_CHAIN (R266, R267): across an edge it brings the foreign claim, and with MERGE it has the edge of the keeping half open at
the next boundary (R281). -/
def execOutwardChain (link : Fin 4) (ch : OutChain) (s : State) : Out :=
  .next (
    let i := link.val
    let h := linkHub i
    let n := (getPlane s h).node
    if !(hubUp s h) || n = 0 || (getLink s i).state = 0 || !ch.tagOk then s
    else if (getLink s i).edge then
      let s := learnEdge s i ch
      if ch.merge && keepsOwn s ch then updLink s i (fun l => { l with opens := true })
      else
        match (getLink s i).foreign with
        | some f => judgeForeign s f
        | none => s
    else if n = 5 || n = 2 || (s.bb.claiming && n = 4) || (getLink s i).noDelay || !(chainNow s h ch.crossing) then s
    else takeChain s h i ch)

/-- The ferryman, or a claimer, collects an inward chain (R274, R276). -/
def collect (s : State) (h : Nat) (ch : InChain) : State :=
  let s := updPlane s h (fun p =>
    if ch.aft then { p with foreUnits := ch.units, endAft := ch.wAft } else { p with aftUnits := ch.units, endFore := ch.wFore })
  let s := { s with bb.unitsFound := s.bb.unitsFound ++ (ch.units.map (·.id)) }
  let s := match ch.edge with
    | some f => judgeForeign s f
    | none => s
  let new := ch.units.any (fun u => !(s.bb.roster.units.any (fun r => r.id = u.id)))
  if s.bb.isFerry && s.bb.rosterNext.isNone && new then announce s false s.bb.mergeFlag (nearestUnits s h) else s

/-- INWARD_CHAIN (R266, R268): it crosses no edge (R279). -/
def execInwardChain (link : Fin 4) (ch : InChain) (s : State) : Out :=
  .next (
    let i := link.val
    let h := linkHub i
    let n := (getPlane s h).node
    if !(hubUp s h) || n = 0 || (getLink s i).state = 0 || (getLink s i).edge || !ch.tagOk || (getLink s i).noDelay then s
    else if n = 5 || n = 2 || (s.bb.claiming && n = 4) then collect s h ch
    else if (getLink s (otherLink i)).edge then s
    else
      let units := if n = 3 || n = 4 || n = 6 then appendUnit s ch.aft ch.units else ch.units
      let hdr := chainBytes ch.aft ch.edge ch.merge ch.cold units.length (ch.hops + 1) s.bb.address ch.wAft ch.wFore
      let recs := (rosterBytes { units := units.map (fun u => { u with admitted := false, refusal := 0 }) }).drop 32
      sendChain s (otherLink i) .inwardChain ch.aft (ch.hops + 1) (hdr ++ recs))

/-- MERGE_YIELD (R281): the joining ferryman sends its last bells, with MERGE, in this crossing. -/
def execMergeYield (s : State) : Out :=
  .next (
    if s.bb.mergeJoin && 2 ≤ s.bb.mergeRun && s.bb.yieldK.isNone then
      { s with bb.yieldK := some s.cyc.k, bb.mergeFlag := true }
    else s)

/-- Every mapped item of kind 1 keeps its data and is HELD (R282). -/
def holdItems (s : State) : State :=
  { s with sup.adopted := s.sup.adopted.map (fun p => if p.2.item.kind = 1 then (p.1, { p.2 with held := true }) else p) }

/-- The boundary after crossing Y at the joining half (R281): its hubs are LANDING, its edges open. -/
def joinBoundary (s : State) : State :=
  match s.bb.yieldK with
  | none => s
  | some _ =>
    let was := moduleReversed s
    let s := { s with bb.yieldK := none, bb.isFerry := false, bb.mergeJoin := false, bb.mergeFlag := false, bb.orientWas := some was,
                      bb.links := s.bb.links.map (fun l => { l with edge := false, foreign := none, opens := false }) }
    let s := [0, 1].foldl (fun s h =>
      if 4 ≤ (getPlane s h).node then
        updPlane (setNode (updHub s h (fun d => { d with timeState := 0 })) h 3) h (fun p => { p with joins := true, chainAt := none })
      else s) s
    holdItems s

/-- The joining ferryman slews towards the keeping half at 100 ppm (R280). -/
def slewMerge (s : State) : State :=
  if !s.bb.mergeJoin then s
  else
    let d : Int := ((s.cyc.c / 10000 : Nat) : Int)
    let o := s.bb.mergeOffset
    let o' := if o.natAbs ≤ d.toNat then 0 else if 0 < o then o - d else o + d
    { s with bb.mergeOffset := o', bb.mergeRun := if o'.natAbs ≤ 40 then s.bb.mergeRun + 1 else 0 }

/-! ## Claims (R272 to R274, R283, R284) -/

/-- No ferryman can be found: event 0x3011 with priority 0, once (R284). -/
def noFerryman (s : State) (kind : Nat) : State :=
  if s.bb.noFerry then s
  else
    emitL { s with bb.noFerry := true } (srcHub 0) 0x3011 1
      (u8 (b2n ((getPlane s 0).node ≠ 0) + 2 * b2n ((getPlane s 1).node ≠ 0)) ++ u32 s.bb.inaug ++ u8 0 ++ u8 kind)

/-- The instant from which the listen time runs: the module's first link to reach ALIGNED. -/
def listenFrom (s : State) : Option Nat :=
  match (getPlane s 0).listenSince, (getPlane s 1).listenSince with
  | some a, some b => some (min a b)
  | some a, none => some a
  | none, b => b

/-- LISTEN_TIMEOUT (R272): without an accepted bell, the module claims with COLD bells; with priority 0 it never does (R284). -/
def execListenTimeout (plane : Fin 2) (s : State) : Out :=
  .next (
    let h := plane.val
    let quiet := fun (o : Nat) => (getPlane s o).node ≤ 1
    let p := gv s E.bbPriority
    let cOwn := gv s E.bbCrossingN * 125000
    match listenFrom s with
    | none => s
    | some t0 =>
      if (getPlane s h).node = 1 && quiet (1 - h) && !s.bb.claiming && t0 + 3 * cOwn + (255 - p) * 8000 ≤ s.cyc.tk then
        if p = 0 then noFerryman s 1
        else
          let s := { s with
            bb.claiming := true, bb.running := false, bb.coldSent := 0, bb.coldFlag := true, bb.bellK := none
            bb.claimInaug := s.bb.inaugSeen + 1, bb.cDue := some cOwn, bb.alignDue := true
            bb.planes := s.bb.planes.map (fun pl => { pl with
              wAft := 0, wFore := 0, reversed := false, foreUnits := [], aftUnits := [] }) }
          [0, 1].foldl (fun s o => if (getPlane s o).node = 1 then setNode s o 2 else s) s
      else s)

/-- CLAIM_CONFIRMED (R273, R283): eight bells unchallenged. A cold start's ferryman announces its first roster (R274); another goes on
with the roster that it last received. -/
def execClaimConfirmed (s : State) : Out :=
  .next (
    if !s.bb.claiming || s.bb.coldSent < 8 then s
    else
      let cold := !s.bb.running
      let s := { s with
        bb.claiming := false, bb.isFerry := true, bb.inaug := s.bb.claimInaug
        bb.inaugSeen := max s.bb.inaugSeen s.bb.claimInaug, bb.ferrySerial := serial40
        bb.ferryPriority := gv s E.bbPriority, bb.ferryman := s.bb.address, bb.noFerry := false }
      let s := [0, 1].foldl (fun s h =>
        if (getPlane s h).node = 2 || (getPlane s h).node = 4 then
          setNode (updHub s h (fun d => { d with timeState := 3 })) h 5
        else s) s
      let s := emitL s (srcHub 0) 0x3011 1
        (u8 (b2n ((getPlane s 0).node = 5) + 2 * b2n ((getPlane s 1).node = 5)) ++ u32 s.bb.inaug ++ u8 (gv s E.bbPriority)
          ++ u8 (if cold then 1 else 2))
      if cold then
        let h := if (getPlane s 0).node = 5 then 0 else 1
        announce s true false (segmentUnits s h)
      else s)

/-- CONTENTION_TIMEOUT (R283): both hubs have missed three bells and a further 255 − p crossings have passed. -/
def execContentionTimeout (s : State) : Out :=
  .next (
    let p := gv s E.bbPriority
    let missed := fun (h : Nat) => (getPlane s h).node ≠ 4 || 3 + (255 - p) ≤ (getPlane s h).missed
    let landed := (getPlane s 0).node = 4 || (getPlane s 1).node = 4
    let waiting := fun (h : Nat) => (getPlane s h).node ≠ 3 && (getPlane s h).node ≠ 6
    if landed && missed 0 && missed 1 && waiting 0 && waiting 1 && !s.bb.claiming && !s.bb.isFerry then
      if p = 0 then noFerryman s 2
      else
        { s with
          bb.claiming := true, bb.running := true, bb.coldSent := 0, bb.coldFlag := false, bb.mergeFlag := false
          bb.bellK := none, bb.claimInaug := s.bb.inaug + 1 }
    else s)

/-- UNIT_ABSENCE_REMOVAL (R276): a unit absent from every inward chain for 64 consecutive crossings leaves the roster at its next
change. -/
def execUnitAbsenceRemoval (unitId : Nat) (s : State) : Out :=
  .next (
    if s.bb.isFerry && 64 ≤ nget s.bb.absent unitId 0 && s.bb.roster.units.any (fun u => u.id = unitId)
        && !(s.bb.removals.contains unitId) then
      { s with bb.removals := s.bb.removals ++ [unitId] }
    else s)

/-! ## The boundary (21 Table 21-4, step 2) -/

/-- The ferryman counts the crossings in which a unit was absent from every inward chain. -/
def countAbsent (s : State) : State :=
  if !s.bb.isFerry then { s with bb.absent := [], bb.unitsFound := [] }
  else
    let ids := (s.bb.roster.units.filter (fun u => u.id ≠ unitId s)).map (·.id)
    let m := ids.foldl (fun (m : NMap Nat) i =>
      nset m i (if s.bb.unitsFound.contains i then 0 else nget s.bb.absent i 0 + 1)) []
    { s with bb.absent := m, bb.unitsFound := [] }

/-- The module lands again after a merge that changed its orientation (R281): the distance base is negated, and position
triggers end. -/
def landAfterMerge (s : State) (h : Nat) : State :=
  match s.bb.orientWas with
  | none => s
  | some was =>
    let s := { s with bb.orientWas := none }
    if (getPlane s h).reversed = was then s
    else
      endPositionTriggers { s with
        sup.tp.base := -s.sup.tp.base, sup.tp.e := -s.sup.tp.e, sup.tp.ePrev := -s.sup.tp.ePrev
        sup.tp.track := s.sup.tp.track.map (fun p => (p.1, -p.2)) }

/-- Was the crossing that ends a full valid one (R275)? -/
def fullValid (p : Plane) : Bool :=
  p.bellOk && p.chainOk && p.rosterOk && !p.unplanned && p.phaseErr.natAbs ≤ 40000

/-- A hub at a boundary: it lands after its first full valid crossing unless its oscillator cannot follow (07 R192), counts a crossing without a bell, and begins the next. -/
def planeBoundary (s : State) (h x : Nat) : State :=
  let p := getPlane s h
  let own := s.bb.roster.units.find? (fun u => u.id = unitId s)
  let land := p.node = 3 && fullValid p && hubUp s h && !(getHub s h).oscBad
  let s := match land, own with
    | true, some u =>
      if u.admitted then
        landAfterMerge (setNode (updHub s h (fun d => { d with timeState := 1 })) h 4) h
      else if u.refusal ≠ 0 then setNode (updHub s h (fun d => { d with timeState := 1 })) h 6
      else s
    | _, _ => s
  let s := judgeEmpty s h x
  updPlane s h (fun p => { p with
    missed := if p.bellOk then 0 else p.missed + 1
    bellOk := false, chainOk := false, rosterOk := false, unplanned := false, takenX := none })

/-- A module without a hub in FERRYMAN is ferryman no more; while it is ferryman, a hub that listens enters FERRYMAN: the same module is
ferryman on both planes or on neither (R259). -/
def ferryBoth (s : State) : State :=
  if !s.bb.isFerry then s
  else if (getPlane s 0).node ≠ 5 && (getPlane s 1).node ≠ 5 then { s with bb.isFerry := false }
  else
    [0, 1].foldl (fun s h =>
      if hubUp s h && (getPlane s h).node = 1 && ((getLink s (2 * h)).state ≠ 0 || (getLink s (2 * h + 1)).state ≠ 0) then
        setNode (updHub s h (fun d => { d with timeState := 3 })) h 5
      else s) s

/-- The edges of the keeping half that open at this boundary (R281). -/
def openEdges (s : State) : State :=
  { s with bb.links := s.bb.links.map (fun l =>
      if l.opens then { l with edge := false, foreign := none, opens := false } else l) }

/-- The backbone's part of a boundary that begins train crossing `x`, after the time step. -/
def backboneBoundary (s : State) (x : Nat) : State :=
  let s := ferryBoth (planeBoundary (planeBoundary s 0 x) 1 x)
  let s := countAbsent s
  let s := match s.bb.rosterNext with
    | some r => if r.effective ≤ x then rosterEffect s x r else s
    | none => s
  let s := slewMerge (joinBoundary (openEdges s))
  if s.bb.mergeDue then { s with bb.mergeDue := false, bb.mergeFlag := true } else s

end Sys2Proof.Machine
end

