-- ==== Sys2Proof/Machine/Perf.lean ====
section
/-!
DEFINITION. Performance counters: controls, tag sampling, the latency record, snapshots and the gathering of the block counters
(19).
-/

namespace Sys2Proof.Machine

/-- One core index on every lane. -/
def coreAll (s : State) (core : Nat) (f : CorePerf → CorePerf) : State :=
  { s with perf.cores := Vector.ofFn (fun (i : Fin 48) =>
      if i.val % 16 = core then f s.perf.cores[i] else s.perf.cores[i]) }

/-- A programmable counter set to 0: its overflow bit clears (R472, R473). -/
def CorePerf.zero (p : CorePerf) (j : Nat) : CorePerf :=
  { p with pc := vupd p.pc j (fun _ => 0), ovf := p.ovf &&& ~~~(BitVec.ofNat 8 (2 ^ j)) }

/-- Is a control word in range (R9, R472)? -/
def ctrlRange (v : Nat) : List Nat :=
  refuseIf (0x30 ≤ bits v 0 6 || (511 < bits v 16 16 && bits v 16 16 ≠ 0xFFFF)) abtRange 0
    ++ refuseIf (bits v 11 5 ≠ 0 || bits v 6 2 ≠ 0) abtRange 1

/-- PC_CTRL (R472): in force at the boundary, its counter set to 0 on every lane. -/
def hPcCtrl : Handler :=
  { conds := fun _ w => ctrlRange w.v
    eff := fun s w =>
      let s := storeEff E.pcCtrl s w
      coreAll { s with perf.cfgChanged := true } (w.idx - 0x5310) (fun p => p.zero (w.sub - 1)) }

/-- PC_CTRL (R472). -/
def execPcCtrlWrite (ctx : Nat) (core : CoreIx) (ctr : Fin 8) (v : Nat) (s : State) : Out :=
  .next (writeCmd hPcCtrl E.pcCtrl ctx (0x5310 + core.val) (1 + ctr.val) v s)

/-- PC_CLEAR (R472): every programmable counter; the cycle counters stay. -/
def hPcClear : Handler :=
  { eff := fun s w =>
      if w.v = 1 then
        { s with
          perf.cfgChanged := true
          perf.cores := s.perf.cores.map (fun p => { p with pc := Vector.replicate 8 0, ovf := 0 }) }
      else s }

/-- PC_CLEAR (R472). -/
def execPcClear (ctx : Nat) (s : State) : Out := .next (writeCmd hPcClear E.pcClear ctx 0x5300 7 1 s)

/-- PC_SNAP_CMD (R477): a snapshot at the next boundary. -/
def hPcSnapCmd : Handler := { eff := fun s w => if w.v = 1 then { s with perf.snapDue := true } else s }

/-- PC_SNAP_CMD (R477). -/
def execPcSnapCmd (ctx : Nat) (s : State) : Out := .next (writeCmd hPcSnapCmd E.pcSnapCmd ctx 0x5300 1 1 s)

/-- PC_SNAP_PERIOD (R481): 0 or a power of two up to 4096. -/
def hPcSnapPeriod : Handler :=
  { conds := fun _ w => refuseIf (w.v ≠ 0 && !((List.range 13).any (fun n => w.v = 2 ^ n))) abtRange 0
    eff := storeEff E.pcSnapPeriod }

/-- PC_SAMPLE_K (R474): 0 off, or 8 to 24; the first countdown is drawn by each lane. -/
def hPcSampleK : Handler :=
  { conds := fun _ w => refuseIf (w.v ≠ 0 && (w.v < 8 || 24 < w.v)) abtRange 0
    eff := fun s w =>
      let s := storeEff E.pcSampleK s w
      let core := w.sub - 1
      [0, 1, 2].foldl (fun s l =>
        let v := freeVal s
        { freeNext s with perf.cores := vupd s.perf.cores (l * 16 + core) (fun p =>
            { p with countdown := if w.v = 0 then none else some (2 ^ (w.v - 1) + v % 2 ^ w.v - 1) }) }) s }

/-- PC_SAMPLE_K (R474). -/
def execPcSampleKWrite (ctx : Nat) (core : CoreIx) (v : Nat) (s : State) : Out :=
  .next (writeCmd hPcSampleK E.pcSampleK ctx 0x5330 (1 + core.val) v s)

/-- PC_LAT_ARM (R476): the records of every lane are emptied and armed. -/
def hPcLatArm : Handler :=
  { eff := fun s w => if w.v = 1 then { s with perf.lat := Vector.replicate 3 [], perf.latArmed := true } else s }

/-- PC_LAT_ARM (R476). -/
def execPcLatArm (ctx : Nat) (s : State) : Out := .next (writeCmd hPcLatArm E.pcLatArm ctx 0x5340 3 1 s)

/-! ## Snapshots (R477, R478) -/

/-- Does a boundary take a snapshot (R477)? -/
def snapAt (s : State) (b : Nat) : Bool :=
  s.perf.snapDue || (gv s E.pcSnapPeriod ≠ 0 && b % gv s E.pcSnapPeriod = 0)

/-- The flags of a snapshot at its latch (R478): a bit for each core whose shed is not OPEN, and what came since the previous one. -/
def snapFlags (s : State) : Nat :=
  (List.range 16).foldl (fun m c => setBit m c ((getShed s (c / 4)).state ≠ 0)) 0
    + 2 ^ 16 * b2n s.perf.setChanged + 2 ^ 17 * b2n s.perf.missed + 2 ^ 18 * b2n s.perf.cfgChanged

/-- Latch every core's counters at boundary b, with the flags. -/
def snapLatch (s : State) (b : Nat) : State :=
  if snapAt s b then
    { s with
      perf.latched := s.perf.cores.map (fun p => p.cycles :: p.pc.toList)
      perf.latchedAt := some b
      perf.latchedFlags := snapFlags s
      perf.snapDue := false, perf.setChanged := false, perf.missed := false, perf.cfgChanged := false }
  else s

/-- A latch whose crossing is not executed is no snapshot (R478): what its flags say stands for the next one. -/
def snapDrop (s : State) : State :=
  match s.perf.latchedAt with
  | none => s
  | some _ =>
    { s with
      perf.latchedAt := none, perf.missed := true
      perf.setChanged := s.perf.setChanged || bit s.perf.latchedFlags 16
      perf.cfgChanged := s.perf.cfgChanged || bit s.perf.latchedFlags 18 }

/-- A boundary that was not executed: its snapshot is not taken (R478). -/
def snapMissed (s : State) (b : Nat) : State :=
  let s := snapDrop s
  if snapAt s b then { s with perf.missed := true, perf.snapDue := false } else s

/-- The median of three values, the lower of two, or the one (R129, R478). -/
def agreeValue : List Nat → Nat
  | [a, b, c] => max (min a b) (min (max a b) c)
  | [a, b] => min a b
  | l => l.headD 0

/-- The latched values are agreed in the Agree phase of their crossing (R478). -/
def snapAgree (s : State) : State :=
  match s.perf.latchedAt with
  | none => s
  | some b =>
    let lanes := laneSet s
    let one := fun (s : State) (core j : Nat) =>
      let vs := lanes.map (fun l => (vget s.perf.latched (l * 16 + core) []).getD j 0)
      svx s E.pcSnapVal (0x5320 + core) (1 + j) 0 (agreeValue vs)
    let s := (List.range 144).foldl (fun s n => one s (n / 9) (n % 9)) s
    let s := bump s E.pcSnapNumber
    let s := sv (sv s E.pcSnapCrossing b) E.pcSnapFlags s.perf.latchedFlags
    { s with perf.latchedAt := none }

/-! ## Cycles (R471, R473) -/

/-- Does an event number count cycles or the memory system's own occurrences, which the spec gives no number for? -/
def cycleEvent (n : Nat) : Bool := [0x01, 0x06, 0x09, 0x0E, 0x0F, 0x13, 0x1B, 0x25, 0x26, 0x27, 0x28, 0x29, 0x2A, 0x2B, 0x2C,
  0x2D, 0x2E, 0x2F].contains n

/-- What one crossing adds to a core's cycle counter and to the counters of cycle events: free values (log 9). -/
def crossingCycles (s : State) (l core : Nat) : State :=
  let v := freeVal s
  let s := { freeNext s with perf.cores := vupd s.perf.cores (l * 16 + core) (fun p => { p with cycles := p.cycles + v }) }
  let ctrls := coreCtrls s core
  (List.range 8).foldl (fun s j =>
    let c := ctrls.getD j 0
    if bit c 10 && cycleEvent (bits c 0 6) then
      let n := freeVal s
      { freeNext s with perf.cores := vupd s.perf.cores (l * 16 + core) (fun p =>
          let x := vget p.pc j 0 + n
          { p with pc := vupd p.pc j (fun _ => x % 2 ^ 48)
                   ovf := if 2 ^ 48 ≤ x then p.ovf ||| BitVec.ofNat 8 (2 ^ j) else p.ovf }) }
    else s) s

/-- A crossing's cycles on every core that is clocked: of a lane that is not being reset, with its shed open. -/
def perfCrossing (s : State) (shut : Nat → Bool) : State :=
  (List.range 48).foldl (fun s n =>
    if (getLane s (n / 16)).resetting || shut (n % 16) then s else crossingCycles s (n / 16) (n % 16)) s

/-! ## Block counters (R480) -/

/-- The indices of the sets that the dies in operation keep (Table 19-4). -/
def blockSets (s : State) : List Nat :=
  [0, 1].flatMap (fun h => if hubUp s h then [0x5381 + h, 0x5385 + h] else [])
    ++ [0, 1].flatMap (fun f => if (vget s.field.dies f {}).failed then [] else [0x5383 + f])

/-- The central reader gathers all block counters: 1 start-up, 2 test, 3 recovery; event 0x2080. -/
def gatherBlocks (s : State) (cause t : Nat) : State :=
  let sets := blockSets s
  let s' := s.perf.blocks.foldl (fun s p =>
    if sets.contains (p.1 / 16777216) then { s with cnt := nset s.cnt p.1 p.2 } else s) s
  let s' := sv (sv s' E.pcBlockTime t) E.pcBlockCause cause
  let sum := ([0x5381, 0x5382].map (fun i => nget s.perf.blocks (ekey i 3 0) 0 + nget s.perf.blocks (ekey i 6 0) 0)).sum
  emitH s' (dutyHub s) t (srcHub (dutyHub s)) 0x2080 0 (u8 cause ++ u8 sets.length ++ u32 sum)

end Sys2Proof.Machine
end

