-- ==== Sys2Proof/Machine/Twin.lean ====
section
/-!
DEFINITION. Twin modules (12): pairing, lease messages, mirror records and catch-up, and the voters' hold limit, which can release
the lease.
-/

namespace Sys2Proof.Machine

/-! ## Taking the lease; hold limit -/

/-- The lease is taken (R320 to R323): HOLDER; the items still queued leave under their sequence numbers, event 0x3047 (R329). -/
def takeLease (s : State) (t : Nat) : State :=
  let s := setLease { s with
    twin.takeAt := none, twin.claimAt := none, twin.homeClaim := false, twin.heldFrom := leaseBoundary t, twin.eH := t + 32000
    twin.longHeard := false } 3 t
  let s := expireShadow s
  let shut := s.twin.shadow.filter (fun x => itemShedShut s x.item)
  let go := s.twin.shadow.filter (fun x => !(itemShedShut s x.item))
  let s := bumps { s with twin.shadow := [] } E.twinShadowDropped E.twinShadowDropped.sub 0 shut.length
  let s := go.foldl (fun s x => transmitItem { s with twin.mark := some (x.k, x.item.num) } x.hub x.item) s
  refreshLease (if go = [] && shut = [] then s else emitL s (srcHub 0) 0x3047 1 (u32 go.length ++ u32 shut.length))

/-- VOTE_HOLD_LIMIT_EXPIRY (R169): a telegram's slot stays empty from then on; in place of hold commands the hub sends safe-state
commands, one in each crossing. A
holder both of whose voters have held so long releases the lease (21 Table 21-5). -/
def execVoteHoldLimitExpiry (hub : Fin 2) (key t : Nat) (s : State) : Out :=
  .next (
    match nget? (getHub s hub.val).voter.holdSince key with
    | none => s
    | some t0 =>
      if t0 + gv s E.voteHoldLimit * 1000000 < t then
        if key = cmdKey then
          let s := updVoter s hub.val (fun v => { v with safeCmd := true })
          let both := [0, 1].all (fun h => (getHub s h).voter.safeCmd || !((getHub s h).voter.inService && hubUp s h))
          if both && holdsLease s then releaseLease { s with twin.noClaim := true } t else s
        else
          let s := updVoter s hub.val (fun v => { v with held := nerase v.held key })
          { s with bb.planes := vupd s.bb.planes hub.val (fun p => { p with
              released := p.released.filter (fun x => !(x.2.stale && heldKey x.2 = key)) }) }
      else s)

/-! ## Link sessions and pairing (R311 to R315) -/

/-- A twin link's session begins or ends: event 0x3042. -/
def linkSession (s : State) (l : Nat) (up : Bool) : State :=
  let was := twinLinkUp s l
  let s := updTLink s l (fun x => { x with session := up, txSeq := if up then x.txSeq else 0, rxSeq := 0, seen := [] })
  let is := twinLinkUp s l
  let s := if was = is then s else emitL s (srcHub (l / 2)) 0x3042 1 (u8 l ++ u8 (b2n was) ++ u8 (b2n is))
  refreshLease s

/-- Send HELLO on a link that has been restored (R314). -/
def twinHelloSend (s : State) (l t : Nat) : State :=
  if gv s E.twinEnable = 1 then
    let f := freeVal s
    let s := updTLink (freeNext s) l (fun x => { x with
      helloSent := true, session := false, txSeq := 0, rxSeq := 0, seen := [], nonce := f % 2 ^ 256 })
    twinSend s l t .twinHello serial40 (gv s E.bbConfigNode)
      (leBytes 32 f ++ leBytes 5 serial40 ++ u8 (gv s E.compatGen) ++ u16 (gv s E.bbConfigNode) ++ u8 (gv s E.twinHome)
        ++ u8 (gv s E.bbCrossingN))
  else s

/-- The pairing check that a HELLO fails (R315), by its place in that rule's list; 5 is its tag. -/
def helloFails (s : State) (m : TwinHello) : Option Nat :=
  let h := gv s E.twinHome
  if !m.tagOk then some 5
  else if m.gen ≠ gv s E.compatGen then some 1
  else if m.node ≠ gv s E.twinPeerNode || m.node / 4 ≠ gv s E.bbConfigNode / 4 then some 2
  else if !((h = 1 && m.home = 2) || (h = 2 && m.home = 1) || (h = 0 && m.home = 0)) then some 3
  else if m.n ≠ gv s E.bbCrossingN then some 4
  else none

/-- A twin message passes R13's sequence rule: its tag verifies and its number is a new one of the link session; else it is discarded
and counted. -/
def twinTake (s : State) (l seq t : Nat) (tagOk : Bool) : Option State :=
  if gv s E.twinEnable ≠ 1 || !(twinLinkUp s l) || !(hubUp s (l / 2)) then none
  else if !tagOk || (getTLink s l).seen.contains seq then none
  else
    some (updTLink { s with twin.heard := t, ilinks := vupd s.ilinks (30 + l) (fun x => { x with lastHeard := t }) } l
      (fun x => { x with rxSeq := seq, seen := seq :: x.seen }))

/-- A twin message on a live session that fails R13 is discarded and counted. -/
def twinDiscard (s : State) (l : Nat) : State :=
  if gv s E.twinEnable = 1 && twinLinkUp s l && hubUp s (l / 2) then
    { s with ilinks := vupd s.ilinks (30 + l) (fun x => { x with discards := x.discards + 1, badNow := true }) }
  else s

/-- What a message does once it is taken, or its discard. -/
def onTwin (s : State) (l seq t : Nat) (tagOk : Bool) (f : State → State) : State :=
  match twinTake s l seq t tagOk with
  | some s => f s
  | none => twinDiscard s l

/-- The salt of the twin keys: the nonce of the lower serial, then that of the higher (R314). -/
def twinSalt (own : Nat) (m : TwinHello) : Nat :=
  if serial40 < m.serial then leNat (leBytes 32 own ++ leBytes 32 m.nonce) else leNat (leBytes 32 m.nonce ++ leBytes 32 own)

/-- The module is paired by a HELLO (R314, R315): event 0x3040; K_tw is derived at the first pairing after start-up. A holder in ALONE
renews again, as HOLDER (log 159). -/
def pairUp (s : State) (l t : Nat) (m : TwinHello) : State :=
  let first := twinLinks s = []
  let salt := twinSalt (getTLink s l).nonce m
  let s := updTLink s l (fun x => { x with key := Config.hkdf (twinKey s) 1 salt })
  let s := if s.twin.keyed then s else { s with agree.kTw := Config.hkdf (twinKey s) 2 salt % 2 ^ 128, twin.keyed := true }
  let s := { s with
    twin.paired := true, twin.hadPair := true, twin.peerSerial := m.serial, twin.peerPlan := m.node, twin.heard := t
    twin.refused := 0, twin.pairedAt := if first then t else s.twin.pairedAt
    twin.catchDue := first || s.twin.catchDue }
  let s := if first then emitL s (srcHub 0) 0x3040 1 (u8 1 ++ u64 m.serial ++ u8 0) else s
  let s := if s.twin.lease = 0 || s.twin.lease = 5 then setLease s 1 t
    else if first && s.twin.lease = 4 then setLease { s with twin.eH := t + 32000 } 3 t
    else s
  linkSession s l true

/-- A HELLO is refused (R315): event 0x3040. The code of the failed check is not stated: a free value (log 6). A module refused on
every link that is not failed is UNPAIRED. -/
def helloRefused (s : State) (l t : Nat) (m : TwinHello) : State :=
  let f := freeVal s
  let s := freeNext s
  let s := emitL s (srcHub 0) 0x3040 1 (u8 2 ++ u64 m.serial ++ u8 (f % 256))
  let s := linkSession { s with twin.refused := setBit s.twin.refused l true } l false
  let all := [0, 1, 2, 3].all (fun i => bit s.twin.refused i || (vget s.ilinks (30 + i) {}).failed)
  if all then refreshLease (setLease s 5 t) else s

/-- TWIN_HELLO (R314, R315). -/
def execTwinHello (link : Fin 4) (seq : Nat) (msg : TwinHello) (t : Nat) (s : State) : Out :=
  let l := link.val
  .next (
    if gv s E.twinEnable ≠ 1 || !(hubUp s (l / 2)) || !s.st.ports || (vget s.ilinks (30 + l) {}).failed then s
    else
      let s := if (getTLink s l).helloSent then s else twinHelloSend s l t
      match helloFails s msg with
      | some _ => helloRefused s l t msg
      | none => updTLink (pairUp s l t msg) l (fun x => { x with rxSeq := seq, seen := [seq] }))

/-- TWIN_KEEPALIVE_SEND (R312): nothing sent on the link for 1 us. -/
def execTwinKeepaliveSend (link : Fin 4) (t : Nat) (s : State) : Out :=
  .next (
    if twinLinkUp s link.val && (getTLink s link.val).lastTx + 1000 ≤ t then twinSend s link.val t .twinKeepalive 0 0 [] else s)

/-! ## Lease messages (R317, R320 to R324) -/

/-- The shadow mark that a RENEW carries (R329). -/
def markBytes (s : State) : List Byte :=
  match s.twin.mark with
  | some (k, i) => u64 k ++ u32 i
  | none => u64 0 ++ u32 0

/-- LEASE_RENEW_SEND (R317, R323): at a lease boundary the HOLDER sends RENEW on every twin link in service; with YIELD it ceases as
it sends. -/
def execLeaseRenewSend (t : Nat) (s : State) : Out :=
  .next (
    if s.twin.lease = 3 && t % 8000 = 0 && twinLinks s ≠ [] then
      let n := s.twin.renewCount + 1
      let y := s.twin.yieldReq
      let s := { s with twin.renewCount := n, twin.renewSent := (nset s.twin.renewSent n t).filter (fun p => n < p.1 + 16) }
      let s := (twinLinks s).foldl (fun s l => twinSend s l t .twinRenew n (b2n y) (u64 t ++ u32 n ++ markBytes s)) s
      if y then refreshLease (ceaseLease s t) else s
    else s)

/-- Items up to the holder's shadow mark leave the shadow queue (R329). -/
def dropMarked (s : State) (k num : Nat) : State :=
  { s with twin.shadow := s.twin.shadow.filter (fun x => k < x.k || (k = x.k && num < x.item.num)) }

/-- A RENEW is taken (R317, R322, R323). -/
def renewTaken (s : State) (l t : Nat) (yields : Bool) (count markK markItem : Nat) : State :=
  if holdsLease s then sendClaim s t
  else
    let s := twinSend s l t .twinAck count 0 (u32 count)
    let s := dropMarked { s with twin.eS := max s.twin.eS (t + 32000) } markK markItem
    let s := if s.twin.lease = 1 then setLease s 2 t else s
    let s := if yields && s.twin.homeClaim then { s with twin.takeAt := some (t + 4000) } else s
    refreshLease s

/-- TWIN_RENEW (R317). -/
def execTwinRenew (link : Fin 4) (seq : Nat) (tagOk : Bool) (_boundary : Nat) (yields : Bool) (count markK markItem t : Nat)
    (s : State) : Out :=
  .next (onTwin s link.val seq t tagOk (fun s => renewTaken s link.val t yields count markK markItem))

/-- TWIN_ACK (R317): the holder's lease end is the send instant of the newest RENEW acknowledged, plus 32 us. -/
def execTwinAck (link : Fin 4) (seq : Nat) (tagOk : Bool) (count t : Nat) (s : State) : Out :=
  .next (onTwin s link.val seq t tagOk (fun s =>
    match nget? s.twin.renewSent count with
    | some t0 => if s.twin.lease = 3 then refreshLease { s with twin.eH := max s.twin.eH (t0 + 32000) } else s
    | none => s))

/-- A CLAIM is taken (R322, R323): the home module's own claim in SHORT mode is answered with YIELD at the holder's next lease
boundary; else the claims are compared. -/
def claimTaken (s : State) (t boundary : Nat) (holding : Bool) : State :=
  if s.twin.lease = 3 && !holding && gv s E.twinHome = 2 && s.twin.mode = 1 then { s with twin.yieldReq := true }
  else
    let own := if holdsLease s then s.twin.heldFrom else s.twin.claimAt.getD (leaseBoundary t)
    if winsClaim s own boundary then
      if holdsLease s then s
      else if s.twin.claimAt.isSome then { s with twin.takeAt := some (max s.twin.claimSent t + 4000) }
      else s
    else if holdsLease s then refreshLease (ceaseLease s t)
    else refreshLease (setLease { s with twin.claimAt := none, twin.takeAt := none } 2 t)

/-- TWIN_CLAIM (R322). -/
def execTwinClaim (link : Fin 4) (seq : Nat) (tagOk : Bool) (boundary : Nat) (holding : Bool) (t : Nat) (s : State) : Out :=
  .next (onTwin s link.val seq t tagOk (fun s => claimTaken s t boundary holding))

/-- TWIN_RELEASE (R321): a holder becomes ALONE; the other module takes the lease 4 us after the first RELEASE arrives. -/
def execTwinRelease (link : Fin 4) (seq : Nat) (tagOk : Bool) (holder : Bool) (t : Nat) (s : State) : Out :=
  .next (onTwin s link.val seq t tagOk (fun s =>
    if holdsLease s then refreshLease (setLease s 4 t)
    else if holder && s.twin.takeAt.isNone && (s.twin.lease = 1 || s.twin.lease = 2) then { s with twin.takeAt := some (t + 4000) }
    else s))

/-- LEASE_CEASE (R320): the holder ceases at E_h − 4 us. ALONE holds without renewal. -/
def execLeaseCease (t : Nat) (s : State) : Out :=
  .next (
    let s := refreshLease s
    if s.twin.lease = 3 && s.twin.end_ ≤ t + 4000 then refreshLease (ceaseLease s t) else s)

/-- LEASE_TAKE (R320 to R323): at the instant set by RELEASE, YIELD or a won claim, or at E_s + 4 us. -/
def execLeaseTake (t : Nat) (s : State) : Out :=
  .next (
    let s := refreshLease s
    let set := s.twin.takeAt.any (· ≤ t)
    let ended := s.twin.lease = 2 && (s.twin.eS ≠ 0 || s.twin.longHeard) && s.twin.end_ + 4000 ≤ t
    if (s.twin.lease = 1 || s.twin.lease = 2) && (set || ended) then takeLease { s with twin.eS := 0 } t else s)

/-- LISTEN_CLAIM_TIMEOUT (R322): in LISTEN, 100 us after pairing, no RENEW has arrived. -/
def execListenClaimTimeout (t : Nat) (s : State) : Out :=
  .next (
    if s.twin.lease = 1 && s.twin.paired && s.twin.pairedAt + 100000 ≤ t && s.twin.claimAt.isNone && !s.twin.noClaim then sendClaim s t
    else s)

/-- ALONE_WAIT_EXPIRY (R322): nothing heard of the twin for TWIN_ALONE_WAIT after start-up or after ceasing; 0 never. -/
def execAloneWaitExpiry (t : Nat) (s : State) : Out :=
  .next (
    let w := gv s E.twinAloneWait * 1000000000
    if w ≠ 0 && (s.twin.lease = 1 || s.twin.lease = 2) && max s.twin.heard s.twin.aloneFrom + w ≤ t then
      let s := setLease { s with twin.heldFrom := leaseBoundary t } 4 t
      refreshLease s
    else s)

/-- The conditions of the revert (R323). -/
def revertOk (s : State) : Bool :=
  gv s E.twinHome = 1 && s.twin.lease = 2 && leaseMode s = 1
    && s.sup.stalls.all (fun p => !p.2.desc.mirrored || p.2.mirrorSt = 2)
    && s.sup.mode ≠ 2 && 2 ≤ (laneSet s).length
    && [0, 1].any (fun h => (getHub s h).voter.inService && hubUp s h)

/-- REVERT_CLAIM (R323): the home module claims once the conditions have held for TWIN_REVERT_DELAY. -/
def execRevertClaim (t : Nat) (s : State) : Out :=
  .next (
    match s.twin.revertSince with
    | none => s
    | some t0 =>
      if revertOk s && t0 + gv s E.twinRevertDelay * 1000000000 ≤ t && !s.twin.homeClaim then
        sendClaim { s with twin.homeClaim := true, twin.noClaim := false } t
      else s)

/-- BACKBONE_CLAIM_COMPARE (R324): a holder without a twin link has accepted HOLDER frames of its twin in two consecutive crossings;
the boundaries count as equal. Event 0x3044; the loser ceases at the next crossing boundary. -/
def execBackboneClaimCompare (_t : Nat) (s : State) : Out :=
  .next (
    if holdsLease s && twinLinks s = [] && 2 ≤ s.twin.foreignHold && s.cyc.k ≤ s.twin.foreignK + 1 then
      let win := winsClaim s 0 0
      let s := { s with twin.foreignHold := 0, twin.ceaseDue := !win }
      emitL s (srcHub 0) 0x3044 2 (u16 (0x0400 + gv s E.twinPeerNode) ++ u8 (if win then 1 else 2))
    else s)

/-- SHADOW_ITEM_EXPIRY (R329). -/
def execShadowItemExpiry (s : State) : Out := .next (expireShadow s)

/-! ## Mirroring (R331 to R336) -/

/-- A copy enters a mirror state: event 0x3045. -/
def setMirror (s : State) (i new : Nat) : State :=
  match getStall? s i with
  | none => s
  | some st =>
    if st.mirrorSt = new then s
    else
      let s := setStall s i { st with mirrorSt := new, catchStart := if new = 4 then some s.cyc.tk else none }
      emitL s (srcStall i) 0x3045 1 (u8 st.mirrorSt ++ u8 new) i

/-- The holder's record of the crossing that ends is complete. -/
def recordComplete (s : State) (x : Nat) : Bool :=
  match s.twin.record with
  | some r => r.complete && r.crossing = x && twinLinks s ≠ []
  | none => false

/-- The K_tw digest of the mirrored stall's activation that ended in the crossing that ends, which was train crossing `x` (R332). -/
def noteTwinDigest (s : State) (x i : Nat) : State :=
  match getStall? s i with
  | some st =>
    if st.desc.mirrored && st.endedK + 1 = s.cyc.k && s.twin.hadPair then
      setStall s i { st with ckTw := some (x, digest s.agree.kTw (ckptBytes i st)) }
    else s
  | none => s

/-- The state of a mirrored copy at a boundary that ends train crossing `x` (R331, R332, R334). -/
def mirrorStep (s : State) (x i : Nat) : State :=
  match getStall? s i with
  | none => s
  | some st =>
    if !st.desc.mirrored then s
    else if holdsLease s then setMirror s i 1
    else
      let ok := recordComplete s x
      let foreign := match s.twin.record with
        | some r => ok && r.codes.any (fun c => c.1 = i && (c.2.1 ≠ st.desc.crc || c.2.2 ≠ codeDigest s st))
        | none => false
      if foreign then setMirror s i 5
      else
        match st.mirrorSt with
        | 2 => if ok then s else setMirror s i 3
        | 4 => if twinLinks s = [] then setMirror s i 3 else s
        | 5 => if ok then setMirror s i 4 else s
        | 3 => if ok then setMirror s i 4 else s
        | _ => setMirror s i 3

/-- A mirrored copy takes what it reads in the crossing that begins (R331, R332). -/
def mirrorFeed (s : State) (i : Nat) : State :=
  match getStall? s i, s.twin.record with
  | some st, some r =>
    if st.desc.mirrored && st.mirrorSt = 2 then
      let res := (r.results.filter (fun x => x.1 = i)).map (fun x => ({ tag := x.2.1, code := x.2.2.1, value := x.2.2.2 } : Outcome1))
      let trg := (r.trigs.filter (fun x => x.1 = i)).map (fun x => trigOf x.2)
      setStall s i { st with
        mirItems := (r.items.filter (fun x => x.stall = i)).foldl (fun m x => nset m x.sub x.bytes) []
        mirResults := st.mirResults ++ res, mirTrigs := st.mirTrigs ++ trg, mirDue := r.due.contains i }
    else s
  | _, _ => s
where
  /-- A trigger entry of 32 bytes (07 Table 07-5). -/
  trigOf (b : List Byte) : TrigEntry :=
    { handle := fieldAt b 0 4, userTag := fieldAt b 4 4, stamp := fieldAt b 8 8, lateness := fieldAt b 16 8
      firings := fieldAt b 24 2, kind := fieldAt b 26 1, flags := fieldAt b 27 1, crossing := fieldAt b 28 4 }

/-- The twin's part of a boundary that ends train crossing `x`: a cease that is due, the lease mode, LEASE_HOLDER (R328), the revert
conditions, and the mirrored copies. -/
def twinBoundary (s : State) (x : Nat) : State :=
  let s := if s.twin.ceaseDue then ceaseLease { s with twin.ceaseDue := false } s.cyc.tk else s
  let s := refreshLease s
  let s := { s with
    twin.leaseFlag := holdsLease s, twin.homeClaim := s.twin.homeClaim && revertOk s
    twin.revertSince := if revertOk s then (match s.twin.revertSince with | some t => some t | none => some s.cyc.tk) else none }
  let ids := s.sup.stalls.map Prod.fst
  let s := ids.foldl (fun s i => mirrorStep (noteTwinDigest s x i) x i) s
  ids.foldl mirrorFeed s

/-- A mirrored stall's copy is in SYNC (Table 12-7). -/
def mirrorInSync (s : State) (i : Nat) : Bool :=
  match getStall? s i with
  | some st => st.mirrorSt == 2
  | none => false

/-- A further copy of the newest record (05 R125): the merge discards it; of the copies of the two hubs HA's stands. -/
def mirrorCopy (s : State) (h : Nat) (r rec : MirrorRec) : State :=
  if h = 0 && s.twin.recordHub = 1 then
    { s with twin.record := some rec, twin.recordHub := 0, twin.recordDup := s.twin.recordDup ++ [(1, r)] }
  else { s with twin.recordDup := s.twin.recordDup ++ [(h, rec)] }

/-- A record that is not the newest: a copy of the newest is kept for the merge, an older one dropped. -/
def mirrorAgain (s : State) (h : Nat) (rec : MirrorRec) : State :=
  match s.twin.record with
  | some r => if r.crossing = rec.crossing then mirrorCopy s h r rec else s
  | none => s

/-- Does the digest that the record of a train crossing carries differ from the copy's own of the activation that ended in the crossing
before (R335)? -/
def twinDiffers (s : State) (x i d : Nat) : Bool :=
  match (getStall? s i).bind (·.ckTw) with
  | some (y, own) => y + 1 = x && own ≠ d
  | none => false

/-- MIRROR_RECORD (R332, R335): kept for the copies of the next crossing, with its sequence numbers, tags, pair-scope writes and
timed actions; a copy in SYNC whose checkpoint differs enters CATCHUP, event 0x3046. -/
def execMirrorRecord (link : Fin 4) (seq : Nat) (tagOk : Bool) (rec : MirrorRec) (t : Nat) (s : State) : Out :=
  .next (onTwin s link.val seq t tagOk (fun s =>
    if holdsLease s then s
    else if s.twin.record.any (fun r => rec.crossing ≤ r.crossing) then mirrorAgain s (link.val / 2) rec
    else
      let s := { s with
        twin.record := some rec, twin.recordHub := link.val / 2, twin.recordDup := []
        twin.peerWrites := s.twin.peerWrites ++ rec.writes.map (fun w => { index := w.1, sub := w.2.1, inst := w.2.2.1, value := w.2.2.2 })
        sup.seqs := rec.seqs.foldl (fun m p => nset m p.1 p.2) s.sup.seqs
        sup.timedDo := s.sup.timedDo ++ rec.timed.map (fun p => { channel := p.1, on := p.2.1, at_ := p.2.2, trig := 1024 }) }
      let s := rec.tags.foldl (fun s p =>
        if mirrorInSync s p.1 then updStall s p.1 (fun st => { st with exec.nextTag := p.2 }) else s) s
      rec.digests.foldl (fun s p =>
        if mirrorInSync s p.1 && twinDiffers s rec.crossing p.1 p.2 then
          setMirror (emitL s (srcStall p.1) 0x3046 2 (u64 s.cyc.k) p.1) p.1 4
        else s) s))

/-- The join of a catch-up (R334): the copy takes the rest of its state and enters SYNC. -/
def catchJoin (s : State) (i : Nat) (c : CatchUp) : State :=
  match getStall? s i with
  | none => s
  | some st =>
    let x := st.exec
    let regs := Vector.ofFn (fun (j : Fin 32) => if j.val = 0 then 0 else c.regs.getD j.val 0)
    setMirror (setStall s i { st with
      exec := { x with regs := regs, pc := c.pc, sw := c.sw, fuel := c.fuel, nextTag := c.nextTag, activations := c.activations }
      first := false }) i 2

/-- CATCHUP (R334): checkpointed state of a copy that catches up; the join comes with at most 128 KiB dirtied. -/
def execCatchup (link : Fin 4) (seq : Nat) (tagOk : Bool) (stall : Nat) (st : CatchUp) (t : Nat) (s : State) : Out :=
  .next (onTwin s link.val seq t tagOk (fun s =>
    match getStall? s stall with
    | none => s
    | some x =>
      if x.mirrorSt ≠ 4 then s
      else
        let ok := fun (a : Nat) => canWrite x.desc a
        let s := updStall s stall (fun y => { y with
          exec.mem := (st.cells.filter (fun c => ok c.1)).foldl (fun m c => mput m c.1 c.2) y.exec.mem })
        if st.join && st.dirty ≤ 131072 then catchJoin s stall st else s))

/-- CATCHUP_TIMEOUT (R334): not joined within 10 s: the copy restarts, in FREE. -/
def execCatchupTimeout (stall : Nat) (s : State) : Out :=
  .next (
    match getStall? s stall with
    | none => s
    | some st =>
      match st.catchStart with
      | none => s
      | some t0 =>
        if st.mirrorSt = 4 && t0 + 10000000000 ≤ s.cyc.tk then setMirror (beginRestart s stall true) stall 3 else s)

/-! ## Entries -/

/-- TWIN_ENABLE (R316, R321): false sends RELEASE and is OFF; true listens. -/
def hTwinEnable : Handler :=
  { eff := fun s w =>
      let s := storeEff E.twinEnable s w
      if w.v = 1 then
        if s.twin.lease = 0 then refreshLease (setLease { s with twin.aloneFrom := s.cyc.tk } 1 s.cyc.tk) else s
      else
        let s := releaseLease s s.cyc.tk
        let s := [0, 1, 2, 3].foldl (fun s l => linkSession s l false) s
        refreshLease (setLease { s with twin.paired := false, twin.hadPair := false, twin.record := none } 0 s.cyc.tk) }

/-- TWIN_ENABLE (R321). -/
def execTwinEnableWrite (ctx v : Nat) (s : State) : Out := .next (writeCmd hTwinEnable E.twinEnable ctx 0x3800 1 v s)

/-- TWIN_DO_PARALLEL (R337): a list with a safety point is refused. -/
def hDoParallel : Handler :=
  { conds := fun s w => refuseIf ((List.range 32).any (fun c => bit w.v c && safetyPoint s false 2 c)) abtAccess 0xFF
    eff := storeEff E.twinDoParallel }

/-- TWIN_DO_PARALLEL (R337). -/
def execTwinDoParallelWrite (ctx v : Nat) (s : State) : Out := .next (writeCmd hDoParallel E.twinDoParallel ctx 0x3800 14 v s)

end Sys2Proof.Machine
end

