-- ==== Sys2Proof/Machine/Journal.lean ====
section
/-!
DEFINITION. The recorder's buffers and journals (17 R417 to R431): the record's bytes, places in a journal, flushing, freezes, and
the exchange between the two journals; and pausing a transfer (18 R451).
-/

namespace Sys2Proof.Machine

/-- The 64 bytes of a record (Table 17-1). -/
def recordBytes (r : Record) : List Byte :=
  let b := u64 r.stamp ++ u32 r.opS ++ u32 r.pwr ++ u16 r.source ++ u16 r.code ++ u8 (r.sev * 16 + r.flags) ++ u8 0
    ++ u16 r.stall ++ recData r.data
  b ++ u32 (crc32c b)

def isClear (r : Record) : Bool := bit r.flags 2

/-- A record of severity INFO to FAULT other than a clear record (R426). -/
def lowRec (r : Record) : Bool := r.sev ≤ 2 && !(isClear r)

/-- The severity by which a record is replaced: a clear record counts as SAFETY (R427). -/
def effSev (r : Record) : Nat := if isClear r then max 3 r.sev else r.sev

/-- Is a record older than another (R419)? Equal stamps and sources are ordered by entry. -/
def olderRec (a b : Record) (ea eb : Nat) : Bool :=
  a.stamp < b.stamp || (a.stamp = b.stamp && (a.source < b.source || (a.source = b.source && ea < eb)))

/-- The lowest slot number from `n` that is free. -/
def freeSlot : Nat → NMap JSlot → Nat
  | n, [] => n
  | n, (k, _) :: rest => if k = n then freeSlot (n + 1) rest else n

/-- The oldest record that is no more severe than a severity (R427), with its slot. -/
def oldestUpTo (slots : NMap JSlot) (sev : Nat) : Option (Nat × JSlot) :=
  slots.foldl (fun best p =>
    if sev < effSev p.2.rec_ then best
    else match best with
      | none => some p
      | some b => if olderRec p.2.rec_ b.2.rec_ p.2.entry b.2.entry then some p else best) none

/-- Slots of a journal (R426). -/
def journalSlots : Nat := 1048576
def journalLow : Nat := 786432

/-- Can only this hub's journal take a record (R429)? -/
def oneHub (s : State) (h : Nat) : Bool := !(hubUp s (1 - h)) || (getHub s (1 - h)).journal.failed || !(hubLinkUp s)

def updJournal (s : State) (h : Nat) (f : Journal → Journal) : State := updHub s h (fun d => { d with journal := f d.journal })

/-- Store a record under a slot number. -/
def putSlot (s : State) (h slot : Nat) (r : Record) : State :=
  updJournal s h (fun j => { j with
    slots := nset j.slots slot { rec_ := r, entry := j.nextEntry }, nextEntry := j.nextEntry + 1 })

/-- A record is written to a journal (R426, R427). -/
def journalPut (s : State) (h : Nat) (r : Record) : State :=
  let j := (getHub s h).journal
  if j.failed then s
  else
    let r := if oneHub s h then { r with flags := r.flags ||| 1 } else r
    let low := (j.slots.filter (fun p => lowRec p.2.rec_)).length
    if j.slots.length < journalSlots && !(lowRec r && journalLow ≤ low) then putSlot s h (freeSlot 0 j.slots) r
    else
      match oldestUpTo j.slots (effSev r) with
      | none => bump s E.recDropped
      | some (k, o) =>
        let s := if o.migrated then s
          else
            let s := bump s E.recLostUnmigrated
            { s with recd.yards := vupd s.recd.yards h (fun y => { y with lost := if y.state = 3 then y.lost else y.lost + 1 }) }
        putSlot s h k r

/-- Flush a hub's buffer to its journal (R424). During a freeze only what R431 lets pass is written. -/
def flushBuffer (s : State) (h : Nat) : State :=
  let b := (getHub s h).buffer
  let go := fun (r : Record) => s.recd.freeze.isNone || 3 ≤ r.sev
  let s := updHub s h (fun d => { d with buffer := b.filter (fun r => !(go r)) })
  (b.filter go).foldl (fun s r => journalPut s h r) s

/-- A full buffer takes a record in place of the oldest of equal or lower severity, or drops it (R424). -/
def bufferTake (s : State) (h : Nat) (r : Record) : State :=
  let b := (getHub s h).buffer
  if b.length < 16384 then updHub s h (fun d => { d with buffer := d.buffer ++ [r] })
  else
    match b.findIdx? (fun x => x.sev ≤ r.sev) with
    | none => bump s E.recDropped
    | some i => updHub (bump s E.recDropped) h (fun d => { d with buffer := d.buffer.eraseIdx i ++ [r] })

/-- A record enters a hub's buffer and, where a trigger holds, the buffer is flushed (R424, R425, R431). -/
def bufferIn (s : State) (h : Nat) (r : Record) : State :=
  let s := bufferTake s h r
  let full := 8192 ≤ (getHub s h).buffer.length
  let go := if s.recd.freeze.isSome then 3 ≤ r.sev else 2 ≤ r.sev || full || s.supply.powerFail.isSome
  if go then flushBuffer s h else s

/-- The hubs in operation flush their buffers. -/
def flushAll (s : State) : State :=
  [0, 1].foldl (fun s h => if hubUp s h then flushBuffer s h else s) s

/-- A freeze ends (R431), with event 0x5005; its cause code is a free value, since no rule numbers the causes. The buffers are
flushed. -/
def endFreeze (s : State) (t : Nat) : State :=
  match s.recd.freeze with
  | none => s
  | some (c, _) =>
    let v := freeVal s
    let s := emitL { freeNext s with recd.freeze := none, recd.freezeEnded := some t } (srcHub 0) 0x5005 0
      (u16 (ctxCode c) ++ u8 2 ++ u8 v)
    flushAll s

/-- Is a record held validly in a journal under the same key and content (R429)? -/
def holdsRec (j : Journal) (r : Record) : Bool :=
  j.slots.any (fun p => !p.2.poisoned && p.2.rec_.stamp = r.stamp && p.2.rec_.source = r.source && p.2.rec_.code = r.code
    && p.2.rec_.data = r.data && p.2.rec_.opS = r.opS)

/-- One hub's side of the exchange (R429): damaged slots are rewritten from the other journal's copy of the same entry, and
ONE_HUB records that only the other holds are copied where there is room. -/
def exchangeFrom (s : State) (h t : Nat) : State :=
  let mine := (getHub s h).journal
  let theirs := (getHub s (1 - h)).journal
  let bad := mine.slots.filter (fun p => p.2.poisoned)
  let good := fun (e : Nat) => theirs.slots.find? (fun p => p.2.entry = e && !p.2.poisoned)
  let repairs := bad.filterMap (fun p => (good p.2.entry).map (fun q => (p.1, q.2)))
  let s := repairs.foldl (fun s p => updJournal s h (fun j => { j with
    slots := nupd j.slots p.1 (fun x => { x with rec_ := p.2.rec_, poisoned := false }) })) s
  let alone := theirs.slots.filter (fun p => bit p.2.rec_.flags 0 && !p.2.poisoned && !(holdsRec (getHub s h).journal p.2.rec_))
  let copied := alone.take (journalSlots - (getHub s h).journal.slots.length)
  let s := copied.foldl (fun s p => journalPut s h p.2.rec_) s
  let s := bumpx s E.recPoisoned E.recPoisoned.idx E.recPoisoned.sub 0 bad.length
  if bad = [] && alone = [] then s
  else emitH s h t (srcHub h) 0x5004 1 (u32 bad.length ++ u32 repairs.length ++ u32 copied.length)

/-- The two hubs compare their journals (R429): at start-up, and when a failed hub or the link between them is restored. -/
def exchangeJournals (s : State) (t : Nat) : State :=
  if hubUp s 0 && hubUp s 1 && hubLinkUp s && !(getHub s 0).journal.failed && !(getHub s 1).journal.failed then
    exchangeFrom (exchangeFrom s 0 t) 1 t
  else s

/-- The open transfer enters PAUSED (18 R451): its package keeps its verified blocks. -/
def pauseTransfer (s : State) : State :=
  match s.upd.transfer with
  | none => s
  | some x => { s with
      upd.paused := true
      upd.loft := nupd s.upd.loft x.pkg (fun p => { p with paused := true }) }

end Sys2Proof.Machine
end

