-- ==== Sys2Proof/Machine/Recorder.lean ====
section
/-!
DEFINITION. The recorder's commands (17): records into buffers, summaries, counters, freeze, clear, readout, and the yards.
-/

namespace Sys2Proof.Machine

/-! ## Records and counters -/

/-- RECORD_RECEIVED (R420, R421): the oldest record on its way to the hub enters its buffer. -/
def execRecordReceived (hub : Fin 2) (s : State) : Out :=
  .next (
    if !(hubUp s hub.val) then s
    else
      match (getHub s hub.val).inflight with
      | [] => s
      | r :: rest =>
        let s := updHub s hub.val (fun d => { d with inflight := rest })
        bufferIn s hub.val (if s.supply.powerFail.isSome then { r with flags := r.flags ||| 8 } else r))

/-- The stall that a source number names, or 0xFFFF. -/
def stallOfSource (src : Nat) : Nat := if 0x100 ≤ src && src ≤ 0x2FF then src - 0x100 else 0xFFFF

/-- The instant at which a suppression run ends: the bucket is full again, or 10 s after the run began (R423). -/
def runEnds (b : Bucket) (r : SuppRun) : Nat := min (r.began + 10000000000) (b.at_ + (20000 - b.tokens) * 100000)

/-- SUPPRESSION_RUN_END (R423): the bucket is full again, or 10 s have passed; a summary record follows. -/
def execSuppressionRunEnd (origin source code t : Nat) (s : State) : Out :=
  .next (
    let t := if origin = 0 then s.cyc.tk else t
    let k := pairKey origin source code
    let b0 := nget (if origin = 0 then s.sup.buckets else s.recd.buckets) k {}
    let b := b0.refill t
    match b.run with
    | none => s
    | some r =>
      if b.tokens < 20000 && t < r.began + 10000000000 then s
      else
        let b := { b with run := none }
        let s := if origin = 0 then { s with sup.buckets := nset s.sup.buckets k b }
          else { s with recd.buckets := nset s.recd.buckets k b }
        deliver s origin
          { stamp := if origin = 0 then t else runEnds b0 r, source := source, code := 0x5001, sev := r.sev, flags := 2, stall := stallOfSource source
            data := recData (u16 code ++ u32 r.count ++ u64 r.first ++ u64 r.last) })

/-- BUFFER_AGE_FLUSH (R424): the oldest buffered record has waited 1 s since its stamp. -/
def execBufferAgeFlush (hub : Fin 2) (t : Nat) (s : State) : Out :=
  .next (
    match (getHub s hub.val).buffer with
    | [] => s
    | r :: _ => if hubUp s hub.val && s.recd.freeze.isNone && r.stamp + 1000000000 ≤ t then flushBuffer s hub.val else s)

/-- The hubs store the operating seconds in force (R421). -/
def storeSeconds (s : State) : State :=
  { s with
    recd.lastStored := s.recd.seconds
    hubs := s.hubs.map (fun d => if d.failed then d else { d with opSeconds := s.recd.seconds }) }

/-- OPERATING_SECOND_TICK (R421): stored every 60 s. -/
def execOperatingSecondTick (s : State) : Out :=
  .next (
    if !(hubUp s 0 || hubUp s 1) then s
    else
      let s := { s with recd.seconds := s.recd.seconds + 1 }
      if s.recd.lastStored + 60 ≤ s.recd.seconds then storeSeconds s else s)

/-- MRAM_WRITE_ERROR (R429): the hub declares its journal failed, event 0x5008. -/
def execMramWriteError (hub : Fin 2) (addr t : Nat) (s : State) : Out :=
  .next (
    if (getHub s hub.val).journal.failed || !(hubUp s hub.val) then s
    else emitH (updJournal s hub.val (fun j => { j with failed := true })) hub.val t (srcHub hub.val) 0x5008 2 (u32 addr))

/-! ## Freeze (R431) -/

/-- REC_FREEZE. -/
def hRecFreeze : Handler :=
  { act := fun w => if w.v = 1 then some (5, 0, 0) else none
    eff := fun s w =>
      if w.v = 1 then
        emitL { s with recd.freeze := some (w.ctx, s.cyc.tk) } (srcHub 0) 0x5005 0 (u16 (ctxCode w.ctx) ++ u8 1 ++ u8 0)
      else
        match s.recd.freeze with
        | some (c, _) => if c = w.ctx then endFreeze s s.cyc.tk else s
        | none => s }

/-- REC_FREEZE = true (R431). -/
def execRecFreezeOn (ctx : Nat) (s : State) : Out := .next (writeCmd hRecFreeze E.recFreeze ctx 0x5000 11 1 s)

/-- REC_FREEZE = false (R431). -/
def execRecFreezeOff (ctx : Nat) (s : State) : Out := .next (writeCmd hRecFreeze E.recFreeze ctx 0x5000 11 0 s)

/-- FREEZE_EXPIRY (R431): 30 s. -/
def execFreezeExpiry (t : Nat) (s : State) : Out :=
  .next (match s.recd.freeze with
    | some (_, t0) => if t0 + 30000000000 ≤ t then endFreeze s t else s
    | none => s)

/-! ## Passwords (18 R466, R467) -/

/-- The characters of a VIS value. -/
def visText (bs : List Byte) : List Byte := bs.takeWhile (· ≠ 0)

/-- Is it the password of a role? An unset password matches nothing. -/
def pwdMatches (s : State) (role : Nat) (txt : List Byte) : Bool :=
  let p := vget s.upd.pwds role {}
  if p.delivered then Config.deliveryPassword role txt else decide (p.hash = some (Config.pbkdf2 txt p.salt))

def updPwd (s : State) (role : Nat) (f : Pwd → Pwd) : State := { s with upd.pwds := vupd s.upd.pwds role f }

/-- A failed password (R467): event 0x1041, and after five in a row the lockout, event 0x1042. -/
def pwdFail (s : State) (role ctx : Nat) : State :=
  let s := updPwd s role (fun p => { p with fails := min 255 (p.fails + 1) })
  let n := (vget s.upd.pwds role {}).fails
  let s := emitL s (srcHub 0) 0x1041 1 (u16 (ctxCode ctx) ++ u8 role ++ u8 n)
  if 5 ≤ n then
    emitL (updPwd s role (fun p => { p with lockedAt := some s.cyc.tk })) (srcHub 0) 0x1042 2 (u8 role ++ u16 (ctxCode ctx))
  else s

/-- A success resets the role's count (R467). -/
def pwdPass (s : State) (role : Nat) : State := updPwd s role (fun p => { p with fails := 0 })

/-- A command that carries a password is held until its derivation completes (R467). -/
def pwdCommand (s : State) (ctx idx sub : Nat) (password : List Byte) : State :=
  if nhas s.sup.ctxs ctx then
    let r : Request := { ctx := ctx, reqId := 0, op := 2, index := idx, sub := sub, elen := 64
                         payload := (password ++ List.replicate 64 0).take 64 }
    { s with upd.jobs := s.upd.jobs ++ [{ since := s.cyc.tk, req := r }] }
  else s

/-! ## Clear (R432 to R434) -/

/-- Has a record been migrated to every yard that is ACTIVE (R433)? -/
def migratedAll (s : State) (h : Nat) (x : JSlot) : Bool :=
  [0, 1].all (fun y =>
    (vget s.recd.yards y {}).state ≠ 3
      || (if y = h then x.migrated
          else (getHub s y).journal.slots.any (fun p => p.2.migrated && p.2.rec_.stamp = x.rec_.stamp
            && p.2.rec_.source = x.rec_.source && p.2.rec_.code = x.rec_.code && p.2.rec_.data = x.rec_.data)))

/-- Does the sweep of a clear empty the record? -/
def swept (s : State) (h point : Nat) (x : JSlot) : Bool :=
  lowRec x.rec_ && x.rec_.stamp ≤ point && migratedAll s h x

/-- The effect of REC_CLEAR: clear point, flush, clear record. -/
def clearEff (s : State) (w : WReq) : State :=
  let s := pwdPass s 2
  let point := s.cyc.tk
  let s := flushAll { s with recd.clearPoint := some (point, w.ctx) }
  let d := dutyHub s
  let n := ((getHub s d).journal.slots.filter (fun p => swept s d point p.2)).length
  let r : Record :=
    { stamp := point, opS := s.recd.seconds, pwr := s.recd.cycles, source := srcHub 0, code := 0x5002, sev := 1, flags := 4
      data := recData (u16 (ctxCode w.ctx) ++ u8 (w.roleIn s) ++ u64 point ++ u32 n) }
  [0, 1].foldl (fun s h => if hubUp s h then journalPut s h r else s) s

/-- REC_CLEAR (R432, R433). -/
def hRecClear : Handler :=
  { conds := fun s w => refuseIf (!(pwdMatches s 2 (visText (leBytes 64 w.v)))) abtAuth 1
    act := fun _ => some (6, 0, 0)
    own := true
    refused := fun s w code => if code = abort abtAuth 1 then pwdFail s 2 w.ctx else s
    eff := clearEff }

/-- REC_CLEAR (R432): the write arrives when the derivation of its password completes. -/
def execRecClear (ctx : Nat) (password : List Byte) (s : State) : Out := .next (pwdCommand s ctx 0x5000 13 password)

/-- CLEAR_SWEEP_COMPLETE (R433): both journals have been swept. -/
def execClearSweepComplete (_t : Nat) (s : State) : Out :=
  .next (
    match s.recd.clearPoint with
    | none => s
    | some (point, _) =>
      let gone := fun (h : Nat) (p : Nat × JSlot) => swept s h point p.2
      let s' := updJournal s 0 (fun j => { j with slots := j.slots.filter (fun p => !(gone 0 p)) })
      let s' := updJournal s' 1 (fun j => { j with slots := j.slots.filter (fun p => !(gone 1 p)) })
      { s' with recd.clearPoint := none })

/-! ## Readout (R430) -/

/-- Insert a slot into a list in the order of R419. -/
def insertRec (x : JSlot) : List JSlot → List JSlot
  | [] => [x]
  | y :: rest => if olderRec x.rec_ y.rec_ x.entry y.entry then x :: y :: rest else y :: insertRec x rest

/-- The valid records of a journal in the order of R419. -/
def sortedRecs (j : Journal) : List JSlot :=
  (j.slots.filter (fun p => !p.2.poisoned)).foldl (fun l p => insertRec p.2 l) []

/-- Records with their ordinals, from 1, among equal stamp and source (R419). -/
def withOrdinals : Nat × Nat × Nat → List JSlot → List (Record × Nat)
  | _, [] => []
  | (t, src, n), x :: rest =>
    let m := if x.rec_.stamp = t && x.rec_.source = src then n + 1 else 1
    (x.rec_, m) :: withOrdinals (x.rec_.stamp, x.rec_.source, m) rest

/-- Does a record lie strictly after a journal cursor? -/
def afterCursor (cur : Nat) (r : Record) (ord : Nat) : Bool :=
  let t := bits cur 0 64
  let src := bits cur 64 16
  let o := bits cur 80 16
  t < r.stamp || (t = r.stamp && (src < r.source || (src = r.source && o < ord)))

/-- May a hub read its yard: its link is up, so the yard is not ABSENT (R439)? -/
def yardReads (s : State) (h : Nat) : Bool := (vget s.recd.yards h {}).linkUp && hubUp s h

/-- The records of a yard with their positions. -/
def yardRecs (y : Yard) : List (Nat × Record) :=
  y.pages.flatMap (fun p => p.2.zipIdx.map (fun x => (p.1 * 64 + x.2 + 1, x.1)))

/-- The records that REC_WINDOW returns to a context. -/
def windowRecs (s : State) (c : Context) : List Record :=
  let scope := bits c.cursor 96 8
  let found := if scope = 0 then
      ((withOrdinals (0, 0, 0) (sortedRecs (getHub s (dutyHub s)).journal)).filter
        (fun p => afterCursor c.cursor p.1 p.2)).map Prod.fst
    else if scope ≤ 2 && yardReads s (scope - 1) then
      ((yardRecs (vget s.recd.yards (scope - 1) {})).filter (fun p => bits c.cursor 0 64 < p.1)).map Prod.snd
    else []
  (found.filter (fun r => c.filter ≤ r.sev)).take 16

/-- The 1024 bytes of REC_WINDOW. -/
def windowBytes (s : State) (ctx : Nat) : List Byte :=
  ((windowRecs s (getCtx s ctx)).flatMap recordBytes ++ List.replicate 1024 0).take 1024

/-- REC_WINDOW_READ (R430). -/
def execRecWindowRead (ctx reqId : Nat) (s : State) : Out :=
  .next (
    if nhas s.sup.ctxs ctx then
      respond s { ctx := ctx, reqId := reqId, op := 1, index := 0x5001, sub := 2, elen := 1024, data := windowBytes s ctx }
    else s)

/-- REC_CURSOR and REC_FILTER are kept by each context (R430). -/
def hRecCursor : Handler :=
  { conds := fun _ w => refuseIf (bits w.v 104 24 ≠ 0) abtRange 1 ++ refuseIf (2 < bits w.v 96 8) abtRange 0
    eff := fun s w => updCtx s w.ctx (fun c => { c with cursor := w.v }) }
def hRecFilter : Handler := { eff := fun s w => updCtx s w.ctx (fun c => { c with filter := w.v }) }

/-! ## The yards (R435 to R440) -/

def getYard (s : State) (h : Nat) : Yard := vget s.recd.yards h {}
def updYard (s : State) (h : Nat) (f : Yard → Yard) : State := { s with recd.yards := vupd s.recd.yards h f }

/-- The STOR shed of a hub (08 Table 08-3). -/
def storShed (h : Nat) : Nat := if h = 0 then 6 else 10

/-- A page write that has not completed is not counted on: its records are still to be migrated (R437). -/
def dropPage (y : Yard) : Yard :=
  if y.inPage = [] then y
  else { y with pages := nupd y.pages y.writePage (fun l => l.take (l.length - y.inPage.length)), inPage := [] }

/-- A yard changes state (R439): event 0x5006; on its return to ACTIVE a gap is reported (R438). -/
def setYard (s : State) (h new status t : Nat) : State :=
  let y := getYard s h
  if y.state = new then s
  else
    let s := updYard s h (fun y => { y with state := new })
    let s := emitH s h t (srcHub h) 0x5006 1 (u8 (h + 1) ++ u8 y.state ++ u8 new ++ u16 status)
    if new = 3 && 0 < y.lost then
      emitH (updYard s h (fun y => { y with lost := 0 })) h t (srcHub h) 0x5007 1 (u8 (h + 1) ++ u8 2 ++ u32 y.lost)
    else s

/-- Pages of the record area. -/
def yardPages (s : State) (h : Nat) : Nat := gvs s E.yardCapacity (3 + h) 0 / 4096

/-- The state that the conditions of Table 17-5 give a yard. -/
def yardWants (s : State) (h : Nat) : Nat :=
  let y := getYard s h
  if !y.linkUp || !(hubUp s h) then 0
  else if y.state = 5 then 5
  else if (getShed s (storShed h)).state ≠ 0 then 6
  else if !y.headerWritten then 1
  else if y.serial ≠ Config.serial && !(y.shared && y.serial = s.twin.peerSerial) then 2
  else if yardPages s h ≤ y.writePage && gv s E.yardWrap = 0 then 4
  else 3

/-- The yards follow their links, sheds and hubs. -/
def refreshYards (s : State) (t : Nat) : State :=
  [0, 1].foldl (fun s h => setYard s h (yardWants s h) 0 t) s

/-- STORAGE_LINK_CHANGE (R436, R439): a link that its shed has powered down reports nothing (08 R224). Up, the newest valid header is taken, and writing resumes after the last page found. -/
def execStorageLinkChange (hub : Fin 2) (up : Bool) (found : YardFound) (t : Nat) (s : State) : Out :=
  .next (
    let h := hub.val
    let d := vget s.shedHub (storShed h) {}
    if (getShed s (storShed h)).state = 2 || ((getShed s (storShed h)).state = 1 && d.stopped) then s
    else if !up then setYard (updYard s h (fun y => { dropPage y with linkUp := false })) h 0 0 t
    else
      let s := { s with shedHub := vupd s.shedHub (storShed h) (fun d => { d with back := true }) }
      let s := svs s E.yardCapacity (3 + h) 0 found.capacity
      let s := updYard s h (fun y =>
        let y := { dropPage y with linkUp := true, errors := 0, state := if y.state = 5 then 0 else y.state }
        match found.header with
        | none => { y with headerWritten := false, pages := [] }
        | some x => { y with
            headerWritten := true, serial := x.serial, format := x.format, headerSeq := x.seq, wraps := x.wraps
            shared := x.shared, writePage := x.page, pageSeq := x.pageSeq
            pages := if x.format = y.format then y.pages else [] })
      setYard s h (yardWants s h) 0 t)

/-- May a hub migrate (R437, R438)? -/
def mayMigrate (s : State) (h : Nat) : Bool :=
  (getYard s h).state = 3 && hubSends s h && s.supply.powerFail.isNone && (getShed s (storShed h)).state = 0
    && (gv s E.twinSharedYard = 0 || holdsLease s)

/-- The records of a journal that wait for migration, in order of entry, oldest first. -/
def waitingRecs (s : State) (h : Nat) : List JSlot :=
  let l := ((getHub s h).journal.slots.filter (fun p => !p.2.migrated && !p.2.poisoned)).map Prod.snd
  l.foldl (fun acc x => ins x acc) []
where
  /-- Insert in order of entry. -/
  ins (x : JSlot) : List JSlot → List JSlot
    | [] => [x]
    | y :: rest => if x.entry < y.entry then x :: y :: rest else y :: ins x rest

/-- Bytes closed by their CRC-32C. -/
def withCrc (b : List Byte) : List Byte := b ++ u32 (crc32c b)

/-- The header of a page (17 Table 17-4). -/
def pageHead (y : Yard) (h records : Nat) : List Byte :=
  withCrc (u64 y.pageSeq ++ digits 12 Config.serial ++ u32 y.format ++ u8 records ++ u8 (h + 1) ++ List.replicate 34 0)

/-- The 4 KiB of a page: its header and 63 record positions. -/
def pageBytes (y : Yard) (h : Nat) (recs : List Record) : List Byte :=
  (pageHead y h recs.length ++ recs.flatMap recordBytes ++ List.replicate 4096 0).take 4096

/-- The header of a yard (17 Table 17-3). -/
def yardHead (y : Yard) (capacity : Nat) : List Byte :=
  withCrc (u32 0x59415244 ++ u16 1 ++ u16 0 ++ digits 12 y.serial ++ u32 y.format ++ u64 y.headerSeq ++ u64 capacity ++ u64 y.writePage
    ++ u32 y.wraps ++ u8 (b2n y.shared) ++ List.replicate 7 0)

/-- A copy of the header is written (R436): copy 0 for an even header sequence, copy 1 for an odd one. -/
def sendYardHeader (s : State) (h seq : Nat) : State :=
  let y := { getYard s h with headerSeq := seq }
  send s { kind := .yardHeader, port := h + 1, a := seq, b := y.writePage, c := y.wraps
           data := yardHead y (gvs s E.yardCapacity (3 + h) 0) }

/-- MIGRATION_PAGE_WRITE (R437): 63 records wait, or the oldest has waited 10 s. A partly filled page is rewritten as it fills. -/
def execMigrationPageWrite (hub : Fin 2) (t : Nat) (s : State) : Out :=
  .next (
    let h := hub.val
    let wait := waitingRecs s h
    let old := match wait with
      | x :: _ => x.rec_.stamp + 10000000000 ≤ t
      | [] => false
    let y := getYard s h
    if !(mayMigrate s h) || y.inPage ≠ [] || !(63 ≤ wait.length || old) then s
    else
      let page := if yardPages s h ≤ y.writePage then 0 else y.writePage
      let had := nget y.pages page []
      let had := if had.length < 63 && page = y.writePage then had else []
      let new := wait.take (63 - had.length)
      let recs := had ++ new.map (·.rec_)
      let wrap := yardPages s h ≤ y.writePage
      let s := updYard s h (fun y => { y with
        pages := nset y.pages page recs, writePage := page, inPage := new.map (·.entry)
        wraps := if wrap then y.wraps + 1 else y.wraps })
      let s := if wrap then
          let v := freeVal s
          emitH (freeNext s) h t (srcHub h) 0x5007 1 (u8 (h + 1) ++ u8 1 ++ u32 v)
        else s
      send s { kind := .yardPage, port := h + 1, a := page, b := y.pageSeq, c := recs.length, data := pageBytes y h recs })

/-- YARD_WRITE_COMPLETE (R437): the records of the page are marked migrated; after a full page writing goes on with the next. -/
def execYardWriteComplete (hub : Fin 2) (t : Nat) (s : State) : Out :=
  .next (
    let h := hub.val
    let y := getYard s h
    if y.inPage = [] || !(hubUp s h) then s
    else
      let n := y.inPage.length
      let s := updJournal s h (fun j => { j with
        slots := j.slots.map (fun p => (p.1, { p.2 with migrated := p.2.migrated || y.inPage.contains p.2.entry })) })
      let full := 63 ≤ (nget y.pages y.writePage []).length
      let s := updYard s h (fun y => { y with
        inPage := [], errors := 0
        writePage := if full then y.writePage + 1 else y.writePage
        pageSeq := if full then y.pageSeq + 1 else y.pageSeq })
      let s := bumps s E.yardWritten (7 + h) 0 n
      setYard s h (yardWants s h) 0 t)

/-- YARD_HEADER_WRITE (R436): the two copies in turn, at most once per second. -/
def execYardHeaderWrite (hub : Fin 2) (t : Nat) (s : State) : Out :=
  .next (
    let h := hub.val
    let y := getYard s h
    if mayMigrate s h && y.lastHeader + 1000000000 ≤ t then
      let s := updYard s h (fun y => { y with lastHeader := t, headerSeq := y.headerSeq + 1, headerWritten := true })
      sendYardHeader s h (y.headerSeq + 1)
    else s)

/-- YARD_COMMAND_ERROR (R439): the third error in a row, or a write time-out, makes the yard FAILED. -/
def execYardCommandError (hub : Fin 2) (status : Nat) (timeout : Bool) (t : Nat) (s : State) : Out :=
  .next (
    let h := hub.val
    if !(hubUp s h) || !(getYard s h).linkUp then s
    else
      let s := updYard s h (fun y => { dropPage y with errors := y.errors + 1 })
      if timeout || 3 ≤ (getYard s h).errors then setYard s h 5 status t else s)

/-- YARD_HEALTH_POLL (R440): the logs are read into YARD_HEALTH. -/
def execYardHealthPoll (hub : Fin 2) (health t : Nat) (s : State) : Out :=
  .next (
    if hubSends s hub.val && (getYard s hub.val).linkUp then
      send (svs s E.yardHealth (9 + hub.val) 0 health) { kind := .nvme, port := hub.val + 1, a := 2, b := t }
    else s)

/-- YARD_FORMAT (R439): in STOP only, a new format id, both header copies, write page 0. -/
def hYardFormat : Handler :=
  { conds := fun s w =>
      let st := (getYard s (w.v - 1)).state
      refuseIf ((w.v = 1 || w.v = 2) && (s.sup.mode ≠ 2 || !(st = 1 || st = 2 || st = 3 || st = 4))) abtState 3
    eff := fun s w =>
      let h := w.v - 1
      let v := freeVal s
      let s := updYard (freeNext s) h (fun y => { y with
        format := v % 2 ^ 32, serial := Config.serial, headerSeq := y.headerSeq + 2, headerWritten := true, writePage := 0
        wraps := 0, pages := [], inPage := [], shared := gv s E.twinSharedYard = 1 })
      let y := getYard s h
      let s := if hubSends s h then sendYardHeader (sendYardHeader s h (y.headerSeq - 1)) h y.headerSeq else s
      setYard s h (yardWants s h) 0 s.cyc.tk }

/-- YARD_FORMAT (R439). -/
def execYardFormat (ctx v : Nat) (s : State) : Out := .next (writeCmd hYardFormat E.yardFormat ctx 0x5011 2 v s)

end Sys2Proof.Machine
end

