-- ==== Sys2Proof/Machine/Sessions.lean ====
section
/-!
DEFINITION. Consist ports and secure sessions (11): frames at the ports, ARP and ICMP, the handshake, protected records and their
replay windows, rekeying, and the opening and closing of sessions.
-/

namespace Sys2Proof.Machine

def getSess? (s : State) (n : Nat) : Option Session := nget? s.con.sessions n
def updSess (s : State) (n : Nat) (f : Session → Session) : State := { s with con.sessions := nupd s.con.sessions n f }

/-- The number under which the service-port session is held. -/
def svcSession : Nat := 0xFFFE

/-- The session that a record of a port belongs to (18 R443). -/
def recSession (port n : Nat) : Nat := if port = 16 then svcSession else n

/-- The hub of a port; the service port is at the hub that serves it (R287, 18 R443). -/
def portHub (s : State) (port : Nat) : Nat := if port = 16 then s.con.svcHub else port / 8

/-- PORT_STATE (11 Table 11-9). -/
def portState (s : State) (port : Nat) : Nat :=
  if (getShed s (portShed port)).state ≠ 0 then 2
  else if (vget s.con.ports port {}).blockLock && !(vget s.con.ports port {}).los then 1 else 0

/-- Does a port receive? Ports open at the end of start-up: the service port always, the consist ports except in recovery (20 R486,
R489, R493). A port of a CLOSING shed receives until its receivers stop (08 R224). -/
def portUp (s : State) (port : Nat) : Bool :=
  hubUp s (portHub s port) && (if port = 16 then s.st.phase = 10 else s.st.ports) &&
    (port = 16 || (((getShed s (portShed port)).state = 0
        || ((getShed s (portShed port)).state = 1 && !(vget s.shedHub (portShed port) {}).stopped))
      && (vget s.con.ports port {}).blockLock && !(vget s.con.ports port {}).los))

/-- The endpoint's IPv4 address on a port's network; 0 for none (R288). -/
def endpointIp (s : State) (port : Nat) : Nat :=
  if port = 16 then gv s E.svcIp else gvs s E.conIp (2 + port / 8) 0

/-- The endpoint's VLAN on a port's network. -/
def endpointVlan (s : State) (port : Nat) : Nat := gvs s E.conVlan (4 + port / 8) 0

/-! ## Frames at the ports (R288 to R290) -/

/-- The VIDs of PORT_VLANS. -/
def portVlans (s : State) (port : Nat) : List Nat :=
  let v := gvi s E.portVlans port
  ((List.range 8).map (fun i => bits v (16 * i) 16)).filter (· ≠ 0)

/-- Is a port a member of a VLAN? -/
def memberOf (s : State) (port vid : Nat) : Bool := gvi s E.portPvid port = vid || (portVlans s port).contains vid

/-- A frame that a port discards. -/
def discard (s : State) (port : Nat) : State := bumpi s E.portDiscards port

/-- Learn a source address (R289). -/
def learn (s : State) (h port mac t : Nat) : State :=
  let tab := (getHub s h).macs
  if tab.any (fun e => e.mac = mac) then
    updHub s h (fun d => { d with macs := d.macs.map (fun e => if e.mac = mac then { e with port := port, at_ := t } else e) })
  else if 8192 ≤ tab.length then bump s E.conMacFull
  else updHub s h (fun d => { d with macs := d.macs ++ [{ mac := mac, port := port, at_ := t }] })

/-- The ports to which a frame is forwarded (R289). -/
def forwardTo (s : State) (h port vid dst : Nat) : List Nat :=
  let outs := (List.range 8).map (fun i => 8 * h + i)
  let ok := outs.filter (fun p => p ≠ port && gvi s E.portTransit p = 1 && memberOf s p vid && portState s p = 1)
  match (getHub s h).macs.find? (fun e => e.mac = dst) with
  | some e => if dst / 2 ^ 40 % 2 = 1 then ok else ok.filter (· = e.port)
  | none => ok

/-- A frame leaves by a port, untagged in the PVID and tagged in every other VLAN. -/
def forward (s : State) (fr : EthFrame) (vid port : Nat) : State :=
  if !(hubSends s (port / 8)) then s
  else send (bumpi s E.portTxFrames port)
    { kind := .ethFrame, port := port, a := fr.dst, b := fr.src, c := if gvi s E.portPvid port = vid then 0 else vid }

/-- Does the endpoint terminate what a frame carries (R290)? -/
def terminates (s : State) (port : Nat) (fr : EthFrame) : Bool :=
  let mine := fr.dstIp = endpointIp s port
  (fr.ethertype = 0x0806 && fr.op = 1 && mine) ||
    (fr.ethertype = 0x0800 && !fr.fragmented && !fr.options
      && ((fr.proto = 1 && fr.op = 8 && mine) || (fr.proto = 17 && fr.dstUdp = 47110 && mine)
        || (fr.proto = 17 && fr.dstUdp = 17224 && (mine || 0xE0000000 ≤ fr.dstIp))))

/-- PORT_FRAME_RECEIVED (R288 to R290): what a frame addressed to the endpoint holds has its effect by the commands of its
content. -/
def execPortFrameReceived (port : Fin 16) (fr : EthFrame) (s : State) : Out :=
  let p := port.val
  let h := p / 8
  .next (
    if !(portUp s p) then s
    else
      let s := bumpi s E.portRxFrames p
      if fr.badTag || !fr.fcsOk || fr.len < 64 || 9216 < fr.len then discard s p
      else
        let vid := match fr.vid with
          | some v => if v = 0 then gvi s E.portPvid p else v
          | none => gvi s E.portPvid p
        if !(memberOf s p vid) then discard s p
        else
          let own := fr.dst = Config.mac h
          let group := fr.dst / 2 ^ 40 % 2 = 1
          let s := if (own || group) && endpointIp s p ≠ 0 && vid = endpointVlan s p && !(terminates s p fr) && own then discard s p
            else s
          if !own && gvi s E.portTransit p = 1 then
            let s := learn s h p fr.src fr.t
            (forwardTo s h p vid fr.dst).foldl (fun s q => forward s fr vid q) s
          else s)

/-- MAC_AGEING (R289): an entry not refreshed for 300 s. -/
def execMacAgeing (hub : Fin 2) (mac t : Nat) (s : State) : Out :=
  .next (updHub s hub.val (fun d => { d with macs := d.macs.filter (fun e => !(e.mac = mac && e.at_ + 300000000000 ≤ t)) }))

/-- Does a request reach the endpoint of its port's network? -/
def reachesEndpoint (s : State) (port ip : Nat) : Bool := portUp s port && ip ≠ 0 && ip = endpointIp s port

/-- ARP_REQUEST (R290). -/
def execArpRequest (port : Fin 17) (ip mac vlan : Nat) (s : State) : Out :=
  let p := port.val
  .next (
    if reachesEndpoint s p ip && (p = 16 || (vlan = endpointVlan s p && hubSends s (p / 8))) then
      send (if p < 16 then bumpi s E.portTxFrames p else s) { kind := .arpReply, port := p, a := ip, b := mac, c := vlan }
    else s)

/-- ICMP_ECHO_REQUEST (R290): up to 100 answers per second per hub. -/
def execIcmpEchoRequest (port : Fin 17) (ip src : Nat) (data : List Byte) (t : Nat) (s : State) : Out :=
  let p := port.val
  let h := portHub s p
  .next (
    if reachesEndpoint s p ip && (p = 16 || hubSends s (p / 8)) then
      let l := (nget s.con.icmp h []).filter (fun x => t < x + 1000000000)
      if 100 ≤ l.length then { s with con.icmp := nset s.con.icmp h l }
      else
        let s := { s with con.icmp := nset s.con.icmp h (t :: l) }
        send (if p < 16 then bumpi s E.portTxFrames p else s) { kind := .icmpReply, port := p, a := src, data := data }
    else s)

/-- CONSIST_PORT_LINK_CHANGE (R287): block lock and LOS of a port. A port whose shed is not OPEN stays down. -/
def execConsistPortLinkChange (port : Fin 16) (lock los : Bool) (s : State) : Out :=
  let i := portShed port.val
  let down := (getShed s i).state = 2 || ((getShed s i).state = 1 && (vget s.shedHub i {}).stopped)
  .next { s with con.ports := vupd s.con.ports port.val (fun x => { x with blockLock := lock && !down, los := los }) }

/-! ## Closing a context (02 R35) -/

/-- A context ends: its select values and role are lost, its outstanding requests are discarded, a safety edit and a freeze of its
own end, and a service-port session's transfer pauses (15 R397, 17 R431, 18 R451). -/
def endContext (s : State) (ctx : Nat) : State :=
  let s := closeEdit s ctx
  let s := match s.recd.freeze with
    | some (c, _) => if c = ctx then endFreeze s s.cyc.tk else s
    | none => s
  let s := if ctx = 0 then pauseTransfer s else s
  { s with
    sup.ctxs := nerase s.sup.ctxs ctx
    sup.reqs := s.sup.reqs.filter (fun r => r.ctx ≠ ctx)
    sup.resps := s.sup.resps.filter (fun r => r.ctx ≠ ctx)
    agree.affected := s.agree.affected.filter (fun r => r.ctx ≠ ctx)
    upd.jobs := s.upd.jobs.filter (fun j => j.req.ctx ≠ ctx) }

/-- Does the hub that numbers control records and runs handshakes reach the network of a hub: its own, or over the hub-to-hub
link (R295, R297)? -/
def reachesNet (s : State) (h : Nat) : Bool := h = dutyHub s || hubLinkUp s

/-- A record of the hub series leaves on every network that has a path: the hub that numbers it hands it to the other over the
hub-to-hub link (R295). -/
def hubRecord (s : State) (n t ty : Nat) (data : List Byte := []) : State :=
  match getSess? s n with
  | none => s
  | some e =>
    let seq := e.hubSeq + 1
    let s := updSess s n (fun e => { sealRec e t with hubSeq := seq })
    [e.pathA, e.pathB].foldl (fun s p => match p with
      | some q =>
        if !(portSends s q.port) || !(reachesNet s (portHub s q.port)) then s
        else send (if q.port < 16 then bumpi s E.portTxFrames q.port else s) { kind := .sessionRecord, port := q.port, a := n, b := seq, c := ty * 4 + e.phase, data := sessRecord s n ty seq data }
      | none => s) s

/-- A session closes (R306): for every cause but 1 and 2 the module sends CLOSE. Event 0x3031. -/
def closeSession (s : State) (n cause : Nat) : State :=
  match getSess? s n with
  | none => s
  | some e =>
    let s := if cause = 1 || cause = 2 then s else hubRecord s n s.cyc.tk 0x13
    let s := emitL s (srcHub 0) 0x3031 0 (u16 n ++ u8 cause ++ leBytes 16 e.fp)
    endContext { s with con.sessions := nerase s.con.sessions n } (sessCtx n)

/-- A record of another version is discarded and counted (11 Table 11-1), in PORT_DISCARDS where its port has one (log 158). -/
def otherVersion (s : State) (port : Nat) : State := if port < 16 then discard s port else s

/-! ## The handshake (R291, R297 to R300) -/

/-- The hub that runs handshakes: HA, or HB while HA is failed. -/
def hsHub (s : State) : Nat := dutyHub s

def getHs? (s : State) (id : Nat) : Option Handshake := nget? s.con.handshakes id
def updHs (s : State) (id : Nat) (f : Handshake → Handshake) : State := { s with con.handshakes := nupd s.con.handshakes id f }

/-- The record type of a handshake message of the module, and the session number in its header (11 Tables 11-1, 11-2). -/
def hsHead (h : Handshake) : EgKind → Nat × Nat
  | .handshakeAnswer => (0x02, h.number.getD 0xFFFF)
  | .handshakeReady => (0x04, h.number.getD 0xFFFF)
  | _ => (0x05, if h.finish then h.number.getD 0xFFFF else 0xFFFF)

/-- The fragments of a handshake message (R297), each with its header: at most CON_MTU − 44 body bytes. -/
def hsFragments (s : State) (id : Nat) (h : Handshake) (kind : EgKind) (body : List Byte) : List (List Byte) :=
  let m := gv s E.conMtu - 44
  let n := max 1 ((body.length + m - 1) / m)
  (List.range n).map (fun j =>
    let part := (body.drop (m * j)).take m
    sessHead (hsHead h kind).1 (hsHead h kind).2 0 (16 * j + (n - 1)) part.length id ++ part)

/-- A handshake message leaves on each network from which a fragment of the HELLO arrived. -/
def hsSend (s : State) (id : Nat) (h : Handshake) (kind : EgKind) (code : Nat) (body : List Byte) : State :=
  [0, 1].foldl (fun s n =>
    if bit h.nets n && (h.service || (hubSends s n && reachesNet s n)) then
      (hsFragments s id h kind body).foldl (fun s d =>
        send s { kind := kind, port := if h.service then 16 else n, a := id, b := code, data := d }) s
    else s) s

/-- A handshake ends without a session: its number is released. -/
def dropHandshake (s : State) (id : Nat) : State :=
  match getHs? s id with
  | none => s
  | some h =>
    let s := match h.number with
      | some n =>
        (match getSess? s n with
         | some e => if e.state = 1 then { s with con.sessions := nerase s.con.sessions n } else s
         | none => s)
      | none => s
    { s with con.handshakes := nerase s.con.handshakes id }

/-- REFUSE (R300, 11 Table 11-6): counted, recorded as event 0x3032, and sent. -/
def refuseHs (s : State) (id port code reason fp : Nat) : State :=
  match getHs? s id with
  | none => s
  | some h =>
    let s := bump s E.sessRefused
    let s := emitL s (srcHub 0) 0x3032 1 (u32 code ++ u8 reason ++ leBytes 16 fp ++ u8 port)
    let s := hsSend s id h .handshakeRefuse code (beBytes 4 code ++ u8 reason)
    dropHandshake s id

/-- The fingerprints and numbers of the reservation entries in effect. -/
def reservations (s : State) : List (Nat × Nat) :=
  (s.con.reserve.map Prod.snd).filterMap (fun v => if v = 0 then none else some (v % 2 ^ 128, bits v 128 16))

/-- Is a fingerprint denied? -/
def denied (s : State) (fp : Nat) : Bool := s.con.deny.any (fun p => p.2 ≠ 0 && p.2 = fp)

/-- The session number that a fingerprint receives (R291); none where none is available. -/
def assignNumber (s : State) (fp : Nat) : Option Nat :=
  let held := (s.con.sessions.filter (fun p => p.1 ≠ svcSession)).length
  match (reservations s).find? (fun r => r.1 = fp) with
  | some (_, n) =>
    match getSess? s n with
    | none => if 4096 ≤ held then none else some n
    | some e => if 2 ≤ e.state && e.fp = fp && held < 4096 then some n else none
  | none =>
    if 4096 ≤ held then none
    else (List.range 4096).find? (fun n => !(nhas s.con.sessions n) && !((reservations s).any (fun r => r.2 = n)))

/-- The CA slot that anchors a chain (R299, 18 R463): a slot whose usage fits and whose certificate the chain leads to. -/
def anchorOf (s : State) (service : Bool) (root : List Byte) : Option Nat :=
  (List.range 8).find? (fun i =>
    let c := vget s.upd.cas i {}
    c.cert ≠ [] && bit c.usage (if service then 1 else 0) && c.cert = root)

/-- UTC in ns at an instant (07 R191). -/
def utcAt (s : State) (t : Nat) : Int := (t : Int) + s.sup.tp.utcOffset

/-- Is a time within a validity? -/
def withinValidity (s : State) (t notBefore notAfter : Nat) : Bool :=
  (notBefore : Int) ≤ utcAt s t && utcAt s t ≤ (notAfter : Int)

/-- The body of ANSWER (11 Table 11-3) for free nonce and shares: nonce, session number, shares, the module's chain and its signature
(log 8). -/
def answerBody (n nonce free : Nat) : List Byte :=
  let b := leBytes 32 free ++ beBytes 2 n ++ leBytes 1185 (free / 2 ^ 256) ++ Config.moduleChain
  let sig := Config.moduleSign (Config.sha384 (leBytes 32 nonce ++ b))
  b ++ beBytes 2 sig.length ++ sig

/-- A completed HELLO is judged (R297 to R300). The module's shares, nonce and keys are free values (log 6, log 8). -/
def judgeHello (s : State) (id port t : Nat) (hs : HelloMsg) : State :=
  let service := port = 16
  if !hs.formed then refuseHs s id port 0x04000002 0 0
  else if service && ((getSess? s svcSession).isSome || s.con.handshakes.any (fun p => p.1 ≠ id && p.2.service && p.2.number.isSome)) then
    refuseHs s id port 0x08000001 0 hs.fp
  else if !hs.supported then refuseHs s id port 0x0B000003 5 hs.fp
  else if denied s hs.fp then refuseHs s id port 0x0B000003 4 hs.fp
  else
    match anchorOf s service hs.root with
    | none => refuseHs s id port 0x0B000003 2 hs.fp
    | some slot =>
      if !hs.chainOk then refuseHs s id port 0x0B000003 2 hs.fp
      else if s.sup.tp.utcValid && !(withinValidity s t hs.notBefore hs.notAfter) then refuseHs s id port 0x0B000003 3 hs.fp
      else
        let s := s.con.handshakes.foldl (fun s p =>
          if p.1 ≠ id && p.2.number.isSome && !p.2.done && p.2.fp = hs.fp then dropHandshake s p.1 else s) s
        match (if service then some svcSession else assignNumber s hs.fp) with
        | none => refuseHs s id port 0x08000001 0 hs.fp
        | some n =>
          let secret := Config.hkdf hs.share (freeVal s) hs.nonce
          let s := freeNext s
          let ans := answerBody n hs.nonce (freeVal s)
          let s := freeNext s
          let s := updHs s id (fun h => { h with
            number := some n, fp := hs.fp, secret := secret, anchor := slot, undated := !s.sup.tp.utcValid
            valid := some (hs.notBefore, hs.notAfter), finish := true, frags := [], answered := ans, service := service })
          let s := if nhas s.con.sessions n then s
            else
              let e : Session := { state := 1, fp := hs.fp, anchor := slot, reserved := (reservations s).any (fun r => r.2 = n) }
              { s with con.sessions := nset s.con.sessions n e }
          match getHs? s id with
          | some h => hsSend s id h .handshakeAnswer 0 ans
          | none => s

/-- Is a fragment within its set: index, count and length (R297)? -/
def fragmentOk (s : State) (f : Fragment) (count : Nat) : Bool :=
  f.data.length ≤ gv s E.conMtu - 44 && f.count = count && f.num < count && 1 ≤ count && count ≤ 16

/-- HELLO (R297): a fragment is taken; the last one has the HELLO judged. A HELLO repeated after its ANSWER is answered again at the fragment
with its last index (log 157). -/
def helloArrives (s : State) (id port t : Nat) (f : Fragment) (hs : HelloMsg) : State :=
  let net := if port = 16 then 0 else port / 8
  match getHs? s id with
  | some h =>
    if h.number.isSome then
      let h := { h with nets := setBit h.nets net true }
      let s := updHs s id (fun _ => h)
      if f.num + 1 = f.count then hsSend s id h .handshakeAnswer 0 h.answered else s
    else
      let s := updHs s id (fun h => { h with nets := setBit h.nets net true })
      if !(fragmentOk s f h.count) then refuseHs s id port 0x04000002 0 0
      else
        let m := nset h.frags f.num f.data
        let s := updHs s id (fun h => { h with frags := m })
        if m.length = h.count then judgeHello s id port t hs else s
  | none =>
    if 64 ≤ s.con.handshakes.length then
      let s := bump s E.sessHsDropped
      let n := s.con.hsDropped + 1
      let (ok, s) := emitJ s 0 s.cyc.tk (srcHub 0) 0x3035 1 (u32 n) 0xFFFF
      { s with con.hsDropped := if ok then 0 else n }
    else
      let h : Handshake := { since := t, fragSince := t, count := f.count, nets := 2 ^ net, service := port = 16,
                             frags := [(f.num, f.data)] }
      let s := { s with con.handshakes := nset s.con.handshakes id h }
      if id = 0 || !(fragmentOk s f f.count) then refuseHs s id port 0x04000002 0 0
      else if f.count = 1 then judgeHello s id port t hs
      else s

/-- HELLO (R297). -/
def execHello (port : Fin 17) (id : Nat) (frag : Fragment) (hs : HelloMsg) (t : Nat) (s : State) : Out :=
  .next (
    if !(portUp s port.val) || endpointIp s port.val = 0 then s
    else if frag.version ≠ 1 then otherVersion s port.val
    else if port.val = 16 || reachesNet s (port.val / 8) then helloArrives s id port.val t frag hs
    else s)

/-- A completed FINISH (R297, R298): READY, or REFUSE and the number released. -/
def judgeFinish (s : State) (id port : Nat) (fin : FinishMsg) : State :=
  match getHs? s id with
  | none => s
  | some h =>
    if !fin.formed then refuseHs s id port 0x04000002 0 h.fp
    else if !fin.ok then refuseHs s id port 0x0B000003 1 h.fp
    else
      let ready := leBytes 16 (freeVal s)
      let s := updHs (freeNext s) id (fun h => { h with done := true, frags := [], ready := ready })
      hsSend s id h .handshakeReady 0 ready

/-- FINISH (R297, R298). -/
def execFinish (port : Fin 17) (id : Nat) (frag : Fragment) (fin : FinishMsg) (t : Nat) (s : State) : Out :=
  let p := port.val
  .next (
    match getHs? s id with
    | none => s
    | some h =>
      if !(portUp s p) || !(p = 16 || reachesNet s (p / 8)) || h.number.isNone then s
      else if frag.version ≠ 1 then otherVersion s p
      else if h.done then (if frag.num + 1 = frag.count then hsSend s id h .handshakeReady 0 h.ready else s)
      else
        let first := h.frags = []
        let count := if first then frag.count else h.count
        let s := updHs s id (fun h => { h with count := count, fragSince := if first then t else h.fragSince })
        if !(fragmentOk s frag count) then refuseHs s id p 0x04000002 0 h.fp
        else
          let m := nset h.frags frag.num frag.data
          let s := updHs s id (fun h => { h with frags := m })
          if m.length = count then judgeFinish s id p fin else s)

/-- FRAGMENT_TIMEOUT (R297): a set still incomplete 1 s after its first fragment. -/
def execFragmentTimeout (id t : Nat) (s : State) : Out :=
  .next (
    match getHs? s id with
    | none => s
    | some h =>
      if h.frags = [] || t < h.fragSince + 1000000000 then s
      else if h.number.isNone then { s with con.handshakes := nerase s.con.handshakes id }
      else updHs s id (fun h => { h with frags := [] }))

/-- HANDSHAKE_TIMEOUT (R297): not at step 4 within 5 s. -/
def execHandshakeTimeout (id t : Nat) (s : State) : Out :=
  .next (
    match getHs? s id with
    | none => s
    | some h => if !h.done && h.since + 5000000000 ≤ t then dropHandshake s id else s)

/-- A session whose READY has left opens as a context (R297 step 5): an earlier session of the number closes with cause 4. -/
def openSession (s : State) (id : Nat) (h : Handshake) : State :=
  match h.number with
  | none => s
  | some n =>
    let s := match getSess? s n with
      | some e => if 2 ≤ e.state then closeSession s n 4 else s
      | none => s
    let e : Session :=
      { state := 2, fp := h.fp, anchor := h.anchor, undated := h.undated || !s.sup.tp.utcValid, reserved := (reservations s).any (fun r => r.2 = n)
        opened := s.cyc.tk, secrets := [(0, h.secret)], phaseBegan := s.cyc.tk, lastRx := s.cyc.tk, lastTx := s.cyc.tk
        notBefore := h.valid.map Prod.fst, notAfter := h.valid.map Prod.snd }
    let s := { s with con.sessions := nset s.con.sessions n e, con.handshakes := nerase s.con.handshakes id,
                      sup.ctxs := nset s.sup.ctxs (sessCtx n) {} }
    emitL s (srcHub 0) 0x3030 1 (u16 n ++ leBytes 16 h.fp ++ u8 h.anchor ++ u8 (b2n e.undated + 2 * b2n e.reserved))

/-! ## Protected records (R294 to R296) -/

/-- Does a record verify under the phase that it names? -/
def recVerifies (s : State) (n : Nat) (r : SessRecord) : Bool :=
  match getSess? s n with
  | none => false
  | some e => 2 ≤ e.state && r.tagOk && nhas e.secrets (r.phase % 4)

/-- The replay window of a hub after a number (R296); none where the number is discarded. -/
def windowTake (w : Window1) (seq : Nat) : Option Window1 :=
  if seq = 0 then none
  else if w.high < seq then some { high := seq, seen := (seq :: w.seen).filter (fun x => seq ≤ x + 1023) }
  else if w.high ≤ seq + 1023 && !(w.seen.contains seq) then some { w with seen := seq :: w.seen }
  else none

/-- A record under the next phase, once it is accepted: the module seals under it from its first later record on (R301). -/
def followPhase (e : Session) (r : SessRecord) : Session :=
  if r.phase % 4 = (e.phase + 1) % 4 && e.rekeyAccept then
    { e with phase := r.phase % 4, phaseChanged := some r.t, phaseBegan := r.t, sealedCount := 0, recvCount := 1, rekeyAccept := false }
  else { e with recvCount := e.recvCount + 1 }

/-- A record arrives at a hub: verified, checked against the window, and its path taken (R294, R296). The answer is the session
number where it passes. -/
def recordArrives (s : State) (hub : Nat) (r : SessRecord) : Option Nat × State :=
  let n := recSession r.port r.session
  if !(hubUp s hub) || !(portUp s r.port) || portHub s r.port ≠ hub then (none, s)
  else if r.version ≠ 1 then (none, otherVersion s r.port)
  else if !(recVerifies s n r) then
    let s := updSess s n (fun e => { e with authFail := e.authFail + 1 })
    let s := if r.tagOk then s else blockCount s (0x5381 + hub) 4
    (none, emitH s hub r.t (srcHub hub) 0x3034 2 (u16 n ++ u8 r.port ++ u64 r.seq ++ u8 r.phase))
  else
    match getSess? s n with
    | none => (none, s)
    | some e =>
      match windowTake (vget e.wins hub {}) r.seq with
      | none => (none, updSess s n (fun e => { e with replays := e.replays + 1 }))
      | some w =>
        let p : Path := { mac := r.mac, ip := r.ip, udp := r.udp, vlan := r.vlan, port := r.port, at_ := r.t }
        (some n, updSess s n (fun e => followPhase { e with
          wins := vupd e.wins hub (fun _ => w), lastRx := r.t
          pathA := if hub = 0 then some p else e.pathA, pathB := if hub = 1 then some p else e.pathB } r))

/-- Is a peer's number adopted for the first time (R296, 05 R125)? It is then taken. -/
def adoptSeq (s : State) (n seq : Nat) : Bool × State :=
  match getSess? s n with
  | none => (false, s)
  | some e =>
    let high := e.taken.foldl max 0
    if e.taken.contains seq || seq + 1024 ≤ high then (false, s)
    else (true, updSess s n (fun e => { e with taken := (seq :: e.taken).filter (fun x => max high seq ≤ x + 1023) }))

/-- Is a DAP request refused because it came through a shed in CLOSING (08 R224)? -/
def shedClosing (s : State) (port : Nat) : Bool := port < 16 && (getShed s (portShed port)).state = 1

/-- The image of a second hub carries a request too (06 R161): its record has reached that hub in the same crossing. -/
def secondCopy (s : State) (ctx seq h : Nat) : State :=
  { s with sup.reqs := s.sup.reqs.map (fun r =>
      if r.ctx = ctx && r.seq = seq && r.due = s.cyc.k + 2 then { r with hubs := setBit r.hubs h true } else r) }

/-- SESSION_DAP_RECORD (R303): one DAP message; the copy from the other network is not taken again. A copy that comes through a shed in
CLOSING is answered for itself, and leaves the other copy to be taken (08 R224, Table 08-8). -/
def execSessionDapRecord (hub : Fin 2) (rec : SessRecord) (op : Nat) (msg : DapMsg) (s : State) : Out :=
  .next (
    match recordArrives s hub.val rec with
    | (none, s) => s
    | (some n, s) =>
      let bitH := 2 ^ hub.val
      if shedClosing s rec.port then dapArrive s (sessCtx n) op msg (some rec.port) bitH rec.seq
      else
        let (new, s) := adoptSeq s n rec.seq
        if !new then secondCopy s (sessCtx n) rec.seq hub.val else dapArrive s (sessCtx n) op msg none bitH rec.seq)

/-- SESSION_TELEGRAM_RECORD (R304): the telegram enters the hub's image under its identifier. -/
def execSessionTelegramRecord (hub : Fin 2) (rec : SessRecord) (ident : Nat) (data : List Byte) (s : State) : Out :=
  .next (
    match recordArrives s hub.val rec with
    | (none, s) => s
    | (some n, s) =>
      if ident % 4096 = n && 1 ≤ ident / 4096 && ident / 4096 ≤ 255 && data.length ≤ min 4088 (gv s E.conMtu - 68) then
        let it : Item := { kind := 2, source := ident, seq := rec.seq, stamp := rec.t, port := rec.port, data := data }
        { s with cyc.hubOpen := vupd s.cyc.hubOpen hub.val (· ++ [it]) }
      else s)

/-- SESSION_PING (R306). -/
def execSessionPing (hub : Fin 2) (rec : SessRecord) (s : State) : Out := .next (recordArrives s hub.val rec).2

/-- SESSION_CLOSE_RECORD (R306): the session closes at the boundary, with cause 1. -/
def execSessionCloseRecord (hub : Fin 2) (rec : SessRecord) (s : State) : Out :=
  .next (
    match recordArrives s hub.val rec with
    | (none, s) => s
    | (some n, s) => updSess s n (fun e => { e with closing := some 1 }))

/-! ## Rekeying (R301, R302) -/

/-- REKEY from the peer (R301, R302): ignored where the module has already answered one, or within 10 s of the previous change. -/
def execRekey (hub : Fin 2) (rec : SessRecord) (share : Nat) (s : State) : Out :=
  .next (
    match recordArrives s hub.val rec with
    | (none, s) => s
    | (some n, s) =>
      match getSess? s n with
      | none => s
      | some e =>
        let recent := e.phaseChanged.any (fun t => rec.t < t + 10000000000)
        let answered := e.state = 3 && e.rekeyMine.isNone
        if answered || recent then updSess s n (fun e => { e with ignored := e.ignored + 1 })
        else
          let p := (e.phase + 1) % 4
          let f := freeVal s
          let secret := Config.hkdf (nget e.secrets e.phase 0) share f
          let s := freeNext s
          let s := updSess s n (fun e => { e with
            state := 3, rekeyMine := none, rekeyAccept := true, secrets := nset e.secrets p secret })
          let s := emitL s (srcHub 0) 0x3033 0 (u16 n ++ u8 p ++ u8 1)
          hubRecord s n rec.t 0x15 (leBytes 1185 f))

/-- REKEY_ANSWER from the peer (R301): the module seals every later record under p + 1. -/
def execRekeyAnswer (hub : Fin 2) (rec : SessRecord) (share : Nat) (s : State) : Out :=
  .next (
    match recordArrives s hub.val rec with
    | (none, s) => s
    | (some n, s) =>
      match getSess? s n with
      | none => s
      | some e =>
        match e.rekeyMine with
        | none => s
        | some (_, _, mine) =>
          let p := (e.phase + 1) % 4
          let s := updSess s n (fun e => { e with
            rekeyMine := none, secrets := nset e.secrets p (Config.hkdf (nget e.secrets e.phase 0) share mine)
            phase := p, phaseChanged := some rec.t, phaseBegan := rec.t, sealedCount := 0, recvCount := 0 })
          emitL s (srcHub 0) 0x3033 0 (u16 n ++ u8 p ++ u8 2))

/-- The module sends its REKEY, with new keys. -/
def sendRekey (s : State) (n t tries : Nat) : State :=
  let f := freeVal s
  let s := updSess (freeNext s) n (fun e => { e with state := 3, rekeyMine := some (t, tries, f) })
  hubRecord s n t 0x14 (leBytes 1281 f)

/-- MODULE_REKEY_START (R301). -/
def execModuleRekeyStart (session t : Nat) (s : State) : Out :=
  .next (
    match getSess? s session with
    | none => s
    | some e =>
      if e.state = 2 && (e.phaseBegan + gv s E.sessRekeyInterval * 1000000000 ≤ t || 2 ^ 32 ≤ e.sealedCount || 2 ^ 32 ≤ e.recvCount)
      then sendRekey s session t 0
      else s)

/-- REKEY_RETRY (R302): sent again after 2 s, up to three times; then the session closes with cause 8. -/
def execRekeyRetry (session t : Nat) (s : State) : Out :=
  .next (
    match getSess? s session with
    | none => s
    | some e =>
      match e.rekeyMine with
      | none => s
      | some (t0, tries, _) =>
        if t < t0 + 2000000000 then s
        else if tries < 3 then sendRekey s session t (tries + 1)
        else updSess s session (fun e => { e with rekeyMine := none, closing := some 8 }))

/-- PHASE_KEY_ERASE (R301): 10 s after the module first sealed under the new phase. -/
def execPhaseKeyErase (session t : Nat) (s : State) : Out :=
  .next (
    match getSess? s session with
    | none => s
    | some e =>
      match e.oldUntil with
      | none => s
      | some u =>
        if u ≤ t then
          updSess s session (fun e => { e with
            secrets := nerase e.secrets ((e.phase + 3) % 4), oldUntil := none, rekeyAccept := false, state := 2 })
        else s)

/-! ## Time limits and closing (R294, R299, R306) -/

/-- SESS_IDLE_LIMIT in ns. -/
def idleLimit (s : State) : Nat := gv s E.sessIdleLimit * 1000000000

/-- IDLE_PING (R306): nothing sent for a third of the limit. -/
def execIdlePing (session t : Nat) (s : State) : Out :=
  .next (
    match getSess? s session with
    | none => s
    | some e => if 2 ≤ e.state && e.lastTx + idleLimit s / 3 ≤ t then hubRecord s session t 0x12 else s)

/-- SESSION_IDLE_TIMEOUT (R306): cause 2. -/
def execSessionIdleTimeout (session t : Nat) (s : State) : Out :=
  .next (
    match getSess? s session with
    | none => s
    | some e =>
      if 2 ≤ e.state && e.lastRx + idleLimit s ≤ t then updSess s session (fun e => { e with closing := some 2 }) else s)

/-- PATH_FORGET (R294). -/
def execPathForget (session : Nat) (netB : Bool) (t : Nat) (s : State) : Out :=
  .next (
    let old := fun (p : Option Path) => match p with
      | some q => if q.at_ + idleLimit s ≤ t then none else some q
      | none => none
    updSess s session (fun e => if netB then { e with pathB := old e.pathB } else { e with pathA := old e.pathA }))

/-- CERT_EXPIRY (R299): while UTC is valid, the chain is outside its validity: cause 7. Only an UNDATED session's chain can lie
before it. -/
def execCertExpiry (session : Nat) (s : State) : Out :=
  .next (
    match getSess? s session with
    | none => s
    | some e =>
      let u := utcAt s s.cyc.tk
      let late := match e.notAfter with
        | some x => (x : Int) < u
        | none => false
      let early := match e.notBefore with
        | some x => u < (x : Int) && e.undated
        | none => false
      if s.sup.tp.utcValid && 2 ≤ e.state && (late || early) then updSess s session (fun e => { e with closing := some 7 }) else s)

/-- SESS_CLOSE: true closes the selected session with cause 3 (R306), at the boundary at which the write is applied. -/
def hSessClose : Handler := { eff := fun s w => if w.v = 1 then updSess s w.inst (fun e => { e with closing := some 3 }) else s }

/-- SESS_CLOSE (R306). -/
def execSessClose (ctx : Nat) (s : State) : Out := .next (writeCmd hSessClose E.sessClose ctx 0x3502 7 1 s)

/-- The range of a reservation (R292). -/
def reserveConds (s : State) (w : WReq) : List Nat :=
  let fp := w.v % 2 ^ 128
  let n := bits w.v 128 16
  let owner := bits w.v 144 16
  let others := ((List.range 128).map (fun j => 0x20 + j)).filter (· ≠ w.sub)
  let vals := (others.map (fun j => gvs s E.sessReserve j 0)).filter (· ≠ 0)
  refuseIf (w.v ≠ 0 && (4095 < n || (511 < owner && owner ≠ 0xFFFF)
    || vals.any (fun v => v % 2 ^ 128 = fp || bits v 128 16 = n))) abtRange 0

/-- SESS_RESERVE: the entry is kept, and takes effect at the boundary after. -/
def hSessReserve : Handler :=
  { conds := reserveConds
    eff := fun s w => { storeEff E.sessReserve s w with con.listPend := true } }

/-- SESS_RESERVE (R292). -/
def execSessReserve (ctx sub v : Nat) (s : State) : Out := .next (writeCmd hSessReserve E.sessReserve ctx 0x3500 sub v s)

/-- SESS_DENY: the entry is kept, and takes effect at the boundary after. -/
def hSessDeny : Handler := { eff := fun s w => { storeEff E.sessDeny s w with con.listPend := true } }

/-- SESS_DENY (R292). -/
def execSessDeny (ctx sub v : Nat) (s : State) : Out := .next (writeCmd hSessDeny E.sessDeny ctx 0x3500 sub v s)

/-- The reservation and deny entries as the dictionary holds them. -/
def listsOf (s : State) (e : Entry) (lo hi : Nat) : NMap Nat :=
  (List.range (hi + 1 - lo)).foldl (fun (m : NMap Nat) j =>
    let v := gvs s e (lo + j) 0
    if v = 0 then m else nset m (lo + j) v) []

/-- Changed reservations and denials take effect (R292): a session whose number is now reserved for another closes with cause 9; a
denied one closes at the boundary after, with cause 5. -/
def takeLists (s : State) : State :=
  if !s.con.listPend then s
  else
    let s := { s with con.listPend := false, con.reserve := listsOf s E.sessReserve 0x20 0x9F, con.deny := listsOf s E.sessDeny 0xA0 0xDF }
    let res := reservations s
    s.con.sessions.foldl (fun s p =>
      if p.1 ≠ svcSession && 2 ≤ p.2.state && res.any (fun r => r.2 = p.1 && r.1 ≠ p.2.fp) then closeSession s p.1 9
      else if 2 ≤ p.2.state && denied s p.2.fp then updSess s p.1 (fun e => { e with closing := some (e.closing.getD 5) })
      else s) s

/-- The sessions' part of a boundary, before its writes: closings that are due, openings, and lists. -/
def sessionsBoundary (s : State) : State :=
  let s := s.con.sessions.foldl (fun s p => match p.2.closing with
    | some c => closeSession s p.1 c
    | none => s) s
  let s := s.con.handshakes.foldl (fun s p => if p.2.done then openSession s p.1 p.2 else s) s
  takeLists s

/-- The closings that the writes of a boundary ordered. -/
def sessionsAfterWrites (s : State) : State :=
  s.con.sessions.foldl (fun s p => if p.2.closing = some 3 then closeSession s p.1 3 else s) s

/-! ## TRDP process data (R307, R308) -/

/-- Does an allowlist entry match (11 Table 11-8)? -/
def trdpMatch (s : State) (i port comId src vlan n : Nat) : Bool :=
  let v := gvs s E.trdpAllow (0x40 + i) 0
  let ip := bits v 32 8 * 2 ^ 24 + bits v 40 8 * 2 ^ 16 + bits v 48 8 * 2 ^ 8 + bits v 56 8
  v ≠ 0 && bit v (port / 8) && (bits v 16 16 = 0 || bits v 16 16 = vlan) && ip = src && bits v 64 32 = comId && n ≤ bits v 96 16

/-- TRDP_PROCESS_DATA (R307, R308): `formed` says that version, message type and header FCS are right. -/
def execTrdpProcessData (port : Fin 16) (comId src vlan seq : Nat) (formed : Bool) (data : List Byte) (t : Nat) (s : State) : Out :=
  let p := port.val
  .next (
    if !(portUp s p) || endpointIp s p = 0 then s
    else
      match (if formed && vlan = endpointVlan s p then (List.range 128).find? (fun i => trdpMatch s i p comId src vlan data.length) else none) with
      | none => bump s E.trdpDiscarded
      | some i =>
        let it : Item := { kind := 3, source := i, seq := seq, stamp := t, port := p, data := data }
        { s with cyc.hubOpen := vupd s.cyc.hubOpen (p / 8) (· ++ [it]) })

/-- TRDP_ALLOW: reserved bits, VLAN and lengths in range (11 Table 11-8). -/
def hTrdpAllow : Handler :=
  { conds := fun s w =>
      let v := w.v
      refuseIf (bits v 2 14 ≠ 0 || bits v 112 16 ≠ 0) abtRange 1
        ++ refuseIf (v ≠ 0 && (4094 < bits v 16 16
        || bits v 96 16 = 0 || gv s E.conMtu - 68 < bits v 96 16)) abtRange 0
    eff := storeEff E.trdpAllow }

/-- PORT_VLANS: up to 8 VIDs from 1 to 4094, 0 unused. -/
def hPortVlans : Handler :=
  { conds := fun _ w => refuseIf ((List.range 8).any (fun i => 4094 < bits w.v (16 * i) 16)) abtRange 0
    eff := storeEff E.portVlans }

end Sys2Proof.Machine
end

