-- ==== Sys2Proof/Machine/Settings.lean ====
section
/-!
DEFINITION. The settings store (18 R458 to R460): the parts into which the persistent entries of one index and instance are laid out,
the page of a part, and the writing of a part.
-/

namespace Sys2Proof.Machine

/-- The persistent sub-indices of an index in ascending order, each with its length (R458). -/
def persistSubs (s : State) (idx : Nat) : List (Nat × Nat) :=
  let l := if 0x6000 ≤ idx && idx ≤ 0x7FFF then
      match allottee s idx with
      | none => []
      | some (_, st) => (st.decls.filter (fun c => c.index = idx && c.persistent)).map (fun c => (c.sub, c.len))
    else (entryList.filter (fun e => e.persist && e.idx ≤ idx && idx ≤ e.idxHi)).flatMap (fun e =>
      (List.range (e.subHi + 1 - e.sub)).map (fun i => (e.sub + i, e.len)))
  l.mergeSort (fun a b => a.1 ≤ b.1)

/-- The part in which each sub-index stands: the data bytes of a part are at most 4060, and parts split only between sub-indices
(R458). `p` and `used` are the part being filled and its bytes so far. -/
def splitParts (p used : Nat) : List (Nat × Nat) → List (Nat × Nat)
  | [] => []
  | (sub, len) :: rest =>
    if used + len ≤ 4060 then (sub, p) :: splitParts p (used + len) rest else (sub, p + 1) :: splitParts (p + 1) len rest

/-- The part number of a sub-index within its block. -/
def partNo (s : State) (idx sub : Nat) : Nat :=
  (((splitParts 0 0 (persistSubs s idx)).find? (fun p => p.1 = sub)).map Prod.snd).getD 0

/-- The part to which an entry key belongs: index, instance, part number. -/
def partOf (s : State) (key : Nat) : Nat × Nat × Nat :=
  (key / 16777216, key % 65536, partNo s (key / 16777216) (key / 65536 % 256))

/-- The distinct parts of some entry keys. -/
def partsIn (s : State) (keys : List Nat) : List (Nat × Nat × Nat) := (keys.map (partOf s)).dedup

/-- The sequence of the newest valid copy of a part; 0 where none has been written. -/
def partSeq (s : State) (p : Nat × Nat × Nat) : Nat :=
  ((s.upd.store.filter (fun x => partOf s x.1 = p)).map (fun x => x.2.2)).foldl max 0

/-- A part is written with the values that are pending in it, with a sequence one above that of its newest valid copy (R459, R460). A
torn copy is never returned: the values of the other page of the pair stand. -/
def writePart (s : State) (p : Nat × Nat × Nat) (torn : Bool) : State :=
  let mine := fun (k : Nat) => decide (partOf s k = p)
  let seq := partSeq s p + 1
  let kept := s.upd.store.map (fun x => if mine x.1 then (x.1, (x.2.1, seq)) else x)
  { s with
    upd.storeDue := s.upd.storeDue.filter (fun x => !(mine x.1))
    upd.store := if torn then s.upd.store
      else (s.upd.storeDue.filter (fun x => mine x.1)).foldl (fun m x => nset m x.1 (x.2.1, seq)) kept }

/-- Pending settings writes complete (R460, 20 R484). -/
def storeAll (s : State) : State :=
  (partsIn s (s.upd.storeDue.map Prod.fst)).foldl (fun s p => writePart s p false) s

/-- The value of a sub-index as a part's newest valid copy holds it: an entry never written has its default. -/
def storedVal (s : State) (idx sub inst : Nat) : Nat :=
  match nget? s.upd.store (ekey idx sub inst) with
  | some (v, _) => v
  | none => ((lookupEntry s idx sub).map (fun e => e.dfltAt sub)).getD 0

/-- The page of 4096 bytes that holds a part's newest valid copy (R458, Table 18-3). -/
def settingsPage (s : State) (p : Nat × Nat × Nat) : List Byte :=
  let (idx, inst, part) := p
  let subs := (persistSubs s idx).filter (fun x => partNo s idx x.1 = part)
  let data := subs.flatMap (fun x => leBytes x.2 (storedVal s idx x.1 inst))
  let selected : Bool := match (lookupEntry s idx ((subs.map Prod.fst).headD 0)) with
    | some e => decide (e.sel ≠ .none) && decide (e.sel ≠ .ctx)
    | none => false
  let body := u32 0x53455447 ++ u16 s.upd.format ++ u16 idx ++ u16 (if selected then inst else 0xFFFF) ++ u8 part
    ++ u8 ((subs.map Prod.fst).headD 0) ++ u16 data.length ++ u16 0 ++ u64 (partSeq s p) ++ u64 0
    ++ data ++ List.replicate (4060 - data.length) 0
  body ++ u32 (crc32c body)

end Sys2Proof.Machine
end

