-- ==== Sys2Proof/Machine/Update.lean ====
section
/-!
DEFINITION. Transfers into the loft, arming and the boot banks' selection, the settings store, the tack room, roles and passwords
(18).
-/

namespace Sys2Proof.Machine

/-! ## Packages -/

def getPkg? (s : State) (n : Nat) : Option Package := nget? s.upd.loft n
def updPkg (s : State) (n : Nat) (f : Package → Package) : State := { s with upd.loft := nupd s.upd.loft n f }

/-- Payload blocks that a header gives. -/
def pkgBlocks (p : Package) : Nat := fieldAt p.header 20 4

/-- Manifest blocks of a package (R450). -/
def pkgManifest (p : Package) : Nat := (48 * pkgBlocks p + 65535) / 65536

/-- Loft blocks that a package takes once its header is accepted (R450). -/
def pkgTakes (p : Package) : Nat := if p.kind = 0 then 0 else 1 + pkgManifest p + pkgBlocks p

/-- Free blocks of the loft (R450). -/
def loftFree (s : State) : Nat := 16382 - (s.upd.loft.map (fun p => pkgTakes p.2)).sum

/-- The block expected next, as part and index (R448). -/
def nextBlock (p : Package) : Nat × Nat :=
  if p.kind = 0 then (0, 0)
  else if p.manifestBlocks < pkgManifest p then (1, p.manifestBlocks)
  else (2, p.payloadBlocks)

/-- The block field: part [31:30], index [29:0] (R444). -/
def blockField (b : Nat × Nat) : Nat := b.1 * 2 ^ 30 + b.2

/-- Chunks that make up a block (18, Packages). -/
def blockChunks (p : Package) (b : Nat × Nat) : Nat :=
  if b.1 = 0 then 4
  else if b.1 = 1 && b.2 + 1 = pkgManifest p then (48 * pkgBlocks p - b.2 * 65536 + 1023) / 1024
  else 64

/-- The block expected next of a package, as UPD_NEXT_BLOCK gives it. -/
def nextField (s : State) (n : Nat) : Nat := ((getPkg? s n).map (fun p => blockField (nextBlock p))).getD 0

/-! ## Judging blocks (R448, R449) -/

/-- Are bytes from `lo` to `hi` of a header 0? -/
def zeroBytes (h : List Byte) (lo hi : Nat) : Bool := ((h.drop lo).take (hi + 1 - lo)).all (· = 0)

/-- The counts and lengths of Table 18-2. DESIGN CHOICE (log 151): R449 does not say which refusal meets a settings format or security
epoch other than 0 outside FIRMWARE; the model refuses it here, with a count or length. -/
def headerCounts (h : List Byte) : Bool :=
  let kind := fieldAt h 6 1
  let blocks := fieldAt h 20 4
  let len := fieldAt h 24 8
  1 ≤ blocks && blocks ≤ (if kind = 1 then 8191 else 12288)
    && (blocks - 1) * 65536 + 1 ≤ len && len ≤ blocks * 65536 && fieldAt h 32 4 = 48 * blocks
    && (kind = 1 || (fieldAt h 36 2 = 0 && fieldAt h 38 2 = 0 && fieldAt h 40 2 = 0))

/-- Can the settings store migrate to a firmware, and does its epoch suffice (R449 condition 6)? -/
def epochOk (s : State) (h : List Byte) : Bool :=
  fieldAt h 6 1 ≠ 1 || (s.upd.epoch ≤ fieldAt h 40 2 && fieldAt h 38 2 ≤ s.upd.format)

/-- The refusal of a completed header (R449), or 0. -/
def headerCheck (s : State) (h : List Byte) : Nat :=
  let kind := fieldAt h 6 1
  let takes := 1 + (48 * fieldAt h 20 4 + 65535) / 65536 + fieldAt h 20 4
  if fieldAt h 4092 4 ≠ crc32c (h.take 4092) then abort abtIntegrity 1
  else if fieldAt h 0 4 ≠ 0x4F5A494D || fieldAt h 4 2 ≠ 1 || kind = 0 || 6 < kind || !(zeroBytes h 7 7)
      || !(zeroBytes h 42 47) || !(zeroBytes h 180 255) || !(zeroBytes h 3661 4091) then abort abtRange 1
  else if !(((h.drop 8).take 8).any (fun g => g.toNat = gv s E.compatGen)) then abort abtRange 0
  else if !(headerVerifies s h) then abort abtIntegrity 3
  else if !(headerCounts h) then abort abtRange 0
  else if !(epochOk s h) then abort abtState 3
  else if loftFree s < takes then abort abtRange 0
  else 0

/-- The first 4 bytes of a digest, as a U32. -/
def digestCheck (d : Nat) : Nat := leNat (leBytes 48 d).reverse % 2 ^ 32

/-- The 4 bytes that TR_ROOT_CHECK shows: 0 for an empty slot. -/
def rootCheck (r : Root) : Nat := if r.kinds = 0 then 0 else digestCheck (Config.sha384 (leBytes 97 r.ecdsa).reverse)

/-- The root slot under which a header verifies: the slot whose check is the header's is tried first (R446). -/
def rootSlot (s : State) (h : List Byte) : Nat :=
  let l := s.upd.roots.toList
  match l.findIdx? (fun r => rootCheck r = fieldAt h 176 4 && rootVerifies r h) with
  | some i => i
  | none => (l.findIdx? (fun r => rootVerifies r h)).getD 0

/-- The outcome of a block (R444, R448): BLOCK_STATUS, and event 0x5011 for a refusal with ABT_INTEGRITY or of a header. -/
def blockStatus (s : State) (n field code t : Nat) : State :=
  let s := hubRecord s 0xFFFE t 0x21 (u32 n ++ u32 field ++ u32 code)
  if code = 0 then s else emitL s (srcHub 0) 0x5011 1 (u32 n ++ u32 field ++ u32 code)

/-- The received block is discarded; its chunks must be sent again. -/
def dropChunks (s : State) : State :=
  { s with upd.transfer := s.upd.transfer.map (fun x => { x with chunks := [] }) }

/-- A verified block advances the package (R448, R451). -/
def blockDone (s : State) (n : Nat) (f : Package → Package) (field t : Nat) : State :=
  let s := updPkg s n (fun p => { f p with progress := s.recd.seconds })
  blockStatus s n field 0 t

/-- A package whose last payload block is verified is COMPLETE (R452), event 0x5012, and its transfer is over. -/
def completePkg (s : State) (n : Nat) : State :=
  match getPkg? s n with
  | none => s
  | some p =>
    if p.kind ≠ 0 && p.manifestBlocks = pkgManifest p && p.payloadBlocks = pkgBlocks p then
      let s := updPkg s n (fun p => { p with state := 2, paused := false })
      emitL { s with upd.transfer := none, upd.paused := false } (srcHub 0) 0x5012 0
        (u32 n ++ u8 p.kind ++ u32 (fieldAt p.header 16 4))
    else s

/-- A completed block is judged (R448). -/
def judgeBlock (s : State) (n : Nat) (p : Package) (b : Nat × Nat) (bytes : List Byte) (crcs : List Nat) (t : Nat) : State :=
  let field := blockField b
  let s := dropChunks s
  if crcs.any (· ≠ crc32c bytes) then blockStatus s n field (abort abtIntegrity 1) t
  else
    match b.1 with
    | 0 =>
      let code := headerCheck s bytes
      if code ≠ 0 then
        let s := blockStatus s n field code t
        { s with upd.loft := nerase s.upd.loft n, upd.transfer := none, upd.paused := false }
      else blockDone s n (fun p => { p with kind := fieldAt bytes 6 1, header := bytes, root := rootSlot s bytes }) field t
    | 1 =>
      let all := p.manifest ++ bytes
      if p.manifestBlocks + 1 < pkgManifest p then
        blockDone s n (fun p => { p with manifest := all, manifestBlocks := p.manifestBlocks + 1 }) field t
      else
        let man := all.take (48 * pkgBlocks p)
        if Config.sha384 man = beNat ((p.header.drop 80).take 48) then
          blockDone s n (fun p => { p with manifest := man, manifestBlocks := p.manifestBlocks + 1 }) field t
        else
          let s := updPkg s n (fun p => { p with manifest := [], manifestBlocks := 0 })
          blockStatus s n field (abort abtIntegrity 2) t
    | _ =>
      if Config.sha384 bytes = beNat ((p.manifest.drop (48 * b.2)).take 48) then
        completePkg
          (blockDone s n (fun p => { p with payload := p.payload ++ bytes, payloadBlocks := p.payloadBlocks + 1 }) field t) n
      else blockStatus s n field (abort abtIntegrity 2) t

/-- A discarded CHUNK is counted (R448). -/
def dropChunk (s : State) : State := { s with upd.dropped := s.upd.dropped + 1 }

/-- CHUNK (R444, R448): over the open service-port session, for the block expected next. -/
def execChunk (pkg part block chunk crc : Nat) (data : List Byte) (t : Nat) (s : State) : Out :=
  .next (
    match s.upd.transfer with
    | none => dropChunk s
    | some x =>
      match getPkg? s x.pkg with
      | none => dropChunk s
      | some p =>
        let b := nextBlock p
        let need := blockChunks p b
        if !(nhas s.sup.ctxs 0) || s.upd.paused || pkg ≠ x.pkg || (part, block) ≠ b || need ≤ chunk || data.length ≠ 1024 then
          dropChunk s
        else
          let chunks := nset x.chunks chunk (crc, data)
          let s := { s with upd.transfer := some { x with chunks := chunks, lastChunk := t } }
          if chunks.length < need || !(storeWrites s) then s
          else judgeBlock s x.pkg p b (chunks.flatMap (fun c => c.2.2)) (chunks.map (fun c => c.2.1)) t)

/-! ## Pausing, expiry, abort (R451) -/

/-- CHUNK_STALE_TIMEOUT (R451): an incomplete block whose latest chunk is more than 60 s old is discarded, event 0x5016. -/
def execChunkStaleTimeout (t : Nat) (s : State) : Out :=
  .next (
    match s.upd.transfer with
    | none => s
    | some x =>
      if x.chunks ≠ [] && x.lastChunk + 60000000000 < t then
        let s := pauseTransfer (dropChunks s)
        emitL s (srcHub 0) 0x5016 1 (u32 x.pkg ++ u32 (nextField s x.pkg) ++ u8 1)
      else s)

/-- A package is erased and its blocks are freed; a transfer of it is over. -/
def erasePkg (s : State) (n : Nat) : State :=
  { s with
    upd.loft := nerase s.upd.loft n
    upd.transfer := match s.upd.transfer with
      | some x => if x.pkg = n then none else some x
      | none => none
    upd.paused := match s.upd.transfer with
      | some x => x.pkg ≠ n && s.upd.paused
      | none => false }

/-- PACKAGE_EXPIRY (R451): a PAUSED package not resumed within 86 400 operating seconds, event 0x5016. -/
def execPackageExpiry (pkg : Nat) (s : State) : Out :=
  .next (
    match getPkg? s pkg with
    | none => s
    | some p =>
      if p.state = 1 && p.paused && p.progress + 86400 ≤ s.recd.seconds && storeWrites s then
        erasePkg (emitL s (srcHub 0) 0x5016 1 (u32 pkg ++ u32 (nextField s pkg) ++ u8 2)) pkg
      else s)

/-- The lowest free package number, from 1 (R447). -/
def freePkg (s : State) : Nat := ((List.range 65).find? (fun n => 1 ≤ n && !(nhas s.upd.loft n))).getD 65

/-- UPD_OPEN (R447, R451). -/
def hUpdOpen : Handler :=
  { act := fun _ => some (0, 0, 0)
    pkg := fun w => w.v
    conds := fun s w =>
      refuseIf (w.ctx ≠ 0) abtAccess 0xFF
        ++ (if w.v = 0 then refuseIf (64 ≤ s.upd.loft.length) abtCapacity 0
            else match getPkg? s w.v with
              | none => [abort abtObject 1]
              | some p => refuseIf (p.state ≠ 1 || p.progress + 86400 ≤ s.recd.seconds) abtObject 1)
    eff := fun s w =>
      let s := match s.upd.transfer with
        | some x => if x.pkg = w.v then s else dropChunks (pauseTransfer s)
        | none => s
      let n := if w.v = 0 then freePkg s else w.v
      let s := if w.v = 0 then { s with upd.loft := nset s.upd.loft n { progress := s.recd.seconds } } else s
      let kind := ((getPkg? s n).map (·.kind)).getD 0
      let s := updPkg s n (fun p => { p with paused := false })
      let held := s.upd.transfer.filter (fun x => x.pkg = n)
      let s := { s with upd.transfer := some (held.getD { pkg := n, lastChunk := s.cyc.tk }), upd.paused := false }
      emitL s (srcHub 0) 0x5010 0 (u32 n ++ u8 kind ++ u8 (if w.v = 0 then 1 else 2)) }

/-- UPD_OPEN (R447). -/
def execUpdOpen (ctx v : Nat) (s : State) : Out := .next (writeCmd hUpdOpen E.updOpen ctx 0x5100 1 v s)

/-- UPD_ABORT (R451): event 0x5016. -/
def hUpdAbort : Handler :=
  { eff := fun s w =>
      match s.upd.transfer with
      | none => s
      | some x =>
        if w.v = 1 then erasePkg (emitL s (srcHub 0) 0x5016 1 (u32 x.pkg ++ u32 (nextField s x.pkg) ++ u8 3)) x.pkg else s }

/-- UPD_ABORT (R451). -/
def execUpdAbort (ctx : Nat) (s : State) : Out := .next (writeCmd hUpdAbort E.updAbort ctx 0x5100 5 1 s)

/-! ## Arming, fallback, deletion, settings reset (R453, R454, R457, R462) -/

/-- Every armed package is disarmed. -/
def disarmAll (s : State) : State :=
  { s with upd.loft := s.upd.loft.map (fun (p : Nat × Package) => (p.1, if p.2.state = 3 then { p.2 with state := 2 } else p.2)) }

/-- UPD_ACTIVATE (R454): arming disarms any other package; 0 disarms. -/
def hUpdActivate : Handler :=
  { act := fun w => if w.v = 0 then none else some (1, 0, 0)
    pkg := fun w => w.v
    conds := fun s w =>
      if w.v = 0 then []
      else
        let code := useCheck s w.v 1
        (if code = 0 then [] else [code])
          ++ refuseIf (code = 0 && !(fieldAt (((getPkg? s w.v).map (·.header)).getD []) 38 2 ≤ s.upd.format)) abtState 3
    eff := fun s w =>
      let s := storeEff E.updActivate (disarmAll s) w
      if w.v = 0 then s else { updPkg s w.v (fun p => { p with state := 3 }) with sup.arbArm := true } }

/-- UPD_ACTIVATE, arming (R454). -/
def execUpdActivateArm (ctx v : Nat) (s : State) : Out := .next (writeCmd hUpdActivate E.updActivate ctx 0x5100 6 v s)

/-- UPD_ACTIVATE = 0, disarming (R454). -/
def execUpdActivateDisarm (ctx : Nat) (s : State) : Out := .next (writeCmd hUpdActivate E.updActivate ctx 0x5100 6 0 s)

def otherBank (s : State) : Bank := vget s.upd.banks (1 - s.upd.active) {}

/-- UPD_FALLBACK (R457). -/
def hUpdFallback : Handler :=
  { act := fun w => if w.v = 1 then some (1, 0, 0) else none
    conds := fun s w =>
      let b := otherBank s
      refuseIf (w.v = 1 && (b.state ≠ 3 || !(b.gens.contains (gv s E.compatGen)) || b.epoch < s.upd.epoch)) abtState 3
    eff := fun s w => if w.v = 1 then { s with upd.fallback := true, sup.arbArm := true } else s }

/-- UPD_FALLBACK (R457). -/
def execUpdFallback (ctx : Nat) (s : State) : Out := .next (writeCmd hUpdFallback E.updFallback ctx 0x5100 7 1 s)

/-- Is a package in use (R453)? -/
def pkgInUse (s : State) (n : Nat) : Bool :=
  s.sup.stalls.any (fun p => p.2.pkgNo = n || (match p.2.loading with | some l => l.pkgNo = n | none => false))
    || (match s.bb.configured with | some p => p.pkgNo = n | none => false)
    || s.bb.companions.any (fun p => p.pkgNo = n) || gv s E.mvbBaList = n
    || (match s.upd.transfer with | some x => x.pkg = n | none => false)
    || (match getPkg? s n with | some p => p.state = 3 | none => false)

/-- LOFT_DELETE (R453). -/
def hLoftDelete : Handler :=
  { conds := fun s w => refuseIf (!(nhas s.upd.loft w.v)) abtObject 1 ++ refuseIf (pkgInUse s w.v) abtState 3
    eff := fun s w => erasePkg s w.v }

/-- LOFT_DELETE (R453). -/
def execLoftDelete (ctx v : Nat) (s : State) : Out := .next (writeCmd hLoftDelete E.loftDelete ctx 0x5110 65 v s)

/-- SET_RESET (R462): at the next start. -/
def hSetReset : Handler :=
  { act := fun w => if w.v = 1 then some (1, 0, 0) else none
    eff := fun s w => if w.v = 1 then { s with upd.setReset := true, sup.arbArm := true } else s }

/-- SET_RESET (R462). -/
def execSetReset (ctx : Nat) (s : State) : Out := .next (writeCmd hSetReset E.setReset ctx 0x5200 3 1 s)

/-- SETTINGS_PART_WRITE (R459, R460): the part of a pending value is written to the store; a torn copy leaves the previous values. No
settings write starts after the power-fail warning. -/
def execSettingsPartWrite (key : Nat) (torn : Bool) (s : State) : Out :=
  .next (
    if !(nhas s.upd.storeDue key) || s.supply.powerFail.isSome || !(storeWrites s) then s
    else writePart s (partOf s key) torn)

/-! ## The tack room (R463 to R465) -/

/-- The 4 bytes that TR_CA_CHECK shows: 0 for an empty slot. -/
def caCheck (c : Ca) : Nat := if c.cert = [] then 0 else digestCheck (Config.sha384 c.cert)

/-- Would some root slot still have both kinds FIRMWARE and ROOT (R464)? -/
def rootsKeep (roots : Vector Root 4) : Bool := roots.toList.any (fun r => bit r.kinds 1 && bit r.kinds 6)

/-- A ROOT payload (R463). -/
def rootOf (pay : List Byte) (seq : Nat) : Root :=
  { kinds := fieldAt pay 1 1, ecdsa := beNat ((pay.drop 4).take 97), mldsa := leNat ((pay.drop 104).take 1952), seq := seq }

def getRoot (s : State) (i : Nat) : Root := vget s.upd.roots i {}
def getCa (s : State) (i : Nat) : Ca := vget s.upd.cas i {}

/-- A tack change (R464, R504), with event 0x5017. -/
def tackEvent (s : State) (kind slot check ctx : Nat) : State :=
  emitL { s with sup.arbTack := true } (srcHub 0) 0x5017 1 (u8 kind ++ u8 slot ++ u32 check ++ u16 (ctxCode ctx))

/-- TR_ROOT_LOAD (R464). -/
def hTrRootLoad : Handler :=
  { act := fun _ => some (2, 0, 0)
    pkg := fun w => w.v
    conds := fun s w =>
      let code := useCheck s w.v 6
      if code ≠ 0 then [code]
      else
        let pay := pkgPayload s w.v
        let slot := fieldAt pay 0 1
        refuseIf (3 < slot) abtRange 0
          ++ refuseIf (slot ≤ 3 && lockBit s (224 + slot)) abtLock (224 + slot)
          ++ refuseIf (!(rootsKeep (vupd s.upd.roots slot (fun _ => rootOf pay 0)))) abtState 3
    eff := fun s w =>
      let pay := pkgPayload s w.v
      let slot := fieldAt pay 0 1
      let s := { s with upd.roots := vupd s.upd.roots slot (fun r => rootOf pay (r.seq + 1)) }
      tackEvent s 1 slot (rootCheck (getRoot s slot)) w.ctx }

/-- TR_ROOT_LOAD (R464). -/
def execTrRootLoad (ctx v : Nat) (s : State) : Out := .next (writeCmd hTrRootLoad E.trRootLoad ctx 0x1150 1 v s)

/-- Sessions whose chain was anchored in a CA slot close with cause 6 (11 R306). -/
def closeAnchored (s : State) (slot : Nat) : State :=
  (s.con.sessions.filter (fun p => p.2.anchor = slot && 2 ≤ p.2.state)).foldl
    (fun s p => updSess s p.1 (fun e => { e with closing := some (e.closing.getD 6) })) s

/-- TR_CA_LOAD (R464). -/
def hTrCaLoad : Handler :=
  { act := fun _ => some (2, 0, 0)
    pkg := fun w => w.v
    conds := fun s w =>
      let code := useCheck s w.v 5
      if code ≠ 0 then [code]
      else
        let pay := pkgPayload s w.v
        let slot := fieldAt pay 0 1
        refuseIf (7 < slot || !(Config.caOk ((pay.drop 4).take (fieldAt pay 2 2)))) abtRange 0
          ++ refuseIf (slot ≤ 7 && lockBit s (228 + slot)) abtLock (228 + slot)
    eff := fun s w =>
      let pay := pkgPayload s w.v
      let slot := fieldAt pay 0 1
      let s := { s with upd.cas := vupd s.upd.cas slot (fun c =>
        { usage := fieldAt pay 1 1, cert := (pay.drop 4).take (fieldAt pay 2 2), seq := c.seq + 1 }) }
      tackEvent (closeAnchored s slot) 2 slot (caCheck (getCa s slot)) w.ctx }

/-- TR_CA_LOAD (R464). -/
def execTrCaLoad (ctx v : Nat) (s : State) : Out := .next (writeCmd hTrCaLoad E.trCaLoad ctx 0x1150 2 v s)

/-- TR_ROOT_CLEAR (R464). -/
def hTrRootClear : Handler :=
  { act := fun _ => some (2, 0, 0)
    conds := fun s w =>
      refuseIf (w.v ≤ 3 && lockBit s (224 + w.v)) abtLock (224 + w.v)
        ++ refuseIf (!(rootsKeep (vupd s.upd.roots w.v (fun _ => {})))) abtState 3
    eff := fun s w =>
      let s := { s with upd.roots := vupd s.upd.roots w.v (fun r => { seq := r.seq + 1 }) }
      tackEvent s 1 w.v 0 w.ctx }

/-- TR_ROOT_CLEAR (R464). -/
def execTrRootClear (ctx v : Nat) (s : State) : Out := .next (writeCmd hTrRootClear E.trRootClear ctx 0x1150 3 v s)

/-- TR_CA_CLEAR (R464). -/
def hTrCaClear : Handler :=
  { act := fun _ => some (2, 0, 0)
    conds := fun s w => refuseIf (w.v ≤ 7 && lockBit s (228 + w.v)) abtLock (228 + w.v)
    eff := fun s w =>
      let s := { s with upd.cas := vupd s.upd.cas w.v (fun c => { seq := c.seq + 1 }) }
      tackEvent (closeAnchored s w.v) 2 w.v 0 w.ctx }

/-- TR_CA_CLEAR (R464). -/
def execTrCaClear (ctx v : Nat) (s : State) : Out := .next (writeCmd hTrCaClear E.trCaClear ctx 0x1150 4 v s)

/-- TR_LOCK_MASK (R465): the entry's lock bit is 239. -/
def hTrLockMask : Handler := storeHandler E.trLockMask

/-- TR_LOCK_MASK (R465). -/
def execTrLockMaskWrite (ctx v : Nat) (s : State) : Out := .next (writeCmd hTrLockMask E.trLockMask ctx 0x1154 1 v s)

/-! ## Passwords (R466, R467) -/

/-- May a context that holds role `r` set the password of a role (R466)? -/
def maySetPwd (s : State) (r ctx role : Nat) : Bool :=
  let eng := roleOk r 3
  match role with
  | 1 | 2 => r = role || eng
  | 3 => eng
  | 4 => r = 4 || ((vget s.upd.pwds 4 {}).hash.isNone && eng && ctx = 0)
  | _ => r = 5


/-- PWD_SET (R466): stored under a salt drawn at setting, event 0x1043. -/
def hPwdSet : Handler :=
  { conds := fun s w =>
      refuseIf (!(maySetPwd s (w.roleIn s) w.ctx w.sub)) abtAccess (if w.sub ≤ 3 then 3 else w.sub)
        ++ refuseIf ((visText (leBytes 64 w.v)).length < 12) abtRange 0
    eff := fun s w =>
      let v := freeVal s
      let salt := v % 2 ^ 128
      let s := updPwd (freeNext s) w.sub (fun p =>
        { p with delivered := false, salt := salt, hash := some (Config.pbkdf2 (visText (leBytes 64 w.v)) salt) })
      emitL s (srcHub 0) 0x1043 1 (u8 w.sub ++ u16 (ctxCode w.ctx)) }

/-- PWD_SET (R466): the write arrives when the derivation of its password completes. -/
def execPwdSet (ctx sub : Nat) (password : List Byte) (s : State) : Out := .next (pwdCommand s ctx 0x1110 sub password)

/-- PASSWORD_DERIVATION_DONE (R467): 40 ms after a request was held, it arrives. -/
def execPasswordDerivationDone (ctx t : Nat) (s : State) : Out :=
  .next (
    match s.upd.jobs.findIdx? (fun j => j.req.ctx = ctx && j.since + 40000000 ≤ t) with
    | none => s
    | some i =>
      match s.upd.jobs[i]? with
      | none => s
      | some j => { s with
          upd.jobs := s.upd.jobs.eraseIdx i
          sup.reqs := s.sup.reqs ++ [{ j.req with due := s.cyc.k + 2 }] })

/-- LOCKOUT_EXPIRY (R467): 15 min. -/
def execLockoutExpiry (role : Fin 6) (t : Nat) (s : State) : Out :=
  .next (
    match (vget s.upd.pwds role.val {}).lockedAt with
    | none => s
    | some t0 => if t0 + 900000000000 ≤ t then updPwd s role.val (fun p => { p with lockedAt := none }) else s)

end Sys2Proof.Machine
end

