-- ==== Sys2Proof/Machine/Access.lean ====
section
/-!
DEFINITION. The dictionary as it is accessed: the behaviour of every writable entry (02 R29 to R39), the value that every
readable entry shows (02 R28, 23 R531 to R534), and the decision of the DAP operations READ, LOGIN, LOGOUT and DESCRIBE
(02 R40, R41, R541, 23 R530).
-/

namespace Sys2Proof.Machine

/-! ## Entries whose conditions are their own -/

/-- An entry that keeps its value, with one more condition on it. -/
def rangeHandler (e : Entry) (bad : State → WReq → Bool) : Handler :=
  { conds := fun s w => refuseIf (bad s w) abtRange 0, eff := storeEff e }

/-- TACHO_SIGN takes 1 or -1 (07 Table 07-2). -/
def hTachoSign : Handler := rangeHandler E.tachoSign (fun _ w => w.v = 0)

/-- CAN_DATA_BITRATE lies from the nominal rate of its interface to 5 Mbit/s (13 Table 13-8). -/
def hCanData : Handler := rangeHandler E.canDataBitrate (fun s w => w.v < gvs s E.canBitrate (w.sub - 2) 0 || 5000000 < w.v)

/-- SER_FORMAT: parity 0 to 2, stop bits, the other bits reserved (13 Table 13-8). -/
def hSerFormat : Handler :=
  { conds := fun _ w => refuseIf (8 ≤ w.v) abtRange 1 ++ refuseIf (w.v % 4 = 3) abtRange 0, eff := storeEff E.serFormat }

/-- AI_GAIN is not zero (16 Table 16-5). -/
def hAiGain : Handler := rangeHandler E.aiGain (fun _ w => w.v % 2 ^ 63 = 0)

/-- BB_CONFIG_NODE has the form of R238 (10 Table 10-10). -/
def hConfigNode : Handler := rangeHandler E.bbConfigNode (fun _ w => !(nodeOk 63 w.v))

/-- TWIN_PEER_NODE: 0, or a node address (12 Table 12-9). -/
def hPeerNode : Handler := rangeHandler E.twinPeerNode (fun _ w => w.v ≠ 0 && !(nodeOk 63 w.v))

/-- STALL_SHEDS: bits 7 to 4 are reserved (08 Table 08-6). -/
def hStallSheds : Handler := { conds := fun _ w => refuseIf (16 ≤ w.v) abtRange 1, eff := storeEff E.stallSheds }

/-- RESET_CMD (20 R484): accepted in STOP, in recovery, or while the module is held in start-up; it acts at the next boundary. -/
def hResetCmd : Handler :=
  { conds := fun s _ => refuseIf (!(s.sup.mode = 2 || s.st.recovery || s.st.heldIn)) abtState 1
    eff := fun s w => { s with st.resetDue := some w.ctx } }

/-- RECOVERY_PWD_RESET (20 R494), with event 0x1009, and 0x1043 for each password changed (18 R470). -/
def hRecoveryPwd : Handler :=
  { conds := fun s w => refuseIf (w.v = 1 && !(s.st.recovery && w.ctx = 0)) abtState 1
    eff := fun s w =>
      if w.v = 0 then s
      else
        let changed := [1, 2, 3, 4].filter (fun r =>
          let p := vget s.upd.pwds r {}
          if r = 3 then !p.delivered else p.hash.isSome)
        let s := [1, 2, 4].foldl (fun s r => updPwd s r (fun _ => {})) s
        let s := updPwd s 3 (fun _ => { delivered := true })
        let s := updPwd s 5 (fun p => { p with fails := 0, lockedAt := none })
        let s := changed.foldl (fun s r => emitL s (srcHub 0) 0x1043 1 (u8 r ++ u16 (ctxCode w.ctx))) s
        emitL s (srcHub 0) 0x1009 3 (u16 (ctxCode w.ctx)) }

/-- RESET_CMD (R484). -/
def execResetCmd (ctx : Nat) (s : State) : Out := .next (writeCmd hResetCmd E.resetCmd ctx 0x1200 1 1 s)

/-- RECOVERY_PWD_RESET (R494). -/
def execRecoveryPwdReset (ctx : Nat) (s : State) : Out := .next (writeCmd hRecoveryPwd E.recoveryPwdReset ctx 0x1200 8 1 s)

/-! ## The handler of an entry, by the first index and sub-index of its row -/

/-- Cycle, lanes, stalls, forcing, access, energy and triggers. -/
def handlersA : List ((Nat × Nat) × Handler) :=
  [((0x2200, 2), hStallLoad), ((0x2201, 1), hStallCmd), ((0x2201, 5), hStallReplace), ((0x2201, 9), hStallHold),
   ((0x2201, 14), hStallSheds), ((0x2210, 1), hStallImap), ((0x2400, 2), hCycleMode), ((0x2400, 4), hCycleCpf),
   ((0x2410, 3), hForceClear), ((0x40F0, 1), hDiForce), ((0x41F0, 1), hDoForce), ((0x43F0, 1), hAiForce),
   ((0x2100, 7), hRestableCmd), ((0x2001, 8), hLaneReset), ((0x2500, 12), hPosDatumSet), ((0x2581, 6), hTrigCancel),
   ((0x4404, 1), hTachoSign), ((0x1300, 2), hSupplyMode), ((0x1300, 3), hBudget E.budgetLine),
   ((0x1300, 4), hBudget E.budgetBattery), ((0x1300, 5), hBudget E.budgetStabling), ((0x1301, 2), hThermalCrit),
   ((0x1311, 1), hShedAllow), ((0x1140, 1), hLockBits), ((0x1141, 1), hLockAtStart), ((0x1200, 1), hResetCmd),
   ((0x1200, 8), hRecoveryPwd)]

/-- Backbone, consist, twin and bridge. -/
def handlersB : List ((Nat × Nat) × Handler) :=
  [((0x3000, 5), hBbPlanLoad), ((0x3000, 10), hDatumAnnounce), ((0x3000, 13), hBbUtcSet), ((0x3010, 1), hBbKey),
   ((0x3012, 1), hBbKeyActive), ((0x3020, 3), hConfigNode), ((0x3020, 4), hCompanionLoad), ((0x3020, 5), hCompanionRemove),
   ((0x3400, 64), hTrdpAllow), ((0x3402, 2), hPortVlans), ((0x3500, 32), hSessReserve), ((0x3500, 160), hSessDeny),
   ((0x3502, 7), hSessClose), ((0x3800, 1), hTwinEnable), ((0x3800, 2), hPeerNode), ((0x3800, 14), hDoParallel),
   ((0x3910, 1), hBrWindow), ((0x3930, 3), hCanData), ((0x3940, 3), hSerFormat)]

/-- Field, analog, recorder, update and performance counters. -/
def handlersC : List ((Nat × Nat) × Handler) :=
  [((0x4101, 2), hDoSafeState), ((0x4101, 5), hDoReset), ((0x4200, 4), hSafEdit), ((0x4200, 5), hSafCommit),
   ((0x4301, 3), hAiGain), ((0x5000, 11), hRecFreeze), ((0x5000, 13), hRecClear), ((0x5001, 1), hRecCursor),
   ((0x5001, 3), hRecFilter), ((0x5011, 2), hYardFormat), ((0x1110, 1), hPwdSet), ((0x1150, 1), hTrRootLoad),
   ((0x1150, 2), hTrCaLoad), ((0x1150, 3), hTrRootClear), ((0x1150, 4), hTrCaClear), ((0x1154, 1), hTrLockMask),
   ((0x5100, 1), hUpdOpen), ((0x5100, 5), hUpdAbort), ((0x5100, 6), hUpdActivate), ((0x5100, 7), hUpdFallback),
   ((0x5110, 65), hLoftDelete), ((0x5200, 3), hSetReset), ((0x5300, 1), hPcSnapCmd), ((0x5300, 2), hPcSnapPeriod),
   ((0x5300, 7), hPcClear), ((0x5310, 1), hPcCtrl), ((0x5330, 1), hPcSampleK), ((0x5340, 3), hPcLatArm)]

/-- How an entry behaves when it is written. -/
def handlerOf (e : Entry) (sub : Nat) : Handler :=
  if isSelect e.idx && e.sub = 1 then hSelect
  else if inSafSet e.idx sub then hSafParam
  else
    match (handlersA ++ handlersB ++ handlersC).find? (fun p => p.1 = (e.idx, e.sub)) with
    | some p => p.2
    | none => storeHandler e

/-- One write as it is judged and applied (R43): an index and sub-index without an entry is refused. -/
def applyWrite (s : State) (w : WReq) : State :=
  match lookupEntry s w.idx w.sub with
  | none => answerW (noteRefusal s w.ctx w.idx w.sub (abort abtObject 0) 0 false) w (abort abtObject 0)
  | some e => applyW (handlerOf e w.sub) e s w

/-- DICT_WRITE (R43): a write to an entry that has no command of its own. -/
def execDictWrite (ctx index sub v : Nat) (s : State) : Out :=
  .next (
    if nhas s.sup.ctxs ctx then
      match lookupEntry s index sub with
      | none => applyWrite s { ctx := ctx, idx := index, sub := sub, len := 0, v := v, answer := false }
      | some e => applyWrite s (mkW s ctx index sub e.len v e)
    else s)

/-! ## Values that are computed when they are read -/

/-- Seconds until a force expires. -/
def forceLeft (s : State) (kind ch : Nat) : Nat :=
  match nget? (forcesOf s kind) ch with
  | some f => (f.expires - s.cyc.tk + 999999999) / 1000000000
  | none => 0

/-- The 24 bytes of a slot plan entry (09 Table 09-7). -/
def entryBytes (p : PlanEntry) : List Byte :=
  u16 p.slot ++ u16 p.node ++ u16 p.stall ++ u8 p.period ++ u8 p.phase ++ u32 p.ident ++ u32 p.offset ++ u16 p.len
    ++ u8 p.dest ++ u8 (b2n p.mirror) ++ u32 0

/-- Module identity and access entries (23 Table 23-4, 18 Table 18-5, 20 Table 20-5, 21 Table 21-3). -/
def readBase (s : State) (ctx idx sub : Nat) : Option Nat :=
  let letters := [0x41, 0x42, 0x43, 0x44, 0x45, 0x46, 0x47, 0x48, 0x4A, 0x4B, 0x4C, 0x4D, 0x4E] ++
    [0x50, 0x51, 0x52, 0x53, 0x54, 0x55, 0x56, 0x57, 0x58, 0x59, 0x5A]
  let pw := vget s.upd.pwds sub {}
  let chg := nget s.sup.chg ((sub + 14) % 16) {}
  match idx, sub with
  | 0x1000, 3 => some (letters.getD (Config.hwRevision % 24) 0x41)
  | 0x1000, 4 => some (leNat (digits 12 Config.serial))
  | 0x1000, 5 => some (vget s.upd.banks s.upd.active {}).version
  | 0x1100, 1 => some (roleOf s ctx)
  | 0x1100, 2 => some (ctxSession ctx)
  | 0x1111, _ => some (b2n (pw.hash.isSome || pw.delivered) + 2 * b2n pw.lockedAt.isSome)
  | 0x1112, _ => some pw.fails
  | 0x1130, 1 => some (arbActive s)
  | 0x1151, _ => some (if sub ≤ 4 then rootCheck (getRoot s (sub - 1)) else (getRoot s (sub - 5)).kinds)
  | 0x1153, _ => some (if sub ≤ 8 then caCheck (getCa s (sub - 1)) else (getCa s (sub - 9)).usage)
  | 0x1160, 1 => some s.sup.chgCount
  | 0x1160, _ =>
    some (if nhas s.sup.chg ((sub + 14) % 16) then
        leNat (u64 chg.at_ ++ u16 chg.index ++ u8 chg.sub ++ u8 chg.role ++ u16 chg.ctx ++ u16 chg.inst)
      else 0)
  | 0x1200, 2 => some s.st.cause
  | 0x1200, 4 => some s.st.t0
  | 0x1200, 5 => some s.st.duration
  | 0x1200, 6 => some (b2n s.st.complete)
  | 0x1200, 7 => some (b2n s.st.recovery)
  | _, _ => none

/-- Supply, energy and sheds (08 Table 08-6, 22 Table 22-15). -/
def readEnergy (s : State) (idx sub : Nat) : Option Nat :=
  match idx, sub with
  | 0x1300, 1 => some s.sup.en.supplyMode
  | 0x1300, 8 => some s.sup.en.level
  | 0x1300, 9 => some (pAvg s)
  | 0x1300, 10 => some (s.supply.energy / 1000000000000)
  | 0x1301, 3 => some (ofInt 2 s.cyc.head.temp)
  | 0x1301, 4 => some (ofInt 2 (vget s.cyc.head.hubTemp 0 0))
  | 0x1301, 5 => some (ofInt 2 (vget s.cyc.head.hubTemp 1 0))
  | 0x1301, 6 => some (ofInt 2 (vget s.sup.samples 0 {}).temp)
  | 0x1301, 7 => some (ofInt 2 (vget s.sup.samples 1 {}).temp)
  | 0x1302, 1 => some s.cyc.head.vin
  | 0x1302, 2 => some s.supply.holdup
  | 0x1302, 3 => some s.supply.holdupMs
  | 0x1310, _ => some (getShed s (sub - 1)).state
  | _, _ => none

/-- Lanes, cores, stalls and the cycle (04 Table 04-5, 05 Table 05-14, 06 Table 06-10, 19 Table 19-5). -/
def readCycle (s : State) (idx sub inst : Nat) : Option Nat :=
  let core := inst % 16
  let cp := vget s.perf.cores inst {}
  let st := nget s.sup.stalls inst {}
  match idx, sub with
  | 0x2001, 1 => some (match (getLane s inst).state with | .inSet => 0 | .out => 1 | .restabling => 2 | .shadow => 3 | .failed => 4)
  | 0x2001, 2 => some (getLane s inst).cause
  | 0x2041, 1 => some ((s.sup.stalls.filter (fun p => p.2.desc.homeCore = core)).length)
  | 0x2041, 2 => some (codeFree s core / 1024)
  | 0x2041, 3 => some (dataFree s core / 1024)
  | 0x2050, 1 => some cp.cycles
  | 0x2050, 10 => some cp.ovf.toNat
  | 0x2050, _ => some (vget cp.pc (sub - 2) 0)
  | 0x2051, 1 => some (leNat (cp.samples.flatMap (leBytes 16)))
  | 0x2051, _ => some cp.sampleCount
  | 0x2100, 2 => some (laneMask s)
  | 0x2100, 3 => some (b2n (getHub s 0).voter.inService + 2 * b2n (getHub s 1).voter.inService)
  | 0x2100, 8 => some ((([0, 1, 2].filterMap (fun l => (getLane s l).attempt.map (sentSoFar s))).headD 0) / 1024)
  | 0x2200, 4 => some s.sup.stalls.length
  | 0x2200, 5 => some ((268435456 - ckptUsed s) / 1024)
  | 0x2201, 2 => some (stallStateCode st.state)
  | 0x2201, 3 => some st.pkgNo
  | 0x2201, 4 => some st.desc.rights.toNat
  | 0x2201, 6 => some st.exec.restarts
  | 0x2201, 7 => some st.exec.faultCause.toNat
  | 0x2201, 8 => some (leNat (frameBytes st.exec.rescue))
  | 0x2201, 10 => some st.phase
  | 0x2201, 13 => some st.discarded
  | 0x2201, 15 => some (factorAt st s.sup.en.levelCur)
  | 0x2201, 16 => some st.mirrorSt
  | 0x2210, _ => some (nget st.imap sub 0)
  | 0x2400, 1 => some s.sup.mode
  | 0x2400, 3 => some s.cyc.k
  | 0x2400, 5 => some (capacity s)
  | 0x2400, 6 => some ((retainTotal s 65535 + 1023) / 1024)
  | 0x2400, 7 => some (heldCount s)
  | 0x2410, 1 => some (forceCount s)
  | 0x2420, _ => some (coreAdmitted s (sub - 1))
  | _, _ => none

/-- Time, position, triggers and tachos (07 Table 07-2). -/
def readTime (s : State) (idx sub inst : Nat) : Option Nat :=
  let tr := nget? s.sup.triggers inst
  match idx, sub with
  | 0x2500, 1 => some s.cyc.tk
  | 0x2500, 2 => some s.cyc.c
  | 0x2500, 3 => some (getHub s (dutyHub s)).timeState
  | 0x2500, 6 => some (ofInt 4 s.hubDiff)
  | 0x2500, 7 => some (ofInt 8 s.sup.tp.utcOffset)
  | 0x2500, 8 => some (b2n s.sup.tp.utcValid)
  | 0x2500, 9 => some (ofInt 8 (s.sup.tp.e / 1000000))
  | 0x2500, 10 => some s.sup.tp.quality
  | 0x2500, 11 => some s.sup.tp.datumNumber
  | 0x2580, 2 => some s.sup.triggers.length
  | 0x2581, 1 => some (match tr with | none => 0 | some t => if t.armed then 1 else 2)
  | 0x2581, 2 => some ((tr.map (·.owner)).getD 0)
  | 0x2581, 3 => some ((tr.map (·.req)).getD 0)
  | 0x2581, 4 => some ((tr.map (fun t => ofInt 8 t.next)).getD 0)
  | 0x2581, 5 => some ((tr.map (·.firings)).getD 0)
  | 0x4405, _ =>
    some (ofInt 8 ((vget s.sup.samples (tachoDie (sub - 1)) {}).tacho.getD ((sub - 1) % 2) {}).count)
  | _, _ => none

/-- The nodes of the plan in force in ascending train address (10 R285). -/
def planNodes (s : State) : List Nat := ((s.bb.inForce.entries.map (·.node)).dedup).mergeSort (· ≤ ·)

/-- Backbone entries (09 Table 09-9, 10 Table 10-10). -/
def readBackbone (s : State) (idx sub inst : Nat) : Option Nat :=
  let pe := (s.bb.inForce.entries.find? (fun p => p.slot = inst)).getD {}
  let node := (planNodes s).getD inst 0
  match idx, sub with
  | 0x3000, 3 => some s.bb.inForce.number
  | 0x3000, 4 => some s.bb.inForce.entries.length
  | 0x3000, 6 => some ((s.bb.configured.map (·.number)).getD 0)
  | 0x3001, 1 => some (getLink s inst).state
  | 0x3001, 7 => some (linkDelayPs (getLink s inst))
  | 0x3011, _ => some (bbKeyCheckOf s (sub - 1))
  | 0x3021, _ => some (((s.bb.companions[sub - 1]?).map (·.number)).getD 0)
  | 0x3022, 3 => some s.bb.address
  | 0x3022, 4 => some s.bb.ferryman
  | 0x3022, 5 => some s.bb.inaug
  | 0x3022, 6 => some s.bb.inForce.vehicles
  | 0x3022, 7 => some s.bb.inForce.nodes
  | 0x3022, 8 => some s.bb.vbase
  | 0x3022, 9 => some (b2n s.bb.unitReversed)
  | 0x3022, 10 => some (b2n (moduleReversed s))
  | 0x3022, 11 => some s.bb.refusal
  | 0x3022, _ => some (getPlane s (sub - 1)).node
  | 0x3023, _ =>
    some (if sub ≤ 2 then ofInt 4 (getPlane s (sub - 1)).wAft
      else if sub ≤ 4 then ofInt 4 (getPlane s (sub - 3)).wFore
      else ofInt 4 (getPlane s (sub - 5)).phaseErr)
  | 0x3101, _ => some (leNat (entryBytes pe))
  | 0x3102, 1 => some pe.node
  | 0x3102, _ => some pe.stall
  | 0x3103, 1 => some pe.ident
  | 0x3103, _ => some pe.offset
  | 0x3104, 1 => some pe.period
  | 0x3104, _ => some pe.len
  | 0x3201, 1 => some node
  | 0x3201, 2 => some (((s.bb.roster.units.find? (fun u => u.admitted && u.vbase < node / 4 && node / 4 ≤ u.vbase + u.vehicles)).map
      (·.id)).getD 0)
  | 0x3201, 3 => some (nget s.bb.lastHeard node 0)
  | _, _ => none

/-- Consist, session, twin and bridge entries (11 Table 11-9, 12 Table 12-9, 13 Table 13-8). -/
def readPorts (s : State) (idx sub inst : Nat) : Option Nat :=
  let e := nget s.con.sessions inst {}
  match idx, sub with
  | 0x3400, 6 => some (leNat (beBytes 6 (Config.mac 0)))
  | 0x3400, 7 => some (leNat (beBytes 6 (Config.mac 1)))
  | 0x3401, _ => some (portState s inst)
  | 0x3500, 2 => some ((s.con.sessions.filter (fun p => p.1 < 4096)).length)
  | 0x3501, 1 => some e.state
  | 0x3501, 2 => some e.fp
  | 0x3501, 3 => some e.anchor
  | 0x3501, 4 => some (b2n e.undated + 2 * b2n e.reserved + 4 * b2n e.pathA.isSome + 8 * b2n e.pathB.isSome)
  | 0x3501, 5 => some (roleOf s (sessCtx inst))
  | 0x3501, 6 => some e.opened
  | 0x3501, 7 => some e.phase
  | 0x3502, 1 => some e.txSeq
  | 0x3502, 2 => some (vget e.wins 0 {}).high
  | 0x3502, 3 => some (vget e.wins 1 {}).high
  | 0x3502, 4 => some e.replays
  | 0x3502, 5 => some e.authFail
  | 0x3502, 6 => some (getCtx s (sessCtx inst)).refusals
  | 0x3502, 8 => some e.superseded
  | 0x3800, 6 => some s.twin.lease
  | 0x3800, 7 => some s.twin.mode
  | 0x3800, 8 => some ((twinLinks s).foldl (fun m l => setBit m l true) 0)
  | 0x3800, 9 => some (if s.twin.peerSerial = 0 then 0 else leNat (digits 12 s.twin.peerSerial))
  | 0x3800, 16 => some (mirrorBytes s 65535 none)
  | 0x3811, _ => some ((nget? s.sup.dict (ekey 0x3810 1 0)).map (fun k => Config.aesCheck k % 2 ^ 32) |>.getD 0)
  | 0x3951, _ => some (((nget? s.sup.groups sub).bind (·.holder)).getD 0xFFFF)
  | _, _ => none

/-- AI_VALUE (16 R414): raw × gain + offset in binary64. -/
def aiValueOf (s : State) (c : Nat) (raw : Int) : Word :=
  let g := BitVec.ofNat 64 (gvi s E.aiGain c)
  let o := BitVec.ofNat 64 (gvi s E.aiOffset c)
  (fpAdd (fpMul (fpOfI (BitVec.ofInt 64 raw)).1 g).1 o).1

/-- Field, evaluator and analog entries (14 Table 14-5, 15 Table 15-8, 16 Table 16-5, 05 Table 05-12), from the field samples that took
part in the agreement (01 R19). -/
def readField (s : State) (idx sub inst : Nat) : Option Nat :=
  let d := (vget s.sup.samples (inst / 32) {}).di.getD (inst % 32) {}
  let o := (vget s.sup.samples (inst / 16) {}).outs.getD (inst % 16) {}
  let ai := (vget s.sup.samples (inst / 8) {}).ai.getD (inst % 8) {}
  let silent := fun (die : Nat) => (vget s.sup.samples die {}).silent
  match idx, sub with
  | 0x40F0, 1 => some (match nget? s.sup.forceDi inst with | some f => f.value + 1 | none => 0)
  | 0x40F0, 2 => some (forceLeft s 1 inst)
  | 0x41F0, 1 => some (match nget? s.sup.forceDo inst with | some f => f.value + 1 | none => 0)
  | 0x41F0, 2 => some (forceLeft s 2 inst)
  | 0x43F0, 1 => some (b2n (nhas s.sup.forceAi inst))
  | 0x43F0, 3 => some (forceLeft s 3 inst)
  | 0x4002, 1 => some (b2n d.value)
  | 0x4002, 2 => some d.fault
  | 0x4002, 3 => some (d.edges % 2 ^ 32)
  | 0x4100, 3 => some (b2n (silent 0) + 2 * b2n (silent 1))
  | 0x4100, 4 => some (s.field.dissipation % 2 ^ 32)
  | 0x4101, 1 => some (doRole s false inst)
  | 0x4102, 1 => some (b2n o.applied)
  | 0x4102, 2 => some (o.current % 2 ^ 16)
  | 0x4102, 3 => some o.fault
  | 0x4200, 6 => some (safCrc s false)
  | 0x4200, 7 => some (safCrc s true)
  | 0x4202, 1 => some (agreedInst s inst).state
  | 0x4202, 2 => some (agreedInst s inst).cause
  | 0x4303, 1 => some (ofInt 4 ai.raw)
  | 0x4303, 2 => some (aiValueOf s inst ai.raw).toNat
  | 0x4303, 3 => some ai.status
  | _, _ => none

/-- A boot bank as UPD_BANK shows it (18 Table 18-5). -/
def bankBytes (s : State) (b : Nat) : List Byte :=
  let k := vget s.upd.banks b {}
  u8 k.state ++ u8 (b2n (s.upd.active = b)) ++ u8 k.trials ++ u8 0 ++ u32 k.version ++ u32 k.seq ++ u16 k.epoch ++ u16 k.format

/-- A package as LOFT_INFO shows it, in ascending package number (18 Table 18-5). -/
def loftBytes (n : Nat) (p : Package) : List Byte :=
  u32 n ++ u8 p.kind ++ u8 p.state ++ u16 0 ++ u32 (fieldAt p.header 16 4) ++ u32 (pkgBlocks p) ++ u32 p.payloadBlocks
    ++ u32 p.progress ++ u8 p.root ++ leBytes 7 0

/-- UPD_STATE (18 Table 18-5). -/
def updStateOf (s : State) : Nat :=
  match s.upd.transfer with
  | none => if s.upd.paused then 4 else 0
  | some t =>
    if s.upd.paused then 4
    else
      let p := nget s.upd.loft t.pkg {}
      if p.kind = 0 then 1 else if p.manifestBlocks < pkgManifest p then 2 else 3

/-- Recorder, update and performance entries (17 Table 17-8, 18 Table 18-5, 19 Table 19-5). -/
def readStore (s : State) (ctx idx sub : Nat) : Option Nat :=
  let j := (getHub s (dutyHub s)).journal.slots
  match idx, sub with
  | 0x5000, 2 => some j.length
  | 0x5000, 3 => some ((j.filter (fun x => !(lowRec x.2.rec_))).length)
  | 0x5000, 8 => some s.recd.seconds
  | 0x5000, 9 => some s.recd.cycles
  | 0x5000, 10 => some (getHub s 0).buffer.length
  | 0x5000, 12 => some (match s.recd.freeze with
      | some (_, t) => (t + 30000000000 - s.cyc.tk + 999999999) / 1000000000
      | none => 0)
  | 0x5001, 1 => some (getCtx s ctx).cursor
  | 0x5001, 2 => some (leNat (windowBytes s ctx))
  | 0x5001, 3 => some (getCtx s ctx).filter
  | 0x5010, 1 => some (getYard s 0).state
  | 0x5010, 2 => some (getYard s 1).state
  | 0x5010, 5 => some (waitingRecs s 0).length
  | 0x5010, 6 => some (waitingRecs s 1).length
  | 0x5100, 2 => some (updStateOf s)
  | 0x5100, 3 => some ((s.upd.transfer.map (·.pkg)).getD 0)
  | 0x5100, 4 => some ((s.upd.transfer.map (fun t => nextField s t.pkg)).getD 0)
  | 0x5100, 9 => some s.upd.epoch
  | 0x5101, _ => some (leNat (bankBytes s (sub - 1)))
  | 0x5110, 66 => some (loftFree s)
  | 0x5110, _ => some (match s.upd.loft[sub - 1]? with | some p => leNat (loftBytes p.1 p.2) | none => 0)
  | 0x5200, 1 => some s.upd.format
  | 0x5200, 2 => some s.upd.snapFormat
  | 0x5200, 4 => some (partsIn s (s.upd.storeDue.map Prod.fst)).length
  | 0x5341, _ => some (vget s.perf.lat (sub - 1) []).length
  | 0x5342, _ => some (latPart 0)
  | 0x5343, _ => some (latPart 1)
  | 0x5344, _ => some (latPart 2)
  | _, _ =>
    if 0x5381 ≤ idx && idx ≤ 0x5386 then some (nget s.perf.blocks (ekey idx sub 0) 0) else none
where
  /-- The 64 entries of a lane's latency record that a sub-index shows. -/
  latPart (l : Nat) : Nat := leNat ((((vget s.perf.lat l []).drop (64 * (sub - 1))).take 64).flatMap (leBytes 16))

/-- The value that an entry keeps, as a context reads it: of the safety parameter set the editing context reads the pending copy (15
R397). -/
def keptValue (s : State) (ctx : Nat) (e : Entry) (idx sub inst : Nat) : Nat :=
  if inSafSet idx sub && s.saf.edit = some ctx then safParam s true e sub inst else gvx s e idx sub inst

/-- The value of an entry, as the little-endian number of its bytes (R28, R36). -/
def readEntry (s : State) (ctx : Nat) (e : Entry) (idx sub inst : Nat) : Nat :=
  let d := if sub = 0 then some e.dflt
    else if isSelect idx && e.sub = 1 then some (selVal (getCtx s ctx) (selPos idx))
    else if idx < 0x1300 then readBase s ctx idx sub
    else if idx < 0x2000 then readEnergy s idx sub
    else if idx < 0x2500 then readCycle s idx sub inst
    else if idx < 0x3000 || (0x4400 ≤ idx && idx < 0x5000) then readTime s idx sub inst
    else if idx < 0x3400 then readBackbone s idx sub inst
    else if idx < 0x4000 then readPorts s idx sub inst
    else if idx < 0x5000 then readField s idx sub inst
    else if idx < 0x6000 then readStore s ctx idx sub
    else none
  match d with
  | some v => v % 256 ^ e.len
  | none => keptValue s ctx e idx sub inst

/-- Does the entry need a shed that is not OPEN (08 R224): the counters of a gated port or core? -/
def shutTarget (s : State) (idx inst : Nat) : Bool :=
  (idx = 0x3403 && (getShed s (portShed inst)).state ≠ 0)
    || ((idx = 0x2050 || idx = 0x2051) && (getShed s (inst % 16 / 4)).state ≠ 0)

/-! ## READ, DESCRIBE, LOGIN and LOGOUT (R40, R41, R541) -/

/-- The refusal of a request that came through a port of a CLOSING shed (08 R224). -/
def viaConds (r : Request) : List Nat := refuseIf r.via.isSome abtState 2

/-- The conditions that refuse a READ. -/
def readConds (s : State) (r : Request) (e : Entry) (inst : Nat) : List Nat :=
  refuseIf (!instExists s e.sel inst) abtObject 1
    ++ refuseIf (e.rd = 255) abtAccess 0xFF
    ++ refuseIf (e.rd < 254 && !roleOk (roleOf s r.ctx) e.rd) abtAccess e.rd
    ++ refuseIf (r.elen ≠ e.len) abtWidth e.len
    ++ refuseIf (r.payload ≠ []) abtWidth 0
    ++ refuseIf (shutTarget s r.index inst) abtState 2
    ++ viaConds r

/-- The attributes of an entry (23 R530). -/
def describeBytes (e : Entry) (sub : Nat) : List Byte :=
  let n := e.len
  u8 e.ty ++ u16 n ++ u8 e.rd ++ u8 e.wr ++ u8 e.stall ++ u8 (b2n e.persist) ++ u16 (e.lockAt sub)
    ++ (match e.lim with
        | some (lo, hi) => leBytes n (ofInt n lo) ++ leBytes n (ofInt n hi)
        | none => leBytes (2 * n) 0)
    ++ leBytes n (e.dfltAt sub)

/-- Answer a DAP request: a refusal is counted or recorded under R47. -/
def answerOp (s : State) (r : Request) (code : Nat) (own : Bool) (data : List Byte) : State :=
  let s := if code = 0 then s else noteRefusal s r.ctx r.index r.sub code 0 own
  respond s { ctx := r.ctx, reqId := r.reqId, op := r.op, index := r.index, sub := r.sub, code := code, elen := r.elen, via := r.via
              data := if code = 0 then data else (u32 code).reverse }

/-- The conditions that refuse a LOGIN without a derivation (R32, R541, 18 R467). -/
def loginConds (s : State) (r : Request) : List Nat :=
  let role := fieldAt r.payload 0 1
  refuseIf (lockedOut s role) abtAuth 2
    ++ refuseIf (4 ≤ role && role ≤ 5 && r.ctx ≠ 0) abtAuth 3
    ++ refuseIf (r.elen ≠ 0) abtWidth 0
    ++ refuseIf (!(loginBody r.payload)) abtRange 2
    ++ viaConds r

/-- LOGIN (R32, R541, 18 R467, R470): a success is event 0x1040. -/
def decideLogin (s : State) (r : Request) : State :=
  let role := fieldAt r.payload 0 1
  let code := chooseAbort (loginConds s r)
  if code ≠ 0 then answerOp s r code false []
  else if pwdMatches s role (r.payload.drop 1) then
    let s := updCtx (pwdPass s role) r.ctx (fun c => { c with role := role })
    answerOp (emitL s (srcHub 0) 0x1040 1 (u16 (ctxCode r.ctx) ++ u8 role)) r 0 false []
  else answerOp (pwdFail s role r.ctx) r (abort abtAuth 1) true []

/-- The conditions that refuse a LOGOUT or a DESCRIBE of an entry that exists (R541). -/
def plainConds (r : Request) : List Nat := refuseIf (r.elen ≠ 0 || r.payload ≠ []) abtWidth 0 ++ viaConds r

/-- Decide a request other than a WRITE, in the crossing after the one in which it arrived (R43). `v` is the state as the context
reads it: with its own select values, cursor and filter as the writes before the request in its order leave them (R44, 17 R430). -/
def decideOp (s v : State) (r : Request) : State :=
  match r.op with
  | 1 =>
    match lookupEntry s r.index r.sub with
    | none => answerOp s r (abort abtObject 0) false []
    | some e =>
      let inst := instOf (getCtx v r.ctx) e.sel
      let code := chooseAbort (readConds s r e inst)
      if code ≠ 0 then answerOp s r code false []
      else answerOp s r 0 false (leBytes e.len (readEntry v r.ctx e r.index r.sub inst))
  | 3 => decideLogin s r
  | 4 =>
    let code := chooseAbort (plainConds r)
    if code ≠ 0 then answerOp s r code false []
    else answerOp (updCtx s r.ctx (fun c => { c with role := 0 })) r 0 false []
  | _ =>
    match lookupEntry s r.index r.sub with
    | none => answerOp s r (abort abtObject 0) false []
    | some e =>
      let code := chooseAbort (plainConds r)
      if code ≠ 0 then answerOp s r code false []
      else answerOp s r 0 false (describeBytes e r.sub)

/-! ## Requests in their order (R42 to R44) -/

/-- The payload with the bytes of the slots not written taken from the value that the entry has (R50). -/
def fillGaps (gaps : List Nat) (cur : Nat) (bs : List Byte) : List Byte :=
  bs.zipIdx.map (fun p => if gaps.contains (p.2 / 8) then BitVec.ofNat 8 (bits cur (8 * p.2) 8) else p.1)

/-- The payload of a request at a state: that of a DICTWIN write with its gaps filled. -/
def payloadAt (s : State) (r : Request) (e : Entry) (inst : Nat) : List Byte :=
  if r.gaps = [] then r.payload else fillGaps r.gaps (readEntry s r.ctx e r.index r.sub inst) r.payload

/-- A WRITE request as it is judged; the bytes of a DICTWIN slot beyond the entry's length are reserved (R50). -/
def requestW (s : State) (r : Request) (e : Entry) : WReq :=
  let inst := r.fixedInst.getD (instOf (getCtx s r.ctx) e.sel)
  { ctx := r.ctx, idx := r.index, sub := r.sub, reqId := r.reqId, elen := r.elen, role := r.role, inst := inst
    len := if ctxIsStall r.ctx || r.payload.length = e.len then r.elen else 0
    v := leNat ((payloadAt s r e inst).take e.len) }

/-- The code with which a WRITE request would be refused at a state, or 0. -/
def writeCode (s : State) (r : Request) : Nat :=
  match lookupEntry s r.index r.sub with
  | none => abort abtObject 0
  | some e =>
    let w := requestW s r e
    let h := handlerOf e w.sub
    chooseAbort (genericConds s w e ++ refuseIf (writeBlock h s w).isSome abtBusy 1 ++ h.conds s w ++ viaConds r)

/-- What a context's own write leaves for the reads after it in its order: a select value, cursor or filter (R44, 17 R430). -/
def writeAhead (v : State) (r : Request) : State :=
  if !(isSelect r.index && r.sub = 1) && !(r.index = 0x5001 && (r.sub = 1 || r.sub = 3)) then v
  else
    match lookupEntry v r.index r.sub with
    | none => v
    | some e => if writeCode v r = 0 then (handlerOf e r.sub).eff v (requestW v r e) else v

/-- The requests of a crossing as they are decided: the state, what each context reads, and the writes that wait for the boundary. -/
structure ReqRun where
  s : State
  ahead : NMap Context := []
  writes : List Request := []

/-- Decide one request in its place: a WRITE keeps the role that the context holds there, and is judged at its boundary; one that
came through a CLOSING shed is refused. -/
def decideOne (a : ReqRun) (r : Request) : ReqRun :=
  let s := a.s
  if !(nhas s.sup.ctxs r.ctx) then a
  else
    let c := getCtx s r.ctx
    let run := nget a.ahead r.ctx c
    let v := updCtx s r.ctx (fun c => { c with sels := run.sels, cursor := run.cursor, filter := run.filter })
    if r.op ≠ 2 then { a with s := decideOp s v r }
    else if r.via.isSome then { a with s := answerOp s r (writeCode v r) false [] }
    else { a with ahead := nset a.ahead r.ctx (getCtx (writeAhead v r) r.ctx), writes := a.writes ++ [{ r with role := some c.role }] }

/-- A DAP request that only a hub image not used carried is lost to the crossing (06 R161). -/
def dropLost (s : State) (used : List Nat) : State :=
  let lost := fun (r : Request) => !(ctxIsStall r.ctx) && decide (r.due = s.cyc.k + 1) && !(used.any (bit r.hubs))
  let s' := { s with sup.reqs := s.sup.reqs.filter (fun r => !(lost r)) }
  (s.sup.reqs.filter lost).foldl (fun s r => updCtx s r.ctx (fun c => { c with outstanding := c.outstanding - 1 })) s'

/-- The requests that arrived in the crossing before the present one, context by context in their order (R42, R43). -/
def decideRequests (s : State) : State :=
  let now := fun (r : Request) => !(ctxIsStall r.ctx) && decide (r.due = s.cyc.k + 1)
  let a := (s.sup.reqs.filter now).foldl decideOne { s := { s with sup.reqs := s.sup.reqs.filter (fun r => !(now r)) } }
  { a.s with sup.reqs := a.writes ++ a.s.sup.reqs }

end Sys2Proof.Machine
end

