-- ==== Sys2Proof/Machine/Analog.lean ====
section
/-!
DEFINITION. Analog inputs (16): valid and suppressed outputs, restarts, losses, the burden, and the detectors. `t` is an
instant of the die in ns; an output command comes when the output is complete (R408, log 21).
-/

namespace Sys2Proof.Machine

def updAi (s : State) (ch : Nat) (f : Ai → Ai) : State := { s with field.ai := vupd s.field.ai ch f }
def getAi (s : State) (ch : Nat) : Ai := vget s.field.ai ch {}

/-- Is the die of an analog channel in operation? -/
def aiUp (s : State) (ch : Nat) : Bool := !(getDie s (ch / 8)).failed

/-- Output period of a rate, in ns (16 Table 16-2). -/
def aiPeriod (rate : Nat) : Nat := 12500 * 4 ^ rate

/-- A raw value clamped to the linear span of a range (R403, Table 16-1). -/
def aiClamp (range : Nat) (x : Int) : Int :=
  if range = 1 then max (-12000000) (min 12000000 x) else max (-2000000) (min 24000000 x)

/-- OVER and UNDER of a valid output (R405). -/
def aiOver (range : Nat) (x : Int) : Bool := if range = 1 then 10500000 < x else 21000000 < x
def aiUnder (range : Nat) (x : Int) : Bool := if range = 1 then x < -10500000 else x < -500000

/-! ## Detectors (R412) -/

/-- exp(-num/den) in units of 2^-128, for an argument of at most 32: a series on a sixty-fourth of it, then six squarings. -/
def expNeg (num den : Nat) : Nat :=
  let one := 2 ^ 128
  let x := num * one / (den * 64)
  let s : Int × Int := (List.range 40).foldl (fun (acc : Int × Int) k =>
    let term := -(acc.2 * x / ((k + 1 : Nat) * one : Nat))
    (acc.1 + term, term)) ((one : Int), (one : Int))
  (List.range 6).foldl (fun e _ => e * e / one) s.1.toNat

/-- The envelope after one valid output of magnitude `m`: it rises at once, otherwise it decays and is rounded down. -/
def envStep (v m period release : Nat) : Nat :=
  if v < m then m else v * expNeg period (release * 1000) / 2 ^ 128

/-- The RMS of the outputs held, rounded down; with `ac` the mean is subtracted first. 0 with none. -/
def rmsOf (l : List Int) (ac : Bool) : Nat :=
  let n := l.length
  let sq := (l.map (fun x => x * x)).sum
  let sm := l.sum
  if n = 0 then 0
  else if ac then Nat.sqrt (((n : Int) * sq - sm * sm).toNat / (n * n))
  else Nat.sqrt (sq.toNat / n)

/-- A filter restart clears the filter and resets the detectors (R410, R412). -/
def aiRestart (a : Ai) : Ai :=
  { a with outputs := 0, valid := false, settling := true, peaked := false, rmsBuf := [], env := 0 }

/-- A valid output: its value and instant, and the detectors. -/
def aiTake (a : Ai) (x : Int) (t : Nat) : Ai :=
  { a with
    raw := x, instant := t, valid := true, settling := false, samples := a.samples + 1, peaked := true
    hi := if a.peaked then max a.hi x else x
    lo := if a.peaked then min a.lo x else x
    rmsBuf := (x :: a.rmsBuf).take (2 ^ a.rmsLen)
    env := envStep a.env x.natAbs (aiPeriod a.rate) a.envRel }

/-- AI_OUTPUT (R408, R409): the 41st output after a restart is the first valid one (R410). The first valid output ends
MODULATOR with event 0x4042, and a settling passed without opening, the burden closed, lets the burden be recorded again (R404). -/
def execAiOutput (ch : Fin 16) (raw : Int) (t : Nat) (s : State) : Out :=
  let c := ch.val
  let a := getAi s c
  .next (
    if !(aiUp s c) || a.range = 0 then s
    else
      let n := a.outputs + 1
      if a.lossAt.any (· ≤ t) || n < 41 then
        updAi s c (fun a => { a with outputs := n, valid := false, settling := true })
      else
        let s := updAi s c (fun a => { aiTake { a with outputs := n } (aiClamp a.range raw) t with
          modulator := false, burdenRec := a.burdenRec && a.burdenOpen.isSome })
        if a.modulator then emitF s (c / 8) t 0x4042 1 (u8 (c % 8) ++ u32 (a.faultFor / 1000)) else s)

/-! ## Losses and the burden (R404, R411) -/

/-- MODULATOR_LOSS_START, with event 0x4040. -/
def execModulatorLossStart (ch : Fin 16) (t : Nat) (s : State) : Out :=
  let c := ch.val
  let a := getAi s c
  .next (
    if !(aiUp s c) || a.range = 0 || a.lossAt.isSome then s
    else
      let s := bumpi (updAi s c (fun a => { a with lossAt := some t, lost := true, valid := false, settling := true })) E.aiLosses c
      emitF s (c / 8) t 0x4040 1 (u8 (c % 8) ++ u64 (fieldTime s (c / 8) t)))

/-- MODULATOR_LOSS_END: the filter restarts (R410). -/
def execModulatorLossEnd (ch : Fin 16) (t : Nat) (s : State) : Out :=
  let c := ch.val
  .next (match (getAi s c).lossAt with
    | none => s
    | some t0 => updAi s c (fun a => { aiRestart a with lossAt := none, faultFor := if a.modulator then t - t0 else a.faultFor }))

/-- MODULATOR_FAULT: a loss has lasted 100 ms; event 0x4041. -/
def execModulatorFault (ch : Fin 16) (t : Nat) (s : State) : Out :=
  let c := ch.val
  let a := getAi s c
  .next (match a.lossAt with
    | none => s
    | some t0 =>
      if t0 + 100000000 ≤ t && !a.modulator then
        emitF (updAi s c (fun a => { a with modulator := true })) (c / 8) t 0x4041 2
          (u8 (c % 8) ++ u64 (fieldTime s (c / 8) t0))
      else s)

/-- BURDEN_OPEN (R404): recorded once until a full settling has passed without opening; event 0x4043. -/
def execBurdenOpen (ch : Fin 16) (t : Nat) (s : State) : Out :=
  let c := ch.val
  let a := getAi s c
  .next (
    if !(aiUp s c) || a.range ≠ 2 || a.burdenOpen.isSome then s
    else
      let n := a.burdenCount + 1
      let s := updAi s c (fun a => { a with
        burdenOpen := some t, burdenRec := true, burdenCount := if a.burdenRec then n else 0 })
      if a.burdenRec then s else emitF s (c / 8) t 0x4043 2 (u8 (c % 8) ++ u32 n))

/-- BURDEN_CLOSE (R404): 1 s after it opened; the filter restarts. -/
def execBurdenClose (ch : Fin 16) (t : Nat) (s : State) : Out :=
  let c := ch.val
  .next (match (getAi s c).burdenOpen with
    | none => s
    | some t0 => if t0 + 1000000000 ≤ t then updAi s c (fun a => { aiRestart a with burdenOpen := none }) else s)

/-! ## At the field sample (R408, R410, R412, R413) -/

/-- The status of a channel (Table 16-3). -/
def aiStatus (a : Ai) : Nat :=
  if a.range = 0 then 0x0100
  else
    b2n a.valid + 2 * b2n (!a.valid) + 4 * b2n (a.valid && aiOver a.range a.raw) + 8 * b2n (a.valid && aiUnder a.range a.raw)
      + 16 * b2n a.lost + 32 * b2n a.modulator + 64 * b2n a.burdenOpen.isSome
      + 128 * b2n (a.rmsBuf.length < 2 ^ a.rmsLen)

/-- The item that a field sample carries for a channel; `at_` is its output instant in train time. Where the peak detector was
reset after the last valid output of the sample, the peaks are not stated: free values (log 6). -/
def aiItem (a : Ai) (at_ : Nat) (fhi flo : Nat) : AiItem :=
  let open_ := 0 < a.samples && !a.peaked
  { instant := at_, raw := a.raw, env := a.env, rms := rmsOf a.rmsBuf a.rmsAc, status := aiStatus a, samples := a.samples
    hi := if open_ then toInt 4 fhi else if a.peaked then a.hi else a.raw
    lo := if open_ then toInt 4 flo else if a.peaked then a.lo else a.raw }

/-- Changes of range, rate and detector parameters take effect at the field sample (R410, R412). -/
def aiTakeCfg (s : State) (c : Nat) : State :=
  let die := c / 8
  let v := fun (e : Entry) => dieCfg s die e e.sub c
  updAi s c (fun a =>
    let a := if v E.aiRange ≠ a.range || v E.aiRate ≠ a.rate then
        let a' := aiRestart { a with range := v E.aiRange, rate := v E.aiRate }
        if v E.aiRange = 0 then { a' with lossAt := none, modulator := false, burdenOpen := none, burdenRec := false } else a'
      else a
    let a := if v E.aiRmsLen ≠ a.rmsLen || (v E.aiRmsAc = 1) ≠ a.rmsAc then
        { a with rmsLen := v E.aiRmsLen, rmsAc := v E.aiRmsAc = 1, rmsBuf := [] }
      else a
    if v E.aiEnvRelease ≠ a.envRel then { a with envRel := v E.aiEnvRelease, env := 0 } else a)

/-- A channel at a field sample: its item, and the detectors that start afresh from it. -/
def aiSample (s : State) (c : Nat) : State :=
  let a := getAi s c
  let fhi := freeVal s
  let s := if 0 < a.samples && !a.peaked then freeNext s else s
  let flo := freeVal s
  let s := if 0 < a.samples && !a.peaked then freeNext s else s
  let at_ := if a.samples = 0 then a.item.instant else fieldTime s (c / 8) a.instant
  let s := updAi s c (fun a => { a with item := aiItem a at_ fhi flo, samples := 0, peaked := false, lost := false })
  aiTakeCfg s c

end Sys2Proof.Machine
end

