-- ==== Sys2Proof/Machine/Image.lean ====
section
/-!
DEFINITION. The input image: the field sample (05 R120, R121), the hub's closed image (05 R121, 13 R344), the agreement of the lanes
(06 R160 to R163), the merge (05 R125, R126) and what is evaluated from the adopted image.
-/

namespace Sys2Proof.Machine

/-! ## The field sample (R120, R121, 14 R360, R374) -/

/-- The TIME64 of an edge stamp: translated at the first sample after it, kept from then on (14 R360). -/
def edgeTime (s : State) (die stamp old : Nat) : Nat :=
  if stamp = 0 then 0 else if (getDie s die).counterPrev ≤ tickAt stamp then fieldTime s die stamp else old

/-- Translate the edge stamps of a field die's channels at its sample. -/
def translateEdges (s : State) (die : Nat) : State :=
  let s := (List.range 32).foldl (fun s n => updDi s (die * 32 + n) (fun d => { d with lastT := edgeTime s die d.lastEdge d.lastT })) s
  let s := (List.range 2).foldl (fun s n => updTacho s (die * 2 + n) (fun x => { x with lastT := edgeTime s die x.lastEdge x.lastT })) s
  (List.range 32).foldl (fun s i => updInst s i (fun x => { x with lastT := edgeTime s die x.lastChange x.lastT })) s

/-- A digital input in the sample; one declared broken or with a front-end fault reads 0 (R361, R362). -/
def diSamp (d : Di) : DiSamp :=
  { value := d.level && !d.broken && !d.frontEnd, rise := d.rise, fall := d.fall, edges := d.edgeCount, last := d.lastT,
    fault := b2n d.broken + 2 * b2n d.frontEnd }

/-- A digital output in the sample. -/
def doSamp (d : Do) : DoSamp :=
  { applied := d.applied, fault := doFaultBits d, current := d.current, level := d.level, cutoff := d.cutoff, safe := d.safeDriven }

/-- The safety outputs that are on, a bit each (15 Table 15-6). -/
def safOutsOn (s : State) : Nat :=
  (List.range 16).foldl (fun m n => setBit m n
    ((roleAt s n = 1 && (getDo s n).applied) || (roleAt s (16 + n) = 1 && (getDo s (16 + n)).applied))) 0

/-- An evaluator instance in the sample (15 Table 15-6). -/
def safSamp (s : State) (i : Nat) : SafSamp :=
  let x := getInst s i
  { state := x.state, cause := x.cause, ty := sp s E.safType i
    perm := b2n x.main + 2 * b2n x.release + 4 * b2n x.inhibit + 8 * b2n (x.state = 2 && sp s E.safStartMode i = 2)
      + 16 * b2n (atStandstill s i)
    levels := levelsOf s i, outs := safOutsOn s, last := x.lastT }

/-- Everything a field die samples. -/
def dieSample (s : State) (die at_ : Nat) : Sample :=
  let d := getDie s die
  { seq := d.seq, at_ := at_
    di := (List.range 32).map (fun n => diSamp (getDi s (die * 32 + n)))
    outs := (List.range 16).map (fun n => doSamp (getDo s (die * 16 + n)))
    ai := (List.range 8).map (fun n => (getAi s (die * 8 + n)).item)
    tacho := (List.range 2).map (fun n => tachoItem (getTacho s (die * 2 + n)) (getTacho s (die * 2 + n)).lastT)
    saf := (List.range 32).map (safSamp s)
    temp := d.temp, silent := d.silent, cmdSeq := d.cmd.seq }

/-- Is an internal link in service? -/
def ilinkUp (s : State) (n : Nat) : Bool := !(vget s.ilinks n {}).failed

/-- A group's changed threshold set takes effect at the field sample; wire-break timing restarts there (14 R359). -/
def takeSets (s : State) (die t : Nat) : State :=
  (List.range 32).foldl (fun s n =>
    let c := die * 32 + n
    let new := groupSet s c
    if (getDi s c).set = new then s else updDi s c (fun d => { d with set := new, wbSince := some t })) s

/-- FIELD_SAMPLE (R120): the die samples every input at 6 us before the next boundary and sends to both hubs. `t` is its
instant, and `toHa`, `toHb` say whether each copy arrives whole. The dissipation estimate is a free value (log 6). -/
def execFieldSample (die : Fin 2) (t : Nat) (toHa toHb : Bool) (s : State) : Out :=
  let f := die.val
  .next (
    if (getDie s f).failed then s
    else
      let at_ := s.cyc.tk + s.cyc.c - 6000
      let s := updDie s f (fun d => { d with counterPrev := d.counter, counter := tickAt t, sampleAt := at_, seq := d.seq + 1 })
      let s := takeSets (translateEdges s f) f t
      let s := (List.range 2).foldl (fun s n => tachoSample s (f * 2 + n) t) s
      let s := (List.range 8).foldl (fun s n => aiSample s (f * 8 + n)) s
      let s := freeNext { s with field.dissipation := freeVal s }
      let smp := dieSample s f at_
      let s := (List.range 32).foldl (fun s n => updDi s (f * 32 + n) (fun d => { d with rise := false, fall := false })) s
      let give := fun (s : State) (h : Nat) (ok : Bool) =>
        if ok && hubUp s h && ilinkUp s (20 + h * 2 + f) then
          updHub s h (fun d => { d with sample := vupd d.sample f (fun _ => some smp) })
        else s
      give (give s 0 toHa) 1 toHb)

/-! ## The hub's image (R121, 13 R344) -/

/-- The record of one port of an MVB sink window (13 Table 13-5). -/
def portRec (w : BWin) (d t port : Nat) : List Byte :=
  let p := nget w.ports port {}
  let size := portSize (winFcode d)
  u16 (min 0xFFFF ((t - p.at_) / 1000000)) ++ u8 (b2n p.valid + 2 * b2n p.lineB + 4 * b2n p.checkErr) ++ u8 size ++ u32 0
    ++ padTo ((size + 7) / 8 * 8) p.data

/-- The item of a window in its hub's image: interface state, records lost, and the records, oldest first, those of a sink one per port; the queue is then
empty. -/
def windowItem (s : State) (h n t : Nat) : State :=
  let d := winDef s n
  let s := soundQueue s n t
  let w := getWin s n
  let ports := (List.range (winCap d)).map (winPort d + ·)
  let recs := if winKind d = 1 then ports.flatMap (portRec w d t) else w.queue.flatMap (·.bytes)
  let cnt := if winKind d = 1 then winCap d else w.queue.length
  let fl := b2n (w.queue.any (·.resumed)) + 2 * b2n (w.queue.any (·.notice))
  let stamp := ((if winKind d = 1 then ports.map (fun p => (nget w.ports p {}).at_) else w.queue.map (·.at_))).foldl max 0
  let it : Item := { kind := 4, source := n, seq := w.nextSeq - 1, stamp := stamp
                     data := u16 cnt ++ u16 (min 0xFFFF w.lost) ++ u8 (getIf s (winIfc d)).state ++ u8 fl ++ u16 0xFFFF ++ recs }
  let s := updWin s n (fun w => { w with queue := [], lost := 0
                                         rptr := (w.rptr + w.queue.length) % 65536
                                         rptrN := (w.rptr + w.queue.length) % 65536 })
  { s with cyc.hubOpen := vupd s.cyc.hubOpen h (· ++ [it]) }

/-- An item of a hub's image as a lane receives it. -/
def laneItem (it : Item) : LaneItem := { kind := it.kind, source := it.source, seq := it.seq, stamp := it.stamp, data := it.data }

/-- The digest of a hub's image under K_in (06 R161): its items in canonical form, with their arrival stamps (log 142). -/
def hubDigest (s : State) (l : List LaneItem) : Nat :=
  digest s.agree.kIn (l.flatMap (fun it => canonItem it ++ u64 it.stamp ++ u64 0))

/-! ## The time bases of the hubs (07 R187 to R190, 10 R259, R271, R272) -/

/-- The next multiple of a crossing length at or after an instant; within 40 ns past a multiple, that multiple (10 R280). -/
def snapUp (t c : Nat) : Nat := (t - 40 + c - 1) / c * c

/-- T of a hub's next boundary on its own time base, and the step e that it applies there (07 R189). A step places the boundary on the bell
times, so that the stepping crossing lasts between C and 2C (10 R271). -/
def ownNext (s : State) (h : Nat) : Nat × Int :=
  let d := getHub s h
  let base := d.time + s.cyc.c
  let c := s.bb.cDue.getD s.cyc.c
  match d.stepDue with
  | some e => (snapUp ((base : Int) + e).toNat c, e)
  | none => (if s.bb.alignDue || s.bb.cDue.isSome then snapUp base c else base, 0)

/-- Does a hub take its timing from the other hub over the link between them: in HOLDOVER behind a hub that is not, HB then behind HA
(Table 07-1), or missing bells that the other hub still accepts (10 R259)? -/
def followsPeer (s : State) (h : Nat) : Bool :=
  let o := 1 - h
  let p := vget s.bb.planes h {}
  let q := vget s.bb.planes o {}
  let led := (getHub s o).timeState = 1 || (getHub s o).timeState = 3
  hubUp s h && hubUp s o && hubLinkUp s &&
    (((getHub s h).timeState = 2 && (led || ((getHub s o).timeState = 2 && h = 1))) ||
      ((p.node = 4 || p.node = 6) && 1 ≤ p.missed && !p.bellOk && q.missed = 0 && led))

/-- T of a hub's next boundary, and the step that it applies there: a difference from the hub it follows that is too large to slew is a
step (07 R189). -/
def hubNext (s : State) (h : Nat) : Nat × Int :=
  if followsPeer s h then
    let t := (ownNext s (1 - h)).1
    let e : Int := (t : Int) - (((getHub s h).time + s.cyc.c : Nat) : Int)
    (t, if ((gv s E.timeSlewMax * 1000 : Nat) : Int) < (e.natAbs : Int) then e else 0)
  else ownNext s h

/-- Is the plane of a hub LANDED, FERRYMAN or HOLDOVER in the sense of 07 R190? -/
def timeValid (s : State) (h : Nat) : Bool := 1 ≤ (getHub s h).timeState && (getHub s h).timeState ≤ 3

/-- The hub whose T_k the lanes adopt (R190). -/
def timeHub (s : State) : Nat :=
  if !(hubUp s 0) then 1 else if hubUp s 1 && !(timeValid s 0) && timeValid s 1 then 1 else 0

/-- Close a hub's image of crossing `k` (R121): its marker carries T_k and the step applied there (07 R190). -/
def closeImage (s : State) (h k : Nat) (rd : HubReading) : State :=
  let s := (winsWhere s (fun d => winHub d = h && d ≠ 0)).foldl (fun s n => windowItem s h n rd.t) s
  let items := vget s.cyc.hubOpen h []
  let (tk, step) := hubNext s h
  let img : HubImage := { k := k, tk := tk, step := step, cDue := s.bb.cDue, items := items, power := rd.power, temp := rd.temp
                          digest := hubDigest s (items.map laneItem), samples := (getHub s h).sample, vin := rd.vin
                          released := (getHub s h).voter.relSeq, closed := true }
  let s := updHub s h (fun d => { d with power := rd.power, temp := rd.temp, sample := Vector.replicate 2 none, stepDue := none })
  { s with
    cyc.hubOpen := vupd s.cyc.hubOpen h (fun _ => [])
    cyc.hubImg := vupd s.cyc.hubImg h (fun _ => img)
    supply.vin := if h = dutyHub s then rd.vin else s.supply.vin
    agree.reportDigest := vupd s.agree.reportDigest h (fun _ => rd.relDigest) }

/-- IMAGE_CLOSE (R121): the hub closes the image of the next crossing; a second close for one crossing is no occasion. -/
def execImageClose (hub : Fin 2) (rd : HubReading) (s : State) : Out :=
  let h := hub.val
  let img := vget s.cyc.hubImg h {}
  .next (
    if s.cyc.running && hubUp s h && !(img.closed && img.k = s.cyc.k + 1) then closeImage s h (s.cyc.k + 1) rd else s)

/-! ## Presence and digests (06 R161, R162) -/

/-- The hubs whose closed image belongs to the present crossing. -/
def hubsClosed (s : State) : List Nat :=
  [0, 1].filter (fun h => hubUp s h && (vget s.cyc.hubImg h {}).closed && (vget s.cyc.hubImg h {}).k = s.cyc.k)

/-- Does a lane hold a hub's image: what reached it has the digest of the close marker (R161)? -/
def holdsImage (s : State) (rep : AgreeReport) (l h : Nat) : Bool :=
  match rep.recv.find? (fun p => p.1 = l && p.2.1 = h) with
  | none => true
  | some (_, _, none) => false
  | some (_, _, some items) => hubDigest s items = (vget s.cyc.hubImg h {}).digest

/-- The lanes of the set that hold a hub's image. -/
def holders (s : State) (rep : AgreeReport) (h : Nat) : List Nat := (laneSet s).filter (fun l => holdsImage s rep l h)

/-- The hub images that are used, and the lanes that lack one held by the two others (R161). -/
def usedImages (s : State) (rep : AgreeReport) : List Nat × List Nat :=
  let set := laneSet s
  let all := (hubsClosed s).filter (fun h => set.all (fun l => holdsImage s rep l h))
  if all ≠ [] || set.length < 3 then (all, [])
  else
    let two := (hubsClosed s).filter (fun h => (holders s rep h).length = 2)
    (two, set.filter (fun l => two.any (fun h => !(holdsImage s rep l h))))

/-- Items and field samples that only an image not used holds are lost to the crossing, counted per hub (R161). -/
def countLost (s : State) (used : List Nat) : State :=
  let key := fun (it : Item) => (it.kind, it.source, it.seq)
  let img := fun (h : Nat) => vget s.cyc.hubImg h {}
  let kept := (used.flatMap (fun h => (img h).items)).map key
  let smp := fun (h f : Nat) => (vget (img h).samples f none).map (·.seq)
  ((hubsClosed s).filter (fun h => !(used.contains h))).foldl (fun s h =>
    let n := ((img h).items.filter (fun it => !(kept.contains (key it)))).length
    let m := ([0, 1].filter (fun f => (smp h f).isSome && !(used.any (fun u => smp u f = smp h f)))).length
    updHub s h (fun d => { d with imgLost := d.imgLost + n + m })) s

/-- The lanes of a set that hold a majority's image, of which the first is taken. -/
def winner (set minor : List Nat) : Nat := (set.filter (fun l => !(minor.contains l))).headD 0

/-- Lanes in the minority and lanes in SHADOW that differ are faulted (R162, R177). -/
def faultInputs (s : State) (img : List LaneItem) (rep : AgreeReport) (minor : List Nat) : State :=
  let w := winner (laneSet s) minor
  let shadow := [0, 1, 2].filter (fun l => (getLane s l).state = .shadow && !(sameInput s img rep w l))
  let s := minor.foldl (fun s l => laneFault s l 1 (srcLane l) [] false) s
  shadow.foldl (fun s l => laneFault s l 9 (srcLane l)) s

/-- A lane that has received the residual compares all its digests with the agreed ones: it runs the crossing in SHADOW, or the attempt
fails (R177). -/
def judgeJoin (s : State) (rep : AgreeReport) : State :=
  [0, 1, 2].foldl (fun s l =>
    match (getLane s l).attempt with
    | none => s
    | some a =>
      if a.phase ≠ 4 then s
      else if joinEqual s rep.join l then
        updLane s l (fun d => { d with state := .shadow, attempt := some { a with phase := 5 } })
      else laneFault s l 9 (srcLane l)) s

/-! ## Lane-local values (R163, 05 R129) -/

/-- The agreed value of a lane-local one: median of three, lower of two. -/
def agreeInt : List Int → Int
  | [a, b, c] => max (min a b) (min (max a b) c)
  | [a, b] => min a b
  | l => l.headD 0

/-- The lanes' temperatures and oscillator corrections are agreed into the header of the crossing, with the readings of the hubs whose
images are used (01 R19). -/
def agreeHead (s : State) (rep : AgreeReport) (used : List Nat) : State :=
  let at_ := fun (l : List Int) (i : Nat) (d : Int) => l.getD i d
  let s := (List.range 3).foldl (fun s l => updLane s l (fun d => { d with
    temp := at_ rep.temps l d.temp, osc := at_ rep.oscs l d.osc })) s
  let set := (laneSet s).filter (fun l => !(rep.equiv.contains l))
  { s with cyc.head := { k := s.cyc.k, tk := s.cyc.tk, lanes := (laneSet s).length
                         temp := agreeInt (set.map (fun l => (getLane s l).temp))
                         osc := agreeInt (set.map (fun l => (getLane s l).osc))
                         hubTemp := s.cyc.head.hubTemp.mapIdx (fun h x => if used.contains h then (vget s.cyc.hubImg h {}).temp else x)
                         vin := match used with
                           | h :: _ => (vget s.cyc.hubImg h {}).vin
                           | [] => s.cyc.head.vin } }

/-! ## Merge (R125, 09 R251, 11 R304, R308) -/

/-- The key of a kind and source among the adopted data. -/
def itemKind (kind source : Nat) : Nat := kind * 2 ^ 32 + source

/-- Is a sequence number newer than the last adopted one, modulo 2^w, or the source silent for 16 images (09 R251, 11 R308)? -/
def newerSeq (s : State) (w : Nat) (a : Option Adopted) (seq : Nat) : Bool :=
  match a with
  | none => true
  | some a =>
    let d := (seq + 2 ^ w - a.item.seq % 2 ^ w) % 2 ^ w
    (1 ≤ d && d < 2 ^ (w - 1)) || a.k + 16 < s.cyc.k

/-- Adopt a copy: HELD clears with it (10 R282). -/
def adopt (s : State) (it : Item) : State :=
  let key := itemKind it.kind it.source
  let old := nget s.sup.adopted key {}
  { s with sup.adopted := nset s.sup.adopted key { old with item := it, k := s.cyc.k, held := false } }

/-- A copy is discarded, counted per plane (R125). -/
def discardCopy (s : State) (h : Nat) : State := { s with cyc.discards := vupd s.cyc.discards h (· + 1) }

/-- Merge one item of hub `h`. -/
def mergeItem (s : State) (h : Nat) (it : Item) : State :=
  let a := nget? s.sup.adopted (itemKind it.kind it.source)
  match it.kind with
  | 1 => if newerSeq s 48 a it.seq then systemAdopted (adopt s it) it.source it.data else discardCopy s h
  | 2 =>
    let (new, s) := adoptSeq s (it.source % 4096) it.seq
    if !new then discardCopy s h
    else
      let this := match a with | some a => a.k = s.cyc.k | none => false
      let s := if this then updSess s (it.source % 4096) (fun e => { e with superseded := e.superseded + 1 }) else s
      if this && it.seq < ((a.map (·.item.seq)).getD 0) then s else adopt s it
  | 3 => if newerSeq s 32 a it.seq then adopt s it else discardCopy s h
  | 4 =>
    let fresh := match a with | some a => a.item.seq ≠ it.seq || a.item.stamp ≠ it.stamp | none => it.seq ≠ 0 || it.stamp ≠ 0
    let old := a.getD {}
    let a := { old with item := it, k := if fresh then s.cyc.k else old.k }
    { s with sup.adopted := nset s.sup.adopted (itemKind 4 it.source) a }
  | _ => s

/-- Items of the majority's image that is not the one here (R162): each is adopted; the values of a field sample are those that the
hubs' copies hold (log 142). -/
def adoptDev (s : State) (l : List LaneItem) : State :=
  (l.filter (fun x => (1 ≤ x.kind && x.kind ≤ 4) || x.kind = 10)).foldl (fun s x =>
    let s := adopt s { kind := x.kind, source := x.source, seq := x.seq, stamp := x.stamp, data := x.data }
    if x.kind = 1 then systemAdopted s x.source x.data else s) s

/-- Each lane records event 0x2055 for an item (R125). -/
def differEvent (s : State) (kind source seq : Nat) : State :=
  (laneSet s).foldl (fun s l => emitL s (srcLane l) 0x2055 2 (u8 kind ++ u32 source ++ u32 seq)) s

/-- The items of the two hubs' copies of one field sample that differ. -/
def sampleDiffs (s : State) (f : Nat) : List LaneItem :=
  match vget (vget s.cyc.hubImg 0 {}).samples f none, vget (vget s.cyc.hubImg 1 {}).samples f none with
  | some a, some b => if a.seq = b.seq then (sampleItems f b).filter (fun y => !((sampleItems f a).contains y)) else []
  | _, _ => []

/-- Copies of one sequence number in the same image that differ: HA's stands, and each lane records event 0x2055 (R125). -/
def noteDiffering (s : State) (used : List Nat) : State :=
  if used ≠ [0, 1] then s
  else
    let a := (vget s.cyc.hubImg 0 {}).items
    let b := (vget s.cyc.hubImg 1 {}).items
    let bad := b.filter (fun y => 1 ≤ y.kind && y.kind ≤ 3 && a.any (fun x =>
      x.kind = y.kind && x.source = y.source && x.seq = y.seq && x.data ≠ y.data))
    let smp := sampleDiffs s 0 ++ sampleDiffs s 1
    let s := bad.foldl (fun s y => differEvent s y.kind y.source y.seq) s
    smp.foldl (fun s y => differEvent s y.kind y.source y.seq) s

/-- The source of a mirrored item (12 R332). -/
def mirSource (m : MirItem) : Nat := m.kind * 2 ^ 24 + m.source % 2 ^ 24

/-- The copies of the newest mirror record that its merge discards: each item is counted for its plane, and one that differs is noted
(R125). -/
def discardMirror (s : State) (r : MirrorRec) : State :=
  let one := fun (s : State) (c : Nat × MirrorRec) => c.2.items.foldl (fun s m =>
    let s := discardCopy s c.1
    if r.items.any (fun x => mirSource x = mirSource m && x.bytes ≠ m.bytes) then differEvent s 10 (mirSource m) r.crossing else s) s
  s.twin.recordDup.foldl one { s with twin.recordDup := [] }

/-- The items of the twin's newest mirror record are merged by its train crossing (R125, 12 R332). -/
def mergeMirror (s : State) : State :=
  match s.twin.record with
  | none => s
  | some r =>
    let s := discardMirror s r
    r.items.foldl (fun s m =>
      let src := mirSource m
      let it : Item := { kind := 10, source := src, seq := r.crossing, stamp := m.stamp, data := m.bytes.drop 16 }
      if newerSeq s 48 (nget? s.sup.adopted (itemKind 10 src)) r.crossing then adopt s it else s) s

/-- Adopt the field sample of a die: the copy with the newer sequence number, HA's where both are (R125). -/
def mergeSample (s : State) (used : List Nat) (f : Nat) : State :=
  let copies := used.filterMap (fun h => vget (vget s.cyc.hubImg h {}).samples f none)
  let best := match copies with
    | [a, b] => some (if a.seq < b.seq then b else a)
    | [a] => some a
    | _ => none
  match best with
  | none => s
  | some x =>
    if (vget s.sup.samples f {}).k.isSome && (vget s.sup.samples f {}).seq = x.seq then s
    else { s with sup.samples := vupd s.sup.samples f (fun _ => { x with k := some s.cyc.k }) }

/-! ## Digital inputs as the module sees them (05 R146, R152) -/

/-- The agreed view of an input from its sample and its force; `old` is the sample adopted before and `new` says that there is
a new one. -/
def diView (v : DiView) (new : Bool) (old x : DiSamp) (at_ tk : Nat) (force : Option Force) : DiView × Bool × Bool :=
  let v0 := { v with raw := if new then x.value else v.raw, fault := if new then x.fault else v.fault, at_ := if new then at_ else v.at_ }
  let want := match force with | some f => decide (f.value = 1) | none => v0.raw
  if force.isSome || v.forced then
    if want = v.value then ({ v0 with forced := force.isSome }, false, false)
    else ({ v0 with value := want, count := v.count + 1, last := tk, forced := force.isSome }, want, !want)
  else if new then
    let n := if old.edges ≤ x.edges then x.edges - old.edges else x.edges
    ({ v0 with value := want, count := v.count + n, last := if n = 0 then v.last else x.last }, x.rise, x.fall)
  else (v0, false, false)

/-- Take the views of every input for the crossing; answers the rising and falling edges of the image, a bit each. -/
def takeDi (s : State) (before : Vector Sample 2) : Nat × Nat × State :=
  (List.range 64).foldl (fun (acc : Nat × Nat × State) ch =>
    let s := acc.2.2
    let smp := vget s.sup.samples (ch / 32) {}
    let new := smp.k = some s.cyc.k
    let (v, r, f) := diView (vget s.sup.di ch {}) new ((vget before (ch / 32) {}).di.getD (ch % 32) {}) (smp.di.getD (ch % 32) {})
      smp.at_ s.cyc.tk (nget? s.sup.forceDi ch)
    (setBit acc.1 ch r, setBit acc.2.1 ch f, { s with sup.di := vupd s.sup.di ch (fun _ => v) })) (0, 0, s)

/-! ## Accumulation since a stall's previous activation (05 R130, R152, 13 R344, 16 R413) -/

/-- Flags of a record: RESUMED and NOTICE (13 Table 13-5). -/
def recFlags (kind : Nat) (b : List Byte) : Bool × Bool :=
  match kind with
  | 3 => (bit (fieldAt b 2 1) 0, bit (fieldAt b 2 1) 1)
  | 6 => (bit (fieldAt b 9 1) 0, bit (fieldAt b 9 1) 3)
  | _ => (bit (fieldAt b 5 1) 2, bit (fieldAt b 5 1) 3)

/-- The records of a window item. -/
def itemRecs (d : Nat) (it : Item) : List BRec :=
  if recSize d = 0 then []
  else (chunksOf (recSize d) (fieldAt it.data 0 2) (it.data.drop 8)).map (fun b =>
    let (r, n) := recFlags (winKind d) b
    { bytes := b, resumed := r, notice := n, at_ := it.stamp })

/-- An analog channel's peaks, samples and LOST, joined with those of an image (16 R413). -/
def joinPeaks (w : ImgWin) (ch : Nat) (a : AiItem) : ImgWin :=
  let w := if bit a.status 4 && !(w.aiLost.contains ch) then { w with aiLost := w.aiLost ++ [ch] } else w
  if a.samples = 0 then w
  else
    let v := match nget? w.peaks ch with
      | some (hi, lo, n) => (max hi a.hi, min lo a.lo, min 0xFFFF (n + a.samples))
      | none => (a.hi, a.lo, min 0xFFFF a.samples)
    { w with peaks := nset w.peaks ch v }

/-- What an image adds to a stall's window. `wins` are the window items of this image. -/
def addImage (s : State) (w : ImgWin) (rise fall : Nat) (wins : List Item) : ImgWin :=
  let w := { w with rise := w.rise ||| rise, fall := w.fall ||| fall }
  let w := (List.range 16).foldl (fun w ch =>
    let smp := vget s.sup.samples (ch / 8) {}
    if smp.k = some s.cyc.k then joinPeaks w ch (smp.ai.getD (ch % 8) {}) else w) w
  wins.foldl (fun w it => { w with
    queue := nset w.queue it.source (nget w.queue it.source [] ++ (if winQueued (winDef s it.source) then itemRecs (winDef s it.source) it else []))
    lost := nset w.lost it.source (nget w.lost it.source 0 + fieldAt it.data 2 2) }) w

/-- Every stall accumulates the image; with FIRST due it holds the current image alone (R130). -/
def accumulate (s : State) (rise fall : Nat) (wins : List Item) : State :=
  { s with sup.stalls := s.sup.stalls.map (fun p =>
      (p.1, { p.2 with imgWin := addImage s (if p.2.first then {} else p.2.imgWin) rise fall wins })) }

/-- A notice record in a window with NOTICE_ACTIVATE asks for an activation of its owner (13 R348). -/
def noticeActivations (s : State) (wins : List Item) : State :=
  wins.foldl (fun s it =>
    let d := winDef s it.source
    if winQueued d && winActivates d && (itemRecs d it).any (·.notice) then (wantActivation s (winOwner d)).2 else s) s

end Sys2Proof.Machine
end

