-- ==== Sys2Proof/Machine/Activation.lean ====
section
/-!
DEFINITION. The Agree phase and the start of activations: the items, header, result area and trigger area of a stall's IMAGE
(05 R127 to R133), the choice of the activations of a crossing (05 R122, R137 to R141, 07 R204, 12 R331), the mirror record
(12 R332), INPUT_AGREEMENT and ACTIVATION_START.
-/

namespace Sys2Proof.Machine

/-! ## Mapped items (05 R130, Table 05-6) -/

/-- What a mapped item shows: the crossing of its newest data, and the header's values and the data. -/
structure ItemSrc where
  k : Option Nat := none
  stamp : Nat := 0
  seq : Nat := 0
  data : List Byte := []
  forced : Bool := false
  held : Bool := false
  resumed : Bool := false
  deriving DecidableEq, Repr

/-- A signed value as `n` bytes. -/
def sBytes (n : Nat) (x : Int) : List Byte := leBytes n (ofInt n x)

/-- A telegram, datagram, TRDP dataset or mirrored input as it was adopted (kinds 1, 2, 3 and 10). -/
def srcAdopted (s : State) (kind source : Nat) : ItemSrc :=
  match nget? s.sup.adopted (itemKind kind source) with
  | none => {}
  | some a =>
    { k := some a.k, stamp := a.item.stamp, seq := a.item.seq, data := a.item.data, forced := a.item.forced, held := a.held }

/-- A record with its RESUMED flag set (13 Table 13-5). -/
def markResumed (kind : Nat) (b : List Byte) : List Byte :=
  let (pos, bitN) := if kind = 3 then (2, 0) else if kind = 6 then (9, 0) else (5, 2)
  b.set pos (BitVec.ofNat 8 (setBit (fieldAt b pos 1) bitN true))

/-- The records of a window that fit the mapped length, and how many older ones are lost to it (13 R344). -/
def fitRecs (kind cap : Nat) (q : List BRec) : List (List Byte) × Nat :=
  let past := q.length - cap
  let bs := (q.drop past).map (·.bytes)
  (if past = 0 then bs else (match bs with | b :: rest => markResumed kind b :: rest | [] => []), past)

/-- A bridge window (kind 4): window header and records adopted since the previous activation (13 R344). -/
def srcWindow (s : State) (st : Stall) (n len : Nat) : ItemSrc :=
  match nget? s.sup.adopted (itemKind 4 n) with
  | none => {}
  | some a =>
    let d := winDef s n
    let cap := if recSize d = 0 then 0 else (len - 8) / recSize d
    let (recs, past) := if winQueued d then fitRecs (winKind d) cap (nget st.imgWin.queue n [])
      else if winKind d = 1 then
        ((List.range (min cap (winCap d))).map (fun j => (a.item.data.drop (8 + j * recSize d)).take (recSize d)), 0)
      else ([], 0)
    let fl := recs.map (recFlags (winKind d))
    let resumed := winQueued d && fl.any Prod.fst
    let holder := (((nget? s.sup.groups (winGroup d)).bind (·.holder)).getD 0xFFFF)
    { k := some a.k, stamp := a.item.stamp, seq := a.item.seq, resumed := resumed
      data := u16 recs.length ++ u16 (min 0xFFFF (nget st.imgWin.lost n 0 + past)) ++ u8 (fieldAt a.item.data 4 1)
        ++ u8 (b2n resumed + 2 * b2n (winQueued d && fl.any Prod.snd)) ++ u16 holder ++ recs.flatten }

/-- Bits of the eight channels of a group. -/
def groupBits (base : Nat) (f : Nat → Bool) : Nat := (List.range 8).foldl (fun m n => setBit m n (f (base + n))) 0

/-- A DI group (kind 5, Table 05-13). -/
def srcDi (s : State) (st : Stall) (g : Nat) : ItemSrc :=
  let smp := vget s.sup.samples (g / 4) {}
  let v := fun (ch : Nat) => vget s.sup.di ch {}
  let base := g * 8
  { k := smp.k, stamp := smp.at_, seq := smp.seq, forced := (List.range 8).any (fun n => nhas s.sup.forceDi (base + n))
    data := u8 (groupBits base (fun ch => (v ch).value)) ++ u8 (groupBits base (fun ch => bit st.imgWin.rise ch))
      ++ u8 (groupBits base (fun ch => bit st.imgWin.fall ch)) ++ u8 (groupBits base (fun ch => decide ((v ch).fault ≠ 0))) ++ u32 0
      ++ (List.range 8).flatMap (fun n => u8 ((v (base + n)).count % 256))
      ++ (List.range 8).flatMap (fun n => u64 (v (base + n)).last) }

/-- A DO readback group (kind 6, 14 Table 14-3). -/
def srcDo (s : State) (g : Nat) : ItemSrc :=
  let smp := vget s.sup.samples (g / 2) {}
  let o := fun (n : Nat) => smp.outs.getD (g % 2 * 8 + n) {}
  let par := fun (n : Nat) => bit (gv s E.twinDoParallel) (g * 8 + n)
  let f := fun (n b : Nat) => bit (o n).fault b
  { k := smp.k, stamp := smp.at_, seq := smp.seq
    data := u8 (groupBits 0 (fun n => (o n).applied)) ++ u8 (groupBits 0 (fun n => (o n).level))
      ++ u8 (groupBits 0 (fun n => (o n).cutoff))
      ++ u8 (groupBits 0 (fun n => f n 0 || f n 1 || f n 2 || (f n 3 && !(par n))))
      ++ u8 (groupBits 0 (fun n => f n 0)) ++ u8 (groupBits 0 (fun n => f n 1)) ++ u8 (groupBits 0 (fun n => f n 2 || f n 3))
      ++ u8 (groupBits 0 (fun n => (o n).safe))
      ++ (List.range 8).flatMap (fun n => u16 (min 0xFFFF (o n).current)) ++ u32 smp.cmdSeq ++ u32 0 }

/-- The raw value of a forced analog channel: the forced value converted back, rounded and clamped to the linear span (16 R414).
The span of a channel that is off is not stated: its raw value is then a free value (log 6). -/
def forcedRaw (s : State) (c : Nat) (f : Force) : Int :=
  let w := fun (e : Entry) => BitVec.ofNat 64 (gvi s e c)
  let x := (fpDiv (fpSub (BitVec.ofNat 64 f.value) (w E.aiOffset)).1 (w E.aiGain)).1
  if gvi s E.aiRange c = 0 then toInt 4 (freeVal s)
  else aiClamp (gvi s E.aiRange c) (fpToI (fpRint true x).1).1.toInt

/-- An analog channel (kind 7, 16 R413, Table 16-3). -/
def srcAi (s : State) (st : Stall) (c : Nat) : ItemSrc :=
  let smp := vget s.sup.samples (c / 8) {}
  let a := smp.ai.getD (c % 8) {}
  let peaks := nget? st.imgWin.peaks c
  let lost := st.imgWin.aiLost.contains c
  let status := setBit a.status 4 lost
  let a := match peaks with
    | some (hi, lo, n) => { a with hi := hi, lo := lo, samples := n, status := status }
    | none => { a with hi := a.raw, lo := a.raw, samples := 0, status := status }
  let force := nget? s.sup.forceAi c
  let a := match force with
    | none => a
    | some f =>
      let x := forcedRaw s c f
      { a with raw := x, hi := x, lo := x, env := ofInt 4 x, rms := x.natAbs, status := 1 }
  { k := smp.k, stamp := smp.at_, seq := smp.seq, forced := force.isSome
    data := u64 a.instant ++ sBytes 4 a.raw ++ sBytes 4 a.hi ++ sBytes 4 a.lo ++ u32 a.rms ++ u32 a.env ++ u16 a.status ++ u16 a.samples }

/-- A tacho channel (kind 8, 07 Table 07-3). -/
def srcTacho (s : State) (c : Nat) : ItemSrc :=
  let smp := vget s.sup.samples (tachoDie c) {}
  let im := vget s.sup.tp.tacho c {}
  let on := decide (gvs s E.tachoEnable (c + 1) 0 = 1)
  let fault := decide (im.fault ≠ 0)
  let status := b2n on + 2 * b2n (on && !fault && im.healthy) + 4 * b2n (on && !im.healthy) + 8 * b2n fault + 16 * b2n im.still
  { k := smp.k, stamp := smp.at_, seq := smp.seq
    data := sBytes 8 im.count ++ u64 im.lastEdge ++ sBytes 4 im.v ++ u16 status ++ u16 s.sup.tp.datumNumber
      ++ sBytes 8 (channelDistance s c) }

/-- Evaluator state (kind 9, 15 Table 15-6): FX's sample, or FY's where that is the newer one. -/
def srcSaf (s : State) (i : Nat) : ItemSrc :=
  let x := vget s.sup.samples 0 {}
  let y := vget s.sup.samples 1 {}
  let smp := if x.k.getD 0 < y.k.getD 0 || x.k.isNone then y else x
  let e := smp.saf.getD i {}
  { k := smp.k, stamp := smp.at_, seq := smp.seq
    data := u8 e.ty ++ u8 e.state ++ u8 e.cause ++ u8 e.perm ++ u16 e.levels ++ u16 e.outs ++ u64 e.last }

/-- What the image map entry `v` of a stall shows. -/
def itemSrc (s : State) (st : Stall) (v : Nat) : ItemSrc :=
  let src := bits v 32 32
  match bits v 0 8 with
  | 1 => srcAdopted s 1 (srcOfMap s src)
  | 4 => srcWindow s st src (imapLen v)
  | 5 => srcDi s st src
  | 6 => srcDo s src
  | 7 => srcAi s st src
  | 8 => srcTacho s src
  | 9 => srcSaf s src
  | k => srcAdopted s k src

/-- The bytes of a mapped item, header first (Table 05-6); `since` is the first crossing whose images count as new since the
stall's previous activation. -/
def itemBytes (s : State) (st : Stall) (since v : Nat) : List Byte :=
  let x := itemSrc s st v
  let limit := bits v 16 16
  let never := match x.k with
    | none => true
    | some k => decide (k < max 1 st.dataFrom)
  if never then
    u64 0 ++ u16 0 ++ u8 (2 * b2n (limit ≠ 0) + 4 * b2n (bits v 0 8 = 3) + 64) ++ u8 255 ++ u32 0 ++ padTo (imapLen v) []
  else
    let k := x.k.getD 0
    let age := s.cyc.k - k
    let flags := b2n (since ≤ k) + 2 * b2n (limit ≠ 0 && limit < age) + 4 * b2n (bits v 0 8 = 3) + 8 * b2n x.held + 16 * b2n x.forced
      + 32 * b2n x.resumed
    u64 x.stamp ++ u16 (min x.data.length (imapLen v)) ++ u8 flags ++ u8 (min 255 age) ++ u32 x.seq ++ padTo (imapLen v) x.data

/-! ## The IMAGE segment (05 R127, R128, R132, 07 R205) -/

/-- The header values of this crossing's image (12 R332). -/
def headNow (s : State) : MirHead :=
  { k := s.cyc.k, tk := s.cyc.tk, pos := s.sup.tp.e / 1000000, speed := s.sup.tp.vFused, mode := s.sup.mode
    supply := s.sup.en.supplyMode, lease := s.twin.leaseFlag, lanes := s.cyc.head.lanes, temp := s.cyc.head.temp, osc := s.cyc.head.osc }

/-- The header values that a stall reads: those of a mirror record for a mirrored one (12 Table 12-7). -/
def headOf (s : State) (st : Stall) : MirHead :=
  if !st.desc.mirrored then headNow s
  else if st.mirrorSt = 2 then (match s.twin.record with | some r => r.head | none => {})
  else s.twin.head

/-- The image header (Table 05-5), but for CONTINUED, the fuel stops and the retain commit, which the start of the activation
fills in. -/
def headerBytes (h : MirHead) (flags fuel interval results trigs : Nat) : List Byte :=
  u64 h.k ++ u64 h.tk ++ sBytes 8 h.pos ++ sBytes 4 h.speed ++ u8 h.mode ++ u8 h.supply ++ u8 flags ++ u8 h.lanes ++ u32 fuel
    ++ u32 interval ++ u16 results ++ u16 trigs ++ sBytes 2 h.temp ++ u16 0 ++ sBytes 4 h.osc ++ u32 0 ++ u64 0

/-- The activation flags of the header, CONTINUED apart. -/
def headerFlags (s : State) (i : Nat) (st : Stall) : Nat :=
  2 * b2n st.first + 4 * b2n st.retainLost + 8 * b2n st.skipped + 16 * b2n st.stepped + 32 * b2n (leaseFor s i)

/-- An entry of the result area (R132). -/
def resultBytes (o : Outcome1) : List Byte := u32 o.tag ++ u32 o.code ++ u64 o.value

/-- An entry of the trigger area (07 Table 07-5). -/
def trigBytes (e : TrigEntry) : List Byte :=
  u32 e.handle ++ u32 e.userTag ++ u64 e.stamp ++ u64 e.lateness ++ u16 e.firings ++ u8 e.kind ++ u8 e.flags ++ u32 e.crossing

/-- The trigger entries that an activation delivers, and those that wait on: ascending stamp, then handle; with more waiting, the
last one delivered carries MORE (07 R205). -/
def trigTake (l : List TrigEntry) : List TrigEntry × List TrigEntry :=
  let l := l.mergeSort (fun a b => a.stamp < b.stamp || (a.stamp = b.stamp && a.handle ≤ b.handle))
  let go := l.take 64
  let rest := l.drop 64
  if rest = [] then (go, [])
  else (go.zipIdx.map (fun p => if p.2 + 1 = go.length then { p.1 with flags := p.1.flags ||| tfMore } else p.1), rest)

/-- The outcomes that an activation delivers, in ascending tag order. -/
def resultTake (l : List Outcome1) : List Outcome1 × List Outcome1 :=
  let l := l.mergeSort (fun a b => a.tag ≤ b.tag)
  (l.take 64, l.drop 64)

/-- The IMAGE of an activation, and the stall once its results, entries and flags have been delivered. -/
def buildImage (s : State) (i : Nat) (st : Stall) : Mem × Stall :=
  let mir := st.desc.mirrored
  let (res, resRest) := resultTake (if mir then st.mirResults else st.results)
  let (trg, trgRest) := trigTake (if mir then st.mirTrigs else st.trigWait)
  let interval := if st.first then 0 else s.cyc.k - st.lastActivation
  let hdr := headerBytes (headOf s st) (headerFlags s i st) st.desc.fuel interval res.length trg.length
  let since := if st.first then s.cyc.k else st.lastActivation + 1
  let m := mputs [] baseImage hdr
  let m := mputs m (baseImage + 0x40) (res.flatMap resultBytes)
  let m := mputs m (baseImage + 0x440) (trg.flatMap trigBytes)
  let m := st.imap.foldl (fun m p =>
    let b := if mir then nget st.mirItems p.1 [] else itemBytes s st since p.2
    mputs m (baseImage + bits p.2 64 32) (b.take (imapPadded p.2))) m
  let st := if mir then { st with mirResults := resRest, mirTrigs := trgRest } else { st with results := resRest, trigWait := trgRest }
  (if st.desc.imageSize = 0 then [] else m,
   { st with first := false, retainLost := false, skipped := false, stepped := false, lastActivation := s.cyc.k, imgWin := {}
             dueWanted := false, mirDue := false })

/-! ## DICTWIN of the image (02 R48, R50) -/

/-- The slots of one map item: its entry's value, or 0 where a read by the stall's own context would be refused. -/
def itemSlots (s : State) (i : Nat) (m : MapItem) : List (Nat × Nat) :=
  match lookupEntry s m.index m.sub with
  | none => []
  | some e =>
    let inst := if m.selected then instOf (getCtx s (5000 + i)) e.sel else m.inst
    let v := if instExists s e.sel inst && !(shutTarget s m.index inst) then readEntry s (5000 + i) e m.index m.sub inst else 0
    (List.range (slotCount e)).map (fun j => (m.slot + j, bits v (64 * j) 64))

/-- The slot values of a stall in the adopted image. -/
def dictWindow (s : State) (i : Nat) (st : Stall) : NMap Nat :=
  (st.map.flatMap (itemSlots s i)).foldl (fun d p => nput d p.1 p.2 0) (nput [] 0 (st.dwAbort + st.dwCount * 2 ^ 32) 0)

/-! ## The activations of a crossing (R122, R138, R139, R141, 07 R204, 12 Table 12-7) -/

/-- Is an extra activation's charge within the home core's spare capacity in a crossing (07 R204)? -/
def extraFits (s : State) (i : Nat) (st : Stall) (k extra : Nat) : Bool :=
  loadAt (admittedOn s st.desc.homeCore i) k + extra + chargeOf st.desc.fuel st.imap ≤ capacity s

/-- Does a stall have a kept activation in the present crossing? A mirrored copy in SYNC has those that its holder's record marks;
in CATCHUP and MISMATCH it has none. -/
def keptNow (s : State) (i : Nat) (st : Stall) : Bool :=
  if st.mirrorSt = 2 then st.mirDue
  else if st.mirrorSt = 4 || st.mirrorSt = 5 then false
  else keptIn s i st s.cyc.k || (st.desc.mirrored && st.mirDue)

/-- May the stall be activated at all: RUNNING, admitted, the module not in STOP? -/
def activatable (s : State) (st : Stall) : Bool := st.state = .running && st.admitted && s.sup.mode ≠ 2

/-- The activations of the crossing, in ascending stall id: the kept ones, and ACTIVATE firings that fit beside them. -/
def chooseActivations (s : State) : List Nat :=
  let pre := fun (core : Nat) => (s.sup.stalls.map (fun p =>
    if p.2.desc.homeCore = core && activatable s p.2 && p.2.desc.mirrored && keptNow s p.1 p.2 && !(keptIn s p.1 p.2 s.cyc.k) then
      chargeOf p.2.desc.fuel p.2.imap else 0)).sum
  (s.sup.stalls.foldl (fun (acc : List Nat × NMap Nat) p =>
    let st := p.2
    let core := st.desc.homeCore
    if !(activatable s st) then acc
    else if keptNow s p.1 st then (acc.1 ++ [p.1], acc.2)
    else if st.dueWanted && !st.desc.mirrored && factorAt st s.sup.en.levelCur ≠ 0 && shedsOpen s p.1 st
        && extraFits s p.1 st s.cyc.k (nget acc.2 core (pre core)) then
      (acc.1 ++ [p.1], nset acc.2 core (nget acc.2 core (pre core) + chargeOf st.desc.fuel st.imap))
    else acc) ([], [])).1

/-- An ACTIVATE firing that found no room: its waiting entries are DEFERRED (07 R204). -/
def deferEntries (s : State) (i : Nat) (st : Stall) : Stall :=
  let act := fun (e : TrigEntry) => s.sup.triggers.any (fun p =>
    p.2.owner = i && trigHandle p.1 p.2 = e.handle && reqAction p.2 = 2)
  { st with trigWait := st.trigWait.map (fun e => if act e then { e with flags := e.flags ||| tfDeferred } else e) }

/-- The stalls whose due activation of the crossing is withheld (R141, 08 R217), an ACTIVATE firing notwithstanding. -/
def withheldNow (s : State) : List Nat :=
  (s.sup.stalls.filter (fun p => activatable s p.2 && dueIn p.2 s.cyc.k && !p.2.desc.mirrored && !(keptNow s p.1 p.2))).map Prod.fst

/-- What a crossing without an activation leaves in a stall: DEFERRED entries. -/
def notActivated (s : State) (i : Nat) (st : Stall) : Stall :=
  if !(activatable s st) then st
  else
    if st.dueWanted && !st.desc.mirrored then deferEntries s i st else st

/-- A stall without IMAGE discards its outcomes and entries, counted (R133). -/
def dropUnread (st : Stall) : Stall :=
  if st.desc.imageSize ≠ 0 then st
  else { st with results := [], trigWait := [], discarded := st.discarded + st.results.length + st.trigWait.length }

/-- Activation order within a core: energy class, then stall id (R122). -/
def activationOrder (s : State) (l : List Nat) : List Nat :=
  let cls := fun (i : Nat) => ((getStall? s i).map (fun st => st.desc.energyClass)).getD 3
  l.mergeSort (fun a b => cls a < cls b || (cls a = cls b && a ≤ b))

/-- Queue one activation behind the others of its core. -/
def queueOne (s : State) (i : Nat) : State :=
  match getStall? s i with
  | none => s
  | some st =>
    let (img, st') := buildImage s i st
    let q : Queued := { stall := i, k := s.cyc.k, tk := s.cyc.tk, image := img, dw := dictWindow s i st }
    updRun (setStall s i st') st.desc.homeCore (fun r => { r with queue := r.queue ++ [q] })

/-! ## Mirror records (12 R331, R332) -/

/-- A mirrored copy of the module takes what its own record of the previous crossing held (12 Table 12-7: SOURCE and FREE). -/
def stageMirror (st : Stall) : Stall :=
  if st.desc.mirrored && (st.mirrorSt = 1 || st.mirrorSt = 3) then
    { st with mirItems := st.mirNext, mirResults := st.mirResults ++ st.resNext, mirTrigs := st.mirTrigs ++ st.trigNext
              mirNext := [], resNext := [], trigNext := [] }
  else st

/-- The part of a mirrored stall in the record of this crossing: its items, results and entries, and whether an activation is due in
the next crossing. -/
def recordMirror (s : State) (i : Nat) (st : Stall) : Stall :=
  if st.desc.mirrored && (st.mirrorSt = 1 || st.mirrorSt = 3) then
    let since := if st.first then s.cyc.k else st.lastActivation
    let extra := st.dueWanted && shedsOpen s i st && extraFits s i st (s.cyc.k + 1) 0
    let st := if st.dueWanted && !extra then deferEntries s i st else st
    { st with
      mirNext := st.imap.foldl (fun m p => nset m p.1 (itemBytes s st since p.2)) []
      resNext := st.results, results := [], trigNext := st.trigWait, trigWait := []
      mirDue := extra, dueWanted := st.dueWanted && !extra }
  else if st.desc.mirrored && st.mirrorSt ≠ 0 then { st with results := [] }
  else st

/-- Does a timed action belong to a trigger of a mirrored stall (12 R333)? -/
def timedMirrored (s : State) (d : TimedDo) : Bool :=
  match nget? s.sup.triggers d.trig with
  | some t => mirroredStall s t.owner
  | none => false

/-- The bytes of the module's mirror record of this crossing (log 14). -/
def recordBytesOf (s : State) : List Byte :=
  let h := s.twin.headNext
  u64 (trainX s s.cyc.tk) ++ u64 h.k ++ u64 h.tk ++ sBytes 8 h.pos ++ sBytes 4 h.speed ++ u8 h.mode ++ u8 h.supply
    ++ u8 (b2n h.lease) ++ u8 h.lanes
    ++ s.sup.stalls.flatMap (fun p =>
        if p.2.desc.mirrored then
          u16 p.1 ++ u8 (b2n (p.2.mirDue || dueIn p.2 (s.cyc.k + 1))) ++ p.2.mirNext.flatMap (fun x => u8 x.1 ++ x.2)
            ++ p.2.resNext.flatMap resultBytes ++ p.2.trigNext.flatMap trigBytes ++ u32 p.2.exec.nextTag ++ u32 p.2.desc.crc
            ++ leBytes 16 (codeDigest s p.2)
            ++ (match p.2.ckTw with
                | some (x, d) => if x + 1 = trainX s s.cyc.tk then leBytes 16 d else []
                | none => [])
        else [])
    ++ s.sup.seqs.flatMap (fun p => u32 p.1 ++ u64 p.2)
    ++ (s.sup.timedDo.filter (timedMirrored s)).flatMap (fun d => u8 d.channel ++ u8 (b2n d.on) ++ u64 d.at_)
    ++ s.twin.pairWrites.flatMap (fun w => u16 w.index ++ u8 w.sub ++ u16 w.inst ++ u64 w.value)

/-- The fragments of a byte string: each body holds at most 4096 bytes (log 150). -/
def fragmentsOf (b : List Byte) : List (List Byte) :=
  (List.range (max 1 ((b.length + 4095) / 4096))).map (fun j => (b.drop (4096 * j)).take 4096)

/-- A byte string leaves on a twin link in fragments (12 R313). -/
def sendFragments (s : State) (l : Nat) (kind : EgKind) (b : Nat) (bs : List Byte) : State :=
  (fragmentsOf bs).foldl (fun s d => twinSend s l s.cyc.tk kind b 0 d) s

/-- The checkpointed state of a copy that catches up, with the stall's counters (12 R334). -/
def catchBytes (s : State) (i : Nat) (st : Stall) : List Byte :=
  u16 i ++ ckptBytes i st ++ u32 (gvi s E.stallOverruns i) ++ u32 st.exec.restarts

/-- The holder sends the checkpointed state of its mirrored stalls, once after the twins have paired (12 R334, log 150). -/
def sendCatchup (s : State) : State :=
  if !(s.twin.catchDue && holdsLease s) then s
  else
    let mir := s.sup.stalls.filter (fun p => p.2.desc.mirrored)
    let s' := mir.foldl (fun s p =>
      (twinLinks s).foldl (fun s l => sendFragments s l .twinCatchup p.1 (catchBytes s p.1 p.2)) s) { s with twin.catchDue := false }
    sv s' E.twinCatchupKib (((mir.map (fun p => (catchBytes s p.1 p.2).length)).sum + 1023) / 1024)

/-- The mirror record leaves on every twin link in service, with the pair-scope writes applied since the last one. -/
def sendMirror (s : State) : State :=
  let s := { s with twin.head := s.twin.headNext, twin.headNext := headNow s }
  if twinLinks s = [] then s
  else
    let b := recordBytesOf s
    let s := (twinLinks s).foldl (fun s l => sendFragments s l .twinMirror (trainX s s.cyc.tk) b) s
    sendCatchup { s with twin.pairWrites := [] }

/-! ## INPUT_AGREEMENT -/

/-- Every stall for itself. -/
def eachStall (s : State) (f : Nat → Stall → Stall) : State :=
  { s with sup.stalls := s.sup.stalls.map (fun p => (p.1, f p.1 p.2)) }

/-- The activations of the crossing are chosen and queued, each with the image that it reads; every other stall goes on
accumulating. A stall that is not mirrored reads the image just adopted, a mirrored one its record (12 R332). -/
def scheduleCrossing (s : State) (rise fall : Nat) (wins : List Item) : State :=
  let s := eachStall s (fun _ st => stageMirror (dropUnread st))
  let go := chooseActivations s
  let held := withheldNow s
  let mir := fun (i : Nat) => mirroredStall s i
  let s := (activationOrder s (go.filter mir)).foldl queueOne s
  let s := accumulate s rise fall wins
  let s := (activationOrder s (go.filter (fun i => !(mir i)))).foldl queueOne s
  let s := { s with cyc.runs := s.cyc.runs.map (fun r => { r with
    queue := (activationOrder s ((r.queue.filter (fun q => q.k = s.cyc.k)).map (·.stall))).foldl
      (fun l i => l ++ r.queue.filter (fun q => q.k = s.cyc.k && q.stall = i)) (r.queue.filter (fun q => q.k ≠ s.cyc.k)) }) }
  let s := eachStall s (fun i st =>
    let st := if held.contains i then { st with skipped := true } else st
    recordMirror s i (if go.contains i then st else notActivated s i st))
  freeNext s

/-- Input power of the crossing: the higher of the hubs' readings (08 R213). -/
def powerOf (s : State) (used : List Nat) : Nat := (used.map (fun h => (vget s.cyc.hubImg h {}).power)).foldl max 0

/-- The adopted image is merged and taken (R125, R126, R146). -/
def adoptImage (s : State) (used : List Nat) : Nat × Nat × List Item × State :=
  let items := fun (h : Nat) => (vget s.cyc.hubImg h {}).items
  let before := s.sup.samples
  let s := noteDiffering s used
  let s := used.foldl (fun s h => (items h).foldl (fun s it => mergeItem s h it) s) s
  let s := mergeSample (mergeSample (mergeMirror s) used 0) used 1
  let (rise, fall, s) := takeDi s before
  (rise, fall, (used.flatMap items).filter (fun it => it.kind = 4), s)

/-- What the lane supervisors evaluate from the adopted image before Execute (R213, R197 to R199, R203, R478, R171). -/
def evaluateImage (s : State) (used : List Nat) : State :=
  let s := applyDatums (fuse s s.cyc.k)
  let s := energyAgree s s.cyc.k (powerOf s used)
  let s := judgeReleases (snapAgree s) used
  let resumed := s.cyc.skipFrom.isSome
  freeTriggers (evalTriggers { s with cyc.skipFrom := none } resumed)

/-- The images of the crossing have been judged. -/
def closeImages (s : State) : State := { s with cyc.hubImg := s.cyc.hubImg.map (fun x => { x with closed := false }) }

/-- The requests that the images of the crossing carry. -/
def imageRequests (s : State) : List Request := s.sup.reqs.filter (fun r => !(ctxIsStall r.ctx) && decide (r.due = s.cyc.k + 1))

/-- What follows the adoption of an image: it is evaluated, and the crossing's activations are queued; a trigger whose last entry one of
them delivers leaves the table (07 R201). -/
def afterAdoption (s : State) (rep : AgreeReport) (used : List Nat) (rise fall : Nat) (wins : List Item) : State :=
  if s.agree.mismatch || s.agree.lost then closeImages s
  else
    let s := noticeActivations (evaluateImage (agreeHead s rep used) used) wins
    sendMirror (freeTriggers (scheduleCrossing (closeImages s) rise fall wins))

/-- The lanes merge the images used, requests being decided on the values held at the start of the crossing (02 R43), and compare their
digests: the image of the majority is adopted, and without one there is a mismatch restart (R162). -/
def mergeAndJudge (s : State) (rep : AgreeReport) (used : List Nat) : State :=
  let reqs := imageRequests s
  let (rise, fall, wins, s1) := adoptImage (decideRequests s) used
  let img := mergedImage s1 reqs
  match minority (laneSet s1) (sameInput s1 img rep) with
  | none => closeImages (mismatch s 1 [] false)
  | some minor =>
    let s1 := adoptDev s1 (devOf rep (winner (laneSet s1) minor))
    afterAdoption (judgeJoin (faultInputs s1 img rep minor) rep) rep used rise fall wins

/-- The Agree phase (R120, R125, 06 R160 to R163): the presence of the hub images is judged, what only an image not used held is lost,
and the images used are merged, compared, adopted and evaluated. A crossing whose image cannot be agreed adopts none. -/
def agreeInputs (s : State) (rep : AgreeReport) : State :=
  let (used, lacking) := usedImages s rep
  let s := lacking.foldl (fun s l => laneFault s l 2 (srcLane l) [] false) { s with cyc.agreedK := some s.cyc.k }
  if s.agree.mismatch || s.agree.lost then closeImages s
  else mergeAndJudge (dropLost (countLost s used) used) rep used

/-- INPUT_AGREEMENT (06 R160 to R163): once in a crossing, when its hub images have closed. -/
def execInputAgreement (rep : AgreeReport) (s : State) : Out :=
  .next (
    if s.cyc.running && !s.agree.mismatch && !s.agree.lost && s.cyc.agreedK ≠ some s.cyc.k && hubsClosed s ≠ [] then agreeInputs s rep
    else s)

/-! ## ACTIVATION_START (R122, R139, R140) -/

/-- May a queued activation begin? One of a crossing begins whatever STOP or HOLD its stall took at a later boundary (R122); a fault
ends those of its stall (04 R115). -/
def mayBegin (s : State) (q : Queued) : Bool :=
  match getStall? s q.stall with
  | some st => st.state = .running || (carriesOn st.state && decide (q.k < s.cyc.k))
  | none => false

/-- Queue entries whose activations may begin. -/
def dropStopped (s : State) : List Queued → List Queued
  | [] => []
  | q :: rest => if mayBegin s q then q :: rest else dropStopped s rest

/-- The IMAGE of an activation takes the place of the former one, with CONTINUED, the fuel stops and the retain commit (Table
05-5). -/
def placeImage (s : State) (i : Nat) (st : Stall) (img : Mem) : Mem :=
  let m := img.foldl (fun m c => mput m c.1 c.2) (mclear st.exec.mem baseImage baseOutbox)
  if st.desc.imageSize = 0 then m
  else
    let fl := (mget m (baseImage + 30)).toNat
    let m := mput m (baseImage + 30) (BitVec.ofNat 8 (setBit fl 0 st.continued))
    mwrite (mwrite m (baseImage + 52) 4 (gvi s E.stallOverruns i)) (baseImage + 56) 8 st.retainCommit

/-- The next activation of a core begins: fresh fuel (R139), the image in place. -/
def startActivation (s : State) (core : Nat) (q : Queued) (rest : List Queued) : State :=
  let s := updRun s core (fun _ => { run := some q.stall, queue := rest, start := 0, tk := q.tk, kRun := q.k })
  match getStall? s q.stall with
  | none => s
  | some st =>
    let s := updRun s core (fun r => { r with start := st.desc.fuel })
    let s := setStall s q.stall { st with
      continued := false, dwImage := q.dw, dwWrites := [], dwOrder := []
      exec := { st.exec with fuel := st.desc.fuel, posted := 0, activations := st.exec.activations + 1
                             mem := placeImage s q.stall st q.image } }
    perfCount s core (some q.stall) [(0x20, 1)]

/-- ACTIVATION_START: a core that runs none begins the next activation of its queue, once the image is agreed. -/
def execActivationStart (core : CoreIx) (s : State) : Out :=
  let r := getRun s core.val
  .next (
    if r.run.isSome || s.cyc.agreedK ≠ some s.cyc.k || s.agree.mismatch || s.agree.lost then s
    else
      match dropStopped s r.queue with
      | [] => updRun s core.val (fun r => { r with queue := [] })
      | q :: rest => startActivation s core.val q rest)

/-- SUPERVISOR_PAUSE (R124, 03 R65): a pause on a core of one lane, which the stall cannot observe; counted (19 Table 19-1). -/
def execSupervisorPause (lane : Fin 3) (core : CoreIx) (cycles : Nat) (s : State) : Out :=
  .next (
    let ctrls := coreCtrls s core.val
    let ctx := (getRun s core.val).run
    if laneRuns s lane.val then
      { s with perf.cores := vupd s.perf.cores (lane.val * 16 + core.val) (fun p => p.count ctrls ctx [(0x23, 1), (0x24, cycles)]) }
    else s)

end Sys2Proof.Machine
end

