-- ==== Sys2Proof/Machine/Retain.lean ====
section
/-!
DEFINITION. The retain stores (05 R148 to R150): the commit passes, and the copy that a start restores.
-/

namespace Sys2Proof.Machine

/-- The sequence of a copy as the choice of the page to replace sees it: an absent or torn copy comes first. -/
def copyRank (c : Option RetainCopy) : Nat :=
  match c with
  | some x => if x.valid then x.seq + 1 else 0
  | none => 0

/-- A commit goes to the copy that does not hold the newer valid one. -/
def putCopy (r : RetainCopies) (c : RetainCopy) : RetainCopies :=
  if copyRank r.a ≤ copyRank r.b then { r with a := some c } else { r with b := some c }

/-- RETAIN and MIRROR bytes of a stall's memory. -/
def retainBytes (m : Mem) : Mem := mkeep m baseRetain baseImage

/-- Has a stall anything to retain? -/
def retains (d : Descriptor) : Bool := d.retainSize ≠ 0 || d.mirrorSize ≠ 0

/-- One stall's commit, from its agreed checkpoint, to both hubs (R149); a torn copy fails its CRC. -/
def commitStall (s : State) (bad : List Nat) (i : Nat) : State :=
  match nget? s.agreed.stalls i, getStall? s i with
  | some g, some st =>
    if st.admitted && retains st.desc then
      let seq := nget s.sup.retainSeq i 0 + 1
      let c : RetainCopy :=
        { tag := st.desc.retainTag, retainSize := st.desc.retainSize, mirrorSize := st.desc.mirrorSize, seq := seq, tk := s.cyc.tk
          data := retainBytes g.exec.mem, valid := !(bad.contains i) }
      let s := { s with
        hubs := s.hubs.map (fun h =>
          if h.failed || h.restarting then h else { h with retain := nset h.retain i (putCopy (nget h.retain i {}) c) })
        sup.retainSeq := nset s.sup.retainSeq i seq
        agreed.retainSeq := nset s.agreed.retainSeq i seq
        agreed.stalls := nupd s.agreed.stalls i (fun x => { x with retainCommit := s.cyc.tk }) }
      updStall s i (fun x => { x with retainCommit := s.cyc.tk })
    else s
  | _, _ => s

/-- A pass over every admitted stall in ascending id. -/
def commitAll (s : State) (bad : List Nat) : State := (s.sup.stalls.map Prod.fst).foldl (fun s i => commitStall s bad i) s

/-- RETAIN_COMMIT_PASS (R149): not after the power-fail warning. `bad` names the stalls whose copy is left torn. -/
def execRetainCommitPass (bad : List Nat) (s : State) : Out :=
  .next (
    if s.cyc.running && s.supply.powerFail.isNone && !s.agree.lost && !s.agree.mismatch then commitAll s bad else s)

/-- A stall's copies are erased in both stores (R150). -/
def eraseRetain (s : State) (i : Nat) : State :=
  { s with
    hubs := s.hubs.map (fun h => { h with retain := nerase h.retain i })
    sup.retainSeq := nerase s.sup.retainSeq i }

/-- The valid copies of a stall, HA's first. -/
def validCopies (s : State) (i : Nat) : List RetainCopy :=
  [0, 1].flatMap (fun h =>
    let r := nget (getHub s h).retain i {}
    ([r.a, r.b].filterMap id).filter (·.valid))

/-- The newest of a list; of equal sequences the first stands. -/
def newestCopy (l : List RetainCopy) : Option RetainCopy :=
  l.foldl (fun acc c => match acc with
    | none => some c
    | some a => if a.seq < c.seq then some c else some a) none

/-- Does a copy fit the descriptor (R150)? -/
def copyFits (d : Descriptor) (c : RetainCopy) : Bool :=
  c.tag = d.retainTag && c.retainSize = d.retainSize && c.mirrorSize = d.mirrorSize

/-- Restore a stall's RETAIN and MIRROR at start-up (R150): the newest valid copy that fits. With none, RETAIN_LOST and event 0x2054,
whose stored tag is that of the newest valid copy, 0 without one. -/
def restoreRetain (s : State) (i : Nat) : State :=
  match getStall? s i with
  | none => s
  | some st =>
    if !(retains st.desc) then s
    else
      let all := validCopies s i
      let tag := ((newestCopy all).map (·.tag)).getD 0
      let s := { s with sup.retainSeq := nset s.sup.retainSeq i (((newestCopy all).map (·.seq)).getD 0) }
      match newestCopy (all.filter (copyFits st.desc)) with
      | some c =>
        updStall s i (fun x => { x with
          retainCommit := c.tk
          exec.mem := c.data.foldl (fun m b => mput m b.1 b.2) (mclear x.exec.mem baseRetain baseImage) })
      | none =>
        emitL (updStall s i (fun x => { x with retainLost := true })) (srcStall i) 0x2054 2 (u32 st.desc.retainTag ++ u32 tag) i

end Sys2Proof.Machine
end

