-- ==== Sys2Proof/Machine/Reset.lean ====
section
/-!
DEFINITION. What a reset kind clears and keeps (20 R483, R484, R499), and the restart of all seven dies.
-/

namespace Sys2Proof.Machine

/-! ## What outlives a restart of HA and HB (Table 20-4) -/

/-- Is an entry key that of a persistent entry? -/
def persistKey (k : Nat) : Bool :=
  match findEntry (k / 16777216) (k / 65536 % 256) with
  | some e => e.persist
  | none => false

/-- A hub die after its restart: its MRAM device keeps journal, retain store, counters and clean-stop mark. -/
def freshHub (h : HubDie) : HubDie :=
  { journal := h.journal, retain := h.retain, cleanStop := h.cleanStop, opSeconds := h.opSeconds, powerCycles := h.powerCycles }

/-- A yard after a restart: what the storage device holds. -/
def freshYard (y : Yard) : Yard := { dropPage y with state := 0, linkUp := false, errors := 0 }

/-- The higher of the hubs' stored counters (17 R421). -/
def storedMax (s : State) (f : HubDie → Nat) : Nat := max (f (getHub s 0)) (f (getHub s 1))

/-- The recorder after a restart: counters resume, and a clear sweep cut short goes on (17 R434). -/
def freshRecorder (s : State) : Recorder :=
  { seconds := storedMax s (·.opSeconds), cycles := storedMax s (·.powerCycles), lastStored := storedMax s (·.opSeconds)
    clearPoint := s.recd.clearPoint, yards := s.recd.yards.map freshYard }

/-- The loft, banks, settings, tack room and passwords; an open transfer leaves its package PAUSED, and settings writes that had not
completed are lost (18 R451, R460). -/
def freshUpdate (u : Update) : Update :=
  { u with
    transfer := none, paused := false, jobs := [], storeDue := [], dropped := 0
    loft := match u.transfer with
      | some x => nupd u.loft x.pkg (fun p => { p with paused := true })
      | none => u.loft }

/-- The backbone after a restart: configured plan, companion plans and the COLD count are kept, and what the wires show. -/
def freshBackbone (b : Backbone) : Backbone :=
  { configured := b.configured, companions := b.companions, coldEver := b.coldEver, links := b.links.map (fun l => { los := l.los }) }

/-- The logic dies (lanes and hubs) after a restart; field dies, supply and button as they are. -/
def restartLogic (s : State) : State :=
  { State.reset with
    cnt := s.cnt.filter (fun p => persistKey p.1)
    hubs := s.hubs.map freshHub
    recd := freshRecorder s
    upd := freshUpdate s.upd
    bb := freshBackbone s.bb
    con := { ports := s.con.ports.map (fun p => { los := p.los }) }
    perf := { blocks := s.perf.blocks }
    field := s.field, saf := s.saf, tacho := s.tacho, supply := { s.supply with energy := 0, measured := false }
    st := { freeCount := s.st.freeCount, pressAt := s.st.pressAt, pressIn := s.st.pressIn, ignorePress := s.st.ignorePress,
            stuckDone := s.st.stuckDone, prevMode := s.st.prevMode }
    egress := s.egress, pending := s.pending }

/-- The field domain after a restart of FX and FY: the levels at the pins are as they are. -/
def freshField (s : State) : State :=
  { s with
    field := { di := s.field.di.map (fun d => { volts := d.volts, raw := d.raw, level := d.raw, safLevel := d.raw }) }
    saf := {}
    tacho := s.tacho.map (fun t => { a := t.a, b := t.b }) }

/-- The reset kind that a start cause counts as (Table 20-1): 1 POWER_ON, 2 MODULE_RESET, 3 RECOVERY. -/
def resetKind (cause : Nat) : Nat := if cause = 1 then 1 else if cause = 5 then 3 else 2

/-- All seven dies restart (R483, R499): a start of the given START_CAUSE is in phase S1. At POWER_ON the power-cycle count rises by
1 and is stored, and the block counters are 0. -/
def resetDies (s : State) (cause : Nat) : State :=
  let s := freshField (restartLogic s)
  let s := bumps s E.resetCounts (resetKind cause) 0 1
  let s := { s with st.phase := 1, st.cause := cause, st.recovery := cause = 5 }
  if cause = 1 then
    let n := s.recd.cycles + 1
    { s with recd.cycles := n, hubs := s.hubs.map (fun h => { h with powerCycles := n }), perf.blocks := [] }
  else s

/-! ## The sequence before a commanded restart (R484) -/

/-- Records on their way to the hubs reach their buffers, and both buffers are flushed; the clean-stop marks are written (17 R425). -/
def flushClean (s : State) : State :=
  let s := [0, 1].foldl (fun s h =>
    if hubUp s h then
      let l := (getHub s h).inflight
      l.foldl (fun s r => bufferIn s h r) (updHub s h (fun d => { d with inflight := [] }))
    else s) s
  let s := storeSeconds (flushAll s)
  { s with hubs := s.hubs.map (fun h => if h.failed || h.restarting then h else { h with cleanStop := true }) }

/-- The sequence of R484 and the restart that follows it. -/
def resetSequence (s : State) (cause : Nat) : State :=
  let s := if gv s E.twinEnable = 1 then releaseLease s s.cyc.tk else s
  let s := if s.agree.lost || s.supply.powerFail.isSome then s else commitAll s []
  let s := if s.supply.powerFail.isSome then s else storeAll s
  let s := flushClean (endFreeze s s.cyc.tk)
  let s := [0, 1, 2, 5, 6].foldl (fun s d => send s { kind := .dieReset, a := d }) s
  resetDies s cause

end Sys2Proof.Machine
end

