-- ==== Sys2Proof/Machine/Boundary.lean ====
section
/-!
DEFINITION. The end of a crossing and the boundary after it: checkpoint agreement (06 R173, R174), the field output command (05 R136),
load, replacement and unload of stalls (04 R104 to R111), and everything that falls due at a boundary in the order of 21 Table 21-4.
-/

namespace Sys2Proof.Machine

/-! ## The field output command (R136) -/

/-- Does a channel last commanded by a stall take its programmed safe state: the stall STOPPED, faulted in an earlier crossing (04
R116), gone, restarting, or a mirrored copy whose state is not in step (12 Table 12-7)? -/
def commanderOut (s : State) (i : Nat) : Bool :=
  match getStall? s i with
  | none => true
  | some st =>
    match st.state with
    | .running => st.mirrorSt = 4 || st.mirrorSt = 5
    | .held => false
    | .faulted => decide (st.exec.faultTime < s.cyc.tk)
    | _ => true

/-- Does item 1 or 2 of the list set a standard channel? -/
def setByFirstTwo (s : State) (ch : Nat) : Bool :=
  nhas s.sup.forceDo ch || s.sup.mode = 2 || (match nget? s.sup.doLast ch with
    | some d => commanderOut s d.stall
    | none => false)

/-- The state that the command gives a channel. -/
def commandBit (s : State) (ch : Nat) : Bool :=
  match doRole s false ch with
  | 1 => s.sup.mode ≠ 2
  | 2 => false
  | _ =>
    match nget? s.sup.forceDo ch with
    | some f => f.value = 1
    | none =>
      match nget? s.sup.doLast ch with
      | none => gvi s E.doSafeState ch = 1
      | some d => if setByFirstTwo s ch then gvi s E.doSafeState ch = 1 else d.on

/-- The content of an output command, as the model lists it (log 16). -/
def cmdBytes (bits : Nat) (reqs : List (Nat × Bool)) (timed : List TimedDo) (withdraw : List Nat) : List Byte :=
  u32 bits ++ u8 reqs.length ++ reqs.flatMap (fun r => u8 r.1 ++ u8 (b2n r.2))
    ++ u8 timed.length ++ timed.flatMap (fun a => u8 a.channel ++ u8 (b2n a.on) ++ u64 a.at_)
    ++ u8 withdraw.length ++ withdraw.flatMap u8

/-- The output command of the crossing joins the output stream, with the timed actions, withdrawals and safety requests that travel
in it. -/
def outputCommand (s : State) : State :=
  let s := (List.range 32).foldl (fun s ch =>
    if doRole s false ch = 0 && setByFirstTwo s ch then withdrawTimed s ch else s) s
  let word := (List.range 32).foldl (fun m ch => setBit m ch (commandBit s ch)) 0
  let seq := (s.sup.cmdSeq + 1) % 2 ^ 32
  let data := cmdBytes word s.sup.safReqs s.sup.timedDo s.sup.withdraw
  let s := pushOut s { ident := seq, kind := 4, data := data }
  { s with sup.cmdSeq := seq, sup.safReqs := [], sup.timedDo := [], sup.withdraw := [] }

/-! ## Checkpoint agreement (06 R173, R174) -/


/-- The stalls whose activations have not ended. -/
def runningStalls (s : State) : List Nat := s.cyc.runs.toList.filterMap (·.run)

/-- The pending generation becomes the agreed one (R173); a stall whose activation has not ended keeps its former generation. -/
def agreeGeneration (s : State) : State :=
  let busy := runningStalls s
  let back := fun (m : NMap Stall) (i : Nat) => match nget? s.agreed.stalls i with
    | some g => nset m i g
    | none => m
  { s with
    agreed := { s.sup with
      stalls := busy.foldl back s.sup.stalls
      posted := s.sup.posted.filter (fun p => !(busy.contains p.stall)) }
    agree.undo := some (undoNow s) }

/-- The ids whose digests are exchanged, the supervisors' among them: those of stalls whose activation ended in the crossing. Only
those that a report names can differ. -/
def judgedIds (s : State) (dev : List LaneDiff) : List Nat :=
  0xFFFF :: ((dev.map (·.stall)).dedup.filter (fun i => match getStall? s i with
    | some st => st.endedK = s.cyc.k && !((runningStalls s).contains i)
    | none => false))

/-- The digests are judged, id by id (R174): where two lanes of three are equal their generation stands. A mismatch names every stall
whose digests disagreed (R181). -/
def judgeCheckpoints (s : State) (dev : List LaneDiff) (equiv : List Nat) : State :=
  let ids := judgedIds s dev
  let set := laneSet s
  let same := fun (i : Nat) => sameCheckpoint s dev equiv i
  let verdict := fun (i : Nat) => minority set (same i)
  if ids.any (fun i => verdict i = none) then
    mismatch s 3 ((ids.filter (fun i => verdict i ≠ some [])).filter (· ≠ 0xFFFF)) true
  else
    let wins := ids.map (fun i => (i, (set.filter (fun l => !(((verdict i).getD []).contains l))).headD 0))
    let shadow := [0, 1, 2].filter (fun l => (getLane s l).state = .shadow && wins.any (fun w => !(same w.1 w.2 l)))
    let bad := set.filter (fun l => ids.any (fun i => ((verdict i).getD []).contains l))
    let s := wins.foldl (fun s w => applyDiffs s (diffsOf dev w.2 w.1)) s
    let s := bad.foldl (fun s l =>
      laneFault s l 3 (srcLane l) ((ids.filter (fun i => ((verdict i).getD []).contains l)).filter (· ≠ 0xFFFF)) true) s
    shadow.foldl (fun s l => laneFault s l 9 (srcLane l)) s

/-- The End phase: digests judged, bridge operations decided, the output command formed, the generation agreed. -/
def endCrossing (s : State) (dev : List LaneDiff) (equiv : List Nat) : State :=
  let s := judgeCheckpoints s dev equiv
  if s.agree.mismatch || s.agree.lost then s
  else
    let s := agreeGeneration (outputCommand (decideBridges s))
    { s with cyc.endDone := some s.cyc.k }

/-- CHECKPOINT_AGREEMENT (R174): once in a crossing, after its input agreement. -/
def execCheckpointAgreement (dev : List LaneDiff) (equiv : List Nat) (s : State) : Out :=
  .next (
    if s.cyc.running && s.cyc.agreedK = some s.cyc.k && s.cyc.endDone ≠ some s.cyc.k && !s.agree.mismatch && !s.agree.lost then
      endCrossing s dev equiv
    else s)

/-! ## Loads, replacements and unloads (04 R104 to R108) -/

/-- LOAD_COPY_COMPLETE (R104): a lane of the set reports its digest of a copy that has begun. -/
def execLoadCopyComplete (lane : Fin 3) (stall digest : Nat) (s : State) : Out :=
  .next (
    match (getStall? s stall).bind (·.loading) with
    | none => s
    | some ld =>
      if ld.waiting || !(inSet s lane.val) then s
      else updStall s stall (fun st => { st with loading := some { ld with digests := nset ld.digests lane.val digest } }))

/-- The digest of the majority of the lane set: of two or more lanes two equal ones, of one its own. -/
def majorityDigest (s : State) (ld : Loading) : Option Nat :=
  let l := (laneSet s).map (fun l => nget ld.digests l 0)
  match l with
  | [a] => some a
  | _ => l.find? (fun d => 2 ≤ (l.filter (· = d)).length)

/-- Event 0x2041. -/
def loadEvent (s : State) (i : Nat) (ld : Loading) (outcome agreeing : Nat) : State :=
  emitL s (srcStall i) 0x2041 1
    (u8 outcome ++ u8 (if ld.replace then 2 else 1) ++ u32 ld.pkgNo ++ u32 ld.pkg.desc.version ++ u8 agreeing) i

/-- A stall as its load completes (R104, R105). -/
def loadedStall (s : State) (st : Stall) (ld : Loading) : Stall :=
  { st with
    state := .stopped, loading := none, first := true, placed := ld.placed, dataFrom := s.cyc.k
    exec := initRegs ld.pkg.desc { mem := loadMem ld.pkg } }

/-- A stall as it switches to a new version (R107): RETAIN and MIRROR, tag, restart count and the last fault are kept; refusal code and
count in slot 0 start afresh (log 133). -/
def switchedStall (s : State) (st : Stall) (ld : Loading) : Stall :=
  let d := ld.pkg.desc
  let kept := retainBytes st.exec.mem
  let x : Exec :=
    { mem := kept.foldl (fun m b => mput m b.1 b.2) (loadMem ld.pkg), nextTag := st.exec.nextTag, restarts := st.exec.restarts,
      autoTimes := st.exec.autoTimes, faultTime := st.exec.faultTime, faultCause := st.exec.faultCause, rescue := st.exec.rescue }
  { st with
    pkgNo := ld.pkgNo, desc := d, map := ld.pkg.map, decls := ld.pkg.decls, placed := ld.placed, loading := none
    exec := initRegs d x
    phase := st.phase % d.period
    imap := st.imap.filter (fun p => bits p.2 64 32 + imapPadded p.2 ≤ d.imageSize)
    first := true, continued := false, skipped := false, stepped := false, lastFuelStop := false, dueWanted := false
    imgWin := {}, results := [], trigWait := [], dwAbort := 0, dwCount := 0, dwOrder := [], dwWrites := [], dataFrom := s.cyc.k
    discarded := st.discarded + st.results.length + st.trigWait.length }

/-- What a stall leaves when its id becomes EMPTY: groups, triggers, posted requests, writes and activations. -/
def dropActivity (s : State) (i : Nat) : State :=
  let s := cancelTriggers (leaveGroups s i) i
  let n := (s.sup.posted.filter (fun p => p.stall = i)).length
  let s := updStall s i (fun st => { st with discarded := st.discarded + n })
  endRuns { s with
    sup.posted := s.sup.posted.filter (fun p => p.stall ≠ i)
    sup.reqs := s.sup.reqs.filter (fun r => r.ctx ≠ 5000 + i) } i

/-- Is a posted request of an old version still carried out, its outcome discarded (R107)? Its triggers are cancelled, and messages of
an activation that has not ended go with its execution state. -/
def outlivesSwitch (p : Posted) : Bool :=
  p.decided || (match p.req with
    | .trigArm _ | .send .. | .event .. => false
    | _ => true)

/-- What the old version leaves at the switch (R107): its groups, triggers and activations end; its accepted writes stand, and the
outcomes of its posted requests will be discarded and counted. -/
def switchActivity (s : State) (i : Nat) : State :=
  let s := cancelTriggers (leaveGroups s i) i
  let gone := fun (p : Posted) => p.stall = i && !(outlivesSwitch p)
  let n := (s.sup.posted.filter gone).length
  let s := updStall s i (fun st => { st with discarded := st.discarded + n })
  endRuns { s with
    sup.posted := (s.sup.posted.filter (fun p => !(gone p))).map (fun p => if p.stall = i then { p with dropped := true } else p) } i

/-- A load or replacement whose lanes have all reported completes, or fails for want of a majority (R104, R107). -/
def completeLoad (s : State) (i : Nat) (st : Stall) (ld : Loading) : State :=
  match majorityDigest s ld with
  | none =>
    let s := loadEvent s i ld 2 0
    if ld.replace then updStall s i (fun st => { st with loading := none })
    else { s with sup.stalls := nerase s.sup.stalls i, sup.ctxs := nerase s.sup.ctxs (5000 + i) }
  | some d =>
    let set := laneSet s
    let bad := set.filter (fun l => nget ld.digests l 0 ≠ d)
    let s := loadEvent s i ld 1 (set.length - bad.length)
    let s :=
      if ld.replace then
        let s := dropDecls (switchActivity s i) st.decls ld.pkg.decls
        updStall s i (fun st => switchedStall s st ld)
      else svi (svi (setStall s i (loadedStall s st ld)) E.stallOverruns i 0) E.stallLastFuel i 0
    bad.foldl (fun s l => laneFault s l 11 (srcLane l)) s

/-- The stall-owned settings parts of an id: its image map and the values that its version declared. -/
def ownPart (i : Nat) (decls : List Decl) (key : Nat) : Bool :=
  (key / 16777216 = 0x2210 && key % 65536 = i) || decls.any (fun c => ekey c.index c.sub 0 = key)

/-- An id returns to EMPTY (R108): stall, context, its declared values, its copies in the retain stores. -/
def finishUnload (s : State) (i : Nat) (st : Stall) : State :=
  let s := eraseRetain (dropDecls (dropActivity s i) st.decls []) i
  { s with
    sup.stalls := nerase s.sup.stalls i
    sup.ctxs := nerase s.sup.ctxs (5000 + i)
    sup.doLast := s.sup.doLast.map (fun p => if p.2.stall = i then (p.1, { p.2 with stall := 0xFFFF }) else p)
    upd.store := s.upd.store.filter (fun p => !(ownPart i st.decls p.1))
    upd.storeDue := s.upd.storeDue.filter (fun p => !(ownPart i st.decls p.1))
    perf.latArmed := s.perf.latArmed && gv s E.pcLatStall ≠ i }

/-- A restart or an unload that ends, or begins after waiting, at a boundary (R108, R111). -/
def transition (s : State) (i : Nat) (st : Stall) : State :=
  let past := match st.restartAt with
    | some b => decide (b < s.cyc.k)
    | none => false
  if st.state = .restarting && past then setStall s i { st with state := .running, restartAt := none }
  else if st.state = .unloading && st.unloadWait then (if restabling s then s else beginUnload s i)
  else if st.state = .unloading && past then finishUnload s i st
  else s

/-- A load that waits for re-stabling begins, or one that every lane has reported completes (R104, R508). -/
def loadProgress (s : State) (i : Nat) (st : Stall) : State :=
  match st.loading with
  | none => s
  | some ld =>
    if ld.waiting then
      if restabling s then s
      else updStall s i (fun st => { st with loading := some { ld with waiting := false, since := s.cyc.tk } })
    else if (laneSet s).all (fun l => nhas ld.digests l) then completeLoad s i st ld
    else s

/-- The state changes of one stall that fall due at a boundary. -/
def stallBoundary (s : State) (i : Nat) : State :=
  match getStall? s i with
  | none => s
  | some st =>
    let s := transition s i st
    match getStall? s i with
    | none => s
    | some st => loadProgress s i st

/-- Automatic restart (R117): within the limit of 3600 s, else event 0x2044. -/
def autoRestart (s : State) (i : Nat) : State :=
  match getStall? s i with
  | none => s
  | some st =>
    if !st.autoPending || st.state ≠ .faulted then s
    else
      let s := updStall s i (fun st => { st with autoPending := false })
      if !st.desc.autoRestart then s
      else
        let times := st.exec.autoTimes.filter (fun t => s.cyc.tk < t + 3600000000000)
        let s := updStall s i (fun st => { st with exec.autoTimes := times })
        if times.length < st.desc.restartLimit then
          beginRestart (updStall s i (fun st => { st with exec.autoTimes := times ++ [s.cyc.tk] })) i true
        else
          emitL s (srcStall i) 0x2044 2 (u8 st.desc.restartLimit ++ u32 times.length ++ u64 st.exec.faultCause.toNat) i

/-- Apply a function for every stall id in ascending order. -/
def eachId (s : State) (f : State → Nat → State) : State := (s.sup.stalls.map Prod.fst).foldl f s

/-! ## Writes (R43) -/

/-- A write as it is judged and applied at its boundary. -/
def applyRequest (s : State) (r : Request) : State :=
  if !(nhas s.sup.ctxs r.ctx) then s
  else
    match lookupEntry s r.index r.sub with
    | none => applyWrite s { ctx := r.ctx, idx := r.index, sub := r.sub, len := 0, v := 0, reqId := r.reqId, elen := r.elen }
    | some e =>
      let w := requestW s r e
      let h := handlerOf e w.sub
      let extra := ctxIsStall r.ctx && (r.payload.drop e.len).any (· ≠ 0)
      applyW (if extra then { h with conds := fun s w => h.conds s w ++ [abort abtRange 1] } else h) e s w

/-- The writes due at the boundary, by context: service port, sessions, stalls, each in ascending number; a context's own in their
order. -/
def applyWrites (s : State) : State :=
  let due := fun (r : Request) => decide (r.op = 2) && decide (r.due ≤ s.cyc.k)
  let l := (s.sup.reqs.filter due).mergeSort (fun a b => a.ctx ≤ b.ctx)
  l.foldl applyRequest { s with sup.reqs := s.sup.reqs.filter (fun r => !(due r)) }

/-- Pair-scope writes that the lease holder's record carried take effect (12 R330). -/
def applyPeerWrites (s : State) : State :=
  s.twin.peerWrites.foldl (fun s p =>
    match lookupEntry s p.index p.sub with
    | none => s
    | some e =>
      let w : WReq := { ctx := 0, idx := p.index, sub := p.sub, inst := p.inst, len := e.len, v := p.value, answer := false }
      let s := (handlerOf e p.sub).eff s w
      if e.persist then { s with upd.storeDue := nset s.upd.storeDue (ekey p.index p.sub p.inst) (p.value, s.cyc.k) } else s)
    { s with twin.peerWrites := [] }

/-! ## Outcomes of posted requests (R132) -/

/-- Safety requests are decided, and travel in the next command (15 R393). -/
def decideSafety (s : State) : State :=
  let (ps, s) := (postedOrder s.sup.posted).foldl (fun (acc : List Posted × State) p =>
    match p.req, p.decided with
    | .safety inst reset, false =>
      let code := judgeSafReq acc.2 p.stall inst reset
      let s := if code = 0 then { acc.2 with sup.safReqs := acc.2.sup.safReqs ++ [(inst, reset)] } else acc.2
      (acc.1 ++ [{ p with code := code, decided := true }], s)
    | _, _ => (acc.1 ++ [p], acc.2)) ([], s)
  { s with sup.posted := ps }

/-- A stall takes the outcome of a posted request; that of a version replaced is discarded and counted (04 R107). -/
def takeOutcome (p : Posted) (st : Stall) : Stall :=
  if p.dropped then { st with discarded := st.discarded + 1 }
  else { st with results := st.results ++ [{ tag := p.tag, code := p.code, value := p.value }] }

/-- Decided outcomes join the results that wait for the stall's next activation. -/
def takeOutcomes (s : State) : State :=
  let s := decideSafety s
  let s' := { s with sup.posted := s.sup.posted.filter (fun p => !p.decided) }
  (s.sup.posted.filter (·.decided)).foldl (fun s p => updStall s p.stall (takeOutcome p)) s'

/-! ## Time (07 R186 to R191, 10 R271, R272) -/

/-- T and the step in the marker with which a hub closed the image of the next crossing (07 R190). -/
def marker (s : State) (h : Nat) : Nat × Int :=
  let img := vget s.cyc.hubImg h {}
  if img.closed && img.k = s.cyc.k + 1 then (img.tk, img.step) else hubNext s h

/-- A hub's step: event 0x2070, and TIME_STEPS counts it (07 R189). `old` is where the boundary would have fallen without it. -/
def noteStep (s : State) (h old t : Nat) (step : Int) : State :=
  if step = 0 || !(hubUp s h) then s
  else emitL (bump s E.timeSteps) (srcHub h) 0x2070 1 (u64 (ofInt 8 step) ++ u64 old ++ u64 t)

/-- The hubs measure the phase difference of their time bases over the link between them, and values that differ are recorded (R190). -/
def compareHubs (s : State) : State :=
  if !(hubUp s 0 && hubUp s 1) then s
  else
    let d : Int := ((getHub s 0).time : Int) - ((getHub s 1).time : Int)
    let s := if hubLinkUp s then measureHubDiff s d else s
    if d = 0 then s else hubDiffEvent s

/-- The crossing number and T_k advance: the lanes adopt the marker of one hub, and its step (R190). -/
def advance (s : State) : State :=
  let h := timeHub s
  let m0 := marker s 0
  let m1 := marker s 1
  let m := if h = 0 then m0 else m1
  let due := (vget s.cyc.hubImg h {}).cDue
  let olds := s.hubs.map (fun d => d.time + s.cyc.c)
  let s := { s with
    hubs := s.hubs.mapIdx (fun i d => { d with time := if i = 0 then m0.1 else m1.1 })
    bb.cDue := if due = s.bb.cDue then none else s.bb.cDue, bb.alignDue := s.bb.alignDue && due ≠ s.bb.cDue
    cyc.k := s.cyc.k + 1, cyc.tk := m.1, cyc.c := due.getD s.cyc.c, cyc.lastStep := m.2 }
  let s := noteStep (noteStep (compareHubs s) 0 (vget olds 0 0) m0.1 m0.2) 1 (vget olds 1 0) m1.1 m1.2
  if m.2 = 0 then s else eachStall s (fun _ st => { st with stepped := true })

/-- A UTC offset that has arrived takes effect, with event 0x2072 (R191). -/
def utcBoundary (s : State) : State :=
  match s.sup.tp.utcDue with
  | none => s
  | some o =>
    let old := s.sup.tp.utcOffset
    let s := { s with sup.tp.utcDue := none, sup.tp.utcOffset := o, sup.tp.utcValid := true }
    if old = o then s else emitL s (srcHub 0) 0x2072 0 (u64 (ofInt 8 old) ++ u64 (ofInt 8 o))

/-! ## The boundary -/

/-- A mode commanded at the boundary before takes effect (R142), with event 0x2050. -/
def modeBoundary (s : State) : State :=
  match s.sup.modePending with
  | none => s
  | some (m, ctx) =>
    let old := s.sup.mode
    let new := if m = 2 then 2 else if 0 < heldCount s then 3 else 1
    let s := { s with sup.modePending := none, sup.mode := new }
    if old = new then s else emitL s (srcHub 0) 0x2050 0 (u8 old ++ u8 new ++ u16 ctx)

/-- At the resume boundary of a mismatch restart (06 R180): output hold ends, requests without effect are answered, and activations
that fell due meanwhile count as withheld. -/
def resumeBoundary (s : State) : State :=
  let hubs := s.hubs.map (fun h => { h with voter.outputHold := false })
  let s := countersAfter { snapDrop s with agree.mismatch := false, agree.resumeDue := false, hubs := hubs }
  let noEffect := fun (s : State) (r : Resp) =>
    respond s { r with code := abort abtState 3, data := (u32 (abort abtState 3)).reverse }
  let s := s.agree.affected.foldl (fun s r =>
    if nhas s.sup.ctxs r.ctx then noEffect (updCtx s r.ctx (fun c => { c with outstanding := c.outstanding + 1 })) r else s) s
  let s := { s with agree.affected := [] }
  let old := fun (r : Request) => !(ctxIsStall r.ctx) && decide (r.due ≤ s.cyc.k)
  let l := s.sup.reqs.filter old
  let s := l.foldl (fun s r => noEffect s { ctx := r.ctx, reqId := r.reqId, op := r.op, index := r.index, sub := r.sub, elen := r.elen, via := r.via })
    { s with sup.reqs := s.sup.reqs.filter (fun r => !(old r)) }
  let from_ := s.cyc.skipFrom.getD s.cyc.k
  let ks := (List.range (s.cyc.k - from_)).map (from_ + ·)
  eachStall s (fun _ st =>
    if st.state = .running && st.admitted && ks.any (fun k => dueIn st k) then { st with skipped := true } else st)

/-- Consecutive crossings with a discarded transfer are counted on every internal link (01 R13). -/
def linksBoundary (s : State) : State :=
  { s with ilinks := s.ilinks.map (fun l => { l with
      badRun := if l.badNow then l.badRun + 1 else 0, badNow := false, clean := l.okNow && !l.badNow, okNow := false }) }

/-- A start completes (20 R490), with event 0x1002: a bank in TRIAL becomes GOOD (18 R456, R457). -/
def completeStart (s : State) : State :=
  let a := s.upd.active
  let b := vget s.upd.banks a {}
  let s := { s with st.complete := true }
  let s := emitL s (srcHub 0) 0x1002 1 (u32 s.st.duration ++ u8 s.sup.mode ++ u8 (laneMask s))
  if b.state = 2 then
    let old := (vget s.upd.banks (1 - a) {}).version
    let s := { s with
      upd.banks := vupd s.upd.banks a (fun b => { b with state := 3, trials := 0 })
      upd.epoch := max s.upd.epoch b.epoch }
    emitL s (srcHub 0) 0x5015 1 (u8 a ++ u32 old ++ u32 b.version)
  else s

/-- Is the start complete at this boundary? -/
def startDone (s : State) : Bool :=
  !s.st.complete && !s.st.recovery && s.st.t0 + 10000000000 ≤ s.cyc.tk && 2 ≤ (laneSet s).length && s.st.migrated && !s.st.fatal
    && [0, 1].any (fun h => hubUp s h && (getHub s h).voter.inService)

/-- The stored stall set follows the loaded stalls (04 R109); it is not written after a power-fail warning, nor in recovery. -/
def storeStalls (s : State) : State :=
  if s.supply.powerFail.isSome || s.st.recovery then s
  else { s with upd.storedStalls := s.sup.stalls.map (fun p => (p.1, (p.2.pkgNo, p.2.grant.toNat, stallStateCode p.2.state))) }

/-- The crossing that ends: lag reports judged, its output items kept for the copies still on their way, its cycles counted. -/
def closeCrossing (s : State) : State :=
  let s := linksBoundary (votersBoundary (judgeLag s))
  perfCrossing s (fun c => (getShed s (c / 4)).state ≠ 0)

/-- Steps 1 to 3 of Table 21-4. -/
def stepsA (s : State) : State :=
  let s := lanesBoundary (supplyLatch s)
  let s := sendConfig { s with bb.keyNamed := gv s E.bbKeyActive }
  let s := windowsBoundary (sessionsBoundary s)
  let s := snapLatch s s.cyc.k
  let s := backboneBoundary s (trainX s s.cyc.tk)
  modeBoundary (utcBoundary (datumBoundary s))

/-- Step 4 of Table 21-4. -/
def stepsB (s : State) : State :=
  let s := eachId { s with sup.arbArm := false, sup.arbTack := false } stallBoundary
  let s := sessionsAfterWrites (applyPeerWrites (applyWrites s))
  eachId s autoRestart

/-- Steps 5 to 7 of Table 21-4, and the outcomes of posted requests. -/
def stepsC (s : State) : State :=
  let s := twinBoundary s (trainX s s.cyc.tk - 1)
  let s := refreshYards (energyBoundary s) s.cyc.tk
  let s := purgeGroups (takeOutcomes (triggerRequests (freeTriggers s)))
  let s := if startDone s then completeStart s else s
  storeStalls s

/-- A boundary that the lanes execute. -/
def executeBoundary (s : State) : State := stepsC (stepsB (stepsA s))

/-- One boundary: closing the crossing, the advance, a restart that has fallen due, or the steps of the table. A boundary that a
mismatch restart skips applies none of them (21 R511). -/
def crossBoundary (s : State) : State :=
  let s := voterFailures (advance (closeCrossing s))
  if s.agree.lost || (s.agree.mismatch && !s.agree.resumeDue) then snapMissed s s.cyc.k
  else
    let s := if s.agree.mismatch then resumeBoundary s else s
    if s.st.recoverDue then resetSequence { s with st.prevMode := s.sup.mode } 5
    else if s.st.resetDue.isSome then resetSequence s 2
    else executeBoundary s

/-- Have the hubs in operation closed the images of the next crossing? -/
def imagesClosed (s : State) : Bool :=
  (hubUp s 0 || hubUp s 1) && [0, 1].all (fun h =>
    !(hubUp s h) || ((vget s.cyc.hubImg h {}).closed && (vget s.cyc.hubImg h {}).k = s.cyc.k + 1))

/-- CROSSING_BOUNDARY (R511): when the hubs have closed the next images and the crossing that ends has been agreed, or is not
executed. -/
def execCrossingBoundary (s : State) : Out :=
  .next (
    if s.cyc.running && imagesClosed s
        && (s.cyc.endDone = some s.cyc.k || s.agree.mismatch || s.agree.lost || s.cyc.agreedK ≠ some s.cyc.k) then crossBoundary s
    else s)

end Sys2Proof.Machine
end

