-- ==== Sys2Proof/Machine/Branch.lean ====
section
/-!
DEFINITION. Conditional branches, jumps and JALR (03 Table 03-6, R68).
-/

namespace Sys2Proof.Machine

/-- A conditional branch (R58, R68): the target is fetched, and checked, by the next instruction. -/
def branchOp (core : CoreIx) (off : BitVec 16) (take : Exec → Bool) (s : State) : State :=
  runInsn core 1 (fun _ st x =>
    if take x then retireTo st x (target16 x.pc off) [(0x0B, 1)] 2 else retireX st x [(0x0C, 1)] 1) s

/-- BEQ (R58, R68). -/
def execBeq (core : CoreIx) (ra rb : Reg) (off : BitVec 16) (s : State) : Out :=
  .next (branchOp core off (fun x => decide (rget x ra = rget x rb)) s)

/-- BNE (R58, R68). -/
def execBne (core : CoreIx) (ra rb : Reg) (off : BitVec 16) (s : State) : Out :=
  .next (branchOp core off (fun x => decide (rget x ra ≠ rget x rb)) s)

/-- BLT (R58, R68). -/
def execBlt (core : CoreIx) (ra rb : Reg) (off : BitVec 16) (s : State) : Out :=
  .next (branchOp core off (fun x => (rget x ra).slt (rget x rb)) s)

/-- BGE (R58, R68). -/
def execBge (core : CoreIx) (ra rb : Reg) (off : BitVec 16) (s : State) : Out :=
  .next (branchOp core off (fun x => !((rget x ra).slt (rget x rb))) s)

/-- BLTU (R58, R68). -/
def execBltu (core : CoreIx) (ra rb : Reg) (off : BitVec 16) (s : State) : Out :=
  .next (branchOp core off (fun x => (rget x ra).ult (rget x rb)) s)

/-- BGEU (R58, R68). -/
def execBgeu (core : CoreIx) (ra rb : Reg) (off : BitVec 16) (s : State) : Out :=
  .next (branchOp core off (fun x => !((rget x ra).ult (rget x rb))) s)

/-- JMP (R58, R68). -/
def execJmp (core : CoreIx) (off : BitVec 26) (s : State) : Out :=
  .next (runInsn core 1 (fun _ st x => retireTo st x (target26 x.pc off) [(0x0D, 1)] 2) s)

/-- CALL (R58, R68): g30 takes pc + 4. -/
def execCall (core : CoreIx) (off : BitVec 26) (s : State) : Out :=
  .next (runInsn core 1 (fun _ st x => retireTo st (rset x 30 (x.pc + 4)) (target26 x.pc off) [(0x0D, 1)] 2) s)

/-- JALR (R58, R68): the target is formed before rd is written; a target that is not a multiple of 4 raises ALN. -/
def execJalr (core : CoreIx) (rd ra : Reg) (imm : BitVec 16) (s : State) : Out :=
  .next (runInsn core 1 (fun _ st x =>
    let t := rget x ra + sext16 imm
    if t.toNat % 4 ≠ 0 then trapAt x 2 3 t []
    else retireTo st (rset x rd (x.pc + 4)) t [(0x0D, 1)] 3) s)

end Sys2Proof.Machine
end

