-- ==== Sys2Proof/Machine/Dies.lean ====
section
/-!
DEFINITION. Restarts of one die (01 R16; 20 R483, R485, R495 to R498; 08 R219): watchdogs, thermal trips, command resets, and the
rejoining of a hub.
-/

namespace Sys2Proof.Machine

/-! ## Field dies (R498) -/

/-- A field die is lost: the other die declares the field cross link failed, and every instance faults with LINK (15 R380). -/
def loseField (s : State) (f t : Nat) : State :=
  if (getDie s f).failed then s
  else
    let s := updDie s f (fun d => { d with failed := true, silent := false, timed := [], kept := [] })
    let s := updDie s (1 - f) (fun d => { d with crossFailed := true })
    let e := if f = 1 then 28 else 29
    faultLink { s with ilinks := vupd s.ilinks e (fun l => { l with failed := true }) } t

/-- What the die of a channel holds after its restart: the levels at the pins are as they are. -/
def restartIo (s : State) (f : Nat) : State :=
  { s with
    field.di := s.field.di.mapIdx (fun i d =>
      if i / 32 = f then { volts := d.volts, raw := d.raw, level := d.raw, safLevel := d.raw } else d)
    field.outs := s.field.outs.mapIdx (fun i d => if i / 16 = f then {} else d)
    field.ai := s.field.ai.mapIdx (fun i d => if i / 8 = f then {} else d)
    saf.tests := []
    tacho := s.tacho.mapIdx (fun i d => if i / 2 = f then { a := d.a, b := d.b } else d)
    sup.tp.tacho := s.sup.tp.tacho.mapIdx (fun i d => if i / 2 = f then { d with restart := true } else d) }

/-- A field die restarts (R498): it takes the defaults of 14 R357, its counts restart at 0, both hubs send its configuration
again, and event 0x1006 is recorded. The length of the outage is a free value (log 6). -/
def restartField (s : State) (f cause t : Nat) : State :=
  let s := loseField s f t
  let stamp := fieldTime s f t
  let s := updDie s f (fun d => { seq := d.seq, sampleAt := stamp })
  let s := restartIo s f
  let v := freeVal s
  let s := bumps (freeNext s) E.resetCounts 6 0 1
  let s := (emitJ s (3 + f) stamp (srcField f) 0x1006 2 (u8 cause ++ u32 v) 0xFFFF).2
  let s := if s.field.cfgSeq = 0 then s else send s { kind := .fieldConfig, a := s.field.cfgSeq }
  driveOutputs s

/-- FIELD_RESTART (R498): cause 1 watchdog, 2 thermal trip, 3 command. -/
def execFieldRestart (die : Fin 2) (cause t : Nat) (s : State) : Out := .next (restartField s die.val cause t)

/-! ## Lanes (R485, R497) -/

/-- A lane's own watchdog or thermal trip resets it: a lane fault of cause 7 (R497). -/
def tripLane (s : State) (l : Nat) : State := laneFault (laneRestarts s l) l 7 (srcLane l)

/-- LANE_WATCHDOG (R497). -/
def execLaneWatchdog (lane : Fin 3) (_t : Nat) (s : State) : Out := .next (tripLane s lane.val)

/-- CLOSE_MARKER_SILENCE (R485): a lane that has received no close marker for 2 ms stops executing crossings and waits for a command
reset; without a lane that executes, no crossing is executed. -/
def execCloseMarkerSilence (lane : Fin 3) (t : Nat) (s : State) : Out :=
  .next (
    if s.cyc.running && s.cyc.tk + 2000000 ≤ t then
      let s := updLane s lane.val (fun d => { d with halted := true })
      if (laneSet s).all (fun l => (getLane s l).halted) then
        { s with cyc.running := false, cyc.runs := Vector.replicate 16 {} }
      else s
    else s)

/-! ## Hubs (R483, R495, R496) -/

/-- The service-port session on a hub that restarts closes, and its transfer pauses (R496). No rule numbers the cause of this
close: a free value (log 6). -/
def closeService (s : State) : State :=
  let s := { s with con.handshakes := s.con.handshakes.filter (fun p => !p.2.service) }
  match nget? s.con.sessions svcSession with
  | none => pauseTransfer s
  | some e =>
    let v := freeVal s
    let s := emitL (freeNext s) (srcHub (1 - s.con.svcHub)) 0x3031 0 (u16 svcSession ++ u8 v ++ leBytes 16 e.fp)
    endContext { s with con.sessions := nerase s.con.sessions svcSession } 0

/-- What a hub's restart does to the resources of that hub (01 Table 01-6). -/
def dropHubParts (s : State) (h : Nat) : State :=
  let own := winsWhere s (fun d => winHub d = h)
  { s with
    bb.planes := vupd s.bb.planes h (fun _ => {})
    bb.links := s.bb.links.mapIdx (fun i l => if linkHub i = h then { los := l.los } else l)
    con.handshakes := if h = dutyHub s then [] else s.con.handshakes
    br.ifs := s.br.ifs.mapIdx (fun i x => if i % 2 = h then { lines := x.lines } else x)
    br.wins := s.br.wins.filter (fun p => !(own.contains p.1))
    br.master := h ≠ 0 && s.br.master
    cyc.hubOpen := vupd s.cyc.hubOpen h (fun _ => [])
    cyc.hubImg := vupd s.cyc.hubImg h (fun _ => {})
    recd.yards := vupd s.recd.yards h freshYard }

/-- A hub restarts while the other stays in service (R483, R495): 1 watchdog, 2 thermal trip. -/
def beginHub (s : State) (h cause t : Nat) : State :=
  if !(hubUp s h) then s
  else
    let s := bumps s E.resetCounts 4 0 1
    let s := if s.con.svcHub = h then { closeService s with con.svcHub := 1 - h } else s
    let s := if s.upd.writer = h && hubLinkUp s then handOver s (1 - h) else s
    let s := dropHubParts s h
    let s := updHub s h (fun d => { freshHub d with
      restarting := true, restarted := t, cause := cause, time := d.time, voter := { inService := false } })
    let s := linkSession (linkSession s (2 * h) false) (2 * h + 1) false
    if s.cyc.running && !((getHub s (1 - h)).voter.inService && hubUp s (1 - h)) then moduleLost s 1 else s

/-- HUB_WATCHDOG (R483): watchdogs of both hubs within 50 ms of each other reset the module. -/
def execHubWatchdog (hub : Fin 2) (t : Nat) (s : State) : Out :=
  .next (
    let h := hub.val
    let both := match (getHub s (1 - h)).watchdogAt with
      | some u => (getHub s (1 - h)).restarting && t ≤ u + 50000000
      | none => false
    if both then resetDies s 3 else updHub (beginHub s h 1 t) h (fun d => { d with watchdogAt := some t }))

/-- The session state, counters and stores that a restarted hub takes from the other one (R495), with the clean-stop check of its
own S3 (17 R425). -/
def takeFromPeer (s : State) (h : Nat) : State :=
  let o := getHub s (1 - h)
  let me := getHub s h
  let s := if me.cleanStop then s
    else emitH s h s.cyc.tk (srcHub h) 0x5009 2 (u32 me.opSeconds)
  let s := updHub s h (fun d => { d with opSeconds := o.opSeconds, powerCycles := o.powerCycles, cleanStop := false, ready := true })
  { s with con.sessions := s.con.sessions.map (fun p =>
      (p.1, { p.2 with wins := vupd p.2.wins h (fun _ => vget p.2.wins (1 - h) {}) })) }

/-- HUB_RESTART (R495): the hub restarts where it was in operation or treated as failed (R485), and runs S1 to S3 for itself with what it takes from the other
hub over the link between them (01 R12). -/
def execHubRestart (hub : Fin 2) (cause t : Nat) (s : State) : Out :=
  .next (
    let h := hub.val
    let s := if (getHub s h).failed then
        updHub s h (fun d => { freshHub d with
          restarting := true, restarted := t, cause := cause, time := d.time, voter := { inService := false } })
      else beginHub s h cause t
    if (getHub s h).restarting && !(getHub s h).ready && hubUp s (1 - h) && hubLinkUp s then takeFromPeer s h else s)

/-- HUB_REJOIN (R496): at a boundary after its voter tests pass. The outage runs from its restart to that boundary. -/
def execHubRejoin (hub : Fin 2) (s : State) : Out :=
  .next (
    let h := hub.val
    let d := getHub s h
    if d.restarting && d.ready && hubUp s (1 - h) && s.cyc.running then
      let tk := s.cyc.tk
      let s := updHub s h (fun d => { d with restarting := false, ready := false, voter := {}, time := tk, watchdogAt := none })
      let s := setNode (updPlane s h (fun p => { p with listenSince := some s.cyc.tk })) h 1
      let s := updHub s h (fun d => { d with timeState := 2 })
      let ifs := (openInterfaces s).br.ifs
      let s := { s with br.ifs := s.br.ifs.mapIdx (fun i x => if i % 2 = h && s.st.ports then vget ifs i x else x) }
      let s := emitH s h tk (srcHub h) 0x1005 2 (u8 d.cause ++ u32 ((tk - d.restarted) / 1000))
      refreshYards (exchangeJournals (if h = 0 && hubLinkUp s then handOver s 0 else s) tk) tk
    else s)

/-- HUB_ALONE_TIMEOUT (R485): a hub that hears nothing of the other within the first 50 ms of S1 runs the module start alone. -/
def execHubAloneTimeout (hub : Fin 2) (_t : Nat) (s : State) : Out :=
  .next (
    let h := hub.val
    if (getHub s h).failed then s
    else if s.st.phase = 1 then
      if (getHub s (1 - h)).failed then s
      else
        let s := updHub s (1 - h) (fun d => { d with failed := true, voter.inService := false })
        let s := { handOver s h with con.svcHub := h }
        if s.st.recovery then s else bumps { s with st.cause := 4 } E.resetCounts 2 0 1
    else if (getHub s h).restarting && !(hubUp s (1 - h)) then
      let s := updHub (resetDies s 4) (1 - h) (fun d => { d with failed := true, voter.inService := false })
      { handOver s h with con.svcHub := h }
    else s)

/-! ## Thermal trips (08 R219) and command resets (01 R16) -/

/-- THERMAL_TRIP (08 R219): a die at 125 C is reset by hardware: dies 0 to 2 LA, LB, LC; 3, 4 HA, HB; 5, 6 FX, FY. -/
def execThermalTrip (die : Fin 7) (t : Nat) (s : State) : Out :=
  .next (
    let d := die.val
    if d < 3 then tripLane s d else if d < 5 then beginHub s (d - 3) 2 t else loseField s (d - 5) t)

/-- Is a command reset accepted (01 Table 01-3): from both hubs together, or from the surviving hub while the other is failed? -/
def resetAccepted (s : State) (fromHa fromHb : Bool) : Bool :=
  (fromHa && fromHb && hubUp s 0 && hubUp s 1) || (fromHa && hubUp s 0 && !(hubUp s 1)) || (fromHb && hubUp s 1 && !(hubUp s 0))

/-- A record of a die itself whose code the rule does not state. -/
def emitDie (s : State) (d t : Nat) : State :=
  if d < 3 then emitOpen s 0 t (srcLane d)
  else if d < 5 then emitOpen s (1 + (d - 3)) t (srcHub (d - 3))
  else emitOpen s (3 + (d - 5)) t (srcField (d - 5))

/-- DIE_RESET_COMMAND (01 R16): hubs have no command reset; a command from one hub while both are healthy is refused by the target and
recorded. The commanded reset of a lane in the set is a lane fault of cause 7, as its own reset is (log 136). -/
def execDieResetCommand (die : Fin 7) (fromHa fromHb : Bool) (t : Nat) (s : State) : Out :=
  .next (
    let d := die.val
    if resetAccepted s fromHa fromHb && d ≠ 3 && d ≠ 4 then
      if d < 3 then
        if inSet s d then tripLane s d else laneRestarts s d
      else restartField s (d - 5) 3 t
    else if (fromHa != fromHb) && hubUp s 0 && hubUp s 1 then emitDie s d t
    else s)

end Sys2Proof.Machine
end

