-- ==== Sys2Proof/Machine/FpOps.lean ====
section
/-!
DEFINITION. Binary64 instructions (03 Table 03-8, R70 to R74).
-/

namespace Sys2Proof.Machine

/-- A binary64 instruction: the flags are ORed into the status word; a raised flag whose trap is enabled raises FPT after
that, with rd unchanged (R72). -/
def fpOp (core : CoreIx) (rd : Reg) (lat : Nat) (evs : List (Nat × Nat)) (f : Exec → Word × Nat) (s : State) : State :=
  runInsn core 1 (fun _ st x =>
    let r := f x
    let x1 := { x with sw := swFlags x.sw r.2 }
    let evs := if r.2 = 0 then evs else (0x0A, 1) :: evs
    if swTraps x.sw r.2 ≠ 0 then .trap x1 x x.pc 5 (swTraps x.sw r.2) 0 evs
    else retireX st (rset x1 rd r.1) ((7, 1) :: evs) lat) s

/-- A comparison result as a word. -/
def fpBool (r : Bool × Nat) : Word × Nat := (if r.1 then 1 else 0, r.2)

/-- FADD (R70). -/
def execFadd (core : CoreIx) (rd ra rb : Reg) (s : State) : Out :=
  .next (fpOp core rd 4 [] (fun x => fpAdd (rget x ra) (rget x rb)) s)

/-- FSUB (R70). -/
def execFsub (core : CoreIx) (rd ra rb : Reg) (s : State) : Out :=
  .next (fpOp core rd 4 [] (fun x => fpSub (rget x ra) (rget x rb)) s)

/-- FMUL (R70). -/
def execFmul (core : CoreIx) (rd ra rb : Reg) (s : State) : Out :=
  .next (fpOp core rd 4 [] (fun x => fpMul (rget x ra) (rget x rb)) s)

/-- FDIV (R70). -/
def execFdiv (core : CoreIx) (rd ra rb : Reg) (s : State) : Out :=
  .next (fpOp core rd 22 [(8, 1)] (fun x => fpDiv (rget x ra) (rget x rb)) s)

/-- FMADD (R70). -/
def execFmadd (core : CoreIx) (rd ra rb : Reg) (s : State) : Out :=
  .next (fpOp core rd 5 [] (fun x => fpFma (rget x ra) (rget x rb) (rget x rd)) s)

/-- FMSUB (R70). -/
def execFmsub (core : CoreIx) (rd ra rb : Reg) (s : State) : Out :=
  .next (fpOp core rd 5 [] (fun x => fpFma (rget x ra) (rget x rb) (negW (rget x rd))) s)

/-- FMIN (R74). -/
def execFmin (core : CoreIx) (rd ra rb : Reg) (s : State) : Out :=
  .next (fpOp core rd 2 [] (fun x => fpMinMax false (rget x ra) (rget x rb)) s)

/-- FMAX (R74). -/
def execFmax (core : CoreIx) (rd ra rb : Reg) (s : State) : Out :=
  .next (fpOp core rd 2 [] (fun x => fpMinMax true (rget x ra) (rget x rb)) s)

/-- FEQ (R74). -/
def execFeq (core : CoreIx) (rd ra rb : Reg) (s : State) : Out :=
  .next (fpOp core rd 2 [] (fun x => fpBool (fpEq (rget x ra) (rget x rb))) s)

/-- FLT (R74). -/
def execFlt (core : CoreIx) (rd ra rb : Reg) (s : State) : Out :=
  .next (fpOp core rd 2 [] (fun x => fpBool (fpLt (rget x ra) (rget x rb))) s)

/-- FLE (R74). -/
def execFle (core : CoreIx) (rd ra rb : Reg) (s : State) : Out :=
  .next (fpOp core rd 2 [] (fun x => fpBool (fpLe (rget x ra) (rget x rb))) s)

/-- FCPYS (R71). -/
def execFcpys (core : CoreIx) (rd ra rb : Reg) (s : State) : Out :=
  .next (fpOp core rd 1 [] (fun x => ((rget x ra &&& 0x7FFFFFFFFFFFFFFF) ||| (rget x rb &&& 0x8000000000000000), 0)) s)

/-- FSQRT (R70). -/
def execFsqrt (core : CoreIx) (rd ra : Reg) (s : State) : Out :=
  .next (fpOp core rd 26 [(8, 1)] (fun x => fpSqrt (rget x ra)) s)

/-- FNEG (R71). -/
def execFneg (core : CoreIx) (rd ra : Reg) (s : State) : Out :=
  .next (fpOp core rd 1 [] (fun x => (negW (rget x ra), 0)) s)

/-- FABS (R71). -/
def execFabs (core : CoreIx) (rd ra : Reg) (s : State) : Out :=
  .next (fpOp core rd 1 [] (fun x => (rget x ra &&& 0x7FFFFFFFFFFFFFFF, 0)) s)

/-- ITOF (R70). -/
def execItof (core : CoreIx) (rd ra : Reg) (s : State) : Out :=
  .next (fpOp core rd 4 [] (fun x => fpOfI (rget x ra)) s)

/-- UTOF (R70). -/
def execUtof (core : CoreIx) (rd ra : Reg) (s : State) : Out :=
  .next (fpOp core rd 4 [] (fun x => fpOfU (rget x ra)) s)

/-- FTOI (R73). -/
def execFtoi (core : CoreIx) (rd ra : Reg) (s : State) : Out :=
  .next (fpOp core rd 4 [] (fun x => fpToI (rget x ra)) s)

/-- FTOU (R73). -/
def execFtou (core : CoreIx) (rd ra : Reg) (s : State) : Out :=
  .next (fpOp core rd 4 [] (fun x => fpToU (rget x ra)) s)

/-- FINT (R73). -/
def execFint (core : CoreIx) (rd ra : Reg) (s : State) : Out :=
  .next (fpOp core rd 3 [] (fun x => fpRint true (rget x ra)) s)

/-- FTRUNC (R73). -/
def execFtrunc (core : CoreIx) (rd ra : Reg) (s : State) : Out :=
  .next (fpOp core rd 3 [] (fun x => fpRint false (rget x ra)) s)

end Sys2Proof.Machine
end

