-- ==== Sys2Proof/Machine/IntOps.lean ====
section
/-!
DEFINITION. The integer register and immediate instructions (03 Tables 03-5 and 03-6, R69).
-/

namespace Sys2Proof.Machine

/-- Register shifts use bits [5:0] only (R69). -/
def shAmt (w : Word) : Nat := w.toNat % 64

/-- 1 or 0. -/
def boolW (b : Bool) : Word := if b then 1 else 0

/-- The high 64 bits of a signed product. -/
def mulHigh (a b : Word) : Word := BitVec.ofInt 64 (a.toInt * b.toInt / 2 ^ 64)

/-- The high 64 bits of an unsigned product. -/
def mulHighU (a b : Word) : Word := BitVec.ofNat 64 (a.toNat * b.toNat / 2 ^ 64)

/-- Number of 1 bits among the lowest `n`. -/
def popLow (w : Word) : Nat → Nat
  | 0 => 0
  | n + 1 => popLow w n + (if w.getLsbD n then 1 else 0)

/-- Leading zeros among the lowest `n` bits. -/
def clzLow (w : Word) : Nat → Nat
  | 0 => 0
  | n + 1 => if w.getLsbD n then 0 else clzLow w n + 1

/-- Trailing zeros counted from bit `i` over `n` bits. -/
def ctzFrom (w : Word) : Nat → Nat → Nat
  | _, 0 => 0
  | i, n + 1 => if w.getLsbD i then 0 else ctzFrom w (i + 1) n + 1

def clz64 (w : Word) : Word := BitVec.ofNat 64 (clzLow w 64)
def ctz64 (w : Word) : Word := BitVec.ofNat 64 (ctzFrom w 0 64)
def popc64 (w : Word) : Word := BitVec.ofNat 64 (popLow w 64)

/-- The byte order reversed. -/
def bswap64 (w : Word) : Word := BitVec.ofNat 64 (leNat (leBytes 8 w.toNat).reverse)

/-- A divide: DIV with rb = 0, rd unchanged (R69). -/
def divOp (core : CoreIx) (rd ra rb : Reg) (f : Word → Word → Word) (s : State) : State :=
  runInsn core 1 (fun _ st x =>
    if rget x rb = 0 then trapAt x 4 0 0 [(5, 1)]
    else retireX st (rset x rd (f (rget x ra) (rget x rb))) [(5, 1)] 36) s

/-- ADD (R58). -/
def execAdd (core : CoreIx) (rd ra rb : Reg) (s : State) : Out :=
  .next (intOp core rd 1 [] (fun x => rget x ra + rget x rb) s)

/-- SUB (R58). -/
def execSub (core : CoreIx) (rd ra rb : Reg) (s : State) : Out :=
  .next (intOp core rd 1 [] (fun x => rget x ra - rget x rb) s)

/-- AND (R58). -/
def execAnd (core : CoreIx) (rd ra rb : Reg) (s : State) : Out :=
  .next (intOp core rd 1 [] (fun x => rget x ra &&& rget x rb) s)

/-- OR (R58). -/
def execOr (core : CoreIx) (rd ra rb : Reg) (s : State) : Out :=
  .next (intOp core rd 1 [] (fun x => rget x ra ||| rget x rb) s)

/-- XOR (R58). -/
def execXor (core : CoreIx) (rd ra rb : Reg) (s : State) : Out :=
  .next (intOp core rd 1 [] (fun x => rget x ra ^^^ rget x rb) s)

/-- SLL (R58). -/
def execSll (core : CoreIx) (rd ra rb : Reg) (s : State) : Out :=
  .next (intOp core rd 1 [] (fun x => rget x ra <<< shAmt (rget x rb)) s)

/-- SRL (R58). -/
def execSrl (core : CoreIx) (rd ra rb : Reg) (s : State) : Out :=
  .next (intOp core rd 1 [] (fun x => rget x ra >>> shAmt (rget x rb)) s)

/-- SRA (R58). -/
def execSra (core : CoreIx) (rd ra rb : Reg) (s : State) : Out :=
  .next (intOp core rd 1 [] (fun x => (rget x ra).sshiftRight (shAmt (rget x rb))) s)

/-- SLT (R58). -/
def execSlt (core : CoreIx) (rd ra rb : Reg) (s : State) : Out :=
  .next (intOp core rd 1 [] (fun x => boolW ((rget x ra).slt (rget x rb))) s)

/-- SLTU (R58). -/
def execSltu (core : CoreIx) (rd ra rb : Reg) (s : State) : Out :=
  .next (intOp core rd 1 [] (fun x => boolW ((rget x ra).ult (rget x rb))) s)

/-- MUL (R58). -/
def execMul (core : CoreIx) (rd ra rb : Reg) (s : State) : Out :=
  .next (intOp core rd 3 [(4, 1)] (fun x => rget x ra * rget x rb) s)

/-- MULH (R58). -/
def execMulh (core : CoreIx) (rd ra rb : Reg) (s : State) : Out :=
  .next (intOp core rd 3 [(4, 1)] (fun x => mulHigh (rget x ra) (rget x rb)) s)

/-- MULHU (R58). -/
def execMulhu (core : CoreIx) (rd ra rb : Reg) (s : State) : Out :=
  .next (intOp core rd 3 [(4, 1)] (fun x => mulHighU (rget x ra) (rget x rb)) s)

/-- DIV (R58, R69): the most negative value by -1 wraps. -/
def execDiv (core : CoreIx) (rd ra rb : Reg) (s : State) : Out :=
  .next (divOp core rd ra rb (fun a b => BitVec.ofInt 64 (Int.tdiv a.toInt b.toInt)) s)

/-- DIVU (R58, R69): the most negative value by -1 wraps. -/
def execDivu (core : CoreIx) (rd ra rb : Reg) (s : State) : Out :=
  .next (divOp core rd ra rb (fun a b => BitVec.ofNat 64 (a.toNat / b.toNat)) s)

/-- REM (R58, R69): the most negative value by -1 wraps. -/
def execRem (core : CoreIx) (rd ra rb : Reg) (s : State) : Out :=
  .next (divOp core rd ra rb (fun a b => BitVec.ofInt 64 (Int.tmod a.toInt b.toInt)) s)

/-- REMU (R58, R69): the most negative value by -1 wraps. -/
def execRemu (core : CoreIx) (rd ra rb : Reg) (s : State) : Out :=
  .next (divOp core rd ra rb (fun a b => BitVec.ofNat 64 (a.toNat % b.toNat)) s)

/-- MIN (R58). -/
def execMin (core : CoreIx) (rd ra rb : Reg) (s : State) : Out :=
  .next (intOp core rd 1 [] (fun x => if (rget x ra).slt (rget x rb) then rget x ra else rget x rb) s)

/-- MAX (R58). -/
def execMax (core : CoreIx) (rd ra rb : Reg) (s : State) : Out :=
  .next (intOp core rd 1 [] (fun x => if (rget x ra).slt (rget x rb) then rget x rb else rget x ra) s)

/-- MINU (R58). -/
def execMinu (core : CoreIx) (rd ra rb : Reg) (s : State) : Out :=
  .next (intOp core rd 1 [] (fun x => if (rget x ra).ult (rget x rb) then rget x ra else rget x rb) s)

/-- MAXU (R58). -/
def execMaxu (core : CoreIx) (rd ra rb : Reg) (s : State) : Out :=
  .next (intOp core rd 1 [] (fun x => if (rget x ra).ult (rget x rb) then rget x rb else rget x ra) s)

/-- CLZ (R58). -/
def execClz (core : CoreIx) (rd ra : Reg) (s : State) : Out :=
  .next (intOp core rd 1 [] (fun x => clz64 (rget x ra)) s)

/-- CTZ (R58). -/
def execCtz (core : CoreIx) (rd ra : Reg) (s : State) : Out :=
  .next (intOp core rd 1 [] (fun x => ctz64 (rget x ra)) s)

/-- POPC (R58). -/
def execPopc (core : CoreIx) (rd ra : Reg) (s : State) : Out :=
  .next (intOp core rd 1 [] (fun x => popc64 (rget x ra)) s)

/-- BSWAP (R58). -/
def execBswap (core : CoreIx) (rd ra : Reg) (s : State) : Out :=
  .next (intOp core rd 1 [] (fun x => bswap64 (rget x ra)) s)

/-- MOVNZ (R58): rd unchanged where the condition fails. -/
def execMovnz (core : CoreIx) (rd ra rb : Reg) (s : State) : Out :=
  .next (intOp core rd 1 [] (fun x => if rget x rb ≠ 0 then rget x ra else rget x rd) s)

/-- MOVZ (R58): rd unchanged where the condition fails. -/
def execMovz (core : CoreIx) (rd ra rb : Reg) (s : State) : Out :=
  .next (intOp core rd 1 [] (fun x => if rget x rb = 0 then rget x ra else rget x rd) s)

/-- ADDI (R58). -/
def execAddi (core : CoreIx) (rd ra : Reg) (imm : BitVec 16) (s : State) : Out :=
  .next (intOp core rd 1 [] (fun x => rget x ra + sext16 imm) s)

/-- ANDI (R58). -/
def execAndi (core : CoreIx) (rd ra : Reg) (imm : BitVec 16) (s : State) : Out :=
  .next (intOp core rd 1 [] (fun x => rget x ra &&& zext16 imm) s)

/-- ORI (R58). -/
def execOri (core : CoreIx) (rd ra : Reg) (imm : BitVec 16) (s : State) : Out :=
  .next (intOp core rd 1 [] (fun x => rget x ra ||| zext16 imm) s)

/-- XORI (R58). -/
def execXori (core : CoreIx) (rd ra : Reg) (imm : BitVec 16) (s : State) : Out :=
  .next (intOp core rd 1 [] (fun x => rget x ra ^^^ zext16 imm) s)

/-- SLTI (R58). -/
def execSlti (core : CoreIx) (rd ra : Reg) (imm : BitVec 16) (s : State) : Out :=
  .next (intOp core rd 1 [] (fun x => boolW ((rget x ra).slt (sext16 imm))) s)

/-- SLTIU (R58). -/
def execSltiu (core : CoreIx) (rd ra : Reg) (imm : BitVec 16) (s : State) : Out :=
  .next (intOp core rd 1 [] (fun x => boolW ((rget x ra).ult (sext16 imm))) s)

/-- SLLI (R57, R58). -/
def execSlli (core : CoreIx) (rd ra : Reg) (sh : BitVec 6) (s : State) : Out :=
  .next (intOp core rd 1 [] (fun x => rget x ra <<< sh.toNat) s)

/-- SRLI (R57, R58). -/
def execSrli (core : CoreIx) (rd ra : Reg) (sh : BitVec 6) (s : State) : Out :=
  .next (intOp core rd 1 [] (fun x => rget x ra >>> sh.toNat) s)

/-- SRAI (R57, R58). -/
def execSrai (core : CoreIx) (rd ra : Reg) (sh : BitVec 6) (s : State) : Out :=
  .next (intOp core rd 1 [] (fun x => (rget x ra).sshiftRight sh.toNat) s)

/-- LUI (R58): sext(imm16 x 2^16 as 32 bits). -/
def execLui (core : CoreIx) (rd : Reg) (imm : BitVec 16) (s : State) : Out :=
  .next (intOp core rd 1 [] (fun _ => (imm ++ (0 : BitVec 16)).signExtend 64) s)

/-- SHORI (R58). -/
def execShori (core : CoreIx) (rd ra : Reg) (imm : BitVec 16) (s : State) : Out :=
  .next (intOp core rd 1 [] (fun x => (rget x ra <<< 16) ||| zext16 imm) s)

end Sys2Proof.Machine
end

