-- ==== Sys2Proof/Machine/Links.lean ====
section
/-!
DEFINITION. Sequence numbers, discards, failure and restoration of the internal links (01 R12, R13, 06 Table 06-2). The receiving
ends: 0 to 5 at lane l from hub h (2l+h); 6 to 11 at hub h from lane l (6+3h+l); 12 to 17 at lane l from its neighbour j
(12+2l+j); 18 and 19 at HA and HB from the other hub; 20 to 23 at hub h from field die f (20+2h+f); 24 to 27 at field die f from
hub h (24+2f+h); 28 at FX and 29 at FY from the other field die; 30 to 33 twin links T0 to T3.
-/

namespace Sys2Proof.Machine

def getEnd (s : State) (e : Nat) : ILink := vget s.ilinks e {}
def updEnd (s : State) (e : Nat) (f : ILink → ILink) : State := { s with ilinks := vupd s.ilinks e f }

/-- The receiving die of an end: 0 to 2 a lane, 3 and 4 a hub, 5 and 6 a field die. -/
def endDie (e : Nat) : Nat :=
  if e < 6 then e / 2 else if e < 12 then 3 + (e - 6) / 3 else if e < 18 then (e - 12) / 2
  else if e < 20 then 3 + (e - 18) else if e < 24 then 3 + (e - 20) / 2 else if e < 28 then 5 + (e - 24) / 2
  else if e < 30 then 5 + (e - 28) else 3 + (e - 30) / 2

/-- A record of the die that receives on an end (01 R13). -/
def emitEnd (s : State) (e t : Nat) : State := emitDie s (endDie e) t

/-- Does the receiving die operate? A hub in HUB_RESTART works the link to the other hub. -/
def endUp (s : State) (e : Nat) : Bool :=
  let d := endDie e
  if d < 3 then !(getLane s d).resetting else if e = 18 || e = 19 then !(getHub s (d - 3)).failed
  else if d < 5 then hubUp s (d - 3) else !(getDie s (d - 5)).failed

/-- The silence limit of an end, in ns (R13; 12 R313 for a twin link). -/
def silenceLimit (e : Nat) : Nat := if e < 20 then 2000 else if e < 30 then 200000 else 3000

/-- The block counter that a discard adds to (19 Table 19-4). -/
def countDiscard (s : State) (e : Nat) (crc : Bool) : State :=
  let d := endDie e
  if d = 3 || d = 4 then blockCount s (0x5381 + (d - 3)) (if crc then 7 else 8)
  else if 24 ≤ e && e < 28 && crc then blockCount s (0x5383 + (d - 5)) 1
  else if (e = 28 || e = 29) && crc then blockCount s (0x5383 + (d - 5)) 4
  else s

/-- INTERNAL_LINK_TRANSFER (R13): a transfer that fails the CRC or repeats a sequence number is discarded and counted. The width of
the number is not given: it is compared with every number that the end has accepted (log 141). -/
def execInternalLinkTransfer (link : Fin 34) (seq : Nat) (crcOk : Bool) (t : Nat) (s : State) : Out :=
  .next (
    let e := link.val
    if !(endUp s e) then s
    else if crcOk && !((getEnd s e).seen.contains seq) then
      updEnd s e (fun l => { l with lastSeq := seq, seen := seq :: l.seen, okNow := true, lastHeard := t })
    else countDiscard (updEnd s e (fun l => { l with discards := l.discards + 1, badNow := true, lastHeard := t })) e (!crcOk))

/-! ## What a failed link does -/

/-- The lane and hub of a lane-to-hub end. -/
def laneHub (e : Nat) : Nat × Nat := if e < 6 then (e / 2, e % 2) else ((e - 6) % 3, (e - 6) / 3)

/-- The other lane of a cross-lane end. -/
def crossPeer (e : Nat) : Nat := ((e - 12) / 2 + 1 + (e - 12) % 2) % 3

/-- The end of lane `l` on its link with lane `m`. -/
def crossEnd (l m : Nat) : Nat := 12 + 2 * l + (m + 2 - l) % 3

/-- Is the cross-lane link between two lanes declared failed at either end? -/
def crossLaneDown (s : State) (l m : Nat) : Bool := (getEnd s (crossEnd l m)).failed || (getEnd s (crossEnd m l)).failed

/-- Are both cross-lane links of a lane declared failed? -/
def bothCrossDown (s : State) (l : Nat) : Bool := crossLaneDown s l ((l + 1) % 3) && crossLaneDown s l ((l + 2) % 3)

/-- Does a failed link fault the lane: in the set, or on its way back into it (06 R157)? -/
def linkFaults (s : State) (l : Nat) : Bool :=
  match (getLane s l).state with
  | .inSet | .shadow | .restabling => true
  | _ => false

/-- A lane fault of cause 8 where both cross-lane links of the lane are failed. -/
def judgeCross (s : State) (l : Nat) : State :=
  if linkFaults s l && bothCrossDown s l then laneFault s l 8 (srcLane l) else s

/-- The receiving die declares the link failed and records an event (R13). A lane-to-hub link to a hub in service, or both
cross-lane links, are a lane fault (06 Table 06-2), and a lane's report of a silent hub hands over what it wrote (01 R18); the field cross link faults every instance (15 R380); a twin link's session
ends. -/
def failEnd (s : State) (e t : Nat) : State :=
  let s := emitEnd (updEnd s e (fun l => { l with failed := true })) e t
  if e < 12 then
    let (l, h) := laneHub e
    let s := if e < 6 && s.upd.writer = h && !(hubUp s h) && hubUp s (1 - h) then handOver s (1 - h) else s
    if hubUp s h && linkFaults s l then laneFault s l 8 (if e < 6 then srcLane l else srcHub h) else s
  else if e < 18 then judgeCross (judgeCross s ((e - 12) / 2)) (crossPeer e)
  else if e = 28 || e = 29 then faultLink (updDie s (e - 28) (fun d => { d with crossFailed := true })) t
  else if 30 ≤ e then linkSession s (e - 30) false
  else s

/-- INTERNAL_LINK_DISCARD_LIMIT (R13): eight consecutive crossings with a discarded transfer. -/
def execInternalLinkDiscardLimit (link : Fin 34) (t : Nat) (s : State) : Out :=
  .next (
    let l := getEnd s link.val
    if endUp s link.val && !l.failed && 8 ≤ l.badRun + b2n l.badNow then failEnd s link.val t else s)

/-- INTERNAL_LINK_SILENCE (R13): silence longer than the link's limit. -/
def execInternalLinkSilence (link : Fin 34) (t : Nat) (s : State) : Out :=
  .next (
    let l := getEnd s link.val
    if endUp s link.val && !l.failed && l.lastHeard + silenceLimit link.val < t then failEnd s link.val t else s)

/-- A hub in HUB_RESTART takes what it needs of the other hub once the link between them is up (20 R495). -/
def takeWaiting (s : State) (h : Nat) : State :=
  if (getHub s h).restarting && !(getHub s h).ready && hubUp s (1 - h) && hubLinkUp s then takeFromPeer s h else s

/-- INTERNAL_LINK_RESTORED (R13): a retry of a failed link ran one crossing without error. Restored, the hub-to-hub link brings the
journal exchange (17 R429) and hands back what HA writes (01 R18), a field die's link the events that the die kept (14 R369), a twin
link HELLO (12 R314). -/
def execInternalLinkRestored (link : Fin 34) (t : Nat) (s : State) : Out :=
  .next (
    let e := link.val
    let l := getEnd s e
    if endUp s e && l.failed && l.clean && !l.badNow then
      let s := updEnd s e (fun l => { l with failed := false, lastHeard := t })
      if e = 18 || e = 19 then
        let s := takeWaiting (takeWaiting s 0) 1
        exchangeJournals (if hubLinkUp s then handOver s (dutyHub s) else s) t
      else if 20 ≤ e && e < 24 then flushKept s ((e - 20) % 2)
      else if e = 28 || e = 29 then updDie s (e - 28) (fun d => { d with crossFailed := false })
      else if 30 ≤ e then twinHelloSend s (e - 30) t
      else s
    else s)

end Sys2Proof.Machine
end

