-- ==== Sys2Proof/Machine/MemOps.lean ====
section
/-!
DEFINITION. Loads and stores (03 Table 03-7, R66, R67; DICTWIN under 02 R48 to R50).
-/

namespace Sys2Proof.Machine

/-- Latency range of a load at a memory level (R60, 03 Table 03-10). -/
def loadLat (lvl : Nat) : Nat × Nat := if lvl = 0 then (2, 0) else if lvl = 1 then (12, 0) else (90, 630)

/-- A load of `n` bytes (R66): `ext` extends the value to 64 bits. -/
def loadOp (core : CoreIx) (rt ra : Reg) (disp : BitVec 16) (n : Nat) (ext : Nat → Word) (s : State) : State :=
  runInsn core 1 (fun s st x =>
    let ea := effAddr x ra disp
    match checkAccess s st ea n false with
    | .bad c d fa => trapAt x c d fa []
    | .mem a =>
      let lvl := levelOf st a
      .retire { st with exec := { rset x rt (ext (mread x.mem a n)) with pc := x.pc + 4 } }
        [(0x10 + lvl, 1)] (loadLat lvl) (if lvl = 2 then 1 else 0) none
    | .dict slot off =>
      .retire { st with exec := { rset x rt (ext (bits (slotValue st slot) (8 * off) (8 * n))) with pc := x.pc + 4 } }
        [(0x11, 1), (0x17, 1)] (12, 0) 0 none) s

/-- A store of `n` bytes (R66). A DICTWIN store is kept for the boundary (R50). -/
def storeOp (core : CoreIx) (rt ra : Reg) (disp : BitVec 16) (n : Nat) (s : State) : State :=
  runInsn core 1 (fun s st x =>
    let ea := effAddr x ra disp
    match checkAccess s st ea n true with
    | .bad c d fa => trapAt x c d fa []
    | .mem a =>
      retireX st { x with mem := mwrite x.mem a n (rget x rt).toNat } [(0x14 + levelOf st a, 1)] 1
    | .dict slot _ =>
      let first := match slotItem s st slot with
        | some (m, _) => m.slot
        | none => slot
      .retire { st with
        dwWrites := nset st.dwWrites slot ((rget x rt).toNat % 256 ^ n)
        dwOrder := if first ∈ st.dwOrder then st.dwOrder else st.dwOrder ++ [first]
        exec := { x with pc := x.pc + 4 } } [(0x15, 1), (0x17, 1)] (1, 0) 0 none) s

/-- Sign extension of an `n`-byte value. -/
def sextN (n x : Nat) : Word := BitVec.ofInt 64 (toInt n x)

/-- Zero extension. -/
def zextN (x : Nat) : Word := BitVec.ofNat 64 x

/-- LD_B (R58, R66). -/
def execLdB (core : CoreIx) (rt ra : Reg) (disp : BitVec 16) (s : State) : Out :=
  .next (loadOp core rt ra disp 1 (sextN 1) s)

/-- LD_BU (R58, R66). -/
def execLdBu (core : CoreIx) (rt ra : Reg) (disp : BitVec 16) (s : State) : Out :=
  .next (loadOp core rt ra disp 1 (zextN) s)

/-- LD_H (R58, R66). -/
def execLdH (core : CoreIx) (rt ra : Reg) (disp : BitVec 16) (s : State) : Out :=
  .next (loadOp core rt ra disp 2 (sextN 2) s)

/-- LD_HU (R58, R66). -/
def execLdHu (core : CoreIx) (rt ra : Reg) (disp : BitVec 16) (s : State) : Out :=
  .next (loadOp core rt ra disp 2 (zextN) s)

/-- LD_W (R58, R66). -/
def execLdW (core : CoreIx) (rt ra : Reg) (disp : BitVec 16) (s : State) : Out :=
  .next (loadOp core rt ra disp 4 (sextN 4) s)

/-- LD_WU (R58, R66). -/
def execLdWu (core : CoreIx) (rt ra : Reg) (disp : BitVec 16) (s : State) : Out :=
  .next (loadOp core rt ra disp 4 (zextN) s)

/-- LD_D (R58, R66). -/
def execLdD (core : CoreIx) (rt ra : Reg) (disp : BitVec 16) (s : State) : Out :=
  .next (loadOp core rt ra disp 8 (zextN) s)

/-- ST_B (R58, R66). -/
def execStB (core : CoreIx) (rt ra : Reg) (disp : BitVec 16) (s : State) : Out :=
  .next (storeOp core rt ra disp 1 s)

/-- ST_H (R58, R66). -/
def execStH (core : CoreIx) (rt ra : Reg) (disp : BitVec 16) (s : State) : Out :=
  .next (storeOp core rt ra disp 2 s)

/-- ST_W (R58, R66). -/
def execStW (core : CoreIx) (rt ra : Reg) (disp : BitVec 16) (s : State) : Out :=
  .next (storeOp core rt ra disp 4 s)

/-- ST_D (R58, R66). -/
def execStD (core : CoreIx) (rt ra : Reg) (disp : BitVec 16) (s : State) : Out :=
  .next (storeOp core rt ra disp 8 s)

end Sys2Proof.Machine
end

