-- ==== Sys2Proof/Machine/Supply.lean ====
section
/-!
DEFINITION. Supply good, the power-fail warning, hold-up and its measurement (22 R517 to R521).
-/

namespace Sys2Proof.Machine

/-- SUPPLY_GOOD (R517): the input has stayed above the supply-good threshold for 50 ms: a start of kind POWER_ON begins. -/
def execSupplyGood (_t : Nat) (s : State) : Out :=
  .next (
    if s.supply.supplyGood then s
    else
      let s := resetDies s 1
      { s with
        supply.supplyGood := true, supply.holdup := 0, supply.powerFail := none
        st.pressAt := none, st.pressIn := false, st.ignorePress := false, st.stuckDone := false })

/-- HOLDUP_READY (R519): the supply has stayed above the threshold for 200 ms. -/
def execHoldupReady (_t : Nat) (s : State) : Out :=
  .next (if s.supply.supplyGood && s.supply.powerFail.isNone && s.supply.holdup = 0 then { s with supply.holdup := 1 } else s)

/-- Each hub flushes its buffer and writes its clean-stop mark; the counters of 17 R421 are stored (17 R425). -/
def flushMark (s : State) : State :=
  let s := storeSeconds (flushAll s)
  { s with hubs := s.hubs.map (fun h => if h.failed || h.restarting then h else { h with cleanStop := true }) }

/-- POWER_FAIL_WARNING (R518): event 0x1010; RELEASE (12 R321); freeze, migration and retain commits end; buffers are flushed (17
R425). A further warning repeats the actions (R520). -/
def execPowerFailWarning (vin t : Nat) (s : State) : Out :=
  .next (
    if !s.supply.supplyGood then s
    else
      let d := dutyHub s
      let s := emitH s d t (srcHub 0) 0x1010 1 (u32 vin ++ u8 s.supply.holdup)
      let s := bump s E.pfWarnings
      let s := if gv s E.twinEnable = 1 then releaseLease s t else s
      let s := endFreeze s t
      let since := s.supply.powerFail.getD t
      flushMark { s with supply.powerFail := some since, supply.holdup := 2 })

/-- HOLDUP_EXHAUSTED (R519): the store has fallen to 40 V: every lane and hub die is held in reset until the supply is good. -/
def execHoldupExhausted (_t : Nat) (s : State) : Out :=
  .next (
    if s.supply.powerFail.isNone then s
    else
      let s := restartLogic s
      { s with supply.supplyGood := false, supply.powerFail := none, supply.holdup := 0 })

/-- POWER_RESTORED (R520): the input has stayed above the threshold for 100 ms: power-fail ends, with event 0x1011. -/
def execPowerRestored (t : Nat) (s : State) : Out :=
  .next (
    match s.supply.powerFail with
    | none => s
    | some since =>
      let s := { s with
        supply.powerFail := none, supply.holdup := 0
        hubs := s.hubs.map (fun h => if h.failed || h.restarting then h else { h with cleanStop := false }) }
      let d := dutyHub s
      emitH s d t (srcHub 0) 0x1011 1 (u32 ((t - since) / 1000)))

/-- HOLDUP_MEASURE (R521): the hold-up found, in 0.1 ms; less than 10 ms records event 0x1012. The store's voltage in that event
is a free value (log 6). -/
def execHoldupMeasure (ms10 t : Nat) (s : State) : Out :=
  .next (
    if s.cyc.running && s.supply.powerFail.isNone && s.supply.holdup = 1
        && (!s.supply.measured || s.supply.lastMeasure + 86400 ≤ s.recd.seconds) then
      let s := { s with supply.holdupMs := ms10, supply.measured := true, supply.lastMeasure := s.recd.seconds }
      if ms10 < 100 then
        let v := freeVal s
        let d := dutyHub s
        emitH (freeNext s) d t (srcHub 0) 0x1012 2 (u16 ms10 ++ u16 v)
      else s
    else s)

end Sys2Proof.Machine
end

