-- ==== Sys2Proof/Machine/Startup.lean ====
section
/-!
DEFINITION. The module start (20 R486 to R490, R493) with the boot banks (18 R455 to R457), the settings store (18 R459, R461, R462)
and the stored stall set (R488); and the RECOVER button (20 R491, R492).
-/

namespace Sys2Proof.Machine

/-! ## S2: the boot bank (18 R455 to R457) -/

/-- Events that arise before event 0x1001: code, severity, data (R487). -/
abbrev Early := List (Nat × Nat × List Byte)

/-- The bank that a package header gives (18 Table 18-2). -/
def bankOf (h : List Byte) (seq : Nat) : Bank :=
  { state := 2, trials := 0, version := fieldAt h 16 4, seq := seq, epoch := fieldAt h 40 2, format := fieldAt h 36 2
    oldest := fieldAt h 38 2
    gens := ((List.range 8).map (fun i => fieldAt h (8 + i) 1)).filter (· ≠ 0) }

/-- The armed package, if there is one. -/
def armedPkg (s : State) : Option (Nat × Package) := s.upd.loft.find? (fun p => p.2.state = 3)

/-- Event 0x5013. -/
def copyFails (n code block : Nat) : Nat × Nat × List Byte := (0x5013, 2, u32 n ++ u32 code ++ u32 block)

/-- The copy of an armed package into the inactive bank (18 R455), with what fails in it: a header or payload that does not verify
disarms it; a block that fails its read-back twice leaves the bank FAILED. The abort code of a payload digest that does not hold
is not stated where the report names none: a free value (log 6). -/
def copyArmed (s : State) (rep : StartReport) : State × Early :=
  match armedPkg s with
  | none => (s, [])
  | some (n, p) =>
    let act := vget s.upd.banks s.upd.active {}
    let digest := Config.sha384 (pkgPayload s n) = beNat ((p.header.drop 128).take 48)
    if !(headerVerifies s p.header) then (disarmAll s, [copyFails n (abort abtIntegrity 3) 0])
    else
      match rep.copy with
      | some (code, block, false) => (disarmAll s, [copyFails n code block])
      | some (code, block, true) =>
        ({ s with upd.banks := vupd s.upd.banks (1 - s.upd.active) (fun b => { b with state := 4 }) }, [copyFails n code block])
      | none =>
        if digest then
          let s := disarmAll s
          ({ s with
              upd.banks := vupd s.upd.banks (1 - s.upd.active) (fun _ => bankOf p.header (act.seq + 1))
              upd.active := 1 - s.upd.active, upd.fallback := false }, [])
        else (disarmAll (freeNext s), [copyFails n (freeVal s) 0])

/-- A start from a TRIAL bank counts as a trial start, except in recovery; at the third the module starts from the other bank (18
R456). -/
def countTrial (s : State) : State × Early :=
  let a := s.upd.active
  let b := vget s.upd.banks a {}
  if b.state ≠ 2 || s.st.recovery then (s, [])
  else if b.trials + 1 < 3 then ({ s with upd.banks := vupd s.upd.banks a (fun b => { b with trials := b.trials + 1 }) }, [])
  else
    ({ s with upd.banks := vupd s.upd.banks a (fun b => { b with state := 4, trials := b.trials + 1 }), upd.active := 1 - a },
      [(0x5014, 2, u8 a ++ u32 b.version)])

/-- Phase S2: the armed package copied, a fallback taken (18 R457), trial starts counted. -/
def bankStage (s : State) (rep : StartReport) : State × Early :=
  let (s, e1) := copyArmed s rep
  let s := if s.upd.fallback then { s with upd.fallback := false, upd.active := 1 - s.upd.active } else s
  let (s, e2) := countTrial s
  (s, e1 ++ e2)

/-! ## S3: hub records and stores (R487) -/

/-- The highest timestamp of a valid record of either hub's journal (07 R188). -/
def newestStamp (s : State) : Option Nat :=
  let l := [0, 1].flatMap (fun h => if hubUp s h then
    ((getHub s h).journal.slots.filter (fun p => !p.2.poisoned)).map (fun p => p.2.rec_.stamp) else [])
  match l with
  | [] => none
  | x :: xs => some (xs.foldl max x)

/-- The train-time seed (07 R188), in ns. -/
def seedTime (s : State) : Nat :=
  match newestStamp s with
  | none => 1000000000
  | some t => t + 1000000000

/-- A hub without a clean-stop mark records event 0x5009; the mark is erased (17 R425). -/
def checkCleanStop (s : State) (h : Nat) : State :=
  if !(hubUp s h) then s
  else
    let d := getHub s h
    let s := if d.cleanStop then s else emitH s h s.cyc.tk (srcHub h) 0x5009 2 (u32 d.opSeconds)
    updHub s h (fun d => { d with cleanStop := false })

/-- Torn settings pages that a hub erases (18 R459). -/
def eraseTorn (s : State) (h n : Nat) : State :=
  if n = 0 || !(hubUp s h) then s
  else emitH (bumps s E.setTorn E.setTorn.sub 0 n) h s.cyc.tk (srcHub h) 0x5022 1 (u32 n)

/-- Phase S3, and the records of S1 to S3 after event 0x1001. -/
def hubStage (s : State) (rep : StartReport) (early : Early) : State :=
  let t := seedTime s
  let s := { s with
    cyc.tk := t, st.since := t
    hubs := s.hubs.map (fun h => { h with time := t }) }
  let d := dutyHub s
  let s := exchangeJournals s t
  let s := checkCleanStop (checkCleanStop s 0) 1
  let s := if rep.roots = 0 && rep.cas = 0 then s else emitH s d t (srcHub 0) 0x5018 2 (u8 rep.roots ++ u8 rep.cas)
  let s := eraseTorn (eraseTorn s 0 rep.torn.1) 1 rep.torn.2
  let s := early.foldl (fun s e => emitH s d t (srcHub 0) e.1 e.2.1 e.2.2) s
  let late := s.hubs.map (·.inflight)
  let b := vget s.upd.banks s.upd.active {}
  let s := { s with hubs := s.hubs.map (fun h => { h with inflight := [] }) }
  let s := emitH s d t (srcHub 0) 0x1001 1 (u8 s.st.cause ++ u32 s.recd.cycles ++ u8 s.upd.active ++ u32 b.version)
  { s with hubs := s.hubs.mapIdx (fun h x => { x with inflight := x.inflight ++ vget late h [] }) }

/-! ## S5 and S6: keys and injection tests (06 R158, R182, R183) -/

/-- A key of 128 bits as the XOR of a contribution of each hub in operation, drawn from its random generator: free values (log 6). -/
def drawKey (s : State) : Nat × State :=
  let a := if hubUp s 0 then freeVal s % 2 ^ 128 else 0
  let s := freeNext s
  let b := if hubUp s 1 then freeVal s % 2 ^ 128 else 0
  (a ^^^ b, freeNext s)

/-- The hubs draw K_in and K_ck and deliver them to every lane (R158). -/
def drawKeys (s : State) : State :=
  let (kIn, s) := drawKey s
  let (kCk, s) := drawKey s
  { s with agree.kIn := kIn, agree.kCk := kCk }

/-- One failed injection test: event 0x2068; a lane has a lane fault of cause 10 and enters FAILED (R157, R183), a voter is failed. -/
def failTest (s : State) (test die : Nat) : State :=
  if die < 3 then
    let s := emitH s (dutyHub s) s.cyc.tk (srcLane die) 0x2068 2 (u8 test ++ u16 (srcLane die))
    let s := emitH s (dutyHub s) s.cyc.tk (srcLane die) 0x2060 2 (u8 10 ++ u64 s.cyc.k ++ u16 (srcLane die))
    updLane (bumpi s E.laneFaults die) die (fun l => { l with state := .failed, cause := 10, halted := true })
  else
    let s := emitH s (dutyHub s) s.cyc.tk (srcHub (die - 3)) 0x2068 2 (u8 test ++ u16 (srcHub (die - 3)))
    updVoter s (die - 3) (fun v => { v with inService := false })

/-- The voters in service. -/
def votersUp (s : State) : List Nat := [0, 1].filter (fun h => hubUp s h && (getHub s h).voter.inService)

/-- Phase S6. -/
def testStage (s : State) (rep : StartReport) : State :=
  let s := rep.tests.foldl (fun s p => if p.2 < 5 && (p.2 < 3 || hubUp s (p.2 - 3)) then failTest s p.1 p.2 else s) s
  let s := if votersUp s = [] then emitH s (dutyHub s) s.cyc.tk (srcHub 0) 0x2065 4 (u8 2 ++ u64 0) else s
  gatherBlocks s 2 s.cyc.tk

/-- Fewer than two lanes, or no voter: the module is held in start-up (R489), with event 0x1007 and the service port alone open. -/
def holdStart (s : State) : State :=
  let d := dutyHub s
  let s := emitH s d s.cyc.tk (srcHub 0) 0x1007 4 (u8 6 ++ u8 (laneSet s).length ++ u8 (votersUp s).length)
  { s with st.heldIn := true, st.fatal := true, st.phase := 10, st.ports := false, st.duration := 0 }

/-! ## S7: settings (18 R459 to R462) -/

/-- Is a stored part kept by a settings reset (18 R462)? -/
def keptBySetReset (key : Nat) : Bool :=
  let idx := key / 16777216
  let sub := key / 65536 % 256
  idx = 0x1154 || idx = 0x3010 || idx = 0x3810 || inSafSet idx sub

/-- Every persistent entry takes its default, but for those kept. -/
def defaultStore (s : State) (keep : Nat → Bool) : State :=
  { s with
    upd.store := s.upd.store.filter (fun p => keep p.1)
    cnt := s.cnt.filter (fun p => !(persistKey p.1) || keep p.1)
    bb.companions := [] }

/-- A settings reset that is due (18 R462). -/
def setResetStage (s : State) : State :=
  if s.upd.setReset then
    { defaultStore s keptBySetReset with upd.setReset := false, upd.storedStalls := [] }
  else s

/-- The number of settings parts in the store (18 R458). -/
def partCount (s : State) : Nat := (partsIn s (s.upd.store.map Prod.fst)).length

/-- Migration of the live area from its format to the bank's (18 R461), with event 0x5020: a snapshot is taken and each part is
converted. -/
def migrate (s : State) (new : Nat) (conv : List (Nat × Nat)) : State :=
  let old := s.upd.format
  let snap := s.upd.store.map (fun (p : Nat × Nat × Nat) => (p.1, p.2.1))
  let s := { s with
    upd.snapshot := snap, upd.snapFormat := old, upd.format := new
    upd.store := s.upd.store.map (fun p => (p.1, (((conv.find? (fun q => q.1 = p.1)).map Prod.snd).getD p.2.1, p.2.2 + 1))) }
  emitH s (dutyHub s) s.cyc.tk (srcHub 0) 0x5020 1 (u16 old ++ u16 new ++ u32 (partCount s))

/-- The live area rebuilt from the snapshot, sequences rising (18 R461). -/
def rebuild (s : State) : State :=
  { s with
    upd.format := s.upd.snapFormat
    upd.store := s.upd.snapshot.map (fun (p : Nat × Nat) => (p.1, (p.2, ((nget? s.upd.store p.1).map Prod.snd).getD 0 + 1))) }

/-- Settings migration where the formats differ (18 R461). -/
def migrationStage (s : State) (rep : StartReport) : State :=
  let b := vget s.upd.banks s.upd.active {}
  let old := s.upd.format
  let d := dutyHub s
  if old < b.format then migrate s b.format rep.conv
  else if b.format < old then
    if s.upd.snapFormat ≠ 0 && b.oldest ≤ s.upd.snapFormat && s.upd.snapFormat ≤ b.format then
      let s := emitH (rebuild s) d s.cyc.tk (srcHub 0) 0x5021 2 (u8 1 ++ u16 old)
      if s.upd.format < b.format then migrate s b.format rep.conv else s
    else
      let s := defaultStore { s with upd.format := b.format, st.defaults := true } (fun _ => false)
      emitH s d s.cyc.tk (srcHub 0) 0x5021 2 (u8 2 ++ u16 old)
  else s

/-- One stored value is loaded; image maps and stall-defined values wait for S8 (23 R539). -/
def loadSetting (s : State) (key v : Nat) : State :=
  let idx := key / 16777216
  let sub := key / 65536 % 256
  if idx = 0x2210 then s
  else if idx = 0x3010 then { s with bb.keys := vupd s.bb.keys (sub - 1) (fun _ => some v) }
  else match findEntry idx sub with
    | some e => svx s e idx sub (key % 65536) v
    | none => s

/-- The evaluators take the safety parameters: every instance in use starts SAFE and meets 15 R386 (15 R385). -/
def startSafety (s : State) : State :=
  let s := { s with saf.cfg := (fieldCfg s).filter (fun p => inSafSet (p.1 / 16777216) (p.1 / 65536 % 256)) }
  (List.range 32).foldl (fun s i =>
    if sp s E.safType i = 0 then s else updInst s i (fun x => { x with state := 1, inhibit := commandPairs s i ≠ [] })) s

/-- Phase S7. -/
def settingsStage (s : State) (rep : StartReport) : State :=
  let s := migrationStage (setResetStage s) rep
  let s := { s with bb.keys := Vector.replicate 4 none }
  let s := s.upd.store.foldl (fun s p => loadSetting s p.1 p.2.1) s
  sendConfig (startSafety { s with st.migrated := true, con.listPend := true })

/-! ## S8: the stored stall set (R488) -/

/-- Event 0x1008. -/
def restoreEvent (s : State) (i pkg code : Nat) : State :=
  emitH s (dutyHub s) s.cyc.tk (srcHub 0) 0x1008 2 (u16 i ++ u32 pkg ++ u32 code)

/-- The stored set without an id. -/
def forgetStall (s : State) (i : Nat) : State := { s with upd.storedStalls := nerase s.upd.storedStalls i }

/-- The image map that the settings hold for an id. -/
def storedImap (s : State) (i : Nat) : NMap Nat :=
  s.upd.store.foldl (fun (m : NMap Nat) p =>
    if p.1 / 16777216 = 0x2210 && p.1 % 65536 = i then nput m (p.1 / 65536 % 256) p.2.1 0 else m) []

/-- A persistent stall-defined value is restored after its stall's reload; one that breaks the declaration is not (23 R539). -/
def restoreDecl (s : State) (c : Decl) : State :=
  let e := declEntry c
  match nget? s.upd.store (ekey c.index c.sub 0) with
  | some (v, _) => if c.persistent && !(offLimits e v) && !(badEncoding e v) then svx s e c.index c.sub 0 v else s
  | none => s

/-- The restored stall enters RUNNING where it was running and can be admitted, else STOPPED. -/
def restoreRun (s : State) (i pkg state : Nat) : State :=
  match getStall? s i with
  | none => s
  | some st =>
    if state = 3 || state = 4 || state = 6 then
      if startConds s i st = [] then setStall s i { admitAt s i st with state := .running }
      else restoreEvent s i pkg (abort abtState 3)
    else s

/-- One stall of the stored set is restored; the load's package checks are those of 04 R103 but for the capacity check. -/
def restoreStall (s : State) (i pkg grant state : Nat) : State :=
  if state = 7 then eraseRetain (forgetStall s i) i
  else
    let bad := (match pkgDesc s pkg with
      | some d => refuseIf (d.rights &&& ~~~ BitVec.ofNat 64 grant ≠ 0) abtAccess 0xFF
      | none => []) ++ pkgConds s pkg none
    match chooseAbort bad, parsePkg (pkgPayload s pkg) with
    | 0, some p =>
      let ld : Loading := { pkgNo := pkg, pkg := p, placed := (placeSegs s p.desc).getD [2, 2, 1] }
      let st : Stall := { state := .loading, pkgNo := pkg, desc := p.desc, grant := BitVec.ofNat 64 grant, map := p.map, decls := p.decls }
      let s := setStall s i { loadedStall s st ld with imap := storedImap s i }
      let s := { s with sup.ctxs := nset s.sup.ctxs (5000 + i) {} }
      let s := restoreRetain (p.decls.foldl restoreDecl s) i
      restoreRun s i pkg state
    | code, _ => restoreEvent (forgetStall s i) i pkg code

/-- Phase S8, in ascending stall id. -/
def stallStage (s : State) : State :=
  s.upd.storedStalls.foldl (fun s p => restoreStall s p.1 p.2.1 p.2.2.1 p.2.2.2) s

/-! ## S9 and crossing 0 (R487, R489) -/

/-- Lock bits of LOCK_AT_START, and bits 224 to 255 of TR_LOCK_MASK (18 R465). -/
def startLocks (s : State) : State :=
  [1, 2, 3, 4].foldl (fun s n =>
    let at_ := gvs s E.lockAtStart n 0
    let v := if n = 4 then at_ % 2 ^ 32 + gv s E.trLockMask * 2 ^ 32 else at_
    svs s E.lockBits n 0 (gvs s E.lockBits n 0 ||| v)) s

/-- A twin listens and sends HELLO on each of its links (12 R314, R316). -/
def startTwin (s : State) : State :=
  if gv s E.twinEnable = 1 then
    let s := setLease { s with twin.aloneFrom := s.cyc.tk } 1 s.cyc.tk
    [0, 1, 2, 3].foldl (fun s l => if (getEnd s (30 + l)).failed then s else twinHelloSend s l s.cyc.tk) s
  else s

/-- The ports open: all of them, or in recovery the service port alone (R486, R493). -/
def openPorts (s : State) : State :=
  if s.st.recovery then { s with st.ports := false }
  else startTwin (takeLists (loadWindows (openInterfaces { s with st.ports := true })))

/-- Crossing 0 begins at the first multiple of C at or after the end of the work (R489); its image is empty. -/
def beginCrossings (s : State) (ms : Nat) : State :=
  let c := 125000 * gv s E.bbCrossingN
  let t0 := (s.st.since + ms * 1000000 + c - 1) / c * c
  let img : HubImage := { k := 0, tk := t0, digest := hubDigest s [], closed := true }
  { s with
    cyc := { k := 0, tk := t0, c := c, running := true, hubImg := Vector.replicate 2 img }
    hubs := s.hubs.map (fun h => { h with time := t0 })
    sup.mode := if s.st.recovery || s.st.defaults || gv s E.startMode = 2 then 2 else 1
    st.t0 := t0, st.duration := ms, st.phase := 10, st.heldIn := false }

/-- Phase S9. -/
def openStage (s : State) (ms : Nat) : State :=
  let s := beginCrossings (if s.st.recovery then s else startLocks s) ms
  let s := openPorts s
  let s := if s.st.recovery then
      let d := dutyHub s
      gatherBlocks (emitH s d s.cyc.tk (srcHub 0) 0x1003 3 (u32 (s.st.pressAt.getD 0) ++ u8 s.st.prevMode)) 3 s.cyc.tk
    else s
  { s with agreed := s.sup }

/-- The phases S2 to S9 in order. -/
def startPhases (s : State) (rep : StartReport) : State :=
  let s := { s with con.svcHub := if (getHub s 0).failed then 1 else 0, upd.writer := dutyHub s }
  let (s, early) := bankStage s rep
  let s := hubStage s rep early
  let s := testStage (drawKeys (gatherBlocks s 1 s.cyc.tk)) rep
  if (laneSet s).length < 2 || votersUp s = [] then holdStart s
  else
    let s := settingsStage s rep
    openStage (if s.st.recovery then s else stallStage s) rep.ms

/-- MODULE_START (R486): the phases of a start that has begun run in order up to crossing 0. A RESET_CMD written while the module is
held in start-up begins the start anew (R484, R489). -/
def execModuleStart (rep : StartReport) (s : State) : Out :=
  .next (
    if s.st.phase = 1 then startPhases s rep
    else if s.st.heldIn && s.st.resetDue.isSome then startPhases (resetSequence s 2) rep
    else s)

/-! ## Transmitter disable (22 R515) -/

/-- TXDIS of a backbone link: high from reset until the ports open, throughout a recovery start, and while its hub is failed or
restarting. -/
def linkTxdis (s : State) (i : Nat) : Bool := !s.st.ports || s.st.recovery || !(hubUp s (linkHub i))

/-- TXDIS of a consist port: as for a link, and while its shed is not OPEN. -/
def portTxdis (s : State) (p : Nat) : Bool :=
  !s.st.ports || s.st.recovery || !(hubUp s (p / 8)) || (getShed s (portShed p)).state ≠ 0

/-- TXDIS of a twin link: as for a link, and while its shed is not OPEN. -/
def twinTxdis (s : State) (l : Nat) : Bool :=
  !s.st.ports || s.st.recovery || !(hubUp s (l / 2)) || (getShed s (if l < 2 then 7 else 11)).state ≠ 0

/-- PE_PERST of a hub held low (22 R515): until its STOR shed is OPEN, and for 100 ms after supply good; `ms` counts from it. -/
def perstLow (s : State) (h ms : Nat) : Bool :=
  ms < 100 || !s.supply.supplyGood || !(hubUp s h) || (getShed s (storShed h)).state ≠ 0

/-! ## The RECOVER button (R491, R492); `t` in ms from supply good -/

/-- Is the button read: by HA, or HB while HA is failed, and not in recovery? -/
def buttonRead (s : State) : Bool := (hubUp s 0 || hubUp s 1) && !s.st.recovery

/-- RECOVER_PRESS: a closure of 20 ms; one found at supply good is ignored until released. -/
def execRecoverPress (t : Nat) (s : State) : Out :=
  .next (
    if buttonRead s then
      { s with st.pressAt := some t, st.pressIn := decide (2000 ≤ t) && decide (t ≤ 10000), st.ignorePress := s.st.ignorePress || t = 0 }
    else s)

/-- RECOVER_HOLD (R492): a press that counts has been held for 5 s. -/
def execRecoverHold (t : Nat) (s : State) : Out :=
  .next (
    match s.st.pressAt with
    | none => s
    | some p =>
      if buttonRead s && s.st.pressIn && !s.st.ignorePress && p + 5000 ≤ t then
        let s := { s with st.pressIn := false }
        if s.cyc.running then { s with st.recoverDue := true }
        else if s.st.phase = 1 then
          bumps { s with st.recovery := true, st.cause := 5, st.prevMode := s.sup.mode } E.resetCounts 3 0 1
        else s
      else s)

/-- RECOVER_STUCK (R491): pressed for 3600 s: event 0x1004 once, and the button is ignored until released. -/
def execRecoverStuck (t : Nat) (s : State) : Out :=
  .next (
    match s.st.pressAt with
    | none => s
    | some p =>
      if buttonRead s && !s.st.stuckDone && p + 3600000 ≤ t then
        let d := dutyHub s
        let s := { s with st.stuckDone := true, st.ignorePress := true }
        emitH s d s.cyc.tk (srcHub 0) 0x1004 2 (u64 (s.cyc.tk - (t - p) * 1000000))
      else s)

/-- RECOVER_RELEASE (R491): a release of 20 ms. -/
def execRecoverRelease (_t : Nat) (s : State) : Out :=
  .next (
    if hubUp s 0 || hubUp s 1 then
      { s with st.pressAt := none, st.pressIn := false, st.ignorePress := false, st.stuckDone := false }
    else s)

end Sys2Proof.Machine
end

