-- ==== Sys2Proof/Machine/SysOps.lean ====
section
/-!
DEFINITION. System and block instructions (03 Table 03-9, R75 to R82, R87, R88) and the illegal word (R56, R57).
-/

namespace Sys2Proof.Machine

/-- BRK (R88): a breakpoint at its own address; it never retires and is charged nothing. -/
def execBrk (core : CoreIx) (s : State) : Out :=
  .next (runInsn core 0 (fun _ _ x => trapAt x 6 0 0 []) s)

/-- ERET (R87, R114). -/
def execEret (core : CoreIx) (s : State) : Out :=
  .next (runInsn core 1 (fun _ st x =>
    match exceptionReturn st.desc x with
    | .illegal => trapAt x 1 0 0 []
    | .badFrame => .fault x 0x13 (rget x 31) 0
    | .returned x' => .returned x') s)

/-- RDSW (R55). -/
def execRdsw (core : CoreIx) (rd : Reg) (s : State) : Out :=
  .next (runInsn core 1 (fun _ st x => retireX st (rset x rd x.sw) [] 1) s)

/-- The status-word bits that WRSW replaces: [12:8] and [4:0] (R55). -/
def wrswMask : Word := 0x1F1F

/-- WRSW (R55): it raises no exception, whatever flags and enables it leaves. -/
def execWrsw (core : CoreIx) (ra : Reg) (s : State) : Out :=
  .next (runInsn core 1 (fun _ st x =>
    retireX st { x with sw := (x.sw &&& ~~~ wrswMask) ||| (rget x ra &&& wrswMask) } [] 1) s)

/-- RDFUEL (R58): the fuel that remains after its own charge. -/
def execRdfuel (core : CoreIx) (rd : Reg) (s : State) : Out :=
  .next (runInsn core 1 (fun _ st x => retireX st (rset x rd (BitVec.ofNat 64 (x.fuel - 1))) [] 1) s)

/-! ## Block instructions -/

/-- What one granule does, or the first failing address (R77): `n` is its byte count. The Bool says that the instruction
ends with it (BCMP at a difference). -/
inductive Gran where
  | bad (fa : Nat)
  | done (x : Exec) (last : Bool)

/-- Advance the progress registers over a granule of `n` bytes (R76). -/
def blockStep (x : Exec) (n : Nat) (g2too : Bool) : Exec :=
  let x := rset x 1 (rget x 1 + BitVec.ofNat 64 n)
  let x := if g2too then rset x 2 (rget x 2 + BitVec.ofNat 64 n) else x
  rset x 3 (rget x 3 - BitVec.ofNat 64 n)

/-- `n` bytes from a 64-bit address up, the address wrapping. -/
def blockBytes (m : Mem) (a : Word) (n : Nat) : List Byte :=
  (List.range n).map (fun i => mget m ((a.toNat + i) % 2 ^ 64))

/-- Write bytes from a 64-bit address up. -/
def blockPut (m : Mem) (a : Word) (bs : List Byte) : Mem := mputs m a.toNat bs

/-- Run granules until the block ends, fails or is out of fuel; `left` bounds the granules. Each completed granule sets BIP
and is charged 1 unit (R62, R63, R76). -/
def blockLoop (step : Exec → Nat → Gran) : Nat → Exec → Nat → Exec × Nat × Option (Option Nat)
  | 0, x, done => (x, done, none)
  | left + 1, x, done =>
    if (rget x 3) = 0 then
      if x.fuel < 1 then (x, done, some none) else ({ x with fuel := x.fuel - 1 }, done, none)
    else if x.fuel < 1 then (x, done, some none)
    else
      match step x (min 64 (rget x 3).toNat) with
      | .bad fa => (x, done, some (some fa))
      | .done x' last =>
        let x' := { x' with fuel := x.fuel - 1, sw := swSet x.sw swBip true }
        if last then
          if x'.fuel < 1 then (x', done + 1, some none) else ({ x' with fuel := x'.fuel - 1 }, done + 1, none)
        else blockLoop step left x' (done + 1)

/-- Per-granule latency bounds of a block instruction (03 Table 03-10). -/
def blockLat (lvl n : Nat) (crc : Bool) : Nat × Nat :=
  if lvl = 2 then (3 + 90 * n, 630 * n) else if lvl = 1 then (3 + 8 * n, 0) else (3 + (if crc then 4 else 2) * n, 0)

/-- A block instruction over its granule step; `lvl` is the slower level it touches. -/
def blockOp (core : CoreIx) (lvl : Stall → Exec → Nat) (crc : Bool) (step : Stall → Exec → Nat → Gran) (s : State) :
    State :=
  runInsn core 0 (fun _ st x =>
    let l := lvl st x
    match blockLoop (step st) (x.fuel + 1) x 0 with
    | (x', n, none) =>
      .retire { st with exec := { x' with pc := x.pc + 4 } }
        [(0x18, 1), (0x19, n), (0x1A, if l = 2 then n else 0)] (blockLat l n crc) (2 + (if l = 2 then 1 else 0)) none
    | (x', n, some none) => .stop x' [(0x18, 1), (0x19, n), (0x1A, if l = 2 then n else 0)]
    | (x', n, some (some fa)) =>
      .trap x' x' x.pc 3 6 (BitVec.ofNat 64 fa) [(3, n), (0x18, 1), (0x19, n), (0x1A, if l = 2 then n else 0)]) s

/-- The slower memory level of two addresses. -/
def level2 (st : Stall) (a b : Word) : Nat := max (levelOf st a.toNat) (levelOf st b.toNat)

/-- One granule of BCOPY (R77, R79): source checked first, all bytes read before any is written. -/
def copyStep (st : Stall) (x : Exec) (n : Nat) : Gran :=
  match firstBad (blockRead st.desc) (rget x 2).toNat n with
  | some fa => .bad fa
  | none =>
    match firstBad (blockWrite st.desc) (rget x 1).toNat n with
    | some fa => .bad fa
    | none => .done (blockStep { x with mem := blockPut x.mem (rget x 1) (blockBytes x.mem (rget x 2) n) } n true) false

/-- The byte that BFILL writes at an address (R80). -/
def fillByte (pat : Word) (a : Nat) : Byte := BitVec.ofNat 8 (pat.toNat / 256 ^ (a % 8))

/-- One granule of BFILL (R80). -/
def fillStep (st : Stall) (x : Exec) (n : Nat) : Gran :=
  match firstBad (blockWrite st.desc) (rget x 1).toNat n with
  | some fa => .bad fa
  | none =>
    let bs := (List.range n).map (fun i => fillByte (rget x 2) ((rget x 1).toNat + i))
    .done (blockStep { x with mem := blockPut x.mem (rget x 1) bs } n false) false

/-- One granule of BCRC (R81). -/
def crcStep (st : Stall) (x : Exec) (n : Nat) : Gran :=
  match firstBad (blockRead st.desc) (rget x 1).toNat n with
  | some fa => .bad fa
  | none =>
    let c := crcRun ((rget x 2).toNat % 2 ^ 32) (blockBytes x.mem (rget x 1) n)
    .done (blockStep (rset x 2 (BitVec.ofNat 64 c)) n false) false

/-- Position of the first difference of two byte lists. -/
def firstDiff : List Byte → List Byte → Nat → Option (Nat × Bool)
  | a :: as, b :: bs, i => if a = b then firstDiff as bs (i + 1) else some (i, decide (a.toNat < b.toNat))
  | _, _, _ => none

/-- One granule of BCMP (R77, R82): operand a checked before operand b. At the end g3 = 0 gives rd 0. -/
def cmpStep (rd : Reg) (st : Stall) (x : Exec) (n : Nat) : Gran :=
  match firstBad (blockRead st.desc) (rget x 1).toNat n with
  | some fa => .bad fa
  | none =>
    match firstBad (blockRead st.desc) (rget x 2).toNat n with
    | some fa => .bad fa
    | none =>
      match firstDiff (blockBytes x.mem (rget x 1) n) (blockBytes x.mem (rget x 2) n) 0 with
      | none => .done (blockStep x n true) false
      | some (i, lower) => .done (rset (blockStep x i true) rd (if lower then BitVec.ofInt 64 (-1) else 1)) true

/-- BCOPY (R76 to R79). -/
def execBcopy (core : CoreIx) (s : State) : Out :=
  .next (blockOp core (fun st x => level2 st (rget x 1) (rget x 2)) false copyStep s)

/-- BFILL (R76 to R78, R80). -/
def execBfill (core : CoreIx) (s : State) : Out :=
  .next (blockOp core (fun st x => level2 st (rget x 1) (rget x 1)) false fillStep s)

/-- The exec state of a BCRC whose operand length is 0: g2[63:32] are written as 0 (R81). -/
def crcEntry (x : Exec) : Exec := rset x 2 (BitVec.ofNat 64 ((rget x 2).toNat % 2 ^ 32))

/-- BCRC (R76 to R78, R81): g2[63:32] are 0 once it has worked, also where it retires at once with g3 = 0. -/
def execBcrc (core : CoreIx) (s : State) : Out :=
  .next (runInsn core 0 (fun _ st x =>
    let l := levelOf st (rget x 1).toNat
    match blockLoop (crcStep st) (x.fuel + 1) x 0 with
    | (x', n, none) =>
      .retire { st with exec := { crcEntry x' with pc := x.pc + 4 } }
        [(0x18, 1), (0x19, n), (0x1A, if l = 2 then n else 0)] (blockLat l n true) (2 + (if l = 2 then 1 else 0)) none
    | (x', n, some none) => .stop x' [(0x18, 1), (0x19, n), (0x1A, if l = 2 then n else 0)]
    | (x', n, some (some fa)) =>
      .trap x' x' x.pc 3 6 (BitVec.ofNat 64 fa) [(3, n), (0x18, 1), (0x19, n), (0x1A, if l = 2 then n else 0)]) s)

/-- BCMP (R75 to R78, R82): rd naming g1, g2 or g3 raises ILL. rd takes 0 only as the instruction retires; a BCMP that
has stopped at a granule boundary has not written rd. -/
def execBcmp (core : CoreIx) (rd : Reg) (s : State) : Out :=
  .next (runInsn core 0 (fun _ st x =>
    if 1 ≤ rd.val && rd.val ≤ 3 then trapAt x 1 0 0 []
    else
      let l := level2 st (rget x 1) (rget x 2)
      match blockLoop (cmpStep rd st) (x.fuel + 1) x 0 with
      | (x', n, none) =>
        .retire { st with exec := { (if rget x' 3 = 0 then rset x' rd 0 else x') with pc := x.pc + 4 } }
          [(0x18, 1), (0x19, n), (0x1A, if l = 2 then n else 0)] (blockLat l n false) (2 + (if l = 2 then 1 else 0)) none
      | (x', n, some none) =>
        .stop (rset x' rd (rget x rd)) [(0x18, 1), (0x19, n), (0x1A, if l = 2 then n else 0)]
      | (x', n, some (some fa)) =>
        .trap x' x' x.pc 3 6 (BitVec.ofNat 64 fa) [(3, n), (0x18, 1), (0x19, n), (0x1A, if l = 2 then n else 0)]) s)

/-! ## Illegal words -/

/-- Is the register-format word's function assigned, with its unused fields 0 (R57, 03 Tables 03-5, 03-8, 03-9)? -/
def legalA (op fn rb ra rd : Nat) : Bool :=
  if op = 1 then fn ≤ 0x14 || (0x15 ≤ fn && fn ≤ 0x18 && rb = 0) || fn = 0x19 || fn = 0x1A
  else if op = 2 then
    (fn ≤ 3) || (fn = 4 && rb = 0) || (5 ≤ fn && fn ≤ 0x0B) || ((fn = 0x0C || fn = 0x0D) && rb = 0) || fn = 0x0E
      || (0x10 ≤ fn && fn ≤ 0x15 && rb = 0)
  else
    ((fn = 1 || fn = 2) && rb = 0 && ra = 0 && rd = 0) || ((fn = 3 || fn = 5) && rb = 0 && ra = 0)
      || (fn = 4 && rb = 0 && rd = 0) || (0x10 ≤ fn && fn ≤ 0x12 && rb = 0 && ra = 0 && rd = 0)
      || (fn = 0x13 && rb = 0 && ra = 0 && !(1 ≤ rd && rd ≤ 3))

/-- Does a word have the behaviour of some table (R57)? -/
def legalWord (w : BitVec 32) : Bool :=
  let n := w.toNat
  let op := bits n 0 6
  if op = 1 || op = 2 || op = 3 then legalA op (bits n 21 11) (bits n 16 5) (bits n 11 5) (bits n 6 5)
  else if 0x08 ≤ op && op ≤ 0x0D then true
  else if 0x0E ≤ op && op ≤ 0x10 then bits n 22 10 = 0
  else if op = 0x11 then bits n 11 5 = 0
  else if op = 0x12 then true
  else if 0x18 ≤ op && op ≤ 0x1E then true
  else if 0x20 ≤ op && op ≤ 0x23 then true
  else if 0x28 ≤ op && op ≤ 0x2D then true
  else if op = 0x30 || op = 0x31 || op = 0x32 then true
  else op = 0x38 && bits n 6 10 = 0

/-- An illegal word (R57): ILL at its own address. A word that some table gives a behaviour is no occasion of this
command and leaves the state as it is (log 3). -/
def execIllegalInstruction (core : CoreIx) (word : BitVec 32) (s : State) : Out :=
  .next (if legalWord word then s else runInsn core 1 (fun _ _ x => trapAt x 1 0 0 []) s)

end Sys2Proof.Machine
end

