-- ==== Sys2Proof/Machine/Dispatch.lean ====
section
/-!
DEFINITION. One arm per command: a direct call of its meaning, or a refusal by name.
-/

namespace Sys2Proof.Machine

def exec (i : Instr) (s : State) : Host.Outcome State Fault Refusal :=
  match i with
  | .add core rd ra rb => Sys2Proof.Machine.execAdd core rd ra rb s
  | .sub core rd ra rb => Sys2Proof.Machine.execSub core rd ra rb s
  | .and core rd ra rb => Sys2Proof.Machine.execAnd core rd ra rb s
  | .or core rd ra rb => Sys2Proof.Machine.execOr core rd ra rb s
  | .xor core rd ra rb => Sys2Proof.Machine.execXor core rd ra rb s
  | .sll core rd ra rb => Sys2Proof.Machine.execSll core rd ra rb s
  | .srl core rd ra rb => Sys2Proof.Machine.execSrl core rd ra rb s
  | .sra core rd ra rb => Sys2Proof.Machine.execSra core rd ra rb s
  | .slt core rd ra rb => Sys2Proof.Machine.execSlt core rd ra rb s
  | .sltu core rd ra rb => Sys2Proof.Machine.execSltu core rd ra rb s
  | .mul core rd ra rb => Sys2Proof.Machine.execMul core rd ra rb s
  | .mulh core rd ra rb => Sys2Proof.Machine.execMulh core rd ra rb s
  | .mulhu core rd ra rb => Sys2Proof.Machine.execMulhu core rd ra rb s
  | .div core rd ra rb => Sys2Proof.Machine.execDiv core rd ra rb s
  | .divu core rd ra rb => Sys2Proof.Machine.execDivu core rd ra rb s
  | .rem core rd ra rb => Sys2Proof.Machine.execRem core rd ra rb s
  | .remu core rd ra rb => Sys2Proof.Machine.execRemu core rd ra rb s
  | .min core rd ra rb => Sys2Proof.Machine.execMin core rd ra rb s
  | .max core rd ra rb => Sys2Proof.Machine.execMax core rd ra rb s
  | .minu core rd ra rb => Sys2Proof.Machine.execMinu core rd ra rb s
  | .maxu core rd ra rb => Sys2Proof.Machine.execMaxu core rd ra rb s
  | .clz core rd ra => Sys2Proof.Machine.execClz core rd ra s
  | .ctz core rd ra => Sys2Proof.Machine.execCtz core rd ra s
  | .popc core rd ra => Sys2Proof.Machine.execPopc core rd ra s
  | .bswap core rd ra => Sys2Proof.Machine.execBswap core rd ra s
  | .movnz core rd ra rb => Sys2Proof.Machine.execMovnz core rd ra rb s
  | .movz core rd ra rb => Sys2Proof.Machine.execMovz core rd ra rb s
  | .addi core rd ra imm => Sys2Proof.Machine.execAddi core rd ra imm s
  | .andi core rd ra imm => Sys2Proof.Machine.execAndi core rd ra imm s
  | .ori core rd ra imm => Sys2Proof.Machine.execOri core rd ra imm s
  | .xori core rd ra imm => Sys2Proof.Machine.execXori core rd ra imm s
  | .slti core rd ra imm => Sys2Proof.Machine.execSlti core rd ra imm s
  | .sltiu core rd ra imm => Sys2Proof.Machine.execSltiu core rd ra imm s
  | .slli core rd ra sh => Sys2Proof.Machine.execSlli core rd ra sh s
  | .srli core rd ra sh => Sys2Proof.Machine.execSrli core rd ra sh s
  | .srai core rd ra sh => Sys2Proof.Machine.execSrai core rd ra sh s
  | .lui core rd imm => Sys2Proof.Machine.execLui core rd imm s
  | .shori core rd ra imm => Sys2Proof.Machine.execShori core rd ra imm s
  | .beq core ra rb off => Sys2Proof.Machine.execBeq core ra rb off s
  | .bne core ra rb off => Sys2Proof.Machine.execBne core ra rb off s
  | .blt core ra rb off => Sys2Proof.Machine.execBlt core ra rb off s
  | .bge core ra rb off => Sys2Proof.Machine.execBge core ra rb off s
  | .bltu core ra rb off => Sys2Proof.Machine.execBltu core ra rb off s
  | .bgeu core ra rb off => Sys2Proof.Machine.execBgeu core ra rb off s
  | .jmp core off => Sys2Proof.Machine.execJmp core off s
  | .call core off => Sys2Proof.Machine.execCall core off s
  | .jalr core rd ra imm => Sys2Proof.Machine.execJalr core rd ra imm s
  | .ldB core rt ra disp => Sys2Proof.Machine.execLdB core rt ra disp s
  | .ldBu core rt ra disp => Sys2Proof.Machine.execLdBu core rt ra disp s
  | .ldH core rt ra disp => Sys2Proof.Machine.execLdH core rt ra disp s
  | .ldHu core rt ra disp => Sys2Proof.Machine.execLdHu core rt ra disp s
  | .ldW core rt ra disp => Sys2Proof.Machine.execLdW core rt ra disp s
  | .ldWu core rt ra disp => Sys2Proof.Machine.execLdWu core rt ra disp s
  | .ldD core rt ra disp => Sys2Proof.Machine.execLdD core rt ra disp s
  | .stB core rt ra disp => Sys2Proof.Machine.execStB core rt ra disp s
  | .stH core rt ra disp => Sys2Proof.Machine.execStH core rt ra disp s
  | .stW core rt ra disp => Sys2Proof.Machine.execStW core rt ra disp s
  | .stD core rt ra disp => Sys2Proof.Machine.execStD core rt ra disp s
  | .fadd core rd ra rb => Sys2Proof.Machine.execFadd core rd ra rb s
  | .fsub core rd ra rb => Sys2Proof.Machine.execFsub core rd ra rb s
  | .fmul core rd ra rb => Sys2Proof.Machine.execFmul core rd ra rb s
  | .fdiv core rd ra rb => Sys2Proof.Machine.execFdiv core rd ra rb s
  | .fsqrt core rd ra => Sys2Proof.Machine.execFsqrt core rd ra s
  | .fmadd core rd ra rb => Sys2Proof.Machine.execFmadd core rd ra rb s
  | .fmsub core rd ra rb => Sys2Proof.Machine.execFmsub core rd ra rb s
  | .fmin core rd ra rb => Sys2Proof.Machine.execFmin core rd ra rb s
  | .fmax core rd ra rb => Sys2Proof.Machine.execFmax core rd ra rb s
  | .feq core rd ra rb => Sys2Proof.Machine.execFeq core rd ra rb s
  | .flt core rd ra rb => Sys2Proof.Machine.execFlt core rd ra rb s
  | .fle core rd ra rb => Sys2Proof.Machine.execFle core rd ra rb s
  | .fneg core rd ra => Sys2Proof.Machine.execFneg core rd ra s
  | .fabs core rd ra => Sys2Proof.Machine.execFabs core rd ra s
  | .fcpys core rd ra rb => Sys2Proof.Machine.execFcpys core rd ra rb s
  | .itof core rd ra => Sys2Proof.Machine.execItof core rd ra s
  | .utof core rd ra => Sys2Proof.Machine.execUtof core rd ra s
  | .ftoi core rd ra => Sys2Proof.Machine.execFtoi core rd ra s
  | .ftou core rd ra => Sys2Proof.Machine.execFtou core rd ra s
  | .fint core rd ra => Sys2Proof.Machine.execFint core rd ra s
  | .ftrunc core rd ra => Sys2Proof.Machine.execFtrunc core rd ra s
  | .brk core => Sys2Proof.Machine.execBrk core s
  | .eret core => Sys2Proof.Machine.execEret core s
  | .rdsw core rd => Sys2Proof.Machine.execRdsw core rd s
  | .wrsw core ra => Sys2Proof.Machine.execWrsw core ra s
  | .rdfuel core rd => Sys2Proof.Machine.execRdfuel core rd s
  | .bcopy core => Sys2Proof.Machine.execBcopy core s
  | .bfill core => Sys2Proof.Machine.execBfill core s
  | .bcrc core => Sys2Proof.Machine.execBcrc core s
  | .bcmp core rd => Sys2Proof.Machine.execBcmp core rd s
  | .illegalInstruction core word => Sys2Proof.Machine.execIllegalInstruction core word s
  | .svcYield core => Sys2Proof.Machine.execSvcYield core s
  | .sendBackboneTelegram core => Sys2Proof.Machine.execSendBackboneTelegram core s
  | .sendStallDataTelegram core => Sys2Proof.Machine.execSendStallDataTelegram core s
  | .bridgeWrite core => Sys2Proof.Machine.execBridgeWrite core s
  | .bridgeRead core => Sys2Proof.Machine.execBridgeRead core s
  | .bridgeLock core => Sys2Proof.Machine.execBridgeLock core s
  | .bridgeUnlock core => Sys2Proof.Machine.execBridgeUnlock core s
  | .sendFieldOutputCommand core => Sys2Proof.Machine.execSendFieldOutputCommand core s
  | .svcTrigArm core => Sys2Proof.Machine.execSvcTrigArm core s
  | .svcTrigCancel core => Sys2Proof.Machine.execSvcTrigCancel core s
  | .svcEvent core => Sys2Proof.Machine.execSvcEvent core s
  | .svcSafetyReqStart core => Sys2Proof.Machine.execSvcSafetyReqStart core s
  | .svcSafetyReqReset core => Sys2Proof.Machine.execSvcSafetyReqReset core s
  | .svcFault core => Sys2Proof.Machine.execSvcFault core s
  | .svcUnassigned core number => Sys2Proof.Machine.execSvcUnassigned core number s
  | .supervisorPause lane core cycles => Sys2Proof.Machine.execSupervisorPause lane core cycles s
  | .activationStart core => Sys2Proof.Machine.execActivationStart core s
  | .fieldSample die t toHa toHb => Sys2Proof.Machine.execFieldSample die t toHa toHb s
  | .imageClose hub rd => Sys2Proof.Machine.execImageClose hub rd s
  | .crossingBoundary => Sys2Proof.Machine.execCrossingBoundary s
  | .inputAgreement rep => Sys2Proof.Machine.execInputAgreement rep s
  | .checkpointAgreement dev equiv => Sys2Proof.Machine.execCheckpointAgreement dev equiv s
  | .rollbackComplete lane => Sys2Proof.Machine.execRollbackComplete lane s
  | .timingLag lane core => Sys2Proof.Machine.execTimingLag lane core s
  | .voterCopyArrival hub lane payload pos mark t => Sys2Proof.Machine.execVoterCopyArrival hub lane payload pos mark t s
  | .skewWindowClose hub index t => Sys2Proof.Machine.execSkewWindowClose hub index t s
  | .releaseDeadline hub item t => Sys2Proof.Machine.execReleaseDeadline hub item t s
  | .voteHoldLimitExpiry hub key t => Sys2Proof.Machine.execVoteHoldLimitExpiry hub key t s
  | .internalLinkTransfer link seq crcOk t => Sys2Proof.Machine.execInternalLinkTransfer link seq crcOk t s
  | .internalLinkDiscardLimit link t => Sys2Proof.Machine.execInternalLinkDiscardLimit link t s
  | .internalLinkSilence link t => Sys2Proof.Machine.execInternalLinkSilence link t s
  | .internalLinkRestored link t => Sys2Proof.Machine.execInternalLinkRestored link t s
  | .dieResetCommand die fromHa fromHb t => Sys2Proof.Machine.execDieResetCommand die fromHa fromHb t s
  | .dapRead ctx msg => Sys2Proof.Machine.execDapRead ctx msg s
  | .dapWrite ctx msg => Sys2Proof.Machine.execDapWrite ctx msg s
  | .dapLogin ctx msg => Sys2Proof.Machine.execDapLogin ctx msg s
  | .dapLogout ctx msg => Sys2Proof.Machine.execDapLogout ctx msg s
  | .dapDescribe ctx msg => Sys2Proof.Machine.execDapDescribe ctx msg s
  | .dictWrite ctx index sub v => Sys2Proof.Machine.execDictWrite ctx index sub v s
  | .selectWrite ctx index v => Sys2Proof.Machine.execSelectWrite ctx index v s
  | .lockBitsWrite ctx sub v => Sys2Proof.Machine.execLockBitsWrite ctx sub v s
  | .lockAtStartWrite ctx sub v => Sys2Proof.Machine.execLockAtStartWrite ctx sub v s
  | .stallLoad ctx pkg grant => Sys2Proof.Machine.execStallLoad ctx pkg grant s
  | .loadCopyComplete lane stall digest => Sys2Proof.Machine.execLoadCopyComplete lane stall digest s
  | .stallCmdStart ctx => Sys2Proof.Machine.execStallCmdStart ctx s
  | .stallCmdStop ctx => Sys2Proof.Machine.execStallCmdStop ctx s
  | .stallCmdRestart ctx => Sys2Proof.Machine.execStallCmdRestart ctx s
  | .stallCmdUnload ctx => Sys2Proof.Machine.execStallCmdUnload ctx s
  | .stallReplace ctx pkg => Sys2Proof.Machine.execStallReplace ctx pkg s
  | .stallHold ctx => Sys2Proof.Machine.execStallHold ctx s
  | .stallRelease ctx => Sys2Proof.Machine.execStallRelease ctx s
  | .stallImapWrite ctx sub v => Sys2Proof.Machine.execStallImapWrite ctx sub v s
  | .cycleModeCmdRun ctx => Sys2Proof.Machine.execCycleModeCmdRun ctx s
  | .cycleModeCmdStop ctx => Sys2Proof.Machine.execCycleModeCmdStop ctx s
  | .cycleCpfWrite ctx v => Sys2Proof.Machine.execCycleCpfWrite ctx v s
  | .diForce ctx v => Sys2Proof.Machine.execDiForce ctx v s
  | .doForce ctx v => Sys2Proof.Machine.execDoForce ctx v s
  | .aiForce ctx v => Sys2Proof.Machine.execAiForce ctx v s
  | .forceClearAll ctx => Sys2Proof.Machine.execForceClearAll ctx s
  | .forceExpiry kind channel => Sys2Proof.Machine.execForceExpiry kind channel s
  | .retainCommitPass bad => Sys2Proof.Machine.execRetainCommitPass bad s
  | .restableCmd ctx v => Sys2Proof.Machine.execRestableCmd ctx v s
  | .laneResetComplete lane t => Sys2Proof.Machine.execLaneResetComplete lane t s
  | .restableBulkComplete lane => Sys2Proof.Machine.execRestableBulkComplete lane s
  | .restableLimitExpiry lane => Sys2Proof.Machine.execRestableLimitExpiry lane s
  | .restableRetry lane => Sys2Proof.Machine.execRestableRetry lane s
  | .laneReset ctx => Sys2Proof.Machine.execLaneReset ctx s
  | .bellReceived link bell => Sys2Proof.Machine.execBellReceived link bell s
  | .bellLoss plane => Sys2Proof.Machine.execBellLoss plane s
  | .oscCorrectionOutOfRange die ppb t => Sys2Proof.Machine.execOscCorrectionOutOfRange die ppb t s
  | .timeHubDiffAlert => Sys2Proof.Machine.execTimeHubDiffAlert s
  | .tachoTransition ch phaseB level t => Sys2Proof.Machine.execTachoTransition ch phaseB level t s
  | .tachoFaultClear ch t => Sys2Proof.Machine.execTachoFaultClear ch t s
  | .posDatumSet ctx v => Sys2Proof.Machine.execPosDatumSet ctx v s
  | .trigCancel ctx => Sys2Proof.Machine.execTrigCancel ctx s
  | .timedDoInstant die channel t => Sys2Proof.Machine.execTimedDoInstant die channel t s
  | .supplyModeCmd ctx v => Sys2Proof.Machine.execSupplyModeCmd ctx v s
  | .shedReceiverStop shed dropped t => Sys2Proof.Machine.execShedReceiverStop shed dropped t s
  | .budgetOverrunAlert => Sys2Proof.Machine.execBudgetOverrunAlert s
  | .thermalTrip die t => Sys2Proof.Machine.execThermalTrip die t s
  | .alignmentMarker link m count skew => Sys2Proof.Machine.execAlignmentMarker link m count skew s
  | .linkPeerSilence link => Sys2Proof.Machine.execLinkPeerSilence link s
  | .linkDown link => Sys2Proof.Machine.execLinkDown link s
  | .relayStartBlock link bell start rx t => Sys2Proof.Machine.execRelayStartBlock link bell start rx t s
  | .bellSend plane => Sys2Proof.Machine.execBellSend plane s
  | .slotTransmit plane slot t => Sys2Proof.Machine.execSlotTransmit plane slot t s
  | .backboneFrameReceived link frame => Sys2Proof.Machine.execBackboneFrameReceived link frame s
  | .speedRefTelegram speed valid => Sys2Proof.Machine.execSpeedRefTelegram speed valid s
  | .datumTelegram instant => Sys2Proof.Machine.execDatumTelegram instant s
  | .utcTelegram offset valid => Sys2Proof.Machine.execUtcTelegram offset valid s
  | .bbPlanLoad ctx v => Sys2Proof.Machine.execBbPlanLoad ctx v s
  | .bbKeyActive ctx v => Sys2Proof.Machine.execBbKeyActive ctx v s
  | .bbDatumAnnounce ctx v => Sys2Proof.Machine.execBbDatumAnnounce ctx v s
  | .bbCompanionLoad ctx v => Sys2Proof.Machine.execBbCompanionLoad ctx v s
  | .bbCompanionRemove ctx v => Sys2Proof.Machine.execBbCompanionRemove ctx v s
  | .probeSend link t => Sys2Proof.Machine.execProbeSend link t s
  | .probeReceived link count busy t => Sys2Proof.Machine.execProbeReceived link count busy t s
  | .echoReceived link count t => Sys2Proof.Machine.execEchoReceived link count t s
  | .linkDelayLoss link => Sys2Proof.Machine.execLinkDelayLoss link s
  | .chainOriginate plane => Sys2Proof.Machine.execChainOriginate plane s
  | .outwardChain link ch => Sys2Proof.Machine.execOutwardChain link ch s
  | .inwardChain link ch => Sys2Proof.Machine.execInwardChain link ch s
  | .rosterSend plane => Sys2Proof.Machine.execRosterSend plane s
  | .rosterReceived link ros => Sys2Proof.Machine.execRosterReceived link ros s
  | .listenTimeout plane => Sys2Proof.Machine.execListenTimeout plane s
  | .coldBellReceived link bell => Sys2Proof.Machine.execColdBellReceived link bell s
  | .claimConfirmed => Sys2Proof.Machine.execClaimConfirmed s
  | .edgeDetected link ch => Sys2Proof.Machine.execEdgeDetected link ch s
  | .mergeYield => Sys2Proof.Machine.execMergeYield s
  | .contentionTimeout => Sys2Proof.Machine.execContentionTimeout s
  | .unitAbsenceRemoval unitId => Sys2Proof.Machine.execUnitAbsenceRemoval unitId s
  | .portFrameReceived port fr => Sys2Proof.Machine.execPortFrameReceived port fr s
  | .macAgeing hub mac t => Sys2Proof.Machine.execMacAgeing hub mac t s
  | .arpRequest port ip mac vlan => Sys2Proof.Machine.execArpRequest port ip mac vlan s
  | .icmpEchoRequest port ip src data t => Sys2Proof.Machine.execIcmpEchoRequest port ip src data t s
  | .hello port id frag hs t => Sys2Proof.Machine.execHello port id frag hs t s
  | .finish port id frag fin t => Sys2Proof.Machine.execFinish port id frag fin t s
  | .fragmentTimeout id t => Sys2Proof.Machine.execFragmentTimeout id t s
  | .handshakeTimeout id t => Sys2Proof.Machine.execHandshakeTimeout id t s
  | .sessionDapRecord hub rec op msg => Sys2Proof.Machine.execSessionDapRecord hub rec op msg s
  | .sessionTelegramRecord hub rec ident data => Sys2Proof.Machine.execSessionTelegramRecord hub rec ident data s
  | .sessionPing hub rec => Sys2Proof.Machine.execSessionPing hub rec s
  | .sessionCloseRecord hub rec => Sys2Proof.Machine.execSessionCloseRecord hub rec s
  | .rekey hub rec share => Sys2Proof.Machine.execRekey hub rec share s
  | .rekeyAnswer hub rec share => Sys2Proof.Machine.execRekeyAnswer hub rec share s
  | .moduleRekeyStart session t => Sys2Proof.Machine.execModuleRekeyStart session t s
  | .phaseKeyErase session t => Sys2Proof.Machine.execPhaseKeyErase session t s
  | .rekeyRetry session t => Sys2Proof.Machine.execRekeyRetry session t s
  | .idlePing session t => Sys2Proof.Machine.execIdlePing session t s
  | .sessionIdleTimeout session t => Sys2Proof.Machine.execSessionIdleTimeout session t s
  | .pathForget session netB t => Sys2Proof.Machine.execPathForget session netB t s
  | .certExpiry session => Sys2Proof.Machine.execCertExpiry session s
  | .sessClose ctx => Sys2Proof.Machine.execSessClose ctx s
  | .sessReserve ctx sub v => Sys2Proof.Machine.execSessReserve ctx sub v s
  | .sessDeny ctx sub v => Sys2Proof.Machine.execSessDeny ctx sub v s
  | .trdpProcessData port comId src vlan seq formed data t => Sys2Proof.Machine.execTrdpProcessData port comId src vlan seq formed data t s
  | .twinHello link seq msg t => Sys2Proof.Machine.execTwinHello link seq msg t s
  | .twinKeepaliveSend link t => Sys2Proof.Machine.execTwinKeepaliveSend link t s
  | .leaseRenewSend t => Sys2Proof.Machine.execLeaseRenewSend t s
  | .twinRenew link seq tagOk boundary yields count markK markItem t => Sys2Proof.Machine.execTwinRenew link seq tagOk boundary yields count markK markItem t s
  | .twinAck link seq tagOk count t => Sys2Proof.Machine.execTwinAck link seq tagOk count t s
  | .twinClaim link seq tagOk boundary holding t => Sys2Proof.Machine.execTwinClaim link seq tagOk boundary holding t s
  | .twinRelease link seq tagOk holder t => Sys2Proof.Machine.execTwinRelease link seq tagOk holder t s
  | .leaseCease t => Sys2Proof.Machine.execLeaseCease t s
  | .leaseTake t => Sys2Proof.Machine.execLeaseTake t s
  | .listenClaimTimeout t => Sys2Proof.Machine.execListenClaimTimeout t s
  | .aloneWaitExpiry t => Sys2Proof.Machine.execAloneWaitExpiry t s
  | .revertClaim t => Sys2Proof.Machine.execRevertClaim t s
  | .backboneClaimCompare t => Sys2Proof.Machine.execBackboneClaimCompare t s
  | .mirrorRecord link seq tagOk rec t => Sys2Proof.Machine.execMirrorRecord link seq tagOk rec t s
  | .catchup link seq tagOk stall st t => Sys2Proof.Machine.execCatchup link seq tagOk stall st t s
  | .catchupTimeout stall => Sys2Proof.Machine.execCatchupTimeout stall s
  | .shadowItemExpiry => Sys2Proof.Machine.execShadowItemExpiry s
  | .twinEnableWrite ctx v => Sys2Proof.Machine.execTwinEnableWrite ctx v s
  | .twinDoParallelWrite ctx v => Sys2Proof.Machine.execTwinDoParallelWrite ctx v s
  | .mvbPortReceived ifc port data lineB checkErr t => Sys2Proof.Machine.execMvbPortReceived ifc port data lineB checkErr t s
  | .mvbMessageReceived ifc src dst data t => Sys2Proof.Machine.execMvbMessageReceived ifc src dst data t s
  | .canFrameReceived ifc f t => Sys2Proof.Machine.execCanFrameReceived ifc f t s
  | .serByteReceived ifc b err t => Sys2Proof.Machine.execSerByteReceived ifc b err t s
  | .serPackTimeout window => Sys2Proof.Machine.execSerPackTimeout window s
  | .serFrameEnd ifc t => Sys2Proof.Machine.execSerFrameEnd ifc t s
  | .canBusOff ifc t => Sys2Proof.Machine.execCanBusOff ifc t s
  | .canRestartHoldExpiry ifc t => Sys2Proof.Machine.execCanRestartHoldExpiry ifc t s
  | .bridgeReadTimeout window t => Sys2Proof.Machine.execBridgeReadTimeout window t s
  | .lockLimitExpiry group => Sys2Proof.Machine.execLockLimitExpiry group s
  | .brWindowWrite ctx sub v => Sys2Proof.Machine.execBrWindowWrite ctx sub v s
  | .diRawChange ch level t => Sys2Proof.Machine.execDiRawChange ch level t s
  | .diEdgeConfirmed ch t => Sys2Proof.Machine.execDiEdgeConfirmed ch t s
  | .wireBreakTimer ch mv t => Sys2Proof.Machine.execWireBreakTimer ch mv t s
  | .comparatorTest ch pass t => Sys2Proof.Machine.execComparatorTest ch pass t s
  | .fieldConfigReceived die hub seq t => Sys2Proof.Machine.execFieldConfigReceived die hub seq t s
  | .outputCommandReceived die hub cmd t => Sys2Proof.Machine.execOutputCommandReceived die hub cmd t s
  | .holdCommandReceived die hub seq t => Sys2Proof.Machine.execHoldCommandReceived die hub seq t s
  | .safeStateCommandReceived die hub seq t => Sys2Proof.Machine.execSafeStateCommandReceived die hub seq t s
  | .logicSilentTimeout die t => Sys2Proof.Machine.execLogicSilentTimeout die t s
  | .doOverloadTrip ch thermal ma t => Sys2Proof.Machine.execDoOverloadTrip ch thermal ma t s
  | .doReset ctx => Sys2Proof.Machine.execDoReset ctx s
  | .readbackMismatch ch high t => Sys2Proof.Machine.execReadbackMismatch ch high t s
  | .openLoadDetect ch ma t => Sys2Proof.Machine.execOpenLoadDetect ch ma t s
  | .doSafeStateWrite ctx v => Sys2Proof.Machine.execDoSafeStateWrite ctx v s
  | .evaluatorCycle t => Sys2Proof.Machine.execEvaluatorCycle t s
  | .discrepancyTimeout inst t => Sys2Proof.Machine.execDiscrepancyTimeout inst t s
  | .crossDisagreementTimeout inst t => Sys2Proof.Machine.execCrossDisagreementTimeout inst t s
  | .syncTimeout inst t => Sys2Proof.Machine.execSyncTimeout inst t s
  | .heldLimitExpiry inst t => Sys2Proof.Machine.execHeldLimitExpiry inst t s
  | .commandInactiveTimer inst t => Sys2Proof.Machine.execCommandInactiveTimer inst t s
  | .outputTest ch pass t => Sys2Proof.Machine.execOutputTest ch pass t s
  | .cutoffTest ch pass t => Sys2Proof.Machine.execCutoffTest ch pass t s
  | .safEditOpen ctx => Sys2Proof.Machine.execSafEditOpen ctx s
  | .safEditDiscard ctx => Sys2Proof.Machine.execSafEditDiscard ctx s
  | .safParamWrite ctx index sub v => Sys2Proof.Machine.execSafParamWrite ctx index sub v s
  | .safTypeWrite ctx v => Sys2Proof.Machine.execSafTypeWrite ctx v s
  | .safCommit ctx v => Sys2Proof.Machine.execSafCommit ctx v s
  | .aiOutput ch raw t => Sys2Proof.Machine.execAiOutput ch raw t s
  | .modulatorLossStart ch t => Sys2Proof.Machine.execModulatorLossStart ch t s
  | .modulatorLossEnd ch t => Sys2Proof.Machine.execModulatorLossEnd ch t s
  | .modulatorFault ch t => Sys2Proof.Machine.execModulatorFault ch t s
  | .burdenOpen ch t => Sys2Proof.Machine.execBurdenOpen ch t s
  | .burdenClose ch t => Sys2Proof.Machine.execBurdenClose ch t s
  | .recordReceived hub => Sys2Proof.Machine.execRecordReceived hub s
  | .suppressionRunEnd origin source code t => Sys2Proof.Machine.execSuppressionRunEnd origin source code t s
  | .bufferAgeFlush hub t => Sys2Proof.Machine.execBufferAgeFlush hub t s
  | .operatingSecondTick => Sys2Proof.Machine.execOperatingSecondTick s
  | .mramWriteError hub addr t => Sys2Proof.Machine.execMramWriteError hub addr t s
  | .recFreezeOn ctx => Sys2Proof.Machine.execRecFreezeOn ctx s
  | .recFreezeOff ctx => Sys2Proof.Machine.execRecFreezeOff ctx s
  | .freezeExpiry t => Sys2Proof.Machine.execFreezeExpiry t s
  | .recClear ctx password => Sys2Proof.Machine.execRecClear ctx password s
  | .recWindowRead ctx reqId => Sys2Proof.Machine.execRecWindowRead ctx reqId s
  | .migrationPageWrite hub t => Sys2Proof.Machine.execMigrationPageWrite hub t s
  | .yardWriteComplete hub t => Sys2Proof.Machine.execYardWriteComplete hub t s
  | .yardHeaderWrite hub t => Sys2Proof.Machine.execYardHeaderWrite hub t s
  | .yardCommandError hub status timeout t => Sys2Proof.Machine.execYardCommandError hub status timeout t s
  | .yardHealthPoll hub health t => Sys2Proof.Machine.execYardHealthPoll hub health t s
  | .yardFormat ctx v => Sys2Proof.Machine.execYardFormat ctx v s
  | .chunk pkg part block chunk crc data t => Sys2Proof.Machine.execChunk pkg part block chunk crc data t s
  | .chunkStaleTimeout t => Sys2Proof.Machine.execChunkStaleTimeout t s
  | .packageExpiry pkg => Sys2Proof.Machine.execPackageExpiry pkg s
  | .updOpen ctx v => Sys2Proof.Machine.execUpdOpen ctx v s
  | .updAbort ctx => Sys2Proof.Machine.execUpdAbort ctx s
  | .updActivateArm ctx v => Sys2Proof.Machine.execUpdActivateArm ctx v s
  | .updActivateDisarm ctx => Sys2Proof.Machine.execUpdActivateDisarm ctx s
  | .updFallback ctx => Sys2Proof.Machine.execUpdFallback ctx s
  | .loftDelete ctx v => Sys2Proof.Machine.execLoftDelete ctx v s
  | .setReset ctx => Sys2Proof.Machine.execSetReset ctx s
  | .settingsPartWrite key torn => Sys2Proof.Machine.execSettingsPartWrite key torn s
  | .trRootLoad ctx v => Sys2Proof.Machine.execTrRootLoad ctx v s
  | .trCaLoad ctx v => Sys2Proof.Machine.execTrCaLoad ctx v s
  | .trRootClear ctx v => Sys2Proof.Machine.execTrRootClear ctx v s
  | .trCaClear ctx v => Sys2Proof.Machine.execTrCaClear ctx v s
  | .trLockMaskWrite ctx v => Sys2Proof.Machine.execTrLockMaskWrite ctx v s
  | .pwdSet ctx sub password => Sys2Proof.Machine.execPwdSet ctx sub password s
  | .passwordDerivationDone ctx t => Sys2Proof.Machine.execPasswordDerivationDone ctx t s
  | .lockoutExpiry role t => Sys2Proof.Machine.execLockoutExpiry role t s
  | .pcCtrlWrite ctx core ctr v => Sys2Proof.Machine.execPcCtrlWrite ctx core ctr v s
  | .pcClear ctx => Sys2Proof.Machine.execPcClear ctx s
  | .pcSnapCmd ctx => Sys2Proof.Machine.execPcSnapCmd ctx s
  | .pcSampleKWrite ctx core v => Sys2Proof.Machine.execPcSampleKWrite ctx core v s
  | .pcLatArm ctx => Sys2Proof.Machine.execPcLatArm ctx s
  | .supplyGood t => Sys2Proof.Machine.execSupplyGood t s
  | .moduleStart rep => Sys2Proof.Machine.execModuleStart rep s
  | .hubAloneTimeout hub t => Sys2Proof.Machine.execHubAloneTimeout hub t s
  | .closeMarkerSilence lane t => Sys2Proof.Machine.execCloseMarkerSilence lane t s
  | .resetCmd ctx => Sys2Proof.Machine.execResetCmd ctx s
  | .hubWatchdog hub t => Sys2Proof.Machine.execHubWatchdog hub t s
  | .laneWatchdog lane t => Sys2Proof.Machine.execLaneWatchdog lane t s
  | .fieldRestart die cause t => Sys2Proof.Machine.execFieldRestart die cause t s
  | .hubRestart hub cause t => Sys2Proof.Machine.execHubRestart hub cause t s
  | .hubRejoin hub => Sys2Proof.Machine.execHubRejoin hub s
  | .recoverPress t => Sys2Proof.Machine.execRecoverPress t s
  | .recoverHold t => Sys2Proof.Machine.execRecoverHold t s
  | .recoverStuck t => Sys2Proof.Machine.execRecoverStuck t s
  | .recoverRelease t => Sys2Proof.Machine.execRecoverRelease t s
  | .recoveryPwdReset ctx => Sys2Proof.Machine.execRecoveryPwdReset ctx s
  | .powerFailWarning vin t => Sys2Proof.Machine.execPowerFailWarning vin t s
  | .holdupReady t => Sys2Proof.Machine.execHoldupReady t s
  | .holdupExhausted t => Sys2Proof.Machine.execHoldupExhausted t s
  | .powerRestored t => Sys2Proof.Machine.execPowerRestored t s
  | .holdupMeasure ms10 t => Sys2Proof.Machine.execHoldupMeasure ms10 t s
  | .laneHardwareError lane core t => Sys2Proof.Machine.execLaneHardwareError lane core t s
  | .consistPortLinkChange port lock los => Sys2Proof.Machine.execConsistPortLinkChange port lock los s
  | .storageLinkChange hub up found t => Sys2Proof.Machine.execStorageLinkChange hub up found t s
  | .mvbLineStateChange ifc lineA lineB onB t => Sys2Proof.Machine.execMvbLineStateChange ifc lineA lineB onB t s
  | .mvbMasterFrameReceived ifc fcode addr t => Sys2Proof.Machine.execMvbMasterFrameReceived ifc fcode addr t s
  | .mvbMasterFrameSend t => Sys2Proof.Machine.execMvbMasterFrameSend t s
  | .bridgeBusTransmitDone window t => Sys2Proof.Machine.execBridgeBusTransmitDone window t s
  | .clearSweepComplete t => Sys2Proof.Machine.execClearSweepComplete t s

end Sys2Proof.Machine
end

