-- ==== Sys2Proof/Machine/Leds.lean ====
section
/-!
DEFINITION. The front indicators (22 R526, Table 22-11): what each LED shows in a state, and whether it is lit at an instant.
-/

namespace Sys2Proof.Machine

/-- The LEDs of the front. -/
inductive Led where
  | run
  | fault
  | force
  | twin
  | svc
  deriving DecidableEq, Repr

/-- The colours of LEDs. -/
inductive LedColour where
  | green
  | red
  | amber
  deriving DecidableEq, Repr

/-- What an LED does in one colour: dark, lit, flashing at some Hz, or lit but for 0.2 s in every 2 s. -/
inductive LedPattern where
  | off
  | on
  | flash (hz : Nat)
  | winks
  deriving DecidableEq, Repr

/-- The colours that an LED has. -/
def ledColours (l : Led) : List LedColour :=
  match l with
  | .run | .svc => [.green]
  | .fault => [.red]
  | .force => [.amber]
  | .twin => [.green, .red]

/-- The lowest row of an LED that applies; the first one otherwise. -/
def lowestRow (rows : List (Bool × LedColour × LedPattern)) (first : LedColour × LedPattern) : LedColour × LedPattern :=
  ((rows.filter (·.1)).getLast?.map Prod.snd).getD first

/-- RUN: off until S5, then the start, the mode and recovery. -/
def ledRun (s : State) : LedColour × LedPattern :=
  let on := s.supply.supplyGood
  let runs := s.cyc.running && s.st.phase = 10
  lowestRow
    [(on && ((5 ≤ s.st.phase && s.st.phase ≤ 9) || s.st.heldIn || (s.st.phase = 10 && s.sup.mode = 2)), .green, .flash 1),
     (on && runs && s.sup.mode = 1, .green, .on),
     (on && runs && s.sup.mode = 3, .green, .winks),
     (on && s.st.recovery, .green, .flash 4)] (.green, .off)

/-- Is a part of the module out of service that the FAULT LED tells of? -/
def ledImpaired (s : State) : Bool :=
  (laneSet s).length = 2
    || [0, 1].any (fun h => !(getHub s h).voter.inService || (getHub s h).failed || (getHub s h).restarting)
    || [0, 1].any (fun d => (vget s.field.dies d {}).failed)
    || [0, 1].any (fun h => (vget s.recd.yards h {}).state = 5)
    || (s.supply.measured && s.supply.holdupMs < 100)

/-- FAULT. -/
def ledFault (s : State) : LedColour × LedPattern :=
  lowestRow [(ledImpaired s, .red, .flash 1), (s.st.fatal || s.st.heldIn, .red, .on)] (.red, .off)

/-- FORCE: on while FORCE_COUNT is above 0. -/
def ledForce (s : State) : LedColour × LedPattern := (.amber, if 0 < forceCount s then .on else .off)

/-- TWIN: the lease state and mode (12 Tables 12-3 and 12-4). -/
def ledTwin (s : State) : LedColour × LedPattern :=
  lowestRow
    [(s.twin.lease = 1 || s.twin.lease = 2, .green, .flash 1),
     (holdsLease s, .green, .on),
     (s.twin.mode = 3, .red, .flash 1),
     (s.twin.lease = 5, .red, .on)] (.green, .off)

/-- SVC: the service-port session, a transfer, and a RECOVER press that counts. -/
def ledSvc (s : State) : LedColour × LedPattern :=
  lowestRow
    [((nget? s.con.sessions svcSession).isSome, .green, .on),
     (bit (arbActive s) 0, .green, .flash 1),
     (s.st.pressAt.isSome && s.st.pressIn && !s.st.ignorePress, .green, .flash 4)] (.green, .off)

/-- What an LED shows, its lamp test apart. -/
def ledShows (s : State) (l : Led) : LedColour × LedPattern :=
  match l with
  | .run => ledRun s
  | .fault => ledFault s
  | .force => ledForce s
  | .twin => ledTwin s
  | .svc => ledSvc s

/-- Is a pattern lit at an instant in ns: a flash for half of each period? The phase of a period is not stated (log 148). -/
def patternLit (p : LedPattern) (t : Nat) : Bool :=
  match p with
  | .off => false
  | .on => true
  | .flash hz => t % (1000000000 / hz) < 1000000000 / hz / 2
  | .winks => t % 2000000000 < 1800000000

/-- Is the lamp test on, `t` ns after phase S1 began: every LED in each of its colours for 0.5 s? -/
def lampTest (s : State) (t : Nat) : Bool := s.st.phase = 1 && t < 500000000

/-- Is an LED lit in a colour, `t` ns after phase S1 began (R526)? -/
def ledLit (s : State) (l : Led) (c : LedColour) (t : Nat) : Bool :=
  if lampTest s t then (ledColours l).contains c else (ledShows s l).1 = c && patternLit (ledShows s l).2 t

end Sys2Proof.Machine
end

