-- ==== Sys2Proof/Safety.lean ====
section
/-!
DEFINITION. What a safe run is, in the terms that the statements use: the modes that the module may be in, runs that never stop,
and the part of the state that records and counters do not reach.
-/

namespace Sys2Proof.Safe

open Sys2Proof.Machine

/-- The module is in RUN (1), STOP (2) or HOLD (3) (05 R142). -/
def modeNamed (m : Nat) : Prop := m = 1 ∨ m = 2 ∨ m = 3

/-- A mode that waits for a boundary is one that can be commanded: RUN or STOP (05 R142). -/
def pendingNamed (p : Option (Nat × Nat)) : Prop := ∀ m c, p = some (m, c) → m = 1 ∨ m = 2

/-- The modes that a supervisor state holds. -/
def supModes (u : Sup) : Prop := modeNamed u.mode ∧ pendingNamed u.modePending

/-- R142 for the live supervisor state and for the agreed generation that a rollback restores: the module is always in one of
the modes. -/
def modesNamed (s : State) : Prop := supModes s.sup ∧ supModes s.agreed

/-- A run of `k` steps that never stops and ends in a named mode. -/
def safeRun (k : Nat) (s : State) : Prop := ∃ t, Sys2Proof.core.run k s = .next t ∧ modesNamed t

/-- The state without what recording events touches: records on their way to a hub or kept at a SILENT field die, the rate
limits of records with the count REC_SUPPRESSED, and the model's own counter of free values. -/
def bare (s : State) : State :=
  { s with
    hubs := s.hubs.map (fun d => { d with inflight := [] })
    field.dies := s.field.dies.map (fun d => { d with kept := [] })
    recd.buckets := []
    sup.buckets := []
    cnt := nset s.cnt (ekey E.recSuppressed.idx E.recSuppressed.sub 0) 0
    st.freeCount := 0 }

/-- State `t` is state `u` but for events that have been recorded. -/
def noted (u t : State) : Prop := bare t = bare u

/-- Hub `h` has a record with this event code on its way (17 R420). -/
def onWay (s : State) (h code : Nat) : Prop := ∃ r ∈ (getHub s h).inflight, r.code = code

/-- Records of this code wait at some die behind a rate limit (17 R423). -/
def suppressing (s : State) (code : Nat) : Prop :=
  ∃ p ∈ s.sup.buckets ++ s.recd.buckets, p.1 % 65536 = code ∧ p.2.run.isSome = true

/-- An event of an originating die (0 the lanes, 1 HA, 2 HB, 3 FX, 4 FY) has been recorded: a record of it is on its way to every
hub in operation that hears the die, or is suppressed by its rate limit (17 R420 to R423; 01 R12). -/
def recordedFrom (s : State) (origin code : Nat) : Prop :=
  (∀ h, h < 2 → hubUp s h = true → hears s origin h = true → onWay s h code) ∨ suppressing s code

/-- An event of the lanes or of a hub has been recorded. -/
def recorded (s : State) (code : Nat) : Prop := ∃ origin, origin < 3 ∧ recordedFrom s origin code

/-- A field die's own event has been recorded, or is kept by it while it is SILENT, as one of at most 16 (14 R369). -/
def recordedBy (s : State) (die code : Nat) : Prop :=
  if (getDie s die).silent = true then
    (∃ r ∈ (getDie s die).kept, r.code = code) ∨ 16 ≤ (getDie s die).kept.length
  else recordedFrom s (3 + die) code

/-- What only a few commands write: the mode and the commanded mode, live and agreed, the queue of commands, and the number,
agreement and end of the crossing. -/
def keyView (s : State) : (Nat × Option (Nat × Nat)) × (Nat × Option (Nat × Nat)) × List Instr × Nat × Option Nat × Option Nat :=
  ((s.sup.mode, s.sup.modePending), (s.agreed.mode, s.agreed.modePending), s.pending, s.cyc.k, s.cyc.agreedK, s.cyc.endDone)

end Sys2Proof.Safe
end

