-- ==== Sys2Proof/Certificates/Slice0/Obligations.lean ====
section
/-!
DEFINITION. The statements for the provers. `Claims` holds their vocabulary and one clause per command or group of commands;
each `Obligations.<Name>` joins the clauses of one family. A clause names its hypotheses on the state and the operands
alone, and concludes that the command answers a next state with the effect that the cited rule gives.
-/

namespace Sys2Proof.Claims

open Sys2Proof.Machine Sys2Proof.Safe

/-! ## Stallcode: vocabulary (03) -/

/-- Core `core` runs stall `i`, the pc lies in its CODE (R54), and its fuel covers a charge (R63). -/
def ready (s : State) (core : CoreIx) (i : Nat) (st : Stall) (charge : Nat) : Prop :=
  running? s core = some (i, st) ∧ canFetch st.desc st.exec.pc = true ∧ charge ≤ st.exec.fuel

/-- Nothing changes but the named stall, the performance counters and the model's counter of free values. -/
def stallOnly (s t : State) (i : Nat) : Prop :=
  t = { s with sup.stalls := t.sup.stalls, perf := t.perf, st.freeCount := t.st.freeCount } ∧
    ∀ j, j ≠ i → getStall? t j = getStall? s j

/-- The instruction has retired (R54, R62): of the stall's data, the execution state is `x` with the pc, the fuel less the
charge, and BIP clear; nothing else changes. -/
def retired (s t : State) (i : Nat) (st : Stall) (x : Exec) (pc : Word) (charge : Nat) : Prop :=
  getStall? t i = some { st with
    exec := { x with pc := pc, fuel := st.exec.fuel - charge, sw := x.sw &&& ~~~ BitVec.ofNat 64 (2 ^ 22) } } ∧
  stallOnly s t i

/-- An exception can be entered (R113): 4 units of fuel, EXL clear, a handler, and 64 bytes of declared STACK below g31. -/
def canEnter (st : Stall) (x : Exec) : Prop :=
  4 ≤ x.fuel ∧ x.sw.getLsbD 23 = false ∧ st.desc.handlerPc ≠ 0 ∧ 64 ≤ (rget x 31).toNat ∧
    frameOk st.desc ((rget x 31).toNat - 64) = true

/-- The execution state in the handler (R113, 04 Table 04-8): the frame of 64 bytes below the old g31, g31 at the frame, EXL
set, BIP clear, the pc at the handler, 4 units charged, one exception more. -/
def inHandler (st : Stall) (x : Exec) (p fa : Word) (cause detail : Nat) : Exec :=
  let a := (rget x 31).toNat - 64
  { x with
    mem := mputs x.mem a (frameBytes
      { pc := p, sw := x.sw, cause := causeField cause detail 0 0, fa := fa, fuel := BitVec.ofNat 64 x.fuel,
        g1 := rget x 1, g2 := rget x 2, g3 := rget x 3 })
    regs := x.regs.set 31 (BitVec.ofNat 64 a)
    sw := (x.sw ||| BitVec.ofNat 64 (2 ^ 23)) &&& ~~~ BitVec.ofNat 64 (2 ^ 22)
    pc := st.desc.handlerPc
    fuel := x.fuel - 4
    exceptions := x.exceptions + 1 }

/-- The stall has entered its handler from state `x`; nothing else changes. -/
def entered (s t : State) (i : Nat) (st : Stall) (x : Exec) (p fa : Word) (cause detail : Nat) : Prop :=
  getStall? t i = some { st with exec := inHandler st x p fa cause detail } ∧ stallOnly s t i

/-! ## Integer instructions (03 Tables 03-5 and 03-6, R69) -/

/-- A register instruction writes `f ra rb rd` to rd, where a write to g0 is discarded (R53), and retires to pc + 4 for 1
unit of fuel. -/
def regRule (mk : CoreIx → Reg → Reg → Reg → Instr) (f : Word → Word → Word → Word) : Prop :=
  ∀ (s : State) (core : CoreIx) (rd ra rb : Reg) (i : Nat) (st : Stall), ready s core i st 1 →
    ∃ t, exec (mk core rd ra rb) s = .next t ∧
      retired s t i st (rset st.exec rd (f (rget st.exec ra) (rget st.exec rb) (rget st.exec rd))) (st.exec.pc + 4) 1

/-- A one-source register instruction writes `f ra` to rd. -/
def unaryRule (mk : CoreIx → Reg → Reg → Instr) (f : Word → Word) : Prop :=
  ∀ (s : State) (core : CoreIx) (rd ra : Reg) (i : Nat) (st : Stall), ready s core i st 1 →
    ∃ t, exec (mk core rd ra) s = .next t ∧
      retired s t i st (rset st.exec rd (f (rget st.exec ra))) (st.exec.pc + 4) 1

/-- An immediate instruction writes `f ra imm` to rd. -/
def immRule {n : Nat} (mk : CoreIx → Reg → Reg → BitVec n → Instr) (f : Word → BitVec n → Word) : Prop :=
  ∀ (s : State) (core : CoreIx) (rd ra : Reg) (imm : BitVec n) (i : Nat) (st : Stall), ready s core i st 1 →
    ∃ t, exec (mk core rd ra imm) s = .next t ∧
      retired s t i st (rset st.exec rd (f (rget st.exec ra) imm)) (st.exec.pc + 4) 1

/-- LUI: rd takes the sign-extended 32-bit value whose upper half is the immediate. -/
def luiRule : Prop :=
  ∀ (s : State) (core : CoreIx) (rd : Reg) (imm : BitVec 16) (i : Nat) (st : Stall), ready s core i st 1 →
    ∃ t, exec (.lui core rd imm) s = .next t ∧
      retired s t i st (rset st.exec rd ((imm.signExtend 64) <<< 16)) (st.exec.pc + 4) 1

/-- A division by a register that is not 0 writes `f ra rb` to rd; by 0 it enters the handler with cause DIV and fault
address 0, rd unchanged (R69). -/
def divRule (mk : CoreIx → Reg → Reg → Reg → Instr) (f : Word → Word → Word) : Prop :=
  ∀ (s : State) (core : CoreIx) (rd ra rb : Reg) (i : Nat) (st : Stall), ready s core i st 1 →
    (rget st.exec rb ≠ 0 → ∃ t, exec (mk core rd ra rb) s = .next t ∧
      retired s t i st (rset st.exec rd (f (rget st.exec ra) (rget st.exec rb))) (st.exec.pc + 4) 1) ∧
    (rget st.exec rb = 0 → canEnter st st.exec → ∃ t, exec (mk core rd ra rb) s = .next t ∧
      entered s t i st st.exec st.exec.pc 0 4 0)

/-- The number of bits of `w` from bit 63 down before the first 1. -/
def leadingZeros (w : Word) : Nat := ((List.range 64).takeWhile (fun k => !(w.getLsbD (63 - k)))).length

/-- The number of bits of `w` from bit 0 up before the first 1. -/
def trailingZeros (w : Word) : Nat := ((List.range 64).takeWhile (fun k => !(w.getLsbD k))).length

/-- The number of bits of `w` that are 1. -/
def onesOf (w : Word) : Nat := ((List.range 64).filter (fun k => w.getLsbD k)).length

/-- The eight bytes of `w` in the opposite order. -/
def bytesReversed (w : Word) : Word :=
  w.extractLsb' 0 8 ++ w.extractLsb' 8 8 ++ w.extractLsb' 16 8 ++ w.extractLsb' 24 8 ++ w.extractLsb' 32 8 ++
    w.extractLsb' 40 8 ++ w.extractLsb' 48 8 ++ w.extractLsb' 56 8

/-- 1 or 0. -/
def flag (p : Bool) : Word := if p then 1 else 0

/-! ## Branches and jumps (R68) -/

/-- A conditional branch goes to pc + 4 x off where the condition holds and to pc + 4 where it does not. -/
def branchRule (mk : CoreIx → Reg → Reg → BitVec 16 → Instr) (p : Word → Word → Bool) : Prop :=
  ∀ (s : State) (core : CoreIx) (ra rb : Reg) (off : BitVec 16) (i : Nat) (st : Stall), ready s core i st 1 →
    ∃ t, exec (mk core ra rb off) s = .next t ∧
      retired s t i st st.exec
        (if p (rget st.exec ra) (rget st.exec rb) then st.exec.pc + 4 * off.signExtend 64 else st.exec.pc + 4) 1

/-- JMP goes to pc + 4 x off26. -/
def jmpRule : Prop :=
  ∀ (s : State) (core : CoreIx) (off : BitVec 26) (i : Nat) (st : Stall), ready s core i st 1 →
    ∃ t, exec (.jmp core off) s = .next t ∧ retired s t i st st.exec (st.exec.pc + 4 * off.signExtend 64) 1

/-- CALL writes pc + 4 to g30 and goes to pc + 4 x off26. -/
def callRule : Prop :=
  ∀ (s : State) (core : CoreIx) (off : BitVec 26) (i : Nat) (st : Stall), ready s core i st 1 →
    ∃ t, exec (.call core off) s = .next t ∧
      retired s t i st (rset st.exec 30 (st.exec.pc + 4)) (st.exec.pc + 4 * off.signExtend 64) 1

/-- JALR writes pc + 4 to rd and goes to ra + imm; a target that is not a multiple of 4 raises ALN at the JALR. -/
def jalrRule : Prop :=
  ∀ (s : State) (core : CoreIx) (rd ra : Reg) (imm : BitVec 16) (i : Nat) (st : Stall), ready s core i st 1 →
    ((rget st.exec ra + imm.signExtend 64).toNat % 4 = 0 → ∃ t, exec (.jalr core rd ra imm) s = .next t ∧
      retired s t i st (rset st.exec rd (st.exec.pc + 4)) (rget st.exec ra + imm.signExtend 64) 1) ∧
    ((rget st.exec ra + imm.signExtend 64).toNat % 4 ≠ 0 → canEnter st st.exec →
      ∃ t, exec (.jalr core rd ra imm) s = .next t ∧
        entered s t i st st.exec st.exec.pc (rget st.exec ra + imm.signExtend 64) 2 3)

/-- An instruction whose pc lies outside CODE is not run: the fetch raises ACC with the frame pc and the fault address at the
pc (R68). Stated of one representative of each format. -/
def fetchRule (c : CoreIx → Instr) : Prop :=
  ∀ (s : State) (core : CoreIx) (i : Nat) (st : Stall), running? s core = some (i, st) →
    canFetch st.desc st.exec.pc = false → canEnter st st.exec →
    ∃ t, exec (c core) s = .next t ∧ entered s t i st st.exec st.exec.pc st.exec.pc 3 3

/-! ## Loads and stores (R66) -/

/-- Every byte of an access lies where the stall may read it, outside DICTWIN, and the address is a multiple of the size. -/
def loadable (st : Stall) (ea : Word) (n : Nat) : Prop :=
  ea.toNat % n = 0 ∧ inDictwin ea.toNat = false ∧ ∀ j, j < n → canRead st.desc ((ea.toNat + j) % 2 ^ 64) = true

/-- Every byte of an access lies where the stall may write it, outside DICTWIN, and the address is a multiple of the size. -/
def storable (st : Stall) (ea : Word) (n : Nat) : Prop :=
  ea.toNat % n = 0 ∧ inDictwin ea.toNat = false ∧ ∀ j, j < n → canWrite st.desc ((ea.toNat + j) % 2 ^ 64) = true

/-- A load of `n` bytes takes the bytes at ra + disp, least significant first, extended by `ext`; a misaligned address
raises ALN with the address as the fault address and rt unchanged. -/
def loadRule (mk : CoreIx → Reg → Reg → BitVec 16 → Instr) (n : Nat) (ext : Nat → Word) : Prop :=
  ∀ (s : State) (core : CoreIx) (rt ra : Reg) (disp : BitVec 16) (i : Nat) (st : Stall), ready s core i st 1 →
    (loadable st (rget st.exec ra + disp.signExtend 64) n → ∃ t, exec (mk core rt ra disp) s = .next t ∧
      retired s t i st
        (rset st.exec rt (ext (leNat ((List.range n).map (fun j =>
          mget st.exec.mem ((rget st.exec ra + disp.signExtend 64).toNat + j))))))
        (st.exec.pc + 4) 1) ∧
    ((rget st.exec ra + disp.signExtend 64).toNat % n ≠ 0 → canEnter st st.exec →
      ∃ t, exec (mk core rt ra disp) s = .next t ∧
        entered s t i st st.exec st.exec.pc (rget st.exec ra + disp.signExtend 64) 2 1)

/-- A load from a mapped DICTWIN slot, whole or from an offset inside the entry, takes the value that the activation
reads there (R48 to R50); from a slot that is not mapped it raises ACC (R49). -/
def dictLoadRule (mk : CoreIx → Reg → Reg → BitVec 16 → Instr) (n : Nat) (ext : Nat → Word) : Prop :=
  ∀ (s : State) (core : CoreIx) (rt ra : Reg) (disp : BitVec 16) (i : Nat) (st : Stall) (slot off : Nat),
    ready s core i st 1 →
    (rget st.exec ra + disp.signExtend 64).toNat = 0x80000000 + 8 * slot + off → off < 8 → off % n = 0 → 1 ≤ slot →
    slot < 8192 →
    (∀ m e, slotItem s st slot = some (m, e) → off + n ≤ natSize e →
      ∃ t, exec (mk core rt ra disp) s = .next t ∧
        retired s t i st (rset st.exec rt (ext (slotValue st slot / 256 ^ off % 256 ^ n))) (st.exec.pc + 4) 1) ∧
    (slotItem s st slot = none → canEnter st st.exec →
      ∃ t, exec (mk core rt ra disp) s = .next t ∧
        entered s t i st st.exec st.exec.pc (rget st.exec ra + disp.signExtend 64) 3 4)

/-- A store of `n` bytes puts the low bytes of rt at ra + disp, least significant first; the memory at every other address
reads as before. -/
def storeRule (mk : CoreIx → Reg → Reg → BitVec 16 → Instr) (n : Nat) : Prop :=
  ∀ (s : State) (core : CoreIx) (rt ra : Reg) (disp : BitVec 16) (i : Nat) (st : Stall), ready s core i st 1 →
    Mem.wf st.exec.mem = true → storable st (rget st.exec ra + disp.signExtend 64) n →
    ∃ t mem, exec (mk core rt ra disp) s = .next t ∧ retired s t i st { st.exec with mem := mem } (st.exec.pc + 4) 1 ∧
      Mem.wf mem = true ∧
      ∀ a, mget mem a =
        if (rget st.exec ra + disp.signExtend 64).toNat ≤ a ∧ a < (rget st.exec ra + disp.signExtend 64).toNat + n then
          (rget st.exec rt).extractLsb' (8 * (a - (rget st.exec ra + disp.signExtend 64).toNat)) 8
        else mget st.exec.mem a

/-- A store of an entry's whole size to its writable DICTWIN slot is kept for the boundary: the activation reads it back and
memory does not change (R49, R50). -/
def dictStoreRule (mk : CoreIx → Reg → Reg → BitVec 16 → Instr) (n : Nat) : Prop :=
  ∀ (s : State) (core : CoreIx) (rt ra : Reg) (disp : BitVec 16) (i : Nat) (st : Stall) (slot : Nat) (m : MapItem) (e : Entry),
    ready s core i st 1 →
    (rget st.exec ra + disp.signExtend 64).toNat = 0x80000000 + 8 * slot → 1 ≤ slot → slot < 8192 →
    slotItem s st slot = some (m, e) → natSize e = n → m.write = true →
    ∃ t st', exec (mk core rt ra disp) s = .next t ∧ getStall? t i = some st' ∧
      slotValue st' slot = (rget st.exec rt).toNat % 256 ^ n ∧ m.slot ∈ st'.dwOrder ∧
      st'.exec.mem = st.exec.mem ∧ st'.exec.regs = st.exec.regs ∧ st'.exec.pc = st.exec.pc + 4 ∧
      st'.exec.fuel = st.exec.fuel - 1 ∧ stallOnly s t i

/-! ## Binary64 (R70 to R74) -/

/-- The traps that flags raise: flag bits [4:0] whose enable, status-word bits [12:8], is set (R72). -/
def trapsOf (sw : Word) (fl : Nat) : Nat := (sw.toNat / 256 % 32) &&& fl

/-- A binary64 instruction whose value and flags are `r`: with no enabled trap among the flags, they are ORed into the status
word and rd takes the value; otherwise the flags are set, rd is unchanged and FPT is raised with the trapping flags as detail. -/
def fpRule (c : CoreIx → Reg → Instr) (r : Exec → Reg → Word × Nat) : Prop :=
  ∀ (s : State) (core : CoreIx) (rd : Reg) (i : Nat) (st : Stall), ready s core i st 1 →
    (trapsOf st.exec.sw (r st.exec rd).2 = 0 → ∃ t, exec (c core rd) s = .next t ∧
      retired s t i st
        (rset { st.exec with sw := st.exec.sw ||| BitVec.ofNat 64 (r st.exec rd).2 } rd (r st.exec rd).1) (st.exec.pc + 4) 1) ∧
    (trapsOf st.exec.sw (r st.exec rd).2 ≠ 0 →
      canEnter st { st.exec with sw := st.exec.sw ||| BitVec.ofNat 64 (r st.exec rd).2 } → ∃ t, exec (c core rd) s = .next t ∧
      entered s t i st { st.exec with sw := st.exec.sw ||| BitVec.ofNat 64 (r st.exec rd).2 } st.exec.pc 0 5
        (trapsOf st.exec.sw (r st.exec rd).2))

/-- A comparison's result as a register value. -/
def asWord (r : Bool × Nat) : Word × Nat := (flag r.1, r.2)

/-! ## Status word, fuel, exceptions (R55, R57, R87, R88) -/

/-- RDSW: rd takes the status word. -/
def rdswRule : Prop :=
  ∀ (s : State) (core : CoreIx) (rd : Reg) (i : Nat) (st : Stall), ready s core i st 1 →
    ∃ t, exec (.rdsw core rd) s = .next t ∧ retired s t i st (rset st.exec rd st.exec.sw) (st.exec.pc + 4) 1

/-- WRSW: bits [12:8] and [4:0] of the status word take those of ra, every other bit stays (BIP is cleared by the retirement),
and no exception is raised whatever flags and enables it leaves. -/
def wrswRule : Prop :=
  ∀ (s : State) (core : CoreIx) (ra : Reg) (i : Nat) (st : Stall), ready s core i st 1 →
    ∃ t x, exec (.wrsw core ra) s = .next t ∧ retired s t i st x (st.exec.pc + 4) 1 ∧
      x = { st.exec with sw := x.sw } ∧
      ∀ b, b < 64 → x.sw.getLsbD b =
        if b ≤ 4 ∨ 8 ≤ b ∧ b ≤ 12 then (rget st.exec ra).getLsbD b else st.exec.sw.getLsbD b

/-- RDFUEL: rd takes the fuel that remains after its own charge. -/
def rdfuelRule : Prop :=
  ∀ (s : State) (core : CoreIx) (rd : Reg) (i : Nat) (st : Stall), ready s core i st 1 →
    ∃ t, exec (.rdfuel core rd) s = .next t ∧
      retired s t i st (rset st.exec rd (BitVec.ofNat 64 (st.exec.fuel - 1))) (st.exec.pc + 4) 1

/-- BRK raises a breakpoint whose frame pc is its own address. -/
def brkRule : Prop :=
  ∀ (s : State) (core : CoreIx) (i : Nat) (st : Stall), ready s core i st 0 → canEnter st st.exec →
    ∃ t, exec (.brk core) s = .next t ∧ entered s t i st st.exec st.exec.pc 0 6 0

/-- An illegal word raises ILL at its own address. -/
def illegalRule : Prop :=
  ∀ (s : State) (core : CoreIx) (w : BitVec 32) (i : Nat) (st : Stall), legalWord w = false → ready s core i st 1 →
    canEnter st st.exec →
    ∃ t, exec (.illegalInstruction core w) s = .next t ∧ entered s t i st st.exec st.exec.pc 0 1 0

/-- ERET with EXL set and a frame of 64 bytes in STACK at g31 restores pc, g1, g2, g3 and the status word's bits [22], [12:8] and
[4:0] from the frame, clears every other bit of the status word, and frees the frame; with EXL clear it raises ILL. -/
def eretRule : Prop :=
  ∀ (s : State) (core : CoreIx) (i : Nat) (st : Stall), ready s core i st 1 →
    (st.exec.sw.getLsbD 23 = true → frameOk st.desc (rget st.exec 31).toNat = true →
      ∃ t x, exec (.eret core) s = .next t ∧
        (let w := fun off => BitVec.ofNat 64 (mread st.exec.mem ((rget st.exec 31).toNat + off) 8)
         getStall? t i = some { st with exec := { x with fuel := st.exec.fuel - 1 } } ∧ stallOnly s t i ∧
           x.pc = w 0 ∧ rget x 1 = w 40 ∧ rget x 2 = w 48 ∧ rget x 3 = w 56 ∧
           rget x 31 = rget st.exec 31 + 64 ∧ x.mem = st.exec.mem ∧
           (∀ r : Reg, r ≠ 1 → r ≠ 2 → r ≠ 3 → r ≠ 31 → rget x r = rget st.exec r) ∧
           ∀ b, b < 64 → x.sw.getLsbD b = if b ≤ 4 ∨ 8 ≤ b ∧ b ≤ 12 ∨ b = 22 then (w 8).getLsbD b else false)) ∧
    (st.exec.sw.getLsbD 23 = false → canEnter st st.exec →
      ∃ t, exec (.eret core) s = .next t ∧ entered s t i st st.exec st.exec.pc 0 1 0)

/-! ## Block instructions (R75 to R82) -/

/-- Number of granules of `n` bytes. -/
def granules (n : Nat) : Nat := (n + 63) / 64

/-- A block instruction has run to its end over `n` bytes: the progress registers stand at the end, a unit of fuel is charged per
granule and one at retirement, and everything else of the execution state but registers and memory, which are those of `x`, stays. -/
def blockDone (s t : State) (i : Nat) (st : Stall) (x : Exec) (n : Nat) : Prop :=
  getStall? t i = some { st with
    exec := { x with pc := st.exec.pc + 4, fuel := st.exec.fuel - (granules n + 1),
                     sw := st.exec.sw &&& ~~~ BitVec.ofNat 64 (2 ^ 22) } } ∧
  x = { st.exec with regs := x.regs, mem := x.mem } ∧ stallOnly s t i

/-- The memory after BCOPY (R79): granule by granule in ascending order, each source granule read as it stands when its granule
runs. The first argument bounds the granules. -/
def copied : Nat → Mem → Nat → Nat → Nat → Mem
  | 0, m, _, _, _ => m
  | k + 1, m, dst, src, n =>
    if n = 0 then m
    else copied k (mputs m dst (mgets m src (min 64 n))) (dst + min 64 n) (src + min 64 n) (n - min 64 n)

/-- BCOPY over readable source and writable destination bytes copies g3 bytes from g2 to g1. -/
def bcopyRule : Prop :=
  ∀ (s : State) (core : CoreIx) (i : Nat) (st : Stall) (n : Nat), n = (rget st.exec 3).toNat →
    ready s core i st (granules n + 1) →
    (∀ j, j < n → canRead st.desc ((rget st.exec 2).toNat + j) = true ∧ canWrite st.desc ((rget st.exec 1).toNat + j) = true) →
    (rget st.exec 2).toNat + n < 2 ^ 64 → (rget st.exec 1).toNat + n < 2 ^ 64 →
    ∃ t x, exec (.bcopy core) s = .next t ∧ blockDone s t i st x n ∧
      x.mem = copied n st.exec.mem (rget st.exec 1).toNat (rget st.exec 2).toNat n ∧
      rget x 1 = rget st.exec 1 + rget st.exec 3 ∧ rget x 2 = rget st.exec 2 + rget st.exec 3 ∧ rget x 3 = 0 ∧
      ∀ r : Reg, 4 ≤ r.val → rget x r = rget st.exec r

/-- BFILL over writable bytes writes byte (a mod 8) of g2 at every address a of the g3 bytes from g1, and no other byte. -/
def bfillRule : Prop :=
  ∀ (s : State) (core : CoreIx) (i : Nat) (st : Stall) (n : Nat), n = (rget st.exec 3).toNat →
    ready s core i st (granules n + 1) → Mem.wf st.exec.mem = true →
    (∀ j, j < n → canWrite st.desc ((rget st.exec 1).toNat + j) = true) → (rget st.exec 1).toNat + n < 2 ^ 64 →
    ∃ t x, exec (.bfill core) s = .next t ∧ blockDone s t i st x n ∧ Mem.wf x.mem = true ∧
      (∀ a, mget x.mem a =
        if (rget st.exec 1).toNat ≤ a ∧ a < (rget st.exec 1).toNat + n then (rget st.exec 2).extractLsb' (8 * (a % 8)) 8
        else mget st.exec.mem a) ∧
      rget x 1 = rget st.exec 1 + rget st.exec 3 ∧ rget x 2 = rget st.exec 2 ∧ rget x 3 = 0 ∧
      ∀ r : Reg, 4 ≤ r.val → rget x r = rget st.exec r

/-- BCRC over readable bytes leaves in g2[31:0] the reflected CRC-32C of the g3 bytes from g1, begun at the old g2[31:0], with
g2[63:32] zero; memory does not change. -/
def bcrcRule : Prop :=
  ∀ (s : State) (core : CoreIx) (i : Nat) (st : Stall) (n : Nat), n = (rget st.exec 3).toNat →
    ready s core i st (granules n + 1) →
    (∀ j, j < n → canRead st.desc ((rget st.exec 1).toNat + j) = true) → (rget st.exec 1).toNat + n < 2 ^ 64 →
    ∃ t x, exec (.bcrc core) s = .next t ∧ blockDone s t i st x n ∧ x.mem = st.exec.mem ∧
      rget x 2 = BitVec.ofNat 64 (crcRun ((rget st.exec 2).toNat % 2 ^ 32) (mgets st.exec.mem (rget st.exec 1).toNat n)) ∧
      rget x 1 = rget st.exec 1 + rget st.exec 3 ∧ rget x 3 = 0 ∧ ∀ r : Reg, 4 ≤ r.val → rget x r = rget st.exec r

/-- BCMP (R75, R76, R82) over readable bytes, for every rd: with no difference rd takes 0 and the progress registers stand at the end;
at a difference at byte d rd takes -1 where the byte at g1 is the lower and +1 otherwise, the progress registers stand at that byte,
and the granules up to it are charged. A write to g0 is discarded (R53). Memory and every other register are unchanged. Where rd
names g1, g2 or g3 the instruction raises ILL. -/
def bcmpRule : Prop :=
  ∀ (s : State) (core : CoreIx) (rd : Reg) (i : Nat) (st : Stall) (n : Nat), n = (rget st.exec 3).toNat →
    (1 ≤ rd.val → rd.val ≤ 3 → ready s core i st 0 → canEnter st st.exec →
      ∃ t, exec (.bcmp core rd) s = .next t ∧ entered s t i st st.exec st.exec.pc 0 1 0) ∧
    ((rd.val = 0 ∨ 4 ≤ rd.val) → ready s core i st (granules n + 1) →
    (∀ j, j < n → canRead st.desc ((rget st.exec 1).toNat + j) = true ∧ canRead st.desc ((rget st.exec 2).toNat + j) = true) →
    (rget st.exec 1).toNat + n < 2 ^ 64 → (rget st.exec 2).toNat + n < 2 ^ 64 →
    ((∀ j, j < n → mget st.exec.mem ((rget st.exec 1).toNat + j) = mget st.exec.mem ((rget st.exec 2).toNat + j)) →
      ∃ t x, exec (.bcmp core rd) s = .next t ∧ blockDone s t i st x n ∧ x.mem = st.exec.mem ∧ rget x rd = 0 ∧
        rget x 1 = rget st.exec 1 + rget st.exec 3 ∧ rget x 2 = rget st.exec 2 + rget st.exec 3 ∧ rget x 3 = 0 ∧
        ∀ r : Reg, 4 ≤ r.val → r ≠ rd → rget x r = rget st.exec r) ∧
    (∀ d, d < n →
      (∀ j, j < d → mget st.exec.mem ((rget st.exec 1).toNat + j) = mget st.exec.mem ((rget st.exec 2).toNat + j)) →
      mget st.exec.mem ((rget st.exec 1).toNat + d) ≠ mget st.exec.mem ((rget st.exec 2).toNat + d) →
      ∃ t x, exec (.bcmp core rd) s = .next t ∧ blockDone s t i st x (d + 1) ∧ x.mem = st.exec.mem ∧
        (rd.val ≠ 0 → rget x rd =
          if (mget st.exec.mem ((rget st.exec 1).toNat + d)).toNat < (mget st.exec.mem ((rget st.exec 2).toNat + d)).toNat
          then -1 else 1) ∧
        rget x 1 = rget st.exec 1 + BitVec.ofNat 64 d ∧ rget x 2 = rget st.exec 2 + BitVec.ofNat 64 d ∧
        rget x 3 = rget st.exec 3 - BitVec.ofNat 64 d ∧ ∀ r : Reg, 4 ≤ r.val → r ≠ rd → rget x r = rget st.exec r))

/-- A block instruction whose first granule meets a byte that fails its check raises ACC with detail 6 and the first failing
address, with nothing done. Stated of BFILL. -/
def bfillFaultRule : Prop :=
  ∀ (s : State) (core : CoreIx) (i : Nat) (st : Stall) (d : Nat), ready s core i st 1 → canEnter st st.exec →
    d < min 64 (rget st.exec 3).toNat → (rget st.exec 1).toNat + d < 2 ^ 64 →
    (∀ j, j < d → canWrite st.desc ((rget st.exec 1).toNat + j) = true) →
    canWrite st.desc ((rget st.exec 1).toNat + d) = false →
    ∃ t, exec (.bfill core) s = .next t ∧
      entered s t i st st.exec st.exec.pc (rget st.exec 1 + BitVec.ofNat 64 d) 3 6

/-- With no fuel left for its charge, an instruction is not run: the activation ends at its address with registers, memory
and status word kept, and it is an overrun (R63, R64). Stated of ADD. -/
def fuelStopRule : Prop :=
  ∀ (s : State) (core : CoreIx) (rd ra rb : Reg) (i : Nat) (st : Stall), running? s core = some (i, st) →
    canFetch st.desc st.exec.pc = true → st.exec.fuel = 0 → s.sup.posted = [] →
    ∃ t st', exec (.add core rd ra rb) s = .next t ∧ getStall? t i = some st' ∧
      st'.exec = { st.exec with stopReason := 2 } ∧ st'.continued = true ∧ st'.state = st.state ∧
      (getRun t core).run = none

/-! ## Supervisor calls (R83 to R86, R134) -/

/-- An SVC has retired with results in g1 and g2; every other register and the memory are unchanged. With a posted request
the count and the tag of requests advance and the request waits with its tag, otherwise no request is made. -/
def svcBack (s t : State) (i : Nat) (st : Stall) (charge code : Nat) (post : Option PostedReq) : Prop :=
  getStall? t i = some { st with exec :=
      { (rset (rset st.exec 1 (BitVec.ofNat 64 code)) 2
            (match post with | none => 0 | some _ => st.exec.nextTag)) with
        pc := st.exec.pc + 4, fuel := st.exec.fuel - charge
        sw := st.exec.sw &&& ~~~ BitVec.ofNat 64 (2 ^ 22)
        nextTag := match post with
          | none => st.exec.nextTag
          | some _ => if st.exec.nextTag = 0xFFFFFFFF then 1 else st.exec.nextTag + 1
        posted := match post with | none => st.exec.posted | some _ => st.exec.posted + 1 } } ∧
  t = { s with
    sup.stalls := t.sup.stalls, perf := t.perf, st.freeCount := t.st.freeCount
    sup.posted := match post with
      | none => s.sup.posted
      | some p => s.sup.posted ++ [{ stall := i, tag := st.exec.nextTag, req := p, shut := postShut s p }] } ∧
  ∀ j, j ≠ i → getStall? t j = getStall? s j

/-- A posted service with its checks passed: `need` is the right it takes, `ok` its argument range, `ptr` the extent that it
reads. Without the right it answers ABT_ACCESS, out of range ABT_RANGE, after 64 requests ABT_BUSY, each time with nothing
posted (R85). -/
def postedRule (c : CoreIx → Instr) (charge : Nat) (need : Option Nat) (ptr : Exec → Option (Nat × Nat)) (ok : Exec → Bool)
    (req : Exec → PostedReq) : Prop :=
  ∀ (s : State) (core : CoreIx) (i : Nat) (st : Stall), ready s core i st charge →
    (∀ a n, ptr st.exec = some (a, n) → ∀ j, j < n → canRead st.desc ((a + j) % 2 ^ 64) = true) →
    ∃ t, exec (c core) s = .next t ∧
      if (∃ r, need = some r ∧ st.desc.rights.getLsbD r = false) then svcBack s t i st charge 0x010000FF none
      else if ok st.exec = false then svcBack s t i st charge 0x04000000 none
      else if 64 ≤ st.exec.posted then svcBack s t i st charge 0x07000002 none
      else svcBack s t i st charge 0 (some (req st.exec))

/-- SVC_SEND of a well-formed message of a kind (R134): 9 to 4096 bytes inside the declared OUTBOX, the right of its kind, its
length field, reserved bits and destination as the table says. It is copied whole and posted. -/
def sendRule (c : CoreIx → Instr) (kind right : Nat) : Prop :=
  ∀ (s : State) (core : CoreIx) (i : Nat) (st : Stall) (off len : Nat) (m : List Byte), ready s core i st 8 →
    off = (rget st.exec 1).toNat → len = (rget st.exec 2).toNat → 9 ≤ len → len ≤ 4096 →
    off + len ≤ st.desc.outboxSize → m = mgets st.exec.mem (0x70000000 + off) len →
    fieldAt m 0 1 = kind → st.desc.rights.getLsbD right = true →
    fieldAt m 2 2 = len - 8 → fieldAt m 1 1 < 2 → (kind = 2 → fieldAt m 4 4 < 2 ^ 20) →
    (kind = 4 → len = 9 ∧ fieldAt m 8 1 < 2 ∧ fieldAt m 4 4 < 32) →
    ∃ t, exec (c core) s = .next t ∧
      if 64 ≤ st.exec.posted then svcBack s t i st 8 0x07000002 none
      else svcBack s t i st 8 0 (some (.send kind (fieldAt m 1 1) (fieldAt m 4 4) (m.drop 8)))

/-- SVC_SEND without the right of its kind answers ABT_ACCESS, before the message's range is judged (R134). -/
def sendRightRule (c : CoreIx → Instr) (kind right : Nat) : Prop :=
  ∀ (s : State) (core : CoreIx) (i : Nat) (st : Stall) (off len : Nat) (m : List Byte), ready s core i st 8 →
    off = (rget st.exec 1).toNat → len = (rget st.exec 2).toNat → 9 ≤ len → len ≤ 4096 →
    off + len ≤ st.desc.outboxSize → m = mgets st.exec.mem (0x70000000 + off) len →
    fieldAt m 0 1 = kind → st.desc.rights.getLsbD right = false →
    ∃ t, exec (c core) s = .next t ∧ svcBack s t i st 8 0x010000FF none

/-- SVC_YIELD ends the activation: g1 is 0, the pc is past the SVC, and the core runs no stall. Stated where no request of the
crossing waits for the activation's end. -/
def yieldRule : Prop :=
  ∀ (s : State) (core : CoreIx) (i : Nat) (st : Stall), ready s core i st 1 → s.sup.posted = [] →
    ∃ t st', exec (.svcYield core) s = .next t ∧ getStall? t i = some st' ∧ (getRun t core).run = none ∧
      st'.exec = { rset st.exec 1 0 with
        pc := st.exec.pc + 4, fuel := st.exec.fuel - 1, stopReason := 1
        sw := st.exec.sw &&& ~~~ BitVec.ofNat 64 (2 ^ 22) } ∧
      st'.continued = false ∧ st'.state = st.state ∧ ∀ j, j ≠ i → getStall? t j = getStall? s j

/-- SVC_FAULT makes the stall FAULTED with cause 0x14 and its own code in bits [63:32] of the rescue frame's cause, and ends the
activation (R84, R115). -/
def svcFaultRule : Prop :=
  ∀ (s : State) (core : CoreIx) (i : Nat) (st : Stall), ready s core i st 1 → s.sup.posted = [] →
    ∃ t st', exec (.svcFault core) s = .next t ∧ getStall? t i = some st' ∧ (getRun t core).run = none ∧
      st'.state = .faulted ∧ st'.exec.rescue.pc = st.exec.pc ∧
      st'.exec.rescue.cause = BitVec.ofNat 64 (0x14 + (rget st.exec 1).toNat % 2 ^ 32 * 2 ^ 32) ∧
      st'.exec.faultCause = st'.exec.rescue.cause ∧ st'.exec.regs = st.exec.regs ∧ st'.exec.mem = st.exec.mem

/-- A number absent from Table 03-12 answers g1 = 0x0200_0000 and g2 = 0 for 1 unit (R86). -/
def svcUnassignedRule : Prop :=
  ∀ (s : State) (core : CoreIx) (n : BitVec 16) (i : Nat) (st : Stall), (n.toNat = 0 ∨ 8 ≤ n.toNat) → ready s core i st 1 →
    ∃ t, exec (.svcUnassigned core n) s = .next t ∧ svcBack s t i st 1 0x02000000 none

/-- A supervisor pause charges no fuel and changes nothing that a stall observes (R65): of the whole state only the performance
counters move. -/
def pauseRule : Prop :=
  ∀ (s : State) (lane : Fin 3) (core : CoreIx) (cycles : Nat),
    ∃ t, exec (.supervisorPause lane core cycles) s = .next t ∧ t = { s with perf := t.perf }

/-! ## Commands of the block: vocabulary -/

/-- The command answers a next state, and that state is as said. -/
def does (c : Instr) (s : State) (p : State → Prop) : Prop := ∃ t, exec c s = .next t ∧ p t

/-- A write of a context that is open, which no condition of the entry table refuses (02 R29 to R45). -/
def accepts (s : State) (e : Entry) (ctx idx sub v : Nat) : Prop :=
  nhas s.sup.ctxs ctx = true ∧ genericConds s (mkW s ctx idx sub e.len v e) e = []

/-- The instance that a context has selected for an entry (02 R36). -/
def chosen (s : State) (e : Entry) (ctx : Nat) : Nat := instOf (getCtx s ctx) e.sel

/-- Hub `h` is, records apart, as `d` says, and the other hub as it was. -/
def hubIs (s t : State) (h : Nat) (d : HubDie) : Prop :=
  { getHub t h with inflight := [] } = { d with inflight := [] } ∧
    ∀ j, j ≠ h → { getHub t j with inflight := [] } = { getHub s j with inflight := [] }

/-! ## The inputs of a crossing (05, 06) -/

/-- FIELD_SAMPLE: the die's next sample, taken 6 us before the next boundary, reaches each hub whose copy arrives whole and
whose link is in service; it holds the state of every input as the die has it; the 100 MHz counter is read. -/
def fieldSampleRule : Prop :=
  ∀ (s : State) (die : Fin 2) (c : Nat) (toHa toHb : Bool), (getDie s die).failed = false →
    does (.fieldSample die c toHa toHb) s (fun t =>
      t = { s with field := t.field, hubs := t.hubs, st.freeCount := t.st.freeCount } ∧
      (getDie t die).seq = (getDie s die).seq + 1 ∧ (getDie t die).counter = c / 10 ∧
      (getDie t die).sampleAt = s.cyc.tk + s.cyc.c - 6000 ∧
      ∀ h, h < 2 → hubUp s h = true → ilinkUp s (20 + h * 2 + die) = true → (if h = 0 then toHa else toHb) = true →
        ∃ x : Sample, vget (getHub t h).sample die none = some x ∧ x.seq = (getDie s die).seq + 1 ∧
          x.at_ = s.cyc.tk + s.cyc.c - 6000 ∧
          ∀ n, n < 32 → (x.di.getD n {}).value =
            ((getDi s (die * 32 + n)).level && !(getDi s (die * 32 + n)).broken && !(getDi s (die * 32 + n)).frontEnd))

/-- IMAGE_CLOSE: the hub's image of the next crossing is closed, with its readings, the field samples and the items that have arrived,
the T of the boundary on the hub's time base with the step applied there, the numbers that its voter has released, and its digest under
K_in; what arrives from then on belongs to the image after it. -/
def imageCloseRule : Prop :=
  ∀ (s : State) (hub : Fin 2) (rd : HubReading), s.cyc.running = true → hubUp s hub = true →
    ¬((vget s.cyc.hubImg hub {}).closed = true ∧ (vget s.cyc.hubImg hub {}).k = s.cyc.k + 1) →
    does (.imageClose hub rd) s (fun t =>
      bare t = bare { s with
        cyc.hubOpen := t.cyc.hubOpen, cyc.hubImg := t.cyc.hubImg, hubs := t.hubs, supply.vin := t.supply.vin
        agree.reportDigest := t.agree.reportDigest, br.wins := t.br.wins, cnt := t.cnt, perf := t.perf } ∧
      vget t.cyc.hubOpen hub [] = [] ∧
      (∃ img, vget t.cyc.hubImg hub {} = img ∧ img.closed = true ∧ img.k = s.cyc.k + 1 ∧ img.tk = (hubNext s hub).1 ∧
        img.step = (hubNext s hub).2 ∧ img.power = rd.power ∧ img.temp = rd.temp ∧ img.vin = rd.vin ∧
        img.samples = (getHub s hub).sample ∧ img.released = (getHub s hub).voter.relSeq ∧
        img.digest = hubDigest s (img.items.map laneItem) ∧
        (vget s.cyc.hubOpen hub []).isPrefixOf img.items = true) ∧
      (∀ j, j ≠ hub.val → vget t.cyc.hubImg j {} = vget s.cyc.hubImg j {}) ∧
      hubIs s t hub { getHub s hub with
        power := rd.power, temp := rd.temp, sample := Vector.replicate 2 none, stepDue := none })

/-- INPUT_AGREEMENT: the crossing is agreed once; its hub images are used up. Where every lane received what the hubs closed, merged it
alike and reports no reading of its own, the image is adopted: the header takes the crossing's number and T_k, and no lane is
faulted. -/
def inputAgreementRule : Prop :=
  ∀ (s : State) (rep : AgreeReport), s.cyc.running = true → s.agree.mismatch = false → s.agree.lost = false →
    s.cyc.agreedK ≠ some s.cyc.k → hubsClosed s ≠ [] →
    does (.inputAgreement rep) s (fun t =>
      t.cyc.agreedK = some s.cyc.k ∧ t.cyc.k = s.cyc.k ∧ t.pending = s.pending ∧
      (∀ h, h < 2 → (vget t.cyc.hubImg h {}).closed = false) ∧
      (rep = {} → t.agree.mismatch = false ∧ t.agree.lost = false ∧ laneSet t = laneSet s ∧
        t.cyc.head.k = s.cyc.k ∧ t.cyc.head.tk = s.cyc.tk))

/-! ## Execution, end and boundary (05, 06, 21) -/

/-- ACTIVATION_START: the core begins the oldest activation of its queue whose stall is RUNNING: full fuel, no request posted, the
agreed image in place of the former one, the count of activations one more. Memory outside IMAGE is unchanged; in IMAGE every byte is
that of the queued image but for CONTINUED, the count of fuel stops and the retain commit. -/
def activationStartRule : Prop :=
  ∀ (s : State) (core : CoreIx) (q : Queued) (rest : List Queued) (st : Stall),
    (getRun s core).run = none → s.cyc.agreedK = some s.cyc.k → s.agree.mismatch = false → s.agree.lost = false →
    (getRun s core).queue = q :: rest → getStall? s q.stall = some st → st.state = .running →
    does (.activationStart core) s (fun t =>
      t = { s with sup.stalls := t.sup.stalls, cyc.runs := t.cyc.runs, perf := t.perf } ∧
      getRun t core = { run := some q.stall, queue := rest, start := st.desc.fuel, tk := q.tk, kRun := q.k } ∧
      (∀ c, c ≠ core.val → getRun t c = getRun s c) ∧ (∀ j, j ≠ q.stall → getStall? t j = getStall? s j) ∧
      ∃ m, getStall? t q.stall = some { st with
        continued := false, dwImage := q.dw, dwWrites := [], dwOrder := []
        exec := { st.exec with fuel := st.desc.fuel, posted := 0, activations := st.exec.activations + 1, mem := m } } ∧
        (Mem.wf st.exec.mem = true → Mem.wf q.image = true → (∀ c ∈ q.image, 0x60000000 ≤ c.1 ∧ c.1 < 0x70000000) →
          ∀ a, mget m a =
            if a < 0x60000000 ∨ 0x70000000 ≤ a then mget st.exec.mem a
            else if st.desc.imageSize ≠ 0 ∧ (a = 0x6000001E ∨ 0x60000034 ≤ a ∧ a < 0x60000040) then mget m a
            else mget q.image a))

/-- CHECKPOINT_AGREEMENT where every lane shows the digests held here: the output command of the crossing joins the output stream
under the next sequence number, and the pending generation becomes the agreed one. Stated where no activation still runs. -/
def checkpointRule : Prop :=
  ∀ (s : State), s.cyc.running = true → s.cyc.agreedK = some s.cyc.k → s.cyc.endDone ≠ some s.cyc.k →
    s.agree.mismatch = false → s.agree.lost = false → runningStalls s = [] →
    does (.checkpointAgreement [] []) s (fun t =>
      t.cyc.endDone = some s.cyc.k ∧ t.agreed = t.sup ∧ t.sup.cmdSeq = (s.sup.cmdSeq + 1) % 2 ^ 32 ∧
      (∃ o, t.sup.outs.getLast? = some o ∧ o.kind = 4 ∧ o.ident = (s.sup.cmdSeq + 1) % 2 ^ 32) ∧
      t.sup.safReqs = [] ∧ t.sup.timedDo = [] ∧ t.sup.withdraw = [] ∧ t.lanes = s.lanes)

/-- CROSSING_BOUNDARY: once the hubs have closed the next images and the crossing that ends is agreed or not executed, the next
crossing begins: its number is one more and its T_k is that in the close marker of the hub that the lanes follow. Stated where
no restart of the module falls due. -/
def boundaryRule : Prop :=
  ∀ (s : State), s.cyc.running = true → imagesClosed s = true →
    (s.cyc.endDone = some s.cyc.k ∨ s.agree.mismatch = true ∨ s.agree.lost = true ∨ s.cyc.agreedK ≠ some s.cyc.k) →
    s.st.recoverDue = false → s.st.resetDue = none →
    does .crossingBoundary s (fun t =>
      t.cyc.k = s.cyc.k + 1 ∧ t.cyc.tk = (vget s.cyc.hubImg (timeHub s) {}).tk ∧ t.cyc.running = true ∧ t.pending = s.pending)

/-! ## The lane set (05 R123, 06 R155 to R158, R175 to R181, 20 R497) -/

/-- The dies, counters and performance records as a lane's reset leaves them (20 Table 20-1, Table 20-4), with the reset
commanded. -/
def laneReset (s : State) (l : Nat) (f : Lane → Lane) : State :=
  let u := bumps (updLane s l (fun d => f { d with resetting := true, resetDue := false, keys := false, halted := true }))
    E.resetCounts 5 0 1
  { u with
    perf.cores := s.perf.cores.mapIdx (fun i p => if i / 16 = l then {} else p)
    perf.lat := vupd s.perf.lat l (fun _ => [])
    egress := { kind := .dieReset, a := l } :: s.egress }

/-- TIMING_LAG of a lane of the set: event 0x2049, and the lane counts among those that lag in this crossing. -/
def timingLagRule : Prop :=
  ∀ (s : State) (lane : Fin 3) (core : CoreIx), inSet s lane = true → s.agree.lost = false →
    does (.timingLag lane core) s (fun t => recorded t 0x2049 ∧
      noted { s with cyc.lagLanes := if s.cyc.lagLanes.contains lane.val then s.cyc.lagLanes else s.cyc.lagLanes ++ [lane.val] } t)

/-- LANE_HARDWARE_ERROR: lane fault 7. Of three lanes the faulty one leaves the set and is to be reset; of two or fewer the module
is lost. -/
def laneErrorRule : Prop :=
  ∀ (s : State) (lane : Fin 3) (core : CoreIx) (i : Nat), inSet s lane = true → s.agree.lost = false →
    (3 ≤ (laneSet s).length → does (.laneHardwareError lane core i) s (fun t => recorded t 0x2060 ∧
      noted (updLane (svi { bumpi s E.laneFaults lane with perf.setChanged := true } E.laneAbandoned lane 0) lane (fun d =>
        { d with cause := 7, state := .out, resetDue := true, halted := true, retryAt := none })) t)) ∧
    ((laneSet s).length ≤ 2 → does (.laneHardwareError lane core i) s (fun t => recorded t 0x2060 ∧ recorded t 0x2065 ∧
      (getLane t lane).state = .out ∧ (getLane t lane).cause = 7 ∧ t.agree.lost = true ∧ t.sup.outs = [] ∧
      ∀ h, h < 2 → (getHub t h).voter.safeCmd = true))

/-- ROLLBACK_COMPLETE: the lane has restarted; the next boundary resumes once every lane of the set has. -/
def rollbackRule : Prop :=
  ∀ (s : State) (lane : Fin 3), (getLane s lane).rollback = true →
    does (.rollbackComplete lane) s (fun t => t = { s with
      lanes := vupd s.lanes lane (fun d => { d with rollback := false })
      agree.resumeDue := s.agree.resumeDue || (s.agree.mismatch &&
        (laneSet s).all (fun l => l = lane.val || !(getLane s l).rollback)) })

/-- RESTABLE_CMD of a lane in OUT with no attempt: one begins, past its reset where the lane has reset and holds its keys; its limit
counts from T_k. -/
def restableCmdRule : Prop :=
  ∀ (s : State) (ctx v : Nat), accepts s E.restableCmd ctx 0x2100 7 v → (getLane s v).state = .out →
    (getLane s v).attempt = none →
    does (.restableCmd ctx v) s (fun t => t = updLane s v (fun d => { d with
      attempt := some { phase := if d.keys && !d.resetting && !d.resetDue then 2 else 1
                        number := gvi s E.laneAbandoned v + 1, start := some s.cyc.tk }
      retryAt := none }))

/-- LANE_RESET of a lane that is OUT or FAILED: the lane is reset, its count of abandoned attempts starts again, and an attempt
begins where RESTABLE_AUTO is set. -/
def laneResetRule : Prop :=
  ∀ (s : State) (ctx l : Nat), accepts s E.laneReset ctx 0x2001 8 1 → l = chosen s E.laneReset ctx → l < 3 →
    (getLane s l).state = .out ∨ (getLane s l).state = .failed →
    does (.laneReset ctx) s (fun t => t = svi (laneReset s l (fun d => { d with
      state := .out, retryAt := none
      attempt := if gv s E.restableAuto = 1 then some { phase := 1, number := 1 } else none })) E.laneAbandoned l 0)

/-- LANE_RESET_COMPLETE: the lane is out of reset with current keys, and an attempt goes on to bulk; a limit that has not begun counts
from here. -/
def laneResetDoneRule : Prop :=
  ∀ (s : State) (lane : Fin 3) (i : Nat), (getLane s lane).resetting = true →
    does (.laneResetComplete lane i) s (fun t => t = { s with lanes := vupd s.lanes lane (fun d => { d with
      resetting := false, halted := false, keys := true
      attempt := d.attempt.map (fun a => { a with phase := max a.phase 2, start := some (a.start.getD s.cyc.tk) }) }) })

/-- RESTABLE_BULK_COMPLETE: the whole bulk has been sent, and the dirty passes begin. -/
def bulkDoneRule : Prop :=
  ∀ (s : State) (lane : Fin 3) (a : Attempt), (getLane s lane).attempt = some a → a.phase = 2 → a.bulk = true →
    does (.restableBulkComplete lane) s (fun t => t = { s with lanes := vupd s.lanes lane (fun d =>
      { d with attempt := some { a with phase := 3, passEnd := s.cyc.tk, sent := a.state + a.code } }) })

/-- RESTABLE_LIMIT_EXPIRY: an attempt past the limit is abandoned with event 0x2063; the third abandonment fails the lane, an
earlier one leads to a retry after 1 s. -/
def restableLimitRule : Prop :=
  ∀ (s : State) (lane : Fin 3) (a : Attempt) (t0 n : Nat), (getLane s lane).attempt = some a → a.start = some t0 →
    a.phase ≤ 3 → t0 + gv s E.restableLimit * 1000000 ≤ s.cyc.tk → n = gvi (bumpi s E.laneAbandoned lane) E.laneAbandoned lane →
    does (.restableLimitExpiry lane) s (fun t => recorded t 0x2063 ∧
      noted (updLane (bumpi s E.laneAbandoned lane) lane (fun d => { d with
        attempt := none
        state := if 3 ≤ n then .failed else .out
        retryAt := if 3 ≤ n then none else some (s.cyc.tk + 1000000000) })) t)

/-- RESTABLE_RETRY: the lane is reset and a new attempt begins. -/
def restableRetryRule : Prop :=
  ∀ (s : State) (lane : Fin 3) (r : Nat), (getLane s lane).retryAt = some r → (getLane s lane).state = .out → r ≤ s.cyc.tk →
    does (.restableRetry lane) s (fun t => t = laneReset s lane (fun d => { d with
      retryAt := none, attempt := some { phase := 1, number := gvi s E.laneAbandoned lane + 1 } }))

/-! ## The egress voters (06 R164 to R171) -/

/-- The voter of a hub takes copies: it is in service, and no mismatch restart is in progress. -/
def voterServes (s : State) (h : Nat) : Prop :=
  (getHub s h).voter.inService = true ∧ hubUp s h = true ∧ s.agree.mismatch = false ∧ s.agree.lost = false

/-- VOTER_COPY_ARRIVAL. The first copy of a word from a lane of the set opens its skew window, which a copy of a lane in SHADOW that
came before it joins. A second copy, equal to the first and of another lane of the set, matches within the window, and the word is
released where it is the first of the crossing or the one before it is released; where it is the last of the field output command,
the command leaves, with the data of the released words. A copy past the window counts in LANE_LATE_COPIES. -/
def copyRule : Prop :=
  ∀ (s : State) (hub : Fin 2) (lane : Fin 3) (payload tag : Word) (pos : BitVec 40) (mark : BitVec 24) (i key : Nat) (c : Copy),
    voterServes s hub → inSet s lane = true → tag = pos ++ mark → key = tag.toNat / 2 ^ 24 → c = { lane := lane, payload := payload, tag := tag } →
    (nget? (getHub s hub).voter.words key = none → does (.voterCopyArrival hub lane payload pos mark i) s (fun t =>
      t = updVoter s hub (fun v => { v with
        words := nset v.words key
          { opened := i, copies := (nget? v.early key).toList ++ [c], item := itemOfWord s key }
        early := nerase v.early key
        items := (getHub t hub).voter.items }) ∧
      ∀ k, k ≠ itemOfWord s key →
        nget? (getHub t hub).voter.items k = nget? (getHub s hub).voter.items k)) ∧
    (∀ w, nget? (getHub s hub).voter.words key = some w → w.opened + gv s E.voteSkew * 1000 < i →
      does (.voterCopyArrival hub lane payload pos mark i) s (fun t => t = bumpi s E.laneLateCopies lane)) ∧
    (∀ w a, nget? (getHub s hub).voter.words key = some w → i ≤ w.opened + gv s E.voteSkew * 1000 → w.closed = false →
      w.released = false → w.matched = none → w.copies = [a] → a.lane ≠ lane.val → inSet s a.lane = true →
      a.payload = payload → a.tag = tag →
      (key % 2 ^ 24 = 0 ∨ ∃ p, nget? (getHub s hub).voter.words (key - 1) = some p ∧ p.released = true) →
      nget? (getHub s hub).voter.words (key + 1) = none →
      let w' : WordPos := { w with copies := [a, c], matched := some c, released := true }
      let u := blockCount (updVoter s hub (fun v => { v with
        words := nset v.words key w', matchedLog := v.matchedLog ++ [c] })) (0x5381 + hub) 1
      (tag.getLsbD 0 = false → does (.voterCopyArrival hub lane payload pos mark i) s (fun t => t = u)) ∧
      (∀ o x, tag.getLsbD 0 = true → voterItem s hub w.item = some o → o.stale = false → o.kind = 4 → o.single = false →
        x = wholeItem u hub key o →
        does (.voterCopyArrival hub lane payload pos mark i) s (fun t =>
          t = { updVoter u hub (fun v => { v with
                  items := nset v.items w.item x
                  held := nset v.held cmdKey x
                  holdSince := nerase v.holdSince cmdKey
                  relSeq := noteReleased v.relSeq x
                  lastCmd := o.ident, safeCmd := false }) with
                egress := { kind := .outputCommand, port := hub, a := o.ident, data := x.data } :: s.egress })))

/-- SKEW_WINDOW_CLOSE of a word whose window has run out. A released word whose copies all came closes; a lane of three whose copy is
absent has lane fault 5; a word that was not released leads to a mismatch restart, or to the loss of the module. -/
def windowCloseRule : Prop :=
  ∀ (s : State) (hub : Fin 2) (index i key : Nat) (w : WordPos), openWord s hub index i = some (key, w) →
    s.agree.mismatch = false → s.agree.lost = false →
    nget? (getHub s hub).voter.words (key + 1) = none →
    (w.released = true → (∀ l, l < 3 → inSet s l = true → w.copies.any (fun c => c.lane = l) = true) →
      does (.skewWindowClose hub index i) s (fun t =>
        t = updVoter s hub (fun v => { v with words := nset v.words key { w with closed := true } }))) ∧
    (∀ l, l < 3 → w.released = true → laneSet s = [0, 1, 2] →
      (∀ j, j < 3 → (w.copies.any (fun c => c.lane = j) = true ↔ j ≠ l)) →
      does (.skewWindowClose hub index i) s (fun t =>
        (getLane t l).state = .out ∧ (getLane t l).cause = 5 ∧ (getLane t l).resetDue = true ∧ recorded t 0x2060 ∧
        ∀ j, j ≠ l → getLane t j = getLane s j)) ∧
    (w.released = false → does (.skewWindowClose hub index i) s (fun t =>
      recorded t 0x2064 ∧ (t.agree.mismatch = true ∨ t.agree.lost = true)))

/-- RELEASE_DEADLINE of an item that has reached its deadline and is not released whole: counted in STALE_ITEMS, event 0x2067, and
from then on held; for the field output command the hub sends its hold command, and a telegram's slot gets the held copy. -/
def deadlineRule : Prop :=
  ∀ (s : State) (hub : Fin 2) (item i key : Nat) (o : OutItem), voterServes s hub → staleItem s hub item i = some (key, o) →
    let v := (getHub s hub).voter
    let u := updVoter (bumps s E.voteStaleItems (10 + hub) 0 1) hub (fun v => { v with
      items := nset v.items key { o with stale := true }
      holdSince := if nhas v.holdSince (heldKey o) then v.holdSince else nset v.holdSince (heldKey o) i })
    does (.releaseDeadline hub item i) s (fun t => recorded t 0x2067 ∧
      noted (if o.kind = 4 then
        { u with egress := { kind := if v.safeCmd then .safeCommand else .holdCommand, port := hub, a := v.lastCmd } :: s.egress }
        else if o.kind = 1 then stageHeld u hub o
        else u) t)

/-- VOTE_HOLD_LIMIT_EXPIRY: the held copy of a telegram is given up, also where a slot waited for it; for the field output command the
hub sends safe-state commands in place of hold commands from then on. -/
def holdLimitRule : Prop :=
  ∀ (s : State) (hub : Fin 2) (key i t0 : Nat), nget? (getHub s hub).voter.holdSince key = some t0 →
    t0 + gv s E.voteHoldLimit * 1000000 < i →
    (key ≠ cmdKey → does (.voteHoldLimitExpiry hub key i) s (fun t =>
      t = { updVoter s hub (fun v => { v with held := nerase v.held key }) with
            bb.planes := vupd s.bb.planes hub (fun p => { p with
              released := p.released.filter (fun x => !(x.2.stale && heldKey x.2 = key)) }) })) ∧
    (key = cmdKey → holdsLease s = false → does (.voteHoldLimitExpiry hub key i) s (fun t =>
      t = updVoter s hub (fun v => { v with safeCmd := true })))

/-! ## Internal links (01 R12, R13) -/

/-- The link end of a number is as `f` makes it; nothing else changes. -/
def endIs (s t : State) (e : Nat) (f : ILink → ILink) : Prop := t = { s with ilinks := vupd s.ilinks e f }

/-- INTERNAL_LINK_TRANSFER: a transfer with a valid CRC and a sequence number that the end has not yet accepted is taken; any other is
discarded and counted. -/
def transferRule : Prop :=
  ∀ (s : State) (link : Fin 34) (seq i : Nat) (ok : Bool), endUp s link = true →
    (ok = true → seq ∉ (getEnd s link).seen → does (.internalLinkTransfer link seq ok i) s (fun t =>
      endIs s t link (fun l => { l with lastSeq := seq, seen := seq :: l.seen, okNow := true, lastHeard := i }))) ∧
    (ok = false ∨ seq ∈ (getEnd s link).seen → does (.internalLinkTransfer link seq ok i) s (fun t =>
      endIs { s with perf.blocks := t.perf.blocks } t link (fun l =>
        { l with discards := l.discards + 1, badNow := true, lastHeard := i })))

/-- What a command that finds an internal link end failed does: the end is FAILED; a lane that loses a hub in service leaves a set of
three with lane fault 8; the field cross link is marked at the die; a twin link's session ends; the failure of another end changes
nothing else but the record of it. -/
def linkFails (c : Instr) (s : State) (e : Nat) : Prop :=
  does c s (fun t => (getEnd t e).failed = true ∧ (∀ j, j ≠ e → getEnd t j = getEnd s j) ∧
    (e < 12 → hubUp s (laneHub e).2 = true → laneSet s = [0, 1, 2] → s.agree.lost = false →
      (getLane t (laneHub e).1).state = .out ∧ (getLane t (laneHub e).1).cause = 8 ∧ recorded t 0x2060 ∧
        ∀ j, j ≠ (laneHub e).1 → getLane t j = getLane s j) ∧
    (e = 28 ∨ e = 29 → (getDie t (e - 28)).crossFailed = true) ∧
    (30 ≤ e → (vget t.twin.links (e - 30) {}).session = false) ∧
    (e = 18 ∨ e = 19 ∨ 20 ≤ e ∧ e < 28 → noted { s with ilinks := vupd s.ilinks e (fun l => { l with failed := true }) } t))

/-- INTERNAL_LINK_DISCARD_LIMIT and INTERNAL_LINK_SILENCE: eight consecutive crossings with a discarded transfer, or silence past the
link's limit, fail the end. -/
def linkFailRule : Prop :=
  ∀ (s : State) (link : Fin 34) (i : Nat), endUp s link = true → (getEnd s link).failed = false →
    (8 ≤ (getEnd s link).badRun + b2n (getEnd s link).badNow → linkFails (.internalLinkDiscardLimit link i) s link) ∧
    ((getEnd s link).lastHeard + (if link.val < 20 then 2000 else if link.val < 30 then 200000 else 3000) < i →
      linkFails (.internalLinkSilence link i) s link)

/-- INTERNAL_LINK_RESTORED: a failed end that ran a crossing without error is in service again; over a field die's link the events
that the die kept are delivered. -/
def linkRestoredRule : Prop :=
  ∀ (s : State) (link : Fin 34) (i : Nat), endUp s link = true → (getEnd s link).failed = true →
    (getEnd s link).clean = true → (getEnd s link).badNow = false →
    does (.internalLinkRestored link i) s (fun t =>
      t.ilinks = vupd s.ilinks link (fun l => { l with failed := false, lastHeard := i }) ∧
      (link.val < 18 ∨ 24 ≤ link.val ∧ link.val < 28 → t = { s with ilinks := t.ilinks }) ∧
      (20 ≤ link.val ∧ link.val < 24 → noted { s with ilinks := t.ilinks } t ∧ (getDie t ((link.val - 20) % 2)).kept = []) ∧
      (link.val = 28 ∨ link.val = 29 → t = { s with
        ilinks := t.ilinks
        field.dies := vupd s.field.dies (link - 28) (fun d => { d with crossFailed := false }) }))

/-! ## Restarts of one die (01 R16, 08 R219, 20 R483, R485, R495 to R498) -/

/-- A lane of a set of three restarts by itself: lane fault 7, and it leaves the set. -/
def laneTripped (s t : State) (l : Nat) : Prop :=
  recorded t 0x2060 ∧
  noted { updLane (svi (bumpi (bumps s E.resetCounts 5 0 1) E.laneFaults l) E.laneAbandoned l 0) l (fun d => { d with
            resetting := true, keys := false, cause := 7, state := .out, resetDue := true, halted := true, retryAt := none }) with
          perf.cores := s.perf.cores.mapIdx (fun i p => if i / 16 = l then {} else p)
          perf.lat := vupd s.perf.lat l (fun _ => [])
          perf.setChanged := true } t

/-- LANE_WATCHDOG, and THERMAL_TRIP of a lane. -/
def laneWatchdogRule : Prop :=
  ∀ (s : State) (lane : Fin 3) (die : Fin 7) (i : Nat), laneSet s = [0, 1, 2] → s.agree.lost = false → die.val = lane.val →
    does (.laneWatchdog lane i) s (fun t => laneTripped s t lane) ∧
    does (.thermalTrip die i) s (fun t => laneTripped s t lane)

/-- A field die after its restart (14 R357): unconfigured, its counter and counts from 0, its outputs off. -/
def fieldRestarted (s t : State) (f : Nat) : Prop :=
  recordedFrom t (3 + f) 0x1006 ∧ (getDie t f).failed = false ∧ (getDie t f).configured = false ∧ (getDie t f).silent = false ∧
    (getDie t f).counter = 0 ∧ (getDie t f).cfgSeq = 0 ∧ (getDie t f).seq = (getDie s f).seq ∧
    (∀ n, n < 16 → (getDo t (f * 16 + n)).applied = false) ∧
    (∀ n, n < 32 → (getDi t (f * 32 + n)).edgeCount = 0 ∧ (getDi t (f * 32 + n)).level = (getDi s (f * 32 + n)).raw) ∧
    t.sup.stalls = s.sup.stalls ∧ t.cyc = s.cyc ∧ t.lanes = s.lanes

/-- FIELD_RESTART. -/
def fieldRestartRule : Prop :=
  ∀ (s : State) (die : Fin 2) (cause i : Nat), does (.fieldRestart die cause i) s (fun t => fieldRestarted s t die)

/-- THERMAL_TRIP of a field die: it is lost until it restarts, and the other one has no cross link. -/
def fieldTripRule : Prop :=
  ∀ (s : State) (die : Fin 7) (i : Nat), 5 ≤ die.val → (getDie s (die - 5)).failed = false →
    does (.thermalTrip die i) s (fun t => (getDie t (die - 5)).failed = true ∧ (getDie t (1 - (die - 5))).crossFailed = true ∧
      t.lanes = s.lanes ∧ t.cyc = s.cyc)

/-- DIE_RESET_COMMAND: a command of both hubs together, or of the surviving one, resets a lane or a field die; a command of one hub
while both are healthy is refused and recorded; a hub has no command reset. -/
def dieResetRule : Prop :=
  ∀ (s : State) (die : Fin 7) (a b : Bool) (i : Nat),
    (resetAccepted s a b = true → die.val < 3 → laneSet s = [0, 1, 2] → s.agree.lost = false →
      does (.dieResetCommand die a b i) s (fun t => laneTripped s t die)) ∧
    (resetAccepted s a b = true → 5 ≤ die.val → does (.dieResetCommand die a b i) s (fun t => fieldRestarted s t (die - 5))) ∧
    (a ≠ b → hubUp s 0 = true → hubUp s 1 = true → die.val ≠ 3 → die.val ≠ 4 →
      does (.dieResetCommand die a b i) s (fun t => noted s t)) ∧
    (die.val = 3 ∨ die.val = 4 → does (.dieResetCommand die a b i) s (fun t => t = s))

/-- CLOSE_MARKER_SILENCE: after 2 ms without a close marker a lane executes no crossing; without an executing lane none is
executed. -/
def closeMarkerRule : Prop :=
  ∀ (s : State) (lane : Fin 3) (i : Nat) (u : State), s.cyc.running = true → s.cyc.tk + 2000000 ≤ i →
    u = updLane s lane (fun d => { d with halted := true }) →
    does (.closeMarkerSilence lane i) s (fun t =>
      if (laneSet s).all (fun l => l = lane.val || (getLane s l).halted) = true then
        t = { u with cyc.running := false, cyc.runs := Vector.replicate 16 {} }
      else t = u)

/-- A hub in operation restarts while the other one serves: what its MRAM does not keep is lost, its voter is out of service, the
service port is the other hub's. -/
def hubDown (s t : State) (h cause i : Nat) : Prop :=
  (getHub t h).restarting = true ∧ (getHub t h).cause = cause ∧ (getHub t h).restarted = i ∧
    (getHub t h).voter.inService = false ∧ (getHub t h).buffer = [] ∧
    (getHub t h).journal = (getHub s h).journal ∧ (getHub t h).retain = (getHub s h).retain ∧
    t.con.svcHub = (if s.con.svcHub = h then 1 - h else s.con.svcHub) ∧
    { getHub t (1 - h) with inflight := [] } = { getHub s (1 - h) with inflight := [] } ∧
    t.lanes = s.lanes ∧ t.cyc.k = s.cyc.k ∧ t.agree.lost = s.agree.lost

/-- HUB_WATCHDOG and THERMAL_TRIP of a hub in operation. Watchdogs of both hubs within 50 ms restart every die. -/
def hubWatchdogRule : Prop :=
  ∀ (s : State) (hub : Fin 2) (die : Fin 7) (i : Nat), hubUp s hub = true →
    (hubUp s (1 - hub) = true → (getHub s (1 - hub)).voter.inService = true →
      does (.hubWatchdog hub i) s (fun t => hubDown s t hub 1 i ∧ (getHub t hub).watchdogAt = some i) ∧
      (die.val = 3 + hub.val → does (.thermalTrip die i) s (fun t => hubDown s t hub 2 i))) ∧
    (∀ u, (getHub s (1 - hub)).restarting = true → (getHub s (1 - hub)).watchdogAt = some u → i ≤ u + 50000000 →
      does (.hubWatchdog hub i) s (fun t => t.st.phase = 1 ∧ t.st.cause = 3 ∧ t.cyc = State.reset.cyc ∧
        t.lanes = State.reset.lanes ∧ t.sup.stalls = [] ∧ t.pending = s.pending))

/-- HUB_RESTART: the hub runs its own start phases; over the link between the hubs it takes the counters of the other one, and is ready
to rejoin. -/
def hubRestartRule : Prop :=
  ∀ (s : State) (hub : Fin 2) (cause i : Nat), hubUp s (1 - hub) = true → (getHub s (1 - hub)).voter.inService = true →
    hubUp s hub = true ∨ (getHub s hub).failed = true →
    does (.hubRestart hub cause i) s (fun t =>
      (getHub t hub).restarting = true ∧ (getHub t hub).failed = false ∧ (getHub t hub).ready = hubLinkUp s ∧
      (getHub t hub).cause = cause ∧ (getHub t hub).restarted = i ∧ (getHub t hub).voter.inService = false ∧
      (hubLinkUp s = true → (getHub t hub).cleanStop = false ∧
        (getHub t hub).opSeconds = (getHub s (1 - hub)).opSeconds ∧
        (getHub t hub).powerCycles = (getHub s (1 - hub)).powerCycles))

/-- HUB_REJOIN: a hub that is ready serves again from the boundary, with an empty voter and the present train time, event 0x1005. -/
def hubRejoinRule : Prop :=
  ∀ (s : State) (hub : Fin 2), (getHub s hub).restarting = true → (getHub s hub).ready = true → hubUp s (1 - hub) = true →
    s.cyc.running = true →
    does (.hubRejoin hub) s (fun t =>
      recorded t 0x1005 ∧ (getHub t hub).restarting = false ∧ (getHub t hub).ready = false ∧ (getHub t hub).voter = {} ∧
      (getHub t hub).time = s.cyc.tk ∧ (getHub t hub).timeState = 2 ∧ (getHub t hub).watchdogAt = none ∧
      t.sup.stalls = s.sup.stalls ∧ t.lanes = s.lanes)

/-- HUB_ALONE_TIMEOUT in S1: the other hub is taken as failed, and the start has cause 4, counted as a module reset, but in
recovery. -/
def hubAloneRule : Prop :=
  ∀ (s : State) (hub : Fin 2) (i : Nat) (u : State), (getHub s hub).failed = false → (getHub s (1 - hub)).failed = false →
    s.st.phase = 1 →
    u = { updHub s (1 - hub) (fun d => { d with failed := true, voter.inService := false }) with
      con.svcHub := hub, upd.writer := hub } →
    does (.hubAloneTimeout hub i) s (fun t =>
      t = if s.st.recovery = true then u else bumps { u with st.cause := 4 } E.resetCounts 2 0 1)

/-! ## Module start and the RECOVER button (20 R484 to R494) -/

/-- MODULE_START: where two lanes and a voter are left after the injection tests, crossings run from crossing 0, whose T_0 is a
multiple of C; in recovery the mode is STOP and the ports stay shut. With fewer lanes the start is held, with event 0x1007. -/
def moduleStartRule : Prop :=
  ∀ (s : State) (rep : StartReport), s.st.phase = 1 →
    (2 ≤ (laneSet s).length → votersUp s ≠ [] → rep.tests = [] → does (.moduleStart rep) s (fun t =>
      t.cyc.running = true ∧ t.cyc.k = 0 ∧ t.cyc.c ∣ t.cyc.tk ∧ (∀ h, h < 2 → (getHub t h).time = t.cyc.tk) ∧
      t.st.phase = 10 ∧ t.st.heldIn = false ∧ t.st.duration = rep.ms ∧ t.st.ports = !s.st.recovery ∧
      (s.st.recovery = true → t.sup.mode = 2 ∧ recorded t 0x1003) ∧ (t.sup.mode = 1 ∨ t.sup.mode = 2) ∧
      t.agreed = t.sup ∧ t.pending = s.pending)) ∧
    ((laneSet s).length < 2 → does (.moduleStart rep) s (fun t =>
      recorded t 0x1007 ∧ t.st.heldIn = true ∧ t.st.fatal = true ∧ t.st.ports = false ∧ t.cyc.running = s.cyc.running))

/-- RESET_CMD in STOP, in recovery or in a held start: the restart falls due at the next boundary. -/
def resetCmdRule : Prop :=
  ∀ (s : State) (ctx : Nat), accepts s E.resetCmd ctx 0x1200 1 1 → (s.sup.mode = 2 ∨ s.st.recovery = true ∨ s.st.heldIn = true) →
    does (.resetCmd ctx) s (fun t => t = { s with st.resetDue := some ctx })

/-- RECOVERY_PWD_RESET over the service port in recovery: every role's password and lockout are reset, but for role 5, which only
loses its lockout, and role 3, which takes its delivery password; event 0x1009. -/
def recoveryPwdRule : Prop :=
  ∀ (s : State), accepts s E.recoveryPwdReset 0 0x1200 8 1 → s.st.recovery = true →
    does (.recoveryPwdReset 0) s (fun t => recorded t 0x1009 ∧
      noted { s with upd.pwds := t.upd.pwds } t ∧
      vget t.upd.pwds 1 {} = {} ∧ vget t.upd.pwds 2 {} = {} ∧ vget t.upd.pwds 4 {} = {} ∧
      vget t.upd.pwds 3 {} = { delivered := true } ∧
      vget t.upd.pwds 5 {} = { vget s.upd.pwds 5 {} with fails := 0, lockedAt := none })

/-- RECOVER_PRESS, RECOVER_HOLD, RECOVER_STUCK and RECOVER_RELEASE (R491, R492): a press between 2 s and 10 s after supply good, held
for 5 s, begins a recovery start; pressed for 3600 s it is recorded once and ignored until released. -/
def recoverRule : Prop :=
  ∀ (s : State) (i : Nat), (hubUp s 0 = true ∨ hubUp s 1 = true) →
    (s.st.recovery = false → does (.recoverPress i) s (fun t => t = { s with
      st.pressAt := some i
      st.pressIn := decide (2000 ≤ i ∧ i ≤ 10000)
      st.ignorePress := s.st.ignorePress || decide (i = 0) })) ∧
    (∀ p, s.st.recovery = false → s.st.pressAt = some p → s.st.pressIn = true → s.st.ignorePress = false → p + 5000 ≤ i →
      (s.cyc.running = true → does (.recoverHold i) s (fun t => t = { s with st.pressIn := false, st.recoverDue := true })) ∧
      (s.cyc.running = false → s.st.phase = 1 → does (.recoverHold i) s (fun t =>
        t = bumps { s with st.pressIn := false, st.recovery := true, st.cause := 5, st.prevMode := s.sup.mode }
          E.resetCounts 3 0 1))) ∧
    (∀ p, s.st.recovery = false → s.st.pressAt = some p → s.st.stuckDone = false → p + 3600000 ≤ i →
      does (.recoverStuck i) s (fun t => recorded t 0x1004 ∧ noted { s with st.stuckDone := true, st.ignorePress := true } t)) ∧
    does (.recoverRelease i) s (fun t => t = { s with
      st.pressAt := none, st.pressIn := false, st.ignorePress := false, st.stuckDone := false })

/-! ## Supply (22 R517 to R521) -/

/-- SUPPLY_GOOD: a start of kind POWER_ON begins in S1; the power-cycle count is one more than the higher of the hubs' stores, and the
logic dies are as after reset. -/
def supplyGoodRule : Prop :=
  ∀ (s : State) (i n : Nat), s.supply.supplyGood = false →
    n = max (getHub s 0).powerCycles (getHub s 1).powerCycles + 1 →
    does (.supplyGood i) s (fun t =>
      t.supply.supplyGood = true ∧ t.supply.powerFail = none ∧ t.st.phase = 1 ∧ t.st.cause = 1 ∧ t.recd.cycles = n ∧
      (∀ h, h < 2 → (getHub t h).powerCycles = n) ∧ t.perf.blocks = [] ∧ t.cyc = State.reset.cyc ∧
      t.lanes = State.reset.lanes ∧ t.sup.stalls = [] ∧ t.sup.mode = State.reset.sup.mode ∧ t.pending = s.pending)

/-- POWER_FAIL_WARNING: event 0x1010 and its count; power-fail runs from the first warning; each hub in operation writes its clean-stop
mark and its buffer is flushed. -/
def powerFailRule : Prop :=
  ∀ (s : State) (vin i : Nat), s.supply.supplyGood = true →
    does (.powerFailWarning vin i) s (fun t =>
      recorded t 0x1010 ∧ t.supply = { s.supply with powerFail := some (s.supply.powerFail.getD i), holdup := 2 } ∧
      (∀ h, h < 2 → hubUp s h = true → (getHub t h).cleanStop = true ∧ (getHub t h).buffer = []) ∧
      t.recd.freeze = none ∧ t.sup.stalls = s.sup.stalls ∧ t.cyc = s.cyc)

/-- HOLDUP_READY, HOLDUP_EXHAUSTED, POWER_RESTORED and HOLDUP_MEASURE. -/
def holdupRule : Prop :=
  ∀ (s : State) (i : Nat),
    (s.supply.supplyGood = true → s.supply.powerFail = none → s.supply.holdup = 0 →
      does (.holdupReady i) s (fun t => t = { s with supply.holdup := 1 })) ∧
    (s.supply.powerFail.isSome = true → does (.holdupExhausted i) s (fun t =>
      t.supply.supplyGood = false ∧ t.supply.powerFail = none ∧ t.supply.holdup = 0 ∧ t.cyc = State.reset.cyc ∧
      t.lanes = State.reset.lanes ∧ t.sup = State.reset.sup ∧ t.field = s.field ∧ t.pending = s.pending)) ∧
    (∀ since, s.supply.powerFail = some since → does (.powerRestored i) s (fun t => recorded t 0x1011 ∧
      noted { s with
        supply.powerFail := none, supply.holdup := 0
        hubs := s.hubs.map (fun h => if h.failed || h.restarting then h else { h with cleanStop := false }) } t)) ∧
    (∀ ms10, s.cyc.running = true → s.supply.powerFail = none → s.supply.holdup = 1 → s.supply.measured = false →
      does (.holdupMeasure ms10 i) s (fun t => (ms10 < 100 → recorded t 0x1012) ∧
        noted { s with supply.holdupMs := ms10, supply.measured := true, supply.lastMeasure := s.recd.seconds } t))

/-! ## Dictionary writes and DAP messages (02) -/

/-- What goes with an accepted write: a persistent entry's is logged (23 R534) and falls due at the settings store (18 R460), and a
pair-scope one's is carried to a paired module (12 R330). `u` is the state with the entry's own effect. -/
def filed (s : State) (e : Entry) (ctx idx sub v : Nat) (u : State) : State :=
  let w := mkW s ctx idx sub e.len v e
  let c : Chg :=
    { at_ := u.cyc.tk, index := idx, sub := sub, ctx := ctxCode ctx
      role := if ctxIsStall ctx then 0xFF else roleOf u ctx
      inst := if e.sel = .none || e.sel = .ctx then 0xFFFF else w.inst }
  let x := if e.persist then
      { u with
        sup.chg := nset u.sup.chg (u.sup.chgCount % 16) c
        sup.chgCount := u.sup.chgCount + 1
        upd.storeDue := nset u.upd.storeDue (ekey idx sub w.inst) (v, u.cyc.k) }
    else u
  if e.pair then
    { x with twin.pairWrites := x.twin.pairWrites ++ [{ index := idx, sub := sub, inst := w.inst, value := v }] }
  else x

/-- DICT_WRITE to an entry that keeps its value: an accepted write stores it. One that a condition of R45 refuses, with a class other
than ABT_BUSY, ABT_CAPACITY, ABT_AUTH and ABT_INTEGRITY, only counts as a refusal of its session. -/
def dictWriteRule : Prop :=
  ∀ (s : State) (ctx idx sub v : Nat) (e : Entry), lookupEntry s idx sub = some e → handlerOf e sub = storeHandler e →
    (accepts s e ctx idx sub v →
      does (.dictWrite ctx idx sub v) s (fun t => t = filed s e ctx idx sub v (svx s e idx sub (chosen s e ctx) v))) ∧
    (∀ cls, nhas s.sup.ctxs ctx = true → ctxIsStall ctx = false →
      cls = chooseAbort (genericConds s (mkW s ctx idx sub e.len v e) e) / 2 ^ 24 → 0 < cls → cls < 7 →
      does (.dictWrite ctx idx sub v) s (fun t => t = updCtx s ctx (fun c => { c with refusals := c.refusals + 1 })))

/-- SELECT_WRITE: the context's own select value. -/
def selectRule : Prop :=
  ∀ (s : State) (ctx idx v : Nat) (e : Entry), findEntry idx 1 = some e → isSelect idx = true → accepts s e ctx idx 1 v →
    does (.selectWrite ctx idx v) s (fun t =>
      t = updCtx s ctx (fun c => { c with sels := vupd c.sels (selPos idx) (fun _ => v) }))

/-- LOCK_BITS_WRITE: bits are only ever set; new bits 192 to 223 need role Saf, other new bits Eng. -/
def lockBitsRule : Prop :=
  ∀ (s : State) (ctx sub v old new : Nat), 1 ≤ sub → sub ≤ 4 → accepts s E.lockBits ctx 0x1140 sub v →
    old = gvs s E.lockBits sub 0 → new = v - (v &&& old) →
    ((if sub = 4 then new / 2 ^ 32 else new) = 0 ∨ roleOk (roleOf s ctx) 3 = true) →
    ((if sub = 4 then new % 2 ^ 32 else 0) = 0 ∨ roleOk (roleOf s ctx) 4 = true) →
    does (.lockBitsWrite ctx sub v) s (fun t => t = svs s E.lockBits sub 0 (old ||| v))

/-- LOCK_AT_START_WRITE: the value is stored, where no bit that it clears is set in LOCK_BITS. -/
def lockAtStartRule : Prop :=
  ∀ (s : State) (ctx sub v old : Nat), 1 ≤ sub → sub ≤ 4 → accepts s E.lockAtStart ctx 0x1141 sub v →
    old = gvs s E.lockAtStart sub 0 → (old - (old &&& v)) &&& gvs s E.lockBits sub 0 = 0 →
    (sub = 4 → v < 2 ^ 32 ∧ (v = 0 ∨ roleOk (roleOf s ctx) 4 = true)) →
    does (.lockAtStartWrite ctx sub v) s (fun t =>
      t = filed s E.lockAtStart ctx 0x1141 sub v (svx s E.lockAtStart 0x1141 sub (chosen s E.lockAtStart ctx) v))

/-- A DAP message of operation `op` (R40 to R43): a malformed one, and a 17th request outstanding, count as refusals, and the latter is
answered ABT_BUSY by an item of this crossing's output stream; any other is outstanding from now on. It enters the image of the next crossing, so that a WRITE is applied at
the boundary after that; one that carries a password waits for its derivation. -/
def dapRule (mk : Nat → DapMsg → Instr) (op : Nat) : Prop :=
  ∀ (s : State) (ctx : Nat) (m : DapMsg) (c : Context) (r : Request), nget? s.sup.ctxs ctx = some c →
    r = { ctx := ctx, due := s.cyc.k + 2, reqId := m.reqId, op := op, index := m.index, sub := m.sub, elen := m.elen
          payload := m.body, hubs := if ctx = 0 then 2 ^ s.con.svcHub else 3 } →
    (m.version ≠ 1 ∨ m.flags ≠ 0 ∨ m.plen ≠ m.body.length →
      does (mk ctx m) s (fun t => t = { s with sup.ctxs := nset s.sup.ctxs ctx { c with refusals := c.refusals + 1 } })) ∧
    (m.version = 1 → m.flags = 0 → m.plen = m.body.length → 16 ≤ c.outstanding →
      does (mk ctx m) s (fun t => ∃ x,
        t = { s with
          sup.ctxs := nset s.sup.ctxs ctx { c with refusals := c.refusals + 1 }
          sup.outs := s.sup.outs ++ [x], con.sessions := t.con.sessions } ∧
        x.kind = 5 ∧ x.ident = ctx ∧ x.tag = m.reqId ∧
        x.data = [1, BitVec.ofNat 8 op] ++ beBytes 2 m.reqId ++ beBytes 2 m.index ++ u8 m.sub ++ [0xC0] ++
          beBytes 2 (if op ≤ 2 then m.elen else 0) ++ [0, 4, 0x07, 0x00, 0x00, 0x02])) ∧
    (m.version = 1 → m.flags = 0 → m.plen = m.body.length → c.outstanding < 16 →
      does (mk ctx m) s (fun t =>
        let u := { s with sup.ctxs := nset s.sup.ctxs ctx { c with outstanding := c.outstanding + 1 } }
        t = if needsDerivation s op m = true then { u with upd.jobs := s.upd.jobs ++ [{ since := s.cyc.tk, req := r }] }
            else { u with sup.reqs := s.sup.reqs ++ [r] }))

/-! ## Forces (05 R145 to R147) -/

/-- A force of a kind: 1 DI, 2 DO, 3 AI. -/
def forcedAs (s : State) (kind : Nat) (m : NMap Force) : State :=
  if kind = 1 then { s with sup.forceDi := m } else if kind = 2 then { s with sup.forceDo := m } else { s with sup.forceAi := m }

/-- DI_FORCE, DO_FORCE or AI_FORCE: a value other than 0 forces a point that is no safety point, until FORCE_TIMEOUT has passed, with
event 0x2052; 0 removes the force, with event 0x2053. -/
def forceRule (mk : Nat → Nat → Instr) (e : Entry) (idx kind : Nat) (level : State → Nat → Nat → Nat) : Prop :=
  ∀ (s : State) (ctx v ch : Nat), accepts s e ctx idx 1 v → ch = chosen s e ctx →
    (v ≠ 0 → safetyPoint s false kind ch = false → arbBlock s 3 kind ch = none →
      does (mk ctx v) s (fun t => recorded t 0x2052 ∧ noted (forcedAs s kind (nset (forcesOf s kind) ch
        { value := level s ch v, expires := s.cyc.tk + gv s E.forceTimeout * 1000000000 })) t)) ∧
    (v = 0 → nhas (forcesOf s kind) ch = true →
      does (mk ctx v) s (fun t => recorded t 0x2053 ∧ noted (forcedAs s kind (nerase (forcesOf s kind) ch)) t))

/-- FORCE_CLEAR_ALL removes every force; FORCE_EXPIRY removes one whose time has come. -/
def forceEndRule : Prop :=
  (∀ (s : State) (ctx : Nat), accepts s E.forceClearAll ctx 0x2410 3 1 →
    does (.forceClearAll ctx) s (fun t => noted { s with sup.forceDi := [], sup.forceDo := [], sup.forceAi := [] } t ∧
      (s.sup.forceDi ≠ [] ∨ s.sup.forceDo ≠ [] ∨ s.sup.forceAi ≠ [] → recorded t 0x2053))) ∧
  (∀ (s : State) (kind : Fin 3) (ch : Nat) (f : Force), nget? (forcesOf s (kind + 1)) ch = some f → f.expires ≤ s.cyc.tk →
    does (.forceExpiry kind ch) s (fun t => recorded t 0x2053 ∧
      noted (forcedAs s (kind + 1) (nerase (forcesOf s (kind + 1)) ch)) t))

/-! ## Stalls (04 R96 to R111, 05 R131, R142, R143, R148, R149) -/

/-- STALL_LOAD that no condition of R103 refuses takes the lowest free id: the stall is LOADING, its context exists, STALL_LAST_ID
names it. -/
def stallLoadRule : Prop :=
  ∀ (s : State) (ctx pkg v id : Nat) (grant : Word) (p : StallPkg), v = pkg % 2 ^ 32 + grant.toNat * 2 ^ 64 →
    accepts s E.stallLoad ctx 0x2200 2 v → arbBlock s 9 0 0 = none →
    loadConds s (mkW s ctx 0x2200 2 E.stallLoad.len v E.stallLoad) = [] → id = freeId s →
    parsePkg (pkgPayload s (pkg % 2 ^ 32)) = some p →
    does (.stallLoad ctx pkg grant) s (fun t => ∃ st ld,
      t = sv { setStall s id st with sup.ctxs := nset s.sup.ctxs (5000 + id) {} } E.stallLastId id ∧
      st.state = .loading ∧ st.pkgNo = pkg % 2 ^ 32 ∧ st.desc = p.desc ∧ st.grant = grant ∧ st.loading = some ld ∧
      ld.pkg = p ∧ ld.since = s.cyc.tk ∧ ld.replace = false ∧ ld.digests = [] ∧ ld.waiting = restabling s)

/-- LOAD_COPY_COMPLETE: the lane's digest of a copy that has begun. -/
def loadCopyRule : Prop :=
  ∀ (s : State) (lane : Fin 3) (i d : Nat) (st : Stall) (ld : Loading), getStall? s i = some st → st.loading = some ld →
    ld.waiting = false → inSet s lane = true →
    does (.loadCopyComplete lane i d) s (fun t => t = setStall s i { st with
      loading := some { ld with digests := nset ld.digests lane d } })

/-- STALL_REPLACE that no condition of R106 refuses: the new version is being loaded beside the one in use. -/
def stallReplaceRule : Prop :=
  ∀ (s : State) (ctx pkg i : Nat) (st : Stall) (p : StallPkg), accepts s E.stallReplace ctx 0x2201 5 pkg →
    i = chosen s E.stallReplace ctx → getStall? s i = some st → arbBlock s 9 0 0 = none →
    replaceConds s (mkW s ctx 0x2201 5 E.stallReplace.len pkg E.stallReplace) = [] →
    parsePkg (pkgPayload s pkg) = some p →
    does (.stallReplace ctx pkg) s (fun t => ∃ ld, t = setStall s i { st with loading := some ld } ∧
      ld.pkgNo = pkg ∧ ld.pkg = p ∧ ld.replace = true ∧ ld.since = s.cyc.tk ∧ ld.digests = [])

/-- STALL_CMD 1, 2 and 3 and the stall's state (04 Table 04-6). -/
def stallCmdRule : Prop :=
  ∀ (s : State) (ctx i : Nat) (st : Stall), i = chosen s E.stallCmd ctx → getStall? s i = some st →
    (accepts s E.stallCmd ctx 0x2201 1 1 → st.state = .stopped → startConds s i st = [] →
      does (.stallCmdStart ctx) s (fun t => t = setStall s i { st with
        state := .running, admitted := true, phase := (lowestPhase s i st).getD 0 })) ∧
    (accepts s E.stallCmd ctx 0x2201 1 2 → st.state = .stopped ∨ st.state = .running ∨ st.state = .faulted →
      does (.stallCmdStop ctx) s (fun t => t = setStall s i { st with
        state := .stopped, admitted := false, phase := 0, autoPending := false
        exec.stopReason := if st.state = .running then 4 else st.exec.stopReason })) ∧
    (accepts s E.stallCmd ctx 0x2201 1 2 → st.state = .held →
      does (.stallCmdStop ctx) s (fun t =>
        let u := setStall s i { st with state := .stopped, admitted := false, phase := 0, autoPending := false }
        noted { u with sup.mode := if s.sup.mode = 2 then 2 else if 0 < heldCount u then 3 else 1 } t)) ∧
    (accepts s E.stallCmd ctx 0x2201 1 3 → st.state = .faulted →
      does (.stallCmdRestart ctx) s (fun t => ∃ x,
        t = setStall (endRuns { s with sup.triggers := s.sup.triggers.filter (fun p => p.2.owner ≠ i) } i) i { st with
          state := .restarting, restartAt := some s.cyc.k, autoPending := false, first := true, continued := false
          skipped := false, stepped := false, lastFuelStop := false, imgWin := {}, trigWait := [], dataFrom := s.cyc.k
          dwWrites := [], dwOrder := [], exec := x } ∧
        x.pc = st.desc.entryPc ∧ x.sw = 0 ∧ x.regs = (Vector.replicate 32 0).set 31 st.desc.initG31 ∧ x.fuel = 0 ∧
        x.mem = restartMem st.desc st.exec.mem (pkgData s st.pkgNo) ∧
        x.restarts = st.exec.restarts + 1 ∧ x.nextTag = st.exec.nextTag))

/-- STALL_CMD 4, UNLOAD, of a stall that is STOPPED or FAULTED and whose shared entries no other stall maps: it is UNLOADING, its triggers
and posted requests are gone, event 0x2042. Stated where no re-stabling makes it wait. -/
def unloadRule : Prop :=
  ∀ (s : State) (ctx i : Nat) (st : Stall), accepts s E.stallCmd ctx 0x2201 1 4 → i = chosen s E.stallCmd ctx →
    getStall? s i = some st → st.state = .stopped ∨ st.state = .faulted → sharedMapped s i st = false →
    (ctxIsStall ctx = true ∨ roleOk (roleOf s ctx) 3 = true) → arbBlock s 9 0 0 = none → restabling s = false →
    does (.stallCmdUnload ctx) s (fun t => recorded t 0x2042 ∧
      noted (setStall { s with
          sup.triggers := s.sup.triggers.filter (fun p => p.2.owner ≠ i)
          sup.posted := s.sup.posted.filter (fun p => p.stall ≠ i) } i { st with
        state := .unloading, admitted := false, loading := none, unloadFor := ctxCode ctx, unloadWait := false
        restartAt := some s.cyc.k, results := [], trigWait := [] }) t)

/-- STALL_HOLD and its release: the stall's state, event 0x2051, and the module mode: HOLD while a stall is HELD, else RUN. -/
def holdRule : Prop :=
  ∀ (s : State) (ctx i : Nat) (st : Stall), i = chosen s E.stallHold ctx → getStall? s i = some st → s.sup.mode ≠ 2 →
    (accepts s E.stallHold ctx 0x2201 9 1 → st.state = .running → 2 ≤ st.desc.energyClass → st.desc.mirrored = false →
      holdHitsE0 s i st = false → arbBlock s 4 0 0 = none →
      does (.stallHold ctx) s (fun t => recorded t 0x2051 ∧
        noted { setStall s i { st with state := .held, exec.stopReason := 5 } with sup.mode := 3 } t)) ∧
    (accepts s E.stallHold ctx 0x2201 9 2 → st.state = .held →
      does (.stallRelease ctx) s (fun t => recorded t 0x2051 ∧
        noted { setStall s i { st with state := .running } with
          sup.mode := if 0 < heldCount (setStall s i { st with state := .running }) then 3 else 1 } t))

/-- STALL_IMAP: the entry is stored in the stall's map. -/
def imapRule : Prop :=
  ∀ (s : State) (ctx sub v i : Nat) (st : Stall), accepts s E.stallImap ctx 0x2210 sub v → i = chosen s E.stallImap ctx →
    getStall? s i = some st → imapConds s (mkW s ctx 0x2210 sub E.stallImap.len v E.stallImap) = [] →
    does (.stallImapWrite ctx sub v) s (fun t =>
      t = filed s E.stallImap ctx 0x2210 sub v (setStall s i { st with imap := nput st.imap sub v 0 }))

/-- CYCLE_MODE_CMD: RUN takes effect at the next boundary where the mode is STOP, and is refused in recovery; STOP where it is not STOP.
CYCLE_CPF is stored where every admitted stall still fits. -/
def modeRule : Prop :=
  ∀ (s : State) (ctx v : Nat),
    (accepts s E.cycleModeCmd ctx 0x2400 2 1 → s.st.recovery = false → does (.cycleModeCmdRun ctx) s (fun t =>
      t = if s.sup.mode = 2 then { s with sup.modePending := some (1, ctxCode ctx) } else s)) ∧
    (accepts s E.cycleModeCmd ctx 0x2400 2 2 → does (.cycleModeCmdStop ctx) s (fun t =>
      t = if s.sup.mode = 2 then s else { s with sup.modePending := some (2, ctxCode ctx) })) ∧
    (accepts s E.cycleCpf ctx 0x2400 4 v → (∀ c, c < 16 → coreAdmitted s c ≤ capacityFor s.cyc.c v) →
      does (.cycleCpfWrite ctx v) s (fun t =>
        t = filed s E.cycleCpf ctx 0x2400 4 v (svx s E.cycleCpf 0x2400 4 (chosen s E.cycleCpf ctx) v)))

/-- RETAIN_COMMIT_PASS: an admitted stall with something to retain has its agreed RETAIN and MIRROR stored in each hub in operation, under
the next sequence number, in the copy that did not hold the newer one; a pass that is cut off leaves the copy torn. -/
def retainRule : Prop :=
  ∀ (s : State) (bad : List Nat) (i : Nat) (st g : Stall) (c : RetainCopy), s.cyc.running = true → s.supply.powerFail = none →
    s.agree.lost = false → s.agree.mismatch = false → (s.sup.stalls.filter (fun p => p.1 = i)).length = 1 →
    getStall? s i = some st → nget? s.agreed.stalls i = some g → st.admitted = true → retains st.desc = true →
    c = { tag := st.desc.retainTag, retainSize := st.desc.retainSize, mirrorSize := st.desc.mirrorSize
          seq := nget s.sup.retainSeq i 0 + 1, tk := s.cyc.tk, data := mkeep g.exec.mem 0x40000000 0x60000000
          valid := !(bad.contains i) } →
    does (.retainCommitPass bad) s (fun t =>
      getStall? t i = some { st with retainCommit := s.cyc.tk } ∧ nget t.sup.retainSeq i 0 = c.seq ∧
      (∀ h, h < 2 → hubUp s h = true →
        nget? (getHub t h).retain i = some (putCopy (nget (getHub s h).retain i {}) c)) ∧
      t.cyc = s.cyc ∧ t.lanes = s.lanes ∧ t.cnt = s.cnt ∧ t.egress = s.egress)

/-! ## Time, tacho, triggers and energy (07, 08) -/

/-- A lane leaves a set of three with a lane fault (06 R157). -/
def laneOut (s : State) (l cause : Nat) : State :=
  updLane (svi { bumpi s E.laneFaults l with perf.setChanged := true } E.laneAbandoned l 0) l (fun d => { d with
    cause := cause, state := .out, resetDue := true, halted := true, retryAt := none })

/-- OSC_CORRECTION_OUT_OF_RANGE beyond 200 ppm: event 0x2073; a lane of three leaves the set with lane fault 7; a hub's time base is
FREE, its block counter of corrections at limit rises, and where it was landing or landed, it listens. -/
def oscRule : Prop :=
  ∀ (s : State) (die : Fin 5) (ppb : Int) (i : Nat), 200000 < ppb.natAbs →
    (die.val < 3 → laneSet s = [0, 1, 2] → s.agree.lost = false →
      does (.oscCorrectionOutOfRange die ppb i) s (fun t => recorded t 0x2073 ∧ recorded t 0x2060 ∧ noted (laneOut s die 7) t)) ∧
    (3 ≤ die.val → hubUp s (die - 3) = true →
      does (.oscCorrectionOutOfRange die ppb i) s (fun t => recorded t 0x2073 ∧
        noted { blockCount (updHub s (die - 3) (fun d => { d with timeState := 0, oscBad := true })) (0x5381 + (die - 3)) 12 with
          bb.planes := vupd s.bb.planes (die - 3) (fun p =>
            { p with node := if p.node = 3 ∨ p.node = 4 ∨ p.node = 6 then 1 else p.node }) } t))

/-- TIME_HUB_DIFF_ALERT: above 200 ns for 8 consecutive crossings, event 0x2071, once. -/
def hubDiffRule : Prop :=
  ∀ (s : State), 8 ≤ s.hubDiffRun → s.hubDiffDone = false →
    does .timeHubDiffAlert s (fun t => recorded t 0x2071 ∧ noted { s with hubDiffDone := true } t)

/-- The levels of A and B that follow when A leads B. -/
def turn : Bool × Bool → Bool × Bool
  | (false, false) => (true, false)
  | (true, false) => (true, true)
  | (true, true) => (false, true)
  | (false, true) => (false, false)

/-- TACHO_TRANSITION: one count up or down by the quadrature order; a transition less than 1 us after one of the other phase undoes
that one's count and sets the fault bit for 1 s. TACHO_FAULT_CLEAR: the bit's end. -/
def tachoRule : Prop :=
  ∀ (s : State) (ch : Fin 4) (x : Tacho) (i : Nat), x = getTacho s ch →
    (∀ (phaseB level : Bool) (a b : Bool) (other : Nat), (getDie s (ch / 2)).failed = false →
      (if phaseB then x.b else x.a) ≠ level → a = (if phaseB then x.a else level) → b = (if phaseB then level else x.b) →
      other = (if phaseB then x.lastA else x.lastB) →
      does (.tachoTransition ch phaseB level i) s (fun t =>
        t = { s with tacho := t.tacho } ∧ (∀ c, c ≠ ch.val → getTacho t c = getTacho s c) ∧
        (getTacho t ch).a = a ∧ (getTacho t ch).b = b ∧
        (if other ≠ 0 ∧ i < other + 1000 then
          (getTacho t ch).count = x.count - x.lastDelta ∧ (getTacho t ch).faultUntil = some (i + 1000000000)
        else
          (getTacho t ch).count = x.count + (if turn (x.a, x.b) = (a, b) then 1 else -1) ∧ (getTacho t ch).lastEdge = i ∧
          (getTacho t ch).faultUntil = x.faultUntil))) ∧
    (∀ u, x.faultUntil = some u → u ≤ i →
      does (.tachoFaultClear ch i) s (fun t => t = { s with tacho := vupd s.tacho ch (fun x => { x with faultUntil := none }) }))

/-- POS_DATUM_SET: the next datum number, the position that the next image takes, and the end of armed position triggers. -/
def datumSetRule : Prop :=
  ∀ (s : State) (ctx v : Nat), accepts s E.posDatumSet ctx 0x2500 12 v →
    does (.posDatumSet ctx v) s (fun t =>
      let u := { s with
        sup.tp.datumWrite := some (toInt 8 v, ctx)
        sup.tp.datumNumber := if s.sup.tp.datumNumber = 0xFFFF then 1 else s.sup.tp.datumNumber + 1
        twin.pairWrites := s.twin.pairWrites ++
          [{ index := 0x2500, sub := 12, inst := chosen s E.posDatumSet ctx, value := v }] }
      t = { u with sup.triggers := t.sup.triggers, sup.stalls := t.sup.stalls } ∧
      ((∀ p ∈ s.sup.triggers, p.2.armed = true → reqKind p.2 ≠ 2) → t = u) ∧
      ∀ j x, s.sup.triggers = [(j, x)] → x.armed = true → reqKind x = 2 → t.sup.triggers = [(j, { x with armed := false })])

/-- TRIG_CANCEL: the trigger is gone, its waiting entries are withdrawn, and its owner gets one entry flagged LAST. -/
def trigCancelRule : Prop :=
  ∀ (s : State) (ctx j : Nat) (x : Trigger) (st : Stall), accepts s E.trigCancel ctx 0x2581 6 1 → j = chosen s E.trigCancel ctx →
    nget? s.sup.triggers j = some x → getStall? s x.owner = some st →
    does (.trigCancel ctx) s (fun t => ∃ e : TrigEntry,
      t = setStall { s with sup.triggers := nerase s.sup.triggers j } x.owner { st with
        trigWait := mergeEntry (st.trigWait.filter (fun e => e.handle ≠ trigHandle j x)) e } ∧
      e.handle = trigHandle j x ∧ e.userTag = reqTag x ∧ e.flags = tfLast ∧ e.stamp = s.cyc.tk)

/-- SUPPLY_MODE_CMD: another supply mode takes effect at the next boundary. -/
def supplyModeRule : Prop :=
  ∀ (s : State) (ctx v : Nat), accepts s E.supplyModeCmd ctx 0x1300 2 v →
    does (.supplyModeCmd ctx v) s (fun t =>
      t = if v = s.sup.en.supplyMode then s else { s with sup.en.supplyDue := some (v, ctxCode ctx) })

/-- SHED_RECEIVER_STOP at T_{b+2}: the receivers of a closing port shed stop; what was partly received or is held in ingress is
dropped, counted, and recorded with event 0x1035. -/
def shedStopRule : Prop :=
  ∀ (s : State) (shed : Fin 12) (dropped i h n : Nat), 4 ≤ shed.val → (getShed s shed).state = 1 →
    (vget s.shedHub shed {}).stopped = false → (getShed s shed).since + 2 * s.cyc.c ≤ i →
    h = (if shed.val < 8 then 0 else 1) →
    n = dropped + ((vget s.cyc.hubOpen h []).filter (fun it => (shedPorts shed).contains it.port)).length →
    does (.shedReceiverStop shed dropped i) s (fun t =>
      let u := { s with
        shedHub := t.shedHub, con.ports := t.con.ports, twin.links := t.twin.links
        cyc.hubOpen := vupd s.cyc.hubOpen h (fun l => l.filter (fun it => !((shedPorts shed).contains it.port))) }
      (vget t.shedHub shed {}).stopped = true ∧ (∀ j, j ≠ shed.val → vget t.shedHub j {} = vget s.shedHub j {}) ∧
      (∀ p, p < 16 → vget t.con.ports p {} = (if (shedPorts shed).contains p then
        { vget s.con.ports p {} with blockLock := false } else vget s.con.ports p {})) ∧
      (∀ l, l < 4 → vget t.twin.links l {} = (if shed.val = 7 + 4 * (l / 2) then
        { vget s.twin.links l {} with session := false } else vget s.twin.links l {})) ∧
      (n = 0 → t = u) ∧ (0 < n → recorded t 0x1035 ∧ noted (bumps u E.shedDroppedIn (shed + 1) 0 n) t))

/-- BUDGET_OVERRUN_ALERT: level 8 with the mean power above the budget for 1000 ms, event 0x1033, once. -/
def overrunRule : Prop :=
  ∀ (s : State) (t0 : Nat), s.sup.en.overSince = some t0 → t0 + 1000000000 ≤ s.cyc.tk → s.sup.en.overDone = false →
    does .budgetOverrunAlert s (fun t => recorded t 0x1033 ∧ noted { s with sup.en.overDone := true } t)

/-! ## The backbone: links, slots and plans (09) -/

/-- ALIGNMENT_MARKER. A consistent marker, of the count after the one before and of its skew within a block time, counts towards alignment;
the second in a row locks a link that is DOWN: it is ALIGNED, with event 0x3001, and a node that was DOWN listens. The fourth bad one in a
row takes a link DOWN, and high BER at once. Errored blocks are counted. -/
def markerRule : Prop :=
  ∀ (s : State) (link : Fin 4) (count skew : Nat) (l : BLink), l = getLink s link → hubUp s (link / 2) = true →
    s.st.ports = true →
    (skew ≤ 409 → (l.state = 0 ∧ l.good = 0 ∨
        count = (l.marker + 1) % 65536 ∧ skew ≤ gvi s E.linkSkew link + 6 ∧ gvi s E.linkSkew link ≤ skew + 6) →
      ((l.good = 0 ∨ l.state ≠ 0) → does (.alignmentMarker link {} count skew) s (fun t =>
        t = updLink (svi s E.linkSkew link (skew % 65536)) link (fun l => { l with
          good := min 2 (l.good + 1), bad := 0, marker := count % 65536 }))) ∧
      (1 ≤ l.good → l.state = 0 → does (.alignmentMarker link {} count skew) s (fun t => recorded t 0x3001 ∧
        (getLink t link).state = 1 ∧ (getLink t link).good = min 2 (l.good + 1) ∧ (getLink t link).lastPeer = s.cyc.k ∧
        (∀ j, j ≠ link.val → getLink t j = getLink s j) ∧
        (getPlane t (link / 2)).node = (if (getPlane s (link / 2)).node = 0 then 1 else (getPlane s (link / 2)).node)))) ∧
    (∀ ok hiBer, (hiBer = true ∨ ok = false ∧ 3 ≤ l.bad) → l.state ≠ 0 →
      does (.alignmentMarker link { ok := ok, hiBer := hiBer } count skew) s (fun t => recorded t 0x3001 ∧ (getLink t link).state = 0 ∧
        (getLink t link).good = 0 ∧ (getLink t link).bad = 0 ∧ ∀ j, j ≠ link.val → getLink t j = getLink s j)) ∧
    (∀ ok hiBer errs, errs ≠ 0 → does (.alignmentMarker link { ok := ok, hiBer := hiBer, errs := errs } count skew) s (fun t =>
      exec (.alignmentMarker link { ok := ok, hiBer := hiBer } count skew)
        (bumpx s E.linkBlockErrors E.linkBlockErrors.sub link 0 errs) = .next t))

/-- LINK_PEER_SILENCE: an UP link without a bell or frame of its peer for three crossings is ALIGNED. LINK_DOWN: the link is DOWN and its
delay is lost; a hub without another working link is DOWN and a time base that it had is in HOLDOVER. -/
def linkStateRule : Prop :=
  ∀ (s : State) (link : Fin 4), 
    ((getLink s link).state = 2 → (getLink s link).lastPeer + 3 ≤ s.cyc.k → does (.linkPeerSilence link) s (fun t =>
      recorded t 0x3001 ∧ noted (updLink s link (fun l => { l with state := 1 })) t)) ∧
    ((getLink s link).state ≠ 0 → does (.linkDown link) s (fun t => recorded t 0x3001 ∧
      let u := updLink s link (fun l => { l with
        state := 0, good := 0, bad := 0, noDelay := true, delayLost := false, samples := [], probeSent := none, edge := false
        foreign := none, fBell := none })
      if (getLink s (otherLink link)).state = 0 then
        noted (updHub (updPlane u (link / 2) (fun p => { p with listenSince := none, chainAt := none, takenX := none, node := 0 }))
          (link / 2) (fun d => { d with timeState := if d.timeState = 0 then 0 else 2 })) t
      else noted u t))

/-- RELAY_START_BLOCK where the other link works, is no edge and the hub sends. A transparent hub passes on what begins 600 ns after its
arrival. Another hub passes on what a window plans at its passage time: a frame that runs more than 32 ns past its planned length is cut
there, with event 0x3003 and an error block, and one that is broken off ends with an error block; what no window plans is counted. A
claimer passes no bell on. LINK_RELAYED counts frames. -/
def relayRule : Prop :=
  ∀ (s : State) (link : Fin 4) (h o i dur : Nat) (start : Int) (broken : Bool) (data : List Byte), h = link / 2 → hubUp s h = true →
    (getLink s link).state ≠ 0 → (getPlane s h).node ≠ 0 → (getLink s link).edge = false → o = otherLink link → relays s link = true →
    let out := fun (a : Nat) (at_ : Int) (c : Nat) (d : List Byte) =>
      ({ kind := EgKind.relay, port := o, a := a, b := at_.toNat, c := c, data := d } : Egress)
    let pass := fun (tk u : Nat) => passage s h (arrivesAft (getPlane s h).reversed link) tk u
    let fate := if broken then 2 else 0
    let rx : RelayIn := { dur := dur, broken := broken, data := data }
    let lost := bump (updPlane s h (fun p => { p with unplanned := true })) E.bbUnplanned
    (transparent s h = true →
      does (.relayStartBlock link false start rx i) s (fun t =>
        t = { bumpi (noteUnplanned s link false start) E.linkRelayed o with
          egress := out 0xFFFF (start + 600000) fate data :: s.egress }) ∧
      ((getPlane s h).node ≠ 2 → does (.relayStartBlock link true start rx i) s (fun t =>
        t = { noteUnplanned s link true start with egress := out 0xFFFF (start + 600000) fate data :: s.egress })) ∧
      ((getPlane s h).node = 2 → does (.relayStartBlock link true start rx i) s (fun t => t = s))) ∧
    (transparent s h = false →
      (∀ tk, bellWindow s link start = some tk → does (.relayStartBlock link true start rx i) s (fun t =>
        t = { s with egress := out 0xFFFF (pass tk 0) fate data :: s.egress })) ∧
      (bellWindow s link start = none → does (.relayStartBlock link true start rx i) s (fun t => t = lost)) ∧
      (∀ p tk, s.bb.inForce.entries.findSome? (fun p => (slotWindow s link p start).map (fun x => (p, x.2))) = some (p, tk) →
        (dur ≤ frameTime p.len + 32000 → does (.relayStartBlock link false start rx i) s (fun t =>
          t = { bumpi s E.linkRelayed o with egress := out p.slot (pass tk p.offset) fate data :: s.egress })) ∧
        (frameTime p.len + 32000 < dur → does (.relayStartBlock link false start rx i) s (fun t =>
          recorded t 0x3003 ∧ noted { bumpi (bumpi s E.linkRelayed o) E.linkGuardCuts o with
            egress := out p.slot (pass tk p.offset) 1 (data.take p.len) :: s.egress } t))) ∧
      ((∀ p ∈ s.bb.inForce.entries, slotWindow s link p start = none) →
        does (.relayStartBlock link false start rx i) s (fun t => t = lost)))

/-- What a hub sends on both links of its plane, a message of plan unit `u` of the crossing that begins at `tk`: those that work carry it, each
at the passage time of its direction (09 R232); `a` is its first field. -/
def sentBoth (s t : State) (plane : Nat) (kind : EgKind) (tk u a : Nat) (d : List Byte) : Prop :=
  let one := fun (i : Nat) => if (getLink s i).state = 0 then [] else
    [({ kind := kind, port := i, a := a
        b := (passage s plane (leavesAft (getPlane s plane).reversed i) tk u).toNat, data := d } : Egress)]
  t.egress = one (2 * plane + 1) ++ one (2 * plane) ++ s.egress

/-- BELL_SEND of the ferryman: 48 bytes with the crossing number at byte 8, T_k at byte 16 and the key number at byte 7, on every working
link at the passage time of its direction, behind the low 24 bits of the crossing number; the hub's own frames follow that key. -/
def bellSendRule : Prop :=
  ∀ (s : State) (plane : Fin 2), hubSends s plane = true → (getPlane s plane).node ≠ 0 → s.bb.isFerry = true →
    s.bb.claiming = false → s.bb.yieldK = none →
    does (.bellSend plane) s (fun t =>
      t = { nameKey { s with
              bb.bellK := some s.cyc.k
              bb.coldEver := if s.bb.bellK ≠ some s.cyc.k ∧ s.bb.coldFlag = true then s.bb.coldEver + 1 else s.bb.coldEver }
            plane s.bb.keyNamed with egress := t.egress } ∧
      ∃ d, sentBoth s t plane .bell s.cyc.tk 0 (bellX t % 2 ^ 24) d ∧ d.length = 48 ∧
        d.getD 0 0 = 1 ∧ d.getD 7 0 = BitVec.ofNat 8 s.bb.keyNamed ∧ (d.drop 8).take 8 = (leBytes 8 (bellX t)).reverse ∧
        (d.drop 16).take 8 = (leBytes 8 s.cyc.tk).reverse)

/-- SLOT_TRANSMIT: an occurrence of a slot of this node that is not yet sent carries the telegram that the voter released for it, on every
working link, and is marked; a telegram that met its deadline unreleased goes as the held copy with STALE, unless its stall issues none;
without either the slot stays empty, and so it does once the module is lost. -/
def slotTransmitRule : Prop :=
  ∀ (s : State) (plane : Fin 2) (slot i x tk src : Nat) (p : PlanEntry), src = srcOfTrain s p.ident →
    s.bb.inForce.entries.find? (fun p => p.slot = slot) = some p → hubSends s plane = true →
    ((getPlane s plane).node = 4 ∨ (getPlane s plane).node = 5) → p.node = s.bb.address →
    occurrence s plane p i = some (x, tk) → p.stall ≠ 0xFFFF →
    let sent := fun (t : State) => { updPlane s plane (fun pl => { pl with
      slotSeen := nset pl.slotSeen (slotKey x p.slot) 3, released := nerase pl.released src }) with
        egress := t.egress, cyc.hubOpen := t.cyc.hubOpen }
    (∀ o, s.agree.lost = false → nget? (getPlane s plane).released src = some o → o.stale = false →
      does (.slotTransmit plane slot i) s (fun t =>
        sentBoth s t plane .telegram tk p.offset p.slot
          (frameOf s plane x p 1 (64 * b2n (mirroredStall s p.stall)) o.seq o.data) ∧ t = sent t ∧
        (mapsTelegram s src = false → p.ident / 64 ≠ 4065 → t.cyc.hubOpen = s.cyc.hubOpen))) ∧
    (∀ o, s.agree.lost = false → nget? (getPlane s plane).released src = some o → o.stale = true →
      does (.slotTransmit plane slot i) s (fun t => t.cyc.hubOpen = s.cyc.hubOpen ∧
        if issuesTelegrams s p.stall then
          sentBoth s t plane .heldTelegram tk p.offset p.slot
            (frameOf s plane x p 1 (128 + 64 * b2n (mirroredStall s p.stall)) o.seq o.data) ∧ t = sent t
        else t = updPlane s plane (fun pl => { pl with released := nerase pl.released src }))) ∧
    (s.agree.lost = false → nget? (getPlane s plane).released src = none → (getHub s plane).voter.outputHold = false →
      does (.slotTransmit plane slot i) s (fun t => t = s)) ∧
    (s.agree.lost = true → does (.slotTransmit plane slot i) s (fun t => t = s))

/-- BACKBONE_FRAME_RECEIVED in the acceptance window of a slot of another node in train crossing x. A right frame counts in the slot's received
frames and, where this module is addressed and landed, joins the hub's next image; a frame that is not right counts as missed; one whose tag
does not verify is also recorded, with event 0x3002. A frame in no window, or in that of an occurrence that has its outcome, changes nothing. -/
def frameRule : Prop :=
  ∀ (s : State) (link : Fin 4) (f : BbFrame) (h : Nat), h = link / 2 → hubUp s h = true →
    (getLink s link).state = 2 → (getLink s link).edge = false → ((getPlane s h).node = 4 ∨ (getPlane s h).node = 5) →
    (windowAt s link f.start = none → does (.backboneFrameReceived link f) s (fun t => t = s)) ∧
    (∀ p x, windowAt s link f.start = some (p, x) →
      let u := updPlane s h (fun pl => { pl with slotSeen := nset pl.slotSeen (slotKey x p.slot) 1 })
      (nhas (getPlane s h).slotSeen (slotKey x p.slot) = true → does (.backboneFrameReceived link f) s (fun t => t = s)) ∧
      (nhas (getPlane s h).slotSeen (slotKey x p.slot) = false →
        (frameRight s f p x = false → does (.backboneFrameReceived link f) s (fun t => t = bumps u E.slotMissed (h + 1) p.slot 1)) ∧
        (frameRight s f p x = true → (bbKeyOf s f.key).isSome = true → f.tagOk = false →
          does (.backboneFrameReceived link f) s (fun t => recorded t 0x3002 ∧
            noted (bumps (bumpi u E.linkTagFail link) E.slotMissed (h + 1) p.slot 1) t)) ∧
        (frameRight s f p x = true → (bbKeyOf s f.key).isSome = true → f.tagOk = true → keyAllowed s h f.key = true →
          telegramRight f p = true → f.twin = false →
          does (.backboneFrameReceived link f) s (fun t =>
            t = { updLink (bumps u E.slotRx (h + 1) p.slot 1) link (fun l => { l with lastPeer := s.cyc.k }) with
              bb.lastHeard := nset s.bb.lastHeard p.node f.t
              cyc.hubOpen := vupd s.cyc.hubOpen h (fun l => if p.dest = 0 ∨ p.dest = s.bb.address / 4 then
                l ++ [{ kind := 1, source := srcOfTrain s p.ident, seq := f.seq, stamp := f.t, forced := f.force, data := f.data }]
                else l) }))))

/-- SPEED_REF_TELEGRAM, DATUM_TELEGRAM and UTC_TELEGRAM. -/
def systemTelegramRule : Prop :=
  ∀ (s : State) (x : Int) (n : Nat) (valid : Bool),
    does (.speedRefTelegram x valid) s (fun t => t = { s with sup.tp.refV := if valid then some (x, s.cyc.k) else none }) ∧
    (s.sup.tp.lastDatum ≠ some n → s.sup.tp.datumInstant ≠ some n → s.sup.tp.datumDue ≠ some n →
      does (.datumTelegram n) s (fun t => t = { s with sup.tp.datumInstant := some n })) ∧
    does (.utcTelegram x true) s (fun t => t = { s with sup.tp.utcDue := some x })

/-- BB_PLAN_LOAD: a valid plan becomes the configured one, with event 0x3004. BB_COMPANION_LOAD and BB_COMPANION_REMOVE: the companion plans.
BB_KEY_ACTIVE and BB_DATUM_ANNOUNCE: what the bells name and the DATUM slots carry from then on. -/
def planRule : Prop :=
  ∀ (s : State) (ctx v : Nat) (p : Plan), p = parsePlan (pkgPayload s v) v →
    (accepts s E.bbPlanLoad ctx 0x3000 5 v → planConds s (mkW s ctx 0x3000 5 E.bbPlanLoad.len v E.bbPlanLoad) = [] →
      does (.bbPlanLoad ctx v) s (fun t => recorded t 0x3004 ∧ noted { s with bb.configured := some p } t)) ∧
    (accepts s E.bbCompanionLoad ctx 0x3020 4 v →
      planConds s (mkW s ctx 0x3020 4 E.bbCompanionLoad.len v E.bbCompanionLoad) = [] →
      (s.bb.companions.length < 8 ∨ s.bb.companions.any (fun q => q.number = p.number) = true) →
      does (.bbCompanionLoad ctx v) s (fun t =>
        t = { s with bb.companions := s.bb.companions.filter (fun q => q.number ≠ p.number) ++ [p] })) ∧
    (accepts s E.bbCompanionRemove ctx 0x3020 5 v → s.bb.companions.any (fun q => q.number = v) = true →
      does (.bbCompanionRemove ctx v) s (fun t =>
        t = { s with bb.companions := s.bb.companions.filter (fun q => q.number ≠ v) })) ∧
    (accepts s E.bbKeyActive ctx 0x3012 1 v → does (.bbKeyActive ctx v) s (fun t =>
      t = filed s E.bbKeyActive ctx 0x3012 1 v (svx s E.bbKeyActive 0x3012 1 (chosen s E.bbKeyActive ctx) v))) ∧
    (accepts s E.bbDatumAnnounce ctx 0x3000 10 v →
      s.bb.inForce.entries.any (fun p => p.ident / 64 = 4065 && p.node = s.bb.address) = true →
      does (.bbDatumAnnounce ctx v) s (fun t =>
        t = filed s E.bbDatumAnnounce ctx 0x3000 10 v { s with bb.datumSlots := some (v, 8) }))

/-! ## Inauguration, landing and coupling (10) -/

/-- The bell is that of the hub's own ferryman, under the key in use, on an UP link that is no edge, and its tag verifies. -/
def ownBell (s : State) (link : Fin 4) (h : Nat) (b : Bell) : Prop :=
  h = link / 2 ∧ hubUp s h = true ∧ (getLink s link).state = 2 ∧ (getLink s link).edge = false ∧ b.tagOk = true ∧
    (bbKeyOf s b.key).isSome = true

/-- BELL_RECEIVED. A bell whose tag does not verify counts as missed. A LANDED hub with a valid time base takes a matching bell: its phase error
is T + w - 600 ns - arrival in ps, and the ferryman's address, priority and inauguration number follow the bell. A LISTEN hub takes plan,
crossing length and crossing number of the first one, and lands. -/
def bellRule : Prop :=
  ∀ (s : State) (link : Fin 4) (b : Bell) (h : Nat) (e : Int), h = link / 2 →
    e = ((b.time * 1000 : Nat) : Int) + (if ((link.val % 2 = 0) != (getPlane s h).reversed) = true then
      (getPlane s h).wAft else (getPlane s h).wFore) - 600000 - b.arrival →
    (hubUp s h = true → (getLink s link).state ≠ 0 → (bbKeyOf s b.key).isSome = true → b.tagOk = false →
      does (.bellReceived link b) s (fun t => t = bump s E.bbBellsMissed)) ∧
    (ownBell s link h b → b.cold = false → (getPlane s h).node = 4 → (bellWindow s link b.arrival).isSome = true → bellMatches s h b = true →
      s.bb.claiming = false → b.merge = false → b.key = (getPlane s h).keyCur → e.natAbs ≤ 200000 →
      (getHub s h).timeState ≠ 2 →
      does (.bellReceived link b) s (fun t =>
        t = { updPlane (updLink s link (fun l => { l with lastPeer := s.cyc.k })) h (fun p => { p with
                bellOk := true, missed := 0, phaseErr := e, facing := link % 2, bellCold := false, bellMerge := false
                errRun := 0 }) with
              bb.ferryman := b.address, bb.ferryPriority := b.priority, bb.inaug := b.inaug
              bb.inaugSeen := max s.bb.inaugSeen b.inaug, bb.noFerry := false
              hubs := vupd s.hubs h (fun d => { d with corr := (getHub t h).corr })
              st.freeCount := t.st.freeCount })) ∧
    (ownBell s link h b → b.cold = false → (getPlane s h).node = 1 → s.bb.isFerry = false → does (.bellReceived link b) s (fun t =>
      recorded t 0x3010 ∧ (getPlane t h).node = 3 ∧ (getPlane t h).planNo = b.plan ∧ (getPlane t h).takenX = some b.crossing ∧
      (getPlane t h).bellOk = true ∧ t.bb.cDue = (if b.n * 125000 = s.cyc.c then s.bb.cDue else some (b.n * 125000)) ∧
      t.bb.ferryman = b.address ∧ t.bb.inaug = b.inaug ∧ t.lanes = s.lanes ∧ t.sup.stalls = s.sup.stalls))

/-- COLD_BELL_RECEIVED: a LISTEN hub lands on it; a claimer lands on a better claim and gives its own up; a worse claim is
counted in BB_BELLS_MISSED. -/
def coldBellRule : Prop :=
  ∀ (s : State) (link : Fin 4) (b : Bell) (h : Nat), ownBell s link h b → b.cold = true →
    ((getPlane s h).node = 1 → s.bb.isFerry = false → does (.coldBellReceived link b) s (fun t =>
      recorded t 0x3010 ∧ (getPlane t h).node = 3 ∧ (getPlane t h).planNo = b.plan ∧
      t.bb.ferrySerial = b.crossing / 2 ^ 24 ∧ t.bb.ferryPriority = b.priority ∧ t.bb.coldFlag = false ∧
      t.bb.ferryman = s.bb.ferryman)) ∧
    ((getPlane s h).node = 2 →
      gv s E.bbPriority < b.priority ∨ (gv s E.bbPriority = b.priority ∧ b.crossing / 2 ^ 24 < Config.serial % 2 ^ 40) →
      does (.coldBellReceived link b) s (fun t =>
        t.bb.claiming = false ∧ (getPlane t h).node = 3 ∧ ((getPlane s (1 - h)).node = 2 → (getPlane t (1 - h)).node = 3))) ∧
    ((getPlane s h).node = 2 →
      b.priority < gv s E.bbPriority ∨ (gv s E.bbPriority = b.priority ∧ Config.serial % 2 ^ 40 ≤ b.crossing / 2 ^ 24) →
      does (.coldBellReceived link b) s (fun t =>
        t = bump (updLink s link (fun l => { l with lastPeer := s.cyc.k })) E.bbBellsMissed))

/-- BELL_LOSS: three crossings without an accepted bell put a LANDED time base in HOLDOVER. -/
def bellLossRule : Prop :=
  ∀ (s : State) (plane : Fin 2), hubUp s plane = true → 3 ≤ (getPlane s plane).missed → (getHub s plane).timeState = 1 →
    s.bb.isFerry = false → does (.bellLoss plane) s (fun t => t = updHub s plane (fun d => { d with timeState := 2 }))

/-- PROBE_SEND, PROBE_RECEIVED, ECHO_RECEIVED and LINK_DELAY_LOSS: one probe in a crossing; its echo 96 ns after it; the sample
(t_echo - t_probe - 96 ns) / 2, valid from 0 to 640 ns, among the last 16; the delay is lost after 16 crossings without one. -/
def delayRule : Prop :=
  ∀ (s : State) (link : Fin 4) (l : BLink), l = getLink s link → hubUp s (link / 2) = true →
    (∀ at_ : Int, hubSends s (link / 2) = true → (getPlane s (link / 2)).node ≠ 0 → l.state ≠ 0 → l.probeAt ≠ some s.cyc.k → does (.probeSend link at_) s (fun t =>
      t = { updLink s link (fun l => { l with
              probeCount := (l.probeCount + 1) % 65536, probeSent := some ((l.probeCount + 1) % 65536, at_.toNat)
              probeAt := some s.cyc.k }) with
            egress := { kind := .probe, port := link, a := (l.probeCount + 1) % 65536, b := at_.toNat } :: s.egress })) ∧
    (∀ (n : Nat) (at_ : Int), hubSends s (link / 2) = true → (getPlane s (link / 2)).node ≠ 0 → l.state ≠ 0 → does (.probeReceived link n false at_) s (fun t =>
      t = { s with egress := { kind := .echo, port := link, a := n % 65536, b := (at_ + 96000).toNat } :: s.egress })) ∧
    (∀ (n t0 : Nat) (at_ d : Int), l.probeSent = some (n, t0) → l.state ≠ 0 → d = (at_ - (t0 : Int) - 96000) / 2 →
      does (.echoReceived link n at_) s (fun t =>
        t = updLink s link (fun l => if 0 ≤ d ∧ d ≤ 640000 then
          { l with probeSent := none, samples := (d.toNat :: l.samples).take 16, noDelay := false, delayLost := false
                   lastSample := s.cyc.k }
          else { l with probeSent := none }))) ∧
    (l.state ≠ 0 → l.lastSample + 16 ≤ s.cyc.k → l.delayLost = false → does (.linkDelayLoss link) s (fun t => recorded t 0x3016 ∧
      noted (updLink s link (fun l => { l with noDelay := true, delayLost := true, samples := [] })) t))

/-- ROSTER_SEND and ROSTER_RECEIVED: the ferryman sends the announced roster, else that in force, with the anchor shifts of the plane; a
landed hub notes the shifts of its plane and takes another roster for its effective crossing. -/
def rosterRule : Prop :=
  (∀ (s : State) (plane : Fin 2), hubSends s plane = true → s.bb.isFerry = true → (getPlane s plane).node = 5 →
    does (.rosterSend plane) s (fun t =>
      t = { updPlane s plane (fun p => { p with rosterAt := some s.cyc.k }) with egress := t.egress } ∧
      ∃ d, sentBoth s t plane .roster s.cyc.tk (serviceUnit s 576) 0 d ∧
        (rosterBytes { (s.bb.rosterNext.getD s.bb.roster) with
          shiftAft := (getPlane s plane).shift.1, shiftFore := (getPlane s plane).shift.2 }).isPrefixOf d = true)) ∧
  (∀ (s : State) (link : Fin 4) (r : RosterMsg), hubUp s (link / 2) = true → (getLink s link).state ≠ 0 →
    (getLink s link).edge = false →
    ((getPlane s (link / 2)).node = 3 ∨ (getPlane s (link / 2)).node = 4 ∨ (getPlane s (link / 2)).node = 6) → r.tagOk = true →
    does (.rosterReceived link r) s (fun t =>
      let u := { r.roster with shiftAft := 0, shiftFore := 0 }
      t = { updPlane s (link / 2) (fun p => { p with rosterOk := true, shift := (r.roster.shiftAft, r.roster.shiftFore) }) with
        bb.rosterNext := if s.bb.roster = u ∨ s.bb.isFerry = true then s.bb.rosterNext else some u }))

/-- CHAIN_ORIGINATE of the ferryman: an outward chain of 48 bytes with hop count 0 on each working link whose delay is known, at the passage
time of its cell in the service window. -/
def chainOriginateRule : Prop :=
  ∀ (s : State) (plane : Fin 2), hubSends s plane = true → (getPlane s plane).node = 5 →
    does (.chainOriginate plane) s (fun t => t = { s with egress := t.egress } ∧ ∃ d e, d.length = 48 ∧ e.length = 48 ∧
      (d.drop 4).take 2 = [0, 0] ∧ (e.drop 4).take 2 = [0, 0] ∧
      let at_ := fun (i : Nat) =>
        (passage s plane (leavesAft (getPlane s plane).reversed i) s.cyc.tk (serviceUnit s 192)).toNat
      t.egress = (if (getLink s (2 * plane + 1)).state = 0 ∨ (getLink s (2 * plane + 1)).noDelay = true then [] else
          [{ kind := .outwardChain, port := 2 * plane + 1, b := at_ (2 * plane + 1), data := e }]) ++
        (if (getLink s (2 * plane)).state = 0 ∨ (getLink s (2 * plane)).noDelay = true then [] else
          [{ kind := .outwardChain, port := 2 * plane, b := at_ (2 * plane), data := d }]) ++ s.egress)

/-- OUTWARD_CHAIN in the own segment: the hub takes its offsets from the chain, one hop and the link's delay and 600 ns further, and passes the
chain on. INWARD_CHAIN at the ferryman: the units beyond that link, none of them new. At another landed hub it is passed on, but
over no edge. -/
def chainRule : Prop :=
  ∀ (s : State) (link : Fin 4) (h : Nat), h = link / 2 → hubUp s h = true → (getLink s link).state ≠ 0 →
    (getLink s link).edge = false → (getLink s link).noDelay = false →
    (∀ (ch : OutChain) (step : Int), (getPlane s h).node = 4 → s.bb.claiming = false → ch.tagOk = true →
      chainNow s h ch.crossing = true → step = (linkDelayPs (getLink s link) : Int) + 600000 →
      does (.outwardChain link ch) s (fun t =>
        t = { updPlane s h (fun p => { p with
                wAft := if ch.aft then ch.wAft + step else ch.wAft - step
                wFore := if ch.aft then ch.wFore - step else ch.wFore + step
                facing := link % 2, chainOk := true, hops := ch.hops + 1, reversed := (link.val % 2 = 0) != ch.aft
                chainAt := if p.chainAt.isSome then p.chainAt else some s.cyc.k }) with
              bb.ferrySerial := ch.serial, egress := t.egress } ∧
        (((getLink s (otherLink link)).state = 0 ∨ (getLink s (otherLink link)).noDelay = true ∨ hubSends s h = false) →
          t.egress = s.egress) ∧
        ((getLink s (otherLink link)).state ≠ 0 → (getLink s (otherLink link)).noDelay = false → hubSends s h = true →
          ∃ d, t.egress = { kind := .outwardChain, port := otherLink link, data := d
                            b := (passage t h ch.aft s.cyc.tk (serviceUnit s 192)).toNat } :: s.egress))) ∧
    (∀ ch : InChain, (getPlane s h).node = 5 → ch.tagOk = true → ch.edge = none →
      (∀ u ∈ ch.units, s.bb.roster.units.any (fun r => r.id = u.id) = true) →
      does (.inwardChain link ch) s (fun t =>
        t = { updPlane s h (fun p => if ch.aft then { p with foreUnits := ch.units, endAft := ch.wAft }
                else { p with aftUnits := ch.units, endFore := ch.wFore }) with
              bb.unitsFound := s.bb.unitsFound ++ ch.units.map (·.id) })) ∧
    (∀ ch : InChain, (getPlane s h).node = 4 → s.bb.claiming = false → ch.tagOk = true →
      (getLink s (otherLink link)).edge = true → does (.inwardChain link ch) s (fun t => t = s)) ∧
    (∀ ch : InChain, (getPlane s h).node = 4 → s.bb.claiming = false → ch.tagOk = true → (getLink s (otherLink link)).edge = false →
      (getLink s (otherLink link)).state ≠ 0 → (getLink s (otherLink link)).noDelay = false → hubSends s h = true →
      does (.inwardChain link ch) s (fun t => t = { s with egress := t.egress } ∧
        ∃ d, t.egress = { kind := .inwardChain, port := otherLink link, data := d
                          b := (passage s h ch.aft s.cyc.tk (serviceUnit s 320)).toNat } :: s.egress))

/-- EDGE_DETECTED at a node that is not the ferryman: the link is an edge, and knows the foreign claim once a foreign bell has come. MERGE_YIELD:
the joining ferryman sends its last bells with MERGE. -/
def edgeRule : Prop :=
  (∀ (s : State) (link : Fin 4) (ch : OutChain), hubUp s (link / 2) = true → (getLink s link).state = 2 → ch.tagOk = true →
    isForeign s (link / 2) ch = true → s.bb.isFerry = false →
    does (.edgeDetected link ch) s (fun t => t = updLink s link (fun l =>
      match l.fBell with
      | none => { l with edge := true }
      | some b => { l with
          edge := true
          foreign := some { priority := ch.priority, n := ch.n, serial := ch.serial
                            offset := (b + (if ch.aft then ch.wAft else ch.wFore) + (linkDelayPs l : Int)) / 1000 } }))) ∧
  (∀ s : State, s.bb.mergeJoin = true → 2 ≤ s.bb.mergeRun → s.bb.yieldK = none →
    does .mergeYield s (fun t => t = { s with bb.yieldK := some s.cyc.k, bb.mergeFlag := true }))

/-- LISTEN_TIMEOUT: after 3 C + (255 - priority) x 8 us without a bell a module of priority above 0 claims with COLD bells, and its listening
hubs are COLD_CLAIM; one of priority 0 records that no ferryman is found. -/
def listenRule : Prop :=
  ∀ (s : State) (plane : Fin 2) (p c t0 : Nat), p = gv s E.bbPriority → c = gv s E.bbCrossingN * 125000 →
    listenFrom s = some t0 → (getPlane s plane).node = 1 → (getPlane s (1 - plane)).node ≤ 1 → s.bb.claiming = false →
    t0 + 3 * c + (255 - p) * 8000 ≤ s.cyc.tk →
    (0 < p → does (.listenTimeout plane) s (fun t => recorded t 0x3010 ∧
      noted { s with
        bb.claiming := true, bb.running := false, bb.coldSent := 0, bb.coldFlag := true, bb.bellK := none
        bb.claimInaug := s.bb.inaugSeen + 1, bb.cDue := some c, bb.alignDue := true
        hubs := s.hubs.mapIdx (fun h d => if (getPlane s h).node = 1 then { d with timeState := 0 } else d)
        bb.planes := s.bb.planes.map (fun pl => { pl with
          wAft := 0, wFore := 0, reversed := false, foreUnits := [], aftUnits := []
          node := if pl.node = 1 then 2 else pl.node }) } t)) ∧
    (p = 0 → s.bb.noFerry = false → does (.listenTimeout plane) s (fun t => recorded t 0x3011 ∧
      noted { s with bb.noFerry := true } t))

/-- CLAIM_CONFIRMED after eight bells: the module is the ferryman, its claiming hubs are FERRYMAN with the ferryman's time base, event 0x3011; a
cold start announces its first roster. CONTENTION_TIMEOUT: a landed module whose hubs have missed their ferryman for 3 + 255 - priority crossings
claims. -/
def claimRule : Prop :=
  (∀ s : State, s.bb.claiming = true → 8 ≤ s.bb.coldSent → does .claimConfirmed s (fun t => recorded t 0x3011 ∧
    t.bb.claiming = false ∧ t.bb.isFerry = true ∧ t.bb.inaug = s.bb.claimInaug ∧ t.bb.ferryPriority = gv s E.bbPriority ∧
    t.bb.noFerry = false ∧
    (∀ h, h < 2 → ((getPlane s h).node = 2 ∨ (getPlane s h).node = 4) →
      (getPlane t h).node = 5 ∧ (getHub t h).timeState = 3) ∧
    (s.bb.running = true → t.bb.rosterNext = s.bb.rosterNext ∧ t.bb.roster = s.bb.roster) ∧
    (s.bb.running = false → ∃ r, t.bb.rosterNext = some r ∧ r.cold = true ∧ r.inaug = s.bb.claimInaug + 1))) ∧
  (∀ (s : State) (p : Nat), p = gv s E.bbPriority → 0 < p → (getPlane s 0).node = 4 → (getPlane s 1).node = 4 →
    3 + (255 - p) ≤ (getPlane s 0).missed → 3 + (255 - p) ≤ (getPlane s 1).missed → s.bb.claiming = false →
    s.bb.isFerry = false → does .contentionTimeout s (fun t => t = { s with
      bb.claiming := true, bb.running := true, bb.coldSent := 0, bb.coldFlag := false, bb.mergeFlag := false
      bb.bellK := none, bb.claimInaug := s.bb.inaug + 1 }))

/-- UNIT_ABSENCE_REMOVAL: a unit that 64 crossings have not shown is to be removed at the next roster change. -/
def absenceRule : Prop :=
  ∀ (s : State) (u : Nat), s.bb.isFerry = true → 64 ≤ nget s.bb.absent u 0 →
    s.bb.roster.units.any (fun x => x.id = u) = true → s.bb.removals.contains u = false →
    does (.unitAbsenceRemoval u) s (fun t => t = { s with bb.removals := s.bb.removals ++ [u] })

/-! ## Consist ports (11 R287 to R290) -/

/-- The VLAN of a frame at a port: its tag's, or the port's own for an untagged or priority-tagged one. -/
def frameVlan (s : State) (p : Nat) (f : EthFrame) : Nat := if f.vid.getD 0 = 0 then gvi s E.portPvid p else f.vid.getD 0

/-- PORT_FRAME_RECEIVED at a port that is up. A frame that is malformed or of a VLAN of which the port is no member is discarded and
counted. One addressed to this hub that the endpoint terminates is only counted here. One that is not addressed to it is forwarded
where transit is on: its source is learnt, and it leaves by the ports of its VLAN that take transit and are up, or by the one at
which its destination was learnt; a hub that does not send forwards none. -/
def portFrameRule : Prop :=
  ∀ (s : State) (port : Fin 16) (f : EthFrame) (u : State), portUp s port = true → u = bumpi s E.portRxFrames port →
    (f.badTag = true ∨ f.fcsOk = false ∨ f.len < 64 ∨ 9216 < f.len →
      does (.portFrameReceived port f) s (fun t => t = bumpi u E.portDiscards port)) ∧
    (f.badTag = false → f.fcsOk = true → 64 ≤ f.len → f.len ≤ 9216 →
      (memberOf u port (frameVlan u port f) = false →
        does (.portFrameReceived port f) s (fun t => t = bumpi u E.portDiscards port)) ∧
      (memberOf u port (frameVlan u port f) = true → f.dst = Config.mac (port / 8) → terminates u port f = true →
        does (.portFrameReceived port f) s (fun t => t = u)) ∧
      (memberOf u port (frameVlan u port f) = true → f.dst ≠ Config.mac (port / 8) → gvi u E.portTransit port = 1 →
        (getHub u (port / 8)).macs.any (fun e => e.mac = f.src) = false → (getHub u (port / 8)).macs.length < 8192 →
        does (.portFrameReceived port f) s (fun t =>
          let v := updHub u (port / 8) (fun d => { d with macs := d.macs ++ [{ mac := f.src, port := port, at_ := f.t }] })
          (hubSends s (port / 8) = false → t = v) ∧ (hubSends s (port / 8) = true →
          t.hubs = v.hubs ∧ t = { v with egress := t.egress, cnt := t.cnt } ∧
          t.egress = ((forwardTo v (port / 8) port (frameVlan u port f) f.dst).map (fun q =>
            { kind := EgKind.ethFrame, port := q, a := f.dst, b := f.src
              c := if gvi u E.portPvid q = frameVlan u port f then 0 else frameVlan u port f })).reverse ++ s.egress))))

/-- MAC_AGEING: an entry not refreshed for 300 s is gone; every other entry stays. -/
def macAgeingRule : Prop :=
  ∀ (s : State) (hub : Fin 2) (mac i : Nat), does (.macAgeing hub mac i) s (fun t =>
    t = { s with hubs := t.hubs } ∧
    hubIs s t hub { getHub s hub with
      macs := (getHub s hub).macs.filter (fun e => !(e.mac = mac && e.at_ + 300000000000 ≤ i)) })

/-- ARP_REQUEST and ICMP_ECHO_REQUEST that reach the endpoint of a port's network are answered; a hub answers up to 100 echo requests a
second. -/
def endpointRule : Prop :=
  ∀ (s : State) (port : Fin 17) (ip : Nat) (u : State), portUp s port = true → ip ≠ 0 → ip = endpointIp s port →
    (port.val = 16 ∨ hubSends s (port / 8) = true) → u = (if port.val < 16 then bumpi s E.portTxFrames port else s) →
    (∀ mac vlan, (port.val = 16 ∨ vlan = endpointVlan s port) → does (.arpRequest port ip mac vlan) s (fun t =>
      t = { u with egress := { kind := .arpReply, port := port, a := ip, b := mac, c := vlan } :: s.egress })) ∧
    (∀ src data i, ((nget s.con.icmp (portHub s port) []).filter (fun x => i < x + 1000000000)).length < 100 →
      does (.icmpEchoRequest port ip src data i) s (fun t => t = { u with
        con.icmp := nset s.con.icmp (portHub s port)
          (i :: (nget s.con.icmp (portHub s port) []).filter (fun x => i < x + 1000000000))
        egress := { kind := .icmpReply, port := port, a := src, data := data } :: s.egress })) ∧
    (∀ src data i, 100 ≤ ((nget s.con.icmp (portHub s port) []).filter (fun x => i < x + 1000000000)).length →
      does (.icmpEchoRequest port ip src data i) s (fun t => t.egress = s.egress ∧ t.cnt = s.cnt))

/-- CONSIST_PORT_LINK_CHANGE: block lock and LOS of the port; a port whose shed is CLOSED, or has stopped its receivers, has no lock. -/
def portLinkRule : Prop :=
  ∀ (s : State) (port : Fin 16) (lock los down : Bool),
    down = decide ((getShed s (portShed port)).state = 2 ∨
      ((getShed s (portShed port)).state = 1 ∧ (vget s.shedHub (portShed port) {}).stopped = true)) →
    does (.consistPortLinkChange port lock los) s (fun t =>
      t = { s with con.ports := vupd s.con.ports port (fun x => { x with blockLock := lock && !down, los := los }) })

/-- TRDP_PROCESS_DATA at the endpoint: a telegram that an allowlist entry lets in joins the hub's next image under the number of the first
such entry; any other is counted. -/
def trdpRule : Prop :=
  ∀ (s : State) (port : Fin 16) (comId src seq i : Nat) (data : List Byte), portUp s port = true → endpointIp s port ≠ 0 →
    let vlan := endpointVlan s port
    let hits := fun n => trdpMatch s n port comId src vlan data.length
    (∀ n, n < 128 → hits n = true → (∀ m, m < n → hits m = false) →
      does (.trdpProcessData port comId src vlan seq true data i) s (fun t => t = { s with
        cyc.hubOpen := vupd s.cyc.hubOpen (port / 8)
          (· ++ [{ kind := 3, source := n, seq := seq, stamp := i, port := port, data := data }]) })) ∧
    ((∀ n, n < 128 → hits n = false) → does (.trdpProcessData port comId src vlan seq true data i) s (fun t =>
      t = bump s E.trdpDiscarded)) ∧
    does (.trdpProcessData port comId src vlan seq false data i) s (fun t => t = bump s E.trdpDiscarded)

/-! ## Handshakes (11 R291, R297 to R300) -/

/-- The association that a first HELLO fragment begins. -/
def newHandshake (port i : Nat) (f : Fragment) : Handshake :=
  { since := i, fragSince := i, count := f.count, nets := 2 ^ (if port = 16 then 0 else port / 8), service := port = 16,
    frags := [(f.num, f.data)] }

/-- A handshake message leaves, in its fragments, on each network from which a fragment of the HELLO arrived (R297) where its hub sends and is
reached; at the service port for an association of its own. -/
def hsLeaves (s t : State) (id : Nat) (h : Handshake) (kind : EgKind) (code : Nat) (body : List Byte) : Prop :=
  t.egress = [1, 0].flatMap (fun n =>
    if bit h.nets n = true ∧ (h.service = true ∨ hubSends s n = true ∧ reachesNet s n = true) then
      ((hsFragments s id h kind body).map (fun d =>
        ({ kind := kind, port := if h.service then 16 else n, a := id, b := code, data := d } : Egress))).reverse
    else []) ++ s.egress

/-- HELLO in one fragment of a new association on a consist port, where nothing refuses it: a session number is assigned, its session is in
HANDSHAKE, and ANSWER leaves with the number. The first fragment of several is kept. A malformed HELLO is refused: counted, recorded with
event 0x3032, and the association ends. -/
def helloRule : Prop :=
  ∀ (s : State) (port : Fin 17) (id i : Nat) (f : Fragment) (m : HelloMsg), portUp s port = true → endpointIp s port ≠ 0 →
    (port.val = 16 ∨ reachesNet s (port / 8) = true) → nget? s.con.handshakes id = none → id ≠ 0 → f.version = 1 →
    s.con.handshakes.length < 64 → f.data.length ≤ gv s E.conMtu - 44 →
    f.num < f.count → f.count ≤ 16 →
    (∀ n slot, f.count = 1 → port.val < 16 → m.formed = true → m.supported = true → denied s m.fp = false →
      anchorOf s false m.root = some slot → m.chainOk = true →
      (s.sup.tp.utcValid = true → withinValidity s i m.notBefore m.notAfter = true) →
      (∀ p ∈ s.con.handshakes, p.2.fp ≠ m.fp) → assignNumber s m.fp = some n → nhas s.con.sessions n = false →
      does (.hello port id f m i) s (fun t =>
        t = { s with con.sessions := t.con.sessions, con.handshakes := t.con.handshakes, egress := t.egress,
                     st.freeCount := t.st.freeCount } ∧
        t.con.sessions = nset s.con.sessions n
          { state := 1, fp := m.fp, anchor := slot, reserved := (reservations s).any (fun r => r.2 = n) } ∧
        (∃ h, t.con.handshakes = nset s.con.handshakes id h ∧ h.number = some n ∧ h.fp = m.fp ∧ h.done = false ∧
          h.finish = true ∧ h.since = i ∧ h.undated = !s.sup.tp.utcValid ∧ h.service = false ∧ h.nets = 2 ^ (port.val / 8) ∧
          (h.answered.drop 32).take 2 = (leBytes 2 n).reverse ∧ hsLeaves s t id h .handshakeAnswer 0 h.answered))) ∧
    (2 ≤ f.count → does (.hello port id f m i) s (fun t => t = { s with
      con.handshakes := nset s.con.handshakes id (newHandshake port i f) })) ∧
    (f.count = 1 → m.formed = false → does (.hello port id f m i) s (fun t => recorded t 0x3032 ∧
      noted { bump s E.sessRefused with
        con.handshakes := nerase (nset s.con.handshakes id (newHandshake port i f)) id, egress := t.egress } t ∧
      hsLeaves s t id (newHandshake port i f) .handshakeRefuse 0x04000002 [4, 0, 0, 2, 0]))

/-- FINISH in one fragment: with signature and confirmation right, READY is sent and the session opens at the next boundary; with either
wrong it is refused with reason 1. -/
def finishRule : Prop :=
  ∀ (s : State) (port : Fin 17) (id i n : Nat) (f : Fragment) (fin : FinishMsg) (h : Handshake), portUp s port = true →
    (port.val = 16 ∨ reachesNet s (port / 8) = true) → nget? s.con.handshakes id = some h → h.number = some n → h.done = false → h.frags = [] → f.version = 1 →
    f.count = 1 → f.num = 0 →
    f.data.length ≤ gv s E.conMtu - 44 → fin.formed = true →
    (fin.ok = true → does (.finish port id f fin i) s (fun t =>
      t = { s with con.handshakes := t.con.handshakes, egress := t.egress, st.freeCount := t.st.freeCount } ∧
      ∃ h', (∃ r, r.length = 16 ∧ h' = { h with count := 1, fragSince := i, frags := [], done := true, ready := r }) ∧
        t.con.handshakes = nset s.con.handshakes id h' ∧ hsLeaves s t id h' .handshakeReady 0 h'.ready)) ∧
    (fin.ok = false → does (.finish port id f fin i) s (fun t => recorded t 0x3032 ∧
      ∀ e, nget? s.con.sessions n = some e → e.state = 1 → t.con.sessions = nerase s.con.sessions n))

/-- FRAGMENT_TIMEOUT: a set incomplete after 1 s is dropped. HANDSHAKE_TIMEOUT: a handshake without READY after 5 s ends, and its number is
released. -/
def handshakeEndRule : Prop :=
  ∀ (s : State) (id i : Nat) (h : Handshake), nget? s.con.handshakes id = some h →
    (h.frags ≠ [] → h.fragSince + 1000000000 ≤ i → does (.fragmentTimeout id i) s (fun t =>
      t = { s with con.handshakes := if h.number = none then nerase s.con.handshakes id
                                     else nset s.con.handshakes id { h with frags := [] } })) ∧
    (∀ n e, h.done = false → h.since + 5000000000 ≤ i → h.number = some n → nget? s.con.sessions n = some e → e.state = 1 →
      does (.handshakeTimeout id i) s (fun t =>
        t = { s with con.sessions := nerase s.con.sessions n, con.handshakes := nerase s.con.handshakes id }))

/-! ## Protected records (11 R294 to R306) -/

/-- A record that a hub accepts: it verifies under the keys of the phase that it names, in an open session, and its number passes the hub's
replay window, which becomes `w`. -/
def recAccepted (s : State) (hub : Nat) (r : SessRecord) (n : Nat) (e : Session) (w : Window1) : Prop :=
  r.version = 1 ∧ n = recSession r.port r.session ∧ hubUp s hub = true ∧ portUp s r.port = true ∧ portHub s r.port = hub ∧
    getSess? s n = some e ∧ 2 ≤ e.state ∧ r.tagOk = true ∧ nhas e.secrets (r.phase % 4) = true ∧
    windowTake (vget e.wins hub {}) r.seq = some w

/-- The session once the hub has accepted a record of its peer: the window, the path on the hub's network, the instant it was last heard, and
the phase that it follows. -/
def heardBy (hub : Nat) (r : SessRecord) (e : Session) (w : Window1) : Session :=
  let p : Path := { mac := r.mac, ip := r.ip, udp := r.udp, vlan := r.vlan, port := r.port, at_ := r.t }
  let e := { e with
    wins := vupd e.wins hub (fun _ => w), lastRx := r.t
    pathA := if hub = 0 then some p else e.pathA, pathB := if hub = 1 then some p else e.pathB }
  if r.phase % 4 = (e.phase + 1) % 4 ∧ e.rekeyAccept = true then
    { e with phase := r.phase % 4, phaseChanged := some r.t, phaseBegan := r.t, sealedCount := 0, recvCount := 1, rekeyAccept := false }
  else { e with recvCount := e.recvCount + 1 }

/-- The sessions with one of them replaced. -/
def withSess (s : State) (n : Nat) (e : Session) : State := { s with con.sessions := nset s.con.sessions n e }

/-- The replay window: number 0 never passes; a number above the highest one passes and becomes the highest; one of the 1023 below it passes
once; an older one never. -/
def windowRule : Prop :=
  ∀ (w : Window1) (n : Nat),
    windowTake w 0 = none ∧
    (0 < n → w.high < n → ∃ v, windowTake w n = some v ∧ v.high = n) ∧
    (0 < n → n ≤ w.high → w.high ≤ n + 1023 → w.seen.contains n = false →
      windowTake w n = some { high := w.high, seen := n :: w.seen }) ∧
    (n ≤ w.high → w.seen.contains n = true → windowTake w n = none) ∧
    (n + 1023 < w.high → windowTake w n = none)

/-- Records that a hub does not accept: one that does not verify is counted, with event 0x3034; one outside the window is counted. -/
def recRefusedRule : Prop :=
  ∀ (s : State) (hub : Fin 2) (r : SessRecord) (n : Nat) (e : Session), n = recSession r.port r.session → hubUp s hub = true →
    portUp s r.port = true → portHub s r.port = hub → getSess? s n = some e → r.version = 1 →
    (r.tagOk = false → does (.sessionPing hub r) s (fun t => recorded t 0x3034 ∧
      noted (blockCount (withSess s n { e with authFail := e.authFail + 1 }) (0x5381 + hub) 4) t)) ∧
    (2 ≤ e.state → r.tagOk = true → nhas e.secrets (r.phase % 4) = true → windowTake (vget e.wins hub {}) r.seq = none →
      does (.sessionPing hub r) s (fun t => t = withSess s n { e with replays := e.replays + 1 }))

/-- SESSION_PING, SESSION_CLOSE_RECORD, SESSION_TELEGRAM_RECORD and SESSION_DAP_RECORD that a hub accepts. -/
def recRule : Prop :=
  ∀ (s : State) (hub : Fin 2) (r : SessRecord) (n : Nat) (e : Session) (w : Window1), recAccepted s hub r n e w →
    does (.sessionPing hub r) s (fun t => t = withSess s n (heardBy hub r e w)) ∧
    does (.sessionCloseRecord hub r) s (fun t => t = withSess s n { heardBy hub r e w with closing := some 1 }) ∧
    (∀ ident data, ident % 4096 = n → 1 ≤ ident / 4096 → ident / 4096 ≤ 255 →
      data.length ≤ min 4088 (gv s E.conMtu - 68) →
      does (.sessionTelegramRecord hub r ident data) s (fun t => t = { withSess s n (heardBy hub r e w) with
        cyc.hubOpen := vupd s.cyc.hubOpen hub
          (· ++ [{ kind := 2, source := ident, seq := r.seq, stamp := r.t, port := r.port, data := data }]) })) ∧
    (∀ (op : Nat) (m : DapMsg) (c : Context) (q : Request), nget? s.sup.ctxs (sessCtx n) = some c →
      q = { ctx := sessCtx n, due := s.cyc.k + 2, reqId := m.reqId, op := op, index := m.index, sub := m.sub, elen := m.elen
            payload := m.body, hubs := 2 ^ hub.val, seq := r.seq } →
      let whole := 1 ≤ op ∧ op ≤ 5 ∧ m.version = 1 ∧ m.flags = 0 ∧ m.plen = m.body.length
      let first := e.taken.contains r.seq = false ∧ e.taken.foldl max 0 < r.seq + 1024 ∧ shedClosing s r.port = false
      let v := withSess s n { heardBy hub r e w with
        taken := (r.seq :: e.taken).filter (fun x => max (e.taken.foldl max 0) r.seq ≤ x + 1023) }
      (whole → first → c.outstanding < 16 → needsDerivation s op m = false → does (.sessionDapRecord hub r op m) s (fun t =>
        t = { v with
          sup.ctxs := nset s.sup.ctxs (sessCtx n) { c with outstanding := c.outstanding + 1 }, sup.reqs := s.sup.reqs ++ [q] })) ∧
      (¬ whole → first → does (.sessionDapRecord hub r op m) s (fun t =>
        t = { v with sup.ctxs := nset s.sup.ctxs (sessCtx n) { c with refusals := c.refusals + 1 } })) ∧
      (whole → shedClosing s r.port = true → c.outstanding < 16 → does (.sessionDapRecord hub r op m) s (fun t =>
        t = { withSess s n (heardBy hub r e w) with
          sup.ctxs := nset s.sup.ctxs (sessCtx n) { c with outstanding := c.outstanding + 1 }
          sup.reqs := s.sup.reqs ++ [{ q with via := some r.port }] }))) ∧
    (∀ (op : Nat) (m : DapMsg), shedClosing s r.port = false → e.taken.contains r.seq = true →
      does (.sessionDapRecord hub r op m) s (fun t => t = { withSess s n (heardBy hub r e w) with
        sup.reqs := s.sup.reqs.map (fun q => if q.ctx = sessCtx n ∧ q.seq = r.seq ∧ q.due = s.cyc.k + 2 then
          { q with hubs := setBit q.hubs hub true } else q) }))

/-- A record of the hub series leaves by every path of the session whose port sends and whose network is reached, under the session's next
number: its header of 16 bytes and its body, as they are before it is sealed. -/
def recordLeaves (s t : State) (n ty : Nat) (e : Session) (body : List Byte) : Prop :=
  t.egress = [e.pathB, e.pathA].filterMap (fun p => p.bind (fun q =>
    if portSends s q.port = true ∧ reachesNet s (portHub s q.port) = true then
      some { kind := EgKind.sessionRecord, port := q.port, a := n, b := e.hubSeq + 1, c := ty * 4 + e.phase
             data := sessHead ty n e.phase 0 body.length (e.hubSeq + 1) ++ body }
    else none)) ++ s.egress

/-- What sealing one more record at an instant leaves of a session. -/
def sealedAt (e : Session) (i : Nat) : Session := { sealRec e i with hubSeq := e.hubSeq + 1 }

/-- REKEY from the peer, with none answered and none within 10 s, has new keys derived for the next phase, and is answered, with event 0x3033;
another is counted as ignored. REKEY_ANSWER to the module's own has it seal under the next phase. -/
def rekeyRule : Prop :=
  ∀ (s : State) (hub : Fin 2) (r : SessRecord) (n share : Nat) (e e' : Session) (w : Window1), recAccepted s hub r n e w →
    e' = heardBy hub r e w →
    (¬(e'.state = 3 ∧ e'.rekeyMine = none) → (∀ x, e'.phaseChanged = some x → x + 10000000000 ≤ r.t) →
      does (.rekey hub r share) s (fun t => recorded t 0x3033 ∧
        noted { s with con.sessions := t.con.sessions, egress := t.egress, cnt := t.cnt } t ∧
        ∃ f, t.con.sessions = nset s.con.sessions n (sealedAt { e' with
            state := 3, rekeyMine := none, rekeyAccept := true
            secrets := nset e'.secrets ((e'.phase + 1) % 4) (Config.hkdf (nget e'.secrets e'.phase 0) share f) } r.t) ∧
          recordLeaves s t n 0x15 e' (leBytes 1185 f))) ∧
    (e'.state = 3 → e'.rekeyMine = none → does (.rekey hub r share) s (fun t =>
      t = withSess s n { e' with ignored := e'.ignored + 1 })) ∧
    (∀ x y mine, e'.rekeyMine = some (x, y, mine) → does (.rekeyAnswer hub r share) s (fun t => recorded t 0x3033 ∧
      noted (withSess s n { e' with
        rekeyMine := none
        phase := (e'.phase + 1) % 4, phaseChanged := some r.t, phaseBegan := r.t, sealedCount := 0, recvCount := 0,
        secrets := nset e'.secrets ((e'.phase + 1) % 4) (Config.hkdf (nget e'.secrets e'.phase 0) share mine) }) t))

/-- The module's own rekey: REKEY is sent when the interval or a count of 2^32 records is reached, again after 2 s up to three times, and then
the session closes with cause 8; the keys of the former phase are erased 10 s after the first record under the new one. -/
def ownRekeyRule : Prop :=
  ∀ (s : State) (n i : Nat) (e : Session), getSess? s n = some e →
    let sends := fun (c : Instr) (tries : Nat) => does c s (fun t =>
      t = { s with con.sessions := t.con.sessions, egress := t.egress, cnt := t.cnt, st.freeCount := t.st.freeCount } ∧
      ∃ f, t.con.sessions = nset s.con.sessions n (sealedAt { e with state := 3, rekeyMine := some (i, tries, f) } i) ∧
        recordLeaves s t n 0x14 e (leBytes 1281 f))
    (e.state = 2 → e.phaseBegan + gv s E.sessRekeyInterval * 1000000000 ≤ i ∨ 2 ^ 32 ≤ e.sealedCount ∨ 2 ^ 32 ≤ e.recvCount →
      sends (.moduleRekeyStart n i) 0) ∧
    (∀ i0 tries x, e.rekeyMine = some (i0, tries, x) → i0 + 2000000000 ≤ i → tries < 3 → sends (.rekeyRetry n i) (tries + 1)) ∧
    (∀ i0 tries x, e.rekeyMine = some (i0, tries, x) → i0 + 2000000000 ≤ i → 3 ≤ tries → does (.rekeyRetry n i) s (fun t =>
      t = withSess s n { e with rekeyMine := none, closing := some 8 })) ∧
    (∀ u, e.oldUntil = some u → u ≤ i → does (.phaseKeyErase n i) s (fun t => t = withSess s n { e with
      secrets := nerase e.secrets ((e.phase + 3) % 4), oldUntil := none, rekeyAccept := false, state := 2 }))

/-- IDLE_PING, SESSION_IDLE_TIMEOUT, PATH_FORGET, CERT_EXPIRY and SESS_CLOSE. -/
def sessEndRule : Prop :=
  ∀ (s : State) (n i : Nat) (e : Session), getSess? s n = some e →
    (2 ≤ e.state → e.lastTx + gv s E.sessIdleLimit * 1000000000 / 3 ≤ i → does (.idlePing n i) s (fun t =>
      t = { withSess s n (sealedAt e i) with egress := t.egress, cnt := t.cnt } ∧ recordLeaves s t n 0x12 e [])) ∧
    (2 ≤ e.state → e.lastRx + gv s E.sessIdleLimit * 1000000000 ≤ i → does (.sessionIdleTimeout n i) s (fun t =>
      t = withSess s n { e with closing := some 2 })) ∧
    (∀ p, e.pathA = some p → p.at_ + gv s E.sessIdleLimit * 1000000000 ≤ i → does (.pathForget n false i) s (fun t =>
      t = withSess s n { e with pathA := none })) ∧
    (∀ p, e.pathB = some p → p.at_ + gv s E.sessIdleLimit * 1000000000 ≤ i → does (.pathForget n true i) s (fun t =>
      t = withSess s n { e with pathB := none })) ∧
    (∀ x : Nat, s.sup.tp.utcValid = true → 2 ≤ e.state → e.notAfter = some x → (x : Int) < s.cyc.tk + s.sup.tp.utcOffset →
      does (.certExpiry n) s (fun t => t = withSess s n { e with closing := some 7 })) ∧
    (∀ ctx, accepts s E.sessClose ctx 0x3502 7 1 → chosen s E.sessClose ctx = n → does (.sessClose ctx) s (fun t =>
      t = withSess s n { e with closing := some 3 }))

/-- SESS_RESERVE and SESS_DENY: the entry is kept; the lists take effect at the boundary after. -/
def sessListRule : Prop :=
  ∀ (s : State) (ctx sub v : Nat),
    (accepts s E.sessReserve ctx 0x3500 sub v →
      reserveConds s (mkW s ctx 0x3500 sub E.sessReserve.len v E.sessReserve) = [] → does (.sessReserve ctx sub v) s (fun t =>
        t = filed s E.sessReserve ctx 0x3500 sub v
          { svx s E.sessReserve 0x3500 sub (chosen s E.sessReserve ctx) v with con.listPend := true })) ∧
    (accepts s E.sessDeny ctx 0x3500 sub v → does (.sessDeny ctx sub v) s (fun t =>
      t = filed s E.sessDeny ctx 0x3500 sub v
        { svx s E.sessDeny 0x3500 sub (chosen s E.sessDeny ctx) v with con.listPend := true }))

/-! ## Twin modules (12) -/

/-- A message of the twin that passes: TWIN_ENABLE is set, its link is in service, its tag verifies, and its number has not been taken on the
link session. -/
def twinPasses (s : State) (l seq : Nat) (tagOk : Bool) : Prop :=
  gv s E.twinEnable = 1 ∧ twinLinkUp s l = true ∧ hubUp s (l / 2) = true ∧ tagOk = true ∧ (getTLink s l).seen.contains seq = false

/-- What a message that passes leaves before its own effect. -/
def twinHeard (s : State) (l seq i : Nat) : State :=
  { s with
    twin.heard := i
    twin.links := vupd s.twin.links l (fun x => { x with rxSeq := seq, seen := seq :: x.seen })
    ilinks := vupd s.ilinks (30 + l) (fun x => { x with lastHeard := i }) }

/-- The end of the lease in the mode in force (R317 to R319). -/
def leaseEnd (s : State) : Nat :=
  let short := if holdsLease s then s.twin.eH else s.twin.eS
  if leaseMode s = 1 then short else if leaseMode s = 2 then max short s.twin.long else s.twin.end_

/-- State `u` with the lease mode and end as they follow from it, and the event of a new mode. -/
def leased (u t : State) : Prop := noted { u with twin.mode := leaseMode u, twin.end_ := leaseEnd u } t

/-- A new lease state; a change of holding counts. -/
def leaseTo (s : State) (new : Nat) : State :=
  let v := { s with twin.lease := new }
  if holdsLease s = holdsLease v then v else bump v E.twinHandovers

/-- A message of the twin protocol under a link's next number (12 R313): it leaves where the link's hub sends. -/
def onLink (s : State) (l : Nat) (kind : EgKind) (b c : Nat) (d : List Byte) : List Egress :=
  if hubSends s (l / 2) = true then
    [{ kind := kind, port := l, a := (getTLink s l).txSeq + 1, b := b, c := c
       data := twinMessage s l ((getTLink s l).txSeq + 1) kind c d }]
  else []

/-- The messages that leave by the twin links in service, one on each. -/
def onLinks (s : State) (kind : EgKind) (b c : Nat) (d : List Byte) : List Egress :=
  (twinLinks s).reverse.flatMap (fun l => onLink s l kind b c d)

/-- A message on every twin link in service has left. -/
def sentLinks (u t : State) (kind : EgKind) (b c : Nat) (d : List Byte) : Prop :=
  t.egress = onLinks u kind b c d ++ u.egress

/-- CLAIM has left: its boundary is that from which the module holds, else the one at or before its instant. -/
def claimed (u t : State) (i : Nat) : Prop :=
  let b := if holdsLease u then u.twin.heldFrom else i / 8000 * 8000
  t = { u with twin.claimAt := some b, twin.claimSent := i, twin.links := t.twin.links, egress := t.egress } ∧
    sentLinks u t .twinClaim b (b2n (holdsLease u)) (u64 b ++ u8 (b2n (holdsLease u)))

/-- A HELLO names a twin that pairs with this module (R315). -/
def helloPairs (s : State) (m : TwinHello) : Prop :=
  m.tagOk = true ∧ m.gen = gv s E.compatGen ∧ m.node = gv s E.twinPeerNode ∧ m.node / 4 = gv s E.bbConfigNode / 4 ∧
    m.n = gv s E.bbCrossingN ∧
    ((gv s E.twinHome = 1 ∧ m.home = 2) ∨ (gv s E.twinHome = 2 ∧ m.home = 1) ∨ (gv s E.twinHome = 0 ∧ m.home = 0))

/-- TWIN_HELLO that pairs: the link's session runs, the twin's serial number and node are taken, and the first pairing is event 0x3040 and
leads from OFF or UNPAIRED to LISTEN; an answer leaves where none was sent yet. One that fails R315 is event 0x3040, and its link has no
session. -/
def twinHelloRule : Prop :=
  ∀ (s : State) (link : Fin 4) (seq i : Nat) (m : TwinHello), gv s E.twinEnable = 1 → hubUp s (link / 2) = true →
    s.st.ports = true → (vget s.ilinks (30 + link) {}).failed = false →
    (helloPairs s m → does (.twinHello link seq m i) s (fun t =>
      (getTLink t link).session = true ∧ (getTLink t link).rxSeq = seq ∧ (getTLink t link).seen = [seq] ∧ t.twin.paired = true ∧ t.twin.hadPair = true ∧
      t.twin.peerSerial = m.serial ∧ t.twin.peerPlan = m.node ∧ t.twin.heard = i ∧ t.twin.refused = 0 ∧
      (s.twin.lease = 0 ∨ s.twin.lease = 5 → t.twin.lease = 1 ∧ recorded t 0x3041) ∧
      (s.twin.lease ≠ 0 → s.twin.lease ≠ 5 → s.twin.lease ≠ 4 ∨ twinLinks s ≠ [] → t.twin.lease = s.twin.lease) ∧
      (s.twin.lease = 4 → twinLinks s = [] → t.twin.lease = 3 ∧ t.twin.eH = i + 32000 ∧ recorded t 0x3041) ∧
      (twinLinks s = [] → recorded t 0x3040 ∧ t.twin.pairedAt = i) ∧
      ((getTLink s link).helloSent = true → t.egress = s.egress) ∧
      (getTLink t link).key = Config.hkdf (twinKey s) 1 (twinSalt (getTLink t link).nonce m) ∧
      ((getTLink s link).helloSent = false → (getTLink t link).helloSent = true ∧
        (hubSends s (link / 2) = false → t.egress = s.egress) ∧
        (hubSends s (link / 2) = true → ∃ e, t.egress = e :: s.egress ∧ e.kind = .twinHello ∧ e.port = link ∧ e.a = 1)) ∧
      ∀ l, l ≠ link.val → getTLink t l = getTLink s l)) ∧
    (¬ helloPairs s m → does (.twinHello link seq m i) s (fun t => recorded t 0x3040 ∧ (getTLink t link).session = false ∧
      bit t.twin.refused link = true ∧ t.twin.paired = s.twin.paired ∧ ∀ l, l ≠ link.val → getTLink t l = getTLink s l))

/-- TWIN_KEEPALIVE_SEND on a link on which nothing was sent for 1 us, by a hub that sends. -/
def keepaliveRule : Prop :=
  ∀ (s : State) (link : Fin 4) (i : Nat), twinLinkUp s link = true → (getTLink s link).lastTx + 1000 ≤ i →
    hubSends s (link / 2) = true →
    does (.twinKeepaliveSend link i) s (fun t => t = { s with
      twin.links := vupd s.twin.links link (fun x => { x with txSeq := (getTLink s link).txSeq + 1, lastTx := i })
      egress := onLink s link .twinKeepalive 0 0 [] ++ s.egress })

/-- LEASE_RENEW_SEND: at a lease boundary the HOLDER sends RENEW on every twin link in service; with YIELD it ceases as it sends. -/
def renewSendRule : Prop :=
  ∀ (s : State) (i n : Nat), s.twin.lease = 3 → i % 8000 = 0 → twinLinks s ≠ [] → n = s.twin.renewCount + 1 →
    does (.leaseRenewSend i) s (fun t =>
      sentLinks s t .twinRenew n (b2n s.twin.yieldReq) (u64 i ++ u32 n ++ markBytes s) ∧
      t.twin.renewCount = n ∧ nget? t.twin.renewSent n = some i ∧
      (s.twin.yieldReq = false → t = { s with
        twin.renewCount := n, twin.renewSent := t.twin.renewSent, twin.links := t.twin.links, egress := t.egress }) ∧
      (s.twin.yieldReq = true → t.twin.lease = 2 ∧ t.twin.yieldReq = false ∧ t.twin.aloneFrom = i ∧ recorded t 0x3041))

/-- TWIN_RENEW, TWIN_ACK, TWIN_CLAIM and TWIN_RELEASE. -/
def leaseMessageRule : Prop :=
  ∀ (s : State) (link : Fin 4) (seq i : Nat) (u : State), twinPasses s link seq true → u = twinHeard s link seq i →
    -- RENEW at a module that does not hold: its lease end moves, it acknowledges, and a HOLDER's YIELD is taken 4 us later
    (∀ b y n mk mi, holdsLease s = false → does (.twinRenew link seq true b y n mk mi i) s (fun t =>
      t.egress = onLink s link .twinAck n 0 (u32 n) ++ s.egress ∧
      t.twin.eS = max s.twin.eS (i + 32000) ∧ t.twin.lease = (if s.twin.lease = 1 then 2 else s.twin.lease) ∧
      (s.twin.lease = 1 → recorded t 0x3041) ∧
      t.twin.takeAt = (if y = true ∧ s.twin.homeClaim = true then some (i + 4000) else s.twin.takeAt) ∧
      t.twin.shadow = s.twin.shadow.filter (fun x => mk < x.k || (mk = x.k && mi < x.item.num)))) ∧
    -- RENEW at a holder: it claims
    (∀ b y n mk mi, holdsLease s = true → does (.twinRenew link seq true b y n mk mi i) s (fun t => claimed u t i)) ∧
    -- ACK at the HOLDER: its lease end is 32 us after the RENEW was sent
    (∀ n i0, s.twin.lease = 3 → nget? s.twin.renewSent n = some i0 → does (.twinAck link seq true n i) s (fun t =>
      leased { u with twin.eH := max s.twin.eH (i0 + 32000) } t)) ∧
    -- CLAIM of the home module at a HOLDER in SHORT mode: it yields at its next lease boundary
    (∀ b, s.twin.lease = 3 → gv s E.twinHome = 2 → s.twin.mode = 1 → does (.twinClaim link seq true b false i) s (fun t =>
      t = { u with twin.yieldReq := true })) ∧
    -- CLAIM that loses against this module's own
    (∀ b own h, holdsLease s = false → s.twin.claimAt = some own → winsClaim s own b = true →
      does (.twinClaim link seq true b h i) s (fun t => t = { u with twin.takeAt := some (max s.twin.claimSent i + 4000) })) ∧
    -- CLAIM that wins against a holder's
    (∀ b, holdsLease s = true → winsClaim s s.twin.heldFrom b = false → does (.twinClaim link seq true b true i) s (fun t =>
      recorded t 0x3041 ∧ leased (leaseTo { u with
        twin.aloneFrom := i, twin.yieldReq := false, twin.claimAt := none, twin.takeAt := none,
        twin.eS := 0, twin.longHeard := false } 2) t)) ∧
    -- CLAIM that wins against the claim of a module that does not hold
    (∀ b own h, holdsLease s = false → s.twin.claimAt = some own → winsClaim s own b = false →
      does (.twinClaim link seq true b h i) s (fun t =>
        (s.twin.lease ≠ 2 → recorded t 0x3041) ∧
        leased (leaseTo { u with twin.claimAt := none, twin.takeAt := none } 2) t)) ∧
    -- RELEASE at a holder: ALONE; a holder's at the other module: it takes the lease 4 us later
    (∀ h, holdsLease s = true → does (.twinRelease link seq true h i) s (fun t =>
      (s.twin.lease ≠ 4 → recorded t 0x3041) ∧ leased (leaseTo u 4) t)) ∧
    (s.twin.lease = 1 ∨ s.twin.lease = 2 → s.twin.takeAt = none → does (.twinRelease link seq true true i) s (fun t =>
      t = { u with twin.takeAt := some (i + 4000) }))

/-- A message of the twin whose tag does not verify or whose number has been taken is discarded and counted. -/
def twinDiscardRule : Prop :=
  ∀ (s : State) (link : Fin 4) (seq i n : Nat) (tagOk : Bool), gv s E.twinEnable = 1 → twinLinkUp s link = true →
    hubUp s (link / 2) = true → tagOk = false ∨ (getTLink s link).seen.contains seq = true →
    does (.twinAck link seq tagOk n i) s (fun t => t = { s with
      ilinks := vupd s.ilinks (30 + link) (fun x => { x with discards := x.discards + 1, badNow := true }) })

/-- LEASE_CEASE: the HOLDER ceases at E_h - 4 us. LEASE_TAKE: the other takes the lease at the instant set for it or 4 us past the lease's
end. LISTEN_CLAIM_TIMEOUT, ALONE_WAIT_EXPIRY and REVERT_CLAIM. -/
def leaseTimeRule : Prop :=
  ∀ (s : State) (i : Nat),
    (s.twin.lease = 3 → leaseEnd s ≤ i + 4000 → does (.leaseCease i) s (fun t => recorded t 0x3041 ∧
      t.twin.lease = 2 ∧ t.twin.aloneFrom = i ∧ t.twin.claimAt = none ∧ t.twin.yieldReq = false ∧ t.egress = s.egress)) ∧
    (s.twin.lease = 1 ∨ s.twin.lease = 2 →
      (∃ x, s.twin.takeAt = some x ∧ x ≤ i) ∨ (s.twin.lease = 2 ∧ (s.twin.eS ≠ 0 ∨ s.twin.longHeard = true) ∧ leaseEnd s + 4000 ≤ i) →
      does (.leaseTake i) s (fun t => recorded t 0x3041 ∧ t.twin.lease = 3 ∧ t.twin.heldFrom = i / 8000 * 8000 ∧
        t.twin.eH = i + 32000 ∧ t.twin.takeAt = none ∧ t.twin.claimAt = none ∧ t.twin.shadow = [])) ∧
    (s.twin.lease = 1 → s.twin.paired = true → s.twin.pairedAt + 100000 ≤ i → s.twin.claimAt = none → s.twin.noClaim = false →
      does (.listenClaimTimeout i) s (fun t => claimed s t i)) ∧
    (gv s E.twinAloneWait ≠ 0 → s.twin.lease = 1 ∨ s.twin.lease = 2 →
      max s.twin.heard s.twin.aloneFrom + gv s E.twinAloneWait * 1000000000 ≤ i →
      does (.aloneWaitExpiry i) s (fun t => recorded t 0x3041 ∧ leased (leaseTo { s with twin.heldFrom := i / 8000 * 8000 } 4) t)) ∧
    (∀ i0, s.twin.revertSince = some i0 → revertOk s = true → i0 + gv s E.twinRevertDelay * 1000000000 ≤ i →
      s.twin.homeClaim = false → does (.revertClaim i) s (fun t =>
        claimed { s with twin.homeClaim := true, twin.noClaim := false } t i))

/-- BACKBONE_CLAIM_COMPARE: event 0x3044; the module that loses the comparison ceases at the next boundary. SHADOW_ITEM_EXPIRY: items older than
four crossings are dropped and counted. -/
def foreignRule : Prop :=
  ∀ (s : State) (i : Nat),
    (holdsLease s = true → twinLinks s = [] → 2 ≤ s.twin.foreignHold → s.cyc.k ≤ s.twin.foreignK + 1 →
      does (.backboneClaimCompare i) s (fun t => recorded t 0x3044 ∧
        noted { s with twin.foreignHold := 0, twin.ceaseDue := !(winsClaim s 0 0) } t)) ∧
    does .shadowItemExpiry s (fun t =>
      t = { s with twin.shadow := s.twin.shadow.filter (fun x => s.cyc.k ≤ x.k + 4), cnt := t.cnt } ∧
      (gv s E.twinShadowDropped + (s.twin.shadow.filter (fun x => x.k + 4 < s.cyc.k)).length < 2 ^ 32 →
        gv t E.twinShadowDropped = gv s E.twinShadowDropped + (s.twin.shadow.filter (fun x => x.k + 4 < s.cyc.k)).length))

/-- MIRROR_RECORD at a module that does not hold. One newer than that held is kept, with its pair-scope writes, sequence numbers, tags and
timed actions; a copy in SYNC whose own digest of the activation before differs enters CATCHUP, with events 0x3046 and 0x3045. Of the two
hubs' copies of one record HA's stands, and the other is kept for the merge; an older record changes nothing. -/
def mirrorRule : Prop :=
  ∀ (s : State) (link : Fin 4) (seq i : Nat) (r : MirrorRec), twinPasses s link seq true → holdsLease s = false →
    let v := twinHeard s link seq i
    let u := { v with
      twin.record := some r, twin.recordHub := link / 2, twin.recordDup := []
      twin.peerWrites := s.twin.peerWrites ++ r.writes.map (fun w => { index := w.1, sub := w.2.1, inst := w.2.2.1, value := w.2.2.2 })
      sup.seqs := r.seqs.foldl (fun m p => nset m p.1 p.2) s.sup.seqs
      sup.timedDo := s.sup.timedDo ++ r.timed.map (fun p => { channel := p.1, on := p.2.1, at_ := p.2.2, trig := 1024 }) }
    let t? := fun (p : State → Prop) => does (.mirrorRecord link seq true r i) s p
    ((∀ x, s.twin.record = some x → x.crossing < r.crossing) →
      (r.digests = [] → r.tags = [] → t? (fun t => t = u)) ∧
      (∀ j n st, r.digests = [] → r.tags = [(j, n)] → getStall? s j = some st → st.mirrorSt = 2 →
        t? (fun t => t = setStall u j { st with exec.nextTag := n })) ∧
      (∀ j st y own d, r.digests = [(j, d)] → r.tags = [] → getStall? s j = some st → st.mirrorSt = 2 → st.ckTw = some (y, own) →
        (y + 1 = r.crossing → own ≠ d → t? (fun t => recorded t 0x3046 ∧ recorded t 0x3045 ∧
          noted (setStall u j { st with mirrorSt := 4, catchStart := some s.cyc.tk }) t)) ∧
        (y + 1 ≠ r.crossing ∨ own = d → t? (fun t => t = u)))) ∧
    (∀ x, s.twin.record = some x →
      (r.crossing < x.crossing → t? (fun t => t = v)) ∧
      (r.crossing = x.crossing → t? (fun t => t =
        if link.val < 2 ∧ s.twin.recordHub = 1 then
          { v with twin.record := some r, twin.recordHub := 0, twin.recordDup := s.twin.recordDup ++ [(1, x)] }
        else { v with twin.recordDup := s.twin.recordDup ++ [(link.val / 2, r)] })))

/-- CATCHUP of a copy that catches up: the bytes that it may write are taken; with a join of at most 128 KiB dirtied the rest of its state is
taken, and it is in SYNC with event 0x3045. CATCHUP_TIMEOUT: a copy not joined after 10 s restarts, FREE. -/
def catchupRule : Prop :=
  ∀ (s : State) (link : Fin 4) (seq i j : Nat) (c : CatchUp) (st st' : Stall), getStall? s j = some st → st.mirrorSt = 4 →
    st' = { st with
      exec.mem := (c.cells.filter (fun x => canWrite st.desc x.1)).foldl (fun m x => mput m x.1 x.2) st.exec.mem } →
    (twinPasses s link seq true → c.join = false → does (.catchup link seq true j c i) s (fun t =>
      t = setStall (twinHeard s link seq i) j st')) ∧
    (twinPasses s link seq true → c.join = true → c.dirty ≤ 131072 → does (.catchup link seq true j c i) s (fun t =>
      recorded t 0x3045 ∧ ∃ x, noted (setStall (twinHeard s link seq i) j { st' with
        mirrorSt := 2, catchStart := none, first := false, exec := x }) t ∧
        x.pc = c.pc ∧ x.sw = c.sw ∧ x.fuel = c.fuel ∧ x.nextTag = c.nextTag ∧ x.activations = c.activations ∧ x.mem = st'.exec.mem ∧
        ∀ n : Fin 32, n.val ≠ 0 → x.regs[n] = c.regs.getD n 0)) ∧
    (∀ i0, st.catchStart = some i0 → i0 + 10000000000 ≤ s.cyc.tk → does (.catchupTimeout j) s (fun t => recorded t 0x3045 ∧
      ∃ y, getStall? t j = some y ∧ y.mirrorSt = 3 ∧ y.state = .restarting ∧ y.first = true ∧ y.exec.pc = st.desc.entryPc ∧
        y.exec.restarts = st.exec.restarts + 1 ∧ y.catchStart = none))

/-- TWIN_ENABLE and TWIN_DO_PARALLEL. -/
def twinEntryRule : Prop :=
  ∀ (s : State) (ctx v : Nat),
    (accepts s E.twinEnable ctx 0x3800 1 1 → s.twin.lease = 0 → does (.twinEnableWrite ctx 1) s (fun t => recorded t 0x3041 ∧
      t.twin.lease = 1 ∧ t.twin.aloneFrom = s.cyc.tk ∧
      t.sup.dict = (svx s E.twinEnable 0x3800 1 (chosen s E.twinEnable ctx) 1).sup.dict)) ∧
    (accepts s E.twinEnable ctx 0x3800 1 0 → does (.twinEnableWrite ctx 0) s (fun t =>
      t.twin.lease = 0 ∧ t.twin.paired = false ∧ t.twin.hadPair = false ∧ t.twin.record = none ∧ t.twin.mode = 0 ∧
      (s.twin.lease ≠ 0 → recorded t 0x3041) ∧ (∀ l, l < 4 → (getTLink t l).session = false) ∧
      t.sup.dict = (svx s E.twinEnable 0x3800 1 (chosen s E.twinEnable ctx) 0).sup.dict)) ∧
    (accepts s E.twinDoParallel ctx 0x3800 14 v → (∀ c, c < 32 → bit v c = true → safetyPoint s false 2 c = false) →
      does (.twinDoParallelWrite ctx v) s (fun t =>
        t = filed s E.twinDoParallel ctx 0x3800 14 v (svx s E.twinDoParallel 0x3800 14 (chosen s E.twinDoParallel ctx) v)))

/-! ## The legacy bus bridge (13) -/

/-- The window in use to which alone a definition's condition applies. -/
def onlyWindow (s : State) (p : Nat → Bool) (n : Nat) : Prop := winsWhere s p = [n]

/-- A window with one of its records more (R346, R348): its number and the pointers advance, and RESUMED is on the first data record after a
loss. -/
def addRec (kind i : Nat) (r : RecIn) (w : BWin) : BWin :=
  let resumed := w.resume && r.notice = 0
  { w with
    queue := w.queue ++ [{ seq := w.nextSeq, bytes := encRec kind w.nextSeq resumed r, resumed := resumed
                           notice := r.notice ≠ 0, at_ := i }]
    nextSeq := w.nextSeq % 2 ^ 32 + 1
    resume := w.resume && r.notice ≠ 0, flushed := w.flushed && r.notice ≠ 0
    wptr := (w.wptr + 1) % 65536, wptrN := (w.wptr + 1) % 65536 }

/-- The windows with one of them replaced. -/
def withWin (s : State) (n : Nat) (w : BWin) : State := { s with br.wins := nset s.br.wins n w }

/-- The window's queue is sound and takes `k` more records. -/
def takesRecs (s : State) (n k : Nat) : Prop :=
  (getWin s n).sound = true ∧ (getWin s n).queue.length + k ≤ winCap (winDef s n)

/-- MVB_PORT_RECEIVED in a window of its port: the value of the right size is the port's, valid, with the window's next number; a check
error leaves the value and sets CHECK_ERR. -/
def mvbPortRule : Prop :=
  ∀ (s : State) (ifc : Fin 2) (port n i : Nat) (data : List Byte) (lineB : Bool), (getIf s (ifc + 1)).state ≠ 0 →
    onlyWindow s (fun d => winKind d = 1 && winIfc d = ifc + 1 && winPort d ≤ port && port < winPort d + winCap d) n →
    (data.length = portSize (winFcode (winDef s n)) → does (.mvbPortReceived ifc port data lineB false i) s (fun t =>
      t = withWin s n { getWin s n with
        ports := nset (getWin s n).ports port { at_ := i, valid := true, lineB := lineB, data := data }
        nextSeq := (getWin s n).nextSeq % 2 ^ 32 + 1 })) ∧
    does (.mvbPortReceived ifc port data lineB true i) s (fun t =>
      t = withWin (blockCount s (0x5385 + ifc) 1) n { getWin s n with
        ports := nset (getWin s n).ports port { nget (getWin s n).ports port {} with checkErr := true } })

/-- MVB_MESSAGE_RECEIVED to the device address: queued; a full queue takes none, counts it, and the next record is RESUMED. -/
def mvbMessageRule : Prop :=
  ∀ (s : State) (ifc : Fin 2) (src n i : Nat) (data : List Byte), (getIf s (ifc + 1)).state ≠ 0 → data.length = 32 →
    onlyWindow s (fun d => winKind d = 3 && winIfc d = ifc + 1) n → winKind (winDef s n) = 3 →
    let c := Instr.mvbMessageReceived ifc src (gvs s E.mvbDevAddr (ifc + 1) 0) data i
    (takesRecs s n 1 → does c s (fun t => t = withWin s n (addRec 3 i { head := src, data := data } (getWin s n)))) ∧
    ((getWin s n).sound = true → winCap (winDef s n) ≤ (getWin s n).queue.length → does c s (fun t =>
      t = withWin (bumps s E.brWinLost (n + 1) 0 1) n { getWin s n with
        resume := true, flushed := false, lost := (getWin s n).lost + 1 }))

/-- CAN_FRAME_RECEIVED: queued in the window that it matches; the response that a window awaits completes its READ. -/
def canFrameRule : Prop :=
  ∀ (s : State) (ifc : Fin 2) (f : CanFrame) (n i : Nat), (getIf s (ifc + 3)).state ≠ 0 → (getIf s (ifc + 3)).state ≠ 3 →
    takesRecs s n 1 →
    let four := winsWhere s (fun d => winKind d = 4 && winIfc d = ifc + 3 && canMatches d f)
    let five := winsWhere s (fun d => winKind d = 5 && winIfc d = ifc + 3 && canAnswers d f)
    (four = [n] → five = [] → winKind (winDef s n) = 4 → does (.canFrameReceived ifc f i) s (fun t =>
      t = withWin s n (addRec 4 i { head := canHead f, data := f.data, flags := canFlags f } (getWin s n)))) ∧
    (∀ op x, four = [] → five = [n] → winKind (winDef s n) = 5 → (getWin s n).reading = some (op, x) →
      does (.canFrameReceived ifc f i) s (fun t => t = withWin s n
        (addRec 5 i { head := canHead f, data := f.data, flags := canFlags f, tag := op.tag } { getWin s n with reading := none }))) ∧
    (four = [] → five = [] → does (.canFrameReceived ifc f i) s (fun t => t = s))

/-- SER_BYTE_RECEIVED: the byte joins the window's word, and the eighth closes it; SER_FRAME_END: a silent line closes the word and queues notice 1;
SER_PACK_TIMEOUT closes a word kept too long, FLUSHED. -/
def serRule : Prop :=
  ∀ (s : State) (ifc : Fin 2) (n i : Nat) (w : BWin), w = getWin s n → (getIf s (ifc + 5)).state ≠ 0 →
    onlyWindow s (fun d => winKind d = 6 && winIfc d = ifc + 5) n → winKind (winDef s n) = 6 → w.reading = none → takesRecs s n 2 →
    (∀ (b : Byte) (err : Fin 3),
      let u := { (if err.val = 0 then s else blockCount s (0x5385 + ifc) (4 + err)) with
        br.ifs := vupd s.br.ifs (ifc + 4) (fun x => { x with lastByte := some i }) }
      (w.word.length < 7 → does (.serByteReceived ifc b err i) s (fun t => t = withWin u n { w with
        word := w.word ++ [b], wordErr := w.wordErr || err.val ≠ 0, wordAt := i })) ∧
      (w.word.length = 7 → does (.serByteReceived ifc b err i) s (fun t => t = withWin u n
        (addRec 6 i { data := w.word ++ [b], flags := 4 * b2n (w.wordErr || err.val ≠ 0) }
          { w with word := [], wordErr := false, wordAt := i })))) ∧
    (∀ i0, (getIf s (ifc + 5)).lastByte = some i0 → gv s E.serGap ≠ 0 → i0 + gv s E.serGap * 1000 ≤ i →
      does (.serFrameEnd ifc i) s (fun t =>
        let w' := addRec 6 i { notice := 1 } (if w.word = [] then w
          else addRec 6 i { data := w.word, flags := 4 * b2n w.wordErr } { w with word := [], wordErr := false })
        t = withWin { s with br.ifs := vupd s.br.ifs (ifc + 4) (fun x => { x with lastByte := none }) } n
          (if w'.flushed then { w' with resume := false, flushed := false } else w'))) ∧
    (w.word ≠ [] → w.wordAt + gv s E.brPackTimeout * s.cyc.c ≤ s.cyc.tk + s.cyc.c → does (.serPackTimeout n) s (fun t =>
      t = withWin s n
        (let w' := addRec 6 (s.cyc.tk + s.cyc.c) { data := w.word, flags := 2 + 4 * b2n w.wordErr }
          { w with word := [], wordErr := false }
        { w' with resume := true, flushed := true })))

/-- CAN_BUS_OFF, CAN_RESTART_HOLD_EXPIRY and MVB_LINE_STATE_CHANGE: the interface's state and event 0x3050. -/
def interfaceRule : Prop :=
  ∀ (s : State) (ifc : Fin 2) (i : Nat),
    let onlyBus := fun (t : State) => noted { s with br := t.br, cnt := t.cnt, perf := t.perf } t
    ((getIf s (ifc + 3)).state ≠ 0 → (getIf s (ifc + 3)).state ≠ 3 → does (.canBusOff ifc i) s (fun t => recorded t 0x3050 ∧
      onlyBus t ∧ t.br.ifs = vupd s.br.ifs (ifc + 2) (fun x => { x with state := 3, busOff := some i }) ∧
      gvs t E.canState (ifc + 1) 0 = 3)) ∧
    (∀ i0, (getIf s (ifc + 3)).busOff = some i0 → (getIf s (ifc + 3)).state = 3 → i0 + gv s E.canRestartHold * 1000000 ≤ i →
      does (.canRestartHoldExpiry ifc i) s (fun t => recorded t 0x3050 ∧
        onlyBus t ∧ t.br.ifs = vupd s.br.ifs (ifc + 2) (fun x => { x with state := 1, busOff := none }) ∧
        gvs t E.canState (ifc + 1) 0 = 1)) ∧
    (∀ a b on new, (getIf s (ifc + 1)).state ≠ 0 → new = (if a && b then 1 else if a || b then 2 else 3) →
      does (.mvbLineStateChange ifc a b on i) s (fun t => onlyBus t ∧ (getIf t (ifc + 1)).state = new ∧
        (getIf t (ifc + 1)).lines = b2n a + 2 * b2n b + 4 * b2n on ∧
        gvs t E.mvbLineState (ifc + 1) 0 = b2n a + 2 * b2n b + 4 * b2n on ∧
        ((getIf s (ifc + 1)).state ≠ new → recorded t 0x3050)))

/-- BRIDGE_BUS_TRANSMIT_DONE, while the hub of the window's interface serves and more than one lane remains: the next part of the window's first operation leaves; a READ that has left whole awaits its response. A port write of
whole ports changes the source port's value, and nothing leaves by itself. -/
def transmitRule : Prop :=
  ∀ (s : State) (n i d : Nat) (w : BWin) (op : BOp) (rest : List BOp) (part : List Byte), d = winDef s n → d ≠ 0 → w = getWin s n →
    w.ops = op :: rest → w.reading = none → (getIf s (winIfc d)).state ≠ 0 → (getIf s (winIfc d)).state ≠ 3 →
    hubSends s (winHub d) = true → s.agree.lost = false →
    (winKind d = 6 → serBusy s (winIfc d) = false) → part = (op.data.drop op.sent).take (unitLen d op) →
    let whole := op.data.length ≤ op.sent + unitLen d op
    let w' : BWin := { w with
      ops := if whole then rest else { op with sent := op.sent + unitLen d op } :: rest
      reading := if whole ∧ op.read = true then some (op, i) else none
      resp := if whole ∧ op.read = true then 0 else w.resp }
    (winKind d ≠ 2 → does (.bridgeBusTransmitDone n i) s (fun t => t = { withWin s n w' with
      egress :=
        { kind := if op.read then .busRead else .busWrite, port := winIfc d, a := n, b := i
          c := if winKind d = 5 then winAddr d else 0, data := part } :: s.egress })) ∧
    (winKind d = 2 → (op.offset + op.sent) % portSize (winFcode d) = 0 → portSize (winFcode d) ≤ op.data.length - op.sent →
      does (.bridgeBusTransmitDone n i) s (fun t => t = { withWin s n w' with
        br.ifs := vupd s.br.ifs (winIfc d - 1) (fun x => { x with
          mports := nset x.mports (winPort d + (op.offset + op.sent) / portSize (winFcode d)) part }) }))

/-- BRIDGE_READ_TIMEOUT of a CAN window: notice 2 with the READ's tag, and the READ has ended. LOCK_LIMIT_EXPIRY: event 0x3052, and the group passes
to its first waiter. BR_WINDOW: kept, in effect at the boundary after. -/
def bridgeEndRule : Prop :=
  ∀ (s : State),
    (∀ n i op i0, (getWin s n).reading = some (op, i0) → i0 + gv s E.brReadTimeout * 1000000 ≤ i → winKind (winDef s n) = 5 →
      takesRecs s n 1 → does (.bridgeReadTimeout n i) s (fun t => t = withWin s n
        (let w := addRec 5 i { notice := 2, tag := op.tag, flags := 16 } (getWin s n)
        { w with reading := none, resp := 0 }))) ∧
    (∀ n g j, nget? s.sup.groups n = some g → g.holder = some j → g.since + gv s E.brLockLimit < s.cyc.k →
      does (.lockLimitExpiry n) s (fun t => recorded t 0x3052 ∧
        noted { s with
          sup.groups := nset s.sup.groups n { holder := g.waits.head?, since := s.cyc.k, waits := g.waits.tail } } t)) ∧
    (∀ ctx sub v, accepts s E.brWindow ctx 0x3910 sub v → winOk s sub v = true → does (.brWindowWrite ctx sub v) s (fun t =>
      t = filed s E.brWindow ctx 0x3910 sub v
        { svx s E.brWindow 0x3910 sub (chosen s E.brWindow ctx) v with br.defPend := true }))

/-- MVB_MASTER_FRAME_RECEIVED: a source port of the module is answered with its value, the device address with the next message frame.
MVB_MASTER_FRAME_SEND: the administrator sends the next frame of its list while its voter serves; else it gives up mastership. -/
def mvbMasterRule : Prop :=
  ∀ (s : State) (ifc : Fin 2) (fcode addr i : Nat), (getIf s (ifc + 1)).state ≠ 0 →
    (fcode ≠ 12 → hubSends s ifc = true → s.agree.lost = false → winsWhere s (fun d => winKind d = 2 && winIfc d = ifc + 1 && winFcode d = fcode && winPort d ≤ addr
        && addr < winPort d + winCap d) ≠ [] →
      does (.mvbMasterFrameReceived ifc fcode addr i) s (fun t => t = { s with egress :=
        { kind := .mvbSlave, port := ifc + 1, a := addr, b := i, c := fcode,
          data := padTo (portSize fcode) (nget (getIf s (ifc + 1)).mports addr []) } :: s.egress })) ∧
    (∀ n op rest, addr = gvs s E.mvbDevAddr (ifc + 1) 0 → hubSends s ifc = true → s.agree.lost = false → onlyWindow s (fun d => winKind d = 3 && winIfc d = ifc + 1) n →
      (getWin s n).ops = op :: rest → op.read = false → (getWin s n).reading = none →
      does (.mvbMasterFrameReceived ifc 12 addr i) s (fun t => t = { s with egress :=
        { kind := .mvbSlave, port := ifc + 1, a := addr, b := i, c := 12, data := (op.data.drop op.sent).take 32 } :: s.egress })) ∧
    (ifc.val = 0 → gv s E.mvbBaEnable = 1 → hubUp s 0 = true → (getHub s 0).voter.inService = true →
      useCheck s (gv s E.mvbBaList) 4 = 0 → does (.mvbMasterFrameSend i) s (fun t => ∃ x,
        t = { s with
          br.master := true, br.baNext := s.br.baNext + 1, st.freeCount := s.st.freeCount + 1
          egress := { kind := .mvbMaster, port := 1, a := s.br.baNext, b := i, c := x } :: s.egress })) ∧
    ((getHub s 0).voter.inService = false → does (.mvbMasterFrameSend i) s (fun t => t = { s with br.master := false }))

/-! ## Digital inputs and outputs at the field dies (14) -/

/-- The inputs, or the outputs, with one of them replaced. -/
def withDi (s : State) (ch : Nat) (f : Di → Di) : State := { s with field.di := vupd s.field.di ch f }
def withDo (s : State) (ch : Nat) (f : Do → Do) : State := { s with field.outs := vupd s.field.outs ch f }

/-- Only the field domain and the evaluators differ, records apart. -/
def fieldOnly (s t : State) : Prop := noted { s with field := t.field, saf := t.saf } t

/-- The die of an input or output is in operation. -/
def dieUp (s : State) (die : Nat) : Prop := (getDie s die).failed = false

/-- DI_RAW_CHANGE, DI_EDGE_CONFIRMED: a raw change is dated; once the new level has held for the filter time the filtered level takes it, and
the edge is dated by the raw change. -/
def diRule : Prop :=
  ∀ (s : State) (ch : Fin 64) (i : Nat) (v : Bool), dieUp s (ch / 32) →
    ((getDi s ch).raw ≠ v → does (.diRawChange ch v i) s (fun t => t = withDi s ch (fun d => { d with raw := v, rawAt := i }))) ∧
    ((getDi s ch).raw = v → (getDi s ch).level ≠ v →
      (getDi s ch).rawAt + dieCfg s (ch / 32) E.diFilter 1 ch * 1000 ≤ i →
      does (.diEdgeConfirmed ch i) s (fun t => t = withDi s ch (fun d => { d with
        level := v, lastEdge := d.rawAt, edgeCount := d.edgeCount + 1, rise := d.rise || v, fall := d.fall || !v })))

/-- WIRE_BREAK_TIMER: with detection enabled, an input at or below the limit of its set for 20 ms is broken, and one at or above the healthy
limit for 20 ms is not; each change is event 0x4001. COMPARATOR_TEST: the second failure in a row sets the fault, with event 0x4002; a pass
clears it. -/
def diFaultRule : Prop :=
  ∀ (s : State) (ch : Fin 64) (i mv : Nat), dieUp s (ch / 32) →
    (∀ lim : Nat × Nat, lim = (if (getDi s ch).set = 0 then (600, 1500) else if (getDi s ch).set = 1 then (2400, 6000) else (3600, 9000)) →
      dieCfg s (ch / 32) E.diWbEnable 2 ch ≠ 0 → (∀ i0, (getDi s ch).wbSince = some i0 → i0 + 20000000 ≤ i) →
      (mv ≤ lim.1 → (getDi s ch).broken = false → does (.wireBreakTimer ch mv i) s (fun t => recordedBy t (ch / 32) 0x4001 ∧
        noted (withDi s ch (fun d => { d with volts := mv, broken := true })) t)) ∧
      (lim.2 ≤ mv → (getDi s ch).broken = true → does (.wireBreakTimer ch mv i) s (fun t => recordedBy t (ch / 32) 0x4001 ∧
        noted (withDi s ch (fun d => { d with volts := mv, broken := false })) t))) ∧
    does (.comparatorTest ch true i) s (fun t =>
      t = withDi (blockCount s (0x5383 + ch / 32) 6) ch (fun d => { d with testFails := 0, frontEnd := false })) ∧
    ((getDi s ch).testFails = 0 → does (.comparatorTest ch false i) s (fun t =>
      t = withDi (blockCount s (0x5383 + ch / 32) 6) ch (fun d => { d with testFails := 1 }))) ∧
    ((getDi s ch).testFails = 1 → does (.comparatorTest ch false i) s (fun t => recordedBy t (ch / 32) 0x4002 ∧
      noted (withDi (blockCount s (0x5383 + ch / 32) 6) ch (fun d => { d with testFails := 2, frontEnd := true })) t))

/-- FIELD_CONFIG_RECEIVED: the first copy of the newest configuration is applied, and an older or repeated one is not. -/
def configRule : Prop :=
  ∀ (s : State) (die hub : Fin 2) (n i : Nat), dieUp s die → n = s.field.cfgSeq →
    ((getDie s die).cfgSeq < n → does (.fieldConfigReceived die hub n i) s (fun t => fieldOnly s t ∧
      getDie t die = { getDie s die with cfg := s.field.cfgMsg, cfgSeq := n, configured := true } ∧
      (∀ d, d ≠ die.val → getDie t d = getDie s d) ∧
      t.saf.cfg = s.field.cfgMsg.filter (fun p => inSafSet (p.1 / 16777216) (p.1 / 65536 % 256)))) ∧
    ((getDie s die).cfgSeq = n → (getDie s die).configured = true →
      does (.fieldConfigReceived die hub n i) s (fun t => t = s))

/-- OUTPUT_COMMAND_RECEIVED: a newer command is applied: SILENT ends, with event 0x4021, and every standard output of a configured die follows the
command. A second equal copy is discarded; a second copy that differs is event 0x4022. -/
def commandRule : Prop :=
  ∀ (s : State) (die hub : Fin 2) (c : OutCmd) (i : Nat) (d : FieldDie), dieUp s die → d = getDie s die →
    (d.fresh = true ∨ d.cmd.seq < c.seq → does (.outputCommandReceived die hub c i) s (fun t => fieldOnly s t ∧
      getDie t die = { d with
        lastAct := i, silent := false, kept := if d.silent = true ∧ fieldHeard s die = true then [] else d.kept
        cmd := c, bits := c.bits, cmdHub := hub
        safeCmd := false, fresh := false
        timed := d.timed.filter (fun a => !(c.withdraw.contains a.channel)) ++
          c.timed.map (fun a => { channel := a.1, on := a.2.1, at_ := a.2.2 }) } ∧
      (d.silent = true → recordedFrom t (3 + die) 0x4021) ∧
      ∀ ch : Fin 32, ch / 16 = die.val → roleAt s ch = 0 → d.configured = true → (getDo t ch).cmd = bit c.bits ch)) ∧
    (d.fresh = false → c = d.cmd → d.silent = false → does (.outputCommandReceived die hub c i) s (fun t =>
      t = { s with field.dies := vupd s.field.dies die (fun d => { d with lastAct := i }) })) ∧
    (d.fresh = false → c ≠ d.cmd → c.seq = d.cmd.seq → d.silent = false →
      does (.outputCommandReceived die hub c i) s (fun t => recordedFrom t (3 + die) 0x4022 ∧
        noted { s with field.dies := vupd s.field.dies die (fun d => { d with lastAct := i }) } t))

/-- HOLD_COMMAND_RECEIVED is activity of a hub and no more. SAFE_STATE_COMMAND_RECEIVED, where not older than the command applied, takes every
standard output of a configured die to its programmed safe state. -/
def holdSafeRule : Prop :=
  ∀ (s : State) (die hub : Fin 2) (n i : Nat) (d : FieldDie), dieUp s die → d = getDie s die →
    let act := { s with field.dies := vupd s.field.dies die (fun d => { d with lastAct := i }) }
    does (.holdCommandReceived die hub n i) s (fun t => t = act) ∧
    (n < d.cmd.seq → does (.safeStateCommandReceived die hub n i) s (fun t => t = act)) ∧
    (d.cmd.seq ≤ n → does (.safeStateCommandReceived die hub n i) s (fun t => fieldOnly s t ∧
      (getDie t die).safeCmd = true ∧ (getDie t die).silent = false ∧ (getDie t die).lastAct = i ∧
      (d.silent = true → recordedFrom t (3 + die) 0x4021) ∧
      ∀ ch : Fin 32, ch / 16 = die.val → d.configured = true →
        (roleAt s ch = 0 → (getDo t ch).cmd = (dieCfg s die E.doSafeState 2 ch = 1)) ∧
        (roleAt s ch = 1 → (getDo t ch).cmd = false)))

/-- LOGIC_SILENT_TIMEOUT: no hub heard for FIELD_SILENT_TIMEOUT: the die is SILENT, with event 0x4020; its timed actions are gone, every instance in
RUN is in SAFE with cause 10, and every standard output of a configured die is at its safe state. -/
def silentRule : Prop :=
  ∀ (s : State) (die : Fin 2) (i : Nat) (d : FieldDie), dieUp s die → d = getDie s die → d.silent = false → d.kept = [] →
    d.lastAct + dieCfg s die E.fieldSilentTimeout 2 0 * 1000000 ≤ i →
    does (.logicSilentTimeout die i) s (fun t => fieldOnly s t ∧
      (getDie t die).silent = true ∧ (getDie t die).timed = [] ∧ (∃ r ∈ (getDie t die).kept, r.code = 0x4020) ∧
      (∀ n, n < 32 → (getInst s n).state = 3 → (getInst t n).state = 1 ∧ (getInst t n).cause = 10 ∧ (getInst t n).main = false) ∧
      ∀ ch : Fin 32, ch / 16 = die.val → d.configured = true → roleAt s ch = 0 →
        (getDo t ch).cmd = (dieCfg s die E.doSafeState 2 ch = 1))

/-- TIMED_DO_INSTANT: the first action of the channel whose instant has come is done and no longer pending, and a standard channel takes its level. -/
def timedRule : Prop :=
  ∀ (s : State) (die : Fin 2) (ch i : Nat) (a : TimedDo), ch / 16 = die.val →
    (getDie s die).timed.find? (fun a => a.channel = ch && a.at_ ≤ fieldTime s die i) = some a →
    does (.timedDoInstant die ch i) s (fun t => t = { s with field := t.field } ∧
      getDie t die = { getDie s die with timed := (getDie s die).timed.erase a, bits := setBit (getDie s die).bits ch a.on } ∧
      (dieUp s die → (getDie s die).configured = true → dieAtSafe s die = false → roleAt s ch = 0 → (getDo t ch).cmd = a.on))

/-- An evaluator instance is in FAULT with a cause: its permits are withdrawn, it is inhibited where it has command pairs, and each die
in operation records event 0x4030. -/
def instFaulted (t : State) (n cause : Nat) : Prop :=
  (getInst t n).state = 4 ∧ (getInst t n).cause = cause ∧
    (commandPairs t n ≠ [] → (getInst t n).inhibit = true) ∧ (getInst t n).main = false ∧
    (getInst t n).release = false ∧ ∀ die, die < 2 → (getDie t die).failed = false → recordedBy t die 0x4030

/-- The instances in use that drive a safety output are in FAULT; one that was not before has cause 4, OUTPUT. -/
def driversFaulted (s t : State) (ch : Nat) : Prop :=
  ∀ n ∈ driversOf s (ch % 16), (getInst t n).state = 4 ∧ ((getInst s n).state ≠ 4 → instFaulted t n 4)

/-- DO_OVERLOAD_TRIP: the channel is latched off, with event 0x4010. DO_RESET clears the latch. DO_SAFE_STATE is stored; a channel with a safety role
has safe state off. -/
def overloadRule : Prop :=
  ∀ (s : State) (ch : Fin 32) (thermal : Bool) (ma i ctx v : Nat),
    (dieUp s (ch / 16) → (getDo s ch).applied = true → does (.doOverloadTrip ch thermal ma i) s (fun t => fieldOnly s t ∧
      recordedBy t (ch / 16) 0x4010 ∧ (getDo t ch).overload = true ∧ (getDo t ch).applied = false ∧
      (roleAt s ch = 1 → driversFaulted s t ch))) ∧
    (accepts s E.doReset ctx 0x4101 5 1 → chosen s E.doReset ctx = ch → does (.doReset ctx) s (fun t =>
      t = { s with field := t.field } ∧ (getDo t ch).overload = false ∧ (getDo t ch).applied = (getDo t ch).cmd)) ∧
    (accepts s E.doSafeState ctx 0x4101 2 v → (v = 1 → Machine.doRole s false (chosen s E.doSafeState ctx) = 0) →
      does (.doSafeStateWrite ctx v) s (fun t =>
        t = filed s E.doSafeState ctx 0x4101 2 v (svx s E.doSafeState 0x4101 2 (chosen s E.doSafeState ctx) v)))

/-- READBACK_MISMATCH: MISMATCH where the channel is commanded on and not latched and reads low, EXTERNAL where it is commanded off and reads high; each
that is new is event 0x4011 (EXTERNAL of a parallel channel is not), and either faults the instances that drive a safety output. -/
def readbackRule : Prop :=
  ∀ (s : State) (ch : Fin 32) (high : Bool) (i : Nat) (d : Do) (mis ext : Bool), dieUp s (ch / 16) → d = getDo s ch →
    mis = (d.cmd && !d.overload && !high) → ext = (!d.cmd && high) →
    let fresh := (mis = true ∧ d.mismatch = false) ∨
      (ext = true ∧ d.external = false ∧ bit (dieCfg s (ch / 16) E.twinDoParallel 14 0) ch = false)
    does (.readbackMismatch ch high i) s (fun t => fieldOnly s t ∧ (fresh → recordedBy t (ch / 16) 0x4011) ∧
      (getDo t ch).mismatch = mis ∧ (getDo t ch).external = ext ∧
      (roleAt s ch ≠ 1 ∨ (mis = false ∧ ext = false) →
        noted (withDo s ch (fun d => { d with level := high, mismatch := mis, external := ext })) t) ∧
      (roleAt s ch = 1 → mis = true ∨ ext = true → driversFaulted s t ch))

/-- OPEN_LOAD_DETECT of a channel commanded on with detection enabled: a current below 5 mA is an open load, with event 0x4012 where it is new, and one
of 20 mA or more is none; a channel off or without detection has none. -/
def openLoadRule : Prop :=
  ∀ (s : State) (ch : Fin 32) (ma i : Nat), dieUp s (ch / 16) →
    let u := fun (v : Bool) => withDo { s with st.freeCount := s.st.freeCount + 1 } ch (fun d => { d with current := ma, openLoad := v })
    let on := (getDo s ch).cmd = true ∧ dieCfg s (ch / 16) E.doOpenLoad 4 ch = 1
    (on → ma < 5 → does (.openLoadDetect ch ma i) s (fun t => noted (u true) t ∧
      ((getDo s ch).openLoad = false → recordedBy t (ch / 16) 0x4012) ∧ ((getDo s ch).openLoad = true → t = u true))) ∧
    (¬ on ∨ 20 ≤ ma → does (.openLoadDetect ch ma i) s (fun t => t = u false))

/-! ## Safety evaluators (15) -/

/-- The only instance in use. -/
def soleInst (s : State) (n : Nat) : Prop := sp s E.safType n ≠ 0 ∧ ∀ m, m < 32 → m ≠ n → sp s E.safType m = 0

/-- EVALUATOR_CYCLE. Without an instance in use no instance changes. Of an instance with a single equivalent pair in RUN, whose two inputs have read 0
for the filter time and carry no fault, while the dies hear each other, the demand takes it to SAFE with cause 8, its permits are withdrawn, and
every safety output that it drives is off. -/
def cycleRule : Prop :=
  ∀ (s : State) (i : Nat),
    ((∀ n, n < 32 → sp s E.safType n = 0) → does (.evaluatorCycle i) s (fun t =>
      t = { s with field := t.field } ∧ t.field.dies = s.field.dies ∧ t.field.di = s.field.di ∧
      ∀ ch : Fin 32, roleAt s ch = 1 → (getDo t ch).cmd = false)) ∧
    (∀ (n p : Nat), n < 32 → p < 32 → soleInst s n → sp s E.safType n ≠ 3 → pairsOf s n = [(0, p)] →
      bit (sp s E.safWiring n) 0 = false → (getInst s n).state = 3 →
      crossDown s = false → (∀ c, c = p ∨ c = p + 32 → (getDi s c).raw = false ∧ (getDi s c).broken = false ∧
        (getDi s c).frontEnd = false ∧ (getDi s c).rawAt + sp s E.safFilter n * 1000 ≤ i) →
      does (.evaluatorCycle i) s (fun t => (getInst t n).state = 1 ∧ (getInst t n).cause = 8 ∧ (getInst t n).main = false ∧
        (∀ m, m < 32 → m ≠ n → getInst t m = getInst s m) ∧
        ∀ ch : Fin 32, roleAt s ch = 1 → bit (sp s E.safOutMask n) (ch % 16) = true → (getDo t ch).cmd = false))

/-- The evaluators' time limits: a pair inconsistent for the discrepancy time faults the instance with cause 1; the dies' disagreement for 2 ms, cause 5;
a command pair held active beyond its limit, cause 2; a second hand too late is a demand. A held fault whose command pairs have been inactive for 100 ms
goes to READY, with event 0x4031. -/
def evaluatorTimeRule : Prop :=
  ∀ (s : State) (n : Fin 32) (i : Nat) (x : SafInst), x = getInst s n → sp s E.safType n ≠ 0 →
    (∀ p ∈ pairsOf s n, x.state ≠ 4 → (pairSt x p.1).state = 2 → (pairSt x p.1).since + sp s E.safDiscrepancy n * 1000000 ≤ i →
      does (.discrepancyTimeout n i) s (fun t => fieldOnly s t ∧ instFaulted t n 1)) ∧
    (x.state ≠ 4 → does (.crossDisagreementTimeout n i) s (fun t => fieldOnly s t ∧ instFaulted t n 5)) ∧
    (∀ p ∈ commandPairs s n, x.state ≠ 4 → p.state = 0 → p.activeAt + sp s E.safHeldLimit n * 1000000000 ≤ i →
      does (.heldLimitExpiry n i) s (fun t => fieldOnly s t ∧ instFaulted t n 2)) ∧
    (∀ i0, x.state = 2 → x.syncFrom = some i0 → i0 + sp s E.safSync n * 1000000 < i →
      does (.syncTimeout n i) s (fun t => fieldOnly s t ∧ (getInst t n).state = 1 ∧ (getInst t n).cause = 8 ∧
        (getInst t n).main = false ∧ (getInst t n).syncFrom = none)) ∧
    (x.state = 4 → x.cause = 2 → (∀ p ∈ commandPairs s n, p.state = 1 ∧ p.since + 100000000 ≤ i) →
      does (.commandInactiveTimer n i) s (fun t => fieldOnly s t ∧ (getInst t n).state = 2 ∧ (getInst t n).cause = 2 ∧
        (getInst t n).inhibit = false ∧ ∀ die, die < 2 → (getDie t die).failed = false → recordedBy t die 0x4031))

/-- OUTPUT_TEST, 10 s after the last one, and CUTOFF_TEST, 5 s after the switch test, of a safety output that is on: a pass is only counted; a failure is
event 0x4034 and faults the instances that drive the output. -/
def outputTestRule : Prop :=
  ∀ (s : State) (ch : Fin 32) (i : Nat) (x : OutTest), x = nget s.saf.tests ch {} → roleAt s ch = 1 → (getDo s ch).applied = true →
    (x.lastSwitch + 10000000000 ≤ i →
      let u := blockCount { s with saf.tests := nset s.saf.tests ch { x with lastSwitch := i } } (0x5383 + ch / 16) 7
      does (.outputTest ch true i) s (fun t => t = u) ∧
      does (.outputTest ch false i) s (fun t => fieldOnly u t ∧ recordedBy t (ch / 16) 0x4034 ∧ driversFaulted s t ch)) ∧
    (x.lastCut < x.lastSwitch → x.lastSwitch + 5000000000 ≤ i →
      let u := blockCount { s with saf.tests := nset s.saf.tests ch { x with lastCut := i } } (0x5384 - ch / 16) 7
      does (.cutoffTest ch true i) s (fun t => t = u) ∧
      does (.cutoffTest ch false i) s (fun t => fieldOnly u t ∧ recordedBy t (1 - ch / 16) 0x4034 ∧ driversFaulted s t ch))

/-- The safety parameter set: SAF_EDIT opens and discards the pending copy of one context; a write of a parameter goes to the pending copy; a changed
type sets start mode and filter with it; SAF_COMMIT with the pending CRC makes the set active, with event 0x4033. -/
def safSetRule : Prop :=
  ∀ (s : State) (ctx v : Nat),
    (accepts s E.safEdit ctx 0x4200 4 1 → s.saf.edit = none → arbBlock s 7 0 0 = none → does (.safEditOpen ctx) s (fun t =>
      t = { s with saf.edit := some ctx, saf.pending := [] })) ∧
    (accepts s E.safEdit ctx 0x4200 4 0 → s.saf.edit = some ctx → does (.safEditDiscard ctx) s (fun t =>
      t = { s with saf.edit := none, saf.pending := [] })) ∧
    (∀ (e : Entry) (idx sub : Nat), findEntry idx sub = some e → inSafSet idx sub = true → e.persist = true →
      ¬(idx = 0x4201 ∧ sub = 1) → accepts s e ctx idx sub v → s.saf.edit = some ctx →
      safRange s (mkW s ctx idx sub e.len v e) = [] → does (.safParamWrite ctx idx sub v) s (fun t =>
        t = { s with saf.pending := nset s.saf.pending (ekey idx sub (chosen s e ctx)) v })) ∧
    (∀ n, n = chosen s E.safType ctx → accepts s E.safType ctx 0x4201 1 v → s.saf.edit = some ctx →
      safParam s true E.safType 1 n ≠ v → v ≤ 4 → does (.safTypeWrite ctx v) s (fun t =>
        let mode := if v = 0 then 0 else if v = 1 ∨ v = 4 then 2 else 1
        let filt := if v = 0 then 0 else if v = 1 then 1000 else if v = 2 then 1300 else if v = 3 then 1100 else 1200
        let p := nset (nset (nset s.saf.pending (ekey 0x4201 1 n) v) (ekey 0x4201 6 n) mode) (ekey 0x4201 7 n) filt
        t = { s with saf.pending := p })) ∧
    (accepts s E.safCommit ctx 0x4200 5 v → arbBlock s 8 0 0 = none →
      commitConds s (mkW s ctx 0x4200 5 E.safCommit.len v E.safCommit) = [] → does (.safCommit ctx v) s (fun t =>
        recorded t 0x4033 ∧ t.saf.edit = none ∧ t.saf.pending = [] ∧
        noted { s with sup.dict := t.sup.dict, cnt := t.cnt, upd.storeDue := t.upd.storeDue, saf := t.saf } t ∧
        ∀ n x, n < 32 → x ≠ 0xFF → s.saf.pending = [(ekey 0x4201 2 n, x)] → gvs t E.safPairA 2 n = x))

/-! ## Analog inputs (16) -/

/-- AI_OUTPUT. A channel settles for 40 outputs after a restart. From the 41st on each output is valid: clamped to the linear span, dated, counted, and
seen by the peak, RMS and envelope detectors; the first one ends MODULATOR, with event 0x4042. -/
def aiOutputRule : Prop :=
  ∀ (s : State) (ch : Fin 16) (raw : Int) (i : Nat) (a : Ai), a = getAi s ch → dieUp s (ch / 8) → a.range ≠ 0 →
    (((∃ i0, a.lossAt = some i0 ∧ i0 ≤ i) ∨ a.outputs < 40) → does (.aiOutput ch raw i) s (fun t =>
      t = { s with field.ai := vupd s.field.ai ch (fun a => { a with outputs := a.outputs + 1, valid := false, settling := true }) })) ∧
    (a.lossAt = none → 40 ≤ a.outputs → does (.aiOutput ch raw i) s (fun t =>
      let x : Int := if a.range = 1 then max (-12000000) (min 12000000 raw) else max (-2000000) (min 24000000 raw)
      noted { s with field.ai := vupd s.field.ai ch (fun a => { a with
        outputs := a.outputs + 1, raw := x, instant := i, valid := true, settling := false, samples := a.samples + 1, peaked := true
        hi := if a.peaked then max a.hi x else x
        lo := if a.peaked then min a.lo x else x
        rmsBuf := (x :: a.rmsBuf).take (2 ^ a.rmsLen)
        env := envStep a.env x.natAbs (aiPeriod a.rate) a.envRel
        modulator := false, burdenRec := a.burdenRec && a.burdenOpen.isSome }) } t ∧
      (a.modulator = true → recordedBy t (ch / 8) 0x4042)))

/-- MODULATOR_LOSS_START, MODULATOR_LOSS_END, MODULATOR_FAULT, BURDEN_OPEN and BURDEN_CLOSE: the loss or the burden, its events 0x4040, 0x4041 and 0x4043,
and the restart of the filter, which clears it and the detectors. -/
def aiLossRule : Prop :=
  ∀ (s : State) (ch : Fin 16) (i : Nat) (a : Ai), a = getAi s ch →
    let ai := fun (s : State) (f : Ai → Ai) => { s with field.ai := vupd s.field.ai ch f }
    let restart := fun (a : Ai) => { a with outputs := 0, valid := false, settling := true, peaked := false, rmsBuf := [], env := 0 }
    (dieUp s (ch / 8) → a.range ≠ 0 → a.lossAt = none → does (.modulatorLossStart ch i) s (fun t => recordedBy t (ch / 8) 0x4040 ∧
      noted (bumpi (ai s (fun a => { a with lossAt := some i, lost := true, valid := false, settling := true })) E.aiLosses ch) t)) ∧
    (∀ i0, a.lossAt = some i0 → does (.modulatorLossEnd ch i) s (fun t => t = ai s (fun a => { restart a with
      lossAt := none, faultFor := if a.modulator then i - i0 else a.faultFor }))) ∧
    (∀ i0, a.lossAt = some i0 → i0 + 100000000 ≤ i → a.modulator = false → does (.modulatorFault ch i) s (fun t =>
      recordedBy t (ch / 8) 0x4041 ∧ noted (ai s (fun a => { a with modulator := true })) t)) ∧
    (dieUp s (ch / 8) → a.range = 2 → a.burdenOpen = none →
      (a.burdenRec = false → does (.burdenOpen ch i) s (fun t => recordedBy t (ch / 8) 0x4043 ∧
        noted (ai s (fun a => { a with burdenOpen := some i, burdenRec := true, burdenCount := 0 })) t)) ∧
      (a.burdenRec = true → does (.burdenOpen ch i) s (fun t =>
        t = ai s (fun a => { a with burdenOpen := some i, burdenCount := a.burdenCount + 1 })))) ∧
    (∀ i0, a.burdenOpen = some i0 → i0 + 1000000000 ≤ i → does (.burdenClose ch i) s (fun t =>
      t = ai s (fun a => { restart a with burdenOpen := none })))

/-! ## The recorder (17) -/

/-- The journal of a hub takes one more record: it has not failed, and there is room in the part that the record may use (R426). -/
def journalRoom (s : State) (h : Nat) (r : Record) : Prop :=
  (getHub s h).journal.failed = false ∧ (getHub s h).journal.slots.length < 1048576 ∧
    (r.sev ≤ 2 → bit r.flags 2 = false →
      ((getHub s h).journal.slots.filter (fun p => lowRec p.2.rec_)).length < 786432)

/-- The journal with one more record, at its lowest free slot and under its next entry number; ONE_HUB is set while only this hub holds it. -/
def withRecord (s : State) (h : Nat) (r : Record) (j : Journal) : Journal :=
  { j with
    slots := nset j.slots (freeSlot 0 j.slots)
      { rec_ := if oneHub s h then { r with flags := r.flags ||| 1 } else r, entry := j.nextEntry }
    nextEntry := j.nextEntry + 1 }

/-- RECORD_RECEIVED: the oldest record on its way to the hub, marked POWER_FAIL in a power-fail, joins the buffer; a WARNING is stored in the journal
at once. BUFFER_AGE_FLUSH: so is a record 1 s old. -/
def recordRule : Prop :=
  ∀ (s : State) (hub : Fin 2) (r r' : Record) (rest : List Record) (i : Nat), hubUp s hub = true → s.recd.freeze = none →
    (r' = if s.supply.powerFail.isSome then { r with flags := r.flags ||| 8 } else r) →
    ((getHub s hub).inflight = r :: rest → (getHub s hub).buffer.length < 8191 → r.sev < 2 → s.supply.powerFail = none →
      does (.recordReceived hub) s (fun t =>
        t = updHub s hub (fun d => { d with inflight := rest, buffer := d.buffer ++ [r] }))) ∧
    ((getHub s hub).inflight = r :: rest → (getHub s hub).buffer = [] → 2 ≤ r.sev → journalRoom s hub r' →
      does (.recordReceived hub) s (fun t =>
        t = updHub s hub (fun d => { d with inflight := rest, journal := withRecord s hub r' d.journal }))) ∧
    ((getHub s hub).buffer = [r] → r.stamp + 1000000000 ≤ i → journalRoom s hub r → does (.bufferAgeFlush hub i) s (fun t =>
      t = updHub s hub (fun d => { d with buffer := [], journal := withRecord s hub r d.journal })))

/-- SUPPRESSION_RUN_END of the lanes: a run that has lasted 10 s, or whose bucket is full again, ends with one summary record 0x5001 at each hub. -/
def suppressionRule : Prop :=
  ∀ (s : State) (source code i : Nat) (b : Bucket) (r : SuppRun),
    b = (nget s.sup.buckets (pairKey 0 source code) {}).refill s.cyc.tk → b.run = some r →
    20000 ≤ b.tokens ∨ r.began + 10000000000 ≤ s.cyc.tk →
    does (.suppressionRunEnd 0 source code i) s (fun t =>
      t = { s with sup.buckets := nset s.sup.buckets (pairKey 0 source code) { b with run := none }, hubs := t.hubs } ∧
      ∀ h, h < 2 → hubUp s h = true → ∃ x, (getHub t h).inflight = (getHub s h).inflight ++ [x] ∧ x.code = 0x5001 ∧
        x.sev = r.sev ∧ x.source = source ∧ x.stamp = s.cyc.tk ∧
        x.data.take 22 = u16 code ++ u32 r.count ++ u64 r.first ++ u64 r.last)

/-- OPERATING_SECOND_TICK: one more second, stored by every hub 60 s after the last time. MRAM_WRITE_ERROR: the journal has failed, event 0x5008. -/
def secondRule : Prop :=
  ∀ (s : State),
    (hubUp s 0 = true ∨ hubUp s 1 = true →
      (s.recd.seconds + 1 < s.recd.lastStored + 60 → does .operatingSecondTick s (fun t =>
        t = { s with recd.seconds := s.recd.seconds + 1 })) ∧
      (s.recd.lastStored + 60 ≤ s.recd.seconds + 1 → does .operatingSecondTick s (fun t =>
        t = { s with recd.seconds := s.recd.seconds + 1, recd.lastStored := s.recd.seconds + 1, hubs := t.hubs } ∧
        ∀ h, h < 2 → getHub t h = if (getHub s h).failed then getHub s h
          else { getHub s h with opSeconds := s.recd.seconds + 1 }))) ∧
    (∀ (hub : Fin 2) addr i, hubUp s hub = true → (getHub s hub).journal.failed = false →
      does (.mramWriteError hub addr i) s (fun t => recorded t 0x5008 ∧
        noted (updHub s hub (fun d => { d with journal.failed := true })) t))

/-- REC_FREEZE begins a freeze of the context, with event 0x5005; the context's own end and the 30 s limit end it, and the hubs' buffers are flushed. -/
def freezeRule : Prop :=
  ∀ (s : State) (ctx : Nat),
    let ended := fun (i : Nat) (t : State) => recorded t 0x5005 ∧ t.recd.freeze = none ∧ t.recd.freezeEnded = some i ∧
      ∀ h, h < 2 → hubUp s h = true → (getHub t h).buffer = []
    (accepts s E.recFreeze ctx 0x5000 11 1 → arbBlock s 5 0 0 = none → does (.recFreezeOn ctx) s (fun t => recorded t 0x5005 ∧
      noted { s with recd.freeze := some (ctx, s.cyc.tk) } t)) ∧
    (∀ i0, accepts s E.recFreeze ctx 0x5000 11 0 → s.recd.freeze = some (ctx, i0) →
      does (.recFreezeOff ctx) s (ended s.cyc.tk)) ∧
    (∀ c i0 i, s.recd.freeze = some (c, i0) → i0 + 30000000000 ≤ i → does (.freezeExpiry i) s (ended i))

/-- REC_CLEAR and PWD_SET are held while the password is derived; PASSWORD_DERIVATION_DONE, 40 ms later, lets the request enter the next image.
What they do when they are applied: a right password sets the clear point, a wrong one counts and is event 0x1041; PWD_SET stores the password
under its salt, with event 0x1043. LOCKOUT_EXPIRY ends a lockout after 15 min. -/
def passwordRule : Prop :=
  ∀ (s : State) (ctx : Nat),
    (∀ (idx sub : Nat) (c : List Byte → Instr), (idx = 0x5000 ∧ sub = 13 ∧ c = fun b => .recClear ctx b) ∨
        (idx = 0x1110 ∧ c = fun b => .pwdSet ctx sub b) → nhas s.sup.ctxs ctx = true → ∀ b,
      does (c b) s (fun t => t = { s with upd.jobs := s.upd.jobs ++ [{ since := s.cyc.tk, req :=
        { ctx := ctx, reqId := 0, op := 2, index := idx, sub := sub, elen := 64, payload := (b ++ List.replicate 64 0).take 64 } }] })) ∧
    (∀ j rest i, s.upd.jobs = j :: rest → j.req.ctx = ctx → j.since + 40000000 ≤ i → does (.passwordDerivationDone ctx i) s (fun t =>
      t = { s with upd.jobs := rest, sup.reqs := s.sup.reqs ++ [{ j.req with due := s.cyc.k + 2 }] })) ∧
    (∀ v w, w = mkW s ctx 0x5000 13 64 v E.recClear → genericConds s w E.recClear = [] → arbBlock s 6 0 0 = none →
      (pwdMatches s 2 (visText (leBytes 64 v)) = true → ∃ t, applyW hRecClear E.recClear s w = t ∧
        t.recd.clearPoint = some (s.cyc.tk, ctx) ∧ (vget t.upd.pwds 2 {}).fails = 0) ∧
      (pwdMatches s 2 (visText (leBytes 64 v)) = false → ∃ t, applyW hRecClear E.recClear s w = t ∧ recorded t 0x1041 ∧
        (vget t.upd.pwds 2 {}).fails = min 255 ((vget s.upd.pwds 2 {}).fails + 1) ∧ t.recd = { s.recd with buckets := t.recd.buckets })) ∧
    (∀ v role w, w = mkW s ctx 0x1110 role 64 v E.pwdSet → 1 ≤ role → role ≤ 5 → genericConds s w E.pwdSet = [] →
      hPwdSet.conds s w = [] → ∃ t, applyW hPwdSet E.pwdSet s w = t ∧ recorded t 0x1043 ∧
        (vget t.upd.pwds role {}).delivered = false ∧
        (vget t.upd.pwds role {}).hash = some (Config.pbkdf2 (visText (leBytes 64 v)) (vget t.upd.pwds role {}).salt)) ∧
    (∀ (role : Fin 6) i0 i, (vget s.upd.pwds role {}).lockedAt = some i0 → i0 + 900000000000 ≤ i →
      does (.lockoutExpiry role i) s (fun t =>
        t = { s with upd.pwds := vupd s.upd.pwds role (fun p => { p with lockedAt := none }) }))

/-- CLEAR_SWEEP_COMPLETE: each journal holds no record that the clear took. REC_WINDOW_READ: the window's records join the output stream of the
crossing as a response. -/
def clearReadRule : Prop :=
  ∀ (s : State),
    (∀ p c i, s.recd.clearPoint = some (p, c) → does (.clearSweepComplete i) s (fun t =>
      t = { s with recd.clearPoint := none, hubs := t.hubs } ∧
      ∀ h, h < 2 → getHub t h = { getHub s h with
        journal.slots := (getHub s h).journal.slots.filter (fun x => !(swept s h p x.2)) })) ∧
    (∀ ctx id, nhas s.sup.ctxs ctx = true → does (.recWindowRead ctx id) s (fun t =>
      (∃ x, t.sup.outs = s.sup.outs ++ [x] ∧ x.kind = 5 ∧ x.ident = ctx ∧ x.tag = id ∧
        x.data = u8 1 ++ u8 1 ++ beBytes 2 id ++ beBytes 2 0x5001 ++ u8 2 ++ u8 0x80 ++ beBytes 2 1024 ++ beBytes 2 1024 ++ windowBytes s ctx) ∧
      t.hubs = s.hubs ∧ t.recd = s.recd ∧ t.sup.dict = s.sup.dict))

/-! ## The yards (17 R435 to R440) -/

/-- STORAGE_LINK_CHANGE of a link that its shed has not powered down: a link that is lost leaves the yard ABSENT; with one that comes up, the newest header is taken. -/
def storageRule : Prop :=
  ∀ (s : State) (hub : Fin 2) (f : YardFound) (i : Nat), (getShed s (storShed hub)).state ≠ 2 →
    ((getShed s (storShed hub)).state = 1 → (vget s.shedHub (storShed hub) {}).stopped = false) →
    does (.storageLinkChange hub false f i) s (fun t => (getYard t hub).linkUp = false ∧ (getYard t hub).state = 0 ∧
      (getYard t hub).inPage = [] ∧ ((getYard s hub).state ≠ 0 → recorded t 0x5006) ∧
      ∀ h, h ≠ hub.val → getYard t h = getYard s h) ∧
    (∀ x, f.header = some x → does (.storageLinkChange hub true f i) s (fun t =>
      (getYard t hub).linkUp = true ∧ (getYard t hub).headerWritten = true ∧ (getYard t hub).serial = x.serial ∧
      (getYard t hub).format = x.format ∧ (getYard t hub).writePage = x.page ∧ (getYard t hub).wraps = x.wraps ∧
      gvs t E.yardCapacity (3 + hub) 0 = f.capacity ∧ ∀ h, h ≠ hub.val → getYard t h = getYard s h))

/-- MIGRATION_PAGE_WRITE: when 63 records wait, or the oldest has waited 10 s, the page is written with what it held and the oldest that fit.
YARD_WRITE_COMPLETE: its records are migrated, and after a full page writing goes on with the next. YARD_HEADER_WRITE: once a second. -/
def migrationRule : Prop :=
  ∀ (s : State) (hub : Fin 2) (i : Nat) (y : Yard), y = getYard s hub →
    (∀ (wait new : List JSlot) (had recs : List Record), mayMigrate s hub = true → y.inPage = [] → wait = waitingRecs s hub →
      63 ≤ wait.length ∨ (∃ x rest, wait = x :: rest ∧ x.rec_.stamp + 10000000000 ≤ i) → y.writePage < yardPages s hub →
      had = (if (nget y.pages y.writePage []).length < 63 then nget y.pages y.writePage [] else []) →
      new = wait.take (63 - had.length) → recs = had ++ new.map (·.rec_) →
      does (.migrationPageWrite hub i) s (fun t => t = { s with
        recd.yards := vupd s.recd.yards hub (fun y => { y with
          pages := nset y.pages y.writePage recs, inPage := new.map (·.entry) })
        egress :=
          { kind := .yardPage, port := hub + 1, a := y.writePage, b := y.pageSeq, c := recs.length
            data := pageBytes y hub recs } :: s.egress })) ∧
    (y.inPage ≠ [] → hubUp s hub = true → does (.yardWriteComplete hub i) s (fun t =>
      (getHub t hub).journal.slots = (getHub s hub).journal.slots.map (fun p =>
        (p.1, { p.2 with migrated := p.2.migrated || y.inPage.contains p.2.entry })) ∧
      (getYard t hub).inPage = [] ∧ (getYard t hub).errors = 0 ∧ (getYard t hub).pages = y.pages ∧
      (getYard t hub).writePage = (if 63 ≤ (nget y.pages y.writePage []).length then y.writePage + 1 else y.writePage) ∧
      ∀ h, h ≠ hub.val → getYard t h = getYard s h)) ∧
    (mayMigrate s hub = true → y.lastHeader + 1000000000 ≤ i → does (.yardHeaderWrite hub i) s (fun t => t = { s with
      recd.yards := vupd s.recd.yards hub (fun y => { y with lastHeader := i, headerSeq := y.headerSeq + 1, headerWritten := true })
      egress :=
        { kind := .yardHeader, port := hub + 1, a := y.headerSeq + 1, b := y.writePage, c := y.wraps
          data := yardHead { y with headerSeq := y.headerSeq + 1 } (gvs s E.yardCapacity (3 + hub) 0) } :: s.egress }))

/-- YARD_COMMAND_ERROR: a time-out or the third error in a row makes the yard FAILED. YARD_HEALTH_POLL: the health pages are kept. YARD_FORMAT, in STOP:
both copies of a new header under this module's serial number, writing from page 0. -/
def yardStateRule : Prop :=
  ∀ (s : State),
    (∀ (hub : Fin 2) status i (late : Bool), hubUp s hub = true → (getYard s hub).linkUp = true →
      (late = true ∨ 2 ≤ (getYard s hub).errors → does (.yardCommandError hub status late i) s (fun t =>
        (getYard t hub).state = 5 ∧ (getYard t hub).inPage = [] ∧ ((getYard s hub).state ≠ 5 → recorded t 0x5006))) ∧
      (late = false → (getYard s hub).errors < 2 → does (.yardCommandError hub status late i) s (fun t =>
        t = { s with recd.yards := vupd s.recd.yards hub (fun y => { y with
          errors := y.errors + 1, inPage := []
          pages := if y.inPage = [] then y.pages else
            nupd y.pages y.writePage (fun l => l.take (l.length - y.inPage.length)) }) })) ∧
      (∀ n, hubSends s hub = true → does (.yardHealthPoll hub n i) s (fun t =>
        t = { svs s E.yardHealth (9 + hub) 0 n with
          egress := { kind := .nvme, port := hub + 1, a := 2, b := i } :: s.egress }))) ∧
    (∀ ctx h, h < 2 → accepts s E.yardFormat ctx 0x5011 2 (h + 1) → s.sup.mode = 2 → 1 ≤ (getYard s h).state → (getYard s h).state ≤ 4 →
      does (.yardFormat ctx (h + 1)) s (fun t =>
        (getYard t h).serial = Config.serial ∧ (getYard t h).headerWritten = true ∧ (getYard t h).writePage = 0 ∧
        (getYard t h).wraps = 0 ∧ (getYard t h).pages = [] ∧ (getYard t h).inPage = [] ∧
        (hubSends s h = true → ∃ e f, t.egress = f :: e :: s.egress ∧ e.kind = .yardHeader ∧ e.port = h + 1 ∧
          e.a = (getYard s h).headerSeq + 1 ∧ f.kind = .yardHeader ∧ f.port = h + 1 ∧ f.a = (getYard s h).headerSeq + 2) ∧
        ((getYard s h).linkUp = true → hubUp s h = true → (getShed s (storShed h)).state = 0 → 0 < yardPages s h →
          (getYard t h).state = 3) ∧
        (∀ j, j ≠ h → getYard t j = getYard s j)))

/-! ## Packages, settings and the tack room (18) -/

/-- A CHUNK fits: the service-port session is open, its transfer runs and is not paused, and the chunk is one of the block expected next. -/
def chunkFits (s : State) (x : Transfer) (p : Package) (part block chunk : Nat) (data : List Byte) : Prop :=
  s.upd.transfer = some x ∧ nget? s.upd.loft x.pkg = some p ∧ nhas s.sup.ctxs 0 = true ∧ s.upd.paused = false ∧
    (part, block) = nextBlock p ∧ chunk < blockChunks p (nextBlock p) ∧ data.length = 1024

/-- CHUNK, while the hub that has the loft operates. One that does not fit is discarded and counted. One that does not complete its block is kept. A completed block whose CRC fails is discarded,
with event 0x5011. A completed payload block whose digest is that of the manifest joins the payload, and the last one makes the package
COMPLETE, with event 0x5012; a header that passes every check is taken, and one that fails erases the package, with event 0x5011. -/
def chunkRule : Prop :=
  ∀ (s : State) (pkg part block chunk crc i : Nat) (data : List Byte) (x : Transfer) (p : Package),
    (s.upd.transfer = none ∨ nhas s.sup.ctxs 0 = false ∨ s.upd.paused = true ∨
        (s.upd.transfer = some x ∧ nget? s.upd.loft x.pkg = some p ∧ (pkg ≠ x.pkg ∨ (part, block) ≠ nextBlock p)) →
      does (.chunk pkg part block chunk crc data i) s (fun t => t = { s with upd.dropped := s.upd.dropped + 1 })) ∧
    (chunkFits s x p part block chunk data → pkg = x.pkg → storeWrites s = true →
      let all := nset x.chunks chunk (crc, data)
      let bytes := all.flatMap (fun c => c.2.2)
      let taken := fun (t : State) => t.upd.transfer = some { x with chunks := [], lastChunk := i }
      (all.length < blockChunks p (nextBlock p) → does (.chunk pkg part block chunk crc data i) s (fun t =>
        t = { s with upd.transfer := some { x with chunks := all, lastChunk := i } })) ∧
      (all.length = blockChunks p (nextBlock p) → (∃ c ∈ all, c.2.1 ≠ crc32c bytes) →
        does (.chunk pkg part block chunk crc data i) s (fun t => recorded t 0x5011 ∧ taken t ∧ t.upd.loft = s.upd.loft)) ∧
      (all.length = blockChunks p (nextBlock p) → (∀ c ∈ all, c.2.1 = crc32c bytes) →
        (part = 2 → Config.sha384 bytes = beNat ((p.manifest.drop (48 * block)).take 48) →
          let p' := { p with payload := p.payload ++ bytes, payloadBlocks := p.payloadBlocks + 1, progress := s.recd.seconds }
          (p.payloadBlocks + 1 < pkgBlocks p → does (.chunk pkg part block chunk crc data i) s (fun t =>
            taken t ∧ t.upd.loft = nset s.upd.loft pkg p')) ∧
          (p.payloadBlocks + 1 = pkgBlocks p → p.manifestBlocks = pkgManifest p →
            does (.chunk pkg part block chunk crc data i) s (fun t => recorded t 0x5012 ∧ t.upd.transfer = none ∧
              t.upd.loft = nset s.upd.loft pkg { p' with state := 2, paused := false }))) ∧
        (part = 2 → Config.sha384 bytes ≠ beNat ((p.manifest.drop (48 * block)).take 48) →
          does (.chunk pkg part block chunk crc data i) s (fun t => recorded t 0x5011 ∧ taken t ∧ t.upd.loft = s.upd.loft)) ∧
        (part = 0 → headerCheck s bytes = 0 → does (.chunk pkg part block chunk crc data i) s (fun t => taken t ∧
          t.upd.loft = nset s.upd.loft pkg { p with
            kind := fieldAt bytes 6 1, header := bytes, root := rootSlot s bytes, progress := s.recd.seconds })) ∧
        (part = 0 → headerCheck s bytes ≠ 0 → does (.chunk pkg part block chunk crc data i) s (fun t => recorded t 0x5011 ∧
          t.upd.loft = nerase s.upd.loft pkg ∧ t.upd.transfer = none))))

/-- CHUNK_STALE_TIMEOUT: a block incomplete for 60 s is discarded and its package paused. PACKAGE_EXPIRY: a paused package not resumed within 86 400 s is
erased. Both are event 0x5016, as is UPD_ABORT. UPD_OPEN begins a package, or resumes one, with event 0x5010. -/
def loftTransferRule : Prop :=
  ∀ (s : State) (ctx i n : Nat) (x : Transfer) (p : Package),
    (s.upd.transfer = some x → nget? s.upd.loft x.pkg = some p → x.chunks ≠ [] → x.lastChunk + 60000000000 < i →
      does (.chunkStaleTimeout i) s (fun t => recorded t 0x5016 ∧ noted { s with
        upd.transfer := some { x with chunks := [] }, upd.paused := true
        upd.loft := nset s.upd.loft x.pkg { p with paused := true } } t)) ∧
    (s.upd.transfer = none → s.upd.paused = false → nget? s.upd.loft n = some p → p.state = 1 → p.paused = true →
      p.progress + 86400 ≤ s.recd.seconds → storeWrites s = true → does (.packageExpiry n) s (fun t => recorded t 0x5016 ∧
        noted { s with upd.loft := nerase s.upd.loft n } t)) ∧
    (accepts s E.updAbort ctx 0x5100 5 1 → s.upd.transfer = some x → does (.updAbort ctx) s (fun t => recorded t 0x5016 ∧
      noted { s with upd.loft := nerase s.upd.loft x.pkg, upd.transfer := none, upd.paused := false } t)) ∧
    (accepts s E.updOpen 0 0x5100 1 0 → arbBlock s 0 0 0 = none → s.upd.transfer = none → s.upd.loft.length < 64 →
      does (.updOpen 0 0) s (fun t => recorded t 0x5010 ∧ noted { s with
        upd.loft := nset s.upd.loft (freePkg s) { progress := s.recd.seconds }
        upd.transfer := some { pkg := freePkg s, lastChunk := s.cyc.tk }, upd.paused := false } t)) ∧
    (accepts s E.updOpen 0 0x5100 1 n → arbBlock s 0 0 0 = none → s.upd.transfer = none → n ≠ 0 →
      nget? s.upd.loft n = some p → p.state = 1 → s.recd.seconds < p.progress + 86400 →
      does (.updOpen 0 n) s (fun t => recorded t 0x5010 ∧ noted { s with
        upd.loft := nset s.upd.loft n { p with paused := false }
        upd.transfer := some { pkg := n, lastChunk := s.cyc.tk }, upd.paused := false } t))

/-- UPD_ACTIVATE arms one firmware package and disarms every other; 0 disarms. UPD_FALLBACK, LOFT_DELETE and SET_RESET. -/
def armRule : Prop :=
  ∀ (s : State) (ctx v : Nat) (p : Package),
    let off := s.upd.loft.map (fun (x : Nat × Package) => (x.1, if x.2.state = 3 then { x.2 with state := 2 } else x.2))
    let stored := fun (v : Nat) => svx s E.updActivate 0x5100 6 (chosen s E.updActivate ctx) v
    (accepts s E.updActivate ctx 0x5100 6 v → v ≠ 0 → arbBlock s 1 0 0 = none → useCheck s v 1 = 0 → nget? s.upd.loft v = some p →
      fieldAt p.header 38 2 ≤ s.upd.format → does (.updActivateArm ctx v) s (fun t => ∃ q, nget? off v = some q ∧
        t = filed s E.updActivate ctx 0x5100 6 v { stored v with
          upd.loft := nset off v { q with state := 3 }, sup.arbArm := true })) ∧
    (accepts s E.updActivate ctx 0x5100 6 0 → does (.updActivateDisarm ctx) s (fun t =>
      t = filed s E.updActivate ctx 0x5100 6 0 { stored 0 with upd.loft := off })) ∧
    (accepts s E.updFallback ctx 0x5100 7 1 → arbBlock s 1 0 0 = none → (otherBank s).state = 3 →
      (otherBank s).gens.contains (gv s E.compatGen) = true → s.upd.epoch ≤ (otherBank s).epoch →
      does (.updFallback ctx) s (fun t => t = { s with upd.fallback := true, sup.arbArm := true })) ∧
    (accepts s E.loftDelete ctx 0x5110 65 v → nhas s.upd.loft v = true → pkgInUse s v = false → s.upd.transfer = none →
      s.upd.paused = false → does (.loftDelete ctx v) s (fun t => t = { s with upd.loft := nerase s.upd.loft v })) ∧
    (accepts s E.setReset ctx 0x5200 3 1 → arbBlock s 1 0 0 = none → does (.setReset ctx) s (fun t =>
      t = { s with upd.setReset := true, sup.arbArm := true }))

/-- SETTINGS_PART_WRITE of the part to which a due value belongs: every value that is due in that part, and every other that it holds, is in the store
under one sequence number more than that of the part's newest copy; a torn copy leaves the previous one; the other parts are as before; and nothing is
written after a power-fail warning, or while the hub that has the store is failed. -/
def settingsRule : Prop :=
  ∀ (s : State) (key : Nat) (torn : Bool), nhas s.upd.storeDue key = true → nwf s.upd.storeDue = true →
    let mine := fun (k : Nat) => partOf s k = partOf s key
    let seq := partSeq s (partOf s key) + 1
    (s.supply.powerFail = none → storeWrites s = true → does (.settingsPartWrite key torn) s (fun t =>
      t = { s with upd.store := t.upd.store, upd.storeDue := s.upd.storeDue.filter (fun x => !(decide (mine x.1))) } ∧
      (torn = true → t.upd.store = s.upd.store) ∧
      (torn = false → ∀ k,
        (∀ v n, mine k → nget? s.upd.storeDue k = some (v, n) → nget? t.upd.store k = some (v, seq)) ∧
        (∀ v n, mine k → nget? s.upd.storeDue k = none → nget? s.upd.store k = some (v, n) → nget? t.upd.store k = some (v, seq)) ∧
        (¬ mine k → nget? t.upd.store k = nget? s.upd.store k)))) ∧
    (s.supply.powerFail ≠ none ∨ storeWrites s = false → does (.settingsPartWrite key torn) s (fun t => t = s))

/-- The tack room: TR_ROOT_LOAD, TR_ROOT_CLEAR, TR_CA_LOAD and TR_CA_CLEAR change one slot, whose count goes on, with event 0x5017; the sessions anchored in
a changed CA slot close with cause 6. A root change that would leave no slot for both firmware and roots is refused. TR_LOCK_MASK is stored unless
locked. -/
def tackRule : Prop :=
  ∀ (s : State) (ctx v : Nat),
    let pay := pkgPayload s v
    let slot := fieldAt pay 0 1
    let anchored := fun (t : State) (n : Nat) => ∀ j e, nget? s.con.sessions j = some e → e.anchor = n → 2 ≤ e.state →
      e.closing = none → (s.con.sessions.filter (fun p => p.1 = j)).length = 1 →
      ∃ e', nget? t.con.sessions j = some e' ∧ e'.closing = some 6
    (accepts s E.trRootLoad ctx 0x1150 1 v → arbBlock s 2 0 0 = none → useCheck s v 6 = 0 → slot ≤ 3 → lockBit s (224 + slot) = false →
      rootsKeep (vupd s.upd.roots slot (fun _ => rootOf pay 0)) = true → does (.trRootLoad ctx v) s (fun t => recorded t 0x5017 ∧
        noted { s with upd.roots := vupd s.upd.roots slot (fun r => rootOf pay (r.seq + 1)), sup.arbTack := true } t)) ∧
    (accepts s E.trRootClear ctx 0x1150 3 v → arbBlock s 2 0 0 = none → v ≤ 3 → lockBit s (224 + v) = false →
      rootsKeep (vupd s.upd.roots v (fun _ => {})) = true → does (.trRootClear ctx v) s (fun t => recorded t 0x5017 ∧
        noted { s with upd.roots := vupd s.upd.roots v (fun r => { seq := r.seq + 1 }), sup.arbTack := true } t)) ∧
    (accepts s E.trRootClear ctx 0x1150 3 v → arbBlock s 2 0 0 = none → v ≤ 3 → lockBit s (224 + v) = false →
      rootsKeep (vupd s.upd.roots v (fun _ => {})) = false → does (.trRootClear ctx v) s (fun t => t.upd.roots = s.upd.roots)) ∧
    (accepts s E.trCaLoad ctx 0x1150 2 v → arbBlock s 2 0 0 = none → useCheck s v 5 = 0 → slot ≤ 7 → lockBit s (228 + slot) = false →
      Config.caOk ((pay.drop 4).take (fieldAt pay 2 2)) = true → does (.trCaLoad ctx v) s (fun t => recorded t 0x5017 ∧
        anchored t slot ∧ noted { s with
          upd.cas := vupd s.upd.cas slot (fun c =>
            { usage := fieldAt pay 1 1, cert := (pay.drop 4).take (fieldAt pay 2 2), seq := c.seq + 1 })
          sup.arbTack := true, con.sessions := t.con.sessions } t)) ∧
    (accepts s E.trCaClear ctx 0x1150 4 v → arbBlock s 2 0 0 = none → v ≤ 7 → lockBit s (228 + v) = false →
      does (.trCaClear ctx v) s (fun t => recorded t 0x5017 ∧ anchored t v ∧ noted { s with
        upd.cas := vupd s.upd.cas v (fun c => { seq := c.seq + 1 })
        sup.arbTack := true, con.sessions := t.con.sessions } t)) ∧
    (accepts s E.trLockMask ctx 0x1154 1 v → lockBit s 239 = false → does (.trLockMaskWrite ctx v) s (fun t =>
      t = filed s E.trLockMask ctx 0x1154 1 v (svx s E.trLockMask 0x1154 1 (chosen s E.trLockMask ctx) v)))

/-! ## Performance counters (19) -/

/-- The performance record of one core of one lane. -/
def corePerf (s : State) (lane core : Nat) : CorePerf := vget s.perf.cores (lane * 16 + core) {}

/-- PC_CTRL: stored, and its counter is 0 on every lane. PC_CLEAR: every programmable counter is 0, and the cycle counters stay. PC_SNAP_CMD: a snapshot
is due. PC_SAMPLE_K: stored, and each lane draws a first countdown of its own. PC_LAT_ARM: the latency records are empty and armed. -/
def perfRule : Prop :=
  ∀ (s : State) (ctx v : Nat) (core : CoreIx),
    (∀ ctr : Fin 8, accepts s E.pcCtrl ctx (0x5310 + core) (1 + ctr) v → ctrlRange v = [] →
      does (.pcCtrlWrite ctx core ctr v) s (fun t =>
        t = filed s E.pcCtrl ctx (0x5310 + core) (1 + ctr) v
          { svx s E.pcCtrl (0x5310 + core) (1 + ctr) (chosen s E.pcCtrl ctx) v with
            perf.cfgChanged := true, perf.cores := t.perf.cores } ∧
        ∀ l c, l < 3 → c < 16 → if c = core.val then
            (corePerf t l c).cycles = (corePerf s l c).cycles ∧
            ∀ j, j < 8 → vget (corePerf t l c).pc j 0 = if j = ctr.val then 0 else vget (corePerf s l c).pc j 0
          else corePerf t l c = corePerf s l c)) ∧
    (accepts s E.pcClear ctx 0x5300 7 1 → does (.pcClear ctx) s (fun t =>
      t = { s with perf.cfgChanged := true, perf.cores := t.perf.cores } ∧
      ∀ l c, l < 3 → c < 16 → corePerf t l c = { corePerf s l c with pc := Vector.replicate 8 0, ovf := 0 })) ∧
    (accepts s E.pcSnapCmd ctx 0x5300 1 1 → does (.pcSnapCmd ctx) s (fun t => t = { s with perf.snapDue := true })) ∧
    (accepts s E.pcSampleK ctx 0x5330 (1 + core) v → (v = 0 ∨ (8 ≤ v ∧ v ≤ 24)) → does (.pcSampleKWrite ctx core v) s (fun t =>
      t = filed s E.pcSampleK ctx 0x5330 (1 + core) v
        { svx s E.pcSampleK 0x5330 (1 + core) (chosen s E.pcSampleK ctx) v with
          perf.cores := t.perf.cores, st.freeCount := t.st.freeCount } ∧
      ∀ l c, l < 3 → c < 16 → if c = core.val then
          ∃ d, corePerf t l c = { corePerf s l c with countdown := d } ∧ (v = 0 → d = none) ∧
            (v ≠ 0 → ∃ n, d = some n ∧ 2 ^ (v - 1) ≤ n + 1 ∧ n + 1 < 2 ^ (v - 1) + 2 ^ v)
        else corePerf t l c = corePerf s l c)) ∧
    (accepts s E.pcLatArm ctx 0x5340 3 1 → does (.pcLatArm ctx) s (fun t =>
      t = { s with perf.lat := Vector.replicate 3 [], perf.latArmed := true }))

/-! ## The whole block -/

/-- The commands that are Stallcode instructions as a core runs them (03). -/
def stallInsn : Instr → Bool
  | .add .. | .sub .. | .and .. | .or .. | .xor .. | .sll .. | .srl .. | .sra .. | .slt .. | .sltu .. | .mul .. | .mulh ..
  | .mulhu .. | .div .. | .divu .. | .rem .. | .remu .. | .min .. | .max .. | .minu .. | .maxu .. | .clz .. | .ctz .. | .popc ..
  | .bswap .. | .movnz .. | .movz .. | .addi .. | .andi .. | .ori .. | .xori .. | .slti .. | .sltiu .. | .slli .. | .srli ..
  | .srai .. | .lui .. | .shori .. | .beq .. | .bne .. | .blt .. | .bge .. | .bltu .. | .bgeu .. | .jmp .. | .call .. | .jalr ..
  | .ldB .. | .ldBu .. | .ldH .. | .ldHu .. | .ldW .. | .ldWu .. | .ldD .. | .stB .. | .stH .. | .stW .. | .stD .. | .fadd ..
  | .fsub .. | .fmul .. | .fdiv .. | .fsqrt .. | .fmadd .. | .fmsub .. | .fmin .. | .fmax .. | .feq .. | .flt .. | .fle ..
  | .fneg .. | .fabs .. | .fcpys .. | .itof .. | .utof .. | .ftoi .. | .ftou .. | .fint .. | .ftrunc .. | .brk .. | .eret ..
  | .rdsw .. | .wrsw .. | .rdfuel .. | .bcopy .. | .bfill .. | .bcrc .. | .bcmp .. | .illegalInstruction .. | .svcYield ..
  | .sendBackboneTelegram .. | .sendStallDataTelegram .. | .bridgeWrite .. | .bridgeRead .. | .bridgeLock .. | .bridgeUnlock ..
  | .sendFieldOutputCommand .. | .svcTrigArm .. | .svcTrigCancel .. | .svcEvent .. | .svcSafetyReqStart ..
  | .svcSafetyReqReset .. | .svcFault .. | .svcUnassigned .. => true
  | _ => false

/-- A pause changes nothing of any stall, its fuel included, and what an instruction does to the block is the same with or without it: the
performance counters, which alone know of it, never reach an instruction. -/
def pauseUnseen : Prop :=
  (∀ (s : State) (lane : Fin 3) (core : CoreIx) (n : Nat), does (.supervisorPause lane core n) s (fun t =>
    t.sup = s.sup ∧ t.cyc = s.cyc ∧ t = { s with perf := t.perf })) ∧
  ∀ (c : Instr) (s : State) (p : Perf), stallInsn c = true →
    ∃ t q, exec c s = .next t ∧ exec c { s with perf := p } = .next { t with perf := q }

/-- A write that the arbiter refuses, and nothing else does: it is counted and described, no event is recorded, and of the
dictionary nothing else changes. -/
def arbiterCounts : Prop :=
  ∀ (s t : State) (h : Handler) (e : Entry) (ctx idx sub v : Nat) (w : WReq) (a : Nat × Nat × Nat) (b : Nat),
    nwf s.sup.dict = true → nhas s.sup.ctxs ctx = true → w = mkW s ctx idx sub e.len v e → genericConds s w e = [] →
    h.conds s w = [] → h.own = false → h.act w = some a → arbBlock s a.1 a.2.1 a.2.2 = some b →
    gv s E.arbRefused + 1 < 2 ^ 32 → writeCmd h e ctx idx sub v s = t →
    gv t E.arbRefused = gv s E.arbRefused + 1 ∧
    gv t E.arbLastRefusal = leNat (u16 idx ++ u8 sub ++ u8 b ++ u16 (ctxCode ctx) ++ u16 0) ∧
    t.hubs = s.hubs ∧ t.sup.buckets = s.sup.buckets ∧ t.recd = s.recd ∧
    ∀ k, k ≠ ekey 0x1130 2 0 → k ≠ ekey 0x1130 3 0 → nget? t.sup.dict k = nget? s.sup.dict k

/-- A write that a condition of the entry table refuses, where the write would start no activity and no power-fail is in progress: the dictionary, the settings that wait for the
store, the packages, the field domain, the evaluators, the backbone and the stalls other than the writer are as before. -/
def refusalKeeps : Prop :=
  ∀ (s t : State) (h : Handler) (e : Entry) (ctx idx sub v : Nat) (w : WReq), nhas s.sup.ctxs ctx = true →
    w = mkW s ctx idx sub e.len v e → genericConds s w e ≠ [] → h.conds s w = [] → h.own = false →
    h.act w = none → s.supply.powerFail = none → e.wr < 2 ^ 8 → e.lock < 2 ^ 16 → writeCmd h e ctx idx sub v s = t →
    t.sup.dict = s.sup.dict ∧ t.upd = s.upd ∧ t.field = s.field ∧ t.saf = s.saf ∧ t.bb = s.bb ∧ t.twin = s.twin ∧ t.br = s.br ∧
      t.sup.chg = s.sup.chg ∧ ∀ i, i + 5000 ≠ ctx → getStall? t i = getStall? s i

/-- The LEDs (22 R526, Table 22-11): without supply RUN is dark; in operation it shows the mode, and recovery before it; FAULT is on after a fatal
fault or while the module is held in start-up, and flashes while a part is out of service; FORCE is on while a force stands; and for the first 0.5 s
of phase S1 every LED shows each of its colours. -/
def ledRule : Prop :=
  ∀ s : State,
    (s.supply.supplyGood = false → ledShows s .run = (.green, .off)) ∧
    (s.supply.supplyGood = true → s.st.phase = 10 → s.cyc.running = true →
      (s.st.recovery = true → ledShows s .run = (.green, .flash 4)) ∧
      (s.st.recovery = false → s.sup.mode = 1 → ledShows s .run = (.green, .on)) ∧
      (s.st.recovery = false → s.sup.mode = 2 → ledShows s .run = (.green, .flash 1)) ∧
      (s.st.recovery = false → s.sup.mode = 3 → ledShows s .run = (.green, .winks))) ∧
    ledShows s .fault = (.red,
      if s.st.fatal = true ∨ s.st.heldIn = true then .on else if ledImpaired s = true then .flash 1 else .off) ∧
    ledShows s .force = (.amber, if 0 < forceCount s then .on else .off) ∧
    ∀ l c i, s.st.phase = 1 → i < 500000000 → ledLit s l c i = (ledColours l).contains c

/-- The block instructions complete (03 R75, R77, R78): with fuel for every granule and for the retirement, and every byte of the range accessible,
each retires to pc + 4 in one command. BCMP does so wherever the operands differ. -/
def blockCompletes : Prop :=
  ∀ (s : State) (core : CoreIx) (i : Nat) (st : Stall) (n : Nat), n = (rget st.exec 3).toNat → ready s core i st (granules n + 1) →
    (rget st.exec 1).toNat + n < 2 ^ 64 →
    let retires := fun (c : Instr) => ∃ t st', exec c s = .next t ∧ getStall? t i = some st' ∧ st'.exec.pc = st.exec.pc + 4 ∧
      stallOnly s t i
    let reads := fun (r : Reg) => ∀ j, j < n → canRead st.desc ((rget st.exec r).toNat + j) = true
    let writes := ∀ j, j < n → canWrite st.desc ((rget st.exec 1).toNat + j) = true
    (reads 2 → writes → (rget st.exec 2).toNat + n < 2 ^ 64 → retires (.bcopy core)) ∧
    (writes → retires (.bfill core)) ∧
    (reads 1 → retires (.bcrc core)) ∧
    (∀ rd : Reg, rd.val = 0 ∨ 4 ≤ rd.val → reads 1 → reads 2 → (rget st.exec 2).toNat + n < 2 ^ 64 → retires (.bcmp core rd))

/-- The commands that carry a crossing complete (05 R119 to R122, 06 R162, R174): the sample of a die in operation is taken; a hub's image of the next
crossing closes; the crossing is agreed; an activation begins; the crossing's end is agreed; and the next crossing begins. -/
def crossingCompletes : Prop :=
  ∀ s : State,
    (∀ (die : Fin 2) i a b, (getDie s die).failed = false → does (.fieldSample die i a b) s (fun t =>
      (getDie t die).seq = (getDie s die).seq + 1 ∧ t.sup = s.sup)) ∧
    (∀ (hub : Fin 2) rd, s.cyc.running = true → hubUp s hub = true → (vget s.cyc.hubImg hub {}).closed = false →
      does (.imageClose hub rd) s (fun t =>
        (vget t.cyc.hubImg hub {}).closed = true ∧ (vget t.cyc.hubImg hub {}).k = s.cyc.k + 1 ∧ t.cyc.k = s.cyc.k)) ∧
    (s.cyc.running = true → s.agree.mismatch = false → s.agree.lost = false →
      (∀ rep, s.cyc.agreedK ≠ some s.cyc.k → hubsClosed s ≠ [] → does (.inputAgreement rep) s (fun t => t.cyc.agreedK = some s.cyc.k)) ∧
      (s.cyc.agreedK = some s.cyc.k → s.cyc.endDone ≠ some s.cyc.k → runningStalls s = [] →
        does (.checkpointAgreement [] []) s (fun t => t.cyc.endDone = some s.cyc.k))) ∧
    (∀ (core : CoreIx) q rest st, (getRun s core).run = none → s.cyc.agreedK = some s.cyc.k → s.agree.mismatch = false →
      s.agree.lost = false → (getRun s core).queue = q :: rest → getStall? s q.stall = some st → st.state = .running →
      does (.activationStart core) s (fun t => (getRun t core).run = some q.stall ∧ (getRun t core).queue = rest)) ∧
    (s.cyc.running = true → imagesClosed s = true → s.cyc.endDone = some s.cyc.k → s.st.recoverDue = false → s.st.resetDue = none →
      does .crossingBoundary s (fun t => t.cyc.k = s.cyc.k + 1))

/-- A step runs the command at the front of the queue with the queue's rest. -/
def frontRuns : Prop := ∀ (s : State) (c : Instr) (rest : List Instr), step { s with pending := c :: rest } = exec c { s with pending := rest }

/-- Every command answers a next state. -/
def allAnswer : Prop := ∀ (c : Instr) (s : State), ∃ t, exec c s = .next t

/-- No command reads or writes the queue: the next state has the queue as it was, whatever the queue. -/
def queueKept : Prop := ∀ (c : Instr) (s t : State), exec c s = .next t → t.pending = s.pending

/-- After reset no stall is loaded, no context is open, no force stands, no trigger is armed, no session exists and no package is held; every output
is off and every permit withdrawn; every dictionary entry reads its default; no record is on its way; and no command waits. -/
def resetIs : Prop :=
  State.reset.sup.stalls = [] ∧ State.reset.sup.ctxs = [] ∧ State.reset.sup.forceDi = [] ∧ State.reset.sup.forceDo = [] ∧
    State.reset.sup.forceAi = [] ∧ State.reset.sup.triggers = [] ∧ State.reset.con.sessions = [] ∧ State.reset.upd.loft = [] ∧
    (∀ ch : Fin 32, (getDo State.reset ch).cmd = false ∧ (getDo State.reset ch).applied = false) ∧
    (∀ n : Fin 32, (getInst State.reset n).main = false ∧ (getInst State.reset n).release = false) ∧
    (∀ (e : Entry) (idx sub inst : Nat), gvx State.reset e idx sub inst = e.dfltAt sub) ∧
    (∀ h : Fin 2, (getHub State.reset h).inflight = []) ∧ State.reset.pending = []

/-- The number of the crossing moves on by one at a CROSSING_BOUNDARY and nowhere else; a start or a reset of the module sets it to 0. -/
def crossingNumber : Prop :=
  ∀ (c : Instr) (s t : State), exec c s = .next t →
    t.cyc.k = s.cyc.k ∨ (c = .crossingBoundary ∧ t.cyc.k = s.cyc.k + 1) ∨ t.cyc.k = 0

end Sys2Proof.Claims

open Sys2Proof Sys2Proof.Claims Sys2Proof.Machine Sys2Proof.Safe

/-- R58, R69, R53: the register forms of 03 Table 03-5. -/
def Obligations.IntegerRegisterInstructions : Prop :=
  regRule .add (fun a b _ => a + b) ∧ regRule .sub (fun a b _ => a - b) ∧ regRule .and (fun a b _ => a &&& b) ∧
  regRule .or (fun a b _ => a ||| b) ∧ regRule .xor (fun a b _ => a ^^^ b) ∧
  regRule .sll (fun a b _ => a <<< b.setWidth 6) ∧ regRule .srl (fun a b _ => a >>> b.setWidth 6) ∧
  regRule .sra (fun a b _ => a.sshiftRight (b.toNat % 64)) ∧
  regRule .slt (fun a b _ => flag (a.toInt < b.toInt)) ∧ regRule .sltu (fun a b _ => flag (a.toNat < b.toNat)) ∧
  regRule .mul (fun a b _ => a * b) ∧
  regRule .mulh (fun a b _ => (a.signExtend 128 * b.signExtend 128).extractLsb' 64 64) ∧
  regRule .mulhu (fun a b _ => (a.zeroExtend 128 * b.zeroExtend 128).extractLsb' 64 64) ∧
  regRule .min (fun a b _ => if a.toInt < b.toInt then a else b) ∧
  regRule .max (fun a b _ => if a.toInt < b.toInt then b else a) ∧
  regRule .minu (fun a b _ => if a.toNat < b.toNat then a else b) ∧
  regRule .maxu (fun a b _ => if a.toNat < b.toNat then b else a) ∧
  regRule .movnz (fun a b d => if b ≠ 0 then a else d) ∧ regRule .movz (fun a b d => if b = 0 then a else d) ∧
  unaryRule .clz (fun a => BitVec.ofNat 64 (leadingZeros a)) ∧ unaryRule .ctz (fun a => BitVec.ofNat 64 (trailingZeros a)) ∧
  unaryRule .popc (fun a => BitVec.ofNat 64 (onesOf a)) ∧ unaryRule .bswap bytesReversed

/-- R58: the immediate forms of 03 Table 03-6. -/
def Obligations.ImmediateInstructions : Prop :=
  immRule .addi (fun a v => a + v.signExtend 64) ∧ immRule .andi (fun a v => a &&& v.zeroExtend 64) ∧
  immRule .ori (fun a v => a ||| v.zeroExtend 64) ∧ immRule .xori (fun a v => a ^^^ v.zeroExtend 64) ∧
  immRule .slti (fun a v => flag (a.toInt < v.toInt)) ∧
  immRule .sltiu (fun a v => flag (a.toNat < (v.signExtend 64).toNat)) ∧
  immRule .slli (fun a v => a <<< v) ∧ immRule .srli (fun a v => a >>> v) ∧
  immRule .srai (fun a v => a.sshiftRight v.toNat) ∧ luiRule ∧
  immRule .shori (fun a v => (a <<< 16) ||| v.zeroExtend 64)

/-- R69: division, and its fault. -/
def Obligations.DivisionInstructions : Prop :=
  divRule .div (fun a b => BitVec.ofInt 64 (a.toInt.tdiv b.toInt)) ∧
  divRule .divu (fun a b => BitVec.ofNat 64 (a.toNat / b.toNat)) ∧
  divRule .rem (fun a b => BitVec.ofInt 64 (a.toInt - b.toInt * a.toInt.tdiv b.toInt)) ∧
  divRule .remu (fun a b => BitVec.ofNat 64 (a.toNat - b.toNat * (a.toNat / b.toNat)))

/-- R68: control transfer. -/
def Obligations.ControlTransfer : Prop :=
  branchRule .beq (fun a b => decide (a = b)) ∧ branchRule .bne (fun a b => decide (a ≠ b)) ∧
  branchRule .blt (fun a b => decide (a.toInt < b.toInt)) ∧ branchRule .bge (fun a b => decide (b.toInt ≤ a.toInt)) ∧
  branchRule .bltu (fun a b => decide (a.toNat < b.toNat)) ∧ branchRule .bgeu (fun a b => decide (b.toNat ≤ a.toNat)) ∧
  jmpRule ∧ callRule ∧ jalrRule ∧ (∀ rd ra rb, fetchRule (fun c => .add c rd ra rb)) ∧
  (∀ rd ra imm, fetchRule (fun c => .ldD c rd ra imm)) ∧ (∀ ra rb off, fetchRule (fun c => .beq c ra rb off)) ∧
  fetchRule .bcopy ∧ fetchRule .svcYield

/-- R66, R49: loads. -/
def Obligations.Loads : Prop :=
  loadRule .ldB 1 (fun x => (BitVec.ofNat 8 x).signExtend 64) ∧ loadRule .ldBu 1 (fun x => BitVec.ofNat 64 x) ∧
  loadRule .ldH 2 (fun x => (BitVec.ofNat 16 x).signExtend 64) ∧ loadRule .ldHu 2 (fun x => BitVec.ofNat 64 x) ∧
  loadRule .ldW 4 (fun x => (BitVec.ofNat 32 x).signExtend 64) ∧ loadRule .ldWu 4 (fun x => BitVec.ofNat 64 x) ∧
  loadRule .ldD 8 (fun x => BitVec.ofNat 64 x) ∧
  dictLoadRule .ldB 1 (fun x => (BitVec.ofNat 8 x).signExtend 64) ∧ dictLoadRule .ldBu 1 (fun x => BitVec.ofNat 64 x) ∧
  dictLoadRule .ldH 2 (fun x => (BitVec.ofNat 16 x).signExtend 64) ∧ dictLoadRule .ldHu 2 (fun x => BitVec.ofNat 64 x) ∧
  dictLoadRule .ldW 4 (fun x => (BitVec.ofNat 32 x).signExtend 64) ∧ dictLoadRule .ldWu 4 (fun x => BitVec.ofNat 64 x) ∧
  dictLoadRule .ldD 8 (fun x => BitVec.ofNat 64 x)

/-- R66, R50: stores and their frame. -/
def Obligations.Stores : Prop :=
  storeRule .stB 1 ∧ storeRule .stH 2 ∧ storeRule .stW 4 ∧ storeRule .stD 8 ∧
  dictStoreRule .stB 1 ∧ dictStoreRule .stH 2 ∧ dictStoreRule .stW 4 ∧ dictStoreRule .stD 8

/-- R70 to R74: binary64. The values of the arithmetic are the model's exact functions; their rounding is stated in `Obligations.CanonicalNaN` and the tests. -/
def Obligations.BinaryFloat : Prop :=
  (∀ ra rb, fpRule (fun c d => .fadd c d ra rb) (fun x _ => fpAdd (rget x ra) (rget x rb))) ∧
  (∀ ra rb, fpRule (fun c d => .fsub c d ra rb) (fun x _ => fpAdd (rget x ra) (rget x rb ^^^ 0x8000000000000000))) ∧
  (∀ ra rb, fpRule (fun c d => .fmul c d ra rb) (fun x _ => fpMul (rget x ra) (rget x rb))) ∧
  (∀ ra rb, fpRule (fun c d => .fdiv c d ra rb) (fun x _ => fpDiv (rget x ra) (rget x rb))) ∧
  (∀ ra, fpRule (fun c d => .fsqrt c d ra) (fun x _ => fpSqrt (rget x ra))) ∧
  (∀ ra rb, fpRule (fun c d => .fmadd c d ra rb) (fun x d => fpFma (rget x ra) (rget x rb) (rget x d))) ∧
  (∀ ra rb, fpRule (fun c d => .fmsub c d ra rb)
    (fun x d => fpFma (rget x ra) (rget x rb) (rget x d ^^^ 0x8000000000000000))) ∧
  (∀ ra rb, fpRule (fun c d => .fmin c d ra rb) (fun x _ => fpMinMax false (rget x ra) (rget x rb))) ∧
  (∀ ra rb, fpRule (fun c d => .fmax c d ra rb) (fun x _ => fpMinMax true (rget x ra) (rget x rb))) ∧
  (∀ ra rb, fpRule (fun c d => .feq c d ra rb) (fun x _ => asWord (fpEq (rget x ra) (rget x rb)))) ∧
  (∀ ra rb, fpRule (fun c d => .flt c d ra rb) (fun x _ => asWord (fpLt (rget x ra) (rget x rb)))) ∧
  (∀ ra rb, fpRule (fun c d => .fle c d ra rb) (fun x _ => asWord (fpLe (rget x ra) (rget x rb)))) ∧
  (∀ ra, fpRule (fun c d => .fneg c d ra) (fun x _ => (rget x ra ^^^ 0x8000000000000000, 0))) ∧
  (∀ ra, fpRule (fun c d => .fabs c d ra) (fun x _ => (rget x ra &&& 0x7FFFFFFFFFFFFFFF, 0))) ∧
  (∀ ra rb, fpRule (fun c d => .fcpys c d ra rb)
    (fun x _ => ((rget x ra &&& 0x7FFFFFFFFFFFFFFF) ||| (rget x rb &&& 0x8000000000000000), 0))) ∧
  (∀ ra, fpRule (fun c d => .itof c d ra) (fun x _ => fpOfI (rget x ra))) ∧
  (∀ ra, fpRule (fun c d => .utof c d ra) (fun x _ => fpOfU (rget x ra))) ∧
  (∀ ra, fpRule (fun c d => .ftoi c d ra) (fun x _ => fpToI (rget x ra))) ∧
  (∀ ra, fpRule (fun c d => .ftou c d ra) (fun x _ => fpToU (rget x ra))) ∧
  (∀ ra, fpRule (fun c d => .fint c d ra) (fun x _ => fpRint true (rget x ra))) ∧
  (∀ ra, fpRule (fun c d => .ftrunc c d ra) (fun x _ => fpRint false (rget x ra)))

/-- R71: the canonical quiet NaN. -/
def Obligations.CanonicalNaN : Prop :=
  (∀ a b, isNaN (fpOf (fpAdd a b).1) = true → (fpAdd a b).1 = 0x7FF8000000000000) ∧
  (∀ a b, isNaN (fpOf (fpSub a b).1) = true → (fpSub a b).1 = 0x7FF8000000000000) ∧
  (∀ a b, isNaN (fpOf (fpMul a b).1) = true → (fpMul a b).1 = 0x7FF8000000000000) ∧
  (∀ a b, isNaN (fpOf (fpDiv a b).1) = true → (fpDiv a b).1 = 0x7FF8000000000000) ∧
  (∀ a, isNaN (fpOf (fpSqrt a).1) = true → (fpSqrt a).1 = 0x7FF8000000000000) ∧
  (∀ a b c, isNaN (fpOf (fpFma a b c).1) = true → (fpFma a b c).1 = 0x7FF8000000000000) ∧
  (∀ m a b, isNaN (fpOf (fpMinMax m a b).1) = true → (fpMinMax m a b).1 = 0x7FF8000000000000) ∧
  (∀ n a, isNaN (fpOf (fpRint n a).1) = true → (fpRint n a).1 = 0x7FF8000000000000) ∧
  (∀ a, isNaN (fpOf (fpOfI a).1) = false) ∧ ∀ a, isNaN (fpOf (fpOfU a).1) = false

/-- R55, R58, R65. -/
def Obligations.StatusWordAndFuel : Prop := rdswRule ∧ wrswRule ∧ rdfuelRule ∧ pauseRule

/-- R57, R87, R88, R113: exception entry and return. -/
def Obligations.ExceptionEntryAndReturn : Prop := brkRule ∧ illegalRule ∧ eretRule

/-- R76 to R82, R63: block instructions, with a fault and a fuel stop. -/
def Obligations.BlockInstructions : Prop :=
  bcopyRule ∧ bfillRule ∧ bcrcRule ∧ bcmpRule ∧ bfillFaultRule ∧ fuelStopRule

/-- R83 to R86: supervisor calls other than SVC_SEND. -/
def Obligations.SupervisorCalls : Prop :=
  postedRule .svcTrigArm 8 (some 3) (fun x => some ((rget x 1).toNat, 32))
    (fun x => trigReqOk (mread x.mem (rget x 1).toNat 32)) (fun x => .trigArm (mread x.mem (rget x 1).toNat 32)) ∧
  postedRule .svcTrigCancel 4 (some 3) (fun _ => none) (fun _ => true) (fun x => .trigCancel (rget x 1).toNat) ∧
  postedRule .svcEvent 8 none (fun x => some ((rget x 3).toNat, 36))
    (fun x => decide (0x8000 ≤ (rget x 1).toNat ∧ (rget x 1).toNat ≤ 0xFFFF ∧ (rget x 2).toNat ≤ 2))
    (fun x => .event (rget x 1).toNat (rget x 2).toNat (mgets x.mem (rget x 3).toNat 36)) ∧
  postedRule .svcSafetyReqStart 4 (some 4) (fun _ => none)
    (fun x => decide ((rget x 1).toNat < 32 ∧ ((rget x 2).toNat = 1 ∨ (rget x 2).toNat = 2)))
    (fun x => .safety (rget x 1).toNat (decide ((rget x 2).toNat = 2))) ∧
  postedRule .svcSafetyReqReset 4 (some 4) (fun _ => none)
    (fun x => decide ((rget x 1).toNat < 32 ∧ ((rget x 2).toNat = 1 ∨ (rget x 2).toNat = 2)))
    (fun x => .safety (rget x 1).toNat (decide ((rget x 2).toNat = 2))) ∧
  yieldRule ∧ svcFaultRule ∧ svcUnassignedRule

/-- R134: SVC_SEND. -/
def Obligations.OutboxSends : Prop :=
  sendRule .sendBackboneTelegram 1 5 ∧ sendRule .sendStallDataTelegram 2 6 ∧ sendRule .bridgeWrite 3 7 ∧
  sendRule .bridgeRead 3 7 ∧ sendRule .bridgeLock 3 7 ∧ sendRule .bridgeUnlock 3 7 ∧
  sendRule .sendFieldOutputCommand 4 8 ∧
  sendRightRule .sendBackboneTelegram 1 5 ∧ sendRightRule .sendStallDataTelegram 2 6 ∧ sendRightRule .bridgeWrite 3 7 ∧
  sendRightRule .sendFieldOutputCommand 4 8


/-- 05 R120, R121, R125, 06 R161, R162. -/
def Obligations.CrossingInputs : Prop := fieldSampleRule ∧ imageCloseRule ∧ inputAgreementRule

/-- 05 R122, R136, R139, 06 R173, R174, 21 R511. -/
def Obligations.CrossingExecution : Prop := activationStartRule ∧ checkpointRule ∧ boundaryRule

/-- 05 R123, 06 R155 to R158, R175 to R180, 20 R497. -/
def Obligations.LaneSet : Prop :=
  timingLagRule ∧ laneErrorRule ∧ rollbackRule ∧ restableCmdRule ∧ laneResetRule ∧ laneResetDoneRule ∧ bulkDoneRule ∧
    restableLimitRule ∧ restableRetryRule

/-- 06 R165 to R169. -/
def Obligations.EgressVoters : Prop := copyRule ∧ windowCloseRule ∧ deadlineRule ∧ holdLimitRule

/-- 01 R12, R13, 06 Table 06-2. -/
def Obligations.InternalLinks : Prop := transferRule ∧ linkFailRule ∧ linkRestoredRule

/-- 01 R16, 08 R219, 20 R485, R497, R498. -/
def Obligations.LaneAndFieldRestarts : Prop :=
  laneWatchdogRule ∧ fieldRestartRule ∧ fieldTripRule ∧ dieResetRule ∧ closeMarkerRule

/-- 08 R219, 20 R483, R485, R495, R496. -/
def Obligations.HubRestarts : Prop := hubWatchdogRule ∧ hubRestartRule ∧ hubRejoinRule ∧ hubAloneRule

/-- 20 R484 to R494. -/
def Obligations.ModuleStart : Prop := moduleStartRule ∧ resetCmdRule ∧ recoveryPwdRule ∧ recoverRule ∧ ledRule

/-- 17 R421, R425, 20 R483, R499, 22 R517 to R521. -/
def Obligations.Supply : Prop := supplyGoodRule ∧ powerFailRule ∧ holdupRule

/-- 02 R29 to R47, 18 R460, 20 R500, 23 R534. -/
def Obligations.DictionaryWrites : Prop := dictWriteRule ∧ selectRule ∧ lockBitsRule ∧ lockAtStartRule

/-- 02 R40 to R43, 18 R467. -/
def Obligations.DapArrival : Prop :=
  dapRule .dapRead 1 ∧ dapRule .dapWrite 2 ∧ dapRule .dapLogin 3 ∧ dapRule .dapLogout 4 ∧ dapRule .dapDescribe 5

/-- 05 R145, R147, 21 R507. -/
def Obligations.Forces : Prop :=
  forceRule .diForce E.diForce 0x40F0 1 (fun _ _ v => v - 1) ∧ forceRule .doForce E.doForce 0x41F0 2 (fun _ _ v => v - 1) ∧
    forceRule .aiForce E.aiForce 0x43F0 3 (fun s ch _ => gvi s E.aiForceValue ch) ∧ forceEndRule

/-- 04 R103 to R111, 05 R138. -/
def Obligations.StallLifeCycle : Prop := stallLoadRule ∧ loadCopyRule ∧ stallReplaceRule ∧ stallCmdRule ∧ unloadRule

/-- 05 R131, R138, R142, R143, R149. -/
def Obligations.HoldAndModes : Prop := holdRule ∧ imapRule ∧ modeRule ∧ retainRule

/-- 07 R190, R192, R193, 14 R372. -/
def Obligations.TimeAndTacho : Prop := oscRule ∧ hubDiffRule ∧ tachoRule

/-- 07 R199, R207, 08 R211, R219, R224. -/
def Obligations.DatumsAndEnergy : Prop := datumSetRule ∧ trigCancelRule ∧ supplyModeRule ∧ shedStopRule ∧ overrunRule

/-- 09 R229, R230, R233, R234. -/
def Obligations.BackboneLinks : Prop := markerRule ∧ linkStateRule ∧ relayRule ∧ bellSendRule

/-- 09 R241 to R256. -/
def Obligations.BackboneTelegrams : Prop := slotTransmitRule ∧ frameRule ∧ systemTelegramRule ∧ planRule

/-- 07 R187, 09 R235, 10 R265, R271 to R273. -/
def Obligations.BellsAndDelays : Prop := bellRule ∧ coldBellRule ∧ bellLossRule ∧ delayRule

/-- 10 R266 to R269, R279, R281. -/
def Obligations.ChainsAndRosters : Prop := rosterRule ∧ chainOriginateRule ∧ chainRule ∧ edgeRule

/-- 10 R272 to R276, R283, R284. -/
def Obligations.ClaimsAndContention : Prop := listenRule ∧ claimRule ∧ absenceRule

/-- 11 R287 to R290, R307, R308. -/
def Obligations.ConsistPorts : Prop :=
  portFrameRule ∧ macAgeingRule ∧ endpointRule ∧ portLinkRule ∧ trdpRule

/-- 11 R291, R297 to R300. -/
def Obligations.Handshakes : Prop := helloRule ∧ finishRule ∧ handshakeEndRule

/-- 11 R292, R294 to R296, R299, R301 to R306. -/
def Obligations.SessionRecords : Prop :=
  windowRule ∧ recRefusedRule ∧ recRule ∧ rekeyRule ∧ ownRekeyRule ∧ sessEndRule ∧ sessListRule

/-- 12 R312 to R329. -/
def Obligations.MooringLease : Prop :=
  twinHelloRule ∧ keepaliveRule ∧ renewSendRule ∧ leaseMessageRule ∧ twinDiscardRule ∧ leaseTimeRule ∧ foreignRule

/-- 12 R316, R321, R331 to R337. -/
def Obligations.Mirroring : Prop := mirrorRule ∧ catchupRule ∧ twinEntryRule

/-- 13 R340 to R351. -/
def Obligations.BridgeTraffic : Prop :=
  mvbPortRule ∧ mvbMessageRule ∧ canFrameRule ∧ serRule ∧ transmitRule ∧ mvbMasterRule

/-- 13 R342, R343, R351, R353, R354. -/
def Obligations.BridgeStates : Prop := interfaceRule ∧ bridgeEndRule

/-- 14 R357 to R371, 07 R204. -/
def Obligations.FieldIo : Prop :=
  diRule ∧ diFaultRule ∧ configRule ∧ commandRule ∧ holdSafeRule ∧ silentRule ∧ timedRule ∧ overloadRule ∧ readbackRule ∧ openLoadRule

/-- 15 R376 to R399, R540. -/
def Obligations.SafetyEvaluators : Prop := cycleRule ∧ evaluatorTimeRule ∧ outputTestRule ∧ safSetRule

/-- 16 R403 to R412. -/
def Obligations.AnalogInputs : Prop := aiOutputRule ∧ aiLossRule

/-- 17 R417 to R434, 18 R466, R467. -/
def Obligations.Recorder : Prop :=
  recordRule ∧ suppressionRule ∧ secondRule ∧ freezeRule ∧ passwordRule ∧ clearReadRule

/-- 17 R435 to R440. -/
def Obligations.Yards : Prop := storageRule ∧ migrationRule ∧ yardStateRule

/-- 18 R444 to R460. -/
def Obligations.Loft : Prop := chunkRule ∧ loftTransferRule ∧ armRule ∧ settingsRule

/-- 18 R463 to R465, 19 R472 to R477. -/
def Obligations.TackRoomAndCounters : Prop := tackRule ∧ perfRule

/-- 03 R65. -/
def Obligations.PauseUnseen : Prop := pauseUnseen

/-- 21 R510. -/
def Obligations.ArbiterRefusals : Prop := arbiterCounts

/-- 02 R28 to R47. -/
def Obligations.RefusedWrites : Prop := refusalKeeps

/-- The queue of waiting commands is the model's own (log 2). -/
def Obligations.StepRunsFront : Prop := frontRuns

/-- The model's choice (log 2): on an empty queue the block idles. -/
def Obligations.EmptyQueueIdles : Prop := ∀ s : State, s.pending = [] → step s = .next s

/-- 20 R483, R499. -/
def Obligations.ResetState : Prop := resetIs

/-- The model's reading (log 3). -/
def Obligations.EveryCommandAnswers : Prop := allAnswer

/-- The queue of waiting commands is the model's own (log 2). -/
def Obligations.QueueUntouched : Prop := queueKept

/-- 05 R142. -/
def Obligations.ResetModeNamed : Prop := modesNamed State.reset

/-- 05 R142, over every command. -/
def Obligations.ModesStayNamed : Prop := ∀ s t : State, modesNamed s → step s = .next t → modesNamed t

/-- 05 R119, 20 R489, over every command. -/
def Obligations.CrossingNumber : Prop := crossingNumber

/-- The block instructions and the commands of a crossing complete. -/
def Obligations.CrossingCompletions : Prop := blockCompletes ∧ crossingCompletes
end

