-- ==== Sys2Proof/Laws/Keys.lean ====
section
/-!
SUPPORT. What the modes, the queue of commands and the crossing's number owe to each operation: almost every one leaves them as they
are, said once for each.
-/

namespace Sys2Proof.Machine
open Sys2Proof.Safe

theorem keyView_foldl {α : Type} (f : State → α → State) (h : ∀ s a, keyView (f s a) = keyView s) (l : List α) (s : State) :
    keyView (l.foldl f s) = keyView s := by
  induction l generalizing s with
  | nil => rfl
  | cons a l ih => rw [List.foldl_cons, ih, h]
@[simp] theorem keyView_ite (c : Prop) [Decidable c] (a b : State) :
    keyView (if c then a else b) = if c then keyView a else keyView b := by split <;> rfl
theorem keyView_foldl2 {α β : Type} (f : β × State → α → β × State) (h : ∀ a x, keyView (f a x).2 = keyView a.2) (l : List α)
    (a : β × State) : keyView (l.foldl f a).2 = keyView a.2 := by
  induction l generalizing a with
  | nil => rfl
  | cons x l ih => rw [List.foldl_cons, ih, h]
theorem keyView_foldl3 {α β γ : Type} (f : β × γ × State → α → β × γ × State) (h : ∀ a x, keyView (f a x).2.2 = keyView a.2.2)
    (l : List α) (a : β × γ × State) : keyView (l.foldl f a).2.2 = keyView a.2.2 := by
  induction l generalizing a with
  | nil => rfl
  | cons x l ih => rw [List.foldl_cons, ih, h]
theorem keyView_posted (s : State) (ps : List Posted) : keyView { s with sup.posted := ps } = keyView s := rfl
def Keeps (h : Handler) : Prop := (∀ s w, keyView (h.eff s w) = keyView s) ∧ ∀ s w c, keyView (h.refused s w c) = keyView s
@[simp] theorem keyView_mk (x : State) (v_lanes : Vector Lane 3) (v_agree : Agree) (v_ilinks : Vector ILink 34) (v_hubs : Vector HubDie 2) (v_hubDiff : Int) (v_hubDiffRun : Nat) (v_hubDiffDone : Bool) (v_recd : Recorder) (v_supply : Supply) (v_shedHub : Vector ShedHub 12) (v_bb : Backbone) (v_con : Consist) (v_twin : Twin) (v_br : Bridge) (v_field : Field) (v_tacho : Vector Tacho 4) (v_saf : Safety) (v_upd : Update) (v_perf : Perf) (v_st : Startup) (v_cnt : NMap Nat) (v_egress : List Egress) :
    keyView (State.mk x.sup x.agreed x.cyc v_lanes v_agree v_ilinks v_hubs v_hubDiff v_hubDiffRun v_hubDiffDone v_recd v_supply v_shedHub v_bb v_con v_twin v_br v_field v_tacho v_saf v_upd v_perf v_st v_cnt v_egress x.pending) = keyView x := rfl
@[simp] theorem keyView_mk_sup (x : State) (w_dict : NMap Nat) (w_stalls : NMap Stall) (w_ctxs : NMap Context) (w_reqs : List Request) (w_resps : List Resp) (w_adopted : NMap Adopted) (w_samples : Vector Sample 2) (w_di : Vector DiView 64) (w_posted : List Posted) (w_outs : List OutItem) (w_outsPrev : List OutItem) (w_forceDi : NMap Force) (w_forceDo : NMap Force) (w_forceAi : NMap Force) (w_doLast : NMap DoCmd) (w_cmdSeq : Nat) (w_safReqs : List (Nat × Bool)) (w_timedDo : List TimedDo) (w_withdraw : List Nat) (w_retainSeq : NMap Nat) (w_tp : TimePos) (w_triggers : NMap Trigger) (w_trigGen : NMap Nat) (w_en : Energy) (w_groups : NMap SemGroup) (w_chg : NMap Chg) (w_chgCount : Nat) (w_arbArm : Bool) (w_arbTack : Bool) (w_seqs : NMap Nat) (w_buckets : NMap Bucket) (v_lanes : Vector Lane 3) (v_agree : Agree) (v_ilinks : Vector ILink 34) (v_hubs : Vector HubDie 2) (v_hubDiff : Int) (v_hubDiffRun : Nat) (v_hubDiffDone : Bool) (v_recd : Recorder) (v_supply : Supply) (v_shedHub : Vector ShedHub 12) (v_bb : Backbone) (v_con : Consist) (v_twin : Twin) (v_br : Bridge) (v_field : Field) (v_tacho : Vector Tacho 4) (v_saf : Safety) (v_upd : Update) (v_perf : Perf) (v_st : Startup) (v_cnt : NMap Nat) (v_egress : List Egress) :
    keyView (State.mk (Sup.mk w_dict w_stalls w_ctxs w_reqs w_resps x.sup.mode x.sup.modePending w_adopted w_samples w_di w_posted w_outs w_outsPrev w_forceDi w_forceDo w_forceAi w_doLast w_cmdSeq w_safReqs w_timedDo w_withdraw w_retainSeq w_tp w_triggers w_trigGen w_en w_groups w_chg w_chgCount w_arbArm w_arbTack w_seqs w_buckets) x.agreed x.cyc v_lanes v_agree v_ilinks v_hubs v_hubDiff v_hubDiffRun v_hubDiffDone v_recd v_supply v_shedHub v_bb v_con v_twin v_br v_field v_tacho v_saf v_upd v_perf v_st v_cnt v_egress x.pending) = keyView x := rfl
@[simp] theorem keyView_mk_agreed (x : State) (w_dict : NMap Nat) (w_stalls : NMap Stall) (w_ctxs : NMap Context) (w_reqs : List Request) (w_resps : List Resp) (w_adopted : NMap Adopted) (w_samples : Vector Sample 2) (w_di : Vector DiView 64) (w_posted : List Posted) (w_outs : List OutItem) (w_outsPrev : List OutItem) (w_forceDi : NMap Force) (w_forceDo : NMap Force) (w_forceAi : NMap Force) (w_doLast : NMap DoCmd) (w_cmdSeq : Nat) (w_safReqs : List (Nat × Bool)) (w_timedDo : List TimedDo) (w_withdraw : List Nat) (w_retainSeq : NMap Nat) (w_tp : TimePos) (w_triggers : NMap Trigger) (w_trigGen : NMap Nat) (w_en : Energy) (w_groups : NMap SemGroup) (w_chg : NMap Chg) (w_chgCount : Nat) (w_arbArm : Bool) (w_arbTack : Bool) (w_seqs : NMap Nat) (w_buckets : NMap Bucket) (v_lanes : Vector Lane 3) (v_agree : Agree) (v_ilinks : Vector ILink 34) (v_hubs : Vector HubDie 2) (v_hubDiff : Int) (v_hubDiffRun : Nat) (v_hubDiffDone : Bool) (v_recd : Recorder) (v_supply : Supply) (v_shedHub : Vector ShedHub 12) (v_bb : Backbone) (v_con : Consist) (v_twin : Twin) (v_br : Bridge) (v_field : Field) (v_tacho : Vector Tacho 4) (v_saf : Safety) (v_upd : Update) (v_perf : Perf) (v_st : Startup) (v_cnt : NMap Nat) (v_egress : List Egress) :
    keyView (State.mk x.sup (Sup.mk w_dict w_stalls w_ctxs w_reqs w_resps x.agreed.mode x.agreed.modePending w_adopted w_samples w_di w_posted w_outs w_outsPrev w_forceDi w_forceDo w_forceAi w_doLast w_cmdSeq w_safReqs w_timedDo w_withdraw w_retainSeq w_tp w_triggers w_trigGen w_en w_groups w_chg w_chgCount w_arbArm w_arbTack w_seqs w_buckets) x.cyc v_lanes v_agree v_ilinks v_hubs v_hubDiff v_hubDiffRun v_hubDiffDone v_recd v_supply v_shedHub v_bb v_con v_twin v_br v_field v_tacho v_saf v_upd v_perf v_st v_cnt v_egress x.pending) = keyView x := rfl
@[simp] theorem keyView_mk_cyc (x : State) (u_tk : Nat) (u_c : Nat) (u_running : Bool) (u_lagLanes : List Nat) (u_hubOpen : Vector (List Item) 2) (u_hubImg : Vector HubImage 2) (u_head : HeadVals) (u_discards : Vector Nat 2) (u_skipFrom : Option Nat) (u_lastStep : Int) (u_runs : Vector CoreRun 16) (v_lanes : Vector Lane 3) (v_agree : Agree) (v_ilinks : Vector ILink 34) (v_hubs : Vector HubDie 2) (v_hubDiff : Int) (v_hubDiffRun : Nat) (v_hubDiffDone : Bool) (v_recd : Recorder) (v_supply : Supply) (v_shedHub : Vector ShedHub 12) (v_bb : Backbone) (v_con : Consist) (v_twin : Twin) (v_br : Bridge) (v_field : Field) (v_tacho : Vector Tacho 4) (v_saf : Safety) (v_upd : Update) (v_perf : Perf) (v_st : Startup) (v_cnt : NMap Nat) (v_egress : List Egress) :
    keyView (State.mk x.sup x.agreed (Cycle.mk x.cyc.k u_tk u_c u_running u_lagLanes u_hubOpen u_hubImg u_head x.cyc.agreedK x.cyc.endDone u_discards u_skipFrom u_lastStep u_runs) v_lanes v_agree v_ilinks v_hubs v_hubDiff v_hubDiffRun v_hubDiffDone v_recd v_supply v_shedHub v_bb v_con v_twin v_br v_field v_tacho v_saf v_upd v_perf v_st v_cnt v_egress x.pending) = keyView x := rfl
@[simp] theorem keyView_mk_sup_cyc (x : State) (w_dict : NMap Nat) (w_stalls : NMap Stall) (w_ctxs : NMap Context) (w_reqs : List Request) (w_resps : List Resp) (w_adopted : NMap Adopted) (w_samples : Vector Sample 2) (w_di : Vector DiView 64) (w_posted : List Posted) (w_outs : List OutItem) (w_outsPrev : List OutItem) (w_forceDi : NMap Force) (w_forceDo : NMap Force) (w_forceAi : NMap Force) (w_doLast : NMap DoCmd) (w_cmdSeq : Nat) (w_safReqs : List (Nat × Bool)) (w_timedDo : List TimedDo) (w_withdraw : List Nat) (w_retainSeq : NMap Nat) (w_tp : TimePos) (w_triggers : NMap Trigger) (w_trigGen : NMap Nat) (w_en : Energy) (w_groups : NMap SemGroup) (w_chg : NMap Chg) (w_chgCount : Nat) (w_arbArm : Bool) (w_arbTack : Bool) (w_seqs : NMap Nat) (w_buckets : NMap Bucket) (u_tk : Nat) (u_c : Nat) (u_running : Bool) (u_lagLanes : List Nat) (u_hubOpen : Vector (List Item) 2) (u_hubImg : Vector HubImage 2) (u_head : HeadVals) (u_discards : Vector Nat 2) (u_skipFrom : Option Nat) (u_lastStep : Int) (u_runs : Vector CoreRun 16) (v_lanes : Vector Lane 3) (v_agree : Agree) (v_ilinks : Vector ILink 34) (v_hubs : Vector HubDie 2) (v_hubDiff : Int) (v_hubDiffRun : Nat) (v_hubDiffDone : Bool) (v_recd : Recorder) (v_supply : Supply) (v_shedHub : Vector ShedHub 12) (v_bb : Backbone) (v_con : Consist) (v_twin : Twin) (v_br : Bridge) (v_field : Field) (v_tacho : Vector Tacho 4) (v_saf : Safety) (v_upd : Update) (v_perf : Perf) (v_st : Startup) (v_cnt : NMap Nat) (v_egress : List Egress) :
    keyView (State.mk (Sup.mk w_dict w_stalls w_ctxs w_reqs w_resps x.sup.mode x.sup.modePending w_adopted w_samples w_di w_posted w_outs w_outsPrev w_forceDi w_forceDo w_forceAi w_doLast w_cmdSeq w_safReqs w_timedDo w_withdraw w_retainSeq w_tp w_triggers w_trigGen w_en w_groups w_chg w_chgCount w_arbArm w_arbTack w_seqs w_buckets) x.agreed (Cycle.mk x.cyc.k u_tk u_c u_running u_lagLanes u_hubOpen u_hubImg u_head x.cyc.agreedK x.cyc.endDone u_discards u_skipFrom u_lastStep u_runs) v_lanes v_agree v_ilinks v_hubs v_hubDiff v_hubDiffRun v_hubDiffDone v_recd v_supply v_shedHub v_bb v_con v_twin v_br v_field v_tacho v_saf v_upd v_perf v_st v_cnt v_egress x.pending) = keyView x := rfl
@[simp] theorem freeNext_key (a0 : State) : keyView ((freeNext a0)) = keyView a0 := by
  first | (unfold freeNext; simp; done) | (unfold freeNext; simp only []; (repeat' (first | rfl | (simp; done) | split | (rw [keyView_foldl]; (try simp); (try intros)) | (simp; rw [keyView_foldl]; (try simp); (try intros)))))
@[simp] theorem svx_key (a0 : State) (a1 : Entry) (a2 : ℕ) (a3 : ℕ) (a4 : ℕ) (a5 : ℕ) : keyView ((svx a0 a1 a2 a3 a4 a5)) = keyView a0 := by
  first | (unfold svx; simp; done) | (unfold svx; simp only []; (repeat' (first | rfl | (simp; done) | split | (rw [keyView_foldl]; (try simp); (try intros)) | (simp; rw [keyView_foldl]; (try simp); (try intros)))))
@[simp] theorem svs_key (a0 : State) (a1 : Entry) (a2 : ℕ) (a3 : ℕ) (a4 : ℕ) : keyView ((svs a0 a1 a2 a3 a4)) = keyView a0 := by
  first | (unfold svs; simp; done) | (unfold svs; simp only []; (repeat' (first | rfl | (simp; done) | split | (rw [keyView_foldl]; (try simp); (try intros)) | (simp; rw [keyView_foldl]; (try simp); (try intros)))))
@[simp] theorem svi_key (a0 : State) (a1 : Entry) (a2 : ℕ) (a3 : ℕ) : keyView ((svi a0 a1 a2 a3)) = keyView a0 := by
  first | (unfold svi; simp; done) | (unfold svi; simp only []; (repeat' (first | rfl | (simp; done) | split | (rw [keyView_foldl]; (try simp); (try intros)) | (simp; rw [keyView_foldl]; (try simp); (try intros)))))
@[simp] theorem sv_key (a0 : State) (a1 : Entry) (a2 : ℕ) : keyView ((sv a0 a1 a2)) = keyView a0 := by
  first | (unfold sv; simp; done) | (unfold sv; simp only []; (repeat' (first | rfl | (simp; done) | split | (rw [keyView_foldl]; (try simp); (try intros)) | (simp; rw [keyView_foldl]; (try simp); (try intros)))))
@[simp] theorem bumpx_key (a0 : State) (a1 : Entry) (a2 : ℕ) (a3 : ℕ) (a4 : ℕ) (a5 : ℕ) : keyView ((bumpx a0 a1 a2 a3 a4 a5)) = keyView a0 := by
  first | (unfold bumpx; simp; done) | (unfold bumpx; simp only []; (repeat' (first | rfl | (simp; done) | split | (rw [keyView_foldl]; (try simp); (try intros)) | (simp; rw [keyView_foldl]; (try simp); (try intros)))))
@[simp] theorem bumps_key (a0 : State) (a1 : Entry) (a2 : ℕ) (a3 : ℕ) (a4 : ℕ) : keyView ((bumps a0 a1 a2 a3 a4)) = keyView a0 := by
  first | (unfold bumps; simp; done) | (unfold bumps; simp only []; (repeat' (first | rfl | (simp; done) | split | (rw [keyView_foldl]; (try simp); (try intros)) | (simp; rw [keyView_foldl]; (try simp); (try intros)))))
@[simp] theorem bumpi_key (a0 : State) (a1 : Entry) (a2 : ℕ) : keyView ((bumpi a0 a1 a2)) = keyView a0 := by
  first | (unfold bumpi; simp; done) | (unfold bumpi; simp only []; (repeat' (first | rfl | (simp; done) | split | (rw [keyView_foldl]; (try simp); (try intros)) | (simp; rw [keyView_foldl]; (try simp); (try intros)))))
@[simp] theorem bump_key (a0 : State) (a1 : Entry) : keyView ((bump a0 a1)) = keyView a0 := by
  first | (unfold bump; simp; done) | (unfold bump; simp only []; (repeat' (first | rfl | (simp; done) | split | (rw [keyView_foldl]; (try simp); (try intros)) | (simp; rw [keyView_foldl]; (try simp); (try intros)))))
@[simp] theorem blockCount_key (a0 : State) (a1 : ℕ) (a2 : ℕ) : keyView ((blockCount a0 a1 a2)) = keyView a0 := by
  first | (unfold blockCount; simp; done) | (unfold blockCount; simp only []; (repeat' (first | rfl | (simp; done) | split | (rw [keyView_foldl]; (try simp); (try intros)) | (simp; rw [keyView_foldl]; (try simp); (try intros)))))
@[simp] theorem updCtx_key (a0 : State) (a1 : ℕ) (a2 : Context → Context) : keyView ((updCtx a0 a1 a2)) = keyView a0 := by
  first | (unfold updCtx; simp; done) | (unfold updCtx; simp only []; (repeat' (first | rfl | (simp; done) | split | (rw [keyView_foldl]; (try simp); (try intros)) | (simp; rw [keyView_foldl]; (try simp); (try intros)))))
@[simp] theorem updStall_key (a0 : State) (a1 : ℕ) (a2 : Stall → Stall) : keyView ((updStall a0 a1 a2)) = keyView a0 := by
  first | (unfold updStall; simp; done) | (unfold updStall; simp only []; (repeat' (first | rfl | (simp; done) | split | (rw [keyView_foldl]; (try simp); (try intros)) | (simp; rw [keyView_foldl]; (try simp); (try intros)))))
@[simp] theorem setStall_key (a0 : State) (a1 : ℕ) (a2 : Stall) : keyView ((setStall a0 a1 a2)) = keyView a0 := by
  first | (unfold setStall; simp; done) | (unfold setStall; simp only []; (repeat' (first | rfl | (simp; done) | split | (rw [keyView_foldl]; (try simp); (try intros)) | (simp; rw [keyView_foldl]; (try simp); (try intros)))))
@[simp] theorem updLane_key (a0 : State) (a1 : ℕ) (a2 : Lane → Lane) : keyView ((updLane a0 a1 a2)) = keyView a0 := by
  first | (unfold updLane; simp; done) | (unfold updLane; simp only []; (repeat' (first | rfl | (simp; done) | split | (rw [keyView_foldl]; (try simp); (try intros)) | (simp; rw [keyView_foldl]; (try simp); (try intros)))))
@[simp] theorem updHub_key (a0 : State) (a1 : ℕ) (a2 : HubDie → HubDie) : keyView ((updHub a0 a1 a2)) = keyView a0 := by
  first | (unfold updHub; simp; done) | (unfold updHub; simp only []; (repeat' (first | rfl | (simp; done) | split | (rw [keyView_foldl]; (try simp); (try intros)) | (simp; rw [keyView_foldl]; (try simp); (try intros)))))
@[simp] theorem updVoter_key (a0 : State) (a1 : ℕ) (a2 : Voter → Voter) : keyView ((updVoter a0 a1 a2)) = keyView a0 := by
  first | (unfold updVoter; simp; done) | (unfold updVoter; simp only []; (repeat' (first | rfl | (simp; done) | split | (rw [keyView_foldl]; (try simp); (try intros)) | (simp; rw [keyView_foldl]; (try simp); (try intros)))))
@[simp] theorem updRun_key (a0 : State) (a1 : ℕ) (a2 : CoreRun → CoreRun) : keyView ((updRun a0 a1 a2)) = keyView a0 := by
  first | (unfold updRun; simp; done) | (unfold updRun; simp only []; (repeat' (first | rfl | (simp; done) | split | (rw [keyView_foldl]; (try simp); (try intros)) | (simp; rw [keyView_foldl]; (try simp); (try intros)))))
@[simp] theorem updShed_key (a0 : State) (a1 : ℕ) (a2 : Shed → Shed) : keyView ((updShed a0 a1 a2)) = keyView a0 := by
  first | (unfold updShed; simp; done) | (unfold updShed; simp only []; (repeat' (first | rfl | (simp; done) | split | (rw [keyView_foldl]; (try simp); (try intros)) | (simp; rw [keyView_foldl]; (try simp); (try intros)))))
@[simp] theorem send_key (a0 : State) (a1 : Egress) : keyView ((send a0 a1)) = keyView a0 := by
  first | (unfold send; simp; done) | (unfold send; simp only []; (repeat' (first | rfl | (simp; done) | split | (rw [keyView_foldl]; (try simp); (try intros)) | (simp; rw [keyView_foldl]; (try simp); (try intros)))))
@[simp] theorem deliver_key (a0 : State) (a1 : ℕ) (a2 : Record) : keyView ((deliver a0 a1 a2)) = keyView a0 := by
  first | (unfold deliver; simp; done) | (unfold deliver; simp only []; (repeat' (first | rfl | (simp; done) | split | (rw [keyView_foldl]; (try simp); (try intros)) | (simp; rw [keyView_foldl]; (try simp); (try intros)))))
@[simp] theorem emitJ_key (a0 : State) (a1 : ℕ) (a2 : ℕ) (a3 : ℕ) (a4 : ℕ) (a5 : ℕ) (a6 : List Byte) (a7 : ℕ) : keyView ((emitJ a0 a1 a2 a3 a4 a5 a6 a7).2) = keyView a0 := by
  first | (unfold emitJ; simp; done) | (unfold emitJ; simp only []; (repeat' (first | rfl | (simp; done) | split | (rw [keyView_foldl]; (try simp); (try intros)) | (simp; rw [keyView_foldl]; (try simp); (try intros)))))
@[simp] theorem emitL_key (a0 : State) (a1 : ℕ) (a2 : ℕ) (a3 : ℕ) (a4 : List Byte) (a5 : ℕ) : keyView ((emitL a0 a1 a2 a3 a4 a5)) = keyView a0 := by
  first | (unfold emitL; simp; done) | (unfold emitL; simp only []; (repeat' (first | rfl | (simp; done) | split | (rw [keyView_foldl]; (try simp); (try intros)) | (simp; rw [keyView_foldl]; (try simp); (try intros)))))
@[simp] theorem emitH_key (a0 : State) (a1 : ℕ) (a2 : ℕ) (a3 : ℕ) (a4 : ℕ) (a5 : ℕ) (a6 : List Byte) : keyView ((emitH a0 a1 a2 a3 a4 a5 a6)) = keyView a0 := by
  first | (unfold emitH; simp; done) | (unfold emitH; simp only []; (repeat' (first | rfl | (simp; done) | split | (rw [keyView_foldl]; (try simp); (try intros)) | (simp; rw [keyView_foldl]; (try simp); (try intros)))))
@[simp] theorem emitF_key (a0 : State) (a1 : ℕ) (a2 : ℕ) (a3 : ℕ) (a4 : ℕ) (a5 : List Byte) : keyView ((emitF a0 a1 a2 a3 a4 a5)) = keyView a0 := by
  first | (unfold emitF; simp; done) | (unfold emitF; simp only []; (repeat' (first | rfl | (simp; done) | split | (rw [keyView_foldl]; (try simp); (try intros)) | (simp; rw [keyView_foldl]; (try simp); (try intros)))))
@[simp] theorem flushKept_key (a0 : State) (a1 : ℕ) : keyView ((flushKept a0 a1)) = keyView a0 := by
  first | (unfold flushKept; simp; done) | (unfold flushKept; simp only []; (repeat' (first | rfl | (simp; done) | split | (rw [keyView_foldl]; (try simp); (try intros)) | (simp; rw [keyView_foldl]; (try simp); (try intros)))))
@[simp] theorem laneTx_key (a0 : State) (a1 : ℕ) : keyView ((laneTx a0 a1)) = keyView a0 := by
  first | (unfold laneTx; simp; done) | (unfold laneTx; simp only []; (repeat' (first | rfl | (simp; done) | split | (rw [keyView_foldl]; (try simp); (try intros)) | (simp; rw [keyView_foldl]; (try simp); (try intros)))))
@[simp] theorem pushResp_key (a0 : State) (a1 : Resp) : keyView ((pushResp a0 a1)) = keyView a0 := by
  first | (unfold pushResp; simp; done) | (unfold pushResp; simp only []; (repeat' (first | rfl | (simp; done) | split | (rw [keyView_foldl]; (try simp); (try intros)) | (simp; rw [keyView_foldl]; (try simp); (try intros))))) | (unfold pushResp; (repeat' (first | rfl | (simp; done) | split | (rw [keyView_foldl]; (try simp); (try intros)) | (simp; rw [keyView_foldl]; (try simp); (try intros)))))
@[simp] theorem respond_key (a0 : State) (a1 : Resp) : keyView ((respond a0 a1)) = keyView a0 := by
  first | (unfold respond; simp; done) | (unfold respond; simp only []; (repeat' (first | rfl | (simp; done) | split | (rw [keyView_foldl]; (try simp); (try intros)) | (simp; rw [keyView_foldl]; (try simp); (try intros)))))
@[simp] theorem noteRefusal_key (a0 : State) (a1 : ℕ) (a2 : ℕ) (a3 : ℕ) (a4 : ℕ) (a5 : ℕ) (a6 : Bool) : keyView ((noteRefusal a0 a1 a2 a3 a4 a5 a6)) = keyView a0 := by
  first | (unfold noteRefusal; simp; done) | (unfold noteRefusal; simp only []; (repeat' (first | rfl | (simp; done) | split | (rw [keyView_foldl]; (try simp); (try intros)) | (simp; rw [keyView_foldl]; (try simp); (try intros)))))
@[simp] theorem arbRefuse_key (a0 : State) (a1 : WReq) (a2 : ℕ) : keyView ((arbRefuse a0 a1 a2)) = keyView a0 := by
  first | (unfold arbRefuse; simp; done) | (unfold arbRefuse; simp only []; (repeat' (first | rfl | (simp; done) | split | (rw [keyView_foldl]; (try simp); (try intros)) | (simp; rw [keyView_foldl]; (try simp); (try intros)))))
@[simp] theorem answerW_key (a0 : State) (a1 : WReq) (a2 : ℕ) : keyView ((answerW a0 a1 a2)) = keyView a0 := by
  first | (unfold answerW; simp; done) | (unfold answerW; simp only []; (repeat' (first | rfl | (simp; done) | split | (rw [keyView_foldl]; (try simp); (try intros)) | (simp; rw [keyView_foldl]; (try simp); (try intros)))))
@[simp] theorem logWrite_key (a0 : State) (a1 : WReq) (a2 : Entry) : keyView ((logWrite a0 a1 a2)) = keyView a0 := by
  first | (unfold logWrite; simp; done) | (unfold logWrite; simp only []; (repeat' (first | rfl | (simp; done) | split | (rw [keyView_foldl]; (try simp); (try intros)) | (simp; rw [keyView_foldl]; (try simp); (try intros)))))
theorem applyW_key {h : Handler} (hk : Keeps h) (e : Entry) (s : State) (w : WReq) : keyView (applyW h e s w) = keyView s := by
  unfold applyW
  have h1 := hk.1; have h2 := hk.2
  dsimp only
  (repeat' split) <;> simp [h1, h2]
@[simp] theorem storeEff_key (a0 : Entry) (a1 : State) (a2 : WReq) : keyView ((storeEff a0 a1 a2)) = keyView a1 := by
  first | (unfold storeEff; simp; done) | (unfold storeEff; simp only []; (repeat' (first | rfl | (simp; done) | split | (rw [keyView_foldl]; (try simp); (try intros)) | (simp; rw [keyView_foldl]; (try simp); (try intros)))))
@[simp] theorem storeHandler_key (e : Entry) : Keeps (storeHandler e) := by
  constructor <;> intros <;> unfold storeHandler <;> (try simp [storeHandler]) <;> (repeat' (first | rfl | (simp; done) | split))
theorem writeCmd_key {h : Handler} (hk : Keeps h) (e : Entry) (a b c d : Nat) (s : State) : keyView (writeCmd h e a b c d s) = keyView s := by
  unfold writeCmd
  split
  · exact applyW_key hk ..
  · rfl
@[simp] theorem dapDiscard_key (a0 : State) (a1 : ℕ) : keyView ((dapDiscard a0 a1)) = keyView a0 := by
  first | (unfold dapDiscard; simp; done) | (unfold dapDiscard; simp only []; (repeat' (first | rfl | (simp; done) | split | (rw [keyView_foldl]; (try simp); (try intros)) | (simp; rw [keyView_foldl]; (try simp); (try intros))))) | (unfold dapDiscard; (repeat' (first | rfl | (simp; done) | split | (rw [keyView_foldl]; (try simp); (try intros)) | (simp; rw [keyView_foldl]; (try simp); (try intros)))))
@[simp] theorem dapArrive_key (a0 : State) (a1 : ℕ) (a2 : ℕ) (a3 : DapMsg) (a4 : Option ℕ) (a5 : ℕ) (a6 : ℕ) : keyView ((dapArrive a0 a1 a2 a3 a4 a5 a6)) = keyView a0 := by
  first | (unfold dapArrive; simp; done) | (unfold dapArrive; simp only []; (repeat' (first | rfl | (simp; done) | split | (rw [keyView_foldl]; (try simp); (try intros)) | (simp; rw [keyView_foldl]; (try simp); (try intros)))))
@[simp] theorem telegramSeq_take_key (a0 a1 : Nat) (a2 : State) (a3 : Nat) : keyView ((telegramSeq.take a0 a1 a2 a3).2) = keyView a2 := by
  first | (unfold telegramSeq.take; simp; done) | (unfold telegramSeq.take; simp only []; (repeat' (first | rfl | (simp; done) | split | (rw [keyView_foldl]; (try simp); (try intros)) | (simp; rw [keyView_foldl]; (try simp); (try intros)))))
@[simp] theorem telegramSeq_key (a0 : State) (a1 : ℕ) (a2 : ℕ) : keyView ((telegramSeq a0 a1 a2).2) = keyView a0 := by
  unfold telegramSeq
  split
  · split <;> rfl
  · rfl
  · rfl
@[simp] theorem pushOutOf_key (a0 : State) (a1 : ℕ) (a2 : OutItem) : keyView ((pushOutOf a0 a1 a2)) = keyView a0 := by
  first | (unfold pushOutOf; simp; done) | (unfold pushOutOf; simp only []; (repeat' (first | rfl | (simp; done) | split | (rw [keyView_foldl]; (try simp); (try intros)) | (simp; rw [keyView_foldl]; (try simp); (try intros))))) | (unfold pushOutOf; (repeat' (first | rfl | (simp; done) | split | (rw [keyView_foldl]; (try simp); (try intros)) | (simp; rw [keyView_foldl]; (try simp); (try intros)))))
@[simp] theorem pushOut_key (a0 : State) (a1 : OutItem) : keyView ((pushOut a0 a1)) = keyView a0 := by
  first | (unfold pushOut; simp; done) | (unfold pushOut; simp only []; (repeat' (first | rfl | (simp; done) | split | (rw [keyView_foldl]; (try simp); (try intros)) | (simp; rw [keyView_foldl]; (try simp); (try intros)))))
@[simp] theorem pushTelegram_key (a0 : State) (a1 : ℕ) (a2 : OutItem) (a3 : ℕ) : keyView ((pushTelegram a0 a1 a2 a3)) = keyView a0 := by
  first | (unfold pushTelegram; simp; done) | (unfold pushTelegram; simp only []; (repeat' (first | rfl | (simp; done) | split | (rw [keyView_foldl]; (try simp); (try intros)) | (simp; rw [keyView_foldl]; (try simp); (try intros)))))
@[simp] theorem acceptDo_key (a0 : State) (a1 : ℕ) (a2 : ℕ) (a3 : ℕ) (a4 : Bool) : keyView ((acceptDo a0 a1 a2 a3 a4)) = keyView a0 := by
  first | (unfold acceptDo; simp; done) | (unfold acceptDo; simp only []; (repeat' (first | rfl | (simp; done) | split | (rw [keyView_foldl]; (try simp); (try intros)) | (simp; rw [keyView_foldl]; (try simp); (try intros)))))
@[simp] theorem decidePosted_key (a0 : State) (a1 : ℕ) (a2 : ℕ) (a3 : ℕ) (a4 : Posted) : keyView ((decidePosted a0 a1 a2 a3 a4).2) = keyView a0 := by
  first | (unfold decidePosted; simp; done) | (unfold decidePosted; simp only []; (repeat' (first | rfl | (simp; done) | split | (rw [keyView_foldl]; (try simp); (try intros)) | (simp; rw [keyView_foldl]; (try simp); (try intros)))))
@[simp] theorem perfCount_key (a0 : State) (a1 : ℕ) (a2 : Option ℕ) (a3 : List (ℕ × ℕ)) : keyView ((perfCount a0 a1 a2 a3)) = keyView a0 := by
  first | (unfold perfCount; simp; done) | (unfold perfCount; simp only []; (repeat' (first | rfl | (simp; done) | split | (rw [keyView_foldl]; (try simp); (try intros)) | (simp; rw [keyView_foldl]; (try simp); (try intros)))))
@[simp] theorem perfTag_key (a0 : State) (a1 : ℕ) (a2 : ℕ) (a3 : ℕ) (a4 : ℕ) (a5 : ℕ × ℕ) (a6 : ℕ) : keyView ((perfTag a0 a1 a2 a3 a4 a5 a6)) = keyView a0 := by
  first | (unfold perfTag; simp; done) | (unfold perfTag; simp only []; (repeat' (first | rfl | (simp; done) | split | (rw [keyView_foldl]; (try simp); (try intros)) | (simp; rw [keyView_foldl]; (try simp); (try intros)))))
@[simp] theorem perfInsn_key (a0 : State) (a1 : ℕ) (a2 : ℕ) (a3 : List (ℕ × ℕ)) (a4 : Word) (a5 : ℕ × ℕ) (a6 : ℕ) : keyView ((perfInsn a0 a1 a2 a3 a4 a5 a6)) = keyView a0 := by
  first | (unfold perfInsn; simp; done) | (unfold perfInsn; simp only []; (repeat' (first | rfl | (simp; done) | split | (rw [keyView_foldl]; (try simp); (try intros)) | (simp; rw [keyView_foldl]; (try simp); (try intros)))))
@[simp] theorem postRequest_key (a0 : State) (a1 : ℕ) (a2 : ℕ) (a3 : PostedReq) : keyView ((postRequest a0 a1 a2 a3)) = keyView a0 := by
  first | (unfold postRequest; simp; done) | (unfold postRequest; simp only []; (repeat' (first | rfl | (simp; done) | split | (rw [keyView_foldl]; (try simp); (try intros)) | (simp; rw [keyView_foldl]; (try simp); (try intros)))))
@[simp] theorem updWin_key (a0 : State) (a1 : ℕ) (a2 : BWin → BWin) : keyView ((updWin a0 a1 a2)) = keyView a0 := by
  first | (unfold updWin; simp; done) | (unfold updWin; simp only []; (repeat' (first | rfl | (simp; done) | split | (rw [keyView_foldl]; (try simp); (try intros)) | (simp; rw [keyView_foldl]; (try simp); (try intros)))))
@[simp] theorem pushRec_key (a0 : State) (a1 : ℕ) (a2 : ℕ) (a3 : RecIn) : keyView ((pushRec a0 a1 a2 a3)) = keyView a0 := by
  first | (unfold pushRec; simp; done) | (unfold pushRec; simp only []; (repeat' (first | rfl | (simp; done) | split | (rw [keyView_foldl]; (try simp); (try intros)) | (simp; rw [keyView_foldl]; (try simp); (try intros)))))
@[simp] theorem soundQueue_key (a0 : State) (a1 : ℕ) (a2 : ℕ) : keyView ((soundQueue a0 a1 a2)) = keyView a0 := by
  first | (unfold soundQueue; simp; done) | (unfold soundQueue; simp only []; (repeat' (first | rfl | (simp; done) | split | (rw [keyView_foldl]; (try simp); (try intros)) | (simp; rw [keyView_foldl]; (try simp); (try intros)))))
@[simp] theorem enqueue_key (a0 : State) (a1 : ℕ) (a2 : ℕ) (a3 : RecIn) : keyView ((enqueue a0 a1 a2 a3)) = keyView a0 := by
  first | (unfold enqueue; simp; done) | (unfold enqueue; simp only []; (repeat' (first | rfl | (simp; done) | split | (rw [keyView_foldl]; (try simp); (try intros)) | (simp; rw [keyView_foldl]; (try simp); (try intros)))))
@[simp] theorem closeWord_key (a0 : State) (a1 : ℕ) (a2 : ℕ) (a3 : ℕ) : keyView ((closeWord a0 a1 a2 a3)) = keyView a0 := by
  first | (unfold closeWord; simp; done) | (unfold closeWord; simp only []; (repeat' (first | rfl | (simp; done) | split | (rw [keyView_foldl]; (try simp); (try intros)) | (simp; rw [keyView_foldl]; (try simp); (try intros)))))
@[simp] theorem notice_key (a0 : State) (a1 : ℕ) (a2 : ℕ) (a3 : ℕ) (a4 : ℕ) : keyView ((notice a0 a1 a2 a3 a4)) = keyView a0 := by
  first | (unfold notice; simp; done) | (unfold notice; simp only []; (repeat' (first | rfl | (simp; done) | split | (rw [keyView_foldl]; (try simp); (try intros)) | (simp; rw [keyView_foldl]; (try simp); (try intros)))))
@[simp] theorem bridgeOp_key (a0 : State) (a1 : ℕ) (a2 : OutItem) : keyView ((bridgeOp a0 a1 a2)) = keyView a0 := by
  first | (unfold bridgeOp; simp; done) | (unfold bridgeOp; simp only []; (repeat' (first | rfl | (simp; done) | split | (rw [keyView_foldl]; (try simp); (try intros)) | (simp; rw [keyView_foldl]; (try simp); (try intros)))))
@[simp] theorem cancelTriggers_key (a0 : State) (a1 : ℕ) : keyView ((cancelTriggers a0 a1)) = keyView a0 := by
  first | (unfold cancelTriggers; simp; done) | (unfold cancelTriggers; simp only []; (repeat' (first | rfl | (simp; done) | split | (rw [keyView_foldl]; (try simp); (try intros)) | (simp; rw [keyView_foldl]; (try simp); (try intros)))))
@[simp] theorem dropDecls_key (a0 : State) (a1 : List Decl) (a2 : List Decl) : keyView ((dropDecls a0 a1 a2)) = keyView a0 := by
  first | (unfold dropDecls; simp; done) | (unfold dropDecls; simp only []; (repeat' (first | rfl | (simp; done) | split | (rw [keyView_foldl]; (try simp); (try intros)) | (simp; rw [keyView_foldl]; (try simp); (try intros)))))
@[simp] theorem loadEff_key (a0 : State) (a1 : WReq) : keyView ((loadEff a0 a1)) = keyView a0 := by
  unfold loadEff
  dsimp only
  split
  · rfl
  · simp only [sv_key, svx_key, keyView_mk_sup, setStall_key]
@[simp] theorem hStallLoad_key : Keeps (hStallLoad ) := by
  constructor <;> intros <;> unfold hStallLoad <;> (try simp [storeHandler]) <;> (repeat' (first | rfl | (simp; done) | split))
@[simp] theorem replaceEff_key (a0 : State) (a1 : WReq) : keyView ((replaceEff a0 a1)) = keyView a0 := by
  first | (unfold replaceEff; simp; done) | (unfold replaceEff; simp only []; (repeat' (first | rfl | (simp; done) | split | (rw [keyView_foldl]; (try simp); (try intros)) | (simp; rw [keyView_foldl]; (try simp); (try intros)))))
@[simp] theorem hStallReplace_key : Keeps (hStallReplace ) := by
  constructor <;> intros <;> unfold hStallReplace <;> (try simp [storeHandler]) <;> (repeat' (first | rfl | (simp; done) | split))
@[simp] theorem beginRestart_key (a0 : State) (a1 : ℕ) (a2 : Bool) : keyView ((beginRestart a0 a1 a2)) = keyView a0 := by
  first | (unfold beginRestart; simp; done) | (unfold beginRestart; simp only []; (repeat' (first | rfl | (simp; done) | split | (rw [keyView_foldl]; (try simp); (try intros)) | (simp; rw [keyView_foldl]; (try simp); (try intros)))))
@[simp] theorem beginUnload_key (a0 : State) (a1 : ℕ) : keyView ((beginUnload a0 a1)) = keyView a0 := by
  first | (unfold beginUnload; simp; done) | (unfold beginUnload; simp only []; (repeat' (first | rfl | (simp; done) | split | (rw [keyView_foldl]; (try simp); (try intros)) | (simp; rw [keyView_foldl]; (try simp); (try intros)))))
@[simp] theorem hStallImap_key : Keeps (hStallImap ) := by
  constructor <;> intros <;> unfold hStallImap <;> (try simp [storeHandler]) <;> (repeat' (first | rfl | (simp; done) | split))
@[simp] theorem hCycleCpf_key : Keeps (hCycleCpf ) := by
  constructor <;> intros <;> unfold hCycleCpf <;> (try simp [storeHandler]) <;> (repeat' (first | rfl | (simp; done) | split))
@[simp] theorem setForces_key (a0 : State) (a1 : ℕ) (a2 : NMap Force) : keyView ((setForces a0 a1 a2)) = keyView a0 := by
  first | (unfold setForces; simp; done) | (unfold setForces; simp only []; (repeat' (first | rfl | (simp; done) | split | (rw [keyView_foldl]; (try simp); (try intros)) | (simp; rw [keyView_foldl]; (try simp); (try intros)))))
@[simp] theorem dropForce_key (a0 : State) (a1 : ℕ) (a2 : ℕ) (a3 : ℕ) : keyView ((dropForce a0 a1 a2 a3)) = keyView a0 := by
  first | (unfold dropForce; simp; done) | (unfold dropForce; simp only []; (repeat' (first | rfl | (simp; done) | split | (rw [keyView_foldl]; (try simp); (try intros)) | (simp; rw [keyView_foldl]; (try simp); (try intros)))))
@[simp] theorem putForce_key (a0 : State) (a1 : ℕ) (a2 : ℕ) (a3 : ℕ) (a4 : ℕ) : keyView ((putForce a0 a1 a2 a3 a4)) = keyView a0 := by
  first | (unfold putForce; simp; done) | (unfold putForce; simp only []; (repeat' (first | rfl | (simp; done) | split | (rw [keyView_foldl]; (try simp); (try intros)) | (simp; rw [keyView_foldl]; (try simp); (try intros)))))
@[simp] theorem hForce_key (kind : Nat) (level : State → WReq → Nat) : Keeps (hForce kind level) := by
  constructor <;> intros <;> unfold hForce <;> (try simp [storeHandler]) <;> (repeat' (first | rfl | (simp; done) | split))
@[simp] theorem dropAll_key (a0 : State) (a1 : ℕ) (a2 : ℕ) : keyView ((dropAll a0 a1 a2)) = keyView a0 := by
  unfold dropAll
  refine (setForces_key _ _ _).trans (keyView_foldl _ ?_ _ _)
  intro s p
  exact emitL_key _ _ _ _ _ _
@[simp] theorem hForceClear_key : Keeps (hForceClear ) := by
  constructor <;> intros <;> unfold hForceClear <;> (try simp [storeHandler]) <;> (repeat' (first | rfl | (simp; done) | split))
@[simp] theorem hSelect_key : Keeps (hSelect ) := by
  constructor <;> intros <;> unfold hSelect <;> (try simp [storeHandler]) <;> (repeat' (first | rfl | (simp; done) | split))
@[simp] theorem hLockBits_key : Keeps (hLockBits ) := by
  constructor <;> intros <;> unfold hLockBits <;> (try simp [storeHandler]) <;> (repeat' (first | rfl | (simp; done) | split))
@[simp] theorem hLockAtStart_key : Keeps (hLockAtStart ) := by
  constructor <;> intros <;> unfold hLockAtStart <;> (try simp [storeHandler]) <;> (repeat' (first | rfl | (simp; done) | split))
@[simp] theorem updTLink_key (a0 : State) (a1 : ℕ) (a2 : TLink → TLink) : keyView ((updTLink a0 a1 a2)) = keyView a0 := by
  first | (unfold updTLink; simp; done) | (unfold updTLink; simp only []; (repeat' (first | rfl | (simp; done) | split | (rw [keyView_foldl]; (try simp); (try intros)) | (simp; rw [keyView_foldl]; (try simp); (try intros)))))
@[simp] theorem setLease_key (a0 : State) (a1 : ℕ) (a2 : ℕ) : keyView ((setLease a0 a1 a2)) = keyView a0 := by
  first | (unfold setLease; simp; done) | (unfold setLease; simp only []; (repeat' (first | rfl | (simp; done) | split | (rw [keyView_foldl]; (try simp); (try intros)) | (simp; rw [keyView_foldl]; (try simp); (try intros)))))
@[simp] theorem refreshLease_key (a0 : State) : keyView ((refreshLease a0)) = keyView a0 := by
  first | (unfold refreshLease; simp; done) | (unfold refreshLease; simp only []; (repeat' (first | rfl | (simp; done) | split | (rw [keyView_foldl]; (try simp); (try intros)) | (simp; rw [keyView_foldl]; (try simp); (try intros)))))
@[simp] theorem twinSend_key (a0 : State) (a1 : ℕ) (a2 : ℕ) (a3 : EgKind) (a4 : ℕ) (a5 : ℕ) (a6 : List Byte) : keyView ((twinSend a0 a1 a2 a3 a4 a5 a6)) = keyView a0 := by
  first | (unfold twinSend; simp; done) | (unfold twinSend; simp only []; (repeat' (first | rfl | (simp; done) | split | (rw [keyView_foldl]; (try simp); (try intros)) | (simp; rw [keyView_foldl]; (try simp); (try intros)))))
@[simp] theorem sendClaim_key (a0 : State) (a1 : ℕ) : keyView ((sendClaim a0 a1)) = keyView a0 := by
  first | (unfold sendClaim; simp; done) | (unfold sendClaim; simp only []; (repeat' (first | rfl | (simp; done) | split | (rw [keyView_foldl]; (try simp); (try intros)) | (simp; rw [keyView_foldl]; (try simp); (try intros)))))
@[simp] theorem ceaseLease_key (a0 : State) (a1 : ℕ) : keyView ((ceaseLease a0 a1)) = keyView a0 := by
  first | (unfold ceaseLease; simp; done) | (unfold ceaseLease; simp only []; (repeat' (first | rfl | (simp; done) | split | (rw [keyView_foldl]; (try simp); (try intros)) | (simp; rw [keyView_foldl]; (try simp); (try intros)))))
@[simp] theorem expireShadow_key (a0 : State) : keyView ((expireShadow a0)) = keyView a0 := by
  first | (unfold expireShadow; simp; done) | (unfold expireShadow; simp only []; (repeat' (first | rfl | (simp; done) | split | (rw [keyView_foldl]; (try simp); (try intros)) | (simp; rw [keyView_foldl]; (try simp); (try intros)))))
@[simp] theorem twinFrame_key (a0 : State) (a1 : Bool) (a2 : ℕ) : keyView ((twinFrame a0 a1 a2)) = keyView a0 := by
  first | (unfold twinFrame; simp; done) | (unfold twinFrame; simp only []; (repeat' (first | rfl | (simp; done) | split | (rw [keyView_foldl]; (try simp); (try intros)) | (simp; rw [keyView_foldl]; (try simp); (try intros)))))
@[simp] theorem emitOpen_key (a0 : State) (a1 : ℕ) (a2 : ℕ) (a3 : ℕ) : keyView ((emitOpen a0 a1 a2 a3)) = keyView a0 := by
  first | (unfold emitOpen; simp; done) | (unfold emitOpen; simp only []; (repeat' (first | rfl | (simp; done) | split | (rw [keyView_foldl]; (try simp); (try intros)) | (simp; rw [keyView_foldl]; (try simp); (try intros)))))
@[simp] theorem abandon_key (a0 : State) (a1 : ℕ) (a2 : ℕ) : keyView ((abandon a0 a1 a2)) = keyView a0 := by
  first | (unfold abandon; simp; done) | (unfold abandon; simp only []; (repeat' (first | rfl | (simp; done) | split | (rw [keyView_foldl]; (try simp); (try intros)) | (simp; rw [keyView_foldl]; (try simp); (try intros)))))
@[simp] theorem abandonAll_key (a0 : State) (a1 : ℕ) : keyView ((abandonAll a0 a1)) = keyView a0 := by
  first | (unfold abandonAll; simp; done) | (unfold abandonAll; simp only []; (repeat' (first | rfl | (simp; done) | split | (rw [keyView_foldl]; (try simp); (try intros)) | (simp; rw [keyView_foldl]; (try simp); (try intros)))))
@[simp] theorem diverge_key (a0 : State) (a1 : ℕ) : keyView ((diverge a0 a1)) = keyView a0 := by
  first | (unfold diverge; simp; done) | (unfold diverge; simp only []; (repeat' (first | rfl | (simp; done) | split | (rw [keyView_foldl]; (try simp); (try intros)) | (simp; rw [keyView_foldl]; (try simp); (try intros)))))
@[simp] theorem laneRestarts_key (a0 : State) (a1 : ℕ) : keyView ((laneRestarts a0 a1)) = keyView a0 := by
  first | (unfold laneRestarts; simp; done) | (unfold laneRestarts; simp only []; (repeat' (first | rfl | (simp; done) | split | (rw [keyView_foldl]; (try simp); (try intros)) | (simp; rw [keyView_foldl]; (try simp); (try intros)))))
@[simp] theorem commandReset_key (a0 : State) (a1 : ℕ) : keyView ((commandReset a0 a1)) = keyView a0 := by
  first | (unfold commandReset; simp; done) | (unfold commandReset; simp only []; (repeat' (first | rfl | (simp; done) | split | (rw [keyView_foldl]; (try simp); (try intros)) | (simp; rw [keyView_foldl]; (try simp); (try intros)))))
@[simp] theorem hRestableCmd_key : Keeps (hRestableCmd ) := by
  constructor <;> intros <;> unfold hRestableCmd <;> (try simp [storeHandler]) <;> (repeat' (first | rfl | (simp; done) | split))
@[simp] theorem hLaneReset_key : Keeps (hLaneReset ) := by
  constructor <;> intros <;> unfold hLaneReset <;> (try simp [storeHandler]) <;> (repeat' (first | rfl | (simp; done) | split))
@[simp] theorem beginBulk_key (a0 : State) (a1 : ℕ) (a2 : Attempt) : keyView ((beginBulk a0 a1 a2)) = keyView a0 := by
  first | (unfold beginBulk; simp; done) | (unfold beginBulk; simp only []; (repeat' (first | rfl | (simp; done) | split | (rw [keyView_foldl]; (try simp); (try intros)) | (simp; rw [keyView_foldl]; (try simp); (try intros)))))
@[simp] theorem stepAttempt_key (a0 : State) (a1 : ℕ) : keyView ((stepAttempt a0 a1)) = keyView a0 := by
  first | (unfold stepAttempt; simp; done) | (unfold stepAttempt; simp only []; (repeat' (first | rfl | (simp; done) | split | (rw [keyView_foldl]; (try simp); (try intros)) | (simp; rw [keyView_foldl]; (try simp); (try intros)))))
@[simp] theorem lanesBoundary_key (a0 : State) : keyView ((lanesBoundary a0)) = keyView a0 := by
  first | (unfold lanesBoundary; simp; done) | (unfold lanesBoundary; simp only []; (repeat' (first | rfl | (simp; done) | split | (rw [keyView_foldl]; (try simp); (try intros)) | (simp; rw [keyView_foldl]; (try simp); (try intros)))))
@[simp] theorem sendResponse_key (a0 : State) (a1 : ℕ) (a2 : OutItem) : keyView ((sendResponse a0 a1 a2)) = keyView a0 := by
  first | (unfold sendResponse; simp; done) | (unfold sendResponse; simp only []; (repeat' (first | rfl | (simp; done) | split | (rw [keyView_foldl]; (try simp); (try intros)) | (simp; rw [keyView_foldl]; (try simp); (try intros))))) | (unfold sendResponse; (repeat' (first | rfl | (simp; done) | split | (rw [keyView_foldl]; (try simp); (try intros)) | (simp; rw [keyView_foldl]; (try simp); (try intros)))))
@[simp] theorem transmitItem_key (a0 : State) (a1 : ℕ) (a2 : OutItem) : keyView ((transmitItem a0 a1 a2)) = keyView a0 := by
  first | (unfold transmitItem; simp; done) | (unfold transmitItem; simp only []; (repeat' (first | rfl | (simp; done) | split | (rw [keyView_foldl]; (try simp); (try intros)) | (simp; rw [keyView_foldl]; (try simp); (try intros)))))
@[simp] theorem shadowItem_key (a0 : State) (a1 : ℕ) (a2 : OutItem) : keyView ((shadowItem a0 a1 a2)) = keyView a0 := by
  first | (unfold shadowItem; simp; done) | (unfold shadowItem; simp only []; (repeat' (first | rfl | (simp; done) | split | (rw [keyView_foldl]; (try simp); (try intros)) | (simp; rw [keyView_foldl]; (try simp); (try intros)))))
@[simp] theorem deliverItem_key (a0 : State) (a1 : ℕ) (a2 : OutItem) : keyView ((deliverItem a0 a1 a2)) = keyView a0 := by
  first | (unfold deliverItem; simp; done) | (unfold deliverItem; simp only []; (repeat' (first | rfl | (simp; done) | split | (rw [keyView_foldl]; (try simp); (try intros)) | (simp; rw [keyView_foldl]; (try simp); (try intros)))))
@[simp] theorem stageHeld_key (a0 : State) (a1 : ℕ) (a2 : OutItem) : keyView ((stageHeld a0 a1 a2)) = keyView a0 := by
  first | (unfold stageHeld; simp; done) | (unfold stageHeld; simp only []; (repeat' (first | rfl | (simp; done) | split | (rw [keyView_foldl]; (try simp); (try intros)) | (simp; rw [keyView_foldl]; (try simp); (try intros))))) | (unfold stageHeld; (repeat' (first | rfl | (simp; done) | split | (rw [keyView_foldl]; (try simp); (try intros)) | (simp; rw [keyView_foldl]; (try simp); (try intros)))))
@[simp] theorem holdItem_key (a0 : State) (a1 : ℕ) (a2 : ℕ) (a3 : OutItem) : keyView ((holdItem a0 a1 a2 a3)) = keyView a0 := by
  first | (unfold holdItem; simp; done) | (unfold holdItem; simp only []; (repeat' (first | rfl | (simp; done) | split | (rw [keyView_foldl]; (try simp); (try intros)) | (simp; rw [keyView_foldl]; (try simp); (try intros)))))
@[simp] theorem votersBoundary_key (a0 : State) : keyView ((votersBoundary a0)) = keyView a0 := by
  first | (unfold votersBoundary; simp; done) | (unfold votersBoundary; simp only []; (repeat' (first | rfl | (simp; done) | split | (rw [keyView_foldl]; (try simp); (try intros)) | (simp; rw [keyView_foldl]; (try simp); (try intros)))))
@[simp] theorem updDie_key (a0 : State) (a1 : ℕ) (a2 : FieldDie → FieldDie) : keyView ((updDie a0 a1 a2)) = keyView a0 := by
  first | (unfold updDie; simp; done) | (unfold updDie; simp only []; (repeat' (first | rfl | (simp; done) | split | (rw [keyView_foldl]; (try simp); (try intros)) | (simp; rw [keyView_foldl]; (try simp); (try intros)))))
@[simp] theorem updDi_key (a0 : State) (a1 : ℕ) (a2 : Di → Di) : keyView ((updDi a0 a1 a2)) = keyView a0 := by
  first | (unfold updDi; simp; done) | (unfold updDi; simp only []; (repeat' (first | rfl | (simp; done) | split | (rw [keyView_foldl]; (try simp); (try intros)) | (simp; rw [keyView_foldl]; (try simp); (try intros)))))
@[simp] theorem updDo_key (a0 : State) (a1 : ℕ) (a2 : Do → Do) : keyView ((updDo a0 a1 a2)) = keyView a0 := by
  first | (unfold updDo; simp; done) | (unfold updDo; simp only []; (repeat' (first | rfl | (simp; done) | split | (rw [keyView_foldl]; (try simp); (try intros)) | (simp; rw [keyView_foldl]; (try simp); (try intros)))))
@[simp] theorem updInst_key (a0 : State) (a1 : ℕ) (a2 : SafInst → SafInst) : keyView ((updInst a0 a1 a2)) = keyView a0 := by
  first | (unfold updInst; simp; done) | (unfold updInst; simp only []; (repeat' (first | rfl | (simp; done) | split | (rw [keyView_foldl]; (try simp); (try intros)) | (simp; rw [keyView_foldl]; (try simp); (try intros)))))
@[simp] theorem filterChannel_key (a0 : State) (a1 : ℕ) (a2 : ℕ) (a3 : ℕ) : keyView ((filterChannel a0 a1 a2 a3)) = keyView a0 := by
  first | (unfold filterChannel; simp; done) | (unfold filterChannel; simp only []; (repeat' (first | rfl | (simp; done) | split | (rw [keyView_foldl]; (try simp); (try intros)) | (simp; rw [keyView_foldl]; (try simp); (try intros)))))
@[simp] theorem stepPairs_key (a0 : State) (a1 : ℕ) (a2 : ℕ) : keyView ((stepPairs a0 a1 a2)) = keyView a0 := by
  first | (unfold stepPairs; simp; done) | (unfold stepPairs; simp only []; (repeat' (first | rfl | (simp; done) | split | (rw [keyView_foldl]; (try simp); (try intros)) | (simp; rw [keyView_foldl]; (try simp); (try intros)))))
@[simp] theorem setPermits_key (a0 : State) (a1 : ℕ) : keyView ((setPermits a0 a1)) = keyView a0 := by
  first | (unfold setPermits; simp; done) | (unfold setPermits; simp only []; (repeat' (first | rfl | (simp; done) | split | (rw [keyView_foldl]; (try simp); (try intros)) | (simp; rw [keyView_foldl]; (try simp); (try intros)))))
@[simp] theorem driveOne_key (a0 : State) (a1 : ℕ) : keyView ((driveOne a0 a1)) = keyView a0 := by
  first | (unfold driveOne; simp; done) | (unfold driveOne; simp only []; (repeat' (first | rfl | (simp; done) | split | (rw [keyView_foldl]; (try simp); (try intros)) | (simp; rw [keyView_foldl]; (try simp); (try intros)))))
@[simp] theorem driveOutputs_key (a0 : State) : keyView ((driveOutputs a0)) = keyView a0 := by
  unfold driveOutputs
  exact keyView_foldl _ (fun s p => by simp) _ _
@[simp] theorem enter_key (a0 : State) (a1 : ℕ) (a2 : ℕ) (a3 : Option ℕ) (a4 : ℕ) : keyView ((enter a0 a1 a2 a3 a4)) = keyView a0 := by
  first | (unfold enter; simp; done) | (unfold enter; simp only []; (repeat' (first | rfl | (simp; done) | split | (rw [keyView_foldl]; (try simp); (try intros)) | (simp; rw [keyView_foldl]; (try simp); (try intros)))))
@[simp] theorem emitBoth_key (a0 : State) (a1 : ℕ) (a2 : ℕ) (a3 : ℕ) (a4 : List Byte) : keyView ((emitBoth a0 a1 a2 a3 a4)) = keyView a0 := by
  first | (unfold emitBoth; simp; done) | (unfold emitBoth; simp only []; (repeat' (first | rfl | (simp; done) | split | (rw [keyView_foldl]; (try simp); (try intros)) | (simp; rw [keyView_foldl]; (try simp); (try intros)))))
@[simp] theorem faultInst_key (a0 : State) (a1 : ℕ) (a2 : ℕ) (a3 : ℕ) : keyView ((faultInst a0 a1 a2 a3)) = keyView a0 := by
  first | (unfold faultInst; simp; done) | (unfold faultInst; simp only []; (repeat' (first | rfl | (simp; done) | split | (rw [keyView_foldl]; (try simp); (try intros)) | (simp; rw [keyView_foldl]; (try simp); (try intros)))))
@[simp] theorem demand_key (a0 : State) (a1 : ℕ) (a2 : ℕ) : keyView ((demand a0 a1 a2)) = keyView a0 := by
  first | (unfold demand; simp; done) | (unfold demand; simp only []; (repeat' (first | rfl | (simp; done) | split | (rw [keyView_foldl]; (try simp); (try intros)) | (simp; rw [keyView_foldl]; (try simp); (try intros)))))
@[simp] theorem takeActivation_key (a0 : State) (a1 : ℕ) : keyView ((takeActivation a0 a1).2) = keyView a0 := by
  first | (unfold takeActivation; simp; done) | (unfold takeActivation; simp only []; (repeat' (first | rfl | (simp; done) | split | (rw [keyView_foldl]; (try simp); (try intros)) | (simp; rw [keyView_foldl]; (try simp); (try intros)))))
@[simp] theorem fromReady_key (a0 : State) (a1 : ℕ) (a2 : ℕ) (a3 : Bool) : keyView ((fromReady a0 a1 a2 a3)) = keyView a0 := by
  first | (unfold fromReady; simp; done) | (unfold fromReady; simp only []; (repeat' (first | rfl | (simp; done) | split | (rw [keyView_foldl]; (try simp); (try intros)) | (simp; rw [keyView_foldl]; (try simp); (try intros)))))
@[simp] theorem transitions_key (a0 : State) (a1 : ℕ) (a2 : ℕ) (a3 : ℕ) (a4 : Bool) : keyView ((transitions a0 a1 a2 a3 a4)) = keyView a0 := by
  first | (unfold transitions; simp; done) | (unfold transitions; simp only []; (repeat' (first | rfl | (simp; done) | split | (rw [keyView_foldl]; (try simp); (try intros)) | (simp; rw [keyView_foldl]; (try simp); (try intros)))))
@[simp] theorem measureReaction_key (a0 : State) (a1 : ℕ) (a2 : ℕ) : keyView ((measureReaction a0 a1 a2)) = keyView a0 := by
  first | (unfold measureReaction; simp; done) | (unfold measureReaction; simp only []; (repeat' (first | rfl | (simp; done) | split | (rw [keyView_foldl]; (try simp); (try intros)) | (simp; rw [keyView_foldl]; (try simp); (try intros)))))
@[simp] theorem evalInst_key (a0 : State) (a1 : ℕ) (a2 : ℕ) : keyView ((evalInst a0 a1 a2)) = keyView a0 := by
  first | (unfold evalInst; simp; done) | (unfold evalInst; simp only []; (repeat' (first | rfl | (simp; done) | split | (rw [keyView_foldl]; (try simp); (try intros)) | (simp; rw [keyView_foldl]; (try simp); (try intros)))))
@[simp] theorem hSafEdit_key : Keeps (hSafEdit ) := by
  constructor <;> intros <;> unfold hSafEdit <;> (try simp [storeHandler]) <;> (repeat' (first | rfl | (simp; done) | split))
@[simp] theorem closeEdit_key (a0 : State) (a1 : ℕ) : keyView ((closeEdit a0 a1)) = keyView a0 := by
  first | (unfold closeEdit; simp; done) | (unfold closeEdit; simp only []; (repeat' (first | rfl | (simp; done) | split | (rw [keyView_foldl]; (try simp); (try intros)) | (simp; rw [keyView_foldl]; (try simp); (try intros)))))
@[simp] theorem pend_key (a0 : State) (a1 : ℕ) (a2 : ℕ) (a3 : ℕ) (a4 : ℕ) : keyView ((pend a0 a1 a2 a3 a4)) = keyView a0 := by
  first | (unfold pend; simp; done) | (unfold pend; simp only []; (repeat' (first | rfl | (simp; done) | split | (rw [keyView_foldl]; (try simp); (try intros)) | (simp; rw [keyView_foldl]; (try simp); (try intros)))))
@[simp] theorem hSafParam_key : Keeps hSafParam := by
  constructor <;> intros <;> unfold hSafParam <;> (try simp [storeHandler]) <;> (repeat' (first | rfl | (simp; done) | split))
@[simp] theorem activate_key (a0 : State) : keyView ((activate a0)) = keyView a0 := by
  first | (unfold activate; simp; done) | (unfold activate; simp only []; (repeat' (first | rfl | (simp; done) | split | (rw [keyView_foldl]; (try simp); (try intros)) | (simp; rw [keyView_foldl]; (try simp); (try intros)))))
@[simp] theorem hSafCommit_key : Keeps (hSafCommit ) := by
  constructor <;> intros <;> unfold hSafCommit <;> (try simp [storeHandler]) <;> (repeat' (first | rfl | (simp; done) | split))
@[simp] theorem applyReqs_key (a0 : State) (a1 : OutCmd) : keyView ((applyReqs a0 a1)) = keyView a0 := by
  first | (unfold applyReqs; simp; done) | (unfold applyReqs; simp only []; (repeat' (first | rfl | (simp; done) | split | (rw [keyView_foldl]; (try simp); (try intros)) | (simp; rw [keyView_foldl]; (try simp); (try intros)))))
@[simp] theorem takeSafCfg_key (a0 : State) (a1 : NMap ℕ) (a2 : ℕ) : keyView ((takeSafCfg a0 a1 a2)) = keyView a0 := by
  first | (unfold takeSafCfg; simp; done) | (unfold takeSafCfg; simp only []; (repeat' (first | rfl | (simp; done) | split | (rw [keyView_foldl]; (try simp); (try intros)) | (simp; rw [keyView_foldl]; (try simp); (try intros)))))
@[simp] theorem sendConfig_key (a0 : State) : keyView ((sendConfig a0)) = keyView a0 := by
  first | (unfold sendConfig; simp; done) | (unfold sendConfig; simp only []; (repeat' (first | rfl | (simp; done) | split | (rw [keyView_foldl]; (try simp); (try intros)) | (simp; rw [keyView_foldl]; (try simp); (try intros)))))
@[simp] theorem clearBroken_key (a0 : State) (a1 : ℕ) : keyView ((clearBroken a0 a1)) = keyView a0 := by
  first | (unfold clearBroken; simp; done) | (unfold clearBroken; simp only []; (repeat' (first | rfl | (simp; done) | split | (rw [keyView_foldl]; (try simp); (try intros)) | (simp; rw [keyView_foldl]; (try simp); (try intros)))))
@[simp] theorem applyConfig_key (a0 : State) (a1 : ℕ) (a2 : ℕ) (a3 : ℕ) : keyView ((applyConfig a0 a1 a2 a3)) = keyView a0 := by
  first | (unfold applyConfig; simp; done) | (unfold applyConfig; simp only []; (repeat' (first | rfl | (simp; done) | split | (rw [keyView_foldl]; (try simp); (try intros)) | (simp; rw [keyView_foldl]; (try simp); (try intros)))))
@[simp] theorem clearLatches_key (a0 : State) (a1 : ℕ) : keyView ((clearLatches a0 a1)) = keyView a0 := by
  first | (unfold clearLatches; simp; done) | (unfold clearLatches; simp only []; (repeat' (first | rfl | (simp; done) | split | (rw [keyView_foldl]; (try simp); (try intros)) | (simp; rw [keyView_foldl]; (try simp); (try intros)))))
@[simp] theorem leaveSilent_key (a0 : State) (a1 : ℕ) (a2 : ℕ) (a3 : ℕ) (a4 : ℕ) : keyView ((leaveSilent a0 a1 a2 a3 a4)) = keyView a0 := by
  first | (unfold leaveSilent; simp; done) | (unfold leaveSilent; simp only []; (repeat' (first | rfl | (simp; done) | split | (rw [keyView_foldl]; (try simp); (try intros)) | (simp; rw [keyView_foldl]; (try simp); (try intros)))))
@[simp] theorem hDoReset_key : Keeps (hDoReset ) := by
  constructor <;> intros <;> unfold hDoReset <;> (try simp [storeHandler]) <;> (repeat' (first | rfl | (simp; done) | split))
@[simp] theorem hDoSafeState_key : Keeps (hDoSafeState ) := by
  constructor <;> intros <;> unfold hDoSafeState <;> (try simp [storeHandler]) <;> (repeat' (first | rfl | (simp; done) | split))
@[simp] theorem updAi_key (a0 : State) (a1 : ℕ) (a2 : Ai → Ai) : keyView ((updAi a0 a1 a2)) = keyView a0 := by
  first | (unfold updAi; simp; done) | (unfold updAi; simp only []; (repeat' (first | rfl | (simp; done) | split | (rw [keyView_foldl]; (try simp); (try intros)) | (simp; rw [keyView_foldl]; (try simp); (try intros)))))
@[simp] theorem aiTakeCfg_key (a0 : State) (a1 : ℕ) : keyView ((aiTakeCfg a0 a1)) = keyView a0 := by
  first | (unfold aiTakeCfg; simp; done) | (unfold aiTakeCfg; simp only []; (repeat' (first | rfl | (simp; done) | split | (rw [keyView_foldl]; (try simp); (try intros)) | (simp; rw [keyView_foldl]; (try simp); (try intros)))))
@[simp] theorem aiSample_key (a0 : State) (a1 : ℕ) : keyView ((aiSample a0 a1)) = keyView a0 := by
  first | (unfold aiSample; simp; done) | (unfold aiSample; simp only []; (repeat' (first | rfl | (simp; done) | split | (rw [keyView_foldl]; (try simp); (try intros)) | (simp; rw [keyView_foldl]; (try simp); (try intros)))))
@[simp] theorem updTacho_key (a0 : State) (a1 : ℕ) (a2 : Tacho → Tacho) : keyView ((updTacho a0 a1 a2)) = keyView a0 := by
  first | (unfold updTacho; simp; done) | (unfold updTacho; simp only []; (repeat' (first | rfl | (simp; done) | split | (rw [keyView_foldl]; (try simp); (try intros)) | (simp; rw [keyView_foldl]; (try simp); (try intros)))))
@[simp] theorem tachoSample_key (a0 : State) (a1 : ℕ) (a2 : ℕ) : keyView ((tachoSample a0 a1 a2)) = keyView a0 := by
  first | (unfold tachoSample; simp; done) | (unfold tachoSample; simp only []; (repeat' (first | rfl | (simp; done) | split | (rw [keyView_foldl]; (try simp); (try intros)) | (simp; rw [keyView_foldl]; (try simp); (try intros)))))
@[simp] theorem fuse_key (a0 : State) (a1 : ℕ) : keyView ((fuse a0 a1)) = keyView a0 := by
  first | (unfold fuse; simp; done) | (unfold fuse; simp only []; (repeat' (first | rfl | (simp; done) | split | (rw [keyView_foldl]; (try simp); (try intros)) | (simp; rw [keyView_foldl]; (try simp); (try intros)))))
@[simp] theorem rebase_key (a0 : State) (a1 : ℤ) : keyView ((rebase a0 a1)) = keyView a0 := by
  first | (unfold rebase; simp; done) | (unfold rebase; simp only []; (repeat' (first | rfl | (simp; done) | split | (rw [keyView_foldl]; (try simp); (try intros)) | (simp; rw [keyView_foldl]; (try simp); (try intros)))))
@[simp] theorem datumEvent_key (a0 : State) (a1 : ℕ) (a2 : ℤ) (a3 : ℤ) : keyView ((datumEvent a0 a1 a2 a3)) = keyView a0 := by
  first | (unfold datumEvent; simp; done) | (unfold datumEvent; simp only []; (repeat' (first | rfl | (simp; done) | split | (rw [keyView_foldl]; (try simp); (try intros)) | (simp; rw [keyView_foldl]; (try simp); (try intros)))))
@[simp] theorem applyDatums_key (a0 : State) : keyView ((applyDatums a0)) = keyView a0 := by
  first | (unfold applyDatums; simp; done) | (unfold applyDatums; simp only []; (repeat' (first | rfl | (simp; done) | split | (rw [keyView_foldl]; (try simp); (try intros)) | (simp; rw [keyView_foldl]; (try simp); (try intros)))))
@[simp] theorem hubDiffEvent_key (a0 : State) : keyView ((hubDiffEvent a0)) = keyView a0 := by
  first | (unfold hubDiffEvent; simp; done) | (unfold hubDiffEvent; simp only []; (repeat' (first | rfl | (simp; done) | split | (rw [keyView_foldl]; (try simp); (try intros)) | (simp; rw [keyView_foldl]; (try simp); (try intros)))))
@[simp] theorem measureHubDiff_key (a0 : State) (a1 : ℤ) : keyView ((measureHubDiff a0 a1)) = keyView a0 := by
  first | (unfold measureHubDiff; simp; done) | (unfold measureHubDiff; simp only []; (repeat' (first | rfl | (simp; done) | split | (rw [keyView_foldl]; (try simp); (try intros)) | (simp; rw [keyView_foldl]; (try simp); (try intros)))))
@[simp] theorem hSupplyMode_key : Keeps (hSupplyMode ) := by
  constructor <;> intros <;> unfold hSupplyMode <;> (try simp [storeHandler]) <;> (repeat' (first | rfl | (simp; done) | split))
@[simp] theorem supplyBoundary_key (a0 : State) : keyView ((supplyBoundary a0)) = keyView a0 := by
  first | (unfold supplyBoundary; simp; done) | (unfold supplyBoundary; simp only []; (repeat' (first | rfl | (simp; done) | split | (rw [keyView_foldl]; (try simp); (try intros)) | (simp; rw [keyView_foldl]; (try simp); (try intros)))))
@[simp] theorem hBudget_key (e : Entry) : Keeps (hBudget e) := by
  constructor <;> intros <;> unfold hBudget <;> (try simp [storeHandler]) <;> (repeat' (first | rfl | (simp; done) | split))
@[simp] theorem hThermalCrit_key : Keeps (hThermalCrit ) := by
  constructor <;> intros <;> unfold hThermalCrit <;> (try simp [storeHandler]) <;> (repeat' (first | rfl | (simp; done) | split))
@[simp] theorem hShedAllow_key : Keeps (hShedAllow ) := by
  constructor <;> intros <;> unfold hShedAllow <;> (try simp [storeHandler]) <;> (repeat' (first | rfl | (simp; done) | split))
@[simp] theorem energyAgree_key (a0 : State) (a1 : ℕ) (a2 : ℕ) : keyView ((energyAgree a0 a1 a2)) = keyView a0 := by
  first | (unfold energyAgree; simp; done) | (unfold energyAgree; simp only []; (repeat' (first | rfl | (simp; done) | split | (rw [keyView_foldl]; (try simp); (try intros)) | (simp; rw [keyView_foldl]; (try simp); (try intros)))))
@[simp] theorem shedEnter_key (a0 : State) (a1 : ℕ) (a2 : ℕ) : keyView ((shedEnter a0 a1 a2)) = keyView a0 := by
  first | (unfold shedEnter; simp; done) | (unfold shedEnter; simp only []; (repeat' (first | rfl | (simp; done) | split | (rw [keyView_foldl]; (try simp); (try intros)) | (simp; rw [keyView_foldl]; (try simp); (try intros)))))
@[simp] theorem stepShed_key (a0 : State) (a1 : ℕ) : keyView ((stepShed a0 a1)) = keyView a0 := by
  first | (unfold stepShed; simp; done) | (unfold stepShed; simp only []; (repeat' (first | rfl | (simp; done) | split | (rw [keyView_foldl]; (try simp); (try intros)) | (simp; rw [keyView_foldl]; (try simp); (try intros)))))
@[simp] theorem energyBoundary_key (a0 : State) : keyView ((energyBoundary a0)) = keyView a0 := by
  unfold energyBoundary
  simp only [keyView_mk_sup]
  rw [keyView_foldl _ (fun s p => by split <;> simp)]
  simp
@[simp] theorem putEntry_key (a0 : State) (a1 : ℕ) (a2 : Trigger) (a3 : ℕ) (a4 : ℕ) (a5 : ℕ) (a6 : ℕ) (a7 : ℕ) : keyView ((putEntry a0 a1 a2 a3 a4 a5 a6 a7)) = keyView a0 := by
  first | (unfold putEntry; simp; done) | (unfold putEntry; simp only []; (repeat' (first | rfl | (simp; done) | split | (rw [keyView_foldl]; (try simp); (try intros)) | (simp; rw [keyView_foldl]; (try simp); (try intros)))))
@[simp] theorem dropEntries_key (a0 : State) (a1 : ℕ) (a2 : Trigger) : keyView ((dropEntries a0 a1 a2)) = keyView a0 := by
  first | (unfold dropEntries; simp; done) | (unfold dropEntries; simp only []; (repeat' (first | rfl | (simp; done) | split | (rw [keyView_foldl]; (try simp); (try intros)) | (simp; rw [keyView_foldl]; (try simp); (try intros)))))
@[simp] theorem freeTriggers_key (a0 : State) : keyView ((freeTriggers a0)) = keyView a0 := by
  first | (unfold freeTriggers; simp; done) | (unfold freeTriggers; simp only []; (repeat' (first | rfl | (simp; done) | split | (rw [keyView_foldl]; (try simp); (try intros)) | (simp; rw [keyView_foldl]; (try simp); (try intros)))))
@[simp] theorem decideArm_key (a0 : State) (a1 : Posted) (a2 : ℕ) : keyView ((decideArm a0 a1 a2).2) = keyView a0 := by
  first | (unfold decideArm; simp; done) | (unfold decideArm; simp only []; (repeat' (first | rfl | (simp; done) | split | (rw [keyView_foldl]; (try simp); (try intros)) | (simp; rw [keyView_foldl]; (try simp); (try intros)))))
@[simp] theorem decideCancel_key (a0 : State) (a1 : Posted) (a2 : ℕ) : keyView ((decideCancel a0 a1 a2).2) = keyView a0 := by
  first | (unfold decideCancel; simp; done) | (unfold decideCancel; simp only []; (repeat' (first | rfl | (simp; done) | split | (rw [keyView_foldl]; (try simp); (try intros)) | (simp; rw [keyView_foldl]; (try simp); (try intros)))))
@[simp] theorem carryTimed_key (a0 : State) (a1 : ℕ) (a2 : Trigger) : keyView ((carryTimed a0 a1 a2).2) = keyView a0 := by
  first | (unfold carryTimed; simp; done) | (unfold carryTimed; simp only []; (repeat' (first | rfl | (simp; done) | split | (rw [keyView_foldl]; (try simp); (try intros)) | (simp; rw [keyView_foldl]; (try simp); (try intros)))))
@[simp] theorem withdrawTimed_key (a0 : State) (a1 : ℕ) : keyView ((withdrawTimed a0 a1)) = keyView a0 := by
  first | (unfold withdrawTimed; simp; done) | (unfold withdrawTimed; simp only []; (repeat' (first | rfl | (simp; done) | split | (rw [keyView_foldl]; (try simp); (try intros)) | (simp; rw [keyView_foldl]; (try simp); (try intros)))))
@[simp] theorem endPositionTriggers_key (a0 : State) : keyView ((endPositionTriggers a0)) = keyView a0 := by
  first | (unfold endPositionTriggers; simp; done) | (unfold endPositionTriggers; simp only []; (repeat' (first | rfl | (simp; done) | split | (rw [keyView_foldl]; (try simp); (try intros)) | (simp; rw [keyView_foldl]; (try simp); (try intros)))))
@[simp] theorem datumBegin_key (a0 : State) : keyView ((datumBegin a0)) = keyView a0 := by
  first | (unfold datumBegin; simp; done) | (unfold datumBegin; simp only []; (repeat' (first | rfl | (simp; done) | split | (rw [keyView_foldl]; (try simp); (try intros)) | (simp; rw [keyView_foldl]; (try simp); (try intros)))))
@[simp] theorem datumBoundary_key (a0 : State) : keyView ((datumBoundary a0)) = keyView a0 := by
  first | (unfold datumBoundary; simp; done) | (unfold datumBoundary; simp only []; (repeat' (first | rfl | (simp; done) | split | (rw [keyView_foldl]; (try simp); (try intros)) | (simp; rw [keyView_foldl]; (try simp); (try intros)))))
@[simp] theorem hPosDatumSet_key : Keeps (hPosDatumSet ) := by
  constructor <;> intros <;> unfold hPosDatumSet <;> (try simp [storeHandler]) <;> (repeat' (first | rfl | (simp; done) | split))
@[simp] theorem hTrigCancel_key : Keeps (hTrigCancel ) := by
  constructor <;> intros <;> unfold hTrigCancel <;> (try simp [storeHandler]) <;> (repeat' (first | rfl | (simp; done) | split))
@[simp] theorem updLink_key (a0 : State) (a1 : ℕ) (a2 : BLink → BLink) : keyView ((updLink a0 a1 a2)) = keyView a0 := by
  first | (unfold updLink; simp; done) | (unfold updLink; simp only []; (repeat' (first | rfl | (simp; done) | split | (rw [keyView_foldl]; (try simp); (try intros)) | (simp; rw [keyView_foldl]; (try simp); (try intros)))))
@[simp] theorem updPlane_key (a0 : State) (a1 : ℕ) (a2 : Plane → Plane) : keyView ((updPlane a0 a1 a2)) = keyView a0 := by
  first | (unfold updPlane; simp; done) | (unfold updPlane; simp only []; (repeat' (first | rfl | (simp; done) | split | (rw [keyView_foldl]; (try simp); (try intros)) | (simp; rw [keyView_foldl]; (try simp); (try intros)))))
@[simp] theorem setNode_key (a0 : State) (a1 : ℕ) (a2 : ℕ) : keyView ((setNode a0 a1 a2)) = keyView a0 := by
  first | (unfold setNode; simp; done) | (unfold setNode; simp only []; (repeat' (first | rfl | (simp; done) | split | (rw [keyView_foldl]; (try simp); (try intros)) | (simp; rw [keyView_foldl]; (try simp); (try intros)))))
@[simp] theorem setLink_key (a0 : State) (a1 : ℕ) (a2 : ℕ) : keyView ((setLink a0 a1 a2)) = keyView a0 := by
  first | (unfold setLink; simp; done) | (unfold setLink; simp only []; (repeat' (first | rfl | (simp; done) | split | (rw [keyView_foldl]; (try simp); (try intros)) | (simp; rw [keyView_foldl]; (try simp); (try intros)))))
@[simp] theorem peerHeard_key (a0 : State) (a1 : ℕ) : keyView ((peerHeard a0 a1)) = keyView a0 := by
  first | (unfold peerHeard; simp; done) | (unfold peerHeard; simp only []; (repeat' (first | rfl | (simp; done) | split | (rw [keyView_foldl]; (try simp); (try intros)) | (simp; rw [keyView_foldl]; (try simp); (try intros)))))
@[simp] theorem downLink_key (a0 : State) (a1 : ℕ) : keyView ((downLink a0 a1)) = keyView a0 := by
  first | (unfold downLink; simp; done) | (unfold downLink; simp only []; (repeat' (first | rfl | (simp; done) | split | (rw [keyView_foldl]; (try simp); (try intros)) | (simp; rw [keyView_foldl]; (try simp); (try intros)))))
@[simp] theorem alignLink_key (a0 : State) (a1 : ℕ) : keyView ((alignLink a0 a1)) = keyView a0 := by
  first | (unfold alignLink; simp; done) | (unfold alignLink; simp only []; (repeat' (first | rfl | (simp; done) | split | (rw [keyView_foldl]; (try simp); (try intros)) | (simp; rw [keyView_foldl]; (try simp); (try intros)))))
@[simp] theorem noteUnplanned_key (a0 : State) (a1 : ℕ) (a2 : Bool) (a3 : ℤ) : keyView ((noteUnplanned a0 a1 a2 a3)) = keyView a0 := by
  first | (unfold noteUnplanned; simp; done) | (unfold noteUnplanned; simp only []; (repeat' (first | rfl | (simp; done) | split | (rw [keyView_foldl]; (try simp); (try intros)) | (simp; rw [keyView_foldl]; (try simp); (try intros)))))
@[simp] theorem relayOut_key (a0 : State) (a1 : ℕ) (a2 : ℕ) (a3 : Bool) (a4 : ℤ) (a5 : ℕ) (a6 : List Byte) : keyView ((relayOut a0 a1 a2 a3 a4 a5 a6)) = keyView a0 := by
  first | (unfold relayOut; simp; done) | (unfold relayOut; simp only []; (repeat' (first | rfl | (simp; done) | split | (rw [keyView_foldl]; (try simp); (try intros)) | (simp; rw [keyView_foldl]; (try simp); (try intros)))))
@[simp] theorem nameKey_key (a0 : State) (a1 : ℕ) (a2 : ℕ) : keyView ((nameKey a0 a1 a2)) = keyView a0 := by
  first | (unfold nameKey; simp; done) | (unfold nameKey; simp only []; (repeat' (first | rfl | (simp; done) | split | (rw [keyView_foldl]; (try simp); (try intros)) | (simp; rw [keyView_foldl]; (try simp); (try intros)))))
@[simp] theorem noKey_key (a0 : State) (a1 : ℕ) (a2 : ℕ) : keyView ((noKey a0 a1 a2)) = keyView a0 := by
  first | (unfold noKey; simp; done) | (unfold noKey; simp only []; (repeat' (first | rfl | (simp; done) | split | (rw [keyView_foldl]; (try simp); (try intros)) | (simp; rw [keyView_foldl]; (try simp); (try intros)))))
@[simp] theorem hBbKeyActive_key : Keeps (hBbKeyActive ) := by
  constructor <;> intros <;> unfold hBbKeyActive <;> (try simp [storeHandler]) <;> (repeat' (first | rfl | (simp; done) | split))
@[simp] theorem hBbKey_key : Keeps (hBbKey ) := by
  constructor <;> intros <;> unfold hBbKey <;> (try simp [storeHandler]) <;> (repeat' (first | rfl | (simp; done) | split))
@[simp] theorem sendBoth_key (a0 : State) (a1 : ℕ) (a2 : EgKind) (a3 : ℕ) (a4 : ℕ) (a5 : ℕ) (a6 : List Byte) : keyView ((sendBoth a0 a1 a2 a3 a4 a5 a6)) = keyView a0 := by
  first | (unfold sendBoth; simp; done) | (unfold sendBoth; simp only []; (repeat' (first | rfl | (simp; done) | split | (rw [keyView_foldl]; (try simp); (try intros)) | (simp; rw [keyView_foldl]; (try simp); (try intros)))))
@[simp] theorem countClaimBell_key (a0 : State) : keyView ((countClaimBell a0)) = keyView a0 := by
  first | (unfold countClaimBell; simp; done) | (unfold countClaimBell; simp only []; (repeat' (first | rfl | (simp; done) | split | (rw [keyView_foldl]; (try simp); (try intros)) | (simp; rw [keyView_foldl]; (try simp); (try intros)))))
@[simp] theorem placeOwn_key (a0 : State) (a1 : ℕ) (a2 : ℕ) (a3 : PlanEntry) (a4 : ℕ) (a5 : List Byte) : keyView ((placeOwn a0 a1 a2 a3 a4 a5)) = keyView a0 := by
  first | (unfold placeOwn; simp; done) | (unfold placeOwn; simp only []; (repeat' (first | rfl | (simp; done) | split | (rw [keyView_foldl]; (try simp); (try intros)) | (simp; rw [keyView_foldl]; (try simp); (try intros)))))
@[simp] theorem sendFrame_key (a0 : State) (a1 : ℕ) (a2 : ℕ) (a3 : ℕ) (a4 : PlanEntry) (a5 : ℕ) (a6 : ℕ) (a7 : ℕ) (a8 : List Byte) (a9 : EgKind) : keyView ((sendFrame a0 a1 a2 a3 a4 a5 a6 a7 a8 a9)) = keyView a0 := by
  first | (unfold sendFrame; simp; done) | (unfold sendFrame; simp only []; (repeat' (first | rfl | (simp; done) | split | (rw [keyView_foldl]; (try simp); (try intros)) | (simp; rw [keyView_foldl]; (try simp); (try intros)))))
@[simp] theorem datumSent_key (a0 : State) (a1 : ℕ) (a2 : ℕ) (a3 : PlanEntry) : keyView ((datumSent a0 a1 a2 a3)) = keyView a0 := by
  first | (unfold datumSent; simp; done) | (unfold datumSent; simp only []; (repeat' (first | rfl | (simp; done) | split | (rw [keyView_foldl]; (try simp); (try intros)) | (simp; rw [keyView_foldl]; (try simp); (try intros)))))
@[simp] theorem holdAtSlot_key (a0 : State) (a1 : ℕ) (a2 : ℕ) (a3 : PlanEntry) (a4 : ℕ) : keyView ((holdAtSlot a0 a1 a2 a3 a4)) = keyView a0 := by
  first | (unfold holdAtSlot; simp; done) | (unfold holdAtSlot; simp only []; (repeat' (first | rfl | (simp; done) | split | (rw [keyView_foldl]; (try simp); (try intros)) | (simp; rw [keyView_foldl]; (try simp); (try intros))))) | (unfold holdAtSlot; (repeat' (first | rfl | (simp; done) | split | (rw [keyView_foldl]; (try simp); (try intros)) | (simp; rw [keyView_foldl]; (try simp); (try intros)))))
@[simp] theorem transmit_key (a0 : State) (a1 : ℕ) (a2 : ℕ) (a3 : ℕ) (a4 : PlanEntry) : keyView ((transmit a0 a1 a2 a3 a4)) = keyView a0 := by
  first | (unfold transmit; simp; done) | (unfold transmit; simp only []; (repeat' (first | rfl | (simp; done) | split | (rw [keyView_foldl]; (try simp); (try intros)) | (simp; rw [keyView_foldl]; (try simp); (try intros)))))
@[simp] theorem acceptFrame_key (a0 : State) (a1 : ℕ) (a2 : ℕ) (a3 : BbFrame) (a4 : PlanEntry) : keyView ((acceptFrame a0 a1 a2 a3 a4)) = keyView a0 := by
  first | (unfold acceptFrame; simp; done) | (unfold acceptFrame; simp only []; (repeat' (first | rfl | (simp; done) | split | (rw [keyView_foldl]; (try simp); (try intros)) | (simp; rw [keyView_foldl]; (try simp); (try intros)))))
@[simp] theorem missFrame_key (a0 : State) (a1 : ℕ) (a2 : PlanEntry) : keyView ((missFrame a0 a1 a2)) = keyView a0 := by
  first | (unfold missFrame; simp; done) | (unfold missFrame; simp only []; (repeat' (first | rfl | (simp; done) | split | (rw [keyView_foldl]; (try simp); (try intros)) | (simp; rw [keyView_foldl]; (try simp); (try intros)))))
@[simp] theorem receiveFrame_key (a0 : State) (a1 : ℕ) (a2 : ℕ) (a3 : BbFrame) (a4 : PlanEntry) (a5 : ℕ) : keyView ((receiveFrame a0 a1 a2 a3 a4 a5)) = keyView a0 := by
  first | (unfold receiveFrame; simp; done) | (unfold receiveFrame; simp only []; (repeat' (first | rfl | (simp; done) | split | (rw [keyView_foldl]; (try simp); (try intros)) | (simp; rw [keyView_foldl]; (try simp); (try intros)))))
@[simp] theorem judgeEmpty_key (a0 : State) (a1 : ℕ) (a2 : ℕ) : keyView ((judgeEmpty a0 a1 a2)) = keyView a0 := by
  first | (unfold judgeEmpty; simp; done) | (unfold judgeEmpty; simp only []; (repeat' (first | rfl | (simp; done) | split | (rw [keyView_foldl]; (try simp); (try intros)) | (simp; rw [keyView_foldl]; (try simp); (try intros)))))
@[simp] theorem hBbUtcSet_key : Keeps (hBbUtcSet ) := by
  constructor <;> intros <;> unfold hBbUtcSet <;> (try simp [storeHandler]) <;> (repeat' (first | rfl | (simp; done) | split))
@[simp] theorem hDatumAnnounce_key : Keeps (hDatumAnnounce ) := by
  constructor <;> intros <;> unfold hDatumAnnounce <;> (try simp [storeHandler]) <;> (repeat' (first | rfl | (simp; done) | split))
@[simp] theorem planRefused_key (a0 : State) (a1 : WReq) (a2 : ℕ) : keyView ((planRefused a0 a1 a2)) = keyView a0 := by
  first | (unfold planRefused; simp; done) | (unfold planRefused; simp only []; (repeat' (first | rfl | (simp; done) | split | (rw [keyView_foldl]; (try simp); (try intros)) | (simp; rw [keyView_foldl]; (try simp); (try intros)))))
@[simp] theorem hBbPlanLoad_key : Keeps (hBbPlanLoad ) := by
  constructor <;> intros <;> unfold hBbPlanLoad <;> (try simp [storeHandler]) <;> (repeat' (first | rfl | (simp; done) | split))
@[simp] theorem hCompanionRemove_key : Keeps (hCompanionRemove ) := by
  constructor <;> intros <;> unfold hCompanionRemove <;> (try simp [storeHandler]) <;> (repeat' (first | rfl | (simp; done) | split))
@[simp] theorem dueStep_key (a0 : State) (a1 : ℕ) (a2 : ℤ) : keyView ((dueStep a0 a1 a2)) = keyView a0 := by
  first | (unfold dueStep; simp; done) | (unfold dueStep; simp only []; (repeat' (first | rfl | (simp; done) | split | (rw [keyView_foldl]; (try simp); (try intros)) | (simp; rw [keyView_foldl]; (try simp); (try intros)))))
@[simp] theorem acceptBell_key (a0 : State) (a1 : ℕ) (a2 : ℕ) (a3 : Bell) : keyView ((acceptBell a0 a1 a2 a3)) = keyView a0 := by
  first | (unfold acceptBell; simp; done) | (unfold acceptBell; simp only []; (repeat' (first | rfl | (simp; done) | split | (rw [keyView_foldl]; (try simp); (try intros)) | (simp; rw [keyView_foldl]; (try simp); (try intros)))))
@[simp] theorem takeBell_key (a0 : State) (a1 : ℕ) (a2 : ℕ) (a3 : Bell) : keyView ((takeBell a0 a1 a2 a3)) = keyView a0 := by
  first | (unfold takeBell; simp; done) | (unfold takeBell; simp only []; (repeat' (first | rfl | (simp; done) | split | (rw [keyView_foldl]; (try simp); (try intros)) | (simp; rw [keyView_foldl]; (try simp); (try intros)))))
@[simp] theorem hearBell_key (a0 : State) (a1 : Bell) : keyView ((hearBell a0 a1)) = keyView a0 := by
  first | (unfold hearBell; simp; done) | (unfold hearBell; simp only []; (repeat' (first | rfl | (simp; done) | split | (rw [keyView_foldl]; (try simp); (try intros)) | (simp; rw [keyView_foldl]; (try simp); (try intros)))))
@[simp] theorem coldBell_key (a0 : State) (a1 : ℕ) (a2 : ℕ) (a3 : Bell) : keyView ((coldBell a0 a1 a2 a3)) = keyView a0 := by
  first | (unfold coldBell; simp; done) | (unfold coldBell; simp only []; (repeat' (first | rfl | (simp; done) | split | (rw [keyView_foldl]; (try simp); (try intros)) | (simp; rw [keyView_foldl]; (try simp); (try intros)))))
@[simp] theorem missBell_key (a0 : State) : keyView ((missBell a0)) = keyView a0 := by
  first | (unfold missBell; simp; done) | (unfold missBell; simp only []; (repeat' (first | rfl | (simp; done) | split | (rw [keyView_foldl]; (try simp); (try intros)) | (simp; rw [keyView_foldl]; (try simp); (try intros)))))
@[simp] theorem bellArrives_key (a0 : State) (a1 : ℕ) (a2 : Bell) : keyView ((bellArrives a0 a1 a2)) = keyView a0 := by
  first | (unfold bellArrives; simp; done) | (unfold bellArrives; simp only []; (repeat' (first | rfl | (simp; done) | split | (rw [keyView_foldl]; (try simp); (try intros)) | (simp; rw [keyView_foldl]; (try simp); (try intros)))))
@[simp] theorem announce_key (a0 : State) (a1 : Bool) (a2 : Bool) (a3 : List UnitRec) : keyView ((announce a0 a1 a2 a3)) = keyView a0 := by
  first | (unfold announce; simp; done) | (unfold announce; simp only []; (repeat' (first | rfl | (simp; done) | split | (rw [keyView_foldl]; (try simp); (try intros)) | (simp; rw [keyView_foldl]; (try simp); (try intros)))))
@[simp] theorem rosterEffect_key (a0 : State) (a1 : ℕ) (a2 : Roster) : keyView ((rosterEffect a0 a1 a2)) = keyView a0 := by
  first | (unfold rosterEffect; simp; done) | (unfold rosterEffect; simp only []; (repeat' (first | rfl | (simp; done) | split | (rw [keyView_foldl]; (try simp); (try intros)) | (simp; rw [keyView_foldl]; (try simp); (try intros)))))
@[simp] theorem sendChain_key (a0 : State) (a1 : ℕ) (a2 : EgKind) (a3 : Bool) (a4 : ℕ) (a5 : List Byte) : keyView ((sendChain a0 a1 a2 a3 a4 a5)) = keyView a0 := by
  first | (unfold sendChain; simp; done) | (unfold sendChain; simp only []; (repeat' (first | rfl | (simp; done) | split | (rw [keyView_foldl]; (try simp); (try intros)) | (simp; rw [keyView_foldl]; (try simp); (try intros)))))
@[simp] theorem originateOutward_key (a0 : State) (a1 : ℕ) : keyView ((originateOutward a0 a1)) = keyView a0 := by
  first | (unfold originateOutward; simp; done) | (unfold originateOutward; simp only []; (repeat' (first | rfl | (simp; done) | split | (rw [keyView_foldl]; (try simp); (try intros)) | (simp; rw [keyView_foldl]; (try simp); (try intros)))))
@[simp] theorem originateInward_key (a0 : State) (a1 : ℕ) : keyView ((originateInward a0 a1)) = keyView a0 := by
  first | (unfold originateInward; simp; done) | (unfold originateInward; simp only []; (repeat' (first | rfl | (simp; done) | split | (rw [keyView_foldl]; (try simp); (try intros)) | (simp; rw [keyView_foldl]; (try simp); (try intros)))))
@[simp] theorem takeChain_key (a0 : State) (a1 : ℕ) (a2 : ℕ) (a3 : OutChain) : keyView ((takeChain a0 a1 a2 a3)) = keyView a0 := by
  first | (unfold takeChain; simp; done) | (unfold takeChain; simp only []; (repeat' (first | rfl | (simp; done) | split | (rw [keyView_foldl]; (try simp); (try intros)) | (simp; rw [keyView_foldl]; (try simp); (try intros)))))
@[simp] theorem learnEdge_key (a0 : State) (a1 : ℕ) (a2 : OutChain) : keyView ((learnEdge a0 a1 a2)) = keyView a0 := by
  first | (unfold learnEdge; simp; done) | (unfold learnEdge; simp only []; (repeat' (first | rfl | (simp; done) | split | (rw [keyView_foldl]; (try simp); (try intros)) | (simp; rw [keyView_foldl]; (try simp); (try intros)))))
@[simp] theorem judgeForeign_key (a0 : State) (a1 : Foreign) : keyView ((judgeForeign a0 a1)) = keyView a0 := by
  first | (unfold judgeForeign; simp; done) | (unfold judgeForeign; simp only []; (repeat' (first | rfl | (simp; done) | split | (rw [keyView_foldl]; (try simp); (try intros)) | (simp; rw [keyView_foldl]; (try simp); (try intros)))))
@[simp] theorem collect_key (a0 : State) (a1 : ℕ) (a2 : InChain) : keyView ((collect a0 a1 a2)) = keyView a0 := by
  first | (unfold collect; simp; done) | (unfold collect; simp only []; (repeat' (first | rfl | (simp; done) | split | (rw [keyView_foldl]; (try simp); (try intros)) | (simp; rw [keyView_foldl]; (try simp); (try intros)))))
@[simp] theorem holdItems_key (a0 : State) : keyView ((holdItems a0)) = keyView a0 := by
  first | (unfold holdItems; simp; done) | (unfold holdItems; simp only []; (repeat' (first | rfl | (simp; done) | split | (rw [keyView_foldl]; (try simp); (try intros)) | (simp; rw [keyView_foldl]; (try simp); (try intros)))))
@[simp] theorem openEdges_key (a0 : State) : keyView ((openEdges a0)) = keyView a0 := by
  first | (unfold openEdges; simp; done) | (unfold openEdges; simp only []; (repeat' (first | rfl | (simp; done) | split | (rw [keyView_foldl]; (try simp); (try intros)) | (simp; rw [keyView_foldl]; (try simp); (try intros)))))
@[simp] theorem joinBoundary_key (a0 : State) : keyView ((joinBoundary a0)) = keyView a0 := by
  first | (unfold joinBoundary; simp; done) | (unfold joinBoundary; simp only []; (repeat' (first | rfl | (simp; done) | split | (rw [keyView_foldl]; (try simp); (try intros)) | (simp; rw [keyView_foldl]; (try simp); (try intros)))))
@[simp] theorem slewMerge_key (a0 : State) : keyView ((slewMerge a0)) = keyView a0 := by
  first | (unfold slewMerge; simp; done) | (unfold slewMerge; simp only []; (repeat' (first | rfl | (simp; done) | split | (rw [keyView_foldl]; (try simp); (try intros)) | (simp; rw [keyView_foldl]; (try simp); (try intros)))))
@[simp] theorem noFerryman_key (a0 : State) (a1 : ℕ) : keyView ((noFerryman a0 a1)) = keyView a0 := by
  first | (unfold noFerryman; simp; done) | (unfold noFerryman; simp only []; (repeat' (first | rfl | (simp; done) | split | (rw [keyView_foldl]; (try simp); (try intros)) | (simp; rw [keyView_foldl]; (try simp); (try intros)))))
@[simp] theorem countAbsent_key (a0 : State) : keyView ((countAbsent a0)) = keyView a0 := by
  first | (unfold countAbsent; simp; done) | (unfold countAbsent; simp only []; (repeat' (first | rfl | (simp; done) | split | (rw [keyView_foldl]; (try simp); (try intros)) | (simp; rw [keyView_foldl]; (try simp); (try intros)))))
@[simp] theorem landAfterMerge_key (a0 : State) (a1 : ℕ) : keyView ((landAfterMerge a0 a1)) = keyView a0 := by
  first | (unfold landAfterMerge; simp; done) | (unfold landAfterMerge; simp only []; (repeat' (first | rfl | (simp; done) | split | (rw [keyView_foldl]; (try simp); (try intros)) | (simp; rw [keyView_foldl]; (try simp); (try intros)))))
@[simp] theorem planeBoundary_key (a0 : State) (a1 : ℕ) (a2 : ℕ) : keyView ((planeBoundary a0 a1 a2)) = keyView a0 := by
  first | (unfold planeBoundary; simp; done) | (unfold planeBoundary; simp only []; (repeat' (first | rfl | (simp; done) | split | (rw [keyView_foldl]; (try simp); (try intros)) | (simp; rw [keyView_foldl]; (try simp); (try intros)))))
@[simp] theorem updJournal_key (a0 : State) (a1 : ℕ) (a2 : Journal → Journal) : keyView ((updJournal a0 a1 a2)) = keyView a0 := by
  first | (unfold updJournal; simp; done) | (unfold updJournal; simp only []; (repeat' (first | rfl | (simp; done) | split | (rw [keyView_foldl]; (try simp); (try intros)) | (simp; rw [keyView_foldl]; (try simp); (try intros)))))
@[simp] theorem putSlot_key (a0 : State) (a1 : ℕ) (a2 : ℕ) (a3 : Record) : keyView ((putSlot a0 a1 a2 a3)) = keyView a0 := by
  first | (unfold putSlot; simp; done) | (unfold putSlot; simp only []; (repeat' (first | rfl | (simp; done) | split | (rw [keyView_foldl]; (try simp); (try intros)) | (simp; rw [keyView_foldl]; (try simp); (try intros)))))
@[simp] theorem journalPut_key (a0 : State) (a1 : ℕ) (a2 : Record) : keyView ((journalPut a0 a1 a2)) = keyView a0 := by
  first | (unfold journalPut; simp; done) | (unfold journalPut; simp only []; (repeat' (first | rfl | (simp; done) | split | (rw [keyView_foldl]; (try simp); (try intros)) | (simp; rw [keyView_foldl]; (try simp); (try intros)))))
@[simp] theorem flushBuffer_key (a0 : State) (a1 : ℕ) : keyView ((flushBuffer a0 a1)) = keyView a0 := by
  first | (unfold flushBuffer; simp; done) | (unfold flushBuffer; simp only []; (repeat' (first | rfl | (simp; done) | split | (rw [keyView_foldl]; (try simp); (try intros)) | (simp; rw [keyView_foldl]; (try simp); (try intros)))))
@[simp] theorem bufferTake_key (a0 : State) (a1 : ℕ) (a2 : Record) : keyView ((bufferTake a0 a1 a2)) = keyView a0 := by
  first | (unfold bufferTake; simp; done) | (unfold bufferTake; simp only []; (repeat' (first | rfl | (simp; done) | split | (rw [keyView_foldl]; (try simp); (try intros)) | (simp; rw [keyView_foldl]; (try simp); (try intros)))))
@[simp] theorem bufferIn_key (a0 : State) (a1 : ℕ) (a2 : Record) : keyView ((bufferIn a0 a1 a2)) = keyView a0 := by
  first | (unfold bufferIn; simp; done) | (unfold bufferIn; simp only []; (repeat' (first | rfl | (simp; done) | split | (rw [keyView_foldl]; (try simp); (try intros)) | (simp; rw [keyView_foldl]; (try simp); (try intros)))))
@[simp] theorem flushAll_key (a0 : State) : keyView ((flushAll a0)) = keyView a0 := by
  first | (unfold flushAll; simp; done) | (unfold flushAll; simp only []; (repeat' (first | rfl | (simp; done) | split | (rw [keyView_foldl]; (try simp); (try intros)) | (simp; rw [keyView_foldl]; (try simp); (try intros)))))
@[simp] theorem endFreeze_key (a0 : State) (a1 : ℕ) : keyView ((endFreeze a0 a1)) = keyView a0 := by
  first | (unfold endFreeze; simp; done) | (unfold endFreeze; simp only []; (repeat' (first | rfl | (simp; done) | split | (rw [keyView_foldl]; (try simp); (try intros)) | (simp; rw [keyView_foldl]; (try simp); (try intros)))))
@[simp] theorem exchangeFrom_key (a0 : State) (a1 : ℕ) (a2 : ℕ) : keyView ((exchangeFrom a0 a1 a2)) = keyView a0 := by
  first | (unfold exchangeFrom; simp; done) | (unfold exchangeFrom; simp only []; (repeat' (first | rfl | (simp; done) | split | (rw [keyView_foldl]; (try simp); (try intros)) | (simp; rw [keyView_foldl]; (try simp); (try intros)))))
@[simp] theorem exchangeJournals_key (a0 : State) (a1 : ℕ) : keyView ((exchangeJournals a0 a1)) = keyView a0 := by
  first | (unfold exchangeJournals; simp; done) | (unfold exchangeJournals; simp only []; (repeat' (first | rfl | (simp; done) | split | (rw [keyView_foldl]; (try simp); (try intros)) | (simp; rw [keyView_foldl]; (try simp); (try intros)))))
@[simp] theorem pauseTransfer_key (a0 : State) : keyView ((pauseTransfer a0)) = keyView a0 := by
  first | (unfold pauseTransfer; simp; done) | (unfold pauseTransfer; simp only []; (repeat' (first | rfl | (simp; done) | split | (rw [keyView_foldl]; (try simp); (try intros)) | (simp; rw [keyView_foldl]; (try simp); (try intros)))))
@[simp] theorem updSess_key (a0 : State) (a1 : ℕ) (a2 : Session → Session) : keyView ((updSess a0 a1 a2)) = keyView a0 := by
  first | (unfold updSess; simp; done) | (unfold updSess; simp only []; (repeat' (first | rfl | (simp; done) | split | (rw [keyView_foldl]; (try simp); (try intros)) | (simp; rw [keyView_foldl]; (try simp); (try intros)))))
@[simp] theorem discard_key (a0 : State) (a1 : ℕ) : keyView ((discard a0 a1)) = keyView a0 := by
  first | (unfold discard; simp; done) | (unfold discard; simp only []; (repeat' (first | rfl | (simp; done) | split | (rw [keyView_foldl]; (try simp); (try intros)) | (simp; rw [keyView_foldl]; (try simp); (try intros)))))
@[simp] theorem learn_key (a0 : State) (a1 : ℕ) (a2 : ℕ) (a3 : ℕ) (a4 : ℕ) : keyView ((learn a0 a1 a2 a3 a4)) = keyView a0 := by
  first | (unfold learn; simp; done) | (unfold learn; simp only []; (repeat' (first | rfl | (simp; done) | split | (rw [keyView_foldl]; (try simp); (try intros)) | (simp; rw [keyView_foldl]; (try simp); (try intros)))))
@[simp] theorem forward_key (a0 : State) (a1 : EthFrame) (a2 : ℕ) (a3 : ℕ) : keyView ((forward a0 a1 a2 a3)) = keyView a0 := by
  first | (unfold forward; simp; done) | (unfold forward; simp only []; (repeat' (first | rfl | (simp; done) | split | (rw [keyView_foldl]; (try simp); (try intros)) | (simp; rw [keyView_foldl]; (try simp); (try intros)))))
@[simp] theorem endContext_key (a0 : State) (a1 : ℕ) : keyView ((endContext a0 a1)) = keyView a0 := by
  first | (unfold endContext; simp; done) | (unfold endContext; simp only []; (repeat' (first | rfl | (simp; done) | split | (rw [keyView_foldl]; (try simp); (try intros)) | (simp; rw [keyView_foldl]; (try simp); (try intros)))))
@[simp] theorem hubRecord_key (a0 : State) (a1 : ℕ) (a2 : ℕ) (a3 : ℕ) (a4 : List Byte) : keyView ((hubRecord a0 a1 a2 a3 a4)) = keyView a0 := by
  unfold hubRecord
  split
  · rfl
  · dsimp only
    refine (keyView_foldl _ (fun s p => ?_) _ _).trans ?_
    · split <;> simp
    · simp
@[simp] theorem closeSession_key (a0 : State) (a1 : ℕ) (a2 : ℕ) : keyView ((closeSession a0 a1 a2)) = keyView a0 := by
  first | (unfold closeSession; simp; done) | (unfold closeSession; simp only []; (repeat' (first | rfl | (simp; done) | split | (rw [keyView_foldl]; (try simp); (try intros)) | (simp; rw [keyView_foldl]; (try simp); (try intros)))))
@[simp] theorem updHs_key (a0 : State) (a1 : ℕ) (a2 : Handshake → Handshake) : keyView ((updHs a0 a1 a2)) = keyView a0 := by
  first | (unfold updHs; simp; done) | (unfold updHs; simp only []; (repeat' (first | rfl | (simp; done) | split | (rw [keyView_foldl]; (try simp); (try intros)) | (simp; rw [keyView_foldl]; (try simp); (try intros)))))
@[simp] theorem hsSend_key (a0 : State) (a1 : ℕ) (a2 : Handshake) (a3 : EgKind) (a4 : ℕ) (a5 : List Byte) : keyView ((hsSend a0 a1 a2 a3 a4 a5)) = keyView a0 := by
  unfold hsSend
  refine keyView_foldl _ (fun s n => ?_) _ _
  split
  · exact keyView_foldl _ (fun s d => by simp) _ _
  · rfl
@[simp] theorem dropHandshake_key (a0 : State) (a1 : ℕ) : keyView ((dropHandshake a0 a1)) = keyView a0 := by
  first | (unfold dropHandshake; simp; done) | (unfold dropHandshake; simp only []; (repeat' (first | rfl | (simp; done) | split | (rw [keyView_foldl]; (try simp); (try intros)) | (simp; rw [keyView_foldl]; (try simp); (try intros)))))
@[simp] theorem refuseHs_key (a0 : State) (a1 : ℕ) (a2 : ℕ) (a3 : ℕ) (a4 : ℕ) (a5 : ℕ) : keyView ((refuseHs a0 a1 a2 a3 a4 a5)) = keyView a0 := by
  first | (unfold refuseHs; simp; done) | (unfold refuseHs; simp only []; (repeat' (first | rfl | (simp; done) | split | (rw [keyView_foldl]; (try simp); (try intros)) | (simp; rw [keyView_foldl]; (try simp); (try intros)))))
@[simp] theorem judgeFinish_key (a0 : State) (a1 : ℕ) (a2 : ℕ) (a3 : FinishMsg) : keyView ((judgeFinish a0 a1 a2 a3)) = keyView a0 := by
  first | (unfold judgeFinish; simp; done) | (unfold judgeFinish; simp only []; (repeat' (first | rfl | (simp; done) | split | (rw [keyView_foldl]; (try simp); (try intros)) | (simp; rw [keyView_foldl]; (try simp); (try intros)))))
@[simp] theorem openSession_key (a0 : State) (a1 : ℕ) (a2 : Handshake) : keyView ((openSession a0 a1 a2)) = keyView a0 := by
  first | (unfold openSession; simp; done) | (unfold openSession; simp only []; (repeat' (first | rfl | (simp; done) | split | (rw [keyView_foldl]; (try simp); (try intros)) | (simp; rw [keyView_foldl]; (try simp); (try intros)))))
@[simp] theorem otherVersion_key (a0 : State) (a1 : ℕ) : keyView (otherVersion a0 a1) = keyView a0 := by
  unfold otherVersion; split <;> simp
@[simp] theorem recordArrives_key (a0 : State) (a1 : ℕ) (a2 : SessRecord) : keyView ((recordArrives a0 a1 a2).2) = keyView a0 := by
  first | (unfold recordArrives; simp; done) | (unfold recordArrives; simp only []; (repeat' (first | rfl | (simp; done) | split | (rw [keyView_foldl]; (try simp); (try intros)) | (simp; rw [keyView_foldl]; (try simp); (try intros)))))
@[simp] theorem adoptSeq_key (a0 : State) (a1 : ℕ) (a2 : ℕ) : keyView ((adoptSeq a0 a1 a2).2) = keyView a0 := by
  first | (unfold adoptSeq; simp; done) | (unfold adoptSeq; simp only []; (repeat' (first | rfl | (simp; done) | split | (rw [keyView_foldl]; (try simp); (try intros)) | (simp; rw [keyView_foldl]; (try simp); (try intros)))))
@[simp] theorem sendRekey_key (a0 : State) (a1 : ℕ) (a2 : ℕ) (a3 : ℕ) : keyView ((sendRekey a0 a1 a2 a3)) = keyView a0 := by
  first | (unfold sendRekey; simp; done) | (unfold sendRekey; simp only []; (repeat' (first | rfl | (simp; done) | split | (rw [keyView_foldl]; (try simp); (try intros)) | (simp; rw [keyView_foldl]; (try simp); (try intros)))))
@[simp] theorem hSessClose_key : Keeps (hSessClose ) := by
  constructor <;> intros <;> unfold hSessClose <;> (try simp [storeHandler]) <;> (repeat' (first | rfl | (simp; done) | split))
@[simp] theorem hSessReserve_key : Keeps (hSessReserve ) := by
  constructor <;> intros <;> unfold hSessReserve <;> (try simp [storeHandler]) <;> (repeat' (first | rfl | (simp; done) | split))
@[simp] theorem hSessDeny_key : Keeps (hSessDeny ) := by
  constructor <;> intros <;> unfold hSessDeny <;> (try simp [storeHandler]) <;> (repeat' (first | rfl | (simp; done) | split))
@[simp] theorem takeLists_key (a0 : State) : keyView ((takeLists a0)) = keyView a0 := by
  unfold takeLists
  split
  · rfl
  · refine (keyView_foldl _ (fun s p => ?_) _ _).trans ?_
    · split
      · simp
      · split <;> simp
    · simp
@[simp] theorem sessionsBoundary_key (a0 : State) : keyView ((sessionsBoundary a0)) = keyView a0 := by
  first | (unfold sessionsBoundary; simp; done) | (unfold sessionsBoundary; simp only []; (repeat' (first | rfl | (simp; done) | split | (rw [keyView_foldl]; (try simp); (try intros)) | (simp; rw [keyView_foldl]; (try simp); (try intros)))))
@[simp] theorem hTrdpAllow_key : Keeps (hTrdpAllow ) := by
  constructor <;> intros <;> unfold hTrdpAllow <;> (try simp [storeHandler]) <;> (repeat' (first | rfl | (simp; done) | split))
@[simp] theorem hPortVlans_key : Keeps (hPortVlans ) := by
  constructor <;> intros <;> unfold hPortVlans <;> (try simp [storeHandler]) <;> (repeat' (first | rfl | (simp; done) | split))
@[simp] theorem takeLease_key (a0 : State) (a1 : ℕ) : keyView ((takeLease a0 a1)) = keyView a0 := by
  first | (unfold takeLease; simp; done) | (unfold takeLease; simp only []; (repeat' (first | rfl | (simp; done) | split | (rw [keyView_foldl]; (try simp); (try intros)) | (simp; rw [keyView_foldl]; (try simp); (try intros)))))
@[simp] theorem linkSession_key (a0 : State) (a1 : ℕ) (a2 : Bool) : keyView ((linkSession a0 a1 a2)) = keyView a0 := by
  first | (unfold linkSession; simp; done) | (unfold linkSession; simp only []; (repeat' (first | rfl | (simp; done) | split | (rw [keyView_foldl]; (try simp); (try intros)) | (simp; rw [keyView_foldl]; (try simp); (try intros)))))
@[simp] theorem twinHelloSend_key (a0 : State) (a1 : ℕ) (a2 : ℕ) : keyView ((twinHelloSend a0 a1 a2)) = keyView a0 := by
  first | (unfold twinHelloSend; simp; done) | (unfold twinHelloSend; simp only []; (repeat' (first | rfl | (simp; done) | split | (rw [keyView_foldl]; (try simp); (try intros)) | (simp; rw [keyView_foldl]; (try simp); (try intros)))))
@[simp] theorem twinDiscard_key (a0 : State) (a1 : ℕ) : keyView ((twinDiscard a0 a1)) = keyView a0 := by
  first | (unfold twinDiscard; simp; done) | (unfold twinDiscard; simp only []; (repeat' (first | rfl | (simp; done) | split | (rw [keyView_foldl]; (try simp); (try intros)) | (simp; rw [keyView_foldl]; (try simp); (try intros)))))
@[simp] theorem pairUp_key (a0 : State) (a1 : ℕ) (a2 : ℕ) (a3 : TwinHello) : keyView ((pairUp a0 a1 a2 a3)) = keyView a0 := by
  first | (unfold pairUp; simp; done) | (unfold pairUp; simp only []; (repeat' (first | rfl | (simp; done) | split | (rw [keyView_foldl]; (try simp); (try intros)) | (simp; rw [keyView_foldl]; (try simp); (try intros)))))
@[simp] theorem helloRefused_key (a0 : State) (a1 : ℕ) (a2 : ℕ) (a3 : TwinHello) : keyView ((helloRefused a0 a1 a2 a3)) = keyView a0 := by
  first | (unfold helloRefused; simp; done) | (unfold helloRefused; simp only []; (repeat' (first | rfl | (simp; done) | split | (rw [keyView_foldl]; (try simp); (try intros)) | (simp; rw [keyView_foldl]; (try simp); (try intros)))))
@[simp] theorem dropMarked_key (a0 : State) (a1 : ℕ) (a2 : ℕ) : keyView ((dropMarked a0 a1 a2)) = keyView a0 := by
  first | (unfold dropMarked; simp; done) | (unfold dropMarked; simp only []; (repeat' (first | rfl | (simp; done) | split | (rw [keyView_foldl]; (try simp); (try intros)) | (simp; rw [keyView_foldl]; (try simp); (try intros)))))
@[simp] theorem renewTaken_key (a0 : State) (a1 : ℕ) (a2 : ℕ) (a3 : Bool) (a4 : ℕ) (a5 : ℕ) (a6 : ℕ) : keyView ((renewTaken a0 a1 a2 a3 a4 a5 a6)) = keyView a0 := by
  first | (unfold renewTaken; simp; done) | (unfold renewTaken; simp only []; (repeat' (first | rfl | (simp; done) | split | (rw [keyView_foldl]; (try simp); (try intros)) | (simp; rw [keyView_foldl]; (try simp); (try intros)))))
@[simp] theorem claimTaken_key (a0 : State) (a1 : ℕ) (a2 : ℕ) (a3 : Bool) : keyView ((claimTaken a0 a1 a2 a3)) = keyView a0 := by
  first | (unfold claimTaken; simp; done) | (unfold claimTaken; simp only []; (repeat' (first | rfl | (simp; done) | split | (rw [keyView_foldl]; (try simp); (try intros)) | (simp; rw [keyView_foldl]; (try simp); (try intros)))))
@[simp] theorem setMirror_key (a0 : State) (a1 : ℕ) (a2 : ℕ) : keyView ((setMirror a0 a1 a2)) = keyView a0 := by
  first | (unfold setMirror; simp; done) | (unfold setMirror; simp only []; (repeat' (first | rfl | (simp; done) | split | (rw [keyView_foldl]; (try simp); (try intros)) | (simp; rw [keyView_foldl]; (try simp); (try intros)))))
@[simp] theorem mirrorStep_key (a0 : State) (a1 : ℕ) (a2 : ℕ) : keyView ((mirrorStep a0 a1 a2)) = keyView a0 := by
  first | (unfold mirrorStep; simp; done) | (unfold mirrorStep; simp only []; (repeat' (first | rfl | (simp; done) | split | (rw [keyView_foldl]; (try simp); (try intros)) | (simp; rw [keyView_foldl]; (try simp); (try intros)))))
@[simp] theorem noteTwinDigest_key (a0 : State) (a1 : ℕ) (a2 : ℕ) : keyView ((noteTwinDigest a0 a1 a2)) = keyView a0 := by
  first | (unfold noteTwinDigest; simp; done) | (unfold noteTwinDigest; simp only []; (repeat' (first | rfl | (simp; done) | split | (rw [keyView_foldl]; (try simp); (try intros)) | (simp; rw [keyView_foldl]; (try simp); (try intros))))) | (unfold noteTwinDigest; (repeat' (first | rfl | (simp; done) | split | (rw [keyView_foldl]; (try simp); (try intros)) | (simp; rw [keyView_foldl]; (try simp); (try intros)))))
@[simp] theorem mirrorFeed_key (a0 : State) (a1 : ℕ) : keyView ((mirrorFeed a0 a1)) = keyView a0 := by
  first | (unfold mirrorFeed; simp; done) | (unfold mirrorFeed; simp only []; (repeat' (first | rfl | (simp; done) | split | (rw [keyView_foldl]; (try simp); (try intros)) | (simp; rw [keyView_foldl]; (try simp); (try intros)))))
@[simp] theorem sendFragments_key (a0 : State) (a1 : ℕ) (a2 : EgKind) (a3 : ℕ) (a4 : List Byte) : keyView ((sendFragments a0 a1 a2 a3 a4)) = keyView a0 := by
  first | (unfold sendFragments; simp; done) | (unfold sendFragments; simp only []; (repeat' (first | rfl | (simp; done) | split | (rw [keyView_foldl]; (try simp); (try intros)) | (simp; rw [keyView_foldl]; (try simp); (try intros))))) | (unfold sendFragments; (repeat' (first | rfl | (simp; done) | split | (rw [keyView_foldl]; (try simp); (try intros)) | (simp; rw [keyView_foldl]; (try simp); (try intros)))))
@[simp] theorem sendCatchup_key (a0 : State) : keyView ((sendCatchup a0)) = keyView a0 := by
  first | (unfold sendCatchup; simp; done) | (unfold sendCatchup; simp only []; (repeat' (first | rfl | (simp; done) | split | (rw [keyView_foldl]; (try simp); (try intros)) | (simp; rw [keyView_foldl]; (try simp); (try intros))))) | (unfold sendCatchup; (repeat' (first | rfl | (simp; done) | split | (rw [keyView_foldl]; (try simp); (try intros)) | (simp; rw [keyView_foldl]; (try simp); (try intros)))))
@[simp] theorem twinBoundary_key (a0 : State) (a1 : ℕ) : keyView ((twinBoundary a0 a1)) = keyView a0 := by
  first | (unfold twinBoundary; simp; done) | (unfold twinBoundary; simp only []; (repeat' (first | rfl | (simp; done) | split | (rw [keyView_foldl]; (try simp); (try intros)) | (simp; rw [keyView_foldl]; (try simp); (try intros)))))
@[simp] theorem catchJoin_key (a0 : State) (a1 : ℕ) (a2 : CatchUp) : keyView ((catchJoin a0 a1 a2)) = keyView a0 := by
  first | (unfold catchJoin; simp; done) | (unfold catchJoin; simp only []; (repeat' (first | rfl | (simp; done) | split | (rw [keyView_foldl]; (try simp); (try intros)) | (simp; rw [keyView_foldl]; (try simp); (try intros)))))
@[simp] theorem hDoParallel_key : Keeps (hDoParallel ) := by
  constructor <;> intros <;> unfold hDoParallel <;> (try simp [storeHandler]) <;> (repeat' (first | rfl | (simp; done) | split))
@[simp] theorem updIf_key (a0 : State) (a1 : ℕ) (a2 : BIf → BIf) : keyView ((updIf a0 a1 a2)) = keyView a0 := by
  first | (unfold updIf; simp; done) | (unfold updIf; simp only []; (repeat' (first | rfl | (simp; done) | split | (rw [keyView_foldl]; (try simp); (try intros)) | (simp; rw [keyView_foldl]; (try simp); (try intros)))))
@[simp] theorem setIfState_key (a0 : State) (a1 : ℕ) (a2 : ℕ) (a3 : ℕ) : keyView ((setIfState a0 a1 a2 a3)) = keyView a0 := by
  first | (unfold setIfState; simp; done) | (unfold setIfState; simp only []; (repeat' (first | rfl | (simp; done) | split | (rw [keyView_foldl]; (try simp); (try intros)) | (simp; rw [keyView_foldl]; (try simp); (try intros)))))
@[simp] theorem openInterfaces_key (a0 : State) : keyView ((openInterfaces a0)) = keyView a0 := by
  first | (unfold openInterfaces; simp; done) | (unfold openInterfaces; simp only []; (repeat' (first | rfl | (simp; done) | split | (rw [keyView_foldl]; (try simp); (try intros)) | (simp; rw [keyView_foldl]; (try simp); (try intros)))))
@[simp] theorem serByte_key (a0 : State) (a1 : ℕ) (a2 : ℕ) (a3 : Byte) (a4 : Bool) : keyView ((serByte a0 a1 a2 a3 a4)) = keyView a0 := by
  first | (unfold serByte; simp; done) | (unfold serByte; simp only []; (repeat' (first | rfl | (simp; done) | split | (rw [keyView_foldl]; (try simp); (try intros)) | (simp; rw [keyView_foldl]; (try simp); (try intros)))))
@[simp] theorem writePort_key (a0 : State) (a1 : ℕ) (a2 : ℕ) (a3 : List Byte) : keyView ((writePort a0 a1 a2 a3)) = keyView a0 := by
  first | (unfold writePort; simp; done) | (unfold writePort; simp only []; (repeat' (first | rfl | (simp; done) | split | (rw [keyView_foldl]; (try simp); (try intros)) | (simp; rw [keyView_foldl]; (try simp); (try intros)))))
@[simp] theorem passGroup_key (a0 : State) (a1 : ℕ) : keyView ((passGroup a0 a1)) = keyView a0 := by
  first | (unfold passGroup; simp; done) | (unfold passGroup; simp only []; (repeat' (first | rfl | (simp; done) | split | (rw [keyView_foldl]; (try simp); (try intros)) | (simp; rw [keyView_foldl]; (try simp); (try intros)))))
@[simp] theorem lockGroup_key (a0 : State) (a1 : ℕ) (a2 : ℕ) : keyView ((lockGroup a0 a1 a2)) = keyView a0 := by
  first | (unfold lockGroup; simp; done) | (unfold lockGroup; simp only []; (repeat' (first | rfl | (simp; done) | split | (rw [keyView_foldl]; (try simp); (try intros)) | (simp; rw [keyView_foldl]; (try simp); (try intros)))))
@[simp] theorem unlockGroup_key (a0 : State) (a1 : ℕ) (a2 : ℕ) : keyView ((unlockGroup a0 a1 a2)) = keyView a0 := by
  first | (unfold unlockGroup; simp; done) | (unfold unlockGroup; simp only []; (repeat' (first | rfl | (simp; done) | split | (rw [keyView_foldl]; (try simp); (try intros)) | (simp; rw [keyView_foldl]; (try simp); (try intros)))))
@[simp] theorem leaveGroups_key (a0 : State) (a1 : ℕ) : keyView ((leaveGroups a0 a1)) = keyView a0 := by
  first | (unfold leaveGroups; simp; done) | (unfold leaveGroups; simp only []; (repeat' (first | rfl | (simp; done) | split | (rw [keyView_foldl]; (try simp); (try intros)) | (simp; rw [keyView_foldl]; (try simp); (try intros)))))
@[simp] theorem purgeGroups_key (a0 : State) : keyView ((purgeGroups a0)) = keyView a0 := by
  first | (unfold purgeGroups; simp; done) | (unfold purgeGroups; simp only []; (repeat' (first | rfl | (simp; done) | split | (rw [keyView_foldl]; (try simp); (try intros)) | (simp; rw [keyView_foldl]; (try simp); (try intros)))))
@[simp] theorem decideBridge_key (a0 : State) (a1 : Posted) : keyView ((decideBridge a0 a1).2) = keyView a0 := by
  first | (unfold decideBridge; simp; done) | (unfold decideBridge; simp only []; (repeat' (first | rfl | (simp; done) | split | (rw [keyView_foldl]; (try simp); (try intros)) | (simp; rw [keyView_foldl]; (try simp); (try intros)))))
@[simp] theorem hBrWindow_key : Keeps (hBrWindow ) := by
  constructor <;> intros <;> unfold hBrWindow <;> (try simp [storeHandler]) <;> (repeat' (first | rfl | (simp; done) | split))
@[simp] theorem loadWindows_key (a0 : State) : keyView ((loadWindows a0)) = keyView a0 := by
  first | (unfold loadWindows; simp; done) | (unfold loadWindows; simp only []; (repeat' (first | rfl | (simp; done) | split | (rw [keyView_foldl]; (try simp); (try intros)) | (simp; rw [keyView_foldl]; (try simp); (try intros)))))
@[simp] theorem windowsBoundary_key (a0 : State) : keyView ((windowsBoundary a0)) = keyView a0 := by
  first | (unfold windowsBoundary; simp; done) | (unfold windowsBoundary; simp only []; (repeat' (first | rfl | (simp; done) | split | (rw [keyView_foldl]; (try simp); (try intros)) | (simp; rw [keyView_foldl]; (try simp); (try intros)))))
@[simp] theorem storeSeconds_key (a0 : State) : keyView ((storeSeconds a0)) = keyView a0 := by
  first | (unfold storeSeconds; simp; done) | (unfold storeSeconds; simp only []; (repeat' (first | rfl | (simp; done) | split | (rw [keyView_foldl]; (try simp); (try intros)) | (simp; rw [keyView_foldl]; (try simp); (try intros)))))
@[simp] theorem hRecFreeze_key : Keeps (hRecFreeze ) := by
  constructor <;> intros <;> unfold hRecFreeze <;> (try simp [storeHandler]) <;> (repeat' (first | rfl | (simp; done) | split))
@[simp] theorem updPwd_key (a0 : State) (a1 : ℕ) (a2 : Pwd → Pwd) : keyView ((updPwd a0 a1 a2)) = keyView a0 := by
  first | (unfold updPwd; simp; done) | (unfold updPwd; simp only []; (repeat' (first | rfl | (simp; done) | split | (rw [keyView_foldl]; (try simp); (try intros)) | (simp; rw [keyView_foldl]; (try simp); (try intros)))))
@[simp] theorem pwdFail_key (a0 : State) (a1 : ℕ) (a2 : ℕ) : keyView ((pwdFail a0 a1 a2)) = keyView a0 := by
  first | (unfold pwdFail; simp; done) | (unfold pwdFail; simp only []; (repeat' (first | rfl | (simp; done) | split | (rw [keyView_foldl]; (try simp); (try intros)) | (simp; rw [keyView_foldl]; (try simp); (try intros)))))
@[simp] theorem pwdPass_key (a0 : State) (a1 : ℕ) : keyView ((pwdPass a0 a1)) = keyView a0 := by
  first | (unfold pwdPass; simp; done) | (unfold pwdPass; simp only []; (repeat' (first | rfl | (simp; done) | split | (rw [keyView_foldl]; (try simp); (try intros)) | (simp; rw [keyView_foldl]; (try simp); (try intros)))))
@[simp] theorem pwdCommand_key (a0 : State) (a1 : ℕ) (a2 : ℕ) (a3 : ℕ) (a4 : List Byte) : keyView ((pwdCommand a0 a1 a2 a3 a4)) = keyView a0 := by
  first | (unfold pwdCommand; simp; done) | (unfold pwdCommand; simp only []; (repeat' (first | rfl | (simp; done) | split | (rw [keyView_foldl]; (try simp); (try intros)) | (simp; rw [keyView_foldl]; (try simp); (try intros)))))
@[simp] theorem clearEff_key (a0 : State) (a1 : WReq) : keyView ((clearEff a0 a1)) = keyView a0 := by
  first | (unfold clearEff; simp; done) | (unfold clearEff; simp only []; (repeat' (first | rfl | (simp; done) | split | (rw [keyView_foldl]; (try simp); (try intros)) | (simp; rw [keyView_foldl]; (try simp); (try intros)))))
@[simp] theorem hRecClear_key : Keeps (hRecClear ) := by
  constructor <;> intros <;> unfold hRecClear <;> (try simp [storeHandler]) <;> (repeat' (first | rfl | (simp; done) | split))
@[simp] theorem hRecCursor_key : Keeps (hRecCursor ) := by
  constructor <;> intros <;> unfold hRecCursor <;> (try simp [storeHandler]) <;> (repeat' (first | rfl | (simp; done) | split))
@[simp] theorem hRecFilter_key : Keeps (hRecFilter ) := by
  constructor <;> intros <;> unfold hRecFilter <;> (try simp [storeHandler]) <;> (repeat' (first | rfl | (simp; done) | split))
@[simp] theorem updYard_key (a0 : State) (a1 : ℕ) (a2 : Yard → Yard) : keyView ((updYard a0 a1 a2)) = keyView a0 := by
  first | (unfold updYard; simp; done) | (unfold updYard; simp only []; (repeat' (first | rfl | (simp; done) | split | (rw [keyView_foldl]; (try simp); (try intros)) | (simp; rw [keyView_foldl]; (try simp); (try intros)))))
@[simp] theorem setYard_key (a0 : State) (a1 : ℕ) (a2 : ℕ) (a3 : ℕ) (a4 : ℕ) : keyView ((setYard a0 a1 a2 a3 a4)) = keyView a0 := by
  first | (unfold setYard; simp; done) | (unfold setYard; simp only []; (repeat' (first | rfl | (simp; done) | split | (rw [keyView_foldl]; (try simp); (try intros)) | (simp; rw [keyView_foldl]; (try simp); (try intros)))))
@[simp] theorem refreshYards_key (a0 : State) (a1 : ℕ) : keyView ((refreshYards a0 a1)) = keyView a0 := by
  first | (unfold refreshYards; simp; done) | (unfold refreshYards; simp only []; (repeat' (first | rfl | (simp; done) | split | (rw [keyView_foldl]; (try simp); (try intros)) | (simp; rw [keyView_foldl]; (try simp); (try intros)))))
@[simp] theorem sendYardHeader_key (a0 : State) (a1 : ℕ) (a2 : ℕ) : keyView ((sendYardHeader a0 a1 a2)) = keyView a0 := by
  first | (unfold sendYardHeader; simp; done) | (unfold sendYardHeader; simp only []; (repeat' (first | rfl | (simp; done) | split | (rw [keyView_foldl]; (try simp); (try intros)) | (simp; rw [keyView_foldl]; (try simp); (try intros))))) | (unfold sendYardHeader; (repeat' (first | rfl | (simp; done) | split | (rw [keyView_foldl]; (try simp); (try intros)) | (simp; rw [keyView_foldl]; (try simp); (try intros)))))
@[simp] theorem hYardFormat_key : Keeps (hYardFormat ) := by
  constructor <;> intros <;> unfold hYardFormat <;> (try simp [storeHandler]) <;> (repeat' (first | rfl | (simp; done) | split))
@[simp] theorem updPkg_key (a0 : State) (a1 : ℕ) (a2 : Package → Package) : keyView ((updPkg a0 a1 a2)) = keyView a0 := by
  first | (unfold updPkg; simp; done) | (unfold updPkg; simp only []; (repeat' (first | rfl | (simp; done) | split | (rw [keyView_foldl]; (try simp); (try intros)) | (simp; rw [keyView_foldl]; (try simp); (try intros)))))
@[simp] theorem blockStatus_key (a0 : State) (a1 : ℕ) (a2 : ℕ) (a3 : ℕ) (a4 : ℕ) : keyView ((blockStatus a0 a1 a2 a3 a4)) = keyView a0 := by
  first | (unfold blockStatus; simp; done) | (unfold blockStatus; simp only []; (repeat' (first | rfl | (simp; done) | split | (rw [keyView_foldl]; (try simp); (try intros)) | (simp; rw [keyView_foldl]; (try simp); (try intros)))))
@[simp] theorem dropChunks_key (a0 : State) : keyView ((dropChunks a0)) = keyView a0 := by
  first | (unfold dropChunks; simp; done) | (unfold dropChunks; simp only []; (repeat' (first | rfl | (simp; done) | split | (rw [keyView_foldl]; (try simp); (try intros)) | (simp; rw [keyView_foldl]; (try simp); (try intros)))))
@[simp] theorem blockDone_key (a0 : State) (a1 : ℕ) (a2 : Package → Package) (a3 : ℕ) (a4 : ℕ) : keyView ((blockDone a0 a1 a2 a3 a4)) = keyView a0 := by
  first | (unfold blockDone; simp; done) | (unfold blockDone; simp only []; (repeat' (first | rfl | (simp; done) | split | (rw [keyView_foldl]; (try simp); (try intros)) | (simp; rw [keyView_foldl]; (try simp); (try intros)))))
@[simp] theorem completePkg_key (a0 : State) (a1 : ℕ) : keyView ((completePkg a0 a1)) = keyView a0 := by
  first | (unfold completePkg; simp; done) | (unfold completePkg; simp only []; (repeat' (first | rfl | (simp; done) | split | (rw [keyView_foldl]; (try simp); (try intros)) | (simp; rw [keyView_foldl]; (try simp); (try intros)))))
@[simp] theorem judgeBlock_key (a0 : State) (a1 : ℕ) (a2 : Package) (a3 : ℕ × ℕ) (a4 : List Byte) (a5 : List ℕ) (a6 : ℕ) : keyView ((judgeBlock a0 a1 a2 a3 a4 a5 a6)) = keyView a0 := by
  first | (unfold judgeBlock; simp; done) | (unfold judgeBlock; simp only []; (repeat' (first | rfl | (simp; done) | split | (rw [keyView_foldl]; (try simp); (try intros)) | (simp; rw [keyView_foldl]; (try simp); (try intros)))))
@[simp] theorem dropChunk_key (a0 : State) : keyView ((dropChunk a0)) = keyView a0 := by
  first | (unfold dropChunk; simp; done) | (unfold dropChunk; simp only []; (repeat' (first | rfl | (simp; done) | split | (rw [keyView_foldl]; (try simp); (try intros)) | (simp; rw [keyView_foldl]; (try simp); (try intros)))))
@[simp] theorem erasePkg_key (a0 : State) (a1 : ℕ) : keyView ((erasePkg a0 a1)) = keyView a0 := by
  first | (unfold erasePkg; simp; done) | (unfold erasePkg; simp only []; (repeat' (first | rfl | (simp; done) | split | (rw [keyView_foldl]; (try simp); (try intros)) | (simp; rw [keyView_foldl]; (try simp); (try intros)))))
@[simp] theorem hUpdOpen_key : Keeps (hUpdOpen ) := by
  constructor <;> intros <;> unfold hUpdOpen <;> (try simp [storeHandler]) <;> (repeat' (first | rfl | (simp; done) | split))
@[simp] theorem hUpdAbort_key : Keeps (hUpdAbort ) := by
  constructor <;> intros <;> unfold hUpdAbort <;> (try simp [storeHandler]) <;> (repeat' (first | rfl | (simp; done) | split))
@[simp] theorem disarmAll_key (a0 : State) : keyView ((disarmAll a0)) = keyView a0 := by
  first | (unfold disarmAll; simp; done) | (unfold disarmAll; simp only []; (repeat' (first | rfl | (simp; done) | split | (rw [keyView_foldl]; (try simp); (try intros)) | (simp; rw [keyView_foldl]; (try simp); (try intros)))))
@[simp] theorem hUpdActivate_key : Keeps (hUpdActivate ) := by
  constructor <;> intros <;> unfold hUpdActivate <;> (try simp [storeHandler]) <;> (repeat' (first | rfl | (simp; done) | split))
@[simp] theorem hUpdFallback_key : Keeps (hUpdFallback ) := by
  constructor <;> intros <;> unfold hUpdFallback <;> (try simp [storeHandler]) <;> (repeat' (first | rfl | (simp; done) | split))
@[simp] theorem hLoftDelete_key : Keeps (hLoftDelete ) := by
  constructor <;> intros <;> unfold hLoftDelete <;> (try simp [storeHandler]) <;> (repeat' (first | rfl | (simp; done) | split))
@[simp] theorem hSetReset_key : Keeps (hSetReset ) := by
  constructor <;> intros <;> unfold hSetReset <;> (try simp [storeHandler]) <;> (repeat' (first | rfl | (simp; done) | split))
@[simp] theorem tackEvent_key (a0 : State) (a1 : ℕ) (a2 : ℕ) (a3 : ℕ) (a4 : ℕ) : keyView ((tackEvent a0 a1 a2 a3 a4)) = keyView a0 := by
  first | (unfold tackEvent; simp; done) | (unfold tackEvent; simp only []; (repeat' (first | rfl | (simp; done) | split | (rw [keyView_foldl]; (try simp); (try intros)) | (simp; rw [keyView_foldl]; (try simp); (try intros)))))
@[simp] theorem hTrRootLoad_key : Keeps (hTrRootLoad ) := by
  constructor <;> intros <;> unfold hTrRootLoad <;> (try simp [storeHandler]) <;> (repeat' (first | rfl | (simp; done) | split))
@[simp] theorem hTrRootClear_key : Keeps (hTrRootClear ) := by
  constructor <;> intros <;> unfold hTrRootClear <;> (try simp [storeHandler]) <;> (repeat' (first | rfl | (simp; done) | split))
@[simp] theorem hTrLockMask_key : Keeps (hTrLockMask ) := by
  constructor <;> intros <;> unfold hTrLockMask <;> (try simp [storeHandler]) <;> (repeat' (first | rfl | (simp; done) | split))
@[simp] theorem hPwdSet_key : Keeps (hPwdSet ) := by
  constructor <;> intros <;> unfold hPwdSet <;> (try simp [storeHandler]) <;> (repeat' (first | rfl | (simp; done) | split))
@[simp] theorem coreAll_key (a0 : State) (a1 : ℕ) (a2 : CorePerf → CorePerf) : keyView ((coreAll a0 a1 a2)) = keyView a0 := by
  first | (unfold coreAll; simp; done) | (unfold coreAll; simp only []; (repeat' (first | rfl | (simp; done) | split | (rw [keyView_foldl]; (try simp); (try intros)) | (simp; rw [keyView_foldl]; (try simp); (try intros)))))
@[simp] theorem hPcCtrl_key : Keeps (hPcCtrl ) := by
  constructor <;> intros <;> unfold hPcCtrl <;> (try simp [storeHandler]) <;> (repeat' (first | rfl | (simp; done) | split))
@[simp] theorem hPcClear_key : Keeps (hPcClear ) := by
  constructor <;> intros <;> unfold hPcClear <;> (try simp [storeHandler]) <;> (repeat' (first | rfl | (simp; done) | split))
@[simp] theorem hPcSnapCmd_key : Keeps (hPcSnapCmd ) := by
  constructor <;> intros <;> unfold hPcSnapCmd <;> (try simp [storeHandler]) <;> (repeat' (first | rfl | (simp; done) | split))
@[simp] theorem hPcSnapPeriod_key : Keeps (hPcSnapPeriod ) := by
  constructor <;> intros <;> unfold hPcSnapPeriod <;> (try simp [storeHandler]) <;> (repeat' (first | rfl | (simp; done) | split))
@[simp] theorem hPcSampleK_key : Keeps (hPcSampleK ) := by
  constructor <;> intros <;> unfold hPcSampleK <;> (try simp [storeHandler]) <;> (repeat' (first | rfl | (simp; done) | split))
@[simp] theorem hPcLatArm_key : Keeps (hPcLatArm ) := by
  constructor <;> intros <;> unfold hPcLatArm <;> (try simp [storeHandler]) <;> (repeat' (first | rfl | (simp; done) | split))
@[simp] theorem snapLatch_key (a0 : State) (a1 : ℕ) : keyView ((snapLatch a0 a1)) = keyView a0 := by
  first | (unfold snapLatch; simp; done) | (unfold snapLatch; simp only []; (repeat' (first | rfl | (simp; done) | split | (rw [keyView_foldl]; (try simp); (try intros)) | (simp; rw [keyView_foldl]; (try simp); (try intros)))))
@[simp] theorem snapDrop_key (a0 : State) : keyView ((snapDrop a0)) = keyView a0 := by
  first | (unfold snapDrop; simp; done) | (unfold snapDrop; simp only []; (repeat' (first | rfl | (simp; done) | split | (rw [keyView_foldl]; (try simp); (try intros)) | (simp; rw [keyView_foldl]; (try simp); (try intros))))) | (unfold snapDrop; (repeat' (first | rfl | (simp; done) | split | (rw [keyView_foldl]; (try simp); (try intros)) | (simp; rw [keyView_foldl]; (try simp); (try intros)))))
@[simp] theorem snapMissed_key (a0 : State) (a1 : ℕ) : keyView ((snapMissed a0 a1)) = keyView a0 := by
  first | (unfold snapMissed; simp; done) | (unfold snapMissed; simp only []; (repeat' (first | rfl | (simp; done) | split | (rw [keyView_foldl]; (try simp); (try intros)) | (simp; rw [keyView_foldl]; (try simp); (try intros)))))
@[simp] theorem snapAgree_key (a0 : State) : keyView ((snapAgree a0)) = keyView a0 := by
  unfold snapAgree
  split
  · rfl
  · dsimp only
    simp only [keyView_mk, sv_key, bump_key]
    exact keyView_foldl _ (fun s p => by simp) _ _
@[simp] theorem crossingCycles_key (a0 : State) (a1 : ℕ) (a2 : ℕ) : keyView ((crossingCycles a0 a1 a2)) = keyView a0 := by
  first | (unfold crossingCycles; simp; done) | (unfold crossingCycles; simp only []; (repeat' (first | rfl | (simp; done) | split | (rw [keyView_foldl]; (try simp); (try intros)) | (simp; rw [keyView_foldl]; (try simp); (try intros)))))
@[simp] theorem perfCrossing_key (a0 : State) (a1 : ℕ → Bool) : keyView ((perfCrossing a0 a1)) = keyView a0 := by
  unfold perfCrossing
  exact keyView_foldl _ (fun s p => by split <;> simp) _ _
@[simp] theorem gatherBlocks_key (a0 : State) (a1 : ℕ) (a2 : ℕ) : keyView ((gatherBlocks a0 a1 a2)) = keyView a0 := by
  first | (unfold gatherBlocks; simp; done) | (unfold gatherBlocks; simp only []; (repeat' (first | rfl | (simp; done) | split | (rw [keyView_foldl]; (try simp); (try intros)) | (simp; rw [keyView_foldl]; (try simp); (try intros)))))
@[simp] theorem rangeHandler_key (e : Entry) (bad : State → WReq → Bool) : Keeps (rangeHandler e bad) := by
  constructor <;> intros <;> unfold rangeHandler <;> (try simp [storeHandler]) <;> (repeat' (first | rfl | (simp; done) | split))
@[simp] theorem hTachoSign_key : Keeps (hTachoSign ) := by
  constructor <;> intros <;> unfold hTachoSign <;> (try simp [storeHandler]) <;> (repeat' (first | rfl | (simp; done) | split))
@[simp] theorem hCanData_key : Keeps (hCanData ) := by
  constructor <;> intros <;> unfold hCanData <;> (try simp [storeHandler]) <;> (repeat' (first | rfl | (simp; done) | split))
@[simp] theorem hSerFormat_key : Keeps (hSerFormat ) := by
  constructor <;> intros <;> unfold hSerFormat <;> (try simp [storeHandler]) <;> (repeat' (first | rfl | (simp; done) | split))
@[simp] theorem hAiGain_key : Keeps (hAiGain ) := by
  constructor <;> intros <;> unfold hAiGain <;> (try simp [storeHandler]) <;> (repeat' (first | rfl | (simp; done) | split))
@[simp] theorem hConfigNode_key : Keeps (hConfigNode ) := by
  constructor <;> intros <;> unfold hConfigNode <;> (try simp [storeHandler]) <;> (repeat' (first | rfl | (simp; done) | split))
@[simp] theorem hPeerNode_key : Keeps (hPeerNode ) := by
  constructor <;> intros <;> unfold hPeerNode <;> (try simp [storeHandler]) <;> (repeat' (first | rfl | (simp; done) | split))
@[simp] theorem hStallSheds_key : Keeps (hStallSheds ) := by
  constructor <;> intros <;> unfold hStallSheds <;> (try simp [storeHandler]) <;> (repeat' (first | rfl | (simp; done) | split))
@[simp] theorem hResetCmd_key : Keeps (hResetCmd ) := by
  constructor <;> intros <;> unfold hResetCmd <;> (try simp [storeHandler]) <;> (repeat' (first | rfl | (simp; done) | split))
@[simp] theorem hRecoveryPwd_key : Keeps (hRecoveryPwd ) := by
  constructor <;> intros <;> unfold hRecoveryPwd <;> simp
  intro _
  exact (keyView_foldl _ (fun s r => by simp) _ _).trans (by simp)
@[simp] theorem answerOp_key (a0 : State) (a1 : Request) (a2 : ℕ) (a3 : Bool) (a4 : List Byte) : keyView ((answerOp a0 a1 a2 a3 a4)) = keyView a0 := by
  first | (unfold answerOp; simp; done) | (unfold answerOp; simp only []; (repeat' (first | rfl | (simp; done) | split | (rw [keyView_foldl]; (try simp); (try intros)) | (simp; rw [keyView_foldl]; (try simp); (try intros)))))
@[simp] theorem decideLogin_key (a0 : State) (a1 : Request) : keyView ((decideLogin a0 a1)) = keyView a0 := by
  first | (unfold decideLogin; simp; done) | (unfold decideLogin; simp only []; (repeat' (first | rfl | (simp; done) | split | (rw [keyView_foldl]; (try simp); (try intros)) | (simp; rw [keyView_foldl]; (try simp); (try intros)))))
@[simp] theorem decideOp_key (a0 : State) (a1 : State) (a2 : Request) : keyView ((decideOp a0 a1 a2)) = keyView a0 := by
  first | (unfold decideOp; simp; done) | (unfold decideOp; simp only []; (repeat' (first | rfl | (simp; done) | split | (rw [keyView_foldl]; (try simp); (try intros)) | (simp; rw [keyView_foldl]; (try simp); (try intros)))))
@[simp] theorem translateEdges_key (a0 : State) (a1 : ℕ) : keyView ((translateEdges a0 a1)) = keyView a0 := by
  unfold translateEdges
  dsimp only
  refine (keyView_foldl _ (fun s p => by simp) _ _).trans ?_
  refine (keyView_foldl _ (fun s p => by simp) _ _).trans ?_
  exact keyView_foldl _ (fun s p => by simp) _ _
@[simp] theorem takeSets_key (a0 : State) (a1 : ℕ) (a2 : ℕ) : keyView ((takeSets a0 a1 a2)) = keyView a0 := by
  first | (unfold takeSets; simp; done) | (unfold takeSets; simp only []; (repeat' (first | rfl | (simp; done) | split | (rw [keyView_foldl]; (try simp); (try intros)) | (simp; rw [keyView_foldl]; (try simp); (try intros)))))
@[simp] theorem windowItem_key (a0 : State) (a1 : ℕ) (a2 : ℕ) (a3 : ℕ) : keyView ((windowItem a0 a1 a2 a3)) = keyView a0 := by
  first | (unfold windowItem; simp; done) | (unfold windowItem; simp only []; (repeat' (first | rfl | (simp; done) | split | (rw [keyView_foldl]; (try simp); (try intros)) | (simp; rw [keyView_foldl]; (try simp); (try intros)))))
@[simp] theorem closeImage_key (a0 : State) (a1 : ℕ) (a2 : ℕ) (a3 : HubReading) : keyView ((closeImage a0 a1 a2 a3)) = keyView a0 := by
  first | (unfold closeImage; simp; done) | (unfold closeImage; simp only []; (repeat' (first | rfl | (simp; done) | split | (rw [keyView_foldl]; (try simp); (try intros)) | (simp; rw [keyView_foldl]; (try simp); (try intros)))))
@[simp] theorem countLost_key (a0 : State) (a1 : List ℕ) : keyView ((countLost a0 a1)) = keyView a0 := by
  first | (unfold countLost; simp; done) | (unfold countLost; simp only []; (repeat' (first | rfl | (simp; done) | split | (rw [keyView_foldl]; (try simp); (try intros)) | (simp; rw [keyView_foldl]; (try simp); (try intros)))))
@[simp] theorem agreeHead_key (a0 : State) (a1 : AgreeReport) (a2 : List ℕ) : keyView ((agreeHead a0 a1 a2)) = keyView a0 := by
  first | (unfold agreeHead; simp; done) | (unfold agreeHead; simp only []; (repeat' (first | rfl | (simp; done) | split | (rw [keyView_foldl]; (try simp); (try intros)) | (simp; rw [keyView_foldl]; (try simp); (try intros)))))
@[simp] theorem adopt_key (a0 : State) (a1 : Item) : keyView ((adopt a0 a1)) = keyView a0 := by
  first | (unfold adopt; simp; done) | (unfold adopt; simp only []; (repeat' (first | rfl | (simp; done) | split | (rw [keyView_foldl]; (try simp); (try intros)) | (simp; rw [keyView_foldl]; (try simp); (try intros)))))
@[simp] theorem discardCopy_key (a0 : State) (a1 : ℕ) : keyView ((discardCopy a0 a1)) = keyView a0 := by
  first | (unfold discardCopy; simp; done) | (unfold discardCopy; simp only []; (repeat' (first | rfl | (simp; done) | split | (rw [keyView_foldl]; (try simp); (try intros)) | (simp; rw [keyView_foldl]; (try simp); (try intros)))))
@[simp] theorem takeUtc_key (a0 : State) (a1 : ℤ) (a2 : Bool) : keyView ((takeUtc a0 a1 a2)) = keyView a0 := by
  first | (unfold takeUtc; simp; done) | (unfold takeUtc; simp only []; (repeat' (first | rfl | (simp; done) | split | (rw [keyView_foldl]; (try simp); (try intros)) | (simp; rw [keyView_foldl]; (try simp); (try intros))))) | (unfold takeUtc; (repeat' (first | rfl | (simp; done) | split | (rw [keyView_foldl]; (try simp); (try intros)) | (simp; rw [keyView_foldl]; (try simp); (try intros)))))
@[simp] theorem takeSpeedRef_key (a0 : State) (a1 : ℤ) (a2 : Bool) : keyView ((takeSpeedRef a0 a1 a2)) = keyView a0 := by
  first | (unfold takeSpeedRef; simp; done) | (unfold takeSpeedRef; simp only []; (repeat' (first | rfl | (simp; done) | split | (rw [keyView_foldl]; (try simp); (try intros)) | (simp; rw [keyView_foldl]; (try simp); (try intros))))) | (unfold takeSpeedRef; (repeat' (first | rfl | (simp; done) | split | (rw [keyView_foldl]; (try simp); (try intros)) | (simp; rw [keyView_foldl]; (try simp); (try intros)))))
@[simp] theorem takeDatum_key (a0 : State) (a1 : ℕ) : keyView ((takeDatum a0 a1)) = keyView a0 := by
  first | (unfold takeDatum; simp; done) | (unfold takeDatum; simp only []; (repeat' (first | rfl | (simp; done) | split | (rw [keyView_foldl]; (try simp); (try intros)) | (simp; rw [keyView_foldl]; (try simp); (try intros))))) | (unfold takeDatum; (repeat' (first | rfl | (simp; done) | split | (rw [keyView_foldl]; (try simp); (try intros)) | (simp; rw [keyView_foldl]; (try simp); (try intros)))))
@[simp] theorem systemAdopted_key (a0 : State) (a1 : ℕ) (a2 : List Byte) : keyView ((systemAdopted a0 a1 a2)) = keyView a0 := by
  first | (unfold systemAdopted; simp; done) | (unfold systemAdopted; simp only []; (repeat' (first | rfl | (simp; done) | split | (rw [keyView_foldl]; (try simp); (try intros)) | (simp; rw [keyView_foldl]; (try simp); (try intros))))) | (unfold systemAdopted; (repeat' (first | rfl | (simp; done) | split | (rw [keyView_foldl]; (try simp); (try intros)) | (simp; rw [keyView_foldl]; (try simp); (try intros)))))
@[simp] theorem mergeItem_key (a0 : State) (a1 : ℕ) (a2 : Item) : keyView ((mergeItem a0 a1 a2)) = keyView a0 := by
  first | (unfold mergeItem; simp; done) | (unfold mergeItem; simp only []; (repeat' (first | rfl | (simp; done) | split | (rw [keyView_foldl]; (try simp); (try intros)) | (simp; rw [keyView_foldl]; (try simp); (try intros)))))
@[simp] theorem differEvent_key (a0 : State) (a1 : ℕ) (a2 : ℕ) (a3 : ℕ) : keyView ((differEvent a0 a1 a2 a3)) = keyView a0 := by
  first | (unfold differEvent; simp; done) | (unfold differEvent; simp only []; (repeat' (first | rfl | (simp; done) | split | (rw [keyView_foldl]; (try simp); (try intros)) | (simp; rw [keyView_foldl]; (try simp); (try intros))))) | (unfold differEvent; (repeat' (first | rfl | (simp; done) | split | (rw [keyView_foldl]; (try simp); (try intros)) | (simp; rw [keyView_foldl]; (try simp); (try intros)))))
@[simp] theorem noteDiffering_key (a0 : State) (a1 : List ℕ) : keyView ((noteDiffering a0 a1)) = keyView a0 := by
  first | (unfold noteDiffering; simp; done) | (unfold noteDiffering; simp only []; (repeat' (first | rfl | (simp; done) | split | (rw [keyView_foldl]; (try simp); (try intros)) | (simp; rw [keyView_foldl]; (try simp); (try intros)))))
@[simp] theorem mirrorCopy_key (a0 : State) (a1 : ℕ) (a2 : MirrorRec) (a3 : MirrorRec) : keyView ((mirrorCopy a0 a1 a2 a3)) = keyView a0 := by
  first | (unfold mirrorCopy; simp; done) | (unfold mirrorCopy; simp only []; (repeat' (first | rfl | (simp; done) | split | (rw [keyView_foldl]; (try simp); (try intros)) | (simp; rw [keyView_foldl]; (try simp); (try intros))))) | (unfold mirrorCopy; (repeat' (first | rfl | (simp; done) | split | (rw [keyView_foldl]; (try simp); (try intros)) | (simp; rw [keyView_foldl]; (try simp); (try intros)))))
@[simp] theorem discardMirror_key (a0 : State) (a1 : MirrorRec) : keyView ((discardMirror a0 a1)) = keyView a0 := by
  first | (unfold discardMirror; simp; done) | (unfold discardMirror; simp only []; (repeat' (first | rfl | (simp; done) | split | (rw [keyView_foldl]; (try simp); (try intros)) | (simp; rw [keyView_foldl]; (try simp); (try intros))))) | (unfold discardMirror; (repeat' (first | rfl | (simp; done) | split | (rw [keyView_foldl]; (try simp); (try intros)) | (simp; rw [keyView_foldl]; (try simp); (try intros)))))
@[simp] theorem mirrorAgain_key (a0 : State) (a1 : ℕ) (a2 : MirrorRec) : keyView ((mirrorAgain a0 a1 a2)) = keyView a0 := by
  first | (unfold mirrorAgain; simp; done) | (unfold mirrorAgain; simp only []; (repeat' (first | rfl | (simp; done) | split | (rw [keyView_foldl]; (try simp); (try intros)) | (simp; rw [keyView_foldl]; (try simp); (try intros))))) | (unfold mirrorAgain; (repeat' (first | rfl | (simp; done) | split | (rw [keyView_foldl]; (try simp); (try intros)) | (simp; rw [keyView_foldl]; (try simp); (try intros)))))
@[simp] theorem mergeMirror_key (a0 : State) : keyView ((mergeMirror a0)) = keyView a0 := by
  first | (unfold mergeMirror; simp; done) | (unfold mergeMirror; simp only []; (repeat' (first | rfl | (simp; done) | split | (rw [keyView_foldl]; (try simp); (try intros)) | (simp; rw [keyView_foldl]; (try simp); (try intros)))))
@[simp] theorem mergeSample_key (a0 : State) (a1 : List ℕ) (a2 : ℕ) : keyView ((mergeSample a0 a1 a2)) = keyView a0 := by
  first | (unfold mergeSample; simp; done) | (unfold mergeSample; simp only []; (repeat' (first | rfl | (simp; done) | split | (rw [keyView_foldl]; (try simp); (try intros)) | (simp; rw [keyView_foldl]; (try simp); (try intros)))))
@[simp] theorem takeDi_key (a0 : State) (a1 : Vector Sample 2) : keyView ((takeDi a0 a1).2.2) = keyView a0 := by
  unfold takeDi
  exact keyView_foldl3 _ (fun a c => by dsimp only; rfl) _ _
@[simp] theorem accumulate_key (a0 : State) (a1 : ℕ) (a2 : ℕ) (a3 : List Item) : keyView ((accumulate a0 a1 a2 a3)) = keyView a0 := by
  first | (unfold accumulate; simp; done) | (unfold accumulate; simp only []; (repeat' (first | rfl | (simp; done) | split | (rw [keyView_foldl]; (try simp); (try intros)) | (simp; rw [keyView_foldl]; (try simp); (try intros)))))
@[simp] theorem queueOne_key (a0 : State) (a1 : ℕ) : keyView ((queueOne a0 a1)) = keyView a0 := by
  first | (unfold queueOne; simp; done) | (unfold queueOne; simp only []; (repeat' (first | rfl | (simp; done) | split | (rw [keyView_foldl]; (try simp); (try intros)) | (simp; rw [keyView_foldl]; (try simp); (try intros)))))
@[simp] theorem sendMirror_key (a0 : State) : keyView ((sendMirror a0)) = keyView a0 := by
  first | (unfold sendMirror; simp; done) | (unfold sendMirror; simp only []; (repeat' (first | rfl | (simp; done) | split | (rw [keyView_foldl]; (try simp); (try intros)) | (simp; rw [keyView_foldl]; (try simp); (try intros)))))
@[simp] theorem eachStall_key (a0 : State) (a1 : ℕ → Stall → Stall) : keyView ((eachStall a0 a1)) = keyView a0 := by
  first | (unfold eachStall; simp; done) | (unfold eachStall; simp only []; (repeat' (first | rfl | (simp; done) | split | (rw [keyView_foldl]; (try simp); (try intros)) | (simp; rw [keyView_foldl]; (try simp); (try intros)))))
@[simp] theorem scheduleCrossing_key (a0 : State) (a1 : ℕ) (a2 : ℕ) (a3 : List Item) : keyView ((scheduleCrossing a0 a1 a2 a3)) = keyView a0 := by
  first | (unfold scheduleCrossing; simp; done) | (unfold scheduleCrossing; simp only []; (repeat' (first | rfl | (simp; done) | split | (rw [keyView_foldl]; (try simp); (try intros)) | (simp; rw [keyView_foldl]; (try simp); (try intros)))))
theorem decideOne_key (a : ReqRun) (r : Request) : keyView (decideOne a r).s = keyView a.s := by
  unfold decideOne; simp only []; (repeat' (first | rfl | (simp; done) | split))
@[simp] theorem decideRequests_key (a0 : State) : keyView ((decideRequests a0)) = keyView a0 := by
  have h : ∀ (l : List Request) (a : ReqRun), keyView (l.foldl decideOne a).s = keyView a.s := by
    intro l; induction l with
    | nil => intro a; rfl
    | cons x l ih => intro a; rw [List.foldl_cons, ih, decideOne_key]
  unfold decideRequests
  exact (h _ _)
@[simp] theorem startActivation_key (a0 : State) (a1 : ℕ) (a2 : Queued) (a3 : List Queued) : keyView ((startActivation a0 a1 a2 a3)) = keyView a0 := by
  delta startActivation
  dsimp only
  split
  · rw [updRun_key]
  · rw [perfCount_key, setStall_key, updRun_key, updRun_key]
@[simp] theorem commitStall_key (a0 : State) (a1 : List ℕ) (a2 : ℕ) : keyView ((commitStall a0 a1 a2)) = keyView a0 := by
  delta commitStall
  split
  · split
    · rw [updStall_key]
      simp only [keyView]
    · rfl
  · rfl
@[simp] theorem eraseRetain_key (a0 : State) (a1 : ℕ) : keyView ((eraseRetain a0 a1)) = keyView a0 := by
  first | (unfold eraseRetain; simp; done) | (unfold eraseRetain; simp only []; (repeat' (first | rfl | (simp; done) | split | (rw [keyView_foldl]; (try simp); (try intros)) | (simp; rw [keyView_foldl]; (try simp); (try intros)))))
@[simp] theorem restoreRetain_key (a0 : State) (a1 : ℕ) : keyView ((restoreRetain a0 a1)) = keyView a0 := by
  first | (unfold restoreRetain; simp; done) | (unfold restoreRetain; simp only []; (repeat' (first | rfl | (simp; done) | split | (rw [keyView_foldl]; (try simp); (try intros)) | (simp; rw [keyView_foldl]; (try simp); (try intros)))))
@[simp] theorem freshField_key (a0 : State) : keyView ((freshField a0)) = keyView a0 := by
  first | (unfold freshField; simp; done) | (unfold freshField; simp only []; (repeat' (first | rfl | (simp; done) | split | (rw [keyView_foldl]; (try simp); (try intros)) | (simp; rw [keyView_foldl]; (try simp); (try intros)))))
@[simp] theorem writePart_key (a0 : State) (a1 : ℕ × ℕ × ℕ) (a2 : Bool) : keyView ((writePart a0 a1 a2)) = keyView a0 := by
  first | (unfold writePart; simp; done) | (unfold writePart; simp only []; (repeat' (first | rfl | (simp; done) | split | (rw [keyView_foldl]; (try simp); (try intros)) | (simp; rw [keyView_foldl]; (try simp); (try intros))))) | (unfold writePart; (repeat' (first | rfl | (simp; done) | split | (rw [keyView_foldl]; (try simp); (try intros)) | (simp; rw [keyView_foldl]; (try simp); (try intros)))))
@[simp] theorem storeAll_key (a0 : State) : keyView ((storeAll a0)) = keyView a0 := by
  unfold storeAll
  exact keyView_foldl _ (fun s p => by simp) _ _
@[simp] theorem flushClean_key (a0 : State) : keyView ((flushClean a0)) = keyView a0 := by
  first | (unfold flushClean; simp; done) | (unfold flushClean; simp only []; (repeat' (first | rfl | (simp; done) | split | (rw [keyView_foldl]; (try simp); (try intros)) | (simp; rw [keyView_foldl]; (try simp); (try intros)))))
@[simp] theorem outputCommand_key (a0 : State) : keyView ((outputCommand a0)) = keyView a0 := by
  first | (unfold outputCommand; simp; done) | (unfold outputCommand; simp only []; (repeat' (first | rfl | (simp; done) | split | (rw [keyView_foldl]; (try simp); (try intros)) | (simp; rw [keyView_foldl]; (try simp); (try intros)))))
@[simp] theorem loadEvent_key (a0 : State) (a1 : ℕ) (a2 : Loading) (a3 : ℕ) (a4 : ℕ) : keyView ((loadEvent a0 a1 a2 a3 a4)) = keyView a0 := by
  first | (unfold loadEvent; simp; done) | (unfold loadEvent; simp only []; (repeat' (first | rfl | (simp; done) | split | (rw [keyView_foldl]; (try simp); (try intros)) | (simp; rw [keyView_foldl]; (try simp); (try intros)))))
@[simp] theorem endRuns_key (a0 : State) (a1 : ℕ) : keyView ((endRuns a0 a1)) = keyView a0 := by
  first | (unfold endRuns; simp; done) | (unfold endRuns; simp only []; (repeat' (first | rfl | (simp; done) | split | (rw [keyView_foldl]; (try simp); (try intros)) | (simp; rw [keyView_foldl]; (try simp); (try intros))))) | (unfold endRuns; (repeat' (first | rfl | (simp; done) | split | (rw [keyView_foldl]; (try simp); (try intros)) | (simp; rw [keyView_foldl]; (try simp); (try intros)))))
@[simp] theorem dropActivity_key (a0 : State) (a1 : ℕ) : keyView ((dropActivity a0 a1)) = keyView a0 := by
  first | (unfold dropActivity; simp; done) | (unfold dropActivity; simp only []; (repeat' (first | rfl | (simp; done) | split | (rw [keyView_foldl]; (try simp); (try intros)) | (simp; rw [keyView_foldl]; (try simp); (try intros)))))
@[simp] theorem finishUnload_key (a0 : State) (a1 : ℕ) (a2 : Stall) : keyView ((finishUnload a0 a1 a2)) = keyView a0 := by
  first | (unfold finishUnload; simp; done) | (unfold finishUnload; simp only []; (repeat' (first | rfl | (simp; done) | split | (rw [keyView_foldl]; (try simp); (try intros)) | (simp; rw [keyView_foldl]; (try simp); (try intros)))))
@[simp] theorem autoRestart_key (a0 : State) (a1 : ℕ) : keyView ((autoRestart a0 a1)) = keyView a0 := by
  first | (unfold autoRestart; simp; done) | (unfold autoRestart; simp only []; (repeat' (first | rfl | (simp; done) | split | (rw [keyView_foldl]; (try simp); (try intros)) | (simp; rw [keyView_foldl]; (try simp); (try intros)))))
@[simp] theorem utcBoundary_key (a0 : State) : keyView ((utcBoundary a0)) = keyView a0 := by
  first | (unfold utcBoundary; simp; done) | (unfold utcBoundary; simp only []; (repeat' (first | rfl | (simp; done) | split | (rw [keyView_foldl]; (try simp); (try intros)) | (simp; rw [keyView_foldl]; (try simp); (try intros)))))
@[simp] theorem countersAfter_key (a0 : State) : keyView ((countersAfter a0)) = keyView a0 := by
  first | (unfold countersAfter; simp; done) | (unfold countersAfter; simp only []; (repeat' (first | rfl | (simp; done) | split | (rw [keyView_foldl]; (try simp); (try intros)) | (simp; rw [keyView_foldl]; (try simp); (try intros))))) | (unfold countersAfter; (repeat' (first | rfl | (simp; done) | split | (rw [keyView_foldl]; (try simp); (try intros)) | (simp; rw [keyView_foldl]; (try simp); (try intros)))))
@[simp] theorem resumeBoundary_key (a0 : State) : keyView ((resumeBoundary a0)) = keyView a0 := by
  first | (unfold resumeBoundary; simp; done) | (unfold resumeBoundary; simp only []; (repeat' (first | rfl | (simp; done) | split | (rw [keyView_foldl]; (try simp); (try intros)) | (simp; rw [keyView_foldl]; (try simp); (try intros)))))
@[simp] theorem linksBoundary_key (a0 : State) : keyView ((linksBoundary a0)) = keyView a0 := by
  first | (unfold linksBoundary; simp; done) | (unfold linksBoundary; simp only []; (repeat' (first | rfl | (simp; done) | split | (rw [keyView_foldl]; (try simp); (try intros)) | (simp; rw [keyView_foldl]; (try simp); (try intros)))))
@[simp] theorem completeStart_key (a0 : State) : keyView ((completeStart a0)) = keyView a0 := by
  first | (unfold completeStart; simp; done) | (unfold completeStart; simp only []; (repeat' (first | rfl | (simp; done) | split | (rw [keyView_foldl]; (try simp); (try intros)) | (simp; rw [keyView_foldl]; (try simp); (try intros)))))
@[simp] theorem storeStalls_key (a0 : State) : keyView ((storeStalls a0)) = keyView a0 := by
  first | (unfold storeStalls; simp; done) | (unfold storeStalls; simp only []; (repeat' (first | rfl | (simp; done) | split | (rw [keyView_foldl]; (try simp); (try intros)) | (simp; rw [keyView_foldl]; (try simp); (try intros)))))
@[simp] theorem restartIo_key (a0 : State) (a1 : ℕ) : keyView ((restartIo a0 a1)) = keyView a0 := by
  first | (unfold restartIo; simp; done) | (unfold restartIo; simp only []; (repeat' (first | rfl | (simp; done) | split | (rw [keyView_foldl]; (try simp); (try intros)) | (simp; rw [keyView_foldl]; (try simp); (try intros)))))
@[simp] theorem closeService_key (a0 : State) : keyView ((closeService a0)) = keyView a0 := by
  first | (unfold closeService; simp; done) | (unfold closeService; simp only []; (repeat' (first | rfl | (simp; done) | split | (rw [keyView_foldl]; (try simp); (try intros)) | (simp; rw [keyView_foldl]; (try simp); (try intros)))))
@[simp] theorem dropHubParts_key (a0 : State) (a1 : ℕ) : keyView ((dropHubParts a0 a1)) = keyView a0 := by
  first | (unfold dropHubParts; simp; done) | (unfold dropHubParts; simp only []; (repeat' (first | rfl | (simp; done) | split | (rw [keyView_foldl]; (try simp); (try intros)) | (simp; rw [keyView_foldl]; (try simp); (try intros)))))
@[simp] theorem takeFromPeer_key (a0 : State) (a1 : ℕ) : keyView ((takeFromPeer a0 a1)) = keyView a0 := by
  first | (unfold takeFromPeer; simp; done) | (unfold takeFromPeer; simp only []; (repeat' (first | rfl | (simp; done) | split | (rw [keyView_foldl]; (try simp); (try intros)) | (simp; rw [keyView_foldl]; (try simp); (try intros)))))
@[simp] theorem updEnd_key (a0 : State) (a1 : ℕ) (a2 : ILink → ILink) : keyView ((updEnd a0 a1 a2)) = keyView a0 := by
  first | (unfold updEnd; simp; done) | (unfold updEnd; simp only []; (repeat' (first | rfl | (simp; done) | split | (rw [keyView_foldl]; (try simp); (try intros)) | (simp; rw [keyView_foldl]; (try simp); (try intros)))))
@[simp] theorem emitDie_key (a0 : State) (a1 : ℕ) (a2 : ℕ) : keyView ((emitDie a0 a1 a2)) = keyView a0 := by
  first | (unfold emitDie; simp; done) | (unfold emitDie; simp only []; (repeat' (first | rfl | (simp; done) | split | (rw [keyView_foldl]; (try simp); (try intros)) | (simp; rw [keyView_foldl]; (try simp); (try intros))))) | (unfold emitDie; (repeat' (first | rfl | (simp; done) | split | (rw [keyView_foldl]; (try simp); (try intros)) | (simp; rw [keyView_foldl]; (try simp); (try intros)))))
@[simp] theorem emitEnd_key (a0 : State) (a1 : ℕ) (a2 : ℕ) : keyView ((emitEnd a0 a1 a2)) = keyView a0 := by
  first | (unfold emitEnd; simp; done) | (unfold emitEnd; simp only []; (repeat' (first | rfl | (simp; done) | split | (rw [keyView_foldl]; (try simp); (try intros)) | (simp; rw [keyView_foldl]; (try simp); (try intros)))))
@[simp] theorem countDiscard_key (a0 : State) (a1 : ℕ) (a2 : Bool) : keyView ((countDiscard a0 a1 a2)) = keyView a0 := by
  first | (unfold countDiscard; simp; done) | (unfold countDiscard; simp only []; (repeat' (first | rfl | (simp; done) | split | (rw [keyView_foldl]; (try simp); (try intros)) | (simp; rw [keyView_foldl]; (try simp); (try intros)))))
@[simp] theorem flushMark_key (a0 : State) : keyView ((flushMark a0)) = keyView a0 := by
  first | (unfold flushMark; simp; done) | (unfold flushMark; simp only []; (repeat' (first | rfl | (simp; done) | split | (rw [keyView_foldl]; (try simp); (try intros)) | (simp; rw [keyView_foldl]; (try simp); (try intros)))))
@[simp] theorem copyArmed_key (a0 : State) (a1 : StartReport) : keyView ((copyArmed a0 a1).1) = keyView a0 := by
  first | (unfold copyArmed; simp; done) | (unfold copyArmed; simp only []; (repeat' (first | rfl | (simp; done) | split | (rw [keyView_foldl]; (try simp); (try intros)) | (simp; rw [keyView_foldl]; (try simp); (try intros)))))
@[simp] theorem countTrial_key (a0 : State) : keyView ((countTrial a0).1) = keyView a0 := by
  first | (unfold countTrial; simp; done) | (unfold countTrial; simp only []; (repeat' (first | rfl | (simp; done) | split | (rw [keyView_foldl]; (try simp); (try intros)) | (simp; rw [keyView_foldl]; (try simp); (try intros)))))
@[simp] theorem bankStage_key (a0 : State) (a1 : StartReport) : keyView ((bankStage a0 a1).1) = keyView a0 := by
  first | (unfold bankStage; simp; done) | (unfold bankStage; simp only []; (repeat' (first | rfl | (simp; done) | split | (rw [keyView_foldl]; (try simp); (try intros)) | (simp; rw [keyView_foldl]; (try simp); (try intros)))))
@[simp] theorem checkCleanStop_key (a0 : State) (a1 : ℕ) : keyView ((checkCleanStop a0 a1)) = keyView a0 := by
  first | (unfold checkCleanStop; simp; done) | (unfold checkCleanStop; simp only []; (repeat' (first | rfl | (simp; done) | split | (rw [keyView_foldl]; (try simp); (try intros)) | (simp; rw [keyView_foldl]; (try simp); (try intros)))))
@[simp] theorem eraseTorn_key (a0 : State) (a1 : ℕ) (a2 : ℕ) : keyView ((eraseTorn a0 a1 a2)) = keyView a0 := by
  first | (unfold eraseTorn; simp; done) | (unfold eraseTorn; simp only []; (repeat' (first | rfl | (simp; done) | split | (rw [keyView_foldl]; (try simp); (try intros)) | (simp; rw [keyView_foldl]; (try simp); (try intros)))))
@[simp] theorem hubStage_key (a0 : State) (a1 : StartReport) (a2 : Early) : keyView ((hubStage a0 a1 a2)) = keyView a0 := by
  first | (unfold hubStage; simp; done) | (unfold hubStage; simp only []; (repeat' (first | rfl | (simp; done) | split | (rw [keyView_foldl]; (try simp); (try intros)) | (simp; rw [keyView_foldl]; (try simp); (try intros)))))
@[simp] theorem drawKey_key (a0 : State) : keyView ((drawKey a0).2) = keyView a0 := by
  first | (unfold drawKey; simp; done) | (unfold drawKey; simp only []; (repeat' (first | rfl | (simp; done) | split | (rw [keyView_foldl]; (try simp); (try intros)) | (simp; rw [keyView_foldl]; (try simp); (try intros))))) | (unfold drawKey; (repeat' (first | rfl | (simp; done) | split | (rw [keyView_foldl]; (try simp); (try intros)) | (simp; rw [keyView_foldl]; (try simp); (try intros)))))
@[simp] theorem drawKeys_key (a0 : State) : keyView ((drawKeys a0)) = keyView a0 := by
  first | (unfold drawKeys; simp; done) | (unfold drawKeys; simp only []; (repeat' (first | rfl | (simp; done) | split | (rw [keyView_foldl]; (try simp); (try intros)) | (simp; rw [keyView_foldl]; (try simp); (try intros)))))
@[simp] theorem failTest_key (a0 : State) (a1 : ℕ) (a2 : ℕ) : keyView ((failTest a0 a1 a2)) = keyView a0 := by
  first | (unfold failTest; simp; done) | (unfold failTest; simp only []; (repeat' (first | rfl | (simp; done) | split | (rw [keyView_foldl]; (try simp); (try intros)) | (simp; rw [keyView_foldl]; (try simp); (try intros)))))
@[simp] theorem testStage_key (a0 : State) (a1 : StartReport) : keyView ((testStage a0 a1)) = keyView a0 := by
  first | (unfold testStage; simp; done) | (unfold testStage; simp only []; (repeat' (first | rfl | (simp; done) | split | (rw [keyView_foldl]; (try simp); (try intros)) | (simp; rw [keyView_foldl]; (try simp); (try intros)))))
@[simp] theorem holdStart_key (a0 : State) : keyView ((holdStart a0)) = keyView a0 := by
  first | (unfold holdStart; simp; done) | (unfold holdStart; simp only []; (repeat' (first | rfl | (simp; done) | split | (rw [keyView_foldl]; (try simp); (try intros)) | (simp; rw [keyView_foldl]; (try simp); (try intros)))))
@[simp] theorem defaultStore_key (a0 : State) (a1 : ℕ → Bool) : keyView ((defaultStore a0 a1)) = keyView a0 := by
  first | (unfold defaultStore; simp; done) | (unfold defaultStore; simp only []; (repeat' (first | rfl | (simp; done) | split | (rw [keyView_foldl]; (try simp); (try intros)) | (simp; rw [keyView_foldl]; (try simp); (try intros)))))
@[simp] theorem setResetStage_key (a0 : State) : keyView ((setResetStage a0)) = keyView a0 := by
  first | (unfold setResetStage; simp; done) | (unfold setResetStage; simp only []; (repeat' (first | rfl | (simp; done) | split | (rw [keyView_foldl]; (try simp); (try intros)) | (simp; rw [keyView_foldl]; (try simp); (try intros)))))
@[simp] theorem migrate_key (a0 : State) (a1 : ℕ) (a2 : List (ℕ × ℕ)) : keyView ((migrate a0 a1 a2)) = keyView a0 := by
  first | (unfold migrate; simp; done) | (unfold migrate; simp only []; (repeat' (first | rfl | (simp; done) | split | (rw [keyView_foldl]; (try simp); (try intros)) | (simp; rw [keyView_foldl]; (try simp); (try intros)))))
@[simp] theorem rebuild_key (a0 : State) : keyView ((rebuild a0)) = keyView a0 := by
  first | (unfold rebuild; simp; done) | (unfold rebuild; simp only []; (repeat' (first | rfl | (simp; done) | split | (rw [keyView_foldl]; (try simp); (try intros)) | (simp; rw [keyView_foldl]; (try simp); (try intros)))))
@[simp] theorem migrationStage_key (a0 : State) (a1 : StartReport) : keyView ((migrationStage a0 a1)) = keyView a0 := by
  first | (unfold migrationStage; simp; done) | (unfold migrationStage; simp only []; (repeat' (first | rfl | (simp; done) | split | (rw [keyView_foldl]; (try simp); (try intros)) | (simp; rw [keyView_foldl]; (try simp); (try intros)))))
@[simp] theorem loadSetting_key (a0 : State) (a1 : ℕ) (a2 : ℕ) : keyView ((loadSetting a0 a1 a2)) = keyView a0 := by
  first | (unfold loadSetting; simp; done) | (unfold loadSetting; simp only []; (repeat' (first | rfl | (simp; done) | split | (rw [keyView_foldl]; (try simp); (try intros)) | (simp; rw [keyView_foldl]; (try simp); (try intros)))))
@[simp] theorem startSafety_key (a0 : State) : keyView ((startSafety a0)) = keyView a0 := by
  unfold startSafety
  refine (keyView_foldl _ (fun s p => ?_) _ _).trans ?_
  · split <;> simp
  · simp
@[simp] theorem restoreEvent_key (a0 : State) (a1 : ℕ) (a2 : ℕ) (a3 : ℕ) : keyView ((restoreEvent a0 a1 a2 a3)) = keyView a0 := by
  first | (unfold restoreEvent; simp; done) | (unfold restoreEvent; simp only []; (repeat' (first | rfl | (simp; done) | split | (rw [keyView_foldl]; (try simp); (try intros)) | (simp; rw [keyView_foldl]; (try simp); (try intros)))))
@[simp] theorem forgetStall_key (a0 : State) (a1 : ℕ) : keyView ((forgetStall a0 a1)) = keyView a0 := by
  first | (unfold forgetStall; simp; done) | (unfold forgetStall; simp only []; (repeat' (first | rfl | (simp; done) | split | (rw [keyView_foldl]; (try simp); (try intros)) | (simp; rw [keyView_foldl]; (try simp); (try intros)))))
@[simp] theorem restoreDecl_key (a0 : State) (a1 : Decl) : keyView ((restoreDecl a0 a1)) = keyView a0 := by
  first | (unfold restoreDecl; simp; done) | (unfold restoreDecl; simp only []; (repeat' (first | rfl | (simp; done) | split | (rw [keyView_foldl]; (try simp); (try intros)) | (simp; rw [keyView_foldl]; (try simp); (try intros)))))
@[simp] theorem restoreRun_key (a0 : State) (a1 : ℕ) (a2 : ℕ) (a3 : ℕ) : keyView ((restoreRun a0 a1 a2 a3)) = keyView a0 := by
  first | (unfold restoreRun; simp; done) | (unfold restoreRun; simp only []; (repeat' (first | rfl | (simp; done) | split | (rw [keyView_foldl]; (try simp); (try intros)) | (simp; rw [keyView_foldl]; (try simp); (try intros)))))
@[simp] theorem restoreStall_key (a0 : State) (a1 : ℕ) (a2 : ℕ) (a3 : ℕ) (a4 : ℕ) : keyView ((restoreStall a0 a1 a2 a3 a4)) = keyView a0 := by
  first | (unfold restoreStall; simp; done) | (unfold restoreStall; simp only []; (repeat' (first | rfl | (simp; done) | split | (rw [keyView_foldl]; (try simp); (try intros)) | (simp; rw [keyView_foldl]; (try simp); (try intros)))))
@[simp] theorem startLocks_key (a0 : State) : keyView ((startLocks a0)) = keyView a0 := by
  first | (unfold startLocks; simp; done) | (unfold startLocks; simp only []; (repeat' (first | rfl | (simp; done) | split | (rw [keyView_foldl]; (try simp); (try intros)) | (simp; rw [keyView_foldl]; (try simp); (try intros)))))
@[simp] theorem startTwin_key (a0 : State) : keyView ((startTwin a0)) = keyView a0 := by
  first | (unfold startTwin; simp; done) | (unfold startTwin; simp only []; (repeat' (first | rfl | (simp; done) | split | (rw [keyView_foldl]; (try simp); (try intros)) | (simp; rw [keyView_foldl]; (try simp); (try intros)))))
@[simp] theorem openPorts_key (a0 : State) : keyView ((openPorts a0)) = keyView a0 := by
  first | (unfold openPorts; simp; done) | (unfold openPorts; simp only []; (repeat' (first | rfl | (simp; done) | split | (rw [keyView_foldl]; (try simp); (try intros)) | (simp; rw [keyView_foldl]; (try simp); (try intros)))))

end Sys2Proof.Machine
end

