-- ==== Sys2Proof/Laws/State.lean ====
section
/-!
SUPPORT. Every field of the state that a named update of one part leaves as it is, true by unfolding the record update.
-/

namespace Sys2Proof.Machine

variable (s : State) (e : Entry) (g : Egress) (r : Record) (p : Resp) (st : Stall) (fc : Context → Context) (fs : Stall → Stall)
  (fl : Lane → Lane) (fh : HubDie → HubDie) (fv : Voter → Voter) (fr : CoreRun → CoreRun) (fd : Shed → Shed)
  (i j k l h v n t src code sev stall ctx idx sub pkg : Nat) (data : List Byte) (own : Bool)

@[simp] theorem freeNext_agreed : (freeNext s).agreed = s.agreed := rfl
@[simp] theorem freeNext_cyc : (freeNext s).cyc = s.cyc := rfl
@[simp] theorem freeNext_lanes : (freeNext s).lanes = s.lanes := rfl
@[simp] theorem freeNext_agree : (freeNext s).agree = s.agree := rfl
@[simp] theorem freeNext_ilinks : (freeNext s).ilinks = s.ilinks := rfl
@[simp] theorem freeNext_hubs : (freeNext s).hubs = s.hubs := rfl
@[simp] theorem freeNext_hubDiff : (freeNext s).hubDiff = s.hubDiff := rfl
@[simp] theorem freeNext_hubDiffRun : (freeNext s).hubDiffRun = s.hubDiffRun := rfl
@[simp] theorem freeNext_hubDiffDone : (freeNext s).hubDiffDone = s.hubDiffDone := rfl
@[simp] theorem freeNext_recd : (freeNext s).recd = s.recd := rfl
@[simp] theorem freeNext_supply : (freeNext s).supply = s.supply := rfl
@[simp] theorem freeNext_shedHub : (freeNext s).shedHub = s.shedHub := rfl
@[simp] theorem freeNext_bb : (freeNext s).bb = s.bb := rfl
@[simp] theorem freeNext_con : (freeNext s).con = s.con := rfl
@[simp] theorem freeNext_twin : (freeNext s).twin = s.twin := rfl
@[simp] theorem freeNext_br : (freeNext s).br = s.br := rfl
@[simp] theorem freeNext_field : (freeNext s).field = s.field := rfl
@[simp] theorem freeNext_tacho : (freeNext s).tacho = s.tacho := rfl
@[simp] theorem freeNext_saf : (freeNext s).saf = s.saf := rfl
@[simp] theorem freeNext_upd : (freeNext s).upd = s.upd := rfl
@[simp] theorem freeNext_perf : (freeNext s).perf = s.perf := rfl
@[simp] theorem freeNext_cnt : (freeNext s).cnt = s.cnt := rfl
@[simp] theorem freeNext_egress : (freeNext s).egress = s.egress := rfl
@[simp] theorem freeNext_pending : (freeNext s).pending = s.pending := rfl
@[simp] theorem freeNext_sup_dict : (freeNext s).sup.dict = s.sup.dict := rfl
@[simp] theorem freeNext_sup_stalls : (freeNext s).sup.stalls = s.sup.stalls := rfl
@[simp] theorem freeNext_sup_ctxs : (freeNext s).sup.ctxs = s.sup.ctxs := rfl
@[simp] theorem freeNext_sup_reqs : (freeNext s).sup.reqs = s.sup.reqs := rfl
@[simp] theorem freeNext_sup_resps : (freeNext s).sup.resps = s.sup.resps := rfl
@[simp] theorem freeNext_sup_mode : (freeNext s).sup.mode = s.sup.mode := rfl
@[simp] theorem freeNext_sup_modePending : (freeNext s).sup.modePending = s.sup.modePending := rfl
@[simp] theorem freeNext_sup_adopted : (freeNext s).sup.adopted = s.sup.adopted := rfl
@[simp] theorem freeNext_sup_samples : (freeNext s).sup.samples = s.sup.samples := rfl
@[simp] theorem freeNext_sup_di : (freeNext s).sup.di = s.sup.di := rfl
@[simp] theorem freeNext_sup_posted : (freeNext s).sup.posted = s.sup.posted := rfl
@[simp] theorem freeNext_sup_outs : (freeNext s).sup.outs = s.sup.outs := rfl
@[simp] theorem freeNext_sup_outsPrev : (freeNext s).sup.outsPrev = s.sup.outsPrev := rfl
@[simp] theorem freeNext_sup_forceDi : (freeNext s).sup.forceDi = s.sup.forceDi := rfl
@[simp] theorem freeNext_sup_forceDo : (freeNext s).sup.forceDo = s.sup.forceDo := rfl
@[simp] theorem freeNext_sup_forceAi : (freeNext s).sup.forceAi = s.sup.forceAi := rfl
@[simp] theorem freeNext_sup_doLast : (freeNext s).sup.doLast = s.sup.doLast := rfl
@[simp] theorem freeNext_sup_cmdSeq : (freeNext s).sup.cmdSeq = s.sup.cmdSeq := rfl
@[simp] theorem freeNext_sup_safReqs : (freeNext s).sup.safReqs = s.sup.safReqs := rfl
@[simp] theorem freeNext_sup_timedDo : (freeNext s).sup.timedDo = s.sup.timedDo := rfl
@[simp] theorem freeNext_sup_withdraw : (freeNext s).sup.withdraw = s.sup.withdraw := rfl
@[simp] theorem freeNext_sup_retainSeq : (freeNext s).sup.retainSeq = s.sup.retainSeq := rfl
@[simp] theorem freeNext_sup_tp : (freeNext s).sup.tp = s.sup.tp := rfl
@[simp] theorem freeNext_sup_triggers : (freeNext s).sup.triggers = s.sup.triggers := rfl
@[simp] theorem freeNext_sup_trigGen : (freeNext s).sup.trigGen = s.sup.trigGen := rfl
@[simp] theorem freeNext_sup_en : (freeNext s).sup.en = s.sup.en := rfl
@[simp] theorem freeNext_sup_groups : (freeNext s).sup.groups = s.sup.groups := rfl
@[simp] theorem freeNext_sup_chg : (freeNext s).sup.chg = s.sup.chg := rfl
@[simp] theorem freeNext_sup_chgCount : (freeNext s).sup.chgCount = s.sup.chgCount := rfl
@[simp] theorem freeNext_sup_arbArm : (freeNext s).sup.arbArm = s.sup.arbArm := rfl
@[simp] theorem freeNext_sup_arbTack : (freeNext s).sup.arbTack = s.sup.arbTack := rfl
@[simp] theorem freeNext_sup_seqs : (freeNext s).sup.seqs = s.sup.seqs := rfl
@[simp] theorem freeNext_sup_buckets : (freeNext s).sup.buckets = s.sup.buckets := rfl
@[simp] theorem updCtx_agreed : (updCtx s i fc).agreed = s.agreed := rfl
@[simp] theorem updCtx_cyc : (updCtx s i fc).cyc = s.cyc := rfl
@[simp] theorem updCtx_lanes : (updCtx s i fc).lanes = s.lanes := rfl
@[simp] theorem updCtx_agree : (updCtx s i fc).agree = s.agree := rfl
@[simp] theorem updCtx_ilinks : (updCtx s i fc).ilinks = s.ilinks := rfl
@[simp] theorem updCtx_hubs : (updCtx s i fc).hubs = s.hubs := rfl
@[simp] theorem updCtx_hubDiff : (updCtx s i fc).hubDiff = s.hubDiff := rfl
@[simp] theorem updCtx_hubDiffRun : (updCtx s i fc).hubDiffRun = s.hubDiffRun := rfl
@[simp] theorem updCtx_hubDiffDone : (updCtx s i fc).hubDiffDone = s.hubDiffDone := rfl
@[simp] theorem updCtx_recd : (updCtx s i fc).recd = s.recd := rfl
@[simp] theorem updCtx_supply : (updCtx s i fc).supply = s.supply := rfl
@[simp] theorem updCtx_shedHub : (updCtx s i fc).shedHub = s.shedHub := rfl
@[simp] theorem updCtx_bb : (updCtx s i fc).bb = s.bb := rfl
@[simp] theorem updCtx_con : (updCtx s i fc).con = s.con := rfl
@[simp] theorem updCtx_twin : (updCtx s i fc).twin = s.twin := rfl
@[simp] theorem updCtx_br : (updCtx s i fc).br = s.br := rfl
@[simp] theorem updCtx_field : (updCtx s i fc).field = s.field := rfl
@[simp] theorem updCtx_tacho : (updCtx s i fc).tacho = s.tacho := rfl
@[simp] theorem updCtx_saf : (updCtx s i fc).saf = s.saf := rfl
@[simp] theorem updCtx_upd : (updCtx s i fc).upd = s.upd := rfl
@[simp] theorem updCtx_perf : (updCtx s i fc).perf = s.perf := rfl
@[simp] theorem updCtx_st : (updCtx s i fc).st = s.st := rfl
@[simp] theorem updCtx_cnt : (updCtx s i fc).cnt = s.cnt := rfl
@[simp] theorem updCtx_egress : (updCtx s i fc).egress = s.egress := rfl
@[simp] theorem updCtx_pending : (updCtx s i fc).pending = s.pending := rfl
@[simp] theorem updCtx_sup_dict : (updCtx s i fc).sup.dict = s.sup.dict := rfl
@[simp] theorem updCtx_sup_stalls : (updCtx s i fc).sup.stalls = s.sup.stalls := rfl
@[simp] theorem updCtx_sup_reqs : (updCtx s i fc).sup.reqs = s.sup.reqs := rfl
@[simp] theorem updCtx_sup_resps : (updCtx s i fc).sup.resps = s.sup.resps := rfl
@[simp] theorem updCtx_sup_mode : (updCtx s i fc).sup.mode = s.sup.mode := rfl
@[simp] theorem updCtx_sup_modePending : (updCtx s i fc).sup.modePending = s.sup.modePending := rfl
@[simp] theorem updCtx_sup_adopted : (updCtx s i fc).sup.adopted = s.sup.adopted := rfl
@[simp] theorem updCtx_sup_samples : (updCtx s i fc).sup.samples = s.sup.samples := rfl
@[simp] theorem updCtx_sup_di : (updCtx s i fc).sup.di = s.sup.di := rfl
@[simp] theorem updCtx_sup_posted : (updCtx s i fc).sup.posted = s.sup.posted := rfl
@[simp] theorem updCtx_sup_outs : (updCtx s i fc).sup.outs = s.sup.outs := rfl
@[simp] theorem updCtx_sup_outsPrev : (updCtx s i fc).sup.outsPrev = s.sup.outsPrev := rfl
@[simp] theorem updCtx_sup_forceDi : (updCtx s i fc).sup.forceDi = s.sup.forceDi := rfl
@[simp] theorem updCtx_sup_forceDo : (updCtx s i fc).sup.forceDo = s.sup.forceDo := rfl
@[simp] theorem updCtx_sup_forceAi : (updCtx s i fc).sup.forceAi = s.sup.forceAi := rfl
@[simp] theorem updCtx_sup_doLast : (updCtx s i fc).sup.doLast = s.sup.doLast := rfl
@[simp] theorem updCtx_sup_cmdSeq : (updCtx s i fc).sup.cmdSeq = s.sup.cmdSeq := rfl
@[simp] theorem updCtx_sup_safReqs : (updCtx s i fc).sup.safReqs = s.sup.safReqs := rfl
@[simp] theorem updCtx_sup_timedDo : (updCtx s i fc).sup.timedDo = s.sup.timedDo := rfl
@[simp] theorem updCtx_sup_withdraw : (updCtx s i fc).sup.withdraw = s.sup.withdraw := rfl
@[simp] theorem updCtx_sup_retainSeq : (updCtx s i fc).sup.retainSeq = s.sup.retainSeq := rfl
@[simp] theorem updCtx_sup_tp : (updCtx s i fc).sup.tp = s.sup.tp := rfl
@[simp] theorem updCtx_sup_triggers : (updCtx s i fc).sup.triggers = s.sup.triggers := rfl
@[simp] theorem updCtx_sup_trigGen : (updCtx s i fc).sup.trigGen = s.sup.trigGen := rfl
@[simp] theorem updCtx_sup_en : (updCtx s i fc).sup.en = s.sup.en := rfl
@[simp] theorem updCtx_sup_groups : (updCtx s i fc).sup.groups = s.sup.groups := rfl
@[simp] theorem updCtx_sup_chg : (updCtx s i fc).sup.chg = s.sup.chg := rfl
@[simp] theorem updCtx_sup_chgCount : (updCtx s i fc).sup.chgCount = s.sup.chgCount := rfl
@[simp] theorem updCtx_sup_arbArm : (updCtx s i fc).sup.arbArm = s.sup.arbArm := rfl
@[simp] theorem updCtx_sup_arbTack : (updCtx s i fc).sup.arbTack = s.sup.arbTack := rfl
@[simp] theorem updCtx_sup_seqs : (updCtx s i fc).sup.seqs = s.sup.seqs := rfl
@[simp] theorem updCtx_sup_buckets : (updCtx s i fc).sup.buckets = s.sup.buckets := rfl
@[simp] theorem updStall_agreed : (updStall s i fs).agreed = s.agreed := rfl
@[simp] theorem updStall_cyc : (updStall s i fs).cyc = s.cyc := rfl
@[simp] theorem updStall_lanes : (updStall s i fs).lanes = s.lanes := rfl
@[simp] theorem updStall_agree : (updStall s i fs).agree = s.agree := rfl
@[simp] theorem updStall_ilinks : (updStall s i fs).ilinks = s.ilinks := rfl
@[simp] theorem updStall_hubs : (updStall s i fs).hubs = s.hubs := rfl
@[simp] theorem updStall_hubDiff : (updStall s i fs).hubDiff = s.hubDiff := rfl
@[simp] theorem updStall_hubDiffRun : (updStall s i fs).hubDiffRun = s.hubDiffRun := rfl
@[simp] theorem updStall_hubDiffDone : (updStall s i fs).hubDiffDone = s.hubDiffDone := rfl
@[simp] theorem updStall_recd : (updStall s i fs).recd = s.recd := rfl
@[simp] theorem updStall_supply : (updStall s i fs).supply = s.supply := rfl
@[simp] theorem updStall_shedHub : (updStall s i fs).shedHub = s.shedHub := rfl
@[simp] theorem updStall_bb : (updStall s i fs).bb = s.bb := rfl
@[simp] theorem updStall_con : (updStall s i fs).con = s.con := rfl
@[simp] theorem updStall_twin : (updStall s i fs).twin = s.twin := rfl
@[simp] theorem updStall_br : (updStall s i fs).br = s.br := rfl
@[simp] theorem updStall_field : (updStall s i fs).field = s.field := rfl
@[simp] theorem updStall_tacho : (updStall s i fs).tacho = s.tacho := rfl
@[simp] theorem updStall_saf : (updStall s i fs).saf = s.saf := rfl
@[simp] theorem updStall_upd : (updStall s i fs).upd = s.upd := rfl
@[simp] theorem updStall_perf : (updStall s i fs).perf = s.perf := rfl
@[simp] theorem updStall_st : (updStall s i fs).st = s.st := rfl
@[simp] theorem updStall_cnt : (updStall s i fs).cnt = s.cnt := rfl
@[simp] theorem updStall_egress : (updStall s i fs).egress = s.egress := rfl
@[simp] theorem updStall_pending : (updStall s i fs).pending = s.pending := rfl
@[simp] theorem updStall_sup_dict : (updStall s i fs).sup.dict = s.sup.dict := rfl
@[simp] theorem updStall_sup_ctxs : (updStall s i fs).sup.ctxs = s.sup.ctxs := rfl
@[simp] theorem updStall_sup_reqs : (updStall s i fs).sup.reqs = s.sup.reqs := rfl
@[simp] theorem updStall_sup_resps : (updStall s i fs).sup.resps = s.sup.resps := rfl
@[simp] theorem updStall_sup_mode : (updStall s i fs).sup.mode = s.sup.mode := rfl
@[simp] theorem updStall_sup_modePending : (updStall s i fs).sup.modePending = s.sup.modePending := rfl
@[simp] theorem updStall_sup_adopted : (updStall s i fs).sup.adopted = s.sup.adopted := rfl
@[simp] theorem updStall_sup_samples : (updStall s i fs).sup.samples = s.sup.samples := rfl
@[simp] theorem updStall_sup_di : (updStall s i fs).sup.di = s.sup.di := rfl
@[simp] theorem updStall_sup_posted : (updStall s i fs).sup.posted = s.sup.posted := rfl
@[simp] theorem updStall_sup_outs : (updStall s i fs).sup.outs = s.sup.outs := rfl
@[simp] theorem updStall_sup_outsPrev : (updStall s i fs).sup.outsPrev = s.sup.outsPrev := rfl
@[simp] theorem updStall_sup_forceDi : (updStall s i fs).sup.forceDi = s.sup.forceDi := rfl
@[simp] theorem updStall_sup_forceDo : (updStall s i fs).sup.forceDo = s.sup.forceDo := rfl
@[simp] theorem updStall_sup_forceAi : (updStall s i fs).sup.forceAi = s.sup.forceAi := rfl
@[simp] theorem updStall_sup_doLast : (updStall s i fs).sup.doLast = s.sup.doLast := rfl
@[simp] theorem updStall_sup_cmdSeq : (updStall s i fs).sup.cmdSeq = s.sup.cmdSeq := rfl
@[simp] theorem updStall_sup_safReqs : (updStall s i fs).sup.safReqs = s.sup.safReqs := rfl
@[simp] theorem updStall_sup_timedDo : (updStall s i fs).sup.timedDo = s.sup.timedDo := rfl
@[simp] theorem updStall_sup_withdraw : (updStall s i fs).sup.withdraw = s.sup.withdraw := rfl
@[simp] theorem updStall_sup_retainSeq : (updStall s i fs).sup.retainSeq = s.sup.retainSeq := rfl
@[simp] theorem updStall_sup_tp : (updStall s i fs).sup.tp = s.sup.tp := rfl
@[simp] theorem updStall_sup_triggers : (updStall s i fs).sup.triggers = s.sup.triggers := rfl
@[simp] theorem updStall_sup_trigGen : (updStall s i fs).sup.trigGen = s.sup.trigGen := rfl
@[simp] theorem updStall_sup_en : (updStall s i fs).sup.en = s.sup.en := rfl
@[simp] theorem updStall_sup_groups : (updStall s i fs).sup.groups = s.sup.groups := rfl
@[simp] theorem updStall_sup_chg : (updStall s i fs).sup.chg = s.sup.chg := rfl
@[simp] theorem updStall_sup_chgCount : (updStall s i fs).sup.chgCount = s.sup.chgCount := rfl
@[simp] theorem updStall_sup_arbArm : (updStall s i fs).sup.arbArm = s.sup.arbArm := rfl
@[simp] theorem updStall_sup_arbTack : (updStall s i fs).sup.arbTack = s.sup.arbTack := rfl
@[simp] theorem updStall_sup_seqs : (updStall s i fs).sup.seqs = s.sup.seqs := rfl
@[simp] theorem updStall_sup_buckets : (updStall s i fs).sup.buckets = s.sup.buckets := rfl
@[simp] theorem setStall_agreed : (setStall s i st).agreed = s.agreed := rfl
@[simp] theorem setStall_cyc : (setStall s i st).cyc = s.cyc := rfl
@[simp] theorem setStall_lanes : (setStall s i st).lanes = s.lanes := rfl
@[simp] theorem setStall_agree : (setStall s i st).agree = s.agree := rfl
@[simp] theorem setStall_ilinks : (setStall s i st).ilinks = s.ilinks := rfl
@[simp] theorem setStall_hubs : (setStall s i st).hubs = s.hubs := rfl
@[simp] theorem setStall_hubDiff : (setStall s i st).hubDiff = s.hubDiff := rfl
@[simp] theorem setStall_hubDiffRun : (setStall s i st).hubDiffRun = s.hubDiffRun := rfl
@[simp] theorem setStall_hubDiffDone : (setStall s i st).hubDiffDone = s.hubDiffDone := rfl
@[simp] theorem setStall_recd : (setStall s i st).recd = s.recd := rfl
@[simp] theorem setStall_supply : (setStall s i st).supply = s.supply := rfl
@[simp] theorem setStall_shedHub : (setStall s i st).shedHub = s.shedHub := rfl
@[simp] theorem setStall_bb : (setStall s i st).bb = s.bb := rfl
@[simp] theorem setStall_con : (setStall s i st).con = s.con := rfl
@[simp] theorem setStall_twin : (setStall s i st).twin = s.twin := rfl
@[simp] theorem setStall_br : (setStall s i st).br = s.br := rfl
@[simp] theorem setStall_field : (setStall s i st).field = s.field := rfl
@[simp] theorem setStall_tacho : (setStall s i st).tacho = s.tacho := rfl
@[simp] theorem setStall_saf : (setStall s i st).saf = s.saf := rfl
@[simp] theorem setStall_upd : (setStall s i st).upd = s.upd := rfl
@[simp] theorem setStall_perf : (setStall s i st).perf = s.perf := rfl
@[simp] theorem setStall_st : (setStall s i st).st = s.st := rfl
@[simp] theorem setStall_cnt : (setStall s i st).cnt = s.cnt := rfl
@[simp] theorem setStall_egress : (setStall s i st).egress = s.egress := rfl
@[simp] theorem setStall_pending : (setStall s i st).pending = s.pending := rfl
@[simp] theorem setStall_sup_dict : (setStall s i st).sup.dict = s.sup.dict := rfl
@[simp] theorem setStall_sup_ctxs : (setStall s i st).sup.ctxs = s.sup.ctxs := rfl
@[simp] theorem setStall_sup_reqs : (setStall s i st).sup.reqs = s.sup.reqs := rfl
@[simp] theorem setStall_sup_resps : (setStall s i st).sup.resps = s.sup.resps := rfl
@[simp] theorem setStall_sup_mode : (setStall s i st).sup.mode = s.sup.mode := rfl
@[simp] theorem setStall_sup_modePending : (setStall s i st).sup.modePending = s.sup.modePending := rfl
@[simp] theorem setStall_sup_adopted : (setStall s i st).sup.adopted = s.sup.adopted := rfl
@[simp] theorem setStall_sup_samples : (setStall s i st).sup.samples = s.sup.samples := rfl
@[simp] theorem setStall_sup_di : (setStall s i st).sup.di = s.sup.di := rfl
@[simp] theorem setStall_sup_posted : (setStall s i st).sup.posted = s.sup.posted := rfl
@[simp] theorem setStall_sup_outs : (setStall s i st).sup.outs = s.sup.outs := rfl
@[simp] theorem setStall_sup_outsPrev : (setStall s i st).sup.outsPrev = s.sup.outsPrev := rfl
@[simp] theorem setStall_sup_forceDi : (setStall s i st).sup.forceDi = s.sup.forceDi := rfl
@[simp] theorem setStall_sup_forceDo : (setStall s i st).sup.forceDo = s.sup.forceDo := rfl
@[simp] theorem setStall_sup_forceAi : (setStall s i st).sup.forceAi = s.sup.forceAi := rfl
@[simp] theorem setStall_sup_doLast : (setStall s i st).sup.doLast = s.sup.doLast := rfl
@[simp] theorem setStall_sup_cmdSeq : (setStall s i st).sup.cmdSeq = s.sup.cmdSeq := rfl
@[simp] theorem setStall_sup_safReqs : (setStall s i st).sup.safReqs = s.sup.safReqs := rfl
@[simp] theorem setStall_sup_timedDo : (setStall s i st).sup.timedDo = s.sup.timedDo := rfl
@[simp] theorem setStall_sup_withdraw : (setStall s i st).sup.withdraw = s.sup.withdraw := rfl
@[simp] theorem setStall_sup_retainSeq : (setStall s i st).sup.retainSeq = s.sup.retainSeq := rfl
@[simp] theorem setStall_sup_tp : (setStall s i st).sup.tp = s.sup.tp := rfl
@[simp] theorem setStall_sup_triggers : (setStall s i st).sup.triggers = s.sup.triggers := rfl
@[simp] theorem setStall_sup_trigGen : (setStall s i st).sup.trigGen = s.sup.trigGen := rfl
@[simp] theorem setStall_sup_en : (setStall s i st).sup.en = s.sup.en := rfl
@[simp] theorem setStall_sup_groups : (setStall s i st).sup.groups = s.sup.groups := rfl
@[simp] theorem setStall_sup_chg : (setStall s i st).sup.chg = s.sup.chg := rfl
@[simp] theorem setStall_sup_chgCount : (setStall s i st).sup.chgCount = s.sup.chgCount := rfl
@[simp] theorem setStall_sup_arbArm : (setStall s i st).sup.arbArm = s.sup.arbArm := rfl
@[simp] theorem setStall_sup_arbTack : (setStall s i st).sup.arbTack = s.sup.arbTack := rfl
@[simp] theorem setStall_sup_seqs : (setStall s i st).sup.seqs = s.sup.seqs := rfl
@[simp] theorem setStall_sup_buckets : (setStall s i st).sup.buckets = s.sup.buckets := rfl
@[simp] theorem updLane_agreed : (updLane s l fl).agreed = s.agreed := rfl
@[simp] theorem updLane_cyc : (updLane s l fl).cyc = s.cyc := rfl
@[simp] theorem updLane_agree : (updLane s l fl).agree = s.agree := rfl
@[simp] theorem updLane_ilinks : (updLane s l fl).ilinks = s.ilinks := rfl
@[simp] theorem updLane_hubs : (updLane s l fl).hubs = s.hubs := rfl
@[simp] theorem updLane_hubDiff : (updLane s l fl).hubDiff = s.hubDiff := rfl
@[simp] theorem updLane_hubDiffRun : (updLane s l fl).hubDiffRun = s.hubDiffRun := rfl
@[simp] theorem updLane_hubDiffDone : (updLane s l fl).hubDiffDone = s.hubDiffDone := rfl
@[simp] theorem updLane_recd : (updLane s l fl).recd = s.recd := rfl
@[simp] theorem updLane_supply : (updLane s l fl).supply = s.supply := rfl
@[simp] theorem updLane_shedHub : (updLane s l fl).shedHub = s.shedHub := rfl
@[simp] theorem updLane_bb : (updLane s l fl).bb = s.bb := rfl
@[simp] theorem updLane_con : (updLane s l fl).con = s.con := rfl
@[simp] theorem updLane_twin : (updLane s l fl).twin = s.twin := rfl
@[simp] theorem updLane_br : (updLane s l fl).br = s.br := rfl
@[simp] theorem updLane_field : (updLane s l fl).field = s.field := rfl
@[simp] theorem updLane_tacho : (updLane s l fl).tacho = s.tacho := rfl
@[simp] theorem updLane_saf : (updLane s l fl).saf = s.saf := rfl
@[simp] theorem updLane_upd : (updLane s l fl).upd = s.upd := rfl
@[simp] theorem updLane_perf : (updLane s l fl).perf = s.perf := rfl
@[simp] theorem updLane_st : (updLane s l fl).st = s.st := rfl
@[simp] theorem updLane_cnt : (updLane s l fl).cnt = s.cnt := rfl
@[simp] theorem updLane_egress : (updLane s l fl).egress = s.egress := rfl
@[simp] theorem updLane_pending : (updLane s l fl).pending = s.pending := rfl
@[simp] theorem updLane_sup_dict : (updLane s l fl).sup.dict = s.sup.dict := rfl
@[simp] theorem updLane_sup_stalls : (updLane s l fl).sup.stalls = s.sup.stalls := rfl
@[simp] theorem updLane_sup_ctxs : (updLane s l fl).sup.ctxs = s.sup.ctxs := rfl
@[simp] theorem updLane_sup_reqs : (updLane s l fl).sup.reqs = s.sup.reqs := rfl
@[simp] theorem updLane_sup_resps : (updLane s l fl).sup.resps = s.sup.resps := rfl
@[simp] theorem updLane_sup_mode : (updLane s l fl).sup.mode = s.sup.mode := rfl
@[simp] theorem updLane_sup_modePending : (updLane s l fl).sup.modePending = s.sup.modePending := rfl
@[simp] theorem updLane_sup_adopted : (updLane s l fl).sup.adopted = s.sup.adopted := rfl
@[simp] theorem updLane_sup_samples : (updLane s l fl).sup.samples = s.sup.samples := rfl
@[simp] theorem updLane_sup_di : (updLane s l fl).sup.di = s.sup.di := rfl
@[simp] theorem updLane_sup_posted : (updLane s l fl).sup.posted = s.sup.posted := rfl
@[simp] theorem updLane_sup_outs : (updLane s l fl).sup.outs = s.sup.outs := rfl
@[simp] theorem updLane_sup_outsPrev : (updLane s l fl).sup.outsPrev = s.sup.outsPrev := rfl
@[simp] theorem updLane_sup_forceDi : (updLane s l fl).sup.forceDi = s.sup.forceDi := rfl
@[simp] theorem updLane_sup_forceDo : (updLane s l fl).sup.forceDo = s.sup.forceDo := rfl
@[simp] theorem updLane_sup_forceAi : (updLane s l fl).sup.forceAi = s.sup.forceAi := rfl
@[simp] theorem updLane_sup_doLast : (updLane s l fl).sup.doLast = s.sup.doLast := rfl
@[simp] theorem updLane_sup_cmdSeq : (updLane s l fl).sup.cmdSeq = s.sup.cmdSeq := rfl
@[simp] theorem updLane_sup_safReqs : (updLane s l fl).sup.safReqs = s.sup.safReqs := rfl
@[simp] theorem updLane_sup_timedDo : (updLane s l fl).sup.timedDo = s.sup.timedDo := rfl
@[simp] theorem updLane_sup_withdraw : (updLane s l fl).sup.withdraw = s.sup.withdraw := rfl
@[simp] theorem updLane_sup_retainSeq : (updLane s l fl).sup.retainSeq = s.sup.retainSeq := rfl
@[simp] theorem updLane_sup_tp : (updLane s l fl).sup.tp = s.sup.tp := rfl
@[simp] theorem updLane_sup_triggers : (updLane s l fl).sup.triggers = s.sup.triggers := rfl
@[simp] theorem updLane_sup_trigGen : (updLane s l fl).sup.trigGen = s.sup.trigGen := rfl
@[simp] theorem updLane_sup_en : (updLane s l fl).sup.en = s.sup.en := rfl
@[simp] theorem updLane_sup_groups : (updLane s l fl).sup.groups = s.sup.groups := rfl
@[simp] theorem updLane_sup_chg : (updLane s l fl).sup.chg = s.sup.chg := rfl
@[simp] theorem updLane_sup_chgCount : (updLane s l fl).sup.chgCount = s.sup.chgCount := rfl
@[simp] theorem updLane_sup_arbArm : (updLane s l fl).sup.arbArm = s.sup.arbArm := rfl
@[simp] theorem updLane_sup_arbTack : (updLane s l fl).sup.arbTack = s.sup.arbTack := rfl
@[simp] theorem updLane_sup_seqs : (updLane s l fl).sup.seqs = s.sup.seqs := rfl
@[simp] theorem updLane_sup_buckets : (updLane s l fl).sup.buckets = s.sup.buckets := rfl
@[simp] theorem updHub_agreed : (updHub s h fh).agreed = s.agreed := rfl
@[simp] theorem updHub_cyc : (updHub s h fh).cyc = s.cyc := rfl
@[simp] theorem updHub_lanes : (updHub s h fh).lanes = s.lanes := rfl
@[simp] theorem updHub_agree : (updHub s h fh).agree = s.agree := rfl
@[simp] theorem updHub_ilinks : (updHub s h fh).ilinks = s.ilinks := rfl
@[simp] theorem updHub_hubDiff : (updHub s h fh).hubDiff = s.hubDiff := rfl
@[simp] theorem updHub_hubDiffRun : (updHub s h fh).hubDiffRun = s.hubDiffRun := rfl
@[simp] theorem updHub_hubDiffDone : (updHub s h fh).hubDiffDone = s.hubDiffDone := rfl
@[simp] theorem updHub_recd : (updHub s h fh).recd = s.recd := rfl
@[simp] theorem updHub_supply : (updHub s h fh).supply = s.supply := rfl
@[simp] theorem updHub_shedHub : (updHub s h fh).shedHub = s.shedHub := rfl
@[simp] theorem updHub_bb : (updHub s h fh).bb = s.bb := rfl
@[simp] theorem updHub_con : (updHub s h fh).con = s.con := rfl
@[simp] theorem updHub_twin : (updHub s h fh).twin = s.twin := rfl
@[simp] theorem updHub_br : (updHub s h fh).br = s.br := rfl
@[simp] theorem updHub_field : (updHub s h fh).field = s.field := rfl
@[simp] theorem updHub_tacho : (updHub s h fh).tacho = s.tacho := rfl
@[simp] theorem updHub_saf : (updHub s h fh).saf = s.saf := rfl
@[simp] theorem updHub_upd : (updHub s h fh).upd = s.upd := rfl
@[simp] theorem updHub_perf : (updHub s h fh).perf = s.perf := rfl
@[simp] theorem updHub_st : (updHub s h fh).st = s.st := rfl
@[simp] theorem updHub_cnt : (updHub s h fh).cnt = s.cnt := rfl
@[simp] theorem updHub_egress : (updHub s h fh).egress = s.egress := rfl
@[simp] theorem updHub_pending : (updHub s h fh).pending = s.pending := rfl
@[simp] theorem updHub_sup_dict : (updHub s h fh).sup.dict = s.sup.dict := rfl
@[simp] theorem updHub_sup_stalls : (updHub s h fh).sup.stalls = s.sup.stalls := rfl
@[simp] theorem updHub_sup_ctxs : (updHub s h fh).sup.ctxs = s.sup.ctxs := rfl
@[simp] theorem updHub_sup_reqs : (updHub s h fh).sup.reqs = s.sup.reqs := rfl
@[simp] theorem updHub_sup_resps : (updHub s h fh).sup.resps = s.sup.resps := rfl
@[simp] theorem updHub_sup_mode : (updHub s h fh).sup.mode = s.sup.mode := rfl
@[simp] theorem updHub_sup_modePending : (updHub s h fh).sup.modePending = s.sup.modePending := rfl
@[simp] theorem updHub_sup_adopted : (updHub s h fh).sup.adopted = s.sup.adopted := rfl
@[simp] theorem updHub_sup_samples : (updHub s h fh).sup.samples = s.sup.samples := rfl
@[simp] theorem updHub_sup_di : (updHub s h fh).sup.di = s.sup.di := rfl
@[simp] theorem updHub_sup_posted : (updHub s h fh).sup.posted = s.sup.posted := rfl
@[simp] theorem updHub_sup_outs : (updHub s h fh).sup.outs = s.sup.outs := rfl
@[simp] theorem updHub_sup_outsPrev : (updHub s h fh).sup.outsPrev = s.sup.outsPrev := rfl
@[simp] theorem updHub_sup_forceDi : (updHub s h fh).sup.forceDi = s.sup.forceDi := rfl
@[simp] theorem updHub_sup_forceDo : (updHub s h fh).sup.forceDo = s.sup.forceDo := rfl
@[simp] theorem updHub_sup_forceAi : (updHub s h fh).sup.forceAi = s.sup.forceAi := rfl
@[simp] theorem updHub_sup_doLast : (updHub s h fh).sup.doLast = s.sup.doLast := rfl
@[simp] theorem updHub_sup_cmdSeq : (updHub s h fh).sup.cmdSeq = s.sup.cmdSeq := rfl
@[simp] theorem updHub_sup_safReqs : (updHub s h fh).sup.safReqs = s.sup.safReqs := rfl
@[simp] theorem updHub_sup_timedDo : (updHub s h fh).sup.timedDo = s.sup.timedDo := rfl
@[simp] theorem updHub_sup_withdraw : (updHub s h fh).sup.withdraw = s.sup.withdraw := rfl
@[simp] theorem updHub_sup_retainSeq : (updHub s h fh).sup.retainSeq = s.sup.retainSeq := rfl
@[simp] theorem updHub_sup_tp : (updHub s h fh).sup.tp = s.sup.tp := rfl
@[simp] theorem updHub_sup_triggers : (updHub s h fh).sup.triggers = s.sup.triggers := rfl
@[simp] theorem updHub_sup_trigGen : (updHub s h fh).sup.trigGen = s.sup.trigGen := rfl
@[simp] theorem updHub_sup_en : (updHub s h fh).sup.en = s.sup.en := rfl
@[simp] theorem updHub_sup_groups : (updHub s h fh).sup.groups = s.sup.groups := rfl
@[simp] theorem updHub_sup_chg : (updHub s h fh).sup.chg = s.sup.chg := rfl
@[simp] theorem updHub_sup_chgCount : (updHub s h fh).sup.chgCount = s.sup.chgCount := rfl
@[simp] theorem updHub_sup_arbArm : (updHub s h fh).sup.arbArm = s.sup.arbArm := rfl
@[simp] theorem updHub_sup_arbTack : (updHub s h fh).sup.arbTack = s.sup.arbTack := rfl
@[simp] theorem updHub_sup_seqs : (updHub s h fh).sup.seqs = s.sup.seqs := rfl
@[simp] theorem updHub_sup_buckets : (updHub s h fh).sup.buckets = s.sup.buckets := rfl
@[simp] theorem updVoter_agreed : (updVoter s h fv).agreed = s.agreed := rfl
@[simp] theorem updVoter_cyc : (updVoter s h fv).cyc = s.cyc := rfl
@[simp] theorem updVoter_lanes : (updVoter s h fv).lanes = s.lanes := rfl
@[simp] theorem updVoter_agree : (updVoter s h fv).agree = s.agree := rfl
@[simp] theorem updVoter_ilinks : (updVoter s h fv).ilinks = s.ilinks := rfl
@[simp] theorem updVoter_hubDiff : (updVoter s h fv).hubDiff = s.hubDiff := rfl
@[simp] theorem updVoter_hubDiffRun : (updVoter s h fv).hubDiffRun = s.hubDiffRun := rfl
@[simp] theorem updVoter_hubDiffDone : (updVoter s h fv).hubDiffDone = s.hubDiffDone := rfl
@[simp] theorem updVoter_recd : (updVoter s h fv).recd = s.recd := rfl
@[simp] theorem updVoter_supply : (updVoter s h fv).supply = s.supply := rfl
@[simp] theorem updVoter_shedHub : (updVoter s h fv).shedHub = s.shedHub := rfl
@[simp] theorem updVoter_bb : (updVoter s h fv).bb = s.bb := rfl
@[simp] theorem updVoter_con : (updVoter s h fv).con = s.con := rfl
@[simp] theorem updVoter_twin : (updVoter s h fv).twin = s.twin := rfl
@[simp] theorem updVoter_br : (updVoter s h fv).br = s.br := rfl
@[simp] theorem updVoter_field : (updVoter s h fv).field = s.field := rfl
@[simp] theorem updVoter_tacho : (updVoter s h fv).tacho = s.tacho := rfl
@[simp] theorem updVoter_saf : (updVoter s h fv).saf = s.saf := rfl
@[simp] theorem updVoter_upd : (updVoter s h fv).upd = s.upd := rfl
@[simp] theorem updVoter_perf : (updVoter s h fv).perf = s.perf := rfl
@[simp] theorem updVoter_st : (updVoter s h fv).st = s.st := rfl
@[simp] theorem updVoter_cnt : (updVoter s h fv).cnt = s.cnt := rfl
@[simp] theorem updVoter_egress : (updVoter s h fv).egress = s.egress := rfl
@[simp] theorem updVoter_pending : (updVoter s h fv).pending = s.pending := rfl
@[simp] theorem updVoter_sup_dict : (updVoter s h fv).sup.dict = s.sup.dict := rfl
@[simp] theorem updVoter_sup_stalls : (updVoter s h fv).sup.stalls = s.sup.stalls := rfl
@[simp] theorem updVoter_sup_ctxs : (updVoter s h fv).sup.ctxs = s.sup.ctxs := rfl
@[simp] theorem updVoter_sup_reqs : (updVoter s h fv).sup.reqs = s.sup.reqs := rfl
@[simp] theorem updVoter_sup_resps : (updVoter s h fv).sup.resps = s.sup.resps := rfl
@[simp] theorem updVoter_sup_mode : (updVoter s h fv).sup.mode = s.sup.mode := rfl
@[simp] theorem updVoter_sup_modePending : (updVoter s h fv).sup.modePending = s.sup.modePending := rfl
@[simp] theorem updVoter_sup_adopted : (updVoter s h fv).sup.adopted = s.sup.adopted := rfl
@[simp] theorem updVoter_sup_samples : (updVoter s h fv).sup.samples = s.sup.samples := rfl
@[simp] theorem updVoter_sup_di : (updVoter s h fv).sup.di = s.sup.di := rfl
@[simp] theorem updVoter_sup_posted : (updVoter s h fv).sup.posted = s.sup.posted := rfl
@[simp] theorem updVoter_sup_outs : (updVoter s h fv).sup.outs = s.sup.outs := rfl
@[simp] theorem updVoter_sup_outsPrev : (updVoter s h fv).sup.outsPrev = s.sup.outsPrev := rfl
@[simp] theorem updVoter_sup_forceDi : (updVoter s h fv).sup.forceDi = s.sup.forceDi := rfl
@[simp] theorem updVoter_sup_forceDo : (updVoter s h fv).sup.forceDo = s.sup.forceDo := rfl
@[simp] theorem updVoter_sup_forceAi : (updVoter s h fv).sup.forceAi = s.sup.forceAi := rfl
@[simp] theorem updVoter_sup_doLast : (updVoter s h fv).sup.doLast = s.sup.doLast := rfl
@[simp] theorem updVoter_sup_cmdSeq : (updVoter s h fv).sup.cmdSeq = s.sup.cmdSeq := rfl
@[simp] theorem updVoter_sup_safReqs : (updVoter s h fv).sup.safReqs = s.sup.safReqs := rfl
@[simp] theorem updVoter_sup_timedDo : (updVoter s h fv).sup.timedDo = s.sup.timedDo := rfl
@[simp] theorem updVoter_sup_withdraw : (updVoter s h fv).sup.withdraw = s.sup.withdraw := rfl
@[simp] theorem updVoter_sup_retainSeq : (updVoter s h fv).sup.retainSeq = s.sup.retainSeq := rfl
@[simp] theorem updVoter_sup_tp : (updVoter s h fv).sup.tp = s.sup.tp := rfl
@[simp] theorem updVoter_sup_triggers : (updVoter s h fv).sup.triggers = s.sup.triggers := rfl
@[simp] theorem updVoter_sup_trigGen : (updVoter s h fv).sup.trigGen = s.sup.trigGen := rfl
@[simp] theorem updVoter_sup_en : (updVoter s h fv).sup.en = s.sup.en := rfl
@[simp] theorem updVoter_sup_groups : (updVoter s h fv).sup.groups = s.sup.groups := rfl
@[simp] theorem updVoter_sup_chg : (updVoter s h fv).sup.chg = s.sup.chg := rfl
@[simp] theorem updVoter_sup_chgCount : (updVoter s h fv).sup.chgCount = s.sup.chgCount := rfl
@[simp] theorem updVoter_sup_arbArm : (updVoter s h fv).sup.arbArm = s.sup.arbArm := rfl
@[simp] theorem updVoter_sup_arbTack : (updVoter s h fv).sup.arbTack = s.sup.arbTack := rfl
@[simp] theorem updVoter_sup_seqs : (updVoter s h fv).sup.seqs = s.sup.seqs := rfl
@[simp] theorem updVoter_sup_buckets : (updVoter s h fv).sup.buckets = s.sup.buckets := rfl
@[simp] theorem updRun_agreed : (updRun s i fr).agreed = s.agreed := rfl
@[simp] theorem updRun_lanes : (updRun s i fr).lanes = s.lanes := rfl
@[simp] theorem updRun_agree : (updRun s i fr).agree = s.agree := rfl
@[simp] theorem updRun_ilinks : (updRun s i fr).ilinks = s.ilinks := rfl
@[simp] theorem updRun_hubs : (updRun s i fr).hubs = s.hubs := rfl
@[simp] theorem updRun_hubDiff : (updRun s i fr).hubDiff = s.hubDiff := rfl
@[simp] theorem updRun_hubDiffRun : (updRun s i fr).hubDiffRun = s.hubDiffRun := rfl
@[simp] theorem updRun_hubDiffDone : (updRun s i fr).hubDiffDone = s.hubDiffDone := rfl
@[simp] theorem updRun_recd : (updRun s i fr).recd = s.recd := rfl
@[simp] theorem updRun_supply : (updRun s i fr).supply = s.supply := rfl
@[simp] theorem updRun_shedHub : (updRun s i fr).shedHub = s.shedHub := rfl
@[simp] theorem updRun_bb : (updRun s i fr).bb = s.bb := rfl
@[simp] theorem updRun_con : (updRun s i fr).con = s.con := rfl
@[simp] theorem updRun_twin : (updRun s i fr).twin = s.twin := rfl
@[simp] theorem updRun_br : (updRun s i fr).br = s.br := rfl
@[simp] theorem updRun_field : (updRun s i fr).field = s.field := rfl
@[simp] theorem updRun_tacho : (updRun s i fr).tacho = s.tacho := rfl
@[simp] theorem updRun_saf : (updRun s i fr).saf = s.saf := rfl
@[simp] theorem updRun_upd : (updRun s i fr).upd = s.upd := rfl
@[simp] theorem updRun_perf : (updRun s i fr).perf = s.perf := rfl
@[simp] theorem updRun_st : (updRun s i fr).st = s.st := rfl
@[simp] theorem updRun_cnt : (updRun s i fr).cnt = s.cnt := rfl
@[simp] theorem updRun_egress : (updRun s i fr).egress = s.egress := rfl
@[simp] theorem updRun_pending : (updRun s i fr).pending = s.pending := rfl
@[simp] theorem updRun_sup_dict : (updRun s i fr).sup.dict = s.sup.dict := rfl
@[simp] theorem updRun_sup_stalls : (updRun s i fr).sup.stalls = s.sup.stalls := rfl
@[simp] theorem updRun_sup_ctxs : (updRun s i fr).sup.ctxs = s.sup.ctxs := rfl
@[simp] theorem updRun_sup_reqs : (updRun s i fr).sup.reqs = s.sup.reqs := rfl
@[simp] theorem updRun_sup_resps : (updRun s i fr).sup.resps = s.sup.resps := rfl
@[simp] theorem updRun_sup_mode : (updRun s i fr).sup.mode = s.sup.mode := rfl
@[simp] theorem updRun_sup_modePending : (updRun s i fr).sup.modePending = s.sup.modePending := rfl
@[simp] theorem updRun_sup_adopted : (updRun s i fr).sup.adopted = s.sup.adopted := rfl
@[simp] theorem updRun_sup_samples : (updRun s i fr).sup.samples = s.sup.samples := rfl
@[simp] theorem updRun_sup_di : (updRun s i fr).sup.di = s.sup.di := rfl
@[simp] theorem updRun_sup_posted : (updRun s i fr).sup.posted = s.sup.posted := rfl
@[simp] theorem updRun_sup_outs : (updRun s i fr).sup.outs = s.sup.outs := rfl
@[simp] theorem updRun_sup_outsPrev : (updRun s i fr).sup.outsPrev = s.sup.outsPrev := rfl
@[simp] theorem updRun_sup_forceDi : (updRun s i fr).sup.forceDi = s.sup.forceDi := rfl
@[simp] theorem updRun_sup_forceDo : (updRun s i fr).sup.forceDo = s.sup.forceDo := rfl
@[simp] theorem updRun_sup_forceAi : (updRun s i fr).sup.forceAi = s.sup.forceAi := rfl
@[simp] theorem updRun_sup_doLast : (updRun s i fr).sup.doLast = s.sup.doLast := rfl
@[simp] theorem updRun_sup_cmdSeq : (updRun s i fr).sup.cmdSeq = s.sup.cmdSeq := rfl
@[simp] theorem updRun_sup_safReqs : (updRun s i fr).sup.safReqs = s.sup.safReqs := rfl
@[simp] theorem updRun_sup_timedDo : (updRun s i fr).sup.timedDo = s.sup.timedDo := rfl
@[simp] theorem updRun_sup_withdraw : (updRun s i fr).sup.withdraw = s.sup.withdraw := rfl
@[simp] theorem updRun_sup_retainSeq : (updRun s i fr).sup.retainSeq = s.sup.retainSeq := rfl
@[simp] theorem updRun_sup_tp : (updRun s i fr).sup.tp = s.sup.tp := rfl
@[simp] theorem updRun_sup_triggers : (updRun s i fr).sup.triggers = s.sup.triggers := rfl
@[simp] theorem updRun_sup_trigGen : (updRun s i fr).sup.trigGen = s.sup.trigGen := rfl
@[simp] theorem updRun_sup_en : (updRun s i fr).sup.en = s.sup.en := rfl
@[simp] theorem updRun_sup_groups : (updRun s i fr).sup.groups = s.sup.groups := rfl
@[simp] theorem updRun_sup_chg : (updRun s i fr).sup.chg = s.sup.chg := rfl
@[simp] theorem updRun_sup_chgCount : (updRun s i fr).sup.chgCount = s.sup.chgCount := rfl
@[simp] theorem updRun_sup_arbArm : (updRun s i fr).sup.arbArm = s.sup.arbArm := rfl
@[simp] theorem updRun_sup_arbTack : (updRun s i fr).sup.arbTack = s.sup.arbTack := rfl
@[simp] theorem updRun_sup_seqs : (updRun s i fr).sup.seqs = s.sup.seqs := rfl
@[simp] theorem updRun_sup_buckets : (updRun s i fr).sup.buckets = s.sup.buckets := rfl
@[simp] theorem updShed_agreed : (updShed s i fd).agreed = s.agreed := rfl
@[simp] theorem updShed_cyc : (updShed s i fd).cyc = s.cyc := rfl
@[simp] theorem updShed_lanes : (updShed s i fd).lanes = s.lanes := rfl
@[simp] theorem updShed_agree : (updShed s i fd).agree = s.agree := rfl
@[simp] theorem updShed_ilinks : (updShed s i fd).ilinks = s.ilinks := rfl
@[simp] theorem updShed_hubs : (updShed s i fd).hubs = s.hubs := rfl
@[simp] theorem updShed_hubDiff : (updShed s i fd).hubDiff = s.hubDiff := rfl
@[simp] theorem updShed_hubDiffRun : (updShed s i fd).hubDiffRun = s.hubDiffRun := rfl
@[simp] theorem updShed_hubDiffDone : (updShed s i fd).hubDiffDone = s.hubDiffDone := rfl
@[simp] theorem updShed_recd : (updShed s i fd).recd = s.recd := rfl
@[simp] theorem updShed_supply : (updShed s i fd).supply = s.supply := rfl
@[simp] theorem updShed_shedHub : (updShed s i fd).shedHub = s.shedHub := rfl
@[simp] theorem updShed_bb : (updShed s i fd).bb = s.bb := rfl
@[simp] theorem updShed_con : (updShed s i fd).con = s.con := rfl
@[simp] theorem updShed_twin : (updShed s i fd).twin = s.twin := rfl
@[simp] theorem updShed_br : (updShed s i fd).br = s.br := rfl
@[simp] theorem updShed_field : (updShed s i fd).field = s.field := rfl
@[simp] theorem updShed_tacho : (updShed s i fd).tacho = s.tacho := rfl
@[simp] theorem updShed_saf : (updShed s i fd).saf = s.saf := rfl
@[simp] theorem updShed_upd : (updShed s i fd).upd = s.upd := rfl
@[simp] theorem updShed_perf : (updShed s i fd).perf = s.perf := rfl
@[simp] theorem updShed_st : (updShed s i fd).st = s.st := rfl
@[simp] theorem updShed_cnt : (updShed s i fd).cnt = s.cnt := rfl
@[simp] theorem updShed_egress : (updShed s i fd).egress = s.egress := rfl
@[simp] theorem updShed_pending : (updShed s i fd).pending = s.pending := rfl
@[simp] theorem updShed_sup_dict : (updShed s i fd).sup.dict = s.sup.dict := rfl
@[simp] theorem updShed_sup_stalls : (updShed s i fd).sup.stalls = s.sup.stalls := rfl
@[simp] theorem updShed_sup_ctxs : (updShed s i fd).sup.ctxs = s.sup.ctxs := rfl
@[simp] theorem updShed_sup_reqs : (updShed s i fd).sup.reqs = s.sup.reqs := rfl
@[simp] theorem updShed_sup_resps : (updShed s i fd).sup.resps = s.sup.resps := rfl
@[simp] theorem updShed_sup_mode : (updShed s i fd).sup.mode = s.sup.mode := rfl
@[simp] theorem updShed_sup_modePending : (updShed s i fd).sup.modePending = s.sup.modePending := rfl
@[simp] theorem updShed_sup_adopted : (updShed s i fd).sup.adopted = s.sup.adopted := rfl
@[simp] theorem updShed_sup_samples : (updShed s i fd).sup.samples = s.sup.samples := rfl
@[simp] theorem updShed_sup_di : (updShed s i fd).sup.di = s.sup.di := rfl
@[simp] theorem updShed_sup_posted : (updShed s i fd).sup.posted = s.sup.posted := rfl
@[simp] theorem updShed_sup_outs : (updShed s i fd).sup.outs = s.sup.outs := rfl
@[simp] theorem updShed_sup_outsPrev : (updShed s i fd).sup.outsPrev = s.sup.outsPrev := rfl
@[simp] theorem updShed_sup_forceDi : (updShed s i fd).sup.forceDi = s.sup.forceDi := rfl
@[simp] theorem updShed_sup_forceDo : (updShed s i fd).sup.forceDo = s.sup.forceDo := rfl
@[simp] theorem updShed_sup_forceAi : (updShed s i fd).sup.forceAi = s.sup.forceAi := rfl
@[simp] theorem updShed_sup_doLast : (updShed s i fd).sup.doLast = s.sup.doLast := rfl
@[simp] theorem updShed_sup_cmdSeq : (updShed s i fd).sup.cmdSeq = s.sup.cmdSeq := rfl
@[simp] theorem updShed_sup_safReqs : (updShed s i fd).sup.safReqs = s.sup.safReqs := rfl
@[simp] theorem updShed_sup_timedDo : (updShed s i fd).sup.timedDo = s.sup.timedDo := rfl
@[simp] theorem updShed_sup_withdraw : (updShed s i fd).sup.withdraw = s.sup.withdraw := rfl
@[simp] theorem updShed_sup_retainSeq : (updShed s i fd).sup.retainSeq = s.sup.retainSeq := rfl
@[simp] theorem updShed_sup_tp : (updShed s i fd).sup.tp = s.sup.tp := rfl
@[simp] theorem updShed_sup_triggers : (updShed s i fd).sup.triggers = s.sup.triggers := rfl
@[simp] theorem updShed_sup_trigGen : (updShed s i fd).sup.trigGen = s.sup.trigGen := rfl
@[simp] theorem updShed_sup_groups : (updShed s i fd).sup.groups = s.sup.groups := rfl
@[simp] theorem updShed_sup_chg : (updShed s i fd).sup.chg = s.sup.chg := rfl
@[simp] theorem updShed_sup_chgCount : (updShed s i fd).sup.chgCount = s.sup.chgCount := rfl
@[simp] theorem updShed_sup_arbArm : (updShed s i fd).sup.arbArm = s.sup.arbArm := rfl
@[simp] theorem updShed_sup_arbTack : (updShed s i fd).sup.arbTack = s.sup.arbTack := rfl
@[simp] theorem updShed_sup_seqs : (updShed s i fd).sup.seqs = s.sup.seqs := rfl
@[simp] theorem updShed_sup_buckets : (updShed s i fd).sup.buckets = s.sup.buckets := rfl
@[simp] theorem send_agreed : (send s g).agreed = s.agreed := rfl
@[simp] theorem send_cyc : (send s g).cyc = s.cyc := rfl
@[simp] theorem send_lanes : (send s g).lanes = s.lanes := rfl
@[simp] theorem send_agree : (send s g).agree = s.agree := rfl
@[simp] theorem send_ilinks : (send s g).ilinks = s.ilinks := rfl
@[simp] theorem send_hubs : (send s g).hubs = s.hubs := rfl
@[simp] theorem send_hubDiff : (send s g).hubDiff = s.hubDiff := rfl
@[simp] theorem send_hubDiffRun : (send s g).hubDiffRun = s.hubDiffRun := rfl
@[simp] theorem send_hubDiffDone : (send s g).hubDiffDone = s.hubDiffDone := rfl
@[simp] theorem send_recd : (send s g).recd = s.recd := rfl
@[simp] theorem send_supply : (send s g).supply = s.supply := rfl
@[simp] theorem send_shedHub : (send s g).shedHub = s.shedHub := rfl
@[simp] theorem send_bb : (send s g).bb = s.bb := rfl
@[simp] theorem send_con : (send s g).con = s.con := rfl
@[simp] theorem send_twin : (send s g).twin = s.twin := rfl
@[simp] theorem send_br : (send s g).br = s.br := rfl
@[simp] theorem send_field : (send s g).field = s.field := rfl
@[simp] theorem send_tacho : (send s g).tacho = s.tacho := rfl
@[simp] theorem send_saf : (send s g).saf = s.saf := rfl
@[simp] theorem send_upd : (send s g).upd = s.upd := rfl
@[simp] theorem send_perf : (send s g).perf = s.perf := rfl
@[simp] theorem send_st : (send s g).st = s.st := rfl
@[simp] theorem send_cnt : (send s g).cnt = s.cnt := rfl
@[simp] theorem send_pending : (send s g).pending = s.pending := rfl
@[simp] theorem send_sup_dict : (send s g).sup.dict = s.sup.dict := rfl
@[simp] theorem send_sup_stalls : (send s g).sup.stalls = s.sup.stalls := rfl
@[simp] theorem send_sup_ctxs : (send s g).sup.ctxs = s.sup.ctxs := rfl
@[simp] theorem send_sup_reqs : (send s g).sup.reqs = s.sup.reqs := rfl
@[simp] theorem send_sup_resps : (send s g).sup.resps = s.sup.resps := rfl
@[simp] theorem send_sup_mode : (send s g).sup.mode = s.sup.mode := rfl
@[simp] theorem send_sup_modePending : (send s g).sup.modePending = s.sup.modePending := rfl
@[simp] theorem send_sup_adopted : (send s g).sup.adopted = s.sup.adopted := rfl
@[simp] theorem send_sup_samples : (send s g).sup.samples = s.sup.samples := rfl
@[simp] theorem send_sup_di : (send s g).sup.di = s.sup.di := rfl
@[simp] theorem send_sup_posted : (send s g).sup.posted = s.sup.posted := rfl
@[simp] theorem send_sup_outs : (send s g).sup.outs = s.sup.outs := rfl
@[simp] theorem send_sup_outsPrev : (send s g).sup.outsPrev = s.sup.outsPrev := rfl
@[simp] theorem send_sup_forceDi : (send s g).sup.forceDi = s.sup.forceDi := rfl
@[simp] theorem send_sup_forceDo : (send s g).sup.forceDo = s.sup.forceDo := rfl
@[simp] theorem send_sup_forceAi : (send s g).sup.forceAi = s.sup.forceAi := rfl
@[simp] theorem send_sup_doLast : (send s g).sup.doLast = s.sup.doLast := rfl
@[simp] theorem send_sup_cmdSeq : (send s g).sup.cmdSeq = s.sup.cmdSeq := rfl
@[simp] theorem send_sup_safReqs : (send s g).sup.safReqs = s.sup.safReqs := rfl
@[simp] theorem send_sup_timedDo : (send s g).sup.timedDo = s.sup.timedDo := rfl
@[simp] theorem send_sup_withdraw : (send s g).sup.withdraw = s.sup.withdraw := rfl
@[simp] theorem send_sup_retainSeq : (send s g).sup.retainSeq = s.sup.retainSeq := rfl
@[simp] theorem send_sup_tp : (send s g).sup.tp = s.sup.tp := rfl
@[simp] theorem send_sup_triggers : (send s g).sup.triggers = s.sup.triggers := rfl
@[simp] theorem send_sup_trigGen : (send s g).sup.trigGen = s.sup.trigGen := rfl
@[simp] theorem send_sup_en : (send s g).sup.en = s.sup.en := rfl
@[simp] theorem send_sup_groups : (send s g).sup.groups = s.sup.groups := rfl
@[simp] theorem send_sup_chg : (send s g).sup.chg = s.sup.chg := rfl
@[simp] theorem send_sup_chgCount : (send s g).sup.chgCount = s.sup.chgCount := rfl
@[simp] theorem send_sup_arbArm : (send s g).sup.arbArm = s.sup.arbArm := rfl
@[simp] theorem send_sup_arbTack : (send s g).sup.arbTack = s.sup.arbTack := rfl
@[simp] theorem send_sup_seqs : (send s g).sup.seqs = s.sup.seqs := rfl
@[simp] theorem send_sup_buckets : (send s g).sup.buckets = s.sup.buckets := rfl
@[simp] theorem deliver_agreed : (deliver s o r).agreed = s.agreed := rfl
@[simp] theorem deliver_cyc : (deliver s o r).cyc = s.cyc := rfl
@[simp] theorem deliver_lanes : (deliver s o r).lanes = s.lanes := rfl
@[simp] theorem deliver_agree : (deliver s o r).agree = s.agree := rfl
@[simp] theorem deliver_ilinks : (deliver s o r).ilinks = s.ilinks := rfl
@[simp] theorem deliver_hubDiff : (deliver s o r).hubDiff = s.hubDiff := rfl
@[simp] theorem deliver_hubDiffRun : (deliver s o r).hubDiffRun = s.hubDiffRun := rfl
@[simp] theorem deliver_hubDiffDone : (deliver s o r).hubDiffDone = s.hubDiffDone := rfl
@[simp] theorem deliver_recd : (deliver s o r).recd = s.recd := rfl
@[simp] theorem deliver_supply : (deliver s o r).supply = s.supply := rfl
@[simp] theorem deliver_shedHub : (deliver s o r).shedHub = s.shedHub := rfl
@[simp] theorem deliver_bb : (deliver s o r).bb = s.bb := rfl
@[simp] theorem deliver_con : (deliver s o r).con = s.con := rfl
@[simp] theorem deliver_twin : (deliver s o r).twin = s.twin := rfl
@[simp] theorem deliver_br : (deliver s o r).br = s.br := rfl
@[simp] theorem deliver_field : (deliver s o r).field = s.field := rfl
@[simp] theorem deliver_tacho : (deliver s o r).tacho = s.tacho := rfl
@[simp] theorem deliver_saf : (deliver s o r).saf = s.saf := rfl
@[simp] theorem deliver_upd : (deliver s o r).upd = s.upd := rfl
@[simp] theorem deliver_perf : (deliver s o r).perf = s.perf := rfl
@[simp] theorem deliver_st : (deliver s o r).st = s.st := rfl
@[simp] theorem deliver_cnt : (deliver s o r).cnt = s.cnt := rfl
@[simp] theorem deliver_egress : (deliver s o r).egress = s.egress := rfl
@[simp] theorem deliver_pending : (deliver s o r).pending = s.pending := rfl
@[simp] theorem deliver_sup_dict : (deliver s o r).sup.dict = s.sup.dict := rfl
@[simp] theorem deliver_sup_stalls : (deliver s o r).sup.stalls = s.sup.stalls := rfl
@[simp] theorem deliver_sup_ctxs : (deliver s o r).sup.ctxs = s.sup.ctxs := rfl
@[simp] theorem deliver_sup_reqs : (deliver s o r).sup.reqs = s.sup.reqs := rfl
@[simp] theorem deliver_sup_resps : (deliver s o r).sup.resps = s.sup.resps := rfl
@[simp] theorem deliver_sup_mode : (deliver s o r).sup.mode = s.sup.mode := rfl
@[simp] theorem deliver_sup_modePending : (deliver s o r).sup.modePending = s.sup.modePending := rfl
@[simp] theorem deliver_sup_adopted : (deliver s o r).sup.adopted = s.sup.adopted := rfl
@[simp] theorem deliver_sup_samples : (deliver s o r).sup.samples = s.sup.samples := rfl
@[simp] theorem deliver_sup_di : (deliver s o r).sup.di = s.sup.di := rfl
@[simp] theorem deliver_sup_posted : (deliver s o r).sup.posted = s.sup.posted := rfl
@[simp] theorem deliver_sup_outs : (deliver s o r).sup.outs = s.sup.outs := rfl
@[simp] theorem deliver_sup_outsPrev : (deliver s o r).sup.outsPrev = s.sup.outsPrev := rfl
@[simp] theorem deliver_sup_forceDi : (deliver s o r).sup.forceDi = s.sup.forceDi := rfl
@[simp] theorem deliver_sup_forceDo : (deliver s o r).sup.forceDo = s.sup.forceDo := rfl
@[simp] theorem deliver_sup_forceAi : (deliver s o r).sup.forceAi = s.sup.forceAi := rfl
@[simp] theorem deliver_sup_doLast : (deliver s o r).sup.doLast = s.sup.doLast := rfl
@[simp] theorem deliver_sup_cmdSeq : (deliver s o r).sup.cmdSeq = s.sup.cmdSeq := rfl
@[simp] theorem deliver_sup_safReqs : (deliver s o r).sup.safReqs = s.sup.safReqs := rfl
@[simp] theorem deliver_sup_timedDo : (deliver s o r).sup.timedDo = s.sup.timedDo := rfl
@[simp] theorem deliver_sup_withdraw : (deliver s o r).sup.withdraw = s.sup.withdraw := rfl
@[simp] theorem deliver_sup_retainSeq : (deliver s o r).sup.retainSeq = s.sup.retainSeq := rfl
@[simp] theorem deliver_sup_tp : (deliver s o r).sup.tp = s.sup.tp := rfl
@[simp] theorem deliver_sup_triggers : (deliver s o r).sup.triggers = s.sup.triggers := rfl
@[simp] theorem deliver_sup_trigGen : (deliver s o r).sup.trigGen = s.sup.trigGen := rfl
@[simp] theorem deliver_sup_en : (deliver s o r).sup.en = s.sup.en := rfl
@[simp] theorem deliver_sup_groups : (deliver s o r).sup.groups = s.sup.groups := rfl
@[simp] theorem deliver_sup_chg : (deliver s o r).sup.chg = s.sup.chg := rfl
@[simp] theorem deliver_sup_chgCount : (deliver s o r).sup.chgCount = s.sup.chgCount := rfl
@[simp] theorem deliver_sup_arbArm : (deliver s o r).sup.arbArm = s.sup.arbArm := rfl
@[simp] theorem deliver_sup_arbTack : (deliver s o r).sup.arbTack = s.sup.arbTack := rfl
@[simp] theorem deliver_sup_seqs : (deliver s o r).sup.seqs = s.sup.seqs := rfl
@[simp] theorem deliver_sup_buckets : (deliver s o r).sup.buckets = s.sup.buckets := rfl
@[simp] theorem blockCount_agreed : (blockCount s i j).agreed = s.agreed := rfl
@[simp] theorem blockCount_cyc : (blockCount s i j).cyc = s.cyc := rfl
@[simp] theorem blockCount_lanes : (blockCount s i j).lanes = s.lanes := rfl
@[simp] theorem blockCount_agree : (blockCount s i j).agree = s.agree := rfl
@[simp] theorem blockCount_ilinks : (blockCount s i j).ilinks = s.ilinks := rfl
@[simp] theorem blockCount_hubs : (blockCount s i j).hubs = s.hubs := rfl
@[simp] theorem blockCount_hubDiff : (blockCount s i j).hubDiff = s.hubDiff := rfl
@[simp] theorem blockCount_hubDiffRun : (blockCount s i j).hubDiffRun = s.hubDiffRun := rfl
@[simp] theorem blockCount_hubDiffDone : (blockCount s i j).hubDiffDone = s.hubDiffDone := rfl
@[simp] theorem blockCount_recd : (blockCount s i j).recd = s.recd := rfl
@[simp] theorem blockCount_supply : (blockCount s i j).supply = s.supply := rfl
@[simp] theorem blockCount_shedHub : (blockCount s i j).shedHub = s.shedHub := rfl
@[simp] theorem blockCount_bb : (blockCount s i j).bb = s.bb := rfl
@[simp] theorem blockCount_con : (blockCount s i j).con = s.con := rfl
@[simp] theorem blockCount_twin : (blockCount s i j).twin = s.twin := rfl
@[simp] theorem blockCount_br : (blockCount s i j).br = s.br := rfl
@[simp] theorem blockCount_field : (blockCount s i j).field = s.field := rfl
@[simp] theorem blockCount_tacho : (blockCount s i j).tacho = s.tacho := rfl
@[simp] theorem blockCount_saf : (blockCount s i j).saf = s.saf := rfl
@[simp] theorem blockCount_upd : (blockCount s i j).upd = s.upd := rfl
@[simp] theorem blockCount_st : (blockCount s i j).st = s.st := rfl
@[simp] theorem blockCount_cnt : (blockCount s i j).cnt = s.cnt := rfl
@[simp] theorem blockCount_egress : (blockCount s i j).egress = s.egress := rfl
@[simp] theorem blockCount_pending : (blockCount s i j).pending = s.pending := rfl
@[simp] theorem blockCount_sup_dict : (blockCount s i j).sup.dict = s.sup.dict := rfl
@[simp] theorem blockCount_sup_stalls : (blockCount s i j).sup.stalls = s.sup.stalls := rfl
@[simp] theorem blockCount_sup_ctxs : (blockCount s i j).sup.ctxs = s.sup.ctxs := rfl
@[simp] theorem blockCount_sup_reqs : (blockCount s i j).sup.reqs = s.sup.reqs := rfl
@[simp] theorem blockCount_sup_resps : (blockCount s i j).sup.resps = s.sup.resps := rfl
@[simp] theorem blockCount_sup_mode : (blockCount s i j).sup.mode = s.sup.mode := rfl
@[simp] theorem blockCount_sup_modePending : (blockCount s i j).sup.modePending = s.sup.modePending := rfl
@[simp] theorem blockCount_sup_adopted : (blockCount s i j).sup.adopted = s.sup.adopted := rfl
@[simp] theorem blockCount_sup_samples : (blockCount s i j).sup.samples = s.sup.samples := rfl
@[simp] theorem blockCount_sup_di : (blockCount s i j).sup.di = s.sup.di := rfl
@[simp] theorem blockCount_sup_posted : (blockCount s i j).sup.posted = s.sup.posted := rfl
@[simp] theorem blockCount_sup_outs : (blockCount s i j).sup.outs = s.sup.outs := rfl
@[simp] theorem blockCount_sup_outsPrev : (blockCount s i j).sup.outsPrev = s.sup.outsPrev := rfl
@[simp] theorem blockCount_sup_forceDi : (blockCount s i j).sup.forceDi = s.sup.forceDi := rfl
@[simp] theorem blockCount_sup_forceDo : (blockCount s i j).sup.forceDo = s.sup.forceDo := rfl
@[simp] theorem blockCount_sup_forceAi : (blockCount s i j).sup.forceAi = s.sup.forceAi := rfl
@[simp] theorem blockCount_sup_doLast : (blockCount s i j).sup.doLast = s.sup.doLast := rfl
@[simp] theorem blockCount_sup_cmdSeq : (blockCount s i j).sup.cmdSeq = s.sup.cmdSeq := rfl
@[simp] theorem blockCount_sup_safReqs : (blockCount s i j).sup.safReqs = s.sup.safReqs := rfl
@[simp] theorem blockCount_sup_timedDo : (blockCount s i j).sup.timedDo = s.sup.timedDo := rfl
@[simp] theorem blockCount_sup_withdraw : (blockCount s i j).sup.withdraw = s.sup.withdraw := rfl
@[simp] theorem blockCount_sup_retainSeq : (blockCount s i j).sup.retainSeq = s.sup.retainSeq := rfl
@[simp] theorem blockCount_sup_tp : (blockCount s i j).sup.tp = s.sup.tp := rfl
@[simp] theorem blockCount_sup_triggers : (blockCount s i j).sup.triggers = s.sup.triggers := rfl
@[simp] theorem blockCount_sup_trigGen : (blockCount s i j).sup.trigGen = s.sup.trigGen := rfl
@[simp] theorem blockCount_sup_en : (blockCount s i j).sup.en = s.sup.en := rfl
@[simp] theorem blockCount_sup_groups : (blockCount s i j).sup.groups = s.sup.groups := rfl
@[simp] theorem blockCount_sup_chg : (blockCount s i j).sup.chg = s.sup.chg := rfl
@[simp] theorem blockCount_sup_chgCount : (blockCount s i j).sup.chgCount = s.sup.chgCount := rfl
@[simp] theorem blockCount_sup_arbArm : (blockCount s i j).sup.arbArm = s.sup.arbArm := rfl
@[simp] theorem blockCount_sup_arbTack : (blockCount s i j).sup.arbTack = s.sup.arbTack := rfl
@[simp] theorem blockCount_sup_seqs : (blockCount s i j).sup.seqs = s.sup.seqs := rfl
@[simp] theorem blockCount_sup_buckets : (blockCount s i j).sup.buckets = s.sup.buckets := rfl
@[simp] theorem laneTx_agreed : (laneTx s n).agreed = s.agreed := rfl
@[simp] theorem laneTx_cyc : (laneTx s n).cyc = s.cyc := rfl
@[simp] theorem laneTx_lanes : (laneTx s n).lanes = s.lanes := rfl
@[simp] theorem laneTx_agree : (laneTx s n).agree = s.agree := rfl
@[simp] theorem laneTx_ilinks : (laneTx s n).ilinks = s.ilinks := rfl
@[simp] theorem laneTx_hubs : (laneTx s n).hubs = s.hubs := rfl
@[simp] theorem laneTx_hubDiff : (laneTx s n).hubDiff = s.hubDiff := rfl
@[simp] theorem laneTx_hubDiffRun : (laneTx s n).hubDiffRun = s.hubDiffRun := rfl
@[simp] theorem laneTx_hubDiffDone : (laneTx s n).hubDiffDone = s.hubDiffDone := rfl
@[simp] theorem laneTx_recd : (laneTx s n).recd = s.recd := rfl
@[simp] theorem laneTx_supply : (laneTx s n).supply = s.supply := rfl
@[simp] theorem laneTx_shedHub : (laneTx s n).shedHub = s.shedHub := rfl
@[simp] theorem laneTx_bb : (laneTx s n).bb = s.bb := rfl
@[simp] theorem laneTx_twin : (laneTx s n).twin = s.twin := rfl
@[simp] theorem laneTx_br : (laneTx s n).br = s.br := rfl
@[simp] theorem laneTx_field : (laneTx s n).field = s.field := rfl
@[simp] theorem laneTx_tacho : (laneTx s n).tacho = s.tacho := rfl
@[simp] theorem laneTx_saf : (laneTx s n).saf = s.saf := rfl
@[simp] theorem laneTx_upd : (laneTx s n).upd = s.upd := rfl
@[simp] theorem laneTx_perf : (laneTx s n).perf = s.perf := rfl
@[simp] theorem laneTx_st : (laneTx s n).st = s.st := rfl
@[simp] theorem laneTx_cnt : (laneTx s n).cnt = s.cnt := rfl
@[simp] theorem laneTx_egress : (laneTx s n).egress = s.egress := rfl
@[simp] theorem laneTx_pending : (laneTx s n).pending = s.pending := rfl
@[simp] theorem laneTx_sup_dict : (laneTx s n).sup.dict = s.sup.dict := rfl
@[simp] theorem laneTx_sup_stalls : (laneTx s n).sup.stalls = s.sup.stalls := rfl
@[simp] theorem laneTx_sup_ctxs : (laneTx s n).sup.ctxs = s.sup.ctxs := rfl
@[simp] theorem laneTx_sup_reqs : (laneTx s n).sup.reqs = s.sup.reqs := rfl
@[simp] theorem laneTx_sup_resps : (laneTx s n).sup.resps = s.sup.resps := rfl
@[simp] theorem laneTx_sup_mode : (laneTx s n).sup.mode = s.sup.mode := rfl
@[simp] theorem laneTx_sup_modePending : (laneTx s n).sup.modePending = s.sup.modePending := rfl
@[simp] theorem laneTx_sup_adopted : (laneTx s n).sup.adopted = s.sup.adopted := rfl
@[simp] theorem laneTx_sup_samples : (laneTx s n).sup.samples = s.sup.samples := rfl
@[simp] theorem laneTx_sup_di : (laneTx s n).sup.di = s.sup.di := rfl
@[simp] theorem laneTx_sup_posted : (laneTx s n).sup.posted = s.sup.posted := rfl
@[simp] theorem laneTx_sup_outs : (laneTx s n).sup.outs = s.sup.outs := rfl
@[simp] theorem laneTx_sup_outsPrev : (laneTx s n).sup.outsPrev = s.sup.outsPrev := rfl
@[simp] theorem laneTx_sup_forceDi : (laneTx s n).sup.forceDi = s.sup.forceDi := rfl
@[simp] theorem laneTx_sup_forceDo : (laneTx s n).sup.forceDo = s.sup.forceDo := rfl
@[simp] theorem laneTx_sup_forceAi : (laneTx s n).sup.forceAi = s.sup.forceAi := rfl
@[simp] theorem laneTx_sup_doLast : (laneTx s n).sup.doLast = s.sup.doLast := rfl
@[simp] theorem laneTx_sup_cmdSeq : (laneTx s n).sup.cmdSeq = s.sup.cmdSeq := rfl
@[simp] theorem laneTx_sup_safReqs : (laneTx s n).sup.safReqs = s.sup.safReqs := rfl
@[simp] theorem laneTx_sup_timedDo : (laneTx s n).sup.timedDo = s.sup.timedDo := rfl
@[simp] theorem laneTx_sup_withdraw : (laneTx s n).sup.withdraw = s.sup.withdraw := rfl
@[simp] theorem laneTx_sup_retainSeq : (laneTx s n).sup.retainSeq = s.sup.retainSeq := rfl
@[simp] theorem laneTx_sup_tp : (laneTx s n).sup.tp = s.sup.tp := rfl
@[simp] theorem laneTx_sup_triggers : (laneTx s n).sup.triggers = s.sup.triggers := rfl
@[simp] theorem laneTx_sup_trigGen : (laneTx s n).sup.trigGen = s.sup.trigGen := rfl
@[simp] theorem laneTx_sup_en : (laneTx s n).sup.en = s.sup.en := rfl
@[simp] theorem laneTx_sup_groups : (laneTx s n).sup.groups = s.sup.groups := rfl
@[simp] theorem laneTx_sup_chg : (laneTx s n).sup.chg = s.sup.chg := rfl
@[simp] theorem laneTx_sup_chgCount : (laneTx s n).sup.chgCount = s.sup.chgCount := rfl
@[simp] theorem laneTx_sup_arbArm : (laneTx s n).sup.arbArm = s.sup.arbArm := rfl
@[simp] theorem laneTx_sup_arbTack : (laneTx s n).sup.arbTack = s.sup.arbTack := rfl
@[simp] theorem laneTx_sup_seqs : (laneTx s n).sup.seqs = s.sup.seqs := rfl
@[simp] theorem laneTx_sup_buckets : (laneTx s n).sup.buckets = s.sup.buckets := rfl

end Sys2Proof.Machine
end

