-- ==== Sys2Proof/Laws/Records.lean ====
section
/-!
SUPPORT. Every field of the state that storing a dictionary value, counting, recording an event or answering a request leaves as
it is.
-/

namespace Sys2Proof.Machine

/-- A view that every step of a fold keeps is kept by the fold. -/
theorem foldl_keeps {β α : Type} (g : State → β) (f : State → α → State) (h : ∀ s a, g (f s a) = g s) (l : List α) (s : State) :
    g (l.foldl f s) = g s := by
  induction l generalizing s with
  | nil => rfl
  | cons a l ih => rw [List.foldl_cons, ih, h]


variable (s : State) (e : Entry) (g : Egress) (r : Record) (p : Resp) (st : Stall) (fc : Context → Context) (fs : Stall → Stall)
  (fl : Lane → Lane) (fh : HubDie → HubDie) (fv : Voter → Voter) (fr : CoreRun → CoreRun) (fd : Shed → Shed)
  (i j k l h v n t src code sev stall ctx idx sub pkg : Nat) (data : List Byte) (own : Bool)

@[simp] theorem svx_agreed : (svx s e i j k v).agreed = s.agreed := by unfold svx; split <;> rfl
@[simp] theorem svx_cyc : (svx s e i j k v).cyc = s.cyc := by unfold svx; split <;> rfl
@[simp] theorem svx_lanes : (svx s e i j k v).lanes = s.lanes := by unfold svx; split <;> rfl
@[simp] theorem svx_agree : (svx s e i j k v).agree = s.agree := by unfold svx; split <;> rfl
@[simp] theorem svx_ilinks : (svx s e i j k v).ilinks = s.ilinks := by unfold svx; split <;> rfl
@[simp] theorem svx_hubs : (svx s e i j k v).hubs = s.hubs := by unfold svx; split <;> rfl
@[simp] theorem svx_hubDiff : (svx s e i j k v).hubDiff = s.hubDiff := by unfold svx; split <;> rfl
@[simp] theorem svx_hubDiffRun : (svx s e i j k v).hubDiffRun = s.hubDiffRun := by unfold svx; split <;> rfl
@[simp] theorem svx_hubDiffDone : (svx s e i j k v).hubDiffDone = s.hubDiffDone := by unfold svx; split <;> rfl
@[simp] theorem svx_recd : (svx s e i j k v).recd = s.recd := by unfold svx; split <;> rfl
@[simp] theorem svx_supply : (svx s e i j k v).supply = s.supply := by unfold svx; split <;> rfl
@[simp] theorem svx_shedHub : (svx s e i j k v).shedHub = s.shedHub := by unfold svx; split <;> rfl
@[simp] theorem svx_bb : (svx s e i j k v).bb = s.bb := by unfold svx; split <;> rfl
@[simp] theorem svx_con : (svx s e i j k v).con = s.con := by unfold svx; split <;> rfl
@[simp] theorem svx_twin : (svx s e i j k v).twin = s.twin := by unfold svx; split <;> rfl
@[simp] theorem svx_br : (svx s e i j k v).br = s.br := by unfold svx; split <;> rfl
@[simp] theorem svx_field : (svx s e i j k v).field = s.field := by unfold svx; split <;> rfl
@[simp] theorem svx_tacho : (svx s e i j k v).tacho = s.tacho := by unfold svx; split <;> rfl
@[simp] theorem svx_saf : (svx s e i j k v).saf = s.saf := by unfold svx; split <;> rfl
@[simp] theorem svx_upd : (svx s e i j k v).upd = s.upd := by unfold svx; split <;> rfl
@[simp] theorem svx_perf : (svx s e i j k v).perf = s.perf := by unfold svx; split <;> rfl
@[simp] theorem svx_st : (svx s e i j k v).st = s.st := by unfold svx; split <;> rfl
@[simp] theorem svx_egress : (svx s e i j k v).egress = s.egress := by unfold svx; split <;> rfl
@[simp] theorem svx_pending : (svx s e i j k v).pending = s.pending := by unfold svx; split <;> rfl
@[simp] theorem svx_sup_stalls : (svx s e i j k v).sup.stalls = s.sup.stalls := by unfold svx; split <;> rfl
@[simp] theorem svx_sup_ctxs : (svx s e i j k v).sup.ctxs = s.sup.ctxs := by unfold svx; split <;> rfl
@[simp] theorem svx_sup_reqs : (svx s e i j k v).sup.reqs = s.sup.reqs := by unfold svx; split <;> rfl
@[simp] theorem svx_sup_resps : (svx s e i j k v).sup.resps = s.sup.resps := by unfold svx; split <;> rfl
@[simp] theorem svx_sup_mode : (svx s e i j k v).sup.mode = s.sup.mode := by unfold svx; split <;> rfl
@[simp] theorem svx_sup_modePending : (svx s e i j k v).sup.modePending = s.sup.modePending := by unfold svx; split <;> rfl
@[simp] theorem svx_sup_adopted : (svx s e i j k v).sup.adopted = s.sup.adopted := by unfold svx; split <;> rfl
@[simp] theorem svx_sup_samples : (svx s e i j k v).sup.samples = s.sup.samples := by unfold svx; split <;> rfl
@[simp] theorem svx_sup_di : (svx s e i j k v).sup.di = s.sup.di := by unfold svx; split <;> rfl
@[simp] theorem svx_sup_posted : (svx s e i j k v).sup.posted = s.sup.posted := by unfold svx; split <;> rfl
@[simp] theorem svx_sup_outs : (svx s e i j k v).sup.outs = s.sup.outs := by unfold svx; split <;> rfl
@[simp] theorem svx_sup_forceDi : (svx s e i j k v).sup.forceDi = s.sup.forceDi := by unfold svx; split <;> rfl
@[simp] theorem svx_sup_outsPrev : (svx s e i j k v).sup.outsPrev = s.sup.outsPrev := by unfold svx; split <;> rfl
@[simp] theorem svx_sup_forceDo : (svx s e i j k v).sup.forceDo = s.sup.forceDo := by unfold svx; split <;> rfl
@[simp] theorem svx_sup_forceAi : (svx s e i j k v).sup.forceAi = s.sup.forceAi := by unfold svx; split <;> rfl
@[simp] theorem svx_sup_doLast : (svx s e i j k v).sup.doLast = s.sup.doLast := by unfold svx; split <;> rfl
@[simp] theorem svx_sup_cmdSeq : (svx s e i j k v).sup.cmdSeq = s.sup.cmdSeq := by unfold svx; split <;> rfl
@[simp] theorem svx_sup_safReqs : (svx s e i j k v).sup.safReqs = s.sup.safReqs := by unfold svx; split <;> rfl
@[simp] theorem svx_sup_timedDo : (svx s e i j k v).sup.timedDo = s.sup.timedDo := by unfold svx; split <;> rfl
@[simp] theorem svx_sup_withdraw : (svx s e i j k v).sup.withdraw = s.sup.withdraw := by unfold svx; split <;> rfl
@[simp] theorem svx_sup_retainSeq : (svx s e i j k v).sup.retainSeq = s.sup.retainSeq := by unfold svx; split <;> rfl
@[simp] theorem svx_sup_tp : (svx s e i j k v).sup.tp = s.sup.tp := by unfold svx; split <;> rfl
@[simp] theorem svx_sup_triggers : (svx s e i j k v).sup.triggers = s.sup.triggers := by unfold svx; split <;> rfl
@[simp] theorem svx_sup_trigGen : (svx s e i j k v).sup.trigGen = s.sup.trigGen := by unfold svx; split <;> rfl
@[simp] theorem svx_sup_en : (svx s e i j k v).sup.en = s.sup.en := by unfold svx; split <;> rfl
@[simp] theorem svx_sup_groups : (svx s e i j k v).sup.groups = s.sup.groups := by unfold svx; split <;> rfl
@[simp] theorem svx_sup_chg : (svx s e i j k v).sup.chg = s.sup.chg := by unfold svx; split <;> rfl
@[simp] theorem svx_sup_chgCount : (svx s e i j k v).sup.chgCount = s.sup.chgCount := by unfold svx; split <;> rfl
@[simp] theorem svx_sup_arbArm : (svx s e i j k v).sup.arbArm = s.sup.arbArm := by unfold svx; split <;> rfl
@[simp] theorem svx_sup_arbTack : (svx s e i j k v).sup.arbTack = s.sup.arbTack := by unfold svx; split <;> rfl
@[simp] theorem svx_sup_seqs : (svx s e i j k v).sup.seqs = s.sup.seqs := by unfold svx; split <;> rfl
@[simp] theorem svx_sup_buckets : (svx s e i j k v).sup.buckets = s.sup.buckets := by unfold svx; split <;> rfl
@[simp] theorem svs_agreed : (svs s e i j v).agreed = s.agreed := svx_agreed ..
@[simp] theorem svs_cyc : (svs s e i j v).cyc = s.cyc := svx_cyc ..
@[simp] theorem svs_lanes : (svs s e i j v).lanes = s.lanes := svx_lanes ..
@[simp] theorem svs_agree : (svs s e i j v).agree = s.agree := svx_agree ..
@[simp] theorem svs_ilinks : (svs s e i j v).ilinks = s.ilinks := svx_ilinks ..
@[simp] theorem svs_hubs : (svs s e i j v).hubs = s.hubs := svx_hubs ..
@[simp] theorem svs_hubDiff : (svs s e i j v).hubDiff = s.hubDiff := svx_hubDiff ..
@[simp] theorem svs_hubDiffRun : (svs s e i j v).hubDiffRun = s.hubDiffRun := svx_hubDiffRun ..
@[simp] theorem svs_hubDiffDone : (svs s e i j v).hubDiffDone = s.hubDiffDone := svx_hubDiffDone ..
@[simp] theorem svs_recd : (svs s e i j v).recd = s.recd := svx_recd ..
@[simp] theorem svs_supply : (svs s e i j v).supply = s.supply := svx_supply ..
@[simp] theorem svs_shedHub : (svs s e i j v).shedHub = s.shedHub := svx_shedHub ..
@[simp] theorem svs_bb : (svs s e i j v).bb = s.bb := svx_bb ..
@[simp] theorem svs_con : (svs s e i j v).con = s.con := svx_con ..
@[simp] theorem svs_twin : (svs s e i j v).twin = s.twin := svx_twin ..
@[simp] theorem svs_br : (svs s e i j v).br = s.br := svx_br ..
@[simp] theorem svs_field : (svs s e i j v).field = s.field := svx_field ..
@[simp] theorem svs_tacho : (svs s e i j v).tacho = s.tacho := svx_tacho ..
@[simp] theorem svs_saf : (svs s e i j v).saf = s.saf := svx_saf ..
@[simp] theorem svs_upd : (svs s e i j v).upd = s.upd := svx_upd ..
@[simp] theorem svs_perf : (svs s e i j v).perf = s.perf := svx_perf ..
@[simp] theorem svs_st : (svs s e i j v).st = s.st := svx_st ..
@[simp] theorem svs_egress : (svs s e i j v).egress = s.egress := svx_egress ..
@[simp] theorem svs_pending : (svs s e i j v).pending = s.pending := svx_pending ..
@[simp] theorem svs_sup_stalls : (svs s e i j v).sup.stalls = s.sup.stalls := svx_sup_stalls ..
@[simp] theorem svs_sup_ctxs : (svs s e i j v).sup.ctxs = s.sup.ctxs := svx_sup_ctxs ..
@[simp] theorem svs_sup_reqs : (svs s e i j v).sup.reqs = s.sup.reqs := svx_sup_reqs ..
@[simp] theorem svs_sup_resps : (svs s e i j v).sup.resps = s.sup.resps := svx_sup_resps ..
@[simp] theorem svs_sup_mode : (svs s e i j v).sup.mode = s.sup.mode := svx_sup_mode ..
@[simp] theorem svs_sup_modePending : (svs s e i j v).sup.modePending = s.sup.modePending := svx_sup_modePending ..
@[simp] theorem svs_sup_adopted : (svs s e i j v).sup.adopted = s.sup.adopted := svx_sup_adopted ..
@[simp] theorem svs_sup_samples : (svs s e i j v).sup.samples = s.sup.samples := svx_sup_samples ..
@[simp] theorem svs_sup_di : (svs s e i j v).sup.di = s.sup.di := svx_sup_di ..
@[simp] theorem svs_sup_posted : (svs s e i j v).sup.posted = s.sup.posted := svx_sup_posted ..
@[simp] theorem svs_sup_outs : (svs s e i j v).sup.outs = s.sup.outs := svx_sup_outs ..
@[simp] theorem svs_sup_forceDi : (svs s e i j v).sup.forceDi = s.sup.forceDi := svx_sup_forceDi ..
@[simp] theorem svs_sup_outsPrev : (svs s e i j v).sup.outsPrev = s.sup.outsPrev := svx_sup_outsPrev ..
@[simp] theorem svs_sup_forceDo : (svs s e i j v).sup.forceDo = s.sup.forceDo := svx_sup_forceDo ..
@[simp] theorem svs_sup_forceAi : (svs s e i j v).sup.forceAi = s.sup.forceAi := svx_sup_forceAi ..
@[simp] theorem svs_sup_doLast : (svs s e i j v).sup.doLast = s.sup.doLast := svx_sup_doLast ..
@[simp] theorem svs_sup_cmdSeq : (svs s e i j v).sup.cmdSeq = s.sup.cmdSeq := svx_sup_cmdSeq ..
@[simp] theorem svs_sup_safReqs : (svs s e i j v).sup.safReqs = s.sup.safReqs := svx_sup_safReqs ..
@[simp] theorem svs_sup_timedDo : (svs s e i j v).sup.timedDo = s.sup.timedDo := svx_sup_timedDo ..
@[simp] theorem svs_sup_withdraw : (svs s e i j v).sup.withdraw = s.sup.withdraw := svx_sup_withdraw ..
@[simp] theorem svs_sup_retainSeq : (svs s e i j v).sup.retainSeq = s.sup.retainSeq := svx_sup_retainSeq ..
@[simp] theorem svs_sup_tp : (svs s e i j v).sup.tp = s.sup.tp := svx_sup_tp ..
@[simp] theorem svs_sup_triggers : (svs s e i j v).sup.triggers = s.sup.triggers := svx_sup_triggers ..
@[simp] theorem svs_sup_trigGen : (svs s e i j v).sup.trigGen = s.sup.trigGen := svx_sup_trigGen ..
@[simp] theorem svs_sup_en : (svs s e i j v).sup.en = s.sup.en := svx_sup_en ..
@[simp] theorem svs_sup_groups : (svs s e i j v).sup.groups = s.sup.groups := svx_sup_groups ..
@[simp] theorem svs_sup_chg : (svs s e i j v).sup.chg = s.sup.chg := svx_sup_chg ..
@[simp] theorem svs_sup_chgCount : (svs s e i j v).sup.chgCount = s.sup.chgCount := svx_sup_chgCount ..
@[simp] theorem svs_sup_arbArm : (svs s e i j v).sup.arbArm = s.sup.arbArm := svx_sup_arbArm ..
@[simp] theorem svs_sup_arbTack : (svs s e i j v).sup.arbTack = s.sup.arbTack := svx_sup_arbTack ..
@[simp] theorem svs_sup_seqs : (svs s e i j v).sup.seqs = s.sup.seqs := svx_sup_seqs ..
@[simp] theorem svs_sup_buckets : (svs s e i j v).sup.buckets = s.sup.buckets := svx_sup_buckets ..
@[simp] theorem svi_agreed : (svi s e i v).agreed = s.agreed := svx_agreed ..
@[simp] theorem svi_cyc : (svi s e i v).cyc = s.cyc := svx_cyc ..
@[simp] theorem svi_lanes : (svi s e i v).lanes = s.lanes := svx_lanes ..
@[simp] theorem svi_agree : (svi s e i v).agree = s.agree := svx_agree ..
@[simp] theorem svi_ilinks : (svi s e i v).ilinks = s.ilinks := svx_ilinks ..
@[simp] theorem svi_hubs : (svi s e i v).hubs = s.hubs := svx_hubs ..
@[simp] theorem svi_hubDiff : (svi s e i v).hubDiff = s.hubDiff := svx_hubDiff ..
@[simp] theorem svi_hubDiffRun : (svi s e i v).hubDiffRun = s.hubDiffRun := svx_hubDiffRun ..
@[simp] theorem svi_hubDiffDone : (svi s e i v).hubDiffDone = s.hubDiffDone := svx_hubDiffDone ..
@[simp] theorem svi_recd : (svi s e i v).recd = s.recd := svx_recd ..
@[simp] theorem svi_supply : (svi s e i v).supply = s.supply := svx_supply ..
@[simp] theorem svi_shedHub : (svi s e i v).shedHub = s.shedHub := svx_shedHub ..
@[simp] theorem svi_bb : (svi s e i v).bb = s.bb := svx_bb ..
@[simp] theorem svi_con : (svi s e i v).con = s.con := svx_con ..
@[simp] theorem svi_twin : (svi s e i v).twin = s.twin := svx_twin ..
@[simp] theorem svi_br : (svi s e i v).br = s.br := svx_br ..
@[simp] theorem svi_field : (svi s e i v).field = s.field := svx_field ..
@[simp] theorem svi_tacho : (svi s e i v).tacho = s.tacho := svx_tacho ..
@[simp] theorem svi_saf : (svi s e i v).saf = s.saf := svx_saf ..
@[simp] theorem svi_upd : (svi s e i v).upd = s.upd := svx_upd ..
@[simp] theorem svi_perf : (svi s e i v).perf = s.perf := svx_perf ..
@[simp] theorem svi_st : (svi s e i v).st = s.st := svx_st ..
@[simp] theorem svi_egress : (svi s e i v).egress = s.egress := svx_egress ..
@[simp] theorem svi_pending : (svi s e i v).pending = s.pending := svx_pending ..
@[simp] theorem svi_sup_stalls : (svi s e i v).sup.stalls = s.sup.stalls := svx_sup_stalls ..
@[simp] theorem svi_sup_ctxs : (svi s e i v).sup.ctxs = s.sup.ctxs := svx_sup_ctxs ..
@[simp] theorem svi_sup_reqs : (svi s e i v).sup.reqs = s.sup.reqs := svx_sup_reqs ..
@[simp] theorem svi_sup_resps : (svi s e i v).sup.resps = s.sup.resps := svx_sup_resps ..
@[simp] theorem svi_sup_mode : (svi s e i v).sup.mode = s.sup.mode := svx_sup_mode ..
@[simp] theorem svi_sup_modePending : (svi s e i v).sup.modePending = s.sup.modePending := svx_sup_modePending ..
@[simp] theorem svi_sup_adopted : (svi s e i v).sup.adopted = s.sup.adopted := svx_sup_adopted ..
@[simp] theorem svi_sup_samples : (svi s e i v).sup.samples = s.sup.samples := svx_sup_samples ..
@[simp] theorem svi_sup_di : (svi s e i v).sup.di = s.sup.di := svx_sup_di ..
@[simp] theorem svi_sup_posted : (svi s e i v).sup.posted = s.sup.posted := svx_sup_posted ..
@[simp] theorem svi_sup_outs : (svi s e i v).sup.outs = s.sup.outs := svx_sup_outs ..
@[simp] theorem svi_sup_forceDi : (svi s e i v).sup.forceDi = s.sup.forceDi := svx_sup_forceDi ..
@[simp] theorem svi_sup_outsPrev : (svi s e i v).sup.outsPrev = s.sup.outsPrev := svx_sup_outsPrev ..
@[simp] theorem svi_sup_forceDo : (svi s e i v).sup.forceDo = s.sup.forceDo := svx_sup_forceDo ..
@[simp] theorem svi_sup_forceAi : (svi s e i v).sup.forceAi = s.sup.forceAi := svx_sup_forceAi ..
@[simp] theorem svi_sup_doLast : (svi s e i v).sup.doLast = s.sup.doLast := svx_sup_doLast ..
@[simp] theorem svi_sup_cmdSeq : (svi s e i v).sup.cmdSeq = s.sup.cmdSeq := svx_sup_cmdSeq ..
@[simp] theorem svi_sup_safReqs : (svi s e i v).sup.safReqs = s.sup.safReqs := svx_sup_safReqs ..
@[simp] theorem svi_sup_timedDo : (svi s e i v).sup.timedDo = s.sup.timedDo := svx_sup_timedDo ..
@[simp] theorem svi_sup_withdraw : (svi s e i v).sup.withdraw = s.sup.withdraw := svx_sup_withdraw ..
@[simp] theorem svi_sup_retainSeq : (svi s e i v).sup.retainSeq = s.sup.retainSeq := svx_sup_retainSeq ..
@[simp] theorem svi_sup_tp : (svi s e i v).sup.tp = s.sup.tp := svx_sup_tp ..
@[simp] theorem svi_sup_triggers : (svi s e i v).sup.triggers = s.sup.triggers := svx_sup_triggers ..
@[simp] theorem svi_sup_trigGen : (svi s e i v).sup.trigGen = s.sup.trigGen := svx_sup_trigGen ..
@[simp] theorem svi_sup_en : (svi s e i v).sup.en = s.sup.en := svx_sup_en ..
@[simp] theorem svi_sup_groups : (svi s e i v).sup.groups = s.sup.groups := svx_sup_groups ..
@[simp] theorem svi_sup_chg : (svi s e i v).sup.chg = s.sup.chg := svx_sup_chg ..
@[simp] theorem svi_sup_chgCount : (svi s e i v).sup.chgCount = s.sup.chgCount := svx_sup_chgCount ..
@[simp] theorem svi_sup_arbArm : (svi s e i v).sup.arbArm = s.sup.arbArm := svx_sup_arbArm ..
@[simp] theorem svi_sup_arbTack : (svi s e i v).sup.arbTack = s.sup.arbTack := svx_sup_arbTack ..
@[simp] theorem svi_sup_seqs : (svi s e i v).sup.seqs = s.sup.seqs := svx_sup_seqs ..
@[simp] theorem svi_sup_buckets : (svi s e i v).sup.buckets = s.sup.buckets := svx_sup_buckets ..
@[simp] theorem sv_agreed : (sv s e v).agreed = s.agreed := svx_agreed ..
@[simp] theorem sv_cyc : (sv s e v).cyc = s.cyc := svx_cyc ..
@[simp] theorem sv_lanes : (sv s e v).lanes = s.lanes := svx_lanes ..
@[simp] theorem sv_agree : (sv s e v).agree = s.agree := svx_agree ..
@[simp] theorem sv_ilinks : (sv s e v).ilinks = s.ilinks := svx_ilinks ..
@[simp] theorem sv_hubs : (sv s e v).hubs = s.hubs := svx_hubs ..
@[simp] theorem sv_hubDiff : (sv s e v).hubDiff = s.hubDiff := svx_hubDiff ..
@[simp] theorem sv_hubDiffRun : (sv s e v).hubDiffRun = s.hubDiffRun := svx_hubDiffRun ..
@[simp] theorem sv_hubDiffDone : (sv s e v).hubDiffDone = s.hubDiffDone := svx_hubDiffDone ..
@[simp] theorem sv_recd : (sv s e v).recd = s.recd := svx_recd ..
@[simp] theorem sv_supply : (sv s e v).supply = s.supply := svx_supply ..
@[simp] theorem sv_shedHub : (sv s e v).shedHub = s.shedHub := svx_shedHub ..
@[simp] theorem sv_bb : (sv s e v).bb = s.bb := svx_bb ..
@[simp] theorem sv_con : (sv s e v).con = s.con := svx_con ..
@[simp] theorem sv_twin : (sv s e v).twin = s.twin := svx_twin ..
@[simp] theorem sv_br : (sv s e v).br = s.br := svx_br ..
@[simp] theorem sv_field : (sv s e v).field = s.field := svx_field ..
@[simp] theorem sv_tacho : (sv s e v).tacho = s.tacho := svx_tacho ..
@[simp] theorem sv_saf : (sv s e v).saf = s.saf := svx_saf ..
@[simp] theorem sv_upd : (sv s e v).upd = s.upd := svx_upd ..
@[simp] theorem sv_perf : (sv s e v).perf = s.perf := svx_perf ..
@[simp] theorem sv_st : (sv s e v).st = s.st := svx_st ..
@[simp] theorem sv_egress : (sv s e v).egress = s.egress := svx_egress ..
@[simp] theorem sv_pending : (sv s e v).pending = s.pending := svx_pending ..
@[simp] theorem sv_sup_stalls : (sv s e v).sup.stalls = s.sup.stalls := svx_sup_stalls ..
@[simp] theorem sv_sup_ctxs : (sv s e v).sup.ctxs = s.sup.ctxs := svx_sup_ctxs ..
@[simp] theorem sv_sup_reqs : (sv s e v).sup.reqs = s.sup.reqs := svx_sup_reqs ..
@[simp] theorem sv_sup_resps : (sv s e v).sup.resps = s.sup.resps := svx_sup_resps ..
@[simp] theorem sv_sup_mode : (sv s e v).sup.mode = s.sup.mode := svx_sup_mode ..
@[simp] theorem sv_sup_modePending : (sv s e v).sup.modePending = s.sup.modePending := svx_sup_modePending ..
@[simp] theorem sv_sup_adopted : (sv s e v).sup.adopted = s.sup.adopted := svx_sup_adopted ..
@[simp] theorem sv_sup_samples : (sv s e v).sup.samples = s.sup.samples := svx_sup_samples ..
@[simp] theorem sv_sup_di : (sv s e v).sup.di = s.sup.di := svx_sup_di ..
@[simp] theorem sv_sup_posted : (sv s e v).sup.posted = s.sup.posted := svx_sup_posted ..
@[simp] theorem sv_sup_outs : (sv s e v).sup.outs = s.sup.outs := svx_sup_outs ..
@[simp] theorem sv_sup_forceDi : (sv s e v).sup.forceDi = s.sup.forceDi := svx_sup_forceDi ..
@[simp] theorem sv_sup_outsPrev : (sv s e v).sup.outsPrev = s.sup.outsPrev := svx_sup_outsPrev ..
@[simp] theorem sv_sup_forceDo : (sv s e v).sup.forceDo = s.sup.forceDo := svx_sup_forceDo ..
@[simp] theorem sv_sup_forceAi : (sv s e v).sup.forceAi = s.sup.forceAi := svx_sup_forceAi ..
@[simp] theorem sv_sup_doLast : (sv s e v).sup.doLast = s.sup.doLast := svx_sup_doLast ..
@[simp] theorem sv_sup_cmdSeq : (sv s e v).sup.cmdSeq = s.sup.cmdSeq := svx_sup_cmdSeq ..
@[simp] theorem sv_sup_safReqs : (sv s e v).sup.safReqs = s.sup.safReqs := svx_sup_safReqs ..
@[simp] theorem sv_sup_timedDo : (sv s e v).sup.timedDo = s.sup.timedDo := svx_sup_timedDo ..
@[simp] theorem sv_sup_withdraw : (sv s e v).sup.withdraw = s.sup.withdraw := svx_sup_withdraw ..
@[simp] theorem sv_sup_retainSeq : (sv s e v).sup.retainSeq = s.sup.retainSeq := svx_sup_retainSeq ..
@[simp] theorem sv_sup_tp : (sv s e v).sup.tp = s.sup.tp := svx_sup_tp ..
@[simp] theorem sv_sup_triggers : (sv s e v).sup.triggers = s.sup.triggers := svx_sup_triggers ..
@[simp] theorem sv_sup_trigGen : (sv s e v).sup.trigGen = s.sup.trigGen := svx_sup_trigGen ..
@[simp] theorem sv_sup_en : (sv s e v).sup.en = s.sup.en := svx_sup_en ..
@[simp] theorem sv_sup_groups : (sv s e v).sup.groups = s.sup.groups := svx_sup_groups ..
@[simp] theorem sv_sup_chg : (sv s e v).sup.chg = s.sup.chg := svx_sup_chg ..
@[simp] theorem sv_sup_chgCount : (sv s e v).sup.chgCount = s.sup.chgCount := svx_sup_chgCount ..
@[simp] theorem sv_sup_arbArm : (sv s e v).sup.arbArm = s.sup.arbArm := svx_sup_arbArm ..
@[simp] theorem sv_sup_arbTack : (sv s e v).sup.arbTack = s.sup.arbTack := svx_sup_arbTack ..
@[simp] theorem sv_sup_seqs : (sv s e v).sup.seqs = s.sup.seqs := svx_sup_seqs ..
@[simp] theorem sv_sup_buckets : (sv s e v).sup.buckets = s.sup.buckets := svx_sup_buckets ..
@[simp] theorem bumpx_agreed : (bumpx s e i j k n).agreed = s.agreed := svx_agreed ..
@[simp] theorem bumpx_cyc : (bumpx s e i j k n).cyc = s.cyc := svx_cyc ..
@[simp] theorem bumpx_lanes : (bumpx s e i j k n).lanes = s.lanes := svx_lanes ..
@[simp] theorem bumpx_agree : (bumpx s e i j k n).agree = s.agree := svx_agree ..
@[simp] theorem bumpx_ilinks : (bumpx s e i j k n).ilinks = s.ilinks := svx_ilinks ..
@[simp] theorem bumpx_hubs : (bumpx s e i j k n).hubs = s.hubs := svx_hubs ..
@[simp] theorem bumpx_hubDiff : (bumpx s e i j k n).hubDiff = s.hubDiff := svx_hubDiff ..
@[simp] theorem bumpx_hubDiffRun : (bumpx s e i j k n).hubDiffRun = s.hubDiffRun := svx_hubDiffRun ..
@[simp] theorem bumpx_hubDiffDone : (bumpx s e i j k n).hubDiffDone = s.hubDiffDone := svx_hubDiffDone ..
@[simp] theorem bumpx_recd : (bumpx s e i j k n).recd = s.recd := svx_recd ..
@[simp] theorem bumpx_supply : (bumpx s e i j k n).supply = s.supply := svx_supply ..
@[simp] theorem bumpx_shedHub : (bumpx s e i j k n).shedHub = s.shedHub := svx_shedHub ..
@[simp] theorem bumpx_bb : (bumpx s e i j k n).bb = s.bb := svx_bb ..
@[simp] theorem bumpx_con : (bumpx s e i j k n).con = s.con := svx_con ..
@[simp] theorem bumpx_twin : (bumpx s e i j k n).twin = s.twin := svx_twin ..
@[simp] theorem bumpx_br : (bumpx s e i j k n).br = s.br := svx_br ..
@[simp] theorem bumpx_field : (bumpx s e i j k n).field = s.field := svx_field ..
@[simp] theorem bumpx_tacho : (bumpx s e i j k n).tacho = s.tacho := svx_tacho ..
@[simp] theorem bumpx_saf : (bumpx s e i j k n).saf = s.saf := svx_saf ..
@[simp] theorem bumpx_upd : (bumpx s e i j k n).upd = s.upd := svx_upd ..
@[simp] theorem bumpx_perf : (bumpx s e i j k n).perf = s.perf := svx_perf ..
@[simp] theorem bumpx_st : (bumpx s e i j k n).st = s.st := svx_st ..
@[simp] theorem bumpx_egress : (bumpx s e i j k n).egress = s.egress := svx_egress ..
@[simp] theorem bumpx_pending : (bumpx s e i j k n).pending = s.pending := svx_pending ..
@[simp] theorem bumpx_sup_stalls : (bumpx s e i j k n).sup.stalls = s.sup.stalls := svx_sup_stalls ..
@[simp] theorem bumpx_sup_ctxs : (bumpx s e i j k n).sup.ctxs = s.sup.ctxs := svx_sup_ctxs ..
@[simp] theorem bumpx_sup_reqs : (bumpx s e i j k n).sup.reqs = s.sup.reqs := svx_sup_reqs ..
@[simp] theorem bumpx_sup_resps : (bumpx s e i j k n).sup.resps = s.sup.resps := svx_sup_resps ..
@[simp] theorem bumpx_sup_mode : (bumpx s e i j k n).sup.mode = s.sup.mode := svx_sup_mode ..
@[simp] theorem bumpx_sup_modePending : (bumpx s e i j k n).sup.modePending = s.sup.modePending := svx_sup_modePending ..
@[simp] theorem bumpx_sup_adopted : (bumpx s e i j k n).sup.adopted = s.sup.adopted := svx_sup_adopted ..
@[simp] theorem bumpx_sup_samples : (bumpx s e i j k n).sup.samples = s.sup.samples := svx_sup_samples ..
@[simp] theorem bumpx_sup_di : (bumpx s e i j k n).sup.di = s.sup.di := svx_sup_di ..
@[simp] theorem bumpx_sup_posted : (bumpx s e i j k n).sup.posted = s.sup.posted := svx_sup_posted ..
@[simp] theorem bumpx_sup_outs : (bumpx s e i j k n).sup.outs = s.sup.outs := svx_sup_outs ..
@[simp] theorem bumpx_sup_forceDi : (bumpx s e i j k n).sup.forceDi = s.sup.forceDi := svx_sup_forceDi ..
@[simp] theorem bumpx_sup_outsPrev : (bumpx s e i j k n).sup.outsPrev = s.sup.outsPrev := svx_sup_outsPrev ..
@[simp] theorem bumpx_sup_forceDo : (bumpx s e i j k n).sup.forceDo = s.sup.forceDo := svx_sup_forceDo ..
@[simp] theorem bumpx_sup_forceAi : (bumpx s e i j k n).sup.forceAi = s.sup.forceAi := svx_sup_forceAi ..
@[simp] theorem bumpx_sup_doLast : (bumpx s e i j k n).sup.doLast = s.sup.doLast := svx_sup_doLast ..
@[simp] theorem bumpx_sup_cmdSeq : (bumpx s e i j k n).sup.cmdSeq = s.sup.cmdSeq := svx_sup_cmdSeq ..
@[simp] theorem bumpx_sup_safReqs : (bumpx s e i j k n).sup.safReqs = s.sup.safReqs := svx_sup_safReqs ..
@[simp] theorem bumpx_sup_timedDo : (bumpx s e i j k n).sup.timedDo = s.sup.timedDo := svx_sup_timedDo ..
@[simp] theorem bumpx_sup_withdraw : (bumpx s e i j k n).sup.withdraw = s.sup.withdraw := svx_sup_withdraw ..
@[simp] theorem bumpx_sup_retainSeq : (bumpx s e i j k n).sup.retainSeq = s.sup.retainSeq := svx_sup_retainSeq ..
@[simp] theorem bumpx_sup_tp : (bumpx s e i j k n).sup.tp = s.sup.tp := svx_sup_tp ..
@[simp] theorem bumpx_sup_triggers : (bumpx s e i j k n).sup.triggers = s.sup.triggers := svx_sup_triggers ..
@[simp] theorem bumpx_sup_trigGen : (bumpx s e i j k n).sup.trigGen = s.sup.trigGen := svx_sup_trigGen ..
@[simp] theorem bumpx_sup_en : (bumpx s e i j k n).sup.en = s.sup.en := svx_sup_en ..
@[simp] theorem bumpx_sup_groups : (bumpx s e i j k n).sup.groups = s.sup.groups := svx_sup_groups ..
@[simp] theorem bumpx_sup_chg : (bumpx s e i j k n).sup.chg = s.sup.chg := svx_sup_chg ..
@[simp] theorem bumpx_sup_chgCount : (bumpx s e i j k n).sup.chgCount = s.sup.chgCount := svx_sup_chgCount ..
@[simp] theorem bumpx_sup_arbArm : (bumpx s e i j k n).sup.arbArm = s.sup.arbArm := svx_sup_arbArm ..
@[simp] theorem bumpx_sup_arbTack : (bumpx s e i j k n).sup.arbTack = s.sup.arbTack := svx_sup_arbTack ..
@[simp] theorem bumpx_sup_seqs : (bumpx s e i j k n).sup.seqs = s.sup.seqs := svx_sup_seqs ..
@[simp] theorem bumpx_sup_buckets : (bumpx s e i j k n).sup.buckets = s.sup.buckets := svx_sup_buckets ..
@[simp] theorem bumps_agreed : (bumps s e i j n).agreed = s.agreed := bumpx_agreed ..
@[simp] theorem bumps_cyc : (bumps s e i j n).cyc = s.cyc := bumpx_cyc ..
@[simp] theorem bumps_lanes : (bumps s e i j n).lanes = s.lanes := bumpx_lanes ..
@[simp] theorem bumps_agree : (bumps s e i j n).agree = s.agree := bumpx_agree ..
@[simp] theorem bumps_ilinks : (bumps s e i j n).ilinks = s.ilinks := bumpx_ilinks ..
@[simp] theorem bumps_hubs : (bumps s e i j n).hubs = s.hubs := bumpx_hubs ..
@[simp] theorem bumps_hubDiff : (bumps s e i j n).hubDiff = s.hubDiff := bumpx_hubDiff ..
@[simp] theorem bumps_hubDiffRun : (bumps s e i j n).hubDiffRun = s.hubDiffRun := bumpx_hubDiffRun ..
@[simp] theorem bumps_hubDiffDone : (bumps s e i j n).hubDiffDone = s.hubDiffDone := bumpx_hubDiffDone ..
@[simp] theorem bumps_recd : (bumps s e i j n).recd = s.recd := bumpx_recd ..
@[simp] theorem bumps_supply : (bumps s e i j n).supply = s.supply := bumpx_supply ..
@[simp] theorem bumps_shedHub : (bumps s e i j n).shedHub = s.shedHub := bumpx_shedHub ..
@[simp] theorem bumps_bb : (bumps s e i j n).bb = s.bb := bumpx_bb ..
@[simp] theorem bumps_con : (bumps s e i j n).con = s.con := bumpx_con ..
@[simp] theorem bumps_twin : (bumps s e i j n).twin = s.twin := bumpx_twin ..
@[simp] theorem bumps_br : (bumps s e i j n).br = s.br := bumpx_br ..
@[simp] theorem bumps_field : (bumps s e i j n).field = s.field := bumpx_field ..
@[simp] theorem bumps_tacho : (bumps s e i j n).tacho = s.tacho := bumpx_tacho ..
@[simp] theorem bumps_saf : (bumps s e i j n).saf = s.saf := bumpx_saf ..
@[simp] theorem bumps_upd : (bumps s e i j n).upd = s.upd := bumpx_upd ..
@[simp] theorem bumps_perf : (bumps s e i j n).perf = s.perf := bumpx_perf ..
@[simp] theorem bumps_st : (bumps s e i j n).st = s.st := bumpx_st ..
@[simp] theorem bumps_egress : (bumps s e i j n).egress = s.egress := bumpx_egress ..
@[simp] theorem bumps_pending : (bumps s e i j n).pending = s.pending := bumpx_pending ..
@[simp] theorem bumps_sup_stalls : (bumps s e i j n).sup.stalls = s.sup.stalls := bumpx_sup_stalls ..
@[simp] theorem bumps_sup_ctxs : (bumps s e i j n).sup.ctxs = s.sup.ctxs := bumpx_sup_ctxs ..
@[simp] theorem bumps_sup_reqs : (bumps s e i j n).sup.reqs = s.sup.reqs := bumpx_sup_reqs ..
@[simp] theorem bumps_sup_resps : (bumps s e i j n).sup.resps = s.sup.resps := bumpx_sup_resps ..
@[simp] theorem bumps_sup_mode : (bumps s e i j n).sup.mode = s.sup.mode := bumpx_sup_mode ..
@[simp] theorem bumps_sup_modePending : (bumps s e i j n).sup.modePending = s.sup.modePending := bumpx_sup_modePending ..
@[simp] theorem bumps_sup_adopted : (bumps s e i j n).sup.adopted = s.sup.adopted := bumpx_sup_adopted ..
@[simp] theorem bumps_sup_samples : (bumps s e i j n).sup.samples = s.sup.samples := bumpx_sup_samples ..
@[simp] theorem bumps_sup_di : (bumps s e i j n).sup.di = s.sup.di := bumpx_sup_di ..
@[simp] theorem bumps_sup_posted : (bumps s e i j n).sup.posted = s.sup.posted := bumpx_sup_posted ..
@[simp] theorem bumps_sup_outs : (bumps s e i j n).sup.outs = s.sup.outs := bumpx_sup_outs ..
@[simp] theorem bumps_sup_forceDi : (bumps s e i j n).sup.forceDi = s.sup.forceDi := bumpx_sup_forceDi ..
@[simp] theorem bumps_sup_outsPrev : (bumps s e i j n).sup.outsPrev = s.sup.outsPrev := bumpx_sup_outsPrev ..
@[simp] theorem bumps_sup_forceDo : (bumps s e i j n).sup.forceDo = s.sup.forceDo := bumpx_sup_forceDo ..
@[simp] theorem bumps_sup_forceAi : (bumps s e i j n).sup.forceAi = s.sup.forceAi := bumpx_sup_forceAi ..
@[simp] theorem bumps_sup_doLast : (bumps s e i j n).sup.doLast = s.sup.doLast := bumpx_sup_doLast ..
@[simp] theorem bumps_sup_cmdSeq : (bumps s e i j n).sup.cmdSeq = s.sup.cmdSeq := bumpx_sup_cmdSeq ..
@[simp] theorem bumps_sup_safReqs : (bumps s e i j n).sup.safReqs = s.sup.safReqs := bumpx_sup_safReqs ..
@[simp] theorem bumps_sup_timedDo : (bumps s e i j n).sup.timedDo = s.sup.timedDo := bumpx_sup_timedDo ..
@[simp] theorem bumps_sup_withdraw : (bumps s e i j n).sup.withdraw = s.sup.withdraw := bumpx_sup_withdraw ..
@[simp] theorem bumps_sup_retainSeq : (bumps s e i j n).sup.retainSeq = s.sup.retainSeq := bumpx_sup_retainSeq ..
@[simp] theorem bumps_sup_tp : (bumps s e i j n).sup.tp = s.sup.tp := bumpx_sup_tp ..
@[simp] theorem bumps_sup_triggers : (bumps s e i j n).sup.triggers = s.sup.triggers := bumpx_sup_triggers ..
@[simp] theorem bumps_sup_trigGen : (bumps s e i j n).sup.trigGen = s.sup.trigGen := bumpx_sup_trigGen ..
@[simp] theorem bumps_sup_en : (bumps s e i j n).sup.en = s.sup.en := bumpx_sup_en ..
@[simp] theorem bumps_sup_groups : (bumps s e i j n).sup.groups = s.sup.groups := bumpx_sup_groups ..
@[simp] theorem bumps_sup_chg : (bumps s e i j n).sup.chg = s.sup.chg := bumpx_sup_chg ..
@[simp] theorem bumps_sup_chgCount : (bumps s e i j n).sup.chgCount = s.sup.chgCount := bumpx_sup_chgCount ..
@[simp] theorem bumps_sup_arbArm : (bumps s e i j n).sup.arbArm = s.sup.arbArm := bumpx_sup_arbArm ..
@[simp] theorem bumps_sup_arbTack : (bumps s e i j n).sup.arbTack = s.sup.arbTack := bumpx_sup_arbTack ..
@[simp] theorem bumps_sup_seqs : (bumps s e i j n).sup.seqs = s.sup.seqs := bumpx_sup_seqs ..
@[simp] theorem bumps_sup_buckets : (bumps s e i j n).sup.buckets = s.sup.buckets := bumpx_sup_buckets ..
@[simp] theorem bumpi_agreed : (bumpi s e i).agreed = s.agreed := bumpx_agreed ..
@[simp] theorem bumpi_cyc : (bumpi s e i).cyc = s.cyc := bumpx_cyc ..
@[simp] theorem bumpi_lanes : (bumpi s e i).lanes = s.lanes := bumpx_lanes ..
@[simp] theorem bumpi_agree : (bumpi s e i).agree = s.agree := bumpx_agree ..
@[simp] theorem bumpi_ilinks : (bumpi s e i).ilinks = s.ilinks := bumpx_ilinks ..
@[simp] theorem bumpi_hubs : (bumpi s e i).hubs = s.hubs := bumpx_hubs ..
@[simp] theorem bumpi_hubDiff : (bumpi s e i).hubDiff = s.hubDiff := bumpx_hubDiff ..
@[simp] theorem bumpi_hubDiffRun : (bumpi s e i).hubDiffRun = s.hubDiffRun := bumpx_hubDiffRun ..
@[simp] theorem bumpi_hubDiffDone : (bumpi s e i).hubDiffDone = s.hubDiffDone := bumpx_hubDiffDone ..
@[simp] theorem bumpi_recd : (bumpi s e i).recd = s.recd := bumpx_recd ..
@[simp] theorem bumpi_supply : (bumpi s e i).supply = s.supply := bumpx_supply ..
@[simp] theorem bumpi_shedHub : (bumpi s e i).shedHub = s.shedHub := bumpx_shedHub ..
@[simp] theorem bumpi_bb : (bumpi s e i).bb = s.bb := bumpx_bb ..
@[simp] theorem bumpi_con : (bumpi s e i).con = s.con := bumpx_con ..
@[simp] theorem bumpi_twin : (bumpi s e i).twin = s.twin := bumpx_twin ..
@[simp] theorem bumpi_br : (bumpi s e i).br = s.br := bumpx_br ..
@[simp] theorem bumpi_field : (bumpi s e i).field = s.field := bumpx_field ..
@[simp] theorem bumpi_tacho : (bumpi s e i).tacho = s.tacho := bumpx_tacho ..
@[simp] theorem bumpi_saf : (bumpi s e i).saf = s.saf := bumpx_saf ..
@[simp] theorem bumpi_upd : (bumpi s e i).upd = s.upd := bumpx_upd ..
@[simp] theorem bumpi_perf : (bumpi s e i).perf = s.perf := bumpx_perf ..
@[simp] theorem bumpi_st : (bumpi s e i).st = s.st := bumpx_st ..
@[simp] theorem bumpi_egress : (bumpi s e i).egress = s.egress := bumpx_egress ..
@[simp] theorem bumpi_pending : (bumpi s e i).pending = s.pending := bumpx_pending ..
@[simp] theorem bumpi_sup_stalls : (bumpi s e i).sup.stalls = s.sup.stalls := bumpx_sup_stalls ..
@[simp] theorem bumpi_sup_ctxs : (bumpi s e i).sup.ctxs = s.sup.ctxs := bumpx_sup_ctxs ..
@[simp] theorem bumpi_sup_reqs : (bumpi s e i).sup.reqs = s.sup.reqs := bumpx_sup_reqs ..
@[simp] theorem bumpi_sup_resps : (bumpi s e i).sup.resps = s.sup.resps := bumpx_sup_resps ..
@[simp] theorem bumpi_sup_mode : (bumpi s e i).sup.mode = s.sup.mode := bumpx_sup_mode ..
@[simp] theorem bumpi_sup_modePending : (bumpi s e i).sup.modePending = s.sup.modePending := bumpx_sup_modePending ..
@[simp] theorem bumpi_sup_adopted : (bumpi s e i).sup.adopted = s.sup.adopted := bumpx_sup_adopted ..
@[simp] theorem bumpi_sup_samples : (bumpi s e i).sup.samples = s.sup.samples := bumpx_sup_samples ..
@[simp] theorem bumpi_sup_di : (bumpi s e i).sup.di = s.sup.di := bumpx_sup_di ..
@[simp] theorem bumpi_sup_posted : (bumpi s e i).sup.posted = s.sup.posted := bumpx_sup_posted ..
@[simp] theorem bumpi_sup_outs : (bumpi s e i).sup.outs = s.sup.outs := bumpx_sup_outs ..
@[simp] theorem bumpi_sup_forceDi : (bumpi s e i).sup.forceDi = s.sup.forceDi := bumpx_sup_forceDi ..
@[simp] theorem bumpi_sup_outsPrev : (bumpi s e i).sup.outsPrev = s.sup.outsPrev := bumpx_sup_outsPrev ..
@[simp] theorem bumpi_sup_forceDo : (bumpi s e i).sup.forceDo = s.sup.forceDo := bumpx_sup_forceDo ..
@[simp] theorem bumpi_sup_forceAi : (bumpi s e i).sup.forceAi = s.sup.forceAi := bumpx_sup_forceAi ..
@[simp] theorem bumpi_sup_doLast : (bumpi s e i).sup.doLast = s.sup.doLast := bumpx_sup_doLast ..
@[simp] theorem bumpi_sup_cmdSeq : (bumpi s e i).sup.cmdSeq = s.sup.cmdSeq := bumpx_sup_cmdSeq ..
@[simp] theorem bumpi_sup_safReqs : (bumpi s e i).sup.safReqs = s.sup.safReqs := bumpx_sup_safReqs ..
@[simp] theorem bumpi_sup_timedDo : (bumpi s e i).sup.timedDo = s.sup.timedDo := bumpx_sup_timedDo ..
@[simp] theorem bumpi_sup_withdraw : (bumpi s e i).sup.withdraw = s.sup.withdraw := bumpx_sup_withdraw ..
@[simp] theorem bumpi_sup_retainSeq : (bumpi s e i).sup.retainSeq = s.sup.retainSeq := bumpx_sup_retainSeq ..
@[simp] theorem bumpi_sup_tp : (bumpi s e i).sup.tp = s.sup.tp := bumpx_sup_tp ..
@[simp] theorem bumpi_sup_triggers : (bumpi s e i).sup.triggers = s.sup.triggers := bumpx_sup_triggers ..
@[simp] theorem bumpi_sup_trigGen : (bumpi s e i).sup.trigGen = s.sup.trigGen := bumpx_sup_trigGen ..
@[simp] theorem bumpi_sup_en : (bumpi s e i).sup.en = s.sup.en := bumpx_sup_en ..
@[simp] theorem bumpi_sup_groups : (bumpi s e i).sup.groups = s.sup.groups := bumpx_sup_groups ..
@[simp] theorem bumpi_sup_chg : (bumpi s e i).sup.chg = s.sup.chg := bumpx_sup_chg ..
@[simp] theorem bumpi_sup_chgCount : (bumpi s e i).sup.chgCount = s.sup.chgCount := bumpx_sup_chgCount ..
@[simp] theorem bumpi_sup_arbArm : (bumpi s e i).sup.arbArm = s.sup.arbArm := bumpx_sup_arbArm ..
@[simp] theorem bumpi_sup_arbTack : (bumpi s e i).sup.arbTack = s.sup.arbTack := bumpx_sup_arbTack ..
@[simp] theorem bumpi_sup_seqs : (bumpi s e i).sup.seqs = s.sup.seqs := bumpx_sup_seqs ..
@[simp] theorem bumpi_sup_buckets : (bumpi s e i).sup.buckets = s.sup.buckets := bumpx_sup_buckets ..
@[simp] theorem bump_agreed : (bump s e).agreed = s.agreed := bumpx_agreed ..
@[simp] theorem bump_cyc : (bump s e).cyc = s.cyc := bumpx_cyc ..
@[simp] theorem bump_lanes : (bump s e).lanes = s.lanes := bumpx_lanes ..
@[simp] theorem bump_agree : (bump s e).agree = s.agree := bumpx_agree ..
@[simp] theorem bump_ilinks : (bump s e).ilinks = s.ilinks := bumpx_ilinks ..
@[simp] theorem bump_hubs : (bump s e).hubs = s.hubs := bumpx_hubs ..
@[simp] theorem bump_hubDiff : (bump s e).hubDiff = s.hubDiff := bumpx_hubDiff ..
@[simp] theorem bump_hubDiffRun : (bump s e).hubDiffRun = s.hubDiffRun := bumpx_hubDiffRun ..
@[simp] theorem bump_hubDiffDone : (bump s e).hubDiffDone = s.hubDiffDone := bumpx_hubDiffDone ..
@[simp] theorem bump_recd : (bump s e).recd = s.recd := bumpx_recd ..
@[simp] theorem bump_supply : (bump s e).supply = s.supply := bumpx_supply ..
@[simp] theorem bump_shedHub : (bump s e).shedHub = s.shedHub := bumpx_shedHub ..
@[simp] theorem bump_bb : (bump s e).bb = s.bb := bumpx_bb ..
@[simp] theorem bump_con : (bump s e).con = s.con := bumpx_con ..
@[simp] theorem bump_twin : (bump s e).twin = s.twin := bumpx_twin ..
@[simp] theorem bump_br : (bump s e).br = s.br := bumpx_br ..
@[simp] theorem bump_field : (bump s e).field = s.field := bumpx_field ..
@[simp] theorem bump_tacho : (bump s e).tacho = s.tacho := bumpx_tacho ..
@[simp] theorem bump_saf : (bump s e).saf = s.saf := bumpx_saf ..
@[simp] theorem bump_upd : (bump s e).upd = s.upd := bumpx_upd ..
@[simp] theorem bump_perf : (bump s e).perf = s.perf := bumpx_perf ..
@[simp] theorem bump_st : (bump s e).st = s.st := bumpx_st ..
@[simp] theorem bump_egress : (bump s e).egress = s.egress := bumpx_egress ..
@[simp] theorem bump_pending : (bump s e).pending = s.pending := bumpx_pending ..
@[simp] theorem bump_sup_stalls : (bump s e).sup.stalls = s.sup.stalls := bumpx_sup_stalls ..
@[simp] theorem bump_sup_ctxs : (bump s e).sup.ctxs = s.sup.ctxs := bumpx_sup_ctxs ..
@[simp] theorem bump_sup_reqs : (bump s e).sup.reqs = s.sup.reqs := bumpx_sup_reqs ..
@[simp] theorem bump_sup_resps : (bump s e).sup.resps = s.sup.resps := bumpx_sup_resps ..
@[simp] theorem bump_sup_mode : (bump s e).sup.mode = s.sup.mode := bumpx_sup_mode ..
@[simp] theorem bump_sup_modePending : (bump s e).sup.modePending = s.sup.modePending := bumpx_sup_modePending ..
@[simp] theorem bump_sup_adopted : (bump s e).sup.adopted = s.sup.adopted := bumpx_sup_adopted ..
@[simp] theorem bump_sup_samples : (bump s e).sup.samples = s.sup.samples := bumpx_sup_samples ..
@[simp] theorem bump_sup_di : (bump s e).sup.di = s.sup.di := bumpx_sup_di ..
@[simp] theorem bump_sup_posted : (bump s e).sup.posted = s.sup.posted := bumpx_sup_posted ..
@[simp] theorem bump_sup_outs : (bump s e).sup.outs = s.sup.outs := bumpx_sup_outs ..
@[simp] theorem bump_sup_forceDi : (bump s e).sup.forceDi = s.sup.forceDi := bumpx_sup_forceDi ..
@[simp] theorem bump_sup_outsPrev : (bump s e).sup.outsPrev = s.sup.outsPrev := bumpx_sup_outsPrev ..
@[simp] theorem bump_sup_forceDo : (bump s e).sup.forceDo = s.sup.forceDo := bumpx_sup_forceDo ..
@[simp] theorem bump_sup_forceAi : (bump s e).sup.forceAi = s.sup.forceAi := bumpx_sup_forceAi ..
@[simp] theorem bump_sup_doLast : (bump s e).sup.doLast = s.sup.doLast := bumpx_sup_doLast ..
@[simp] theorem bump_sup_cmdSeq : (bump s e).sup.cmdSeq = s.sup.cmdSeq := bumpx_sup_cmdSeq ..
@[simp] theorem bump_sup_safReqs : (bump s e).sup.safReqs = s.sup.safReqs := bumpx_sup_safReqs ..
@[simp] theorem bump_sup_timedDo : (bump s e).sup.timedDo = s.sup.timedDo := bumpx_sup_timedDo ..
@[simp] theorem bump_sup_withdraw : (bump s e).sup.withdraw = s.sup.withdraw := bumpx_sup_withdraw ..
@[simp] theorem bump_sup_retainSeq : (bump s e).sup.retainSeq = s.sup.retainSeq := bumpx_sup_retainSeq ..
@[simp] theorem bump_sup_tp : (bump s e).sup.tp = s.sup.tp := bumpx_sup_tp ..
@[simp] theorem bump_sup_triggers : (bump s e).sup.triggers = s.sup.triggers := bumpx_sup_triggers ..
@[simp] theorem bump_sup_trigGen : (bump s e).sup.trigGen = s.sup.trigGen := bumpx_sup_trigGen ..
@[simp] theorem bump_sup_en : (bump s e).sup.en = s.sup.en := bumpx_sup_en ..
@[simp] theorem bump_sup_groups : (bump s e).sup.groups = s.sup.groups := bumpx_sup_groups ..
@[simp] theorem bump_sup_chg : (bump s e).sup.chg = s.sup.chg := bumpx_sup_chg ..
@[simp] theorem bump_sup_chgCount : (bump s e).sup.chgCount = s.sup.chgCount := bumpx_sup_chgCount ..
@[simp] theorem bump_sup_arbArm : (bump s e).sup.arbArm = s.sup.arbArm := bumpx_sup_arbArm ..
@[simp] theorem bump_sup_arbTack : (bump s e).sup.arbTack = s.sup.arbTack := bumpx_sup_arbTack ..
@[simp] theorem bump_sup_seqs : (bump s e).sup.seqs = s.sup.seqs := bumpx_sup_seqs ..
@[simp] theorem bump_sup_buckets : (bump s e).sup.buckets = s.sup.buckets := bumpx_sup_buckets ..
@[simp] theorem emitJ_agreed : (emitJ s i t src code sev data stall).2.agreed = s.agreed := by
  unfold emitJ; simp only []; split
  · simp
  · split <;> split <;> simp
@[simp] theorem emitJ_cyc : (emitJ s i t src code sev data stall).2.cyc = s.cyc := by
  unfold emitJ; simp only []; split
  · simp
  · split <;> split <;> simp
@[simp] theorem emitJ_lanes : (emitJ s i t src code sev data stall).2.lanes = s.lanes := by
  unfold emitJ; simp only []; split
  · simp
  · split <;> split <;> simp
@[simp] theorem emitJ_agree : (emitJ s i t src code sev data stall).2.agree = s.agree := by
  unfold emitJ; simp only []; split
  · simp
  · split <;> split <;> simp
@[simp] theorem emitJ_ilinks : (emitJ s i t src code sev data stall).2.ilinks = s.ilinks := by
  unfold emitJ; simp only []; split
  · simp
  · split <;> split <;> simp
@[simp] theorem emitJ_hubDiff : (emitJ s i t src code sev data stall).2.hubDiff = s.hubDiff := by
  unfold emitJ; simp only []; split
  · simp
  · split <;> split <;> simp
@[simp] theorem emitJ_hubDiffRun : (emitJ s i t src code sev data stall).2.hubDiffRun = s.hubDiffRun := by
  unfold emitJ; simp only []; split
  · simp
  · split <;> split <;> simp
@[simp] theorem emitJ_hubDiffDone : (emitJ s i t src code sev data stall).2.hubDiffDone = s.hubDiffDone := by
  unfold emitJ; simp only []; split
  · simp
  · split <;> split <;> simp
@[simp] theorem emitJ_supply : (emitJ s i t src code sev data stall).2.supply = s.supply := by
  unfold emitJ; simp only []; split
  · simp
  · split <;> split <;> simp
@[simp] theorem emitJ_shedHub : (emitJ s i t src code sev data stall).2.shedHub = s.shedHub := by
  unfold emitJ; simp only []; split
  · simp
  · split <;> split <;> simp
@[simp] theorem emitJ_bb : (emitJ s i t src code sev data stall).2.bb = s.bb := by
  unfold emitJ; simp only []; split
  · simp
  · split <;> split <;> simp
@[simp] theorem emitJ_con : (emitJ s i t src code sev data stall).2.con = s.con := by
  unfold emitJ; simp only []; split
  · simp
  · split <;> split <;> simp
@[simp] theorem emitJ_twin : (emitJ s i t src code sev data stall).2.twin = s.twin := by
  unfold emitJ; simp only []; split
  · simp
  · split <;> split <;> simp
@[simp] theorem emitJ_br : (emitJ s i t src code sev data stall).2.br = s.br := by
  unfold emitJ; simp only []; split
  · simp
  · split <;> split <;> simp
@[simp] theorem emitJ_field : (emitJ s i t src code sev data stall).2.field = s.field := by
  unfold emitJ; simp only []; split
  · simp
  · split <;> split <;> simp
@[simp] theorem emitJ_tacho : (emitJ s i t src code sev data stall).2.tacho = s.tacho := by
  unfold emitJ; simp only []; split
  · simp
  · split <;> split <;> simp
@[simp] theorem emitJ_saf : (emitJ s i t src code sev data stall).2.saf = s.saf := by
  unfold emitJ; simp only []; split
  · simp
  · split <;> split <;> simp
@[simp] theorem emitJ_upd : (emitJ s i t src code sev data stall).2.upd = s.upd := by
  unfold emitJ; simp only []; split
  · simp
  · split <;> split <;> simp
@[simp] theorem emitJ_perf : (emitJ s i t src code sev data stall).2.perf = s.perf := by
  unfold emitJ; simp only []; split
  · simp
  · split <;> split <;> simp
@[simp] theorem emitJ_st : (emitJ s i t src code sev data stall).2.st = s.st := by
  unfold emitJ; simp only []; split
  · simp
  · split <;> split <;> simp
@[simp] theorem emitJ_egress : (emitJ s i t src code sev data stall).2.egress = s.egress := by
  unfold emitJ; simp only []; split
  · simp
  · split <;> split <;> simp
@[simp] theorem emitJ_pending : (emitJ s i t src code sev data stall).2.pending = s.pending := by
  unfold emitJ; simp only []; split
  · simp
  · split <;> split <;> simp
@[simp] theorem emitJ_sup_stalls : (emitJ s i t src code sev data stall).2.sup.stalls = s.sup.stalls := by
  unfold emitJ; simp only []; split
  · simp
  · split <;> split <;> simp
@[simp] theorem emitJ_sup_ctxs : (emitJ s i t src code sev data stall).2.sup.ctxs = s.sup.ctxs := by
  unfold emitJ; simp only []; split
  · simp
  · split <;> split <;> simp
@[simp] theorem emitJ_sup_reqs : (emitJ s i t src code sev data stall).2.sup.reqs = s.sup.reqs := by
  unfold emitJ; simp only []; split
  · simp
  · split <;> split <;> simp
@[simp] theorem emitJ_sup_resps : (emitJ s i t src code sev data stall).2.sup.resps = s.sup.resps := by
  unfold emitJ; simp only []; split
  · simp
  · split <;> split <;> simp
@[simp] theorem emitJ_sup_mode : (emitJ s i t src code sev data stall).2.sup.mode = s.sup.mode := by
  unfold emitJ; simp only []; split
  · simp
  · split <;> split <;> simp
@[simp] theorem emitJ_sup_modePending : (emitJ s i t src code sev data stall).2.sup.modePending = s.sup.modePending := by
  unfold emitJ; simp only []; split
  · simp
  · split <;> split <;> simp
@[simp] theorem emitJ_sup_adopted : (emitJ s i t src code sev data stall).2.sup.adopted = s.sup.adopted := by
  unfold emitJ; simp only []; split
  · simp
  · split <;> split <;> simp
@[simp] theorem emitJ_sup_samples : (emitJ s i t src code sev data stall).2.sup.samples = s.sup.samples := by
  unfold emitJ; simp only []; split
  · simp
  · split <;> split <;> simp
@[simp] theorem emitJ_sup_di : (emitJ s i t src code sev data stall).2.sup.di = s.sup.di := by
  unfold emitJ; simp only []; split
  · simp
  · split <;> split <;> simp
@[simp] theorem emitJ_sup_posted : (emitJ s i t src code sev data stall).2.sup.posted = s.sup.posted := by
  unfold emitJ; simp only []; split
  · simp
  · split <;> split <;> simp
@[simp] theorem emitJ_sup_outs : (emitJ s i t src code sev data stall).2.sup.outs = s.sup.outs := by
  unfold emitJ; simp only []; split
  · simp
  · split <;> split <;> simp
@[simp] theorem emitJ_sup_forceDi : (emitJ s i t src code sev data stall).2.sup.forceDi = s.sup.forceDi := by
  unfold emitJ; simp only []; split
  · simp
  · split <;> split <;> simp
@[simp] theorem emitJ_sup_outsPrev : (emitJ s i t src code sev data stall).2.sup.outsPrev = s.sup.outsPrev := by
  unfold emitJ; simp only []; split
  · simp
  · split <;> split <;> simp
@[simp] theorem emitJ_sup_forceDo : (emitJ s i t src code sev data stall).2.sup.forceDo = s.sup.forceDo := by
  unfold emitJ; simp only []; split
  · simp
  · split <;> split <;> simp
@[simp] theorem emitJ_sup_forceAi : (emitJ s i t src code sev data stall).2.sup.forceAi = s.sup.forceAi := by
  unfold emitJ; simp only []; split
  · simp
  · split <;> split <;> simp
@[simp] theorem emitJ_sup_doLast : (emitJ s i t src code sev data stall).2.sup.doLast = s.sup.doLast := by
  unfold emitJ; simp only []; split
  · simp
  · split <;> split <;> simp
@[simp] theorem emitJ_sup_cmdSeq : (emitJ s i t src code sev data stall).2.sup.cmdSeq = s.sup.cmdSeq := by
  unfold emitJ; simp only []; split
  · simp
  · split <;> split <;> simp
@[simp] theorem emitJ_sup_safReqs : (emitJ s i t src code sev data stall).2.sup.safReqs = s.sup.safReqs := by
  unfold emitJ; simp only []; split
  · simp
  · split <;> split <;> simp
@[simp] theorem emitJ_sup_timedDo : (emitJ s i t src code sev data stall).2.sup.timedDo = s.sup.timedDo := by
  unfold emitJ; simp only []; split
  · simp
  · split <;> split <;> simp
@[simp] theorem emitJ_sup_withdraw : (emitJ s i t src code sev data stall).2.sup.withdraw = s.sup.withdraw := by
  unfold emitJ; simp only []; split
  · simp
  · split <;> split <;> simp
@[simp] theorem emitJ_sup_retainSeq : (emitJ s i t src code sev data stall).2.sup.retainSeq = s.sup.retainSeq := by
  unfold emitJ; simp only []; split
  · simp
  · split <;> split <;> simp
@[simp] theorem emitJ_sup_tp : (emitJ s i t src code sev data stall).2.sup.tp = s.sup.tp := by
  unfold emitJ; simp only []; split
  · simp
  · split <;> split <;> simp
@[simp] theorem emitJ_sup_triggers : (emitJ s i t src code sev data stall).2.sup.triggers = s.sup.triggers := by
  unfold emitJ; simp only []; split
  · simp
  · split <;> split <;> simp
@[simp] theorem emitJ_sup_trigGen : (emitJ s i t src code sev data stall).2.sup.trigGen = s.sup.trigGen := by
  unfold emitJ; simp only []; split
  · simp
  · split <;> split <;> simp
@[simp] theorem emitJ_sup_en : (emitJ s i t src code sev data stall).2.sup.en = s.sup.en := by
  unfold emitJ; simp only []; split
  · simp
  · split <;> split <;> simp
@[simp] theorem emitJ_sup_groups : (emitJ s i t src code sev data stall).2.sup.groups = s.sup.groups := by
  unfold emitJ; simp only []; split
  · simp
  · split <;> split <;> simp
@[simp] theorem emitJ_sup_chg : (emitJ s i t src code sev data stall).2.sup.chg = s.sup.chg := by
  unfold emitJ; simp only []; split
  · simp
  · split <;> split <;> simp
@[simp] theorem emitJ_sup_chgCount : (emitJ s i t src code sev data stall).2.sup.chgCount = s.sup.chgCount := by
  unfold emitJ; simp only []; split
  · simp
  · split <;> split <;> simp
@[simp] theorem emitJ_sup_arbArm : (emitJ s i t src code sev data stall).2.sup.arbArm = s.sup.arbArm := by
  unfold emitJ; simp only []; split
  · simp
  · split <;> split <;> simp
@[simp] theorem emitJ_sup_arbTack : (emitJ s i t src code sev data stall).2.sup.arbTack = s.sup.arbTack := by
  unfold emitJ; simp only []; split
  · simp
  · split <;> split <;> simp
@[simp] theorem emitJ_sup_seqs : (emitJ s i t src code sev data stall).2.sup.seqs = s.sup.seqs := by
  unfold emitJ; simp only []; split
  · simp
  · split <;> split <;> simp
@[simp] theorem emitL_agreed : (emitL s src code sev data stall).agreed = s.agreed := emitJ_agreed ..
@[simp] theorem emitL_cyc : (emitL s src code sev data stall).cyc = s.cyc := emitJ_cyc ..
@[simp] theorem emitL_lanes : (emitL s src code sev data stall).lanes = s.lanes := emitJ_lanes ..
@[simp] theorem emitL_agree : (emitL s src code sev data stall).agree = s.agree := emitJ_agree ..
@[simp] theorem emitL_ilinks : (emitL s src code sev data stall).ilinks = s.ilinks := emitJ_ilinks ..
@[simp] theorem emitL_hubDiff : (emitL s src code sev data stall).hubDiff = s.hubDiff := emitJ_hubDiff ..
@[simp] theorem emitL_hubDiffRun : (emitL s src code sev data stall).hubDiffRun = s.hubDiffRun := emitJ_hubDiffRun ..
@[simp] theorem emitL_hubDiffDone : (emitL s src code sev data stall).hubDiffDone = s.hubDiffDone := emitJ_hubDiffDone ..
@[simp] theorem emitL_supply : (emitL s src code sev data stall).supply = s.supply := emitJ_supply ..
@[simp] theorem emitL_shedHub : (emitL s src code sev data stall).shedHub = s.shedHub := emitJ_shedHub ..
@[simp] theorem emitL_bb : (emitL s src code sev data stall).bb = s.bb := emitJ_bb ..
@[simp] theorem emitL_con : (emitL s src code sev data stall).con = s.con := emitJ_con ..
@[simp] theorem emitL_twin : (emitL s src code sev data stall).twin = s.twin := emitJ_twin ..
@[simp] theorem emitL_br : (emitL s src code sev data stall).br = s.br := emitJ_br ..
@[simp] theorem emitL_field : (emitL s src code sev data stall).field = s.field := emitJ_field ..
@[simp] theorem emitL_tacho : (emitL s src code sev data stall).tacho = s.tacho := emitJ_tacho ..
@[simp] theorem emitL_saf : (emitL s src code sev data stall).saf = s.saf := emitJ_saf ..
@[simp] theorem emitL_upd : (emitL s src code sev data stall).upd = s.upd := emitJ_upd ..
@[simp] theorem emitL_perf : (emitL s src code sev data stall).perf = s.perf := emitJ_perf ..
@[simp] theorem emitL_st : (emitL s src code sev data stall).st = s.st := emitJ_st ..
@[simp] theorem emitL_egress : (emitL s src code sev data stall).egress = s.egress := emitJ_egress ..
@[simp] theorem emitL_pending : (emitL s src code sev data stall).pending = s.pending := emitJ_pending ..
@[simp] theorem emitL_sup_stalls : (emitL s src code sev data stall).sup.stalls = s.sup.stalls := emitJ_sup_stalls ..
@[simp] theorem emitL_sup_ctxs : (emitL s src code sev data stall).sup.ctxs = s.sup.ctxs := emitJ_sup_ctxs ..
@[simp] theorem emitL_sup_reqs : (emitL s src code sev data stall).sup.reqs = s.sup.reqs := emitJ_sup_reqs ..
@[simp] theorem emitL_sup_resps : (emitL s src code sev data stall).sup.resps = s.sup.resps := emitJ_sup_resps ..
@[simp] theorem emitL_sup_mode : (emitL s src code sev data stall).sup.mode = s.sup.mode := emitJ_sup_mode ..
@[simp] theorem emitL_sup_modePending : (emitL s src code sev data stall).sup.modePending = s.sup.modePending := emitJ_sup_modePending ..
@[simp] theorem emitL_sup_adopted : (emitL s src code sev data stall).sup.adopted = s.sup.adopted := emitJ_sup_adopted ..
@[simp] theorem emitL_sup_samples : (emitL s src code sev data stall).sup.samples = s.sup.samples := emitJ_sup_samples ..
@[simp] theorem emitL_sup_di : (emitL s src code sev data stall).sup.di = s.sup.di := emitJ_sup_di ..
@[simp] theorem emitL_sup_posted : (emitL s src code sev data stall).sup.posted = s.sup.posted := emitJ_sup_posted ..
@[simp] theorem emitL_sup_outs : (emitL s src code sev data stall).sup.outs = s.sup.outs := emitJ_sup_outs ..
@[simp] theorem emitL_sup_forceDi : (emitL s src code sev data stall).sup.forceDi = s.sup.forceDi := emitJ_sup_forceDi ..
@[simp] theorem emitL_sup_outsPrev : (emitL s src code sev data stall).sup.outsPrev = s.sup.outsPrev := emitJ_sup_outsPrev ..
@[simp] theorem emitL_sup_forceDo : (emitL s src code sev data stall).sup.forceDo = s.sup.forceDo := emitJ_sup_forceDo ..
@[simp] theorem emitL_sup_forceAi : (emitL s src code sev data stall).sup.forceAi = s.sup.forceAi := emitJ_sup_forceAi ..
@[simp] theorem emitL_sup_doLast : (emitL s src code sev data stall).sup.doLast = s.sup.doLast := emitJ_sup_doLast ..
@[simp] theorem emitL_sup_cmdSeq : (emitL s src code sev data stall).sup.cmdSeq = s.sup.cmdSeq := emitJ_sup_cmdSeq ..
@[simp] theorem emitL_sup_safReqs : (emitL s src code sev data stall).sup.safReqs = s.sup.safReqs := emitJ_sup_safReqs ..
@[simp] theorem emitL_sup_timedDo : (emitL s src code sev data stall).sup.timedDo = s.sup.timedDo := emitJ_sup_timedDo ..
@[simp] theorem emitL_sup_withdraw : (emitL s src code sev data stall).sup.withdraw = s.sup.withdraw := emitJ_sup_withdraw ..
@[simp] theorem emitL_sup_retainSeq : (emitL s src code sev data stall).sup.retainSeq = s.sup.retainSeq := emitJ_sup_retainSeq ..
@[simp] theorem emitL_sup_tp : (emitL s src code sev data stall).sup.tp = s.sup.tp := emitJ_sup_tp ..
@[simp] theorem emitL_sup_triggers : (emitL s src code sev data stall).sup.triggers = s.sup.triggers := emitJ_sup_triggers ..
@[simp] theorem emitL_sup_trigGen : (emitL s src code sev data stall).sup.trigGen = s.sup.trigGen := emitJ_sup_trigGen ..
@[simp] theorem emitL_sup_en : (emitL s src code sev data stall).sup.en = s.sup.en := emitJ_sup_en ..
@[simp] theorem emitL_sup_groups : (emitL s src code sev data stall).sup.groups = s.sup.groups := emitJ_sup_groups ..
@[simp] theorem emitL_sup_chg : (emitL s src code sev data stall).sup.chg = s.sup.chg := emitJ_sup_chg ..
@[simp] theorem emitL_sup_chgCount : (emitL s src code sev data stall).sup.chgCount = s.sup.chgCount := emitJ_sup_chgCount ..
@[simp] theorem emitL_sup_arbArm : (emitL s src code sev data stall).sup.arbArm = s.sup.arbArm := emitJ_sup_arbArm ..
@[simp] theorem emitL_sup_arbTack : (emitL s src code sev data stall).sup.arbTack = s.sup.arbTack := emitJ_sup_arbTack ..
@[simp] theorem emitL_sup_seqs : (emitL s src code sev data stall).sup.seqs = s.sup.seqs := emitJ_sup_seqs ..
@[simp] theorem emitH_agreed : (emitH s h t src code sev data).agreed = s.agreed := emitJ_agreed ..
@[simp] theorem emitH_cyc : (emitH s h t src code sev data).cyc = s.cyc := emitJ_cyc ..
@[simp] theorem emitH_lanes : (emitH s h t src code sev data).lanes = s.lanes := emitJ_lanes ..
@[simp] theorem emitH_agree : (emitH s h t src code sev data).agree = s.agree := emitJ_agree ..
@[simp] theorem emitH_ilinks : (emitH s h t src code sev data).ilinks = s.ilinks := emitJ_ilinks ..
@[simp] theorem emitH_hubDiff : (emitH s h t src code sev data).hubDiff = s.hubDiff := emitJ_hubDiff ..
@[simp] theorem emitH_hubDiffRun : (emitH s h t src code sev data).hubDiffRun = s.hubDiffRun := emitJ_hubDiffRun ..
@[simp] theorem emitH_hubDiffDone : (emitH s h t src code sev data).hubDiffDone = s.hubDiffDone := emitJ_hubDiffDone ..
@[simp] theorem emitH_supply : (emitH s h t src code sev data).supply = s.supply := emitJ_supply ..
@[simp] theorem emitH_shedHub : (emitH s h t src code sev data).shedHub = s.shedHub := emitJ_shedHub ..
@[simp] theorem emitH_bb : (emitH s h t src code sev data).bb = s.bb := emitJ_bb ..
@[simp] theorem emitH_con : (emitH s h t src code sev data).con = s.con := emitJ_con ..
@[simp] theorem emitH_twin : (emitH s h t src code sev data).twin = s.twin := emitJ_twin ..
@[simp] theorem emitH_br : (emitH s h t src code sev data).br = s.br := emitJ_br ..
@[simp] theorem emitH_field : (emitH s h t src code sev data).field = s.field := emitJ_field ..
@[simp] theorem emitH_tacho : (emitH s h t src code sev data).tacho = s.tacho := emitJ_tacho ..
@[simp] theorem emitH_saf : (emitH s h t src code sev data).saf = s.saf := emitJ_saf ..
@[simp] theorem emitH_upd : (emitH s h t src code sev data).upd = s.upd := emitJ_upd ..
@[simp] theorem emitH_perf : (emitH s h t src code sev data).perf = s.perf := emitJ_perf ..
@[simp] theorem emitH_st : (emitH s h t src code sev data).st = s.st := emitJ_st ..
@[simp] theorem emitH_egress : (emitH s h t src code sev data).egress = s.egress := emitJ_egress ..
@[simp] theorem emitH_pending : (emitH s h t src code sev data).pending = s.pending := emitJ_pending ..
@[simp] theorem emitH_sup_stalls : (emitH s h t src code sev data).sup.stalls = s.sup.stalls := emitJ_sup_stalls ..
@[simp] theorem emitH_sup_ctxs : (emitH s h t src code sev data).sup.ctxs = s.sup.ctxs := emitJ_sup_ctxs ..
@[simp] theorem emitH_sup_reqs : (emitH s h t src code sev data).sup.reqs = s.sup.reqs := emitJ_sup_reqs ..
@[simp] theorem emitH_sup_resps : (emitH s h t src code sev data).sup.resps = s.sup.resps := emitJ_sup_resps ..
@[simp] theorem emitH_sup_mode : (emitH s h t src code sev data).sup.mode = s.sup.mode := emitJ_sup_mode ..
@[simp] theorem emitH_sup_modePending : (emitH s h t src code sev data).sup.modePending = s.sup.modePending := emitJ_sup_modePending ..
@[simp] theorem emitH_sup_adopted : (emitH s h t src code sev data).sup.adopted = s.sup.adopted := emitJ_sup_adopted ..
@[simp] theorem emitH_sup_samples : (emitH s h t src code sev data).sup.samples = s.sup.samples := emitJ_sup_samples ..
@[simp] theorem emitH_sup_di : (emitH s h t src code sev data).sup.di = s.sup.di := emitJ_sup_di ..
@[simp] theorem emitH_sup_posted : (emitH s h t src code sev data).sup.posted = s.sup.posted := emitJ_sup_posted ..
@[simp] theorem emitH_sup_outs : (emitH s h t src code sev data).sup.outs = s.sup.outs := emitJ_sup_outs ..
@[simp] theorem emitH_sup_forceDi : (emitH s h t src code sev data).sup.forceDi = s.sup.forceDi := emitJ_sup_forceDi ..
@[simp] theorem emitH_sup_outsPrev : (emitH s h t src code sev data).sup.outsPrev = s.sup.outsPrev := emitJ_sup_outsPrev ..
@[simp] theorem emitH_sup_forceDo : (emitH s h t src code sev data).sup.forceDo = s.sup.forceDo := emitJ_sup_forceDo ..
@[simp] theorem emitH_sup_forceAi : (emitH s h t src code sev data).sup.forceAi = s.sup.forceAi := emitJ_sup_forceAi ..
@[simp] theorem emitH_sup_doLast : (emitH s h t src code sev data).sup.doLast = s.sup.doLast := emitJ_sup_doLast ..
@[simp] theorem emitH_sup_cmdSeq : (emitH s h t src code sev data).sup.cmdSeq = s.sup.cmdSeq := emitJ_sup_cmdSeq ..
@[simp] theorem emitH_sup_safReqs : (emitH s h t src code sev data).sup.safReqs = s.sup.safReqs := emitJ_sup_safReqs ..
@[simp] theorem emitH_sup_timedDo : (emitH s h t src code sev data).sup.timedDo = s.sup.timedDo := emitJ_sup_timedDo ..
@[simp] theorem emitH_sup_withdraw : (emitH s h t src code sev data).sup.withdraw = s.sup.withdraw := emitJ_sup_withdraw ..
@[simp] theorem emitH_sup_retainSeq : (emitH s h t src code sev data).sup.retainSeq = s.sup.retainSeq := emitJ_sup_retainSeq ..
@[simp] theorem emitH_sup_tp : (emitH s h t src code sev data).sup.tp = s.sup.tp := emitJ_sup_tp ..
@[simp] theorem emitH_sup_triggers : (emitH s h t src code sev data).sup.triggers = s.sup.triggers := emitJ_sup_triggers ..
@[simp] theorem emitH_sup_trigGen : (emitH s h t src code sev data).sup.trigGen = s.sup.trigGen := emitJ_sup_trigGen ..
@[simp] theorem emitH_sup_en : (emitH s h t src code sev data).sup.en = s.sup.en := emitJ_sup_en ..
@[simp] theorem emitH_sup_groups : (emitH s h t src code sev data).sup.groups = s.sup.groups := emitJ_sup_groups ..
@[simp] theorem emitH_sup_chg : (emitH s h t src code sev data).sup.chg = s.sup.chg := emitJ_sup_chg ..
@[simp] theorem emitH_sup_chgCount : (emitH s h t src code sev data).sup.chgCount = s.sup.chgCount := emitJ_sup_chgCount ..
@[simp] theorem emitH_sup_arbArm : (emitH s h t src code sev data).sup.arbArm = s.sup.arbArm := emitJ_sup_arbArm ..
@[simp] theorem emitH_sup_arbTack : (emitH s h t src code sev data).sup.arbTack = s.sup.arbTack := emitJ_sup_arbTack ..
@[simp] theorem emitH_sup_seqs : (emitH s h t src code sev data).sup.seqs = s.sup.seqs := emitJ_sup_seqs ..
@[simp] theorem emitF_agreed : (emitF s i t code sev data).agreed = s.agreed := by
  unfold emitF; dsimp only; split
  · split <;> rfl
  · simp
@[simp] theorem emitF_cyc : (emitF s i t code sev data).cyc = s.cyc := by
  unfold emitF; dsimp only; split
  · split <;> rfl
  · simp
@[simp] theorem emitF_lanes : (emitF s i t code sev data).lanes = s.lanes := by
  unfold emitF; dsimp only; split
  · split <;> rfl
  · simp
@[simp] theorem emitF_agree : (emitF s i t code sev data).agree = s.agree := by
  unfold emitF; dsimp only; split
  · split <;> rfl
  · simp
@[simp] theorem emitF_ilinks : (emitF s i t code sev data).ilinks = s.ilinks := by
  unfold emitF; dsimp only; split
  · split <;> rfl
  · simp
@[simp] theorem emitF_hubDiff : (emitF s i t code sev data).hubDiff = s.hubDiff := by
  unfold emitF; dsimp only; split
  · split <;> rfl
  · simp
@[simp] theorem emitF_hubDiffRun : (emitF s i t code sev data).hubDiffRun = s.hubDiffRun := by
  unfold emitF; dsimp only; split
  · split <;> rfl
  · simp
@[simp] theorem emitF_hubDiffDone : (emitF s i t code sev data).hubDiffDone = s.hubDiffDone := by
  unfold emitF; dsimp only; split
  · split <;> rfl
  · simp
@[simp] theorem emitF_supply : (emitF s i t code sev data).supply = s.supply := by
  unfold emitF; dsimp only; split
  · split <;> rfl
  · simp
@[simp] theorem emitF_shedHub : (emitF s i t code sev data).shedHub = s.shedHub := by
  unfold emitF; dsimp only; split
  · split <;> rfl
  · simp
@[simp] theorem emitF_bb : (emitF s i t code sev data).bb = s.bb := by
  unfold emitF; dsimp only; split
  · split <;> rfl
  · simp
@[simp] theorem emitF_con : (emitF s i t code sev data).con = s.con := by
  unfold emitF; dsimp only; split
  · split <;> rfl
  · simp
@[simp] theorem emitF_twin : (emitF s i t code sev data).twin = s.twin := by
  unfold emitF; dsimp only; split
  · split <;> rfl
  · simp
@[simp] theorem emitF_br : (emitF s i t code sev data).br = s.br := by
  unfold emitF; dsimp only; split
  · split <;> rfl
  · simp
@[simp] theorem emitF_tacho : (emitF s i t code sev data).tacho = s.tacho := by
  unfold emitF; dsimp only; split
  · split <;> rfl
  · simp
@[simp] theorem emitF_saf : (emitF s i t code sev data).saf = s.saf := by
  unfold emitF; dsimp only; split
  · split <;> rfl
  · simp
@[simp] theorem emitF_upd : (emitF s i t code sev data).upd = s.upd := by
  unfold emitF; dsimp only; split
  · split <;> rfl
  · simp
@[simp] theorem emitF_perf : (emitF s i t code sev data).perf = s.perf := by
  unfold emitF; dsimp only; split
  · split <;> rfl
  · simp
@[simp] theorem emitF_st : (emitF s i t code sev data).st = s.st := by
  unfold emitF; dsimp only; split
  · split <;> rfl
  · simp
@[simp] theorem emitF_egress : (emitF s i t code sev data).egress = s.egress := by
  unfold emitF; dsimp only; split
  · split <;> rfl
  · simp
@[simp] theorem emitF_pending : (emitF s i t code sev data).pending = s.pending := by
  unfold emitF; dsimp only; split
  · split <;> rfl
  · simp
@[simp] theorem emitF_sup_stalls : (emitF s i t code sev data).sup.stalls = s.sup.stalls := by
  unfold emitF; dsimp only; split
  · split <;> rfl
  · simp
@[simp] theorem emitF_sup_ctxs : (emitF s i t code sev data).sup.ctxs = s.sup.ctxs := by
  unfold emitF; dsimp only; split
  · split <;> rfl
  · simp
@[simp] theorem emitF_sup_reqs : (emitF s i t code sev data).sup.reqs = s.sup.reqs := by
  unfold emitF; dsimp only; split
  · split <;> rfl
  · simp
@[simp] theorem emitF_sup_resps : (emitF s i t code sev data).sup.resps = s.sup.resps := by
  unfold emitF; dsimp only; split
  · split <;> rfl
  · simp
@[simp] theorem emitF_sup_mode : (emitF s i t code sev data).sup.mode = s.sup.mode := by
  unfold emitF; dsimp only; split
  · split <;> rfl
  · simp
@[simp] theorem emitF_sup_modePending : (emitF s i t code sev data).sup.modePending = s.sup.modePending := by
  unfold emitF; dsimp only; split
  · split <;> rfl
  · simp
@[simp] theorem emitF_sup_adopted : (emitF s i t code sev data).sup.adopted = s.sup.adopted := by
  unfold emitF; dsimp only; split
  · split <;> rfl
  · simp
@[simp] theorem emitF_sup_samples : (emitF s i t code sev data).sup.samples = s.sup.samples := by
  unfold emitF; dsimp only; split
  · split <;> rfl
  · simp
@[simp] theorem emitF_sup_di : (emitF s i t code sev data).sup.di = s.sup.di := by
  unfold emitF; dsimp only; split
  · split <;> rfl
  · simp
@[simp] theorem emitF_sup_posted : (emitF s i t code sev data).sup.posted = s.sup.posted := by
  unfold emitF; dsimp only; split
  · split <;> rfl
  · simp
@[simp] theorem emitF_sup_outs : (emitF s i t code sev data).sup.outs = s.sup.outs := by
  unfold emitF; dsimp only; split
  · split <;> rfl
  · simp
@[simp] theorem emitF_sup_forceDi : (emitF s i t code sev data).sup.forceDi = s.sup.forceDi := by
  unfold emitF; dsimp only; split
  · split <;> rfl
  · simp
@[simp] theorem emitF_sup_outsPrev : (emitF s i t code sev data).sup.outsPrev = s.sup.outsPrev := by
  unfold emitF; dsimp only; split
  · split <;> rfl
  · simp
@[simp] theorem emitF_sup_forceDo : (emitF s i t code sev data).sup.forceDo = s.sup.forceDo := by
  unfold emitF; dsimp only; split
  · split <;> rfl
  · simp
@[simp] theorem emitF_sup_forceAi : (emitF s i t code sev data).sup.forceAi = s.sup.forceAi := by
  unfold emitF; dsimp only; split
  · split <;> rfl
  · simp
@[simp] theorem emitF_sup_doLast : (emitF s i t code sev data).sup.doLast = s.sup.doLast := by
  unfold emitF; dsimp only; split
  · split <;> rfl
  · simp
@[simp] theorem emitF_sup_cmdSeq : (emitF s i t code sev data).sup.cmdSeq = s.sup.cmdSeq := by
  unfold emitF; dsimp only; split
  · split <;> rfl
  · simp
@[simp] theorem emitF_sup_safReqs : (emitF s i t code sev data).sup.safReqs = s.sup.safReqs := by
  unfold emitF; dsimp only; split
  · split <;> rfl
  · simp
@[simp] theorem emitF_sup_timedDo : (emitF s i t code sev data).sup.timedDo = s.sup.timedDo := by
  unfold emitF; dsimp only; split
  · split <;> rfl
  · simp
@[simp] theorem emitF_sup_withdraw : (emitF s i t code sev data).sup.withdraw = s.sup.withdraw := by
  unfold emitF; dsimp only; split
  · split <;> rfl
  · simp
@[simp] theorem emitF_sup_retainSeq : (emitF s i t code sev data).sup.retainSeq = s.sup.retainSeq := by
  unfold emitF; dsimp only; split
  · split <;> rfl
  · simp
@[simp] theorem emitF_sup_tp : (emitF s i t code sev data).sup.tp = s.sup.tp := by
  unfold emitF; dsimp only; split
  · split <;> rfl
  · simp
@[simp] theorem emitF_sup_triggers : (emitF s i t code sev data).sup.triggers = s.sup.triggers := by
  unfold emitF; dsimp only; split
  · split <;> rfl
  · simp
@[simp] theorem emitF_sup_trigGen : (emitF s i t code sev data).sup.trigGen = s.sup.trigGen := by
  unfold emitF; dsimp only; split
  · split <;> rfl
  · simp
@[simp] theorem emitF_sup_en : (emitF s i t code sev data).sup.en = s.sup.en := by
  unfold emitF; dsimp only; split
  · split <;> rfl
  · simp
@[simp] theorem emitF_sup_groups : (emitF s i t code sev data).sup.groups = s.sup.groups := by
  unfold emitF; dsimp only; split
  · split <;> rfl
  · simp
@[simp] theorem emitF_sup_chg : (emitF s i t code sev data).sup.chg = s.sup.chg := by
  unfold emitF; dsimp only; split
  · split <;> rfl
  · simp
@[simp] theorem emitF_sup_chgCount : (emitF s i t code sev data).sup.chgCount = s.sup.chgCount := by
  unfold emitF; dsimp only; split
  · split <;> rfl
  · simp
@[simp] theorem emitF_sup_arbArm : (emitF s i t code sev data).sup.arbArm = s.sup.arbArm := by
  unfold emitF; dsimp only; split
  · split <;> rfl
  · simp
@[simp] theorem emitF_sup_arbTack : (emitF s i t code sev data).sup.arbTack = s.sup.arbTack := by
  unfold emitF; dsimp only; split
  · split <;> rfl
  · simp
@[simp] theorem emitF_sup_seqs : (emitF s i t code sev data).sup.seqs = s.sup.seqs := by
  unfold emitF; dsimp only; split
  · split <;> rfl
  · simp
@[simp] theorem respond_agreed : (respond s p).agreed = s.agreed := by
  unfold respond pushResp; dsimp only; split <;> rfl
@[simp] theorem respond_egress : (respond s p).egress = s.egress := by
  unfold respond pushResp; dsimp only; split <;> rfl
@[simp] theorem respond_cyc : (respond s p).cyc = s.cyc := by
  unfold respond pushResp; dsimp only; split <;> rfl
@[simp] theorem respond_lanes : (respond s p).lanes = s.lanes := by
  unfold respond pushResp; dsimp only; split <;> rfl
@[simp] theorem respond_agree : (respond s p).agree = s.agree := by
  unfold respond pushResp; dsimp only; split <;> rfl
@[simp] theorem respond_ilinks : (respond s p).ilinks = s.ilinks := by
  unfold respond pushResp; dsimp only; split <;> rfl
@[simp] theorem respond_hubs : (respond s p).hubs = s.hubs := by
  unfold respond pushResp; dsimp only; split <;> rfl
@[simp] theorem respond_hubDiff : (respond s p).hubDiff = s.hubDiff := by
  unfold respond pushResp; dsimp only; split <;> rfl
@[simp] theorem respond_hubDiffRun : (respond s p).hubDiffRun = s.hubDiffRun := by
  unfold respond pushResp; dsimp only; split <;> rfl
@[simp] theorem respond_hubDiffDone : (respond s p).hubDiffDone = s.hubDiffDone := by
  unfold respond pushResp; dsimp only; split <;> rfl
@[simp] theorem respond_recd : (respond s p).recd = s.recd := by
  unfold respond pushResp; dsimp only; split <;> rfl
@[simp] theorem respond_supply : (respond s p).supply = s.supply := by
  unfold respond pushResp; dsimp only; split <;> rfl
@[simp] theorem respond_shedHub : (respond s p).shedHub = s.shedHub := by
  unfold respond pushResp; dsimp only; split <;> rfl
@[simp] theorem respond_bb : (respond s p).bb = s.bb := by
  unfold respond pushResp; dsimp only; split <;> rfl
@[simp] theorem respond_twin : (respond s p).twin = s.twin := by
  unfold respond pushResp; dsimp only; split <;> rfl
@[simp] theorem respond_br : (respond s p).br = s.br := by
  unfold respond pushResp; dsimp only; split <;> rfl
@[simp] theorem respond_field : (respond s p).field = s.field := by
  unfold respond pushResp; dsimp only; split <;> rfl
@[simp] theorem respond_tacho : (respond s p).tacho = s.tacho := by
  unfold respond pushResp; dsimp only; split <;> rfl
@[simp] theorem respond_saf : (respond s p).saf = s.saf := by
  unfold respond pushResp; dsimp only; split <;> rfl
@[simp] theorem respond_upd : (respond s p).upd = s.upd := by
  unfold respond pushResp; dsimp only; split <;> rfl
@[simp] theorem respond_perf : (respond s p).perf = s.perf := by
  unfold respond pushResp; dsimp only; split <;> rfl
@[simp] theorem respond_st : (respond s p).st = s.st := by
  unfold respond pushResp; dsimp only; split <;> rfl
@[simp] theorem respond_pending : (respond s p).pending = s.pending := by
  unfold respond pushResp; dsimp only; split <;> rfl
@[simp] theorem respond_sup_stalls : (respond s p).sup.stalls = s.sup.stalls := by
  unfold respond pushResp; dsimp only; split <;> rfl
@[simp] theorem respond_sup_reqs : (respond s p).sup.reqs = s.sup.reqs := by
  unfold respond pushResp; dsimp only; split <;> rfl
@[simp] theorem respond_sup_mode : (respond s p).sup.mode = s.sup.mode := by
  unfold respond pushResp; dsimp only; split <;> rfl
@[simp] theorem respond_sup_modePending : (respond s p).sup.modePending = s.sup.modePending := by
  unfold respond pushResp; dsimp only; split <;> rfl
@[simp] theorem respond_sup_adopted : (respond s p).sup.adopted = s.sup.adopted := by
  unfold respond pushResp; dsimp only; split <;> rfl
@[simp] theorem respond_sup_samples : (respond s p).sup.samples = s.sup.samples := by
  unfold respond pushResp; dsimp only; split <;> rfl
@[simp] theorem respond_sup_di : (respond s p).sup.di = s.sup.di := by
  unfold respond pushResp; dsimp only; split <;> rfl
@[simp] theorem respond_sup_posted : (respond s p).sup.posted = s.sup.posted := by
  unfold respond pushResp; dsimp only; split <;> rfl
@[simp] theorem respond_sup_forceDi : (respond s p).sup.forceDi = s.sup.forceDi := by
  unfold respond pushResp; dsimp only; split <;> rfl
@[simp] theorem respond_sup_outsPrev : (respond s p).sup.outsPrev = s.sup.outsPrev := by
  unfold respond pushResp; dsimp only; split <;> rfl
@[simp] theorem respond_sup_forceDo : (respond s p).sup.forceDo = s.sup.forceDo := by
  unfold respond pushResp; dsimp only; split <;> rfl
@[simp] theorem respond_sup_forceAi : (respond s p).sup.forceAi = s.sup.forceAi := by
  unfold respond pushResp; dsimp only; split <;> rfl
@[simp] theorem respond_sup_doLast : (respond s p).sup.doLast = s.sup.doLast := by
  unfold respond pushResp; dsimp only; split <;> rfl
@[simp] theorem respond_sup_cmdSeq : (respond s p).sup.cmdSeq = s.sup.cmdSeq := by
  unfold respond pushResp; dsimp only; split <;> rfl
@[simp] theorem respond_sup_safReqs : (respond s p).sup.safReqs = s.sup.safReqs := by
  unfold respond pushResp; dsimp only; split <;> rfl
@[simp] theorem respond_sup_timedDo : (respond s p).sup.timedDo = s.sup.timedDo := by
  unfold respond pushResp; dsimp only; split <;> rfl
@[simp] theorem respond_sup_withdraw : (respond s p).sup.withdraw = s.sup.withdraw := by
  unfold respond pushResp; dsimp only; split <;> rfl
@[simp] theorem respond_sup_retainSeq : (respond s p).sup.retainSeq = s.sup.retainSeq := by
  unfold respond pushResp; dsimp only; split <;> rfl
@[simp] theorem respond_sup_tp : (respond s p).sup.tp = s.sup.tp := by
  unfold respond pushResp; dsimp only; split <;> rfl
@[simp] theorem respond_sup_triggers : (respond s p).sup.triggers = s.sup.triggers := by
  unfold respond pushResp; dsimp only; split <;> rfl
@[simp] theorem respond_sup_trigGen : (respond s p).sup.trigGen = s.sup.trigGen := by
  unfold respond pushResp; dsimp only; split <;> rfl
@[simp] theorem respond_sup_en : (respond s p).sup.en = s.sup.en := by
  unfold respond pushResp; dsimp only; split <;> rfl
@[simp] theorem respond_sup_groups : (respond s p).sup.groups = s.sup.groups := by
  unfold respond pushResp; dsimp only; split <;> rfl
@[simp] theorem respond_sup_chg : (respond s p).sup.chg = s.sup.chg := by
  unfold respond pushResp; dsimp only; split <;> rfl
@[simp] theorem respond_sup_chgCount : (respond s p).sup.chgCount = s.sup.chgCount := by
  unfold respond pushResp; dsimp only; split <;> rfl
@[simp] theorem respond_sup_arbArm : (respond s p).sup.arbArm = s.sup.arbArm := by
  unfold respond pushResp; dsimp only; split <;> rfl
@[simp] theorem respond_sup_arbTack : (respond s p).sup.arbTack = s.sup.arbTack := by
  unfold respond pushResp; dsimp only; split <;> rfl
@[simp] theorem respond_sup_seqs : (respond s p).sup.seqs = s.sup.seqs := by
  unfold respond pushResp; dsimp only; split <;> rfl
@[simp] theorem respond_sup_buckets : (respond s p).sup.buckets = s.sup.buckets := by
  unfold respond pushResp; dsimp only; split <;> rfl
@[simp] theorem noteRefusal_agreed : (noteRefusal s ctx idx sub code pkg own).agreed = s.agreed := by
  unfold noteRefusal; dsimp only; split
  · split
    · rfl
    · simp
  · simp
@[simp] theorem noteRefusal_cyc : (noteRefusal s ctx idx sub code pkg own).cyc = s.cyc := by
  unfold noteRefusal; dsimp only; split
  · split
    · rfl
    · simp
  · simp
@[simp] theorem noteRefusal_lanes : (noteRefusal s ctx idx sub code pkg own).lanes = s.lanes := by
  unfold noteRefusal; dsimp only; split
  · split
    · rfl
    · simp
  · simp
@[simp] theorem noteRefusal_agree : (noteRefusal s ctx idx sub code pkg own).agree = s.agree := by
  unfold noteRefusal; dsimp only; split
  · split
    · rfl
    · simp
  · simp
@[simp] theorem noteRefusal_ilinks : (noteRefusal s ctx idx sub code pkg own).ilinks = s.ilinks := by
  unfold noteRefusal; dsimp only; split
  · split
    · rfl
    · simp
  · simp
@[simp] theorem noteRefusal_hubDiff : (noteRefusal s ctx idx sub code pkg own).hubDiff = s.hubDiff := by
  unfold noteRefusal; dsimp only; split
  · split
    · rfl
    · simp
  · simp
@[simp] theorem noteRefusal_hubDiffRun : (noteRefusal s ctx idx sub code pkg own).hubDiffRun = s.hubDiffRun := by
  unfold noteRefusal; dsimp only; split
  · split
    · rfl
    · simp
  · simp
@[simp] theorem noteRefusal_hubDiffDone : (noteRefusal s ctx idx sub code pkg own).hubDiffDone = s.hubDiffDone := by
  unfold noteRefusal; dsimp only; split
  · split
    · rfl
    · simp
  · simp
@[simp] theorem noteRefusal_supply : (noteRefusal s ctx idx sub code pkg own).supply = s.supply := by
  unfold noteRefusal; dsimp only; split
  · split
    · rfl
    · simp
  · simp
@[simp] theorem noteRefusal_shedHub : (noteRefusal s ctx idx sub code pkg own).shedHub = s.shedHub := by
  unfold noteRefusal; dsimp only; split
  · split
    · rfl
    · simp
  · simp
@[simp] theorem noteRefusal_bb : (noteRefusal s ctx idx sub code pkg own).bb = s.bb := by
  unfold noteRefusal; dsimp only; split
  · split
    · rfl
    · simp
  · simp
@[simp] theorem noteRefusal_con : (noteRefusal s ctx idx sub code pkg own).con = s.con := by
  unfold noteRefusal; dsimp only; split
  · split
    · rfl
    · simp
  · simp
@[simp] theorem noteRefusal_twin : (noteRefusal s ctx idx sub code pkg own).twin = s.twin := by
  unfold noteRefusal; dsimp only; split
  · split
    · rfl
    · simp
  · simp
@[simp] theorem noteRefusal_br : (noteRefusal s ctx idx sub code pkg own).br = s.br := by
  unfold noteRefusal; dsimp only; split
  · split
    · rfl
    · simp
  · simp
@[simp] theorem noteRefusal_field : (noteRefusal s ctx idx sub code pkg own).field = s.field := by
  unfold noteRefusal; dsimp only; split
  · split
    · rfl
    · simp
  · simp
@[simp] theorem noteRefusal_tacho : (noteRefusal s ctx idx sub code pkg own).tacho = s.tacho := by
  unfold noteRefusal; dsimp only; split
  · split
    · rfl
    · simp
  · simp
@[simp] theorem noteRefusal_saf : (noteRefusal s ctx idx sub code pkg own).saf = s.saf := by
  unfold noteRefusal; dsimp only; split
  · split
    · rfl
    · simp
  · simp
@[simp] theorem noteRefusal_upd : (noteRefusal s ctx idx sub code pkg own).upd = s.upd := by
  unfold noteRefusal; dsimp only; split
  · split
    · rfl
    · simp
  · simp
@[simp] theorem noteRefusal_perf : (noteRefusal s ctx idx sub code pkg own).perf = s.perf := by
  unfold noteRefusal; dsimp only; split
  · split
    · rfl
    · simp
  · simp
@[simp] theorem noteRefusal_st : (noteRefusal s ctx idx sub code pkg own).st = s.st := by
  unfold noteRefusal; dsimp only; split
  · split
    · rfl
    · simp
  · simp
@[simp] theorem noteRefusal_egress : (noteRefusal s ctx idx sub code pkg own).egress = s.egress := by
  unfold noteRefusal; dsimp only; split
  · split
    · rfl
    · simp
  · simp
@[simp] theorem noteRefusal_pending : (noteRefusal s ctx idx sub code pkg own).pending = s.pending := by
  unfold noteRefusal; dsimp only; split
  · split
    · rfl
    · simp
  · simp
@[simp] theorem noteRefusal_sup_stalls : (noteRefusal s ctx idx sub code pkg own).sup.stalls = s.sup.stalls := by
  unfold noteRefusal; dsimp only; split
  · split
    · rfl
    · simp
  · simp
@[simp] theorem noteRefusal_sup_reqs : (noteRefusal s ctx idx sub code pkg own).sup.reqs = s.sup.reqs := by
  unfold noteRefusal; dsimp only; split
  · split
    · rfl
    · simp
  · simp
@[simp] theorem noteRefusal_sup_resps : (noteRefusal s ctx idx sub code pkg own).sup.resps = s.sup.resps := by
  unfold noteRefusal; dsimp only; split
  · split
    · rfl
    · simp
  · simp
@[simp] theorem noteRefusal_sup_mode : (noteRefusal s ctx idx sub code pkg own).sup.mode = s.sup.mode := by
  unfold noteRefusal; dsimp only; split
  · split
    · rfl
    · simp
  · simp
@[simp] theorem noteRefusal_sup_modePending : (noteRefusal s ctx idx sub code pkg own).sup.modePending = s.sup.modePending := by
  unfold noteRefusal; dsimp only; split
  · split
    · rfl
    · simp
  · simp
@[simp] theorem noteRefusal_sup_adopted : (noteRefusal s ctx idx sub code pkg own).sup.adopted = s.sup.adopted := by
  unfold noteRefusal; dsimp only; split
  · split
    · rfl
    · simp
  · simp
@[simp] theorem noteRefusal_sup_samples : (noteRefusal s ctx idx sub code pkg own).sup.samples = s.sup.samples := by
  unfold noteRefusal; dsimp only; split
  · split
    · rfl
    · simp
  · simp
@[simp] theorem noteRefusal_sup_di : (noteRefusal s ctx idx sub code pkg own).sup.di = s.sup.di := by
  unfold noteRefusal; dsimp only; split
  · split
    · rfl
    · simp
  · simp
@[simp] theorem noteRefusal_sup_posted : (noteRefusal s ctx idx sub code pkg own).sup.posted = s.sup.posted := by
  unfold noteRefusal; dsimp only; split
  · split
    · rfl
    · simp
  · simp
@[simp] theorem noteRefusal_sup_outs : (noteRefusal s ctx idx sub code pkg own).sup.outs = s.sup.outs := by
  unfold noteRefusal; dsimp only; split
  · split
    · rfl
    · simp
  · simp
@[simp] theorem noteRefusal_sup_forceDi : (noteRefusal s ctx idx sub code pkg own).sup.forceDi = s.sup.forceDi := by
  unfold noteRefusal; dsimp only; split
  · split
    · rfl
    · simp
  · simp
@[simp] theorem noteRefusal_sup_outsPrev : (noteRefusal s ctx idx sub code pkg own).sup.outsPrev = s.sup.outsPrev := by
  unfold noteRefusal; dsimp only; split
  · split
    · rfl
    · simp
  · simp
@[simp] theorem noteRefusal_sup_forceDo : (noteRefusal s ctx idx sub code pkg own).sup.forceDo = s.sup.forceDo := by
  unfold noteRefusal; dsimp only; split
  · split
    · rfl
    · simp
  · simp
@[simp] theorem noteRefusal_sup_forceAi : (noteRefusal s ctx idx sub code pkg own).sup.forceAi = s.sup.forceAi := by
  unfold noteRefusal; dsimp only; split
  · split
    · rfl
    · simp
  · simp
@[simp] theorem noteRefusal_sup_doLast : (noteRefusal s ctx idx sub code pkg own).sup.doLast = s.sup.doLast := by
  unfold noteRefusal; dsimp only; split
  · split
    · rfl
    · simp
  · simp
@[simp] theorem noteRefusal_sup_cmdSeq : (noteRefusal s ctx idx sub code pkg own).sup.cmdSeq = s.sup.cmdSeq := by
  unfold noteRefusal; dsimp only; split
  · split
    · rfl
    · simp
  · simp
@[simp] theorem noteRefusal_sup_safReqs : (noteRefusal s ctx idx sub code pkg own).sup.safReqs = s.sup.safReqs := by
  unfold noteRefusal; dsimp only; split
  · split
    · rfl
    · simp
  · simp
@[simp] theorem noteRefusal_sup_timedDo : (noteRefusal s ctx idx sub code pkg own).sup.timedDo = s.sup.timedDo := by
  unfold noteRefusal; dsimp only; split
  · split
    · rfl
    · simp
  · simp
@[simp] theorem noteRefusal_sup_withdraw : (noteRefusal s ctx idx sub code pkg own).sup.withdraw = s.sup.withdraw := by
  unfold noteRefusal; dsimp only; split
  · split
    · rfl
    · simp
  · simp
@[simp] theorem noteRefusal_sup_retainSeq : (noteRefusal s ctx idx sub code pkg own).sup.retainSeq = s.sup.retainSeq := by
  unfold noteRefusal; dsimp only; split
  · split
    · rfl
    · simp
  · simp
@[simp] theorem noteRefusal_sup_tp : (noteRefusal s ctx idx sub code pkg own).sup.tp = s.sup.tp := by
  unfold noteRefusal; dsimp only; split
  · split
    · rfl
    · simp
  · simp
@[simp] theorem noteRefusal_sup_triggers : (noteRefusal s ctx idx sub code pkg own).sup.triggers = s.sup.triggers := by
  unfold noteRefusal; dsimp only; split
  · split
    · rfl
    · simp
  · simp
@[simp] theorem noteRefusal_sup_trigGen : (noteRefusal s ctx idx sub code pkg own).sup.trigGen = s.sup.trigGen := by
  unfold noteRefusal; dsimp only; split
  · split
    · rfl
    · simp
  · simp
@[simp] theorem noteRefusal_sup_en : (noteRefusal s ctx idx sub code pkg own).sup.en = s.sup.en := by
  unfold noteRefusal; dsimp only; split
  · split
    · rfl
    · simp
  · simp
@[simp] theorem noteRefusal_sup_groups : (noteRefusal s ctx idx sub code pkg own).sup.groups = s.sup.groups := by
  unfold noteRefusal; dsimp only; split
  · split
    · rfl
    · simp
  · simp
@[simp] theorem noteRefusal_sup_chg : (noteRefusal s ctx idx sub code pkg own).sup.chg = s.sup.chg := by
  unfold noteRefusal; dsimp only; split
  · split
    · rfl
    · simp
  · simp
@[simp] theorem noteRefusal_sup_chgCount : (noteRefusal s ctx idx sub code pkg own).sup.chgCount = s.sup.chgCount := by
  unfold noteRefusal; dsimp only; split
  · split
    · rfl
    · simp
  · simp
@[simp] theorem noteRefusal_sup_arbArm : (noteRefusal s ctx idx sub code pkg own).sup.arbArm = s.sup.arbArm := by
  unfold noteRefusal; dsimp only; split
  · split
    · rfl
    · simp
  · simp
@[simp] theorem noteRefusal_sup_arbTack : (noteRefusal s ctx idx sub code pkg own).sup.arbTack = s.sup.arbTack := by
  unfold noteRefusal; dsimp only; split
  · split
    · rfl
    · simp
  · simp
@[simp] theorem noteRefusal_sup_seqs : (noteRefusal s ctx idx sub code pkg own).sup.seqs = s.sup.seqs := by
  unfold noteRefusal; dsimp only; split
  · split
    · rfl
    · simp
  · simp

end Sys2Proof.Machine
end

