-- ==== Sys2Proof/Laws/Tables.lean ====
section
/-!
SUPPORT. Sparse tables and stall memory: a read after a write, the canonical form kept by every operation, and reads of fixed
arrays after an element is replaced.
-/

namespace Sys2Proof

variable {α : Type}

/-! ## Sparse tables -/

@[simp] theorem nget?_nset_self (m : NMap α) (i : Nat) (v : α) : nget? (nset m i v) i = some v := by
  induction m with
  | nil => simp [nset, nget?]
  | cons p m ih =>
    obtain ⟨k, w⟩ := p
    unfold nset
    split
    · simp [nget?]
    · split
      · simp [nget?]
      · rename_i h1 h2
        have : k ≠ i := fun h => h2 h.symm
        simp [nget?, this, h1, ih]

theorem nget?_nset_of_ne (m : NMap α) {i j : Nat} (v : α) (h : j ≠ i) : nget? (nset m i v) j = nget? m j := by
  induction m with
  | nil => simp [nset, nget?, Ne.symm h]
  | cons p m ih =>
    obtain ⟨k, w⟩ := p
    unfold nset
    split
    · rename_i h1
      simp only [nget?, Ne.symm h, if_false]
      by_cases hj : j < i
      · have : k ≠ j := by omega
        have : j < k := by omega
        simp [*]
      · simp [hj]
    · split
      · rename_i h1 h2
        subst h2
        simp [nget?, Ne.symm h]
      · simp only [nget?, ih]

@[simp] theorem nget_nset_self (m : NMap α) (i : Nat) (v d : α) : nget (nset m i v) i d = v := by simp [nget]

theorem nget_nset_of_ne (m : NMap α) {i j : Nat} (v d : α) (h : j ≠ i) : nget (nset m i v) j d = nget m j d := by
  simp [nget, nget?_nset_of_ne m v h]

@[simp] theorem nget?_nupd_self (m : NMap α) (i : Nat) (f : α → α) : nget? (nupd m i f) i = (nget? m i).map f := by
  unfold nupd
  cases h : nget? m i <;> simp [h]

theorem nget?_nupd_of_ne (m : NMap α) {i j : Nat} (f : α → α) (h : j ≠ i) : nget? (nupd m i f) j = nget? m j := by
  unfold nupd
  cases nget? m i <;> simp [nget?_nset_of_ne _ _ h]

theorem nrising_mono (m : NMap α) {a b : Nat} (h : a ≤ b) (hm : nrising b m = true) : nrising a m = true := by
  cases m with
  | nil => rfl
  | cons p m =>
    obtain ⟨k, w⟩ := p
    simp only [nrising, Bool.and_eq_true, decide_eq_true_eq] at hm ⊢
    exact ⟨by omega, hm.2⟩

theorem nrising_nset (m : NMap α) (i : Nat) (v : α) : ∀ b, b ≤ i → nrising b m = true → nrising b (nset m i v) = true := by
  induction m with
  | nil => intro b hb _; simp [nset, nrising, hb]
  | cons p m ih =>
    obtain ⟨k, w⟩ := p
    intro b hb hm
    simp only [nrising, Bool.and_eq_true, decide_eq_true_eq] at hm
    unfold nset
    split
    · simp only [nrising, Bool.and_eq_true, decide_eq_true_eq]
      exact ⟨hb, by omega, hm.2⟩
    · split
      · rename_i h2
        simp only [nrising, Bool.and_eq_true, decide_eq_true_eq]
        exact ⟨hb, by simpa [h2] using hm.2⟩
      · simp only [nrising, Bool.and_eq_true, decide_eq_true_eq]
        exact ⟨hm.1, ih _ (by omega) hm.2⟩

/-- Storing a value keeps the canonical form. -/
theorem nwf_nset (m : NMap α) (i : Nat) (v : α) (h : nwf m = true) : nwf (nset m i v) = true :=
  nrising_nset m i v 0 (Nat.zero_le i) h

theorem nrising_nerase (m : NMap α) (i : Nat) : ∀ b, nrising b m = true → nrising b (nerase m i) = true := by
  induction m with
  | nil => intro b h; exact h
  | cons p m ih =>
    obtain ⟨k, w⟩ := p
    intro b hm
    simp only [nrising, Bool.and_eq_true, decide_eq_true_eq] at hm
    unfold nerase
    split
    · exact nrising_mono m (by omega) hm.2
    · split
      · simp [nrising, hm]
      · simp [nrising, hm.1, ih _ hm.2]

/-- Removing a key keeps the canonical form. -/
theorem nwf_nerase (m : NMap α) (i : Nat) (h : nwf m = true) : nwf (nerase m i) = true := nrising_nerase m i 0 h

/-- Storing a value under an unlisted default keeps the canonical form. -/
theorem nwf_nput [DecidableEq α] (m : NMap α) (i : Nat) (v d : α) (h : nwf m = true) : nwf (nput m i v d) = true := by
  unfold nput
  split
  · exact nwf_nerase m i h
  · exact nwf_nset m i v h

theorem nget?_of_rising (m : NMap α) : ∀ b j, nrising b m = true → j < b → nget? m j = none := by
  induction m with
  | nil => intros; rfl
  | cons p m _ =>
    obtain ⟨k, w⟩ := p
    intro b j hm hj
    simp only [nrising, Bool.and_eq_true, decide_eq_true_eq] at hm
    have h1 : k ≠ j := by omega
    have h2 : j < k := by omega
    simp [nget?, h1, h2]

theorem nget?_nerase_self (m : NMap α) (i : Nat) : ∀ b, nrising b m = true → nget? (nerase m i) i = none := by
  induction m with
  | nil => intros; rfl
  | cons p m ih =>
    obtain ⟨k, w⟩ := p
    intro b hm
    simp only [nrising, Bool.and_eq_true, decide_eq_true_eq] at hm
    unfold nerase
    split
    · rename_i h
      exact nget?_of_rising m (k + 1) i hm.2 (by omega)
    · rename_i h
      split
      · rename_i h2
        simp [nget?, h, h2]
      · rename_i h2
        simp [nget?, h, h2, ih _ hm.2]

theorem nget?_nerase_of_ne (m : NMap α) {i j : Nat} (h : j ≠ i) :
    ∀ b, nrising b m = true → nget? (nerase m i) j = nget? m j := by
  induction m with
  | nil => intros; rfl
  | cons p m ih =>
    obtain ⟨k, w⟩ := p
    intro b hm
    simp only [nrising, Bool.and_eq_true, decide_eq_true_eq] at hm
    unfold nerase
    split
    · rename_i hk
      have hkj : k ≠ j := by omega
      by_cases hj : j < k
      · simp [nget?, hkj, hj, nget?_of_rising m (k + 1) j hm.2 (by omega)]
      · simp [nget?, hkj, hj]
    · split
      · rfl
      · simp only [nget?, ih _ hm.2]

/-- What a canonical table reads as after a value is stored under an unlisted default. -/
theorem nget_nput [DecidableEq α] (m : NMap α) (i j : Nat) (v d : α) (h : nwf m = true) :
    nget (nput m i v d) j d = if j = i then v else nget m j d := by
  unfold nput nget
  by_cases hj : j = i
  · subst hj
    split
    · rename_i hv
      simp [nget?_nerase_self m j 0 h, hv]
    · simp
  · split
    · simp [nget?_nerase_of_ne m hj 0 h]
    · simp [nget?_nset_of_ne m v hj]

/-! ## Fixed arrays -/

theorem vget_vupd {n : Nat} (v : Vector α n) (i j : Nat) (f : α → α) (d : α) :
    vget (vupd v i f) j d = if j = i ∧ i < n then f (vget v i d) else vget v j d := by
  unfold vget vupd
  by_cases hi : i < n
  · by_cases hj : j < n
    · by_cases h : j = i
      · subst h
        simp [hi]
      · simp [hi, hj, h, Ne.symm h]
    · have : j ≠ i := by omega
      simp [hi, hj, this]
  · simp [hi]

@[simp] theorem vget_vupd_self {n : Nat} (v : Vector α n) (i : Nat) (f : α → α) (d : α) (h : i < n) :
    vget (vupd v i f) i d = f (vget v i d) := by
  rw [vget_vupd]
  simp [h]

theorem vget_vupd_of_ne {n : Nat} (v : Vector α n) {i j : Nat} (f : α → α) (d : α) (h : j ≠ i) :
    vget (vupd v i f) j d = vget v j d := by
  rw [vget_vupd]
  simp [h]

end Sys2Proof

namespace Sys2Proof.Machine

/-! ## Stall memory -/

theorem mrising_mono (m : Mem) {a b : Nat} (h : a ≤ b) (hm : mrising b m = true) : mrising a m = true := by
  cases m with
  | nil => rfl
  | cons p m =>
    obtain ⟨k, w⟩ := p
    simp only [mrising, Bool.and_eq_true, decide_eq_true_eq] at hm ⊢
    exact ⟨⟨by omega, hm.1.2⟩, hm.2⟩

theorem mget_of_rising (m : Mem) : ∀ b j, mrising b m = true → j < b → mget m j = 0 := by
  cases m with
  | nil => intros; rfl
  | cons p m =>
    obtain ⟨k, w⟩ := p
    intro b j hm hj
    simp only [mrising, Bool.and_eq_true, decide_eq_true_eq] at hm
    have h1 : k ≠ j := by omega
    have h2 : j < k := by omega
    simp [mget, h1, h2]

theorem mrising_mins (m : Mem) (a : Nat) (v : Byte) (hv : v ≠ 0) :
    ∀ b, b ≤ a → mrising b m = true → mrising b (mins m a v) = true := by
  induction m with
  | nil => intro b hb _; simpa [mins, mrising, hb] using hv
  | cons p m ih =>
    obtain ⟨k, w⟩ := p
    intro b hb hm
    simp only [mrising, Bool.and_eq_true, decide_eq_true_eq] at hm
    unfold mins
    split
    · simp only [mrising, Bool.and_eq_true, decide_eq_true_eq]
      exact ⟨⟨hb, hv⟩, ⟨by omega, hm.1.2⟩, hm.2⟩
    · split
      · rename_i h2
        simp only [mrising, Bool.and_eq_true, decide_eq_true_eq]
        exact ⟨⟨hb, hv⟩, by simpa [h2] using hm.2⟩
      · simp only [mrising, Bool.and_eq_true, decide_eq_true_eq]
        exact ⟨hm.1, ih _ (by omega) hm.2⟩

theorem mrising_mdel (m : Mem) (a : Nat) : ∀ b, mrising b m = true → mrising b (mdel m a) = true := by
  induction m with
  | nil => intro b h; exact h
  | cons p m ih =>
    obtain ⟨k, w⟩ := p
    intro b hm
    simp only [mrising, Bool.and_eq_true, decide_eq_true_eq] at hm
    unfold mdel
    split
    · exact mrising_mono m (by omega) hm.2
    · split
      · simpa [mrising, hm] using hm.1.2
      · simpa [mrising, hm.1, ih _ hm.2] using hm.1.2

/-- Writing a byte keeps the canonical form. -/
theorem wf_mput (m : Mem) (a : Nat) (v : Byte) (h : Mem.wf m = true) : Mem.wf (mput m a v) = true := by
  unfold mput
  split
  · exact mrising_mdel m a 0 h
  · rename_i hv
    exact mrising_mins m a v hv 0 (Nat.zero_le a) h

/-- Writing bytes keeps the canonical form. -/
theorem wf_mputs (bs : List Byte) : ∀ (m : Mem) (a : Nat), Mem.wf m = true → Mem.wf (mputs m a bs) = true := by
  induction bs with
  | nil => intro m a h; exact h
  | cons b bs ih => intro m a h; exact ih _ _ (wf_mput m a b h)

/-- Writing an `n`-byte value keeps the canonical form. -/
theorem wf_mwrite (m : Mem) (a n x : Nat) (h : Mem.wf m = true) : Mem.wf (mwrite m a n x) = true := wf_mputs _ m a h

theorem mget_mins (m : Mem) (a j : Nat) (v : Byte) : mget (mins m a v) j = if j = a then v else mget m j := by
  induction m with
  | nil =>
    by_cases h : j = a
    · simp [mins, mget, h]
    · simp [mins, mget, h, Ne.symm h]
  | cons p m ih =>
    obtain ⟨k, w⟩ := p
    unfold mins
    by_cases hj : j = a
    · subst hj
      split
      · simp [mget]
      · split
        · simp [mget]
        · rename_i h1 h2
          have : k ≠ j := fun h => h2 h.symm
          simp [mget, this, h1, ih]
    · split
      · simp only [mget, Ne.symm hj, if_false]
        by_cases h : j < a
        · have h1 : k ≠ j := by omega
          have h2 : j < k := by omega
          simp [h, h1, h2]
        · simp [h]
      · split
        · rename_i h1 h2
          subst h2
          simp [mget, Ne.symm hj]
        · simp only [mget, ih, hj, if_false]

theorem mget_mdel (m : Mem) (a j : Nat) : ∀ b, mrising b m = true → mget (mdel m a) j = if j = a then 0 else mget m j := by
  induction m with
  | nil => intros; simp [mdel, mget]
  | cons p m ih =>
    obtain ⟨k, w⟩ := p
    intro b hm
    simp only [mrising, Bool.and_eq_true, decide_eq_true_eq] at hm
    unfold mdel
    by_cases hj : j = a
    · subst hj
      split
      · rename_i h
        simp [mget_of_rising m (k + 1) j hm.2 (by omega)]
      · rename_i h
        split
        · rename_i h2
          simp [mget, h, h2]
        · rename_i h2
          simp [mget, h, h2, ih _ hm.2]
    · split
      · rename_i hk
        have hkj : k ≠ j := by omega
        by_cases hlt : j < k
        · simp [mget, hkj, hlt, mget_of_rising m (k + 1) j hm.2 (by omega)]
        · simp [mget, hkj, hlt]
      · split
        · simp
        · simp only [mget, ih _ hm.2, hj, if_false]

/-- A read after one byte was written to a canonical memory. -/
theorem mget_mput (m : Mem) (a j : Nat) (v : Byte) (h : Mem.wf m = true) :
    mget (mput m a v) j = if j = a then v else mget m j := by
  unfold mput
  split
  · rename_i hv
    rw [mget_mdel m a j 0 h, hv]
  · exact mget_mins m a j v

/-- The byte of a list at a position. -/
theorem mget_mputs (bs : List Byte) : ∀ (m : Mem) (a j : Nat), Mem.wf m = true →
    mget (mputs m a bs) j = if a ≤ j ∧ j < a + bs.length then bs.getD (j - a) 0 else mget m j := by
  induction bs with
  | nil =>
    intro m a j _
    simp [mputs]
  | cons b bs ih =>
    intro m a j h
    rw [mputs, ih _ _ _ (wf_mput m a b h), mget_mput m a j b h]
    by_cases h1 : j = a
    · subst h1
      simp
    · by_cases h2 : a + 1 ≤ j ∧ j < a + 1 + bs.length
      · have h3 : a ≤ j ∧ j < a + (bs.length + 1) := by omega
        have h4 : j - a = (j - (a + 1)) + 1 := by omega
        simp only [List.length_cons, if_pos h2, if_pos h3, h4, List.getD_cons_succ]
      · have h3 : ¬ (a ≤ j ∧ j < a + (bs.length + 1)) := by omega
        simp only [List.length_cons, if_neg h2, if_neg h3, if_neg h1]

@[simp] theorem length_leBytes (n : Nat) : ∀ x, (leBytes n x).length = n := by
  induction n with
  | zero => intro x; rfl
  | succ n ih => intro x; simp [leBytes, ih]

theorem getD_leBytes (n : Nat) : ∀ x j, j < n → (leBytes n x).getD j 0 = BitVec.ofNat 8 (x / 256 ^ j) := by
  induction n with
  | zero => intro x j h; omega
  | succ n ih =>
    intro x j h
    cases j with
    | zero => simp [leBytes]
    | succ j =>
      simp only [leBytes, List.getD_cons_succ]
      rw [ih _ _ (by omega), Nat.div_div_eq_div_mul, Nat.pow_succ, Nat.mul_comm]

/-- A read after an `n`-byte value was written to a canonical memory. -/
theorem mget_mwrite (m : Mem) (a n x j : Nat) (h : Mem.wf m = true) :
    mget (mwrite m a n x) j = if a ≤ j ∧ j < a + n then BitVec.ofNat 8 (x / 256 ^ (j - a)) else mget m j := by
  unfold mwrite
  rw [mget_mputs _ _ _ _ h, length_leBytes]
  split
  · rename_i hj
    exact getD_leBytes n x (j - a) (by omega)
  · rfl

theorem mrising_filter (p : Host.Cell → Bool) (m : Mem) : ∀ b, mrising b m = true → mrising b (m.filter p) = true := by
  induction m with
  | nil => intro b h; exact h
  | cons q m ih =>
    obtain ⟨k, w⟩ := q
    intro b hm
    simp only [mrising, Bool.and_eq_true, decide_eq_true_eq] at hm
    rw [List.filter_cons]
    split
    · simpa [mrising, hm.1, ih _ hm.2] using hm.1.2
    · exact mrising_mono _ (by omega) (ih _ hm.2)

theorem mget_filter (f : Nat → Bool) (m : Mem) (j : Nat) : ∀ b, mrising b m = true →
    mget (m.filter (fun c => f c.1)) j = if f j then mget m j else 0 := by
  induction m with
  | nil => intro b _; simp [mget]
  | cons q m ih =>
    obtain ⟨k, w⟩ := q
    intro b hm
    simp only [mrising, Bool.and_eq_true, decide_eq_true_eq] at hm
    rw [List.filter_cons]
    by_cases hkj : k = j
    · subst hkj
      cases hf : f k
      · have h0 := mget_of_rising (m.filter (fun c => f c.1)) (k + 1) k (mrising_filter _ m _ hm.2) (by omega)
        simp [h0]
      · simp [mget]
    · cases hf : f k
      · simp only [Bool.false_eq_true, if_false]
        rw [ih _ hm.2]
        by_cases hlt : j < k
        · rw [mget_of_rising m (k + 1) j hm.2 (by omega)]
          simp [mget, hkj, hlt]
        · simp [mget, hkj, hlt]
      · simp only [if_true, mget, hkj, if_false]
        by_cases hlt : j < k
        · simp [hlt]
        · simp only [hlt, if_false]
          exact ih _ hm.2

/-- Clearing a range keeps the canonical form. -/
theorem wf_mclear (m : Mem) (lo hi : Nat) (h : Mem.wf m = true) : Mem.wf (mclear m lo hi) = true :=
  mrising_filter _ m 0 h

/-- Restricting to a range keeps the canonical form. -/
theorem wf_mkeep (m : Mem) (lo hi : Nat) (h : Mem.wf m = true) : Mem.wf (mkeep m lo hi) = true :=
  mrising_filter _ m 0 h

theorem mget_mclear (m : Mem) (lo hi j : Nat) (h : Mem.wf m = true) :
    mget (mclear m lo hi) j = if lo ≤ j ∧ j < hi then 0 else mget m j := by
  unfold mclear
  rw [mget_filter (fun a => !(lo ≤ a && a < hi)) m j 0 h]
  by_cases h1 : lo ≤ j ∧ j < hi
  · simp [h1]
  · have : ¬ (lo ≤ j) ∨ ¬ (j < hi) := by omega
    rcases this with h2 | h2 <;> simp [h2]

theorem mget_mkeep (m : Mem) (lo hi j : Nat) (h : Mem.wf m = true) :
    mget (mkeep m lo hi) j = if lo ≤ j ∧ j < hi then mget m j else 0 := by
  unfold mkeep
  rw [mget_filter (fun a => lo ≤ a && a < hi) m j 0 h]
  by_cases h1 : lo ≤ j ∧ j < hi
  · simp [h1]
  · have : ¬ (lo ≤ j) ∨ ¬ (j < hi) := by omega
    rcases this with h2 | h2 <;> simp [h2]

end Sys2Proof.Machine
end

