-- ==== Sys2Proof/Laws/Bare.lean ====
section
/-!
SUPPORT. What recording an event leaves alone (`noted`), that it is recorded, and what an accepted write does.
-/

namespace Sys2Proof.Machine

open Sys2Proof.Safe

variable {α : Type}

theorem nset_nset (m : NMap α) (i : Nat) (v w : α) : nset (nset m i v) i w = nset m i w := by
  induction m with
  | nil => simp [nset]
  | cons p rest ih =>
    obtain ⟨k, u⟩ := p
    simp only [nset]
    split
    · simp [nset]
    · split
      · simp [nset]
      · next h1 h2 => simp [nset, h1, h2, ih]

theorem nset_comm (m : NMap α) {i j : Nat} (v w : α) (h : i ≠ j) : nset (nset m i v) j w = nset (nset m j w) i v := by
  induction m with
  | nil =>
    simp only [nset]
    rcases Nat.lt_or_gt_of_ne h with h1 | h1
    · simp [h1, Nat.not_lt_of_lt h1, h.symm]
    · simp [h1, Nat.not_lt_of_lt h1, h]
  | cons p rest ih =>
    obtain ⟨k, u⟩ := p
    rcases Nat.lt_trichotomy i k with hi | hi | hi <;> rcases Nat.lt_trichotomy j k with hj | hj | hj <;>
      rcases Nat.lt_or_gt_of_ne h with h1 | h1 <;>
      simp_all [nset, Nat.not_lt_of_lt, Nat.ne_of_gt, Nat.ne_of_lt] <;> try omega

variable (s : State) (r : Record) (o origin t src code sev stall h die n idx sub ctx : Nat) (data : List Byte)

@[simp] theorem map_inflight_deliver : (deliver s o r).hubs.map (fun d => { d with inflight := [] }) =
    s.hubs.map (fun d => { d with inflight := [] }) := by
  unfold deliver
  apply Vector.ext
  intro i hi
  simp only [Vector.getElem_map, Vector.getElem_mapIdx]
  split <;> rfl

/-- Recording leaves everything but the records alone. -/
@[simp] theorem bare_emitJ : bare (emitJ s origin t src code sev data stall).2 = bare s := by
  unfold emitJ
  simp only []
  split
  · simp [bare]
  · split <;> split <;> simp [bare, bump, bumpx, svx, E.recSuppressed, nset_nset]

@[simp] theorem bare_emitL : bare (emitL s src code sev data stall) = bare s := bare_emitJ ..
@[simp] theorem bare_emitH : bare (emitH s h t src code sev data) = bare s := bare_emitJ ..

@[simp] theorem map_inflight_emitJ : ((emitJ s origin t src code sev data stall).2).hubs.map (fun d => { d with inflight := [] }) =
    (s).hubs.map (fun d => { d with inflight := [] }) := congrArg State.hubs (bare_emitJ ..)
@[simp] theorem nset_cnt_emitJ : nset ((emitJ s origin t src code sev data stall).2).cnt (ekey E.recSuppressed.idx E.recSuppressed.sub 0) 0 =
    nset (s).cnt (ekey E.recSuppressed.idx E.recSuppressed.sub 0) 0 := congrArg State.cnt (bare_emitJ ..)
@[simp] theorem map_inflight_emitL : (emitL s src code sev data stall).hubs.map (fun d => { d with inflight := [] }) =
    (s).hubs.map (fun d => { d with inflight := [] }) := congrArg State.hubs (bare_emitL ..)
@[simp] theorem nset_cnt_emitL : nset (emitL s src code sev data stall).cnt (ekey E.recSuppressed.idx E.recSuppressed.sub 0) 0 =
    nset (s).cnt (ekey E.recSuppressed.idx E.recSuppressed.sub 0) 0 := congrArg State.cnt (bare_emitL ..)
@[simp] theorem map_inflight_emitH : (emitH s h t src code sev data).hubs.map (fun d => { d with inflight := [] }) =
    (s).hubs.map (fun d => { d with inflight := [] }) := congrArg State.hubs (bare_emitH ..)
@[simp] theorem nset_cnt_emitH : nset (emitH s h t src code sev data).cnt (ekey E.recSuppressed.idx E.recSuppressed.sub 0) 0 =
    nset (s).cnt (ekey E.recSuppressed.idx E.recSuppressed.sub 0) 0 := congrArg State.cnt (bare_emitH ..)

theorem map_vupd {β : Type} {n : Nat} (v : Vector α n) (i : Nat) (f : α → α) (g : α → β) (h : ∀ x, g (f x) = g x) :
    (vupd v i f).map g = v.map g := by
  unfold vupd
  split
  · next hi =>
    apply Vector.ext
    intro j hj
    simp only [Vector.getElem_map, Vector.getElem_set]
    split
    · next e => subst e; exact h _
    · rfl
  · rfl

/-- A field die's own record is among its kept ones, or with the others. -/
@[simp] theorem bare_emitF : bare (emitF s die t code sev data) = bare s := by
  unfold emitF
  simp only []
  split
  · split
    · simp only [bare]
      rw [map_vupd]
      intro x
      rfl
    · rfl
  · exact bare_emitJ ..

theorem mem_nset (m : NMap α) (i : Nat) (v : α) : (i, v) ∈ nset m i v := by
  induction m with
  | nil => simp [nset]
  | cons p rest ih =>
    obtain ⟨k, w⟩ := p
    simp only [nset]
    split
    · simp
    · split
      · simp
      · simp [ih]

theorem onWay_deliver (hup : hubUp s h = true) (he : hears s o h = true) (hh : h < 2) : onWay (deliver s o r) h r.code := by
  unfold onWay getHub deliver
  simp only [vget, hubUp, getHub] at *
  simp only [hh, dite_true, Vector.getElem_mapIdx] at *
  refine ⟨{ r with opS := s.recd.seconds, pwr := s.recd.cycles }, ?_, rfl⟩
  revert hup
  cases s.hubs[h].failed <;> cases s.hubs[h].restarting <;> simp [he]

theorem hubUp_deliver : hubUp (deliver s o r) h = hubUp s h := by
  unfold hubUp getHub deliver vget
  by_cases hh : h < 2
  · simp only [hh, dite_true, Vector.getElem_mapIdx]
    split <;> rfl
  · simp [hh]

theorem hears_deliver (n : Nat) : hears (deliver s n r) o h = hears s o h := rfl

theorem judge_refused (b : Bucket) (hj : (b.judge t sev).1 = false) : (b.judge t sev).2.run.isSome = true := by
  unfold Bucket.judge at *
  simp only [] at *
  split at hj
  · cases hj
  · next h => simp [h]

/-- A record that passes its rate limit is on its way to every hub in operation that hears its die; another one is suppressed. -/
theorem recordedFrom_emitJ (hc : code < 65536) : recordedFrom (emitJ s origin t src code sev data stall).2 origin code := by
  have way : ∀ (u : State) (r : Record), r.code = code → recordedFrom (deliver u origin r) origin code := by
    intro u r hr
    refine .inl fun h hh hup he => ?_
    rw [hubUp_deliver] at hup
    rw [hears_deliver] at he
    rw [← hr]
    exact onWay_deliver u r origin h hup he hh
  unfold emitJ
  simp only []
  split
  · exact way _ _ rfl
  · by_cases h0 : origin = 0
    · subst h0
      simp only [if_true]
      have hr := judge_refused t sev (nget s.sup.buckets (pairKey 0 src code) {})
      revert hr
      generalize (nget s.sup.buckets (pairKey 0 src code) {}).judge t sev = jb
      intro hr
      split
      · exact way _ _ rfl
      · next hj =>
        refine .inr ⟨(pairKey 0 src code, jb.2), List.mem_append_left _ ?_, ?_, hr (by simpa using hj)⟩
        · simpa [bump, bumpx, svx, E.recSuppressed] using mem_nset _ _ _
        · simp [pairKey, Nat.mod_eq_of_lt hc]
    · simp only [h0, if_false]
      have hr := judge_refused t sev (nget s.recd.buckets (pairKey origin src code) {})
      revert hr
      generalize (nget s.recd.buckets (pairKey origin src code) {}).judge t sev = jb
      intro hr
      split
      · exact way _ _ rfl
      · next hj =>
        refine .inr ⟨(pairKey origin src code, jb.2), List.mem_append_right _ ?_, ?_, hr (by simpa using hj)⟩
        · simpa [bump, bumpx, svx, E.recSuppressed] using mem_nset _ _ _
        · simp [pairKey, Nat.mod_eq_of_lt hc]

theorem recorded_emitL (hc : code < 65536) : recorded (emitL s src code sev data stall) code :=
  ⟨0, by decide, recordedFrom_emitJ _ _ _ _ _ _ _ _ hc⟩
theorem recorded_emitH (hh : h < 2) (hc : code < 65536) : recorded (emitH s h t src code sev data) code :=
  ⟨1 + h, by omega, recordedFrom_emitJ _ _ _ _ _ _ _ _ hc⟩

/-- An accepted write has its entry's effect, is logged where the entry is persistent, and is carried to a paired module where the
entry is of pair scope. -/
theorem writeCmd_accepted (hd : Handler) (e : Entry) (v : Nat) (ho : nhas s.sup.ctxs ctx = true)
    (hg : genericConds s (mkW s ctx idx sub e.len v e) e = [])
    (hb : ∀ a k c, hd.act (mkW s ctx idx sub e.len v e) = some (a, k, c) → arbBlock s a k c = none)
    (hc : hd.conds s (mkW s ctx idx sub e.len v e) = []) :
    writeCmd hd e ctx idx sub v s =
      (let w := mkW s ctx idx sub e.len v e
       let s1 := hd.eff s w
       let s2 := if e.persist && hd.log then logWrite s1 w e else s1
       if e.pair then
         { s2 with twin.pairWrites := s2.twin.pairWrites ++ [{ index := idx, sub := sub, inst := w.inst, value := v }] }
       else s2) := by
  have hw : (writeBlock hd s (mkW s ctx idx sub e.len v e)).isSome = false := by
    unfold writeBlock
    rcases hact : hd.act (mkW s ctx idx sub e.len v e) with _ | ⟨a, k, c⟩
    · rfl
    · simp [hb a k c hact]
  have ha : ∀ u, answerW u (mkW s ctx idx sub e.len v e) 0 = u := by
    intro u
    simp [answerW, mkW]
  have hj : judgeW hd e s (mkW s ctx idx sub e.len v e) = 0 := by
    simp only [judgeW, hg, hc, hw, refuseIf, Bool.false_eq_true, if_false, List.append_nil, chooseAbort]
  unfold writeCmd applyW
  simp only [ho, if_true, hj, ha, ite_self]
  rfl

end Sys2Proof.Machine
end

