-- ==== Sys2Proof/Laws/Insn.lean ====
section
/-!
SUPPORT. What one Stallcode instruction can do: the performance counters, the retirement, the exception entry, the fetch and the
charge point, each said once.
-/

namespace Sys2Proof.Machine

/-- The state with other performance counters and another count of free values. -/
def withPerf (s : State) (p : Perf) (n : Nat) : State := { s with perf := p, st.freeCount := n }

theorem perfCount_only (s : State) (core : Nat) (ctx : Option Nat) (evs : List (Nat × Nat)) :
    ∃ p, perfCount s core ctx evs = { s with perf := p } := by
  unfold perfCount
  generalize List.range 3 = l
  have h : ∀ (l : List Nat) (s0 : State), (∃ p, s0 = { s with perf := p }) → ∀ f : State → Nat → State,
      (∀ s1 x, ∃ p, f s1 x = { s1 with perf := p }) → ∃ p, l.foldl f s0 = { s with perf := p } := by
    intro l
    induction l with
    | nil => intro s0 h0 f _; exact h0
    | cons a l ih =>
      intro s0 h0 f hf
      obtain ⟨p, rfl⟩ := h0
      obtain ⟨q, hq⟩ := hf { s with perf := p } a
      exact ih _ ⟨q, by simp [hq]⟩ f hf
  refine h l s ⟨s.perf, rfl⟩ _ ?_
  intro s1 x
  dsimp only
  split
  · exact ⟨_, rfl⟩
  · exact ⟨s1.perf, rfl⟩

theorem perfTag_only (s : State) (l core i off : Nat) (lat : Nat × Nat) (ev : Nat) :
    ∃ p n, perfTag s l core i off lat ev = withPerf s p n := by
  unfold perfTag
  split
  · exact ⟨s.perf, s.st.freeCount, rfl⟩
  · dsimp only
    split
    · exact ⟨_, _, rfl⟩
    · exact ⟨_, _, rfl⟩

/-- An instruction's events touch the performance counters and the count of free values, and nothing else. -/
theorem perfInsn_only (s : State) (core i : Nat) (evs : List (Nat × Nat)) (pc : Word) (lat : Nat × Nat) (ev : Nat) :
    ∃ p n, perfInsn s core i evs pc lat ev = withPerf s p n := by
  unfold perfInsn
  dsimp only
  obtain ⟨p, hp⟩ := perfCount_only s core (some i) evs
  rw [hp]
  obtain ⟨p1, n1, h1⟩ := perfTag_only { s with perf := p } 0 core i ((pc.toNat + 2 ^ 64 - baseCode) % 2 ^ 32) lat ev
  rw [h1]
  obtain ⟨p2, n2, h2⟩ := perfTag_only (withPerf { s with perf := p } p1 n1) 1 core i ((pc.toNat + 2 ^ 64 - baseCode) % 2 ^ 32) lat ev
  rw [h2]
  obtain ⟨p3, n3, h3⟩ := perfTag_only (withPerf (withPerf { s with perf := p } p1 n1) p2 n2) 2 core i
    ((pc.toNat + 2 ^ 64 - baseCode) % 2 ^ 32) lat ev
  rw [h3]
  exact ⟨p3, n3, rfl⟩

@[simp] theorem rset_pc (x : Exec) (r : Reg) (v : Word) : (rset x r v).pc = x.pc := by unfold rset; split <;> rfl
@[simp] theorem rset_sw (x : Exec) (r : Reg) (v : Word) : (rset x r v).sw = x.sw := by unfold rset; split <;> rfl
@[simp] theorem rset_fuel (x : Exec) (r : Reg) (v : Word) : (rset x r v).fuel = x.fuel := by unfold rset; split <;> rfl
@[simp] theorem rset_mem (x : Exec) (r : Reg) (v : Word) : (rset x r v).mem = x.mem := by unfold rset; split <;> rfl
@[simp] theorem rset_stopReason (x : Exec) (r : Reg) (v : Word) : (rset x r v).stopReason = x.stopReason := by unfold rset; split <;> rfl
@[simp] theorem rset_restarts (x : Exec) (r : Reg) (v : Word) : (rset x r v).restarts = x.restarts := by unfold rset; split <;> rfl
@[simp] theorem rset_nextTag (x : Exec) (r : Reg) (v : Word) : (rset x r v).nextTag = x.nextTag := by unfold rset; split <;> rfl
@[simp] theorem rset_posted (x : Exec) (r : Reg) (v : Word) : (rset x r v).posted = x.posted := by unfold rset; split <;> rfl
@[simp] theorem rset_activations (x : Exec) (r : Reg) (v : Word) : (rset x r v).activations = x.activations := by unfold rset; split <;> rfl
@[simp] theorem rset_exceptions (x : Exec) (r : Reg) (v : Word) : (rset x r v).exceptions = x.exceptions := by unfold rset; split <;> rfl
@[simp] theorem rset_autoTimes (x : Exec) (r : Reg) (v : Word) : (rset x r v).autoTimes = x.autoTimes := by unfold rset; split <;> rfl
@[simp] theorem rset_faultTime (x : Exec) (r : Reg) (v : Word) : (rset x r v).faultTime = x.faultTime := by unfold rset; split <;> rfl
@[simp] theorem rset_faultCause (x : Exec) (r : Reg) (v : Word) : (rset x r v).faultCause = x.faultCause := by unfold rset; split <;> rfl
@[simp] theorem rset_rescue (x : Exec) (r : Reg) (v : Word) : (rset x r v).rescue = x.rescue := by unfold rset; split <;> rfl

/-- A register reads the value written to it, g0 aside (R52, R53). -/
theorem rget_rset (x : Exec) (r q : Reg) (v : Word) :
    rget (rset x r v) q = if q = r ∧ r.val ≠ 0 then v else rget x q := by
  unfold rget rset
  by_cases hr : r.val = 0
  · simp [hr]
  · by_cases hq : q = r
    · subst hq
      simp [hr]
    · have : r.val ≠ q.val := fun h => hq (Fin.ext h.symm)
      simp [hr, hq, this]

/-- With its pc in CODE and fuel for its charge, an instruction comes to what its body says. -/
theorem runInsn_body {s : State} {core : CoreIx} {i charge : Nat} {st : Stall} (body : State → Stall → Exec → IRes)
    (hr : running? s core = some (i, st)) (hf : canFetch st.desc st.exec.pc = true) (hc : charge ≤ st.exec.fuel) :
    runInsn core charge body s = applyIRes s core i st charge (body s st st.exec) := by
  have h : ¬ st.exec.fuel < charge := by omega
  simp [runInsn, hr, hf, h]

/-- With its pc outside CODE, an instruction raises ACC at the fetch. -/
theorem runInsn_fetch {s : State} {core : CoreIx} {i charge : Nat} {st : Stall} (body : State → Stall → Exec → IRes)
    (hr : running? s core = some (i, st)) (hf : canFetch st.desc st.exec.pc = false) :
    runInsn core charge body s =
      applyIRes s core i st 0 (.trap st.exec st.exec st.exec.pc 3 3 st.exec.pc []) := by
  simp [runInsn, hr, hf]

/-- A retirement without a posted request sets the stall and touches performance counters only. -/
theorem applyIRes_retire (s : State) (core i : Nat) (st st' : Stall) (charge : Nat) (evs : List (Nat × Nat))
    (lat : Nat × Nat) (ev : Nat) :
    ∃ p n, applyIRes s core i st charge (.retire st' evs lat ev none) =
      withPerf (setStall s i { st' with exec := retireSw { st'.exec with fuel := st'.exec.fuel - charge } }) p n := by
  simp only [applyIRes]
  exact perfInsn_only _ _ _ _ _ _ _

/-- A retirement with a posted request takes the next tag and queues the request. -/
theorem applyIRes_post (s : State) (core i : Nat) (st st' : Stall) (charge : Nat) (evs : List (Nat × Nat))
    (lat : Nat × Nat) (ev : Nat) (q : PostedReq) :
    ∃ p n, applyIRes s core i st charge (.retire st' evs lat ev (some q)) =
      withPerf (postRequest (setStall s i
        { st' with exec := takeTag (retireSw { st'.exec with fuel := st'.exec.fuel - charge }) }) i st.exec.nextTag q) p n := by
  simp only [applyIRes]
  exact perfInsn_only _ _ _ _ _ _ _

/-- The return from a handler sets the stall and touches performance counters only. -/
theorem applyIRes_returned (s : State) (core i : Nat) (st : Stall) (charge : Nat) (x : Exec) :
    ∃ p n, applyIRes s core i st charge (.returned x) =
      withPerf (setStall s i { st with exec := { x with fuel := x.fuel - charge } }) p n := by
  simp only [applyIRes]
  exact perfInsn_only _ _ _ _ _ _ _

/-- An exception whose entry succeeds leaves the stall in its handler. -/
theorem applyIRes_trap {s : State} {core i : Nat} {st : Stall} {charge : Nat} {x x0 y : Exec} {p fa : Word}
    {cause detail : Nat} {evs : List (Nat × Nat)} (h : takeException st.desc x p fa cause detail = .entered y) :
    ∃ q n, applyIRes s core i st charge (.trap x x0 p cause detail fa evs) =
      withPerf (updStall s i (fun st => { st with exec := y })) q n := by
  simp only [applyIRes, h]
  exact perfInsn_only _ _ _ _ _ _ _

/-- Exception entry succeeds with 4 units of fuel, EXL clear, a handler, and a frame's room in STACK (R113). -/
theorem takeException_entered {d : Descriptor} {x : Exec} (p fa : Word) (cause detail : Nat) (h4 : 4 ≤ x.fuel)
    (he : x.sw.getLsbD swExl = false) (hh : d.handlerPc ≠ 0) (hs : 64 ≤ (rget x 31).toNat)
    (ho : frameOk d ((rget x 31).toNat - 64) = true) :
    takeException d x p fa cause detail = .entered
      { rset { x with mem := mputs x.mem ((rget x 31).toNat - 64) (frameBytes (mkFrame x p (causeField cause detail 0 0) fa)) }
          31 (BitVec.ofNat 64 ((rget x 31).toNat - 64)) with
        sw := swSet (swSet x.sw swExl true) swBip false
        pc := d.handlerPc
        fuel := x.fuel - 4
        exceptions := x.exceptions + 1 } := by
  have h1 : ¬ x.fuel < 4 := by omega
  have h2 : ¬ (rget x 31).toNat < 64 := by omega
  simpa [takeException, h1, he, h2, ho] using hh

/-- A return with EXL set and a frame in STACK takes pc, status word, g1 to g3 from the frame and frees it (R87); memory and
fuel stay, and so does every other register. -/
theorem exceptionReturn_returned {d : Descriptor} {x : Exec} (he : x.sw.getLsbD swExl = true)
    (ho : frameOk d (rget x 31).toNat = true) :
    ∃ y, exceptionReturn d x = .returned y ∧ y.pc = BitVec.ofNat 64 (mread x.mem ((rget x 31).toNat + 0) 8) ∧
      y.sw = BitVec.ofNat 64 (mread x.mem ((rget x 31).toNat + 8) 8) &&& BitVec.ofNat 64 (2 ^ 22 + 0x1F00 + 0x1F) ∧
      y.fuel = x.fuel ∧ y.mem = x.mem ∧
      ∀ r, rget y r =
        if r = 31 then BitVec.ofNat 64 ((rget x 31).toNat + 64)
        else if r = 3 then BitVec.ofNat 64 (mread x.mem ((rget x 31).toNat + 56) 8)
        else if r = 2 then BitVec.ofNat 64 (mread x.mem ((rget x 31).toNat + 48) 8)
        else if r = 1 then BitVec.ofNat 64 (mread x.mem ((rget x 31).toNat + 40) 8)
        else rget x r := by
  generalize hz : rset (rset (rset (rset x 1 (BitVec.ofNat 64 (mread x.mem ((rget x 31).toNat + 40) 8))) 2
    (BitVec.ofNat 64 (mread x.mem ((rget x 31).toNat + 48) 8))) 3
    (BitVec.ofNat 64 (mread x.mem ((rget x 31).toNat + 56) 8))) 31 (BitVec.ofNat 64 ((rget x 31).toNat + 64)) = z
  have hf : z.fuel = x.fuel := by rw [← hz]; simp
  have hm : z.mem = x.mem := by rw [← hz]; simp
  have hr : ∀ r, rget z r =
        if r = 31 then BitVec.ofNat 64 ((rget x 31).toNat + 64)
        else if r = 3 then BitVec.ofNat 64 (mread x.mem ((rget x 31).toNat + 56) 8)
        else if r = 2 then BitVec.ofNat 64 (mread x.mem ((rget x 31).toNat + 48) 8)
        else if r = 1 then BitVec.ofNat 64 (mread x.mem ((rget x 31).toNat + 40) 8)
        else rget x r := by
    intro r
    rw [← hz]
    simp only [rget_rset]
    simp
  refine ⟨{ z with
    pc := BitVec.ofNat 64 (mread x.mem ((rget x 31).toNat + 0) 8)
    sw := BitVec.ofNat 64 (mread x.mem ((rget x 31).toNat + 8) 8) &&& BitVec.ofNat 64 (2 ^ 22 + 0x1F00 + 0x1F) },
    ?_, rfl, rfl, hf, hm, fun r => ?_⟩
  · simp only [exceptionReturn, he, ho, Bool.not_true, Bool.false_eq_true, if_false]
    rw [hz]
  · rw [← hr r]
    rfl

@[simp] theorem getStall?_setStall (s : State) (i : Nat) (st : Stall) : getStall? (setStall s i st) i = some st := by
  simp [getStall?, setStall]

theorem getStall?_setStall_ne (s : State) {i j : Nat} (st : Stall) (h : j ≠ i) :
    getStall? (setStall s i st) j = getStall? s j := by
  simp [getStall?, setStall, nget?_nset_of_ne _ _ h]

@[simp] theorem getStall?_updStall (s : State) (i : Nat) (f : Stall → Stall) :
    getStall? (updStall s i f) i = (getStall? s i).map f := by
  simp [getStall?, updStall]

theorem getStall?_updStall_ne (s : State) {i j : Nat} (f : Stall → Stall) (h : j ≠ i) :
    getStall? (updStall s i f) j = getStall? s j := by
  simp [getStall?, updStall, nget?_nupd_of_ne _ _ h]

@[simp] theorem getStall?_withPerf (s : State) (p : Perf) (n i : Nat) : getStall? (withPerf s p n) i = getStall? s i := rfl

/-- A running stall is the one that its id names. -/
theorem getStall?_of_running {s : State} {core i : Nat} {st : Stall} (h : running? s core = some (i, st)) :
    getStall? s i = some st := by
  unfold running? at h
  split at h
  · cases h
  · rename_i j hj
    split at h
    · cases h
    · rename_i st' hst
      split at h
      · cases h
        exact hst
      · cases h

end Sys2Proof.Machine
end

