-- ==== Sys2Proof/WellFormed.lean ====
section
/-!
DEFINITION. Which commands are well formed: the ranges of operands that their types leave wider than the spec does. The meanings
are total and do not rest on it.
-/

namespace Sys2Proof

/-- A context key: 0 the service port, 1 to 4096 a session, 5000 to 5511 a stall (02 R31, R35). -/
def ctxOk (ctx : Nat) : Bool := ctx ≤ 4096 || (5000 ≤ ctx && ctx ≤ 5511)

/-- A start report: dies 0 to 4, tests 1 to 9 (06 Table 06-9), masks of 4 root and 8 CA slots (18 R463). -/
def startOk (r : StartReport) : Bool :=
  r.tests.all (fun p => 1 ≤ p.1 && p.1 ≤ 9 && p.2 ≤ 4) && r.roots < 16 && r.cas < 256

/-- Is a command well formed? -/
def wellFormed : Instr → Bool
  | .add _ _ _ _ => true
  | .sub _ _ _ _ => true
  | .and _ _ _ _ => true
  | .or _ _ _ _ => true
  | .xor _ _ _ _ => true
  | .sll _ _ _ _ => true
  | .srl _ _ _ _ => true
  | .sra _ _ _ _ => true
  | .slt _ _ _ _ => true
  | .sltu _ _ _ _ => true
  | .mul _ _ _ _ => true
  | .mulh _ _ _ _ => true
  | .mulhu _ _ _ _ => true
  | .div _ _ _ _ => true
  | .divu _ _ _ _ => true
  | .rem _ _ _ _ => true
  | .remu _ _ _ _ => true
  | .min _ _ _ _ => true
  | .max _ _ _ _ => true
  | .minu _ _ _ _ => true
  | .maxu _ _ _ _ => true
  | .clz _ _ _ => true
  | .ctz _ _ _ => true
  | .popc _ _ _ => true
  | .bswap _ _ _ => true
  | .movnz _ _ _ _ => true
  | .movz _ _ _ _ => true
  | .addi _ _ _ _ => true
  | .andi _ _ _ _ => true
  | .ori _ _ _ _ => true
  | .xori _ _ _ _ => true
  | .slti _ _ _ _ => true
  | .sltiu _ _ _ _ => true
  | .slli _ _ _ _ => true
  | .srli _ _ _ _ => true
  | .srai _ _ _ _ => true
  | .lui _ _ _ => true
  | .shori _ _ _ _ => true
  | .beq _ _ _ _ => true
  | .bne _ _ _ _ => true
  | .blt _ _ _ _ => true
  | .bge _ _ _ _ => true
  | .bltu _ _ _ _ => true
  | .bgeu _ _ _ _ => true
  | .jmp _ _ => true
  | .call _ _ => true
  | .jalr _ _ _ _ => true
  | .ldB _ _ _ _ => true
  | .ldBu _ _ _ _ => true
  | .ldH _ _ _ _ => true
  | .ldHu _ _ _ _ => true
  | .ldW _ _ _ _ => true
  | .ldWu _ _ _ _ => true
  | .ldD _ _ _ _ => true
  | .stB _ _ _ _ => true
  | .stH _ _ _ _ => true
  | .stW _ _ _ _ => true
  | .stD _ _ _ _ => true
  | .fadd _ _ _ _ => true
  | .fsub _ _ _ _ => true
  | .fmul _ _ _ _ => true
  | .fdiv _ _ _ _ => true
  | .fsqrt _ _ _ => true
  | .fmadd _ _ _ _ => true
  | .fmsub _ _ _ _ => true
  | .fmin _ _ _ _ => true
  | .fmax _ _ _ _ => true
  | .feq _ _ _ _ => true
  | .flt _ _ _ _ => true
  | .fle _ _ _ _ => true
  | .fneg _ _ _ => true
  | .fabs _ _ _ => true
  | .fcpys _ _ _ _ => true
  | .itof _ _ _ => true
  | .utof _ _ _ => true
  | .ftoi _ _ _ => true
  | .ftou _ _ _ => true
  | .fint _ _ _ => true
  | .ftrunc _ _ _ => true
  | .brk _ => true
  | .eret _ => true
  | .rdsw _ _ => true
  | .wrsw _ _ => true
  | .rdfuel _ _ => true
  | .bcopy _ => true
  | .bfill _ => true
  | .bcrc _ => true
  | .bcmp _ _ => true
  | .illegalInstruction _ _ => true
  | .svcYield _ => true
  | .sendBackboneTelegram _ => true
  | .sendStallDataTelegram _ => true
  | .bridgeWrite _ => true
  | .bridgeRead _ => true
  | .bridgeLock _ => true
  | .bridgeUnlock _ => true
  | .sendFieldOutputCommand _ => true
  | .svcTrigArm _ => true
  | .svcTrigCancel _ => true
  | .svcEvent _ => true
  | .svcSafetyReqStart _ => true
  | .svcSafetyReqReset _ => true
  | .svcFault _ => true
  | .svcUnassigned _ _ => true
  | .supervisorPause _ _ _ => true
  | .activationStart _ => true
  | .fieldSample _ _ _ _ => true
  | .imageClose _ _ => true
  | .crossingBoundary => true
  | .inputAgreement _ => true
  | .checkpointAgreement _ _ => true
  | .rollbackComplete _ => true
  | .timingLag _ _ => true
  | .voterCopyArrival _ _ _ _ _ _ => true
  | .skewWindowClose _ index _ => index < 65536
  | .releaseDeadline _ _ _ => true
  | .voteHoldLimitExpiry _ _ _ => true
  | .internalLinkTransfer _ _ _ _ => true
  | .internalLinkDiscardLimit _ _ => true
  | .internalLinkSilence _ _ => true
  | .internalLinkRestored _ _ => true
  | .dieResetCommand _ _ _ _ => true
  | .dapRead ctx _ => ctxOk ctx
  | .dapWrite ctx _ => ctxOk ctx
  | .dapLogin ctx _ => ctxOk ctx
  | .dapLogout ctx _ => ctxOk ctx
  | .dapDescribe ctx _ => ctxOk ctx
  | .dictWrite ctx index sub _ => ctxOk ctx && index < 65536 && sub < 256
  | .selectWrite ctx index _ => ctxOk ctx && index < 65536
  | .lockBitsWrite ctx sub _ => ctxOk ctx && sub < 256
  | .lockAtStartWrite ctx sub _ => ctxOk ctx && sub < 256
  | .stallLoad ctx pkg _ => ctxOk ctx && pkg < 4294967296
  | .loadCopyComplete _ stall _ => stall < 512
  | .stallCmdStart ctx => ctxOk ctx
  | .stallCmdStop ctx => ctxOk ctx
  | .stallCmdRestart ctx => ctxOk ctx
  | .stallCmdUnload ctx => ctxOk ctx
  | .stallReplace ctx pkg => ctxOk ctx && pkg < 4294967296
  | .stallHold ctx => ctxOk ctx
  | .stallRelease ctx => ctxOk ctx
  | .stallImapWrite ctx sub _ => ctxOk ctx && sub < 256
  | .cycleModeCmdRun ctx => ctxOk ctx
  | .cycleModeCmdStop ctx => ctxOk ctx
  | .cycleCpfWrite ctx _ => ctxOk ctx
  | .diForce ctx _ => ctxOk ctx
  | .doForce ctx _ => ctxOk ctx
  | .aiForce ctx _ => ctxOk ctx
  | .forceClearAll ctx => ctxOk ctx
  | .forceExpiry _ channel => channel < 64
  | .retainCommitPass _ => true
  | .restableCmd ctx _ => ctxOk ctx
  | .laneResetComplete _ _ => true
  | .restableBulkComplete _ => true
  | .restableLimitExpiry _ => true
  | .restableRetry _ => true
  | .laneReset ctx => ctxOk ctx
  | .bellReceived _ _ => true
  | .bellLoss _ => true
  | .oscCorrectionOutOfRange _ _ _ => true
  | .timeHubDiffAlert => true
  | .tachoTransition _ _ _ _ => true
  | .tachoFaultClear _ _ => true
  | .posDatumSet ctx _ => ctxOk ctx
  | .trigCancel ctx => ctxOk ctx
  | .timedDoInstant _ channel _ => channel < 64
  | .supplyModeCmd ctx _ => ctxOk ctx
  | .shedReceiverStop _ _ _ => true
  | .budgetOverrunAlert => true
  | .thermalTrip _ _ => true
  | .alignmentMarker _ _ _ _ => true
  | .linkPeerSilence _ => true
  | .linkDown _ => true
  | .relayStartBlock _ _ _ _ _ => true
  | .bellSend _ => true
  | .slotTransmit _ _ _ => true
  | .backboneFrameReceived _ _ => true
  | .speedRefTelegram _ _ => true
  | .datumTelegram _ => true
  | .utcTelegram _ _ => true
  | .bbPlanLoad ctx _ => ctxOk ctx
  | .bbKeyActive ctx _ => ctxOk ctx
  | .bbDatumAnnounce ctx _ => ctxOk ctx
  | .bbCompanionLoad ctx _ => ctxOk ctx
  | .bbCompanionRemove ctx _ => ctxOk ctx
  | .probeSend _ _ => true
  | .probeReceived _ _ _ _ => true
  | .echoReceived _ _ _ => true
  | .linkDelayLoss _ => true
  | .chainOriginate _ => true
  | .outwardChain _ _ => true
  | .inwardChain _ _ => true
  | .rosterSend _ => true
  | .rosterReceived _ _ => true
  | .listenTimeout _ => true
  | .coldBellReceived _ _ => true
  | .claimConfirmed => true
  | .edgeDetected _ _ => true
  | .mergeYield => true
  | .contentionTimeout => true
  | .unitAbsenceRemoval _ => true
  | .portFrameReceived _ _ => true
  | .macAgeing _ _ _ => true
  | .arpRequest _ _ _ _ => true
  | .icmpEchoRequest _ _ _ _ _ => true
  | .hello _ _ _ _ _ => true
  | .finish _ _ _ _ _ => true
  | .fragmentTimeout _ _ => true
  | .handshakeTimeout _ _ => true
  | .sessionDapRecord _ _ _ _ => true
  | .sessionTelegramRecord _ _ _ _ => true
  | .sessionPing _ _ => true
  | .sessionCloseRecord _ _ => true
  | .rekey _ _ _ => true
  | .rekeyAnswer _ _ _ => true
  | .moduleRekeyStart _ _ => true
  | .phaseKeyErase _ _ => true
  | .rekeyRetry _ _ => true
  | .idlePing _ _ => true
  | .sessionIdleTimeout _ _ => true
  | .pathForget _ _ _ => true
  | .certExpiry _ => true
  | .sessClose ctx => ctxOk ctx
  | .sessReserve ctx sub _ => ctxOk ctx && sub < 256
  | .sessDeny ctx sub _ => ctxOk ctx && sub < 256
  | .trdpProcessData _ _ _ _ _ _ _ _ => true
  | .twinHello _ _ _ _ => true
  | .twinKeepaliveSend _ _ => true
  | .leaseRenewSend _ => true
  | .twinRenew _ _ _ _ _ _ _ _ _ => true
  | .twinAck _ _ _ _ _ => true
  | .twinClaim _ _ _ _ _ _ => true
  | .twinRelease _ _ _ _ _ => true
  | .leaseCease _ => true
  | .leaseTake _ => true
  | .listenClaimTimeout _ => true
  | .aloneWaitExpiry _ => true
  | .revertClaim _ => true
  | .backboneClaimCompare _ => true
  | .mirrorRecord _ _ _ _ _ => true
  | .catchup _ _ _ stall _ _ => stall < 512
  | .catchupTimeout stall => stall < 512
  | .shadowItemExpiry => true
  | .twinEnableWrite ctx _ => ctxOk ctx
  | .twinDoParallelWrite ctx _ => ctxOk ctx
  | .mvbPortReceived _ _ _ _ _ _ => true
  | .mvbMessageReceived _ _ _ _ _ => true
  | .canFrameReceived _ _ _ => true
  | .serByteReceived _ _ _ _ => true
  | .serPackTimeout window => window < 128
  | .serFrameEnd _ _ => true
  | .canBusOff _ _ => true
  | .canRestartHoldExpiry _ _ => true
  | .bridgeReadTimeout window _ => window < 128
  | .lockLimitExpiry group => group < 16
  | .brWindowWrite ctx sub _ => ctxOk ctx && sub < 256
  | .diRawChange _ _ _ => true
  | .diEdgeConfirmed _ _ => true
  | .wireBreakTimer _ _ _ => true
  | .comparatorTest _ _ _ => true
  | .fieldConfigReceived _ _ _ _ => true
  | .outputCommandReceived _ _ _ _ => true
  | .holdCommandReceived _ _ _ _ => true
  | .safeStateCommandReceived _ _ _ _ => true
  | .logicSilentTimeout _ _ => true
  | .doOverloadTrip _ _ _ _ => true
  | .doReset ctx => ctxOk ctx
  | .readbackMismatch _ _ _ => true
  | .openLoadDetect _ _ _ => true
  | .doSafeStateWrite ctx _ => ctxOk ctx
  | .evaluatorCycle _ => true
  | .discrepancyTimeout _ _ => true
  | .crossDisagreementTimeout _ _ => true
  | .syncTimeout _ _ => true
  | .heldLimitExpiry _ _ => true
  | .commandInactiveTimer _ _ => true
  | .outputTest _ _ _ => true
  | .cutoffTest _ _ _ => true
  | .safEditOpen ctx => ctxOk ctx
  | .safEditDiscard ctx => ctxOk ctx
  | .safParamWrite ctx index sub _ => ctxOk ctx && index < 65536 && sub < 256
  | .safTypeWrite ctx _ => ctxOk ctx
  | .safCommit ctx _ => ctxOk ctx
  | .aiOutput _ _ _ => true
  | .modulatorLossStart _ _ => true
  | .modulatorLossEnd _ _ => true
  | .modulatorFault _ _ => true
  | .burdenOpen _ _ => true
  | .burdenClose _ _ => true
  | .recordReceived _ => true
  | .suppressionRunEnd _ _ _ _ => true
  | .bufferAgeFlush _ _ => true
  | .operatingSecondTick => true
  | .mramWriteError _ _ _ => true
  | .recFreezeOn ctx => ctxOk ctx
  | .recFreezeOff ctx => ctxOk ctx
  | .freezeExpiry _ => true
  | .recClear ctx password => ctxOk ctx && password.length ≤ 64
  | .recWindowRead ctx reqId => ctxOk ctx && reqId < 65536
  | .migrationPageWrite _ _ => true
  | .yardWriteComplete _ _ => true
  | .yardHeaderWrite _ _ => true
  | .yardCommandError _ _ _ _ => true
  | .yardHealthPoll _ _ _ => true
  | .yardFormat ctx _ => ctxOk ctx
  | .chunk pkg part _ chunk _ _ _ => pkg < 4294967296 && part < 4 && chunk < 64
  | .chunkStaleTimeout _ => true
  | .packageExpiry pkg => pkg < 4294967296
  | .updOpen ctx _ => ctxOk ctx
  | .updAbort ctx => ctxOk ctx
  | .updActivateArm ctx _ => ctxOk ctx
  | .updActivateDisarm ctx => ctxOk ctx
  | .updFallback ctx => ctxOk ctx
  | .loftDelete ctx _ => ctxOk ctx
  | .setReset ctx => ctxOk ctx
  | .settingsPartWrite _ _ => true
  | .trRootLoad ctx _ => ctxOk ctx
  | .trCaLoad ctx _ => ctxOk ctx
  | .trRootClear ctx _ => ctxOk ctx
  | .trCaClear ctx _ => ctxOk ctx
  | .trLockMaskWrite ctx _ => ctxOk ctx
  | .pwdSet ctx sub password => ctxOk ctx && sub < 256 && password.length ≤ 64
  | .passwordDerivationDone ctx _ => ctxOk ctx
  | .lockoutExpiry _ _ => true
  | .pcCtrlWrite ctx _ _ _ => ctxOk ctx
  | .pcClear ctx => ctxOk ctx
  | .pcSnapCmd ctx => ctxOk ctx
  | .pcSampleKWrite ctx _ _ => ctxOk ctx
  | .pcLatArm ctx => ctxOk ctx
  | .supplyGood _ => true
  | .moduleStart rep => startOk rep
  | .hubAloneTimeout _ _ => true
  | .closeMarkerSilence _ _ => true
  | .resetCmd ctx => ctxOk ctx
  | .hubWatchdog _ _ => true
  | .laneWatchdog _ _ => true
  | .fieldRestart _ _ _ => true
  | .hubRestart _ _ _ => true
  | .hubRejoin _ => true
  | .recoverPress _ => true
  | .recoverHold _ => true
  | .recoverStuck _ => true
  | .recoverRelease _ => true
  | .recoveryPwdReset ctx => ctxOk ctx
  | .powerFailWarning _ _ => true
  | .holdupReady _ => true
  | .holdupExhausted _ => true
  | .powerRestored _ => true
  | .holdupMeasure _ _ => true
  | .laneHardwareError _ _ _ => true
  | .consistPortLinkChange _ _ _ => true
  | .storageLinkChange _ _ _ _ => true
  | .mvbLineStateChange _ _ _ _ _ => true
  | .mvbMasterFrameReceived _ fcode _ _ => fcode < 16
  | .mvbMasterFrameSend _ => true
  | .bridgeBusTransmitDone window _ => window < 128
  | .clearSweepComplete _ => true

end Sys2Proof
end

