-- ==== Sys2Proof/Tests/Slice0.lean ====
section
/-!
SUPPORT. Tests: for the premises of each statement a state and operands that meet them (`wit_…`), ill-formed commands that the
checks refuse, and one small step of each family.
-/

set_option maxRecDepth 100000

namespace Sys2Proof.Tests

open Sys2Proof Sys2Proof.Machine Sys2Proof.Claims Sys2Proof.Safe

/-- A package that is complete and of the kind, under a root that allows it, passes the check where the signatures verify. -/
theorem useCheck_of (s : State) (n kind : Nat) (p : Package) (he : ∀ k d g, Config.ecdsaOk k d g = true)
    (hm : ∀ k d g, Config.mldsaOk k d g = true) (hp : nget? s.upd.loft n = some p) (h2 : ¬ (p.state < 2 ∨ p.kind ≠ kind))
    (hr : s.upd.roots.toList.any (fun r => r.kinds ≠ 0 && bit r.kinds (fieldAt p.header 6 1)) = true) : useCheck s n kind = 0 := by
  have hv : headerVerifies s p.header = true := by
    simp only [headerVerifies, rootVerifies, he, hm, Bool.and_true]
    exact hr
  unfold useCheck
  rw [hp]
  simp_all

/-! ## Stallcode -/


/-- A stall that may run: 4 KiB of CODE, DATA and STACK, an OUTBOX, a handler, every right. -/
def desc0 : Descriptor :=
  { handlerPc := 0x10000100, dataSize := 4096, outboxSize := 4096, rights := 0x1FF, initG31 := 0x30001000, fuel := 2000 }

/-- Its execution state: g1 and g2 in DATA, g3 10, g4 7, g5 2^63. -/
def exec0 : Exec :=
  { regs := Vector.ofFn (fun (i : Fin 32) => ([0, 0x20000000, 0x20000100, 10, 7, 0x8000000000000000] : List Word).getD i.val
      (if i.val = 31 then 0x30001000 else 0))
    pc := 0x10000010, fuel := 1000, mem := [(0x20000003, 0x5A), (0x20000007, 0x81), (0x20000103, 0x5B)] }

/-- Stall 3 runs on core 1, after `f`. -/
def running (f : Stall → Stall) : State :=
  { State.reset with
    sup.stalls := [(3, f { state := .running, desc := desc0, exec := exec0 })]
    cyc.runs := vupd State.reset.cyc.runs 1 (fun r => { r with run := some 3 })
    sup.ctxs := [(0, { role := 4 }), (1, { role := 3 })] }

/-- The running stall's data. -/
def ran (s : State) : Stall := ((running? s 1).getD (0, {})).2

def sRun : State := running id
/-- Its fuel is just one unit. -/
def sFuel1 : State := running (fun st => { st with exec := { st.exec with fuel := 1 } })
def sFuel0 : State := running (fun st => { st with exec := { st.exec with fuel := 0 } })
/-- The pc is past the end of CODE. -/
def sPcOut : State := running (fun st => { st with exec := { st.exec with pc := 0x10001000 } })
/-- In a handler, with a frame at g31. -/
def sInHandler : State := running (fun st => { st with
  exec := inHandler st st.exec 0x10000020 0 6 0 })
/-- Invalid-operation traps enabled. -/
def sTrap : State := running (fun st => { st with exec := { st.exec with sw := 0x1F00 } })
def item1 : MapItem := { slot := 1, index := 0x2400, sub := 3 }
def item2 : MapItem := { slot := 2, index := 0x2000, sub := 1, write := true }
/-- Slot 1 of DICTWIN reads CROSSING_NUMBER and slot 2 writes LANE_SEL. -/
def sDict : State := running (fun st => { st with
  map := [item1, item2]
  dwImage := [(1, 0x1122334455667788)]
  exec := { st.exec with regs := st.exec.regs.set 6 0x80000008 } })
/-- DATA is 8 bytes long. -/
def sShort : State := running (fun st => { st with desc := { st.desc with dataSize := 8 } })
/-- 64 requests are posted. -/
def sPosted : State := running (fun st => { st with exec := { st.exec with posted := 64 } })
def sNoRights : State := running (fun st => { st with desc := { st.desc with rights := 0 } })
/-- g2 equals g1. -/
def sSame : State := running (fun st => { st with exec := { st.exec with regs := st.exec.regs.set 2 0x20000000 } })
/-- A message of `kind` with one byte of data in OUTBOX, g1 and g2 naming it, with these rights. -/
def sSend (kind : Nat) (rights : BitVec 64) : State := running (fun st => { st with
  desc := { st.desc with rights := rights }
  exec := { st.exec with
    regs := (st.exec.regs.set 1 0).set 2 9
    mem := [(0x70000000, BitVec.ofNat 8 kind), (0x70000002, 1), (0x70000004, 5), (0x70000008, 1)] } })
/-- The message. -/
def message (s : State) : List Byte := mgets (ran s).exec.mem (0x70000000 + 0) 9

theorem wit_reg : ready sRun 1 3 (ran sRun) 1 := by unfold ready; decide

theorem wit_div : ready sRun 1 3 (ran sRun) 1 ∧ rget (ran sRun).exec 4 ≠ BitVec.ofNat 64 0 := by unfold ready; decide

theorem wit_div0 : ready sRun 1 3 (ran sRun) 1 ∧ rget (ran sRun).exec 0 = BitVec.ofNat 64 0 ∧ canEnter (ran sRun) (ran sRun).exec := by unfold ready canEnter; decide

theorem wit_jalr : ready sRun 1 3 (ran sRun) 1 ∧ BitVec.toNat (rget (ran sRun).exec 1 + BitVec.signExtend 64 (BitVec.ofNat 16 4)) % 4 = 0 := by unfold ready; decide

theorem wit_jalrMis : ready sRun 1 3 (ran sRun) 1 ∧ BitVec.toNat (rget (ran sRun).exec 1 + BitVec.signExtend 64 (BitVec.ofNat 16 1)) % 4 ≠ 0 ∧ canEnter (ran sRun) (ran sRun).exec := by unfold ready canEnter; decide

theorem wit_fetchOut : running? sPcOut 1 = some (3, ran sPcOut) ∧ canFetch (ran sPcOut).desc (ran sPcOut).exec.pc = false ∧ canEnter (ran sPcOut) (ran sPcOut).exec := by unfold canEnter; decide

theorem wit_load : ready sRun 1 3 (ran sRun) 1 ∧ loadable (ran sRun) (rget (ran sRun).exec 1 + BitVec.signExtend 64 (BitVec.ofNat 16 0)) 8 := by unfold ready loadable; decide

theorem wit_loadMis : ready sRun 1 3 (ran sRun) 1 ∧ BitVec.toNat (rget (ran sRun).exec 1 + BitVec.signExtend 64 (BitVec.ofNat 16 1)) % 8 ≠ 0 ∧ canEnter (ran sRun) (ran sRun).exec := by unfold ready canEnter; decide

theorem wit_dictLoad : ready sDict 1 3 (ran sDict) 1 ∧ BitVec.toNat (rget (ran sDict).exec 6 + BitVec.signExtend 64 (BitVec.ofNat 16 0)) = 2147483648 + 8 * 1 + 0 ∧ 0 < 8 ∧ 0 % 4 = 0 ∧ 1 ≤ 1 ∧ 1 < 8192 ∧ slotItem sDict (ran sDict) 1 = some (item1, E.crossingNumber) ∧ 0 + 4 ≤ natSize E.crossingNumber := by unfold ready; decide

theorem wit_dictLoadNone : ready sDict 1 3 (ran sDict) 1 ∧ BitVec.toNat (rget (ran sDict).exec 6 + BitVec.signExtend 64 (BitVec.ofNat 16 64)) = 2147483648 + 8 * 9 + 0 ∧ 0 < 8 ∧ 0 % 4 = 0 ∧ 1 ≤ 9 ∧ 9 < 8192 ∧ slotItem sDict (ran sDict) 9 = none ∧ canEnter (ran sDict) (ran sDict).exec := by unfold ready canEnter; decide

theorem wit_store : ready sRun 1 3 (ran sRun) 1 ∧ (ran sRun).exec.mem.wf = true ∧ storable (ran sRun) (rget (ran sRun).exec 1 + BitVec.signExtend 64 (BitVec.ofNat 16 8)) 8 := by unfold ready storable; decide

theorem wit_dictStore : ready sDict 1 3 (ran sDict) 1 ∧ BitVec.toNat (rget (ran sDict).exec 6 + BitVec.signExtend 64 (BitVec.ofNat 16 8)) = 2147483648 + 8 * 2 ∧ 1 ≤ 2 ∧ 2 < 8192 ∧ slotItem sDict (ran sDict) 2 = some (item2, E.laneSel) ∧ natSize E.laneSel = 2 ∧ item2.write = true := by unfold ready; decide

theorem wit_fp : ready sRun 1 3 (ran sRun) 1 ∧ trapsOf (ran sRun).exec.sw (fpAdd (rget (ran sRun).exec 5) (rget (ran sRun).exec 4)).2 = 0 := by unfold ready; decide

theorem wit_fpTrap : ready sTrap 1 3 (ran sTrap) 1 ∧ trapsOf (ran sTrap).exec.sw (fpDiv (rget (ran sTrap).exec 3) (rget (ran sTrap).exec 0)).2 ≠ 0 ∧ canEnter (ran sTrap) { (ran sTrap).exec with sw := (ran sTrap).exec.sw ||| BitVec.ofNat 64 (fpDiv (rget (ran sTrap).exec 3) (rget (ran sTrap).exec 0)).2 } := by unfold ready canEnter; decide

theorem wit_brk : ready sRun 1 3 (ran sRun) 0 ∧ canEnter (ran sRun) (ran sRun).exec := by unfold ready canEnter; decide

theorem wit_illegal : legalWord (BitVec.ofNat 32 4294967295) = false ∧ ready sRun 1 3 (ran sRun) 1 ∧ canEnter (ran sRun) (ran sRun).exec := by unfold ready canEnter; decide

theorem wit_eret : ready sInHandler 1 3 (ran sInHandler) 1 ∧ (ran sInHandler).exec.sw.getLsbD 23 = true ∧ frameOk (ran sInHandler).desc (BitVec.toNat (rget (ran sInHandler).exec 31)) = true := by unfold ready; decide

theorem wit_eretBare : ready sRun 1 3 (ran sRun) 1 ∧ (ran sRun).exec.sw.getLsbD 23 = false ∧ canEnter (ran sRun) (ran sRun).exec := by unfold ready canEnter; decide

theorem wit_bcopy : 10 = BitVec.toNat (rget (ran sRun).exec 3) ∧ ready sRun 1 3 (ran sRun) (granules 10 + 1) ∧ (∀ j < 10, canRead (ran sRun).desc (BitVec.toNat (rget (ran sRun).exec 2) + j) = true ∧ canWrite (ran sRun).desc (BitVec.toNat (rget (ran sRun).exec 1) + j) = true) ∧ BitVec.toNat (rget (ran sRun).exec 2) + 10 < 2 ^ 64 ∧ BitVec.toNat (rget (ran sRun).exec 1) + 10 < 2 ^ 64 := by unfold ready; decide

theorem wit_bfill : 10 = BitVec.toNat (rget (ran sRun).exec 3) ∧ ready sRun 1 3 (ran sRun) (granules 10 + 1) ∧ (ran sRun).exec.mem.wf = true ∧ (∀ j < 10, canWrite (ran sRun).desc (BitVec.toNat (rget (ran sRun).exec 1) + j) = true) ∧ BitVec.toNat (rget (ran sRun).exec 1) + 10 < 2 ^ 64 := by unfold ready; decide

theorem wit_bcrc : 10 = BitVec.toNat (rget (ran sRun).exec 3) ∧ ready sRun 1 3 (ran sRun) (granules 10 + 1) ∧ (∀ j < 10, canRead (ran sRun).desc (BitVec.toNat (rget (ran sRun).exec 1) + j) = true) ∧ BitVec.toNat (rget (ran sRun).exec 1) + 10 < 2 ^ 64 := by unfold ready; decide

theorem wit_bcmpIll : 10 = BitVec.toNat (rget (ran sRun).exec 3) ∧ 1 ≤ 2 ∧ 2 ≤ 3 ∧ ready sRun 1 3 (ran sRun) 0 ∧ canEnter (ran sRun) (ran sRun).exec := by unfold ready canEnter; decide

theorem wit_bcmp : 10 = BitVec.toNat (rget (ran sSame).exec 3) ∧ (4 = 0 ∨ 4 ≤ 4) ∧ ready sSame 1 3 (ran sSame) (granules 10 + 1) ∧ (∀ j < 10, canRead (ran sSame).desc (BitVec.toNat (rget (ran sSame).exec 1) + j) = true ∧ canRead (ran sSame).desc (BitVec.toNat (rget (ran sSame).exec 2) + j) = true) ∧ BitVec.toNat (rget (ran sSame).exec 1) + 10 < 2 ^ 64 ∧ BitVec.toNat (rget (ran sSame).exec 2) + 10 < 2 ^ 64 ∧ (∀ j < 10, mget (ran sSame).exec.mem (BitVec.toNat (rget (ran sSame).exec 1) + j) = mget (ran sSame).exec.mem (BitVec.toNat (rget (ran sSame).exec 2) + j)) := by unfold ready; decide

theorem wit_bcmpDiffers : 10 = BitVec.toNat (rget (ran sRun).exec 3) ∧ (4 = 0 ∨ 4 ≤ 4) ∧ ready sRun 1 3 (ran sRun) (granules 10 + 1) ∧ (∀ j < 10, canRead (ran sRun).desc (BitVec.toNat (rget (ran sRun).exec 1) + j) = true ∧ canRead (ran sRun).desc (BitVec.toNat (rget (ran sRun).exec 2) + j) = true) ∧ BitVec.toNat (rget (ran sRun).exec 1) + 10 < 2 ^ 64 ∧ BitVec.toNat (rget (ran sRun).exec 2) + 10 < 2 ^ 64 ∧ 3 < 10 ∧ (∀ j < 3, mget (ran sRun).exec.mem (BitVec.toNat (rget (ran sRun).exec 1) + j) = mget (ran sRun).exec.mem (BitVec.toNat (rget (ran sRun).exec 2) + j)) ∧ mget (ran sRun).exec.mem (BitVec.toNat (rget (ran sRun).exec 1) + 3) ≠ mget (ran sRun).exec.mem (BitVec.toNat (rget (ran sRun).exec 2) + 3) := by unfold ready; decide

theorem wit_bfillFault : ready sShort 1 3 (ran sShort) 1 ∧ canEnter (ran sShort) (ran sShort).exec ∧ 8 < min 64 (BitVec.toNat (rget (ran sShort).exec 3)) ∧ BitVec.toNat (rget (ran sShort).exec 1) + 8 < 2 ^ 64 ∧ (∀ j < 8, canWrite (ran sShort).desc (BitVec.toNat (rget (ran sShort).exec 1) + j) = true) ∧ canWrite (ran sShort).desc (BitVec.toNat (rget (ran sShort).exec 1) + 8) = false := by unfold ready canEnter; decide

theorem wit_fuelStop : running? sFuel0 1 = some (3, ran sFuel0) ∧ canFetch (ran sFuel0).desc (ran sFuel0).exec.pc = true ∧ (ran sFuel0).exec.fuel = 0 ∧ sFuel0.sup.posted = [] := by decide

theorem wit_posted : ready sRun 1 3 (ran sRun) 8 ∧
    ∀ a n : Nat, some ((rget (ran sRun).exec 1).toNat, 32) = some (a, n) → ∀ j < n, canRead (ran sRun).desc ((a + j) % 2 ^ 64) = true := by
  refine ⟨by unfold ready; decide, fun a n h => ?_⟩
  obtain ⟨rfl, rfl⟩ := Prod.mk.inj (Option.some.inj h)
  decide

theorem wit_postedFull : ready sPosted 1 3 (ran sPosted) 4 ∧
    ∀ a n : Nat, (none : Option (Nat × Nat)) = some (a, n) → ∀ j < n, canRead (ran sPosted).desc ((a + j) % 2 ^ 64) = true :=
  ⟨by unfold ready; decide, fun _ _ h => nomatch h⟩

theorem wit_postedNoRight : ready sNoRights 1 3 (ran sNoRights) 4 ∧
    ∀ a n : Nat, (none : Option (Nat × Nat)) = some (a, n) → ∀ j < n, canRead (ran sNoRights).desc ((a + j) % 2 ^ 64) = true :=
  ⟨by unfold ready; decide, fun _ _ h => nomatch h⟩

theorem wit_yield : ready sRun 1 3 (ran sRun) 1 ∧ sRun.sup.posted = [] := by unfold ready; decide

theorem wit_svcUnassigned : (BitVec.toNat (BitVec.ofNat 16 8) = 0 ∨ 8 ≤ BitVec.toNat (BitVec.ofNat 16 8)) ∧ ready sRun 1 3 (ran sRun) 1 := by unfold ready; decide

theorem wit_send : ready (sSend 1 (BitVec.ofNat 64 511)) 1 3 (ran (sSend 1 (BitVec.ofNat 64 511))) 8 ∧ 0 = BitVec.toNat (rget (ran (sSend 1 (BitVec.ofNat 64 511))).exec 1) ∧ 9 = BitVec.toNat (rget (ran (sSend 1 (BitVec.ofNat 64 511))).exec 2) ∧ 9 ≤ 9 ∧ 9 ≤ 4096 ∧ 0 + 9 ≤ (ran (sSend 1 (BitVec.ofNat 64 511))).desc.outboxSize ∧ message (sSend 1 (BitVec.ofNat 64 511)) = mgets (ran (sSend 1 (BitVec.ofNat 64 511))).exec.mem (1879048192 + 0) 9 ∧ fieldAt (message (sSend 1 (BitVec.ofNat 64 511))) 0 1 = 1 ∧ (ran (sSend 1 (BitVec.ofNat 64 511))).desc.rights.getLsbD 5 = true ∧ fieldAt (message (sSend 1 (BitVec.ofNat 64 511))) 2 2 = 9 - 8 ∧ fieldAt (message (sSend 1 (BitVec.ofNat 64 511))) 1 1 < 2 ∧ (1 = 2 → fieldAt (message (sSend 1 (BitVec.ofNat 64 511))) 4 4 < 2 ^ 20) ∧ (1 = 4 → 9 = 9 ∧ fieldAt (message (sSend 1 (BitVec.ofNat 64 511))) 8 1 < 2 ∧ fieldAt (message (sSend 1 (BitVec.ofNat 64 511))) 4 4 < 32) := by unfold ready; decide

theorem wit_sendStall : ready (sSend 2 (BitVec.ofNat 64 511)) 1 3 (ran (sSend 2 (BitVec.ofNat 64 511))) 8 ∧ 0 = BitVec.toNat (rget (ran (sSend 2 (BitVec.ofNat 64 511))).exec 1) ∧ 9 = BitVec.toNat (rget (ran (sSend 2 (BitVec.ofNat 64 511))).exec 2) ∧ 9 ≤ 9 ∧ 9 ≤ 4096 ∧ 0 + 9 ≤ (ran (sSend 2 (BitVec.ofNat 64 511))).desc.outboxSize ∧ message (sSend 2 (BitVec.ofNat 64 511)) = mgets (ran (sSend 2 (BitVec.ofNat 64 511))).exec.mem (1879048192 + 0) 9 ∧ fieldAt (message (sSend 2 (BitVec.ofNat 64 511))) 0 1 = 2 ∧ (ran (sSend 2 (BitVec.ofNat 64 511))).desc.rights.getLsbD 6 = true ∧ fieldAt (message (sSend 2 (BitVec.ofNat 64 511))) 2 2 = 9 - 8 ∧ fieldAt (message (sSend 2 (BitVec.ofNat 64 511))) 1 1 < 2 ∧ (2 = 2 → fieldAt (message (sSend 2 (BitVec.ofNat 64 511))) 4 4 < 2 ^ 20) ∧ (2 = 4 → 9 = 9 ∧ fieldAt (message (sSend 2 (BitVec.ofNat 64 511))) 8 1 < 2 ∧ fieldAt (message (sSend 2 (BitVec.ofNat 64 511))) 4 4 < 32) := by unfold ready; decide

theorem wit_sendBridge : ready (sSend 3 (BitVec.ofNat 64 511)) 1 3 (ran (sSend 3 (BitVec.ofNat 64 511))) 8 ∧ 0 = BitVec.toNat (rget (ran (sSend 3 (BitVec.ofNat 64 511))).exec 1) ∧ 9 = BitVec.toNat (rget (ran (sSend 3 (BitVec.ofNat 64 511))).exec 2) ∧ 9 ≤ 9 ∧ 9 ≤ 4096 ∧ 0 + 9 ≤ (ran (sSend 3 (BitVec.ofNat 64 511))).desc.outboxSize ∧ message (sSend 3 (BitVec.ofNat 64 511)) = mgets (ran (sSend 3 (BitVec.ofNat 64 511))).exec.mem (1879048192 + 0) 9 ∧ fieldAt (message (sSend 3 (BitVec.ofNat 64 511))) 0 1 = 3 ∧ (ran (sSend 3 (BitVec.ofNat 64 511))).desc.rights.getLsbD 7 = true ∧ fieldAt (message (sSend 3 (BitVec.ofNat 64 511))) 2 2 = 9 - 8 ∧ fieldAt (message (sSend 3 (BitVec.ofNat 64 511))) 1 1 < 2 ∧ (3 = 2 → fieldAt (message (sSend 3 (BitVec.ofNat 64 511))) 4 4 < 2 ^ 20) ∧ (3 = 4 → 9 = 9 ∧ fieldAt (message (sSend 3 (BitVec.ofNat 64 511))) 8 1 < 2 ∧ fieldAt (message (sSend 3 (BitVec.ofNat 64 511))) 4 4 < 32) := by unfold ready; decide

theorem wit_sendField : ready (sSend 4 (BitVec.ofNat 64 511)) 1 3 (ran (sSend 4 (BitVec.ofNat 64 511))) 8 ∧ 0 = BitVec.toNat (rget (ran (sSend 4 (BitVec.ofNat 64 511))).exec 1) ∧ 9 = BitVec.toNat (rget (ran (sSend 4 (BitVec.ofNat 64 511))).exec 2) ∧ 9 ≤ 9 ∧ 9 ≤ 4096 ∧ 0 + 9 ≤ (ran (sSend 4 (BitVec.ofNat 64 511))).desc.outboxSize ∧ message (sSend 4 (BitVec.ofNat 64 511)) = mgets (ran (sSend 4 (BitVec.ofNat 64 511))).exec.mem (1879048192 + 0) 9 ∧ fieldAt (message (sSend 4 (BitVec.ofNat 64 511))) 0 1 = 4 ∧ (ran (sSend 4 (BitVec.ofNat 64 511))).desc.rights.getLsbD 8 = true ∧ fieldAt (message (sSend 4 (BitVec.ofNat 64 511))) 2 2 = 9 - 8 ∧ fieldAt (message (sSend 4 (BitVec.ofNat 64 511))) 1 1 < 2 ∧ (4 = 2 → fieldAt (message (sSend 4 (BitVec.ofNat 64 511))) 4 4 < 2 ^ 20) ∧ (4 = 4 → 9 = 9 ∧ fieldAt (message (sSend 4 (BitVec.ofNat 64 511))) 8 1 < 2 ∧ fieldAt (message (sSend 4 (BitVec.ofNat 64 511))) 4 4 < 32) := by unfold ready; decide

theorem wit_sendRight : ready (sSend 1 (BitVec.ofNat 64 0)) 1 3 (ran (sSend 1 (BitVec.ofNat 64 0))) 8 ∧ 0 = BitVec.toNat (rget (ran (sSend 1 (BitVec.ofNat 64 0))).exec 1) ∧ 9 = BitVec.toNat (rget (ran (sSend 1 (BitVec.ofNat 64 0))).exec 2) ∧ 9 ≤ 9 ∧ 9 ≤ 4096 ∧ 0 + 9 ≤ (ran (sSend 1 (BitVec.ofNat 64 0))).desc.outboxSize ∧ message (sSend 1 (BitVec.ofNat 64 0)) = mgets (ran (sSend 1 (BitVec.ofNat 64 0))).exec.mem (1879048192 + 0) 9 ∧ fieldAt (message (sSend 1 (BitVec.ofNat 64 0))) 0 1 = 1 ∧ (ran (sSend 1 (BitVec.ofNat 64 0))).desc.rights.getLsbD 5 = false := by unfold ready; decide

/-! ## Crossings -/

/-- Crossings run: crossing 5, its image agreed and its end agreed; contexts 0 (the service port), 1 and 2 with roles 4, 5 and 3. -/
def sGo : State :=
  { State.reset with
    sup.ctxs := [(0, { role := 4 }), (1, { role := 5 }), (2, { role := 3 })]
    st.phase := 10
    cyc.running := true, cyc.k := 5, cyc.tk := 2000000000, cyc.agreedK := some 5, cyc.endDone := some 5 }

/-- Both hubs have closed an image of crossing `k`, and crossing 5 is not agreed yet. -/
def sClosed (k : Nat) : State :=
  { sGo with cyc.agreedK := some 4, cyc.endDone := some 4, cyc.hubImg := Vector.replicate 2 { k := k, closed := true } }

def queued3 : Queued := { stall := 3, k := 5, tk := 2000000000 }
/-- Core 1 has stall 3 to activate. -/
def sQueued : State :=
  { sGo with
    sup.stalls := [(3, { state := .running, desc := desc0, exec := exec0 })]
    cyc.endDone := some 4
    cyc.runs := vupd sGo.cyc.runs 1 (fun r => { r with queue := [queued3] }) }

def sEnded : State := { sGo with cyc.endDone := some 4, sup.cmdSeq := 0xFFFFFFFF }
def sBoundary : State := { sGo with cyc.hubImg := Vector.replicate 2 { k := 6, closed := true, tk := 2001000000 } }

/-- Lane 1 as `f` makes it. -/
def sLane (f : Lane → Lane) : State := { sGo with lanes := vupd sGo.lanes 1 f }
def sTwo : State := sLane (fun d => { d with state := .out })
def sBack : State := sLane (fun d => { d with rollback := true })
def sResetting : State := sLane (fun d => { d with state := .out, resetting := true })
def attempt0 : Attempt := { phase := 2, start := some 500000000, bulk := true }
def sAttempt : State := sLane (fun d => { d with state := .restabling, attempt := some attempt0 })
/-- The re-stabling limit of the settings has passed. -/
def sLimit : State := { sAttempt with cyc.tk := 500000000 + gv sAttempt E.restableLimit * 1000000 }
def sRetry : State := sLane (fun d => { d with state := .out, retryAt := some 2000000000 })

/-- The second word of crossing 5's item 0. -/
def key1 : Nat := 5 * 2 ^ 24 + 1
def copyA : Copy := { lane := 0, payload := 7, tag := 0x50000010000000 }
def word1 : WordPos := { opened := 1000, copies := [copyA], item := itemKey 5 0 }
def word0 : WordPos := { opened := 900, released := true, item := itemKey 5 0 }
def cmd0 : OutItem := { ident := 9, kind := 4, deadline := some 2000 }
/-- The voter of HA as `f` makes it. -/
def sVoter (f : Voter → Voter) : State := { sGo with hubs := vupd sGo.hubs 0 (fun d => { d with voter := f d.voter }) }
def pos1 : BitVec 40 := BitVec.ofNat 40 key1
def tag1 : Word := BitVec.ofNat 64 (key1 * 2 ^ 24)
def tagLast : Word := BitVec.ofNat 64 (key1 * 2 ^ 24 + 1)
def sWord (t : Word) : State := sVoter (fun v => { v with
  words := [(key1 - 1, word0), (key1, { word1 with copies := [{ copyA with tag := t }] })], items := [(itemKey 5 0, cmd0)] })
/-- A released word with the copies of these lanes. -/
def wordOf (ls : List Nat) (released : Bool) : WordPos :=
  { opened := 1000, copies := ls.map (fun l => { copyA with lane := l }), released := released, item := itemKey 5 0 }
def sClosing (ls : List Nat) (released : Bool) : State := sVoter (fun v => { v with words := [(key1, wordOf ls released)] })
def sDeadline : State := sVoter (fun v => { v with items := [(itemKey 5 0, cmd0)] })
def sHold (key : Nat) : State := sVoter (fun v => { v with holdSince := [(key, 1000)] })

/-- The link end as `f` makes it. -/
def sEnd (e : Nat) (f : ILink → ILink) : State := { sGo with ilinks := vupd sGo.ilinks e f }
def sEndFailed (e : Nat) : State := sEnd e (fun l => { l with failed := true, clean := true })
/-- The end has accepted transfer 0. -/
def sSeen : State := sEnd 0 (fun l => { l with seen := [0] })
def sBadRun : State := sEnd 0 (fun l => { l with badRun := 7, badNow := true })
/-- Context 2 has lane 1 selected. -/
def sTwoSel : State := { sTwo with sup.ctxs := nset sTwo.sup.ctxs 2 { role := 3, sels := vupd ({} : Context).sels 0 (fun _ => 1) } }

theorem wit_fieldSample : (getDie sGo 1).failed = false := by decide

theorem wit_imageClose : sGo.cyc.running = true ∧ hubUp sGo 0 = true ∧ ¬((vget sGo.cyc.hubImg 0 ({ } : HubImage)).closed = true ∧ (vget sGo.cyc.hubImg 0 ({ } : HubImage)).k = sGo.cyc.k + 1) := by decide

theorem wit_inputAgreement : (sClosed 5).cyc.running = true ∧ (sClosed 5).agree.mismatch = false ∧ (sClosed 5).agree.lost = false ∧ (sClosed 5).cyc.agreedK ≠ some (sClosed 5).cyc.k ∧ hubsClosed (sClosed 5) ≠ [] := by decide

theorem wit_activationStart : (getRun sQueued 1).run = none ∧ sQueued.cyc.agreedK = some sQueued.cyc.k ∧ sQueued.agree.mismatch = false ∧ sQueued.agree.lost = false ∧ (getRun sQueued 1).queue = [queued3] ∧ getStall? sQueued queued3.stall = some ((getStall? sQueued 3).getD ({ } : Stall)) ∧ ((getStall? sQueued 3).getD ({ } : Stall)).state = StallSt.running := by decide

theorem wit_checkpoint : sEnded.cyc.running = true ∧ sEnded.cyc.agreedK = some sEnded.cyc.k ∧ sEnded.cyc.endDone ≠ some sEnded.cyc.k ∧ sEnded.agree.mismatch = false ∧ sEnded.agree.lost = false ∧ runningStalls sEnded = [] := by decide

theorem wit_boundary : sBoundary.cyc.running = true ∧ imagesClosed sBoundary = true ∧ (sBoundary.cyc.endDone = some sBoundary.cyc.k ∨ sBoundary.agree.mismatch = true ∨ sBoundary.agree.lost = true ∨ sBoundary.cyc.agreedK ≠ some sBoundary.cyc.k) ∧ sBoundary.st.recoverDue = false ∧ sBoundary.st.resetDue = none := by decide

theorem wit_timingLag : inSet sGo 1 = true ∧ sGo.agree.lost = false := by decide

theorem wit_laneError3 : inSet sGo 2 = true ∧ sGo.agree.lost = false ∧ 3 ≤ (laneSet sGo).length := by decide

theorem wit_laneError2 : inSet sTwo 2 = true ∧ sTwo.agree.lost = false ∧ (laneSet sTwo).length ≤ 2 := by decide

theorem wit_rollback : (getLane sBack 1).rollback = true := by decide

theorem wit_restableCmd : accepts sTwo E.restableCmd 2 8448 7 1 ∧ (getLane sTwo 1).state = LaneSt.out ∧ (getLane sTwo 1).attempt = none := by unfold accepts; decide

theorem wit_laneReset : accepts sTwoSel E.laneReset 2 8193 8 1 ∧ 1 = chosen sTwoSel E.laneReset 2 ∧ 1 < 3 ∧ ((getLane sTwoSel 1).state = LaneSt.out ∨ (getLane sTwoSel 1).state = LaneSt.failed) := by unfold accepts; decide

theorem wit_laneResetDone : (getLane sResetting 1).resetting = true := by decide

theorem wit_bulkDone : (getLane sAttempt 1).attempt = some attempt0 ∧ attempt0.phase = 2 ∧ attempt0.bulk = true := by decide

theorem wit_restableLimit : (getLane sLimit 1).attempt = some attempt0 ∧ attempt0.start = some 500000000 ∧ attempt0.phase ≤ 3 ∧ 500000000 + gv sLimit E.restableLimit * 1000000 ≤ sLimit.cyc.tk ∧ 1 = gvi (bumpi sLimit E.laneAbandoned 1) E.laneAbandoned 1 := by decide

theorem wit_restableRetry : (getLane sRetry 1).retryAt = some 2000000000 ∧ (getLane sRetry 1).state = LaneSt.out ∧ 2000000000 ≤ sRetry.cyc.tk := by decide

theorem wit_copyFirst : voterServes sGo 0 ∧ inSet sGo 1 = true ∧ tag1 = pos1 ++ BitVec.ofNat 24 0 ∧ key1 = BitVec.toNat tag1 / 2 ^ 24 ∧ ({ lane := 1, payload := copyA.payload, tag := tag1 } : Copy) = ({ lane := 1, payload := BitVec.ofNat 64 7, tag := tag1 } : Copy) ∧ nget? (getHub sGo 0).voter.words key1 = none := by unfold voterServes; decide

theorem wit_copyLate : voterServes (sWord tag1) 0 ∧ inSet (sWord tag1) 1 = true ∧ tag1 = pos1 ++ BitVec.ofNat 24 0 ∧ key1 = BitVec.toNat tag1 / 2 ^ 24 ∧ ({ lane := 1, payload := copyA.payload, tag := tag1 } : Copy) = ({ lane := 1, payload := BitVec.ofNat 64 7, tag := tag1 } : Copy) ∧ nget? (getHub (sWord tag1) 0).voter.words key1 = some { word1 with copies := [{ copyA with tag := tag1 }] } ∧ word1.opened + gv (sWord tag1) E.voteSkew * 1000 < 10000000 := by unfold voterServes; decide

theorem wit_copyMatch : voterServes (sWord tag1) 0 ∧ inSet (sWord tag1) 1 = true ∧ tag1 = pos1 ++ BitVec.ofNat 24 0 ∧ key1 = BitVec.toNat tag1 / 2 ^ 24 ∧ ({ lane := 1, payload := copyA.payload, tag := tag1 } : Copy) = ({ lane := 1, payload := BitVec.ofNat 64 7, tag := tag1 } : Copy) ∧ nget? (getHub (sWord tag1) 0).voter.words key1 = some { word1 with copies := [{ copyA with tag := tag1 }] } ∧ 1100 ≤ word1.opened + gv (sWord tag1) E.voteSkew * 1000 ∧ word1.closed = false ∧ word1.released = false ∧ word1.matched = none ∧ copyA.lane ≠ 1 ∧ inSet (sWord tag1) copyA.lane = true ∧ copyA.payload = BitVec.ofNat 64 7 ∧ (key1 % 2 ^ 24 = 0 ∨ ∃ (p : WordPos), nget? (getHub (sWord tag1) 0).voter.words (key1 - 1) = some p ∧ p.released = true) ∧ nget? (getHub (sWord tag1) 0).voter.words (key1 + 1) = none ∧ BitVec.getLsbD tag1 0 = false := by unfold voterServes; decide

theorem wit_copyLast : voterServes (sWord tagLast) 0 ∧ inSet (sWord tagLast) 1 = true ∧ tagLast = pos1 ++ BitVec.ofNat 24 1 ∧ key1 = BitVec.toNat tagLast / 2 ^ 24 ∧ ({ lane := 1, payload := copyA.payload, tag := tagLast } : Copy) = ({ lane := 1, payload := BitVec.ofNat 64 7, tag := tagLast } : Copy) ∧ nget? (getHub (sWord tagLast) 0).voter.words key1 = some { word1 with copies := [{ copyA with tag := tagLast }] } ∧ 1100 ≤ word1.opened + gv (sWord tagLast) E.voteSkew * 1000 ∧ word1.closed = false ∧ word1.released = false ∧ word1.matched = none ∧ copyA.lane ≠ 1 ∧ inSet (sWord tagLast) copyA.lane = true ∧ copyA.payload = BitVec.ofNat 64 7 ∧ (key1 % 2 ^ 24 = 0 ∨ ∃ (p : WordPos), nget? (getHub (sWord tagLast) 0).voter.words (key1 - 1) = some p ∧ p.released = true) ∧ nget? (getHub (sWord tagLast) 0).voter.words (key1 + 1) = none ∧ BitVec.getLsbD tagLast 0 = true ∧ voterItem (sWord tagLast) 0 word1.item = some cmd0 ∧ cmd0.stale = false ∧ cmd0.kind = 4 ∧ cmd0.single = false ∧ { cmd0 with whole := true } = wholeItem (blockCount (updVoter (sWord tagLast) 0 fun (v : Voter) => { v with matchedLog := v.matchedLog ++ [({ lane := 1, payload := copyA.payload, tag := tagLast } : Copy)], words := nset v.words key1 { word1 with copies := [{ copyA with tag := tagLast }, ({ lane := 1, payload := copyA.payload, tag := tagLast } : Copy)], matched := some ({ lane := 1, payload := copyA.payload, tag := tagLast } : Copy), released := true } }) (21377 + 0) 1) 0 key1 cmd0 := by unfold voterServes; decide

theorem wit_windowWhole : openWord (sClosing [0, 1, 2] true) 0 1 10000000 = some (key1, wordOf [0, 1, 2] true) ∧ (sClosing [0, 1, 2] true).agree.mismatch = false ∧ (sClosing [0, 1, 2] true).agree.lost = false ∧ nget? (getHub (sClosing [0, 1, 2] true) 0).voter.words (key1 + 1) = none ∧ (wordOf [0, 1, 2] true).released = true ∧ (∀ l < 3, inSet (sClosing [0, 1, 2] true) l = true → ((wordOf [0, 1, 2] true).copies.any fun (c : Copy) => decide (c.lane = l)) = true) := by decide

theorem wit_windowAbsent : openWord (sClosing [0, 1] true) 0 1 10000000 = some (key1, wordOf [0, 1] true) ∧ (sClosing [0, 1] true).agree.mismatch = false ∧ (sClosing [0, 1] true).agree.lost = false ∧ nget? (getHub (sClosing [0, 1] true) 0).voter.words (key1 + 1) = none ∧ 2 < 3 ∧ (wordOf [0, 1] true).released = true ∧ laneSet (sClosing [0, 1] true) = [0, 1, 2] ∧ (∀ j < 3, ((wordOf [0, 1] true).copies.any fun (c : Copy) => decide (c.lane = j)) = true ↔ j ≠ 2) := by decide

theorem wit_windowUnmatched : openWord (sClosing [0, 1] false) 0 1 10000000 = some (key1, wordOf [0, 1] false) ∧ (sClosing [0, 1] false).agree.mismatch = false ∧ (sClosing [0, 1] false).agree.lost = false ∧ nget? (getHub (sClosing [0, 1] false) 0).voter.words (key1 + 1) = none ∧ (wordOf [0, 1] false).released = false := by decide

theorem wit_deadline : voterServes sDeadline 0 ∧ staleItem sDeadline 0 0 2000 = some (itemKey 5 0, cmd0) := by unfold voterServes; decide

theorem wit_hold : nget? (getHub (sHold 9) 0).voter.holdSince 9 = some 1000 ∧ 1000 + gv (sHold 9) E.voteHoldLimit * 1000000 < 10000000000 ∧ 9 ≠ cmdKey := by decide

theorem wit_holdCmd : nget? (getHub (sHold cmdKey) 0).voter.holdSince cmdKey = some 1000 ∧ 1000 + gv (sHold cmdKey) E.voteHoldLimit * 1000000 < 10000000000 ∧ holdsLease (sHold cmdKey) = false := by decide

theorem wit_transfer : endUp sGo 33 = true ∧ 1 ∉ (getEnd sGo 33).seen := by decide

theorem wit_transferBad : endUp sGo 0 = true ∧ (false = false ∨ 1 ∈ (getEnd sGo 0).seen) := by decide

theorem wit_transferSame : endUp sSeen 0 = true ∧ (true = false ∨ 0 ∈ (getEnd sSeen 0).seen) := by decide

theorem wit_linkDiscards : endUp sBadRun 0 = true ∧ (getEnd sBadRun 0).failed = false ∧ 8 ≤ (getEnd sBadRun 0).badRun + b2n (getEnd sBadRun 0).badNow := by decide

theorem wit_linkSilent : endUp sGo 11 = true ∧ (getEnd sGo 11).failed = false ∧ (((getEnd sGo 11).lastHeard + if 11 < 20 then 2000 else if 11 < 30 then 200000 else 3000) < 2001) := by decide

theorem wit_linkSilentCross : endUp sGo 29 = true ∧ (getEnd sGo 29).failed = false ∧ (((getEnd sGo 29).lastHeard + if 29 < 20 then 2000 else if 29 < 30 then 200000 else 3000) < 200001) := by decide

theorem wit_linkSilentTwin : endUp sGo 33 = true ∧ (getEnd sGo 33).failed = false ∧ (((getEnd sGo 33).lastHeard + if 33 < 20 then 2000 else if 33 < 30 then 200000 else 3000) < 3001) := by decide

theorem wit_linkRestored : endUp (sEndFailed 29) 29 = true ∧ (getEnd (sEndFailed 29) 29).failed = true ∧ (getEnd (sEndFailed 29) 29).clean = true ∧ (getEnd (sEndFailed 29) 29).badNow = false := by decide

/-! ## Dies and start -/

/-- A lane is to be reset alone; a field die has failed; a hub as `f` makes it. -/
def sDie0Failed : State := { sGo with field.dies := vupd sGo.field.dies 0 (fun d => { d with failed := true }) }
def sHub (h : Nat) (f : HubDie → HubDie) : State := { sGo with hubs := vupd sGo.hubs h f }
def sHubDown : State := sHub 1 (fun d => { d with failed := true })
/-- HB is in its restart, after a watchdog at 1000. -/
def sWatchdog : State := sHub 1 (fun d => { d with restarting := true, watchdogAt := some 1000 })
def sReady : State := sHub 1 (fun d => { d with restarting := true, ready := true })
/-- The lanes of crossing 5 have all stopped but lane 1. -/
def sHalted : State := { sGo with lanes := sGo.lanes.mapIdx (fun i d => if i = 1 then d else { d with halted := true }) }
/-- Start-up, S1. -/
def sStart : State := { State.reset with st.phase := 1, sup.ctxs := [(0, { role := 4 })] }
def sStartOne : State := { sStart with lanes := sStart.lanes.mapIdx (fun i d => if i = 1 then d else { d with state := .failed }) }
def sRecovery : State := { sGo with st.recovery := true }
def sPressed (p : Nat) : State := { sGo with st.pressAt := some p, st.pressIn := true }
def sPressedStart : State := { sStart with st.pressAt := some 2000, st.pressIn := true }
def sNoSupply : State := { State.reset with supply.supplyGood := false }
def sSupply (fail : Option Nat) (h : Nat) : State := { sGo with supply.supplyGood := true, supply.powerFail := fail, supply.holdup := h, supply.measured := false }

theorem wit_laneWatchdog : laneSet sGo = [0, 1, 2] ∧ sGo.agree.lost = false := by decide

theorem wit_fieldTrip : 5 ≤ 6 ∧ (getDie sGo (6 - 5)).failed = false := by decide

theorem wit_dieResetLane : resetAccepted sGo true true = true ∧ 2 < 3 ∧ laneSet sGo = [0, 1, 2] ∧ sGo.agree.lost = false := by decide

theorem wit_dieResetField : resetAccepted sGo true true = true ∧ 5 ≤ 6 := by decide

theorem wit_dieResetOne : resetAccepted sHubDown true false = true ∧ 5 ≤ 6 := by decide

theorem wit_dieResetRefused : true ≠ false ∧ hubUp sGo 0 = true ∧ hubUp sGo 1 = true ∧ 2 ≠ 3 ∧ 2 ≠ 4 := by decide

theorem wit_dieResetHub : (4 = 3 ∨ 4 = 4) := by decide

theorem wit_closeMarker : sGo.cyc.running = true ∧ sGo.cyc.tk + 2000000 ≤ 2002000000 := by decide

theorem wit_hubWatchdog : hubUp sGo 1 = true ∧ hubUp sGo (1 - 1) = true ∧ (getHub sGo (1 - 1)).voter.inService = true := by decide

theorem wit_hubWatchdog_1 : hubUp sGo 1 = true ∧ hubUp sGo (1 - 1) = true ∧ (getHub sGo (1 - 1)).voter.inService = true ∧ 4 = 3 + 1 := by decide

theorem wit_hubWatchdogBoth : hubUp sWatchdog 0 = true ∧ (getHub sWatchdog (1 - 0)).restarting = true ∧ (getHub sWatchdog (1 - 0)).watchdogAt = some 1000 ∧ 50001000 ≤ 1000 + 50000000 := by decide

theorem wit_hubRestart : hubUp sGo (1 - 1) = true ∧ (getHub sGo (1 - 1)).voter.inService = true ∧ (hubUp sGo 1 = true ∨ (getHub sGo 1).failed = true) := by decide

theorem wit_hubRejoin : (getHub sReady 1).restarting = true ∧ (getHub sReady 1).ready = true ∧ hubUp sReady (1 - 1) = true ∧ sReady.cyc.running = true := by decide

theorem wit_hubAlone : (getHub sStart 0).failed = false ∧ (getHub sStart (1 - 0)).failed = false ∧ sStart.st.phase = 1 ∧ { updHub sStart 1 fun (d : HubDie) => { d with failed := true, voter := { d.voter with inService := false } } with con := { (updHub sStart 1 fun (d : HubDie) => { d with failed := true, voter := { d.voter with inService := false } }).con with svcHub := 0 } } = { updHub sStart (1 - 0) fun (d : HubDie) => { d with failed := true, voter := { d.voter with inService := false } } with con := { (updHub sStart (1 - 0) fun (d : HubDie) => { d with failed := true, voter := { d.voter with inService := false } }).con with svcHub := 0 }, upd := { (updHub sStart (1 - 0) fun (d : HubDie) => { d with failed := true, voter := { d.voter with inService := false } }).upd with writer := 0 } } := by decide

theorem wit_moduleStart : sStart.st.phase = 1 ∧ 2 ≤ (laneSet sStart).length ∧ votersUp sStart ≠ [] := by decide

theorem wit_moduleStartHeld : sStartOne.st.phase = 1 ∧ (laneSet sStartOne).length < 2 := by decide

theorem wit_resetCmd : accepts sGo E.resetCmd 2 4608 1 1 ∧ (sGo.sup.mode = 2 ∨ sGo.st.recovery = true ∨ sGo.st.heldIn = true) := by unfold accepts; decide

theorem wit_recoveryPwd : accepts sRecovery E.recoveryPwdReset 0 4608 8 1 ∧ sRecovery.st.recovery = true := by unfold accepts; decide

theorem wit_recoverPress : (hubUp sGo 0 = true ∨ hubUp sGo 1 = true) ∧ sGo.st.recovery = false := by decide

theorem wit_recoverHold : (hubUp (sPressed 2000) 0 = true ∨ hubUp (sPressed 2000) 1 = true) ∧ (sPressed 2000).st.recovery = false ∧ (sPressed 2000).st.pressAt = some 2000 ∧ (sPressed 2000).st.pressIn = true ∧ (sPressed 2000).st.ignorePress = false ∧ 2000 + 5000 ≤ 7000 ∧ (sPressed 2000).cyc.running = true := by decide

theorem wit_recoverHoldStart : (hubUp sPressedStart 0 = true ∨ hubUp sPressedStart 1 = true) ∧ sPressedStart.st.recovery = false ∧ sPressedStart.st.pressAt = some 2000 ∧ sPressedStart.st.pressIn = true ∧ sPressedStart.st.ignorePress = false ∧ 2000 + 5000 ≤ 7000 ∧ sPressedStart.cyc.running = false ∧ sPressedStart.st.phase = 1 := by decide

theorem wit_recoverStuck : (hubUp (sPressed 2000) 0 = true ∨ hubUp (sPressed 2000) 1 = true) ∧ (sPressed 2000).st.recovery = false ∧ (sPressed 2000).st.pressAt = some 2000 ∧ (sPressed 2000).st.stuckDone = false ∧ 2000 + 3600000 ≤ 3602000 := by decide

theorem wit_supplyGood : sNoSupply.supply.supplyGood = false ∧ 1 = max (getHub sNoSupply 0).powerCycles (getHub sNoSupply 1).powerCycles + 1 := by decide

theorem wit_powerFail : (sSupply none 1).supply.supplyGood = true := by decide

theorem wit_holdupReady : (sSupply none 0).supply.supplyGood = true ∧ (sSupply none 0).supply.powerFail = none ∧ (sSupply none 0).supply.holdup = 0 := by decide

theorem wit_holdupExhausted : (sSupply (some 5) 2).supply.powerFail.isSome = true := by decide

theorem wit_powerRestored : (sSupply (some 5) 2).supply.powerFail = some 5 := by decide

theorem wit_holdupMeasure : (sSupply none 1).cyc.running = true ∧ (sSupply none 1).supply.powerFail = none ∧ (sSupply none 1).supply.holdup = 1 ∧ (sSupply none 1).supply.measured = false := by decide

/-! ## Dictionary and stalls -/

/-- Context 2 has instance `v` selected in place `i` of its select values. -/
def sSel (s : State) (i v : Nat) : State :=
  { s with sup.ctxs := nset s.sup.ctxs 2 { role := 3, sels := vupd ({} : Context).sels i (fun _ => v) } }

def msg0 : DapMsg := { version := 1, reqId := 7, index := 0x2400, sub := 3 }
/-- Context 1 has 16 requests outstanding. -/
def ctxFull : Context := { role := 5, outstanding := 16 }
def sFull : State := { sGo with sup.ctxs := [(1, ctxFull)] }

def force0 : Force := { value := 1, expires := 2000000000 }
def sForced : State := { sGo with sup.forceDi := [(0, force0)], sup.forceDo := [(0, force0)], sup.forceAi := [(0, force0)] }

/-- A stall package with 4 KiB of CODE and STACK and nothing else. -/
def descBytes : List Byte :=
  u32 0x5354414C ++ u16 1 ++ u16 0 ++ List.replicate 32 0 ++ u32 1 ++ u32 1 ++ u64 0 ++ u8 2 ++ u8 0 ++ u8 0 ++ u8 0 ++
    u32 1 ++ u32 64 ++ u32 4096 ++ u32 0 ++ u32 0 ++ u32 4096 ++ List.replicate 20 0 ++ u64 0x10000000 ++ u64 0 ++
    u64 0x30001000 ++ u32 0 ++ u32 0 ++ u32 256 ++ u32 0 ++ List.replicate 108 0
def pkgBytes : List Byte := descBytes ++ u32 (crc32c descBytes) ++ u32 0 ++ List.replicate 4096 0
def header2 : List Byte := List.replicate 6 0 ++ u8 2 ++ List.replicate 17 0 ++ u64 4356
def package2 : Package := { kind := 2, state := 2, header := header2, payload := pkgBytes }
/-- Loft package 1 is a stall package that its header admits as far as no signature is concerned. -/
def withLoft (s : State) : State :=
  { s with upd.loft := [(1, package2)], upd.roots := Vector.replicate 4 { kinds := 4 } }

/-- Stall 3 as `f` makes it, selected by context 2. -/
def sStall (f : Stall → Stall) : State :=
  sSel { sGo with sup.stalls := [(3, f { desc := { desc0 with energyClass := 2 }, exec := exec0 })] } 2 3
def stallOf (s : State) : Stall := (getStall? s 3).getD {}
def loading0 : Loading := { pkgNo := 1 }
def sLoading : State := sStall (fun st => { st with state := .loading, loading := some loading0 })
def sIs (x : StallSt) : State := sStall (fun st => { st with state := x })
def sIsIn (x : StallSt) (m : Nat) : State := { sIs x with sup.mode := m }
/-- Stall 3 is admitted and declares 4 KiB of RETAIN. -/
def sRetain : State :=
  let s := sStall (fun st => { st with state := .running, admitted := true, desc := { st.desc with retainSize := 4096, retainTag := 9 } })
  { s with agreed := s.sup }
def retain0 (valid : Bool) : RetainCopy :=
  { tag := 9, retainSize := 4096, mirrorSize := 0, seq := 1, tk := 2000000000, data := mkeep (stallOf sRetain).exec.mem 0x40000000 0x60000000
    valid := valid }
/-- An image map entry of kind 1 with 64 bytes at IMAGE + 0x1000. -/
def imap0 : Nat := 1 + 0x1000 * 2 ^ 64 + 64 * 2 ^ 96
def sImap : State := sStall (fun st => { st with state := .stopped, desc := { st.desc with imageSize := 8192 } })

theorem wit_dictWrite : lookupEntry sGo 0x2100 5 = some E.restableAuto ∧ handlerOf E.restableAuto 5 = storeHandler E.restableAuto ∧
    accepts sGo E.restableAuto 2 0x2100 5 0 := ⟨by decide, rfl, by unfold accepts; decide⟩

theorem wit_dictRefused : lookupEntry sGo 0x2100 5 = some E.restableAuto ∧ handlerOf E.restableAuto 5 = storeHandler E.restableAuto ∧
    nhas sGo.sup.ctxs 2 = true ∧ ctxIsStall 2 = false ∧
    4 = chooseAbort (genericConds sGo (mkW sGo 2 0x2100 5 E.restableAuto.len 2 E.restableAuto) E.restableAuto) / 2 ^ 24 ∧
    (0 < 4 ∧ 4 < 7) := ⟨by decide, rfl, by decide⟩

theorem wit_select : findEntry 12288 1 = some E.linkSel ∧ isSelect 12288 = true ∧ accepts sGo E.linkSel 1 12288 1 3 := by unfold accepts; decide

theorem wit_lockBits : 1 ≤ 1 ∧ 1 ≤ 4 ∧ accepts sGo E.lockBits 2 4416 1 6 ∧ 0 = gvs sGo E.lockBits 1 0 ∧ 6 = 6 - (6 &&& 0) ∧ ((if 1 = 4 then 6 / 2 ^ 32 else 6) = 0 ∨ roleOk (roleOf sGo 2) 3 = true) ∧ ((if 1 = 4 then 6 % 2 ^ 32 else 0) = 0 ∨ roleOk (roleOf sGo 2) 4 = true) := by unfold accepts; decide

theorem wit_lockSafety : 1 ≤ 4 ∧ 4 ≤ 4 ∧ accepts sGo E.lockBits 0 4416 4 6 ∧ 0 = gvs sGo E.lockBits 4 0 ∧ 6 = 6 - (6 &&& 0) ∧ ((if 4 = 4 then 6 / 2 ^ 32 else 6) = 0 ∨ roleOk (roleOf sGo 0) 3 = true) ∧ ((if 4 = 4 then 6 % 2 ^ 32 else 0) = 0 ∨ roleOk (roleOf sGo 0) 4 = true) := by unfold accepts; decide

theorem wit_lockAtStart : 1 ≤ 1 ∧ 1 ≤ 4 ∧ accepts sGo E.lockAtStart 2 4417 1 6 ∧ 0 = gvs sGo E.lockAtStart 1 0 ∧ 0 - (0 &&& 6) &&& gvs sGo E.lockBits 1 0 = 0 ∧ (1 = 4 → 6 < 2 ^ 32 ∧ (6 = 0 ∨ roleOk (roleOf sGo 2) 4 = true)) := by unfold accepts; decide

theorem wit_dapMalformed : nget? sGo.sup.ctxs 1 = some ({ role := 5 } : Context) ∧ ({ ctx := 1, due := 7, reqId := 7, index := 9216, sub := 3 } : Request) = ({ ctx := 1, due := sGo.cyc.k + 2, reqId := msg0.reqId, index := msg0.index, sub := msg0.sub } : Request) ∧ (2 ≠ 1 ∨ msg0.flags ≠ 0 ∨ msg0.plen ≠ msg0.body.length) := by decide

theorem wit_dapFull : nget? sFull.sup.ctxs 1 = some ctxFull ∧ ({ ctx := 1, due := 7, reqId := 7, index := 9216, sub := 3 } : Request) = ({ ctx := 1, due := sFull.cyc.k + 2, reqId := msg0.reqId, index := msg0.index, sub := msg0.sub } : Request) ∧ msg0.version = 1 ∧ msg0.flags = 0 ∧ msg0.plen = msg0.body.length ∧ 16 ≤ ctxFull.outstanding := by decide

theorem wit_dap : nget? sGo.sup.ctxs 1 = some ({ role := 5 } : Context) ∧ ({ ctx := 1, due := 7, reqId := 7, index := 9216, sub := 3 } : Request) = ({ ctx := 1, due := sGo.cyc.k + 2, reqId := msg0.reqId, index := msg0.index, sub := msg0.sub } : Request) ∧ msg0.version = 1 ∧ msg0.flags = 0 ∧ msg0.plen = msg0.body.length ∧ 0 < 16 := by decide

theorem wit_force : accepts sGo E.diForce 2 16624 1 1 ∧ 0 = chosen sGo E.diForce 2 ∧ 1 ≠ 0 ∧ safetyPoint sGo false 1 0 = false ∧ arbBlock sGo 3 1 0 = none := by unfold accepts; decide

theorem wit_forceEnd : accepts sForced E.diForce 2 16624 1 0 ∧ 0 = chosen sForced E.diForce 2 ∧ nhas (forcesOf sForced 1) 0 = true := by unfold accepts; decide

theorem wit_forceClear : accepts sForced E.forceClearAll 2 9232 3 1 := by unfold accepts; decide

theorem wit_forceExpiry : nget? (forcesOf sForced (2 + 1)) 0 = some force0 ∧ force0.expires ≤ sForced.cyc.tk := by decide

theorem wit_loadCopy : getStall? sLoading 3 = some (stallOf sLoading) ∧ (stallOf sLoading).loading = some loading0 ∧ loading0.waiting = false ∧ inSet sLoading 1 = true := by decide

theorem wit_stallStart : 3 = chosen (sIs StallSt.stopped) E.stallCmd 2 ∧ getStall? (sIs StallSt.stopped) 3 = some (stallOf (sIs StallSt.stopped)) ∧ accepts (sIs StallSt.stopped) E.stallCmd 2 8705 1 1 ∧ (stallOf (sIs StallSt.stopped)).state = StallSt.stopped ∧ startConds (sIs StallSt.stopped) 3 (stallOf (sIs StallSt.stopped)) = [] := by unfold accepts; decide

theorem wit_stallStop : 3 = chosen (sIs StallSt.running) E.stallCmd 2 ∧ getStall? (sIs StallSt.running) 3 = some (stallOf (sIs StallSt.running)) ∧ accepts (sIs StallSt.running) E.stallCmd 2 8705 1 2 ∧ ((stallOf (sIs StallSt.running)).state = StallSt.stopped ∨ (stallOf (sIs StallSt.running)).state = StallSt.running ∨ (stallOf (sIs StallSt.running)).state = StallSt.faulted) := by unfold accepts; decide

theorem wit_stallStopHeld : 3 = chosen (sIs StallSt.held) E.stallCmd 2 ∧ getStall? (sIs StallSt.held) 3 = some (stallOf (sIs StallSt.held)) ∧ accepts (sIs StallSt.held) E.stallCmd 2 8705 1 2 ∧ (stallOf (sIs StallSt.held)).state = StallSt.held := by unfold accepts; decide

theorem wit_stallRestart : 3 = chosen (sIs StallSt.faulted) E.stallCmd 2 ∧ getStall? (sIs StallSt.faulted) 3 = some (stallOf (sIs StallSt.faulted)) ∧ accepts (sIs StallSt.faulted) E.stallCmd 2 8705 1 3 ∧ (stallOf (sIs StallSt.faulted)).state = StallSt.faulted := by unfold accepts; decide

theorem wit_unload : accepts (sIs StallSt.stopped) E.stallCmd 2 8705 1 4 ∧ 3 = chosen (sIs StallSt.stopped) E.stallCmd 2 ∧ getStall? (sIs StallSt.stopped) 3 = some (stallOf (sIs StallSt.stopped)) ∧ ((stallOf (sIs StallSt.stopped)).state = StallSt.stopped ∨ (stallOf (sIs StallSt.stopped)).state = StallSt.faulted) ∧ sharedMapped (sIs StallSt.stopped) 3 (stallOf (sIs StallSt.stopped)) = false ∧ (ctxIsStall 2 = true ∨ roleOk (roleOf (sIs StallSt.stopped) 2) 3 = true) ∧ arbBlock (sIs StallSt.stopped) 9 0 0 = none ∧ restabling (sIs StallSt.stopped) = false := by unfold accepts; decide

theorem wit_hold' : 3 = chosen (sIsIn StallSt.running 1) E.stallHold 2 ∧ getStall? (sIsIn StallSt.running 1) 3 = some (stallOf (sIs StallSt.running)) ∧ (sIsIn StallSt.running 1).sup.mode ≠ 2 ∧ accepts (sIsIn StallSt.running 1) E.stallHold 2 8705 9 1 ∧ (stallOf (sIs StallSt.running)).state = StallSt.running ∧ 2 ≤ (stallOf (sIs StallSt.running)).desc.energyClass ∧ (stallOf (sIs StallSt.running)).desc.mirrored = false ∧ holdHitsE0 (sIsIn StallSt.running 1) 3 (stallOf (sIs StallSt.running)) = false ∧ arbBlock (sIsIn StallSt.running 1) 4 0 0 = none := by unfold accepts; decide

theorem wit_release : 3 = chosen (sIsIn StallSt.held 3) E.stallHold 2 ∧ getStall? (sIsIn StallSt.held 3) 3 = some (stallOf (sIs StallSt.held)) ∧ (sIsIn StallSt.held 3).sup.mode ≠ 2 ∧ accepts (sIsIn StallSt.held 3) E.stallHold 2 8705 9 2 ∧ (stallOf (sIs StallSt.held)).state = StallSt.held := by unfold accepts; decide

theorem wit_imap : accepts sImap E.stallImap 2 8720 1 imap0 ∧ 3 = chosen sImap E.stallImap 2 ∧ getStall? sImap 3 = some (stallOf sImap) ∧ imapConds sImap (mkW sImap 2 8720 1 E.stallImap.len imap0 E.stallImap) = [] := by unfold accepts; decide

theorem wit_modeRun : accepts sGo E.cycleModeCmd 2 9216 2 1 ∧ sGo.st.recovery = false := by unfold accepts; decide

theorem wit_modeStop : accepts { sGo with sup := { sGo.sup with mode := 1 } } E.cycleModeCmd 2 9216 2 2 := by unfold accepts; decide

theorem wit_cpf : accepts sGo E.cycleCpf 2 9216 4 8 ∧ (∀ c < 16, coreAdmitted sGo c ≤ capacityFor sGo.cyc.c 8) := by unfold accepts; decide

theorem wit_retain : sRetain.cyc.running = true ∧ sRetain.supply.powerFail = none ∧ sRetain.agree.lost = false ∧ sRetain.agree.mismatch = false ∧ (List.filter (fun (p : ℕ × Stall) => decide (p.1 = 3)) sRetain.sup.stalls).length = 1 ∧ getStall? sRetain 3 = some (stallOf sRetain) ∧ nget? sRetain.agreed.stalls 3 = some (stallOf sRetain) ∧ (stallOf sRetain).admitted = true ∧ retains (stallOf sRetain).desc = true ∧ retain0 true = ({ tag := (stallOf sRetain).desc.retainTag, retainSize := (stallOf sRetain).desc.retainSize, seq := nget sRetain.sup.retainSeq 3 0 + 1, tk := sRetain.cyc.tk } : RetainCopy) := by decide

theorem wit_retainTorn : sRetain.cyc.running = true ∧ sRetain.supply.powerFail = none ∧ sRetain.agree.lost = false ∧ sRetain.agree.mismatch = false ∧ (List.filter (fun (p : ℕ × Stall) => decide (p.1 = 3)) sRetain.sup.stalls).length = 1 ∧ getStall? sRetain 3 = some (stallOf sRetain) ∧ nget? sRetain.agreed.stalls 3 = some (stallOf sRetain) ∧ (stallOf sRetain).admitted = true ∧ retains (stallOf sRetain).desc = true ∧ retain0 false = ({ tag := (stallOf sRetain).desc.retainTag, retainSize := (stallOf sRetain).desc.retainSize, seq := nget sRetain.sup.retainSeq 3 0 + 1, tk := sRetain.cyc.tk, valid := ! [3].contains 3 } : RetainCopy) := by decide

theorem wit_stallLoad (he : ∀ k d g, Config.ecdsaOk k d g = true) (hm : ∀ k d g, Config.mldsaOk k d g = true) :
    1 = 1 % 2 ^ 32 + (0 : Word).toNat * 2 ^ 64 ∧
    accepts (withLoft sGo) E.stallLoad 2 0x2200 2 1 ∧ arbBlock (withLoft sGo) 9 0 0 = none ∧
    loadConds (withLoft sGo) (mkW (withLoft sGo) 2 0x2200 2 E.stallLoad.len 1 E.stallLoad) = [] ∧ 0 = freeId (withLoft sGo) ∧
    parsePkg (pkgPayload (withLoft sGo) (1 % 2 ^ 32)) = some ((parsePkg pkgBytes).getD {}) := by
  refine ⟨by decide, by unfold accepts; decide, by decide, ?_, by decide, rfl⟩
  have hu : useCheck (withLoft sGo) 1 2 = 0 := useCheck_of _ _ _ package2 he hm rfl (by decide) (by decide)
  unfold loadConds pkgDesc pkgConds
  simp only [show bits (mkW (withLoft sGo) 2 0x2200 2 E.stallLoad.len 1 E.stallLoad).v 0 32 = 1 from rfl, hu]
  decide +kernel

theorem wit_stallReplace (he : ∀ k d g, Config.ecdsaOk k d g = true) (hm : ∀ k d g, Config.mldsaOk k d g = true) :
    accepts (withLoft (sIs .running)) E.stallReplace 2 0x2201 5 1 ∧ 3 = chosen (withLoft (sIs .running)) E.stallReplace 2 ∧
    getStall? (withLoft (sIs .running)) 3 = some (stallOf (sIs .running)) ∧ arbBlock (withLoft (sIs .running)) 9 0 0 = none ∧
    replaceConds (withLoft (sIs .running)) (mkW (withLoft (sIs .running)) 2 0x2201 5 E.stallReplace.len 1 E.stallReplace) = [] ∧
    parsePkg (pkgPayload (withLoft (sIs .running)) 1) = some ((parsePkg pkgBytes).getD {}) := by
  refine ⟨by unfold accepts; decide, by decide, by decide, by decide, ?_, rfl⟩
  have hu : useCheck (withLoft (sIs .running)) 1 2 = 0 := useCheck_of _ _ _ package2 he hm rfl (by decide) (by decide)
  unfold replaceConds pkgDesc pkgConds
  simp only [show (mkW (withLoft (sIs .running)) 2 0x2201 5 E.stallReplace.len 1 E.stallReplace).v = 1 from rfl, hu]
  decide +kernel

/-! ## Triggers and time -/

def sDiff : State := { sGo with hubDiffRun := 8 }
/-- Tacho channel 0: A high, a fault bit until 2 s. -/
def tacho0 : Tacho := { a := true, count := 10, lastDelta := 1, lastEdge := 5000, lastA := 5000, faultUntil := some 2000000000 }
def sTacho : State := { sGo with tacho := vupd sGo.tacho 0 (fun _ => tacho0) }
def trigger0 : Trigger := { gen := 1, owner := 3, req := 2 }
/-- Stall 3 owns trigger 5. -/
def sTrigger : State := sSel { sStall id with sup.triggers := [(5, trigger0)] } 3 5
def sTriggerPair : State := { sTrigger with twin.lease := 3 }
def sClosingShed : State := { sGo with sup.en.sheds := vupd sGo.sup.en.sheds 5 (fun _ => { state := 1, since := 1000000000 }) }
def sOver : State := { sGo with sup.en.overSince := some 1000000000 }
def sLeased : State := { sGo with twin.lease := 3 }

theorem wit_oscLane : 200000 < Int.natAbs 200001 ∧ 1 < 3 ∧ laneSet sGo = [0, 1, 2] ∧ sGo.agree.lost = false := by decide

theorem wit_oscHub : 200000 < (-200001).natAbs ∧ 3 ≤ 3 ∧ hubUp sGo (3 - 3) = true := by decide

theorem wit_hubDiff : 8 ≤ sDiff.hubDiffRun ∧ sDiff.hubDiffDone = false := by decide

theorem wit_tacho : tacho0 = getTacho sTacho 0 ∧ (getDie sTacho (0 / 2)).failed = false ∧ (if true = true then tacho0.b else tacho0.a) ≠ true ∧ (true = if true = true then tacho0.a else true) ∧ (true = if true = true then true else tacho0.b) ∧ (5000 = if true = true then tacho0.lastA else tacho0.lastB) := by decide

theorem wit_tachoClear : tacho0 = getTacho sTacho 0 ∧ tacho0.faultUntil = some 2000000000 ∧ 2000000000 ≤ 2000000000 := by decide

theorem wit_datumSet : accepts sTriggerPair E.posDatumSet 2 9472 12 5000 := by unfold accepts; decide

theorem wit_trigCancel : accepts sTrigger E.trigCancel 2 9601 6 1 ∧ 5 = chosen sTrigger E.trigCancel 2 ∧ nget? sTrigger.sup.triggers 5 = some trigger0 ∧ getStall? sTrigger trigger0.owner = some (stallOf sTrigger) := by unfold accepts; decide

theorem wit_supplyMode : accepts sGo E.supplyModeCmd 2 4864 2 2 := by unfold accepts; decide

theorem wit_shedStop : 4 ≤ 5 ∧ (getShed sClosingShed 5).state = 1 ∧ (vget sClosingShed.shedHub 5 ({ } : ShedHub)).stopped = false ∧ (getShed sClosingShed 5).since + 2 * sClosingShed.cyc.c ≤ 1002000000 ∧ (0 = if 5 < 8 then 0 else 1) ∧ 3 = 3 + (List.filter (fun (it : Item) => (shedPorts 5).contains it.port) (vget sClosingShed.cyc.hubOpen 0 [])).length := by decide

theorem wit_overrun : sOver.sup.en.overSince = some 1000000000 ∧ 1000000000 + 1000000000 ≤ sOver.cyc.tk ∧ sOver.sup.en.overDone = false := by decide

/-! ## Backbone -/

/-- A slot plan of one vehicle: slot 0 belongs to stall 3 of node 5. -/
def planBody : List Byte :=
  u32 0x454D504C ++ u16 1 ++ u16 7 ++ u8 8 ++ u8 1 ++ u8 2 ++ u8 0 ++ u16 1 ++ u16 0 ++ List.replicate 44 0
def planEntryBytes : List Byte :=
  u16 0 ++ u16 5 ++ u16 3 ++ u8 0 ++ u8 0 ++ u32 65 ++ u32 16 ++ u16 64 ++ u8 0 ++ u8 0 ++ u32 0
def planBytes : List Byte := planBody ++ u32 (crc32c (planBody ++ planEntryBytes)) ++ planEntryBytes
def header3 : List Byte := List.replicate 6 0 ++ u8 3 ++ List.replicate 17 0 ++ u64 88
def package3 : Package := { kind := 3, state := 2, header := header3, payload := planBytes }
/-- Loft package 1 is a slot plan that its header admits as far as no signature is concerned. -/
def withPlan (s : State) : State :=
  { s with upd.loft := [(1, package3)], upd.roots := Vector.replicate 4 { kinds := 8 } }
def plan7 : Plan := parsePlan planBytes 1
def entry0 : PlanEntry := plan7.entries.getD 0 {}

/-- Node 5 is LANDED in both planes with all links UP, plan 7 in force, key 1 in use. -/
def sLanded : State :=
  { sGo with
    st.ports := true
    bb.address := 5, bb.inForce := plan7, bb.configured := some plan7
    bb.links := Vector.replicate 4 { state := 2, noDelay := false, samples := [100000], lastPeer := 5 }
    bb.planes := Vector.replicate 2 { node := 4, keyCur := 1, planNo := 7 }
    bb.keys := (Vector.replicate 4 none).set 1 (some 99)
    hubs := Vector.replicate 2 { timeState := 1 } }
/-- The same node as ferryman. -/
def sFerry : State :=
  { sLanded with
    bb.isFerry := true, bb.keyNamed := 1
    bb.planes := Vector.replicate 2 { node := 5, keyCur := 1, planNo := 7 } }
/-- Another node than the one that sends slot 0. -/
def sOther : State := { sLanded with bb.address := 9 }
/-- Link 0 as `f` makes it; both planes as `g` makes them. -/
def sBLink (f : BLink → BLink) : State := { sLanded with bb.links := vupd sLanded.bb.links 0 f }
def sPlanes (f : Plane → Plane) : State := { sLanded with bb.planes := vupd (vupd sLanded.bb.planes 0 f) 1 f }
def lDown (good : Nat) : BLink := { state := 0, good := good, marker := 0xFFFF }
def sLDown (good : Nat) : State := sBLink (fun _ => lDown good)
def lBad : BLink := { state := 1, bad := 3 }
def sLBad : State := sBLink (fun _ => lBad)
def lQuiet : BLink := { state := 2, lastPeer := 2 }
def sLQuiet : State := sBLink (fun _ => lQuiet)
def sTransparent : State := sPlanes (fun p => { p with node := 3 })
/-- The telegram of slot 0, released. -/
def telegram0 : OutItem := { ident := 1, kind := 1, stall := 3, data := [1, 2, 3] }
def sReleased : State := sPlanes (fun p => { p with released := [(srcOfTrain sLanded 65, telegram0)] })
def frame0 : BbFrame :=
  { slot := 0, node := 5, plan := 7, crossing := 2000, key := 1, ident := 65, seq := 1, data := [1, 2], t := 2000000500
    start := 1999999528000 }
/-- The held copy of the telegram of slot 0 waits for it; its stall runs. -/
def telegramHeld : OutItem := { telegram0 with stale := true }
def sHeldSlot : State :=
  { sPlanes (fun p => { p with released := [(srcOfTrain sLanded 65, telegramHeld)] }) with
    sup.stalls := [(3, { state := .running, desc := desc0, exec := exec0 })] }
/-- Slot 0 of crossing 2000 has its outcome. -/
def sHadSlot : State := { sOther with bb.planes := vupd sOther.bb.planes 0 (fun p => { p with slotSeen := [(slotKey 2000 0, 1)] }) }
def sDatumSlot : State :=
  { sLeased with
    bb.address := 5
    bb.inForce := { plan7 with entries := [{ entry0 with ident := 4065 * 64 + 1, stall := 0xFFFF }] } }
def sCompanion : State := { withPlan sGo with bb.companions := [plan7] }

theorem wit_marker : lDown 0 = getLink (sLDown 0) 0 ∧ hubUp (sLDown 0) (0 / 2) = true ∧ (sLDown 0).st.ports = true ∧ 409 ≤ 409 ∧ ((lDown 0).state = 0 ∧ (lDown 0).good = 0 ∨ 9 = ((lDown 0).marker + 1) % 65536 ∧ 409 ≤ gvi (sLDown 0) E.linkSkew 0 + 6 ∧ gvi (sLDown 0) E.linkSkew 0 ≤ 409 + 6) ∧ ((lDown 0).good = 0 ∨ (lDown 0).state ≠ 0) := by decide

theorem wit_markerLocks : lDown 1 = getLink (sLDown 1) 0 ∧ hubUp (sLDown 1) (0 / 2) = true ∧ (sLDown 1).st.ports = true ∧ 6 ≤ 409 ∧ ((lDown 1).state = 0 ∧ (lDown 1).good = 0 ∨ 0 = ((lDown 1).marker + 1) % 65536 ∧ 6 ≤ gvi (sLDown 1) E.linkSkew 0 + 6 ∧ gvi (sLDown 1) E.linkSkew 0 ≤ 6 + 6) ∧ 1 ≤ (lDown 1).good ∧ (lDown 1).state = 0 := by decide

theorem wit_markerBad : lBad = getLink sLBad 0 ∧ hubUp sLBad (0 / 2) = true ∧ sLBad.st.ports = true ∧ (false = true ∨ false = false ∧ 3 ≤ lBad.bad) ∧ lBad.state ≠ 0 := by decide

theorem wit_markerErrors : lBad = getLink sLBad 0 ∧ hubUp sLBad (0 / 2) = true ∧ sLBad.st.ports = true ∧ 3 ≠ 0 := by decide

theorem wit_peerSilence : (getLink sLQuiet 0).state = 2 ∧ (getLink sLQuiet 0).lastPeer + 3 ≤ sLQuiet.cyc.k := by decide

theorem wit_linkDown : (getLink sLanded 0).state ≠ 0 := by decide

theorem wit_relayTransparent : 0 = 0 / 2 ∧ hubUp sTransparent 0 = true ∧ (getLink sTransparent 0).state ≠ 0 ∧ (getPlane sTransparent 0).node ≠ 0 ∧ (getLink sTransparent 0).edge = false ∧ 1 = otherLink 0 ∧ relays sTransparent 0 = true ∧ transparent sTransparent 0 = true := by decide

theorem wit_relayClaimer : 0 = 0 / 2 ∧ hubUp (sPlanes fun (p : Plane) => { p with node := 2 }) 0 = true ∧ (getLink (sPlanes fun (p : Plane) => { p with node := 2 }) 0).state ≠ 0 ∧ (getPlane (sPlanes fun (p : Plane) => { p with node := 2 }) 0).node ≠ 0 ∧ (getLink (sPlanes fun (p : Plane) => { p with node := 2 }) 0).edge = false ∧ 1 = otherLink 0 ∧ relays (sPlanes fun (p : Plane) => { p with node := 2 }) 0 = true ∧ transparent (sPlanes fun (p : Plane) => { p with node := 2 }) 0 = true ∧ (getPlane (sPlanes fun (p : Plane) => { p with node := 2 }) 0).node = 2 := by decide

theorem wit_relayBell : 0 = 0 / 2 ∧ hubUp sLanded 0 = true ∧ (getLink sLanded 0).state ≠ 0 ∧ (getPlane sLanded 0).node ≠ 0 ∧ (getLink sLanded 0).edge = false ∧ 1 = otherLink 0 ∧ relays sLanded 0 = true ∧ transparent sLanded 0 = false ∧ bellWindow sLanded 0 1999999400000 = some 2000000000 := by decide

theorem wit_relayUnplanned : 0 = 0 / 2 ∧ hubUp sLanded 0 = true ∧ (getLink sLanded 0).state ≠ 0 ∧ (getPlane sLanded 0).node ≠ 0 ∧ (getLink sLanded 0).edge = false ∧ 1 = otherLink 0 ∧ relays sLanded 0 = true ∧ transparent sLanded 0 = false ∧ bellWindow sLanded 0 0 = none := by decide

theorem wit_relayFrame : 0 = 0 / 2 ∧ hubUp sLanded 0 = true ∧ (getLink sLanded 0).state ≠ 0 ∧ (getPlane sLanded 0).node ≠ 0 ∧ (getLink sLanded 0).edge = false ∧ 1 = otherLink 0 ∧ relays sLanded 0 = true ∧ transparent sLanded 0 = false ∧ List.findSome? (fun (p : PlanEntry) => Option.map (fun (x : ℕ × ℕ) => (p, x.2)) (slotWindow sLanded 0 p 1999999528000)) sLanded.bb.inForce.entries = some (entry0, 2000000000) ∧ 32000 ≤ frameTime entry0.len + 32000 := by decide

theorem wit_relayCut : 0 = 0 / 2 ∧ hubUp sLanded 0 = true ∧ (getLink sLanded 0).state ≠ 0 ∧ (getPlane sLanded 0).node ≠ 0 ∧ (getLink sLanded 0).edge = false ∧ 1 = otherLink 0 ∧ relays sLanded 0 = true ∧ transparent sLanded 0 = false ∧ List.findSome? (fun (p : PlanEntry) => Option.map (fun (x : ℕ × ℕ) => (p, x.2)) (slotWindow sLanded 0 p 1999999528000)) sLanded.bb.inForce.entries = some (entry0, 2000000000) ∧ frameTime entry0.len + 32000 < 100000 := by decide

theorem wit_bellSend : hubSends sFerry 0 = true ∧ (getPlane sFerry 0).node ≠ 0 ∧ sFerry.bb.isFerry = true ∧ sFerry.bb.claiming = false ∧ sFerry.bb.yieldK = none := by decide

theorem wit_slotTransmit : srcOfTrain sReleased 65 = srcOfTrain sReleased entry0.ident ∧ List.find? (fun (p : PlanEntry) => decide (p.slot = 0)) sReleased.bb.inForce.entries = some entry0 ∧ hubSends sReleased 1 = true ∧ ((getPlane sReleased 1).node = 4 ∨ (getPlane sReleased 1).node = 5) ∧ entry0.node = sReleased.bb.address ∧ occurrence sReleased 1 entry0 3000000000 = some (2000, 2000000000) ∧ entry0.stall ≠ 65535 ∧ sReleased.agree.lost = false ∧ nget? (getPlane sReleased 1).released (srcOfTrain sReleased 65) = some telegram0 ∧ telegram0.stale = false := by decide

theorem wit_slotHeld : srcOfTrain sHeldSlot 65 = srcOfTrain sHeldSlot entry0.ident ∧ List.find? (fun (p : PlanEntry) => decide (p.slot = 0)) sHeldSlot.bb.inForce.entries = some entry0 ∧ hubSends sHeldSlot 1 = true ∧ ((getPlane sHeldSlot 1).node = 4 ∨ (getPlane sHeldSlot 1).node = 5) ∧ entry0.node = sHeldSlot.bb.address ∧ occurrence sHeldSlot 1 entry0 3000000000 = some (2000, 2000000000) ∧ entry0.stall ≠ 65535 ∧ sHeldSlot.agree.lost = false ∧ nget? (getPlane sHeldSlot 1).released (srcOfTrain sHeldSlot 65) = some telegramHeld ∧ telegramHeld.stale = true := by decide

theorem wit_slotEmpty : srcOfTrain sLanded 65 = srcOfTrain sLanded entry0.ident ∧ List.find? (fun (p : PlanEntry) => decide (p.slot = 0)) sLanded.bb.inForce.entries = some entry0 ∧ hubSends sLanded 1 = true ∧ ((getPlane sLanded 1).node = 4 ∨ (getPlane sLanded 1).node = 5) ∧ entry0.node = sLanded.bb.address ∧ occurrence sLanded 1 entry0 3000000000 = some (2000, 2000000000) ∧ entry0.stall ≠ 65535 ∧ sLanded.agree.lost = false ∧ nget? (getPlane sLanded 1).released (srcOfTrain sLanded 65) = none ∧ (getHub sLanded 1).voter.outputHold = false := by decide

theorem wit_frameNone : 0 = 0 / 2 ∧ hubUp sOther 0 = true ∧ (getLink sOther 0).state = 2 ∧ (getLink sOther 0).edge = false ∧ ((getPlane sOther 0).node = 4 ∨ (getPlane sOther 0).node = 5) ∧ windowAt sOther 0 0 = none := by decide

theorem wit_frameHad : 0 = 0 / 2 ∧ hubUp sHadSlot 0 = true ∧ (getLink sHadSlot 0).state = 2 ∧ (getLink sHadSlot 0).edge = false ∧ ((getPlane sHadSlot 0).node = 4 ∨ (getPlane sHadSlot 0).node = 5) ∧ windowAt sHadSlot 0 frame0.start = some (entry0, 2000) ∧ nhas (getPlane sHadSlot 0).slotSeen (slotKey 2000 entry0.slot) = true := by decide

theorem wit_frameWrong : 0 = 0 / 2 ∧ hubUp sOther 0 = true ∧ (getLink sOther 0).state = 2 ∧ (getLink sOther 0).edge = false ∧ ((getPlane sOther 0).node = 4 ∨ (getPlane sOther 0).node = 5) ∧ windowAt sOther 0 frame0.start = some (entry0, 2000) ∧ nhas (getPlane sOther 0).slotSeen (slotKey 2000 entry0.slot) = false ∧ frameRight sOther { frame0 with len := 72 } entry0 2000 = false := by decide

theorem wit_frameTag : 0 = 0 / 2 ∧ hubUp sOther 0 = true ∧ (getLink sOther 0).state = 2 ∧ (getLink sOther 0).edge = false ∧ ((getPlane sOther 0).node = 4 ∨ (getPlane sOther 0).node = 5) ∧ windowAt sOther 0 frame0.start = some (entry0, 2000) ∧ nhas (getPlane sOther 0).slotSeen (slotKey 2000 entry0.slot) = false ∧ frameRight sOther { frame0 with tagOk := false } entry0 2000 = true ∧ (bbKeyOf sOther frame0.key).isSome = true := by decide

theorem wit_frame : 0 = 0 / 2 ∧ hubUp sOther 0 = true ∧ (getLink sOther 0).state = 2 ∧ (getLink sOther 0).edge = false ∧ ((getPlane sOther 0).node = 4 ∨ (getPlane sOther 0).node = 5) ∧ windowAt sOther 0 frame0.start = some (entry0, 2000) ∧ nhas (getPlane sOther 0).slotSeen (slotKey 2000 entry0.slot) = false ∧ frameRight sOther frame0 entry0 2000 = true ∧ (bbKeyOf sOther frame0.key).isSome = true ∧ frame0.tagOk = true ∧ keyAllowed sOther 0 frame0.key = true ∧ telegramRight frame0 entry0 = true ∧ frame0.twin = false := by decide

theorem wit_systemTelegram : sGo.sup.tp.lastDatum ≠ some 77 ∧ sGo.sup.tp.datumInstant ≠ some 77 ∧ sGo.sup.tp.datumDue ≠ some 77 := by decide

theorem wit_companionRemove : parsePlan [] 7 = parsePlan (pkgPayload sCompanion 7) 7 ∧ accepts sCompanion E.bbCompanionRemove 2 12320 5 7 ∧ (sCompanion.bb.companions.any fun (q : Plan) => decide (q.number = 7)) = true := by unfold accepts; decide

theorem wit_keyActive : parsePlan [] 3 = parsePlan (pkgPayload sLeased 3) 3 ∧ accepts sLeased E.bbKeyActive 2 12306 1 3 := by unfold accepts; decide

theorem wit_datumAnnounce : parsePlan [] 5000000000 = parsePlan (pkgPayload sDatumSlot 5000000000) 5000000000 ∧ accepts sDatumSlot E.bbDatumAnnounce 2 12288 10 5000000000 ∧ (sDatumSlot.bb.inForce.entries.any fun (p : PlanEntry) => decide (p.ident / 64 = 4065) && decide (p.node = sDatumSlot.bb.address)) = true := by unfold accepts; decide

theorem wit_planLoad (he : ∀ k d g, Config.ecdsaOk k d g = true) (hm : ∀ k d g, Config.mldsaOk k d g = true) :
    plan7 = parsePlan (pkgPayload (withPlan sGo) 1) 1 ∧ accepts (withPlan sGo) E.bbPlanLoad 2 0x3000 5 1 ∧
    planConds (withPlan sGo) (mkW (withPlan sGo) 2 0x3000 5 E.bbPlanLoad.len 1 E.bbPlanLoad) = [] := by
  refine ⟨rfl, by unfold accepts; decide, ?_⟩
  have hu : useCheck (withPlan sGo) 1 3 = 0 := useCheck_of _ _ _ package3 he hm rfl (by decide) (by decide)
  unfold planConds
  simp only [show (mkW (withPlan sGo) 2 0x3000 5 E.bbPlanLoad.len 1 E.bbPlanLoad).v = 1 from rfl, hu]
  decide +kernel

theorem wit_companionLoad (he : ∀ k d g, Config.ecdsaOk k d g = true) (hm : ∀ k d g, Config.mldsaOk k d g = true) :
    plan7 = parsePlan (pkgPayload (withPlan sGo) 1) 1 ∧ accepts (withPlan sGo) E.bbCompanionLoad 2 0x3020 4 1 ∧
    planConds (withPlan sGo) (mkW (withPlan sGo) 2 0x3020 4 E.bbCompanionLoad.len 1 E.bbCompanionLoad) = [] ∧
    (withPlan sGo).bb.companions.length < 8 := by
  refine ⟨rfl, by unfold accepts; decide, ?_, by decide⟩
  have hu : useCheck (withPlan sGo) 1 3 = 0 := useCheck_of _ _ _ package3 he hm rfl (by decide) (by decide)
  unfold planConds
  simp only [show (mkW (withPlan sGo) 2 0x3020 4 E.bbCompanionLoad.len 1 E.bbCompanionLoad).v = 1 from rfl, hu]
  decide +kernel

/-! ## Inauguration -/

def bell0 : Bell := { crossing := 2000, time := 2000000000, key := 1, priority := 100, address := 9, inaug := 3, plan := 7, arrival := 2000000000000 - 600000 + 200000 }
def coldBell (p : Nat) : Bell := { bell0 with cold := true, priority := p, crossing := 77 * 2 ^ 24 }
def sListen : State := sPlanes (fun p => { p with node := 1 })
def sClaim : State := { sPlanes (fun p => { p with node := 2 }) with bb.claiming := true }
def sMissed (n : Nat) : State := sPlanes (fun p => { p with missed := n })
def lProbe : BLink := { state := 2, noDelay := false, probeSent := some (9, 1000), lastPeer := 5 }
def sProbe : State := sBLink (fun _ => lProbe)
def sNoSample : State := { sGo with cyc.k := 16, bb.links := vupd sLanded.bb.links 0 (fun _ => { state := 2 }) }
def chain0 : OutChain := { crossing := 2000, hops := 1, wAft := 5, wFore := 7, serial := 0 }
def unit0 : UnitRec := { id := 44, vehicles := 1 }
def inChain0 : InChain := { crossing := 2000, wAft := 6, units := [unit0] }
def sUnits : State := { sFerry with bb.roster := { units := [unit0] }, bb.absent := [(44, 64)] }
def sJoin : State := { sFerry with bb.mergeJoin := true, bb.mergeRun := 2 }
/-- No bell for the whole of a listening time. -/
def sQuiet (p : Nat) : State :=
  svx { sGo with bb.planes := Vector.replicate 2 { node := 1, listenSince := some 1000000000 } } E.bbPriority E.bbPriority.idx E.bbPriority.sub 0 p
def sBells (r : Bool) : State := { sClaim with bb.coldSent := 8, bb.claimInaug := 4, bb.running := r }
def sContend : State := svx (sMissed 258) E.bbPriority E.bbPriority.idx E.bbPriority.sub 0 1
/-- A landed hub with an edge behind link 0's plane: link 1 carries no chain. -/
def sEndOfTrain : State := { sLanded with bb.links := vupd sLanded.bb.links 1 (fun l => { l with state := 0 }) }

theorem wit_bellTag : 0 = 0 / 2 ∧ (↑(2000000000 * 1000) + 0 - 600000 - bell0.arrival = (↑(bell0.time * 1000) + if (decide (0 % 2 = 0) != (getPlane sLanded 0).reversed) = true then (getPlane sLanded 0).wAft else (getPlane sLanded 0).wFore) - 600000 - bell0.arrival) ∧ hubUp sLanded 0 = true ∧ (getLink sLanded 0).state ≠ 0 ∧ (bbKeyOf sLanded bell0.key).isSome = true := by decide

theorem wit_bell : 0 = 0 / 2 ∧ (-200000 = (↑(bell0.time * 1000) + if (decide (0 % 2 = 0) != (getPlane sLanded 0).reversed) = true then (getPlane sLanded 0).wAft else (getPlane sLanded 0).wFore) - 600000 - bell0.arrival) ∧ ownBell sLanded 0 0 bell0 ∧ bell0.cold = false ∧ (getPlane sLanded 0).node = 4 ∧ (bellWindow sLanded 0 bell0.arrival).isSome = true ∧ bellMatches sLanded 0 bell0 = true ∧ sLanded.bb.claiming = false ∧ bell0.merge = false ∧ bell0.key = (getPlane sLanded 0).keyCur ∧ (-200000).natAbs ≤ 200000 ∧ (getHub sLanded 0).timeState ≠ 2 := by unfold ownBell; decide

theorem wit_bellListen : 1 = 2 / 2 ∧ (↑(2000000000 * 1000) + 0 - 600000 - bell0.arrival = (↑(bell0.time * 1000) + if (decide (2 % 2 = 0) != (getPlane sListen 1).reversed) = true then (getPlane sListen 1).wAft else (getPlane sListen 1).wFore) - 600000 - bell0.arrival) ∧ ownBell sListen 2 1 { bell0 with n := 16 } ∧ bell0.cold = false ∧ (getPlane sListen 1).node = 1 ∧ sListen.bb.isFerry = false := by unfold ownBell; decide

theorem wit_coldListen : ownBell sListen 0 0 (coldBell 100) ∧ (coldBell 100).cold = true ∧ (getPlane sListen 0).node = 1 ∧ sListen.bb.isFerry = false := by unfold ownBell; decide

theorem wit_coldBetter : ownBell sClaim 0 0 (coldBell 255) ∧ (coldBell 255).cold = true ∧ (getPlane sClaim 0).node = 2 ∧ (gv sClaim E.bbPriority < (coldBell 255).priority ∨ gv sClaim E.bbPriority = (coldBell 255).priority ∧ (coldBell 255).crossing / 2 ^ 24 < Config.serial % 2 ^ 40) := by unfold ownBell; decide

theorem wit_coldWorse : ownBell sClaim 0 0 (coldBell 0) ∧ (coldBell 0).cold = true ∧ (getPlane sClaim 0).node = 2 ∧ ((coldBell 0).priority < gv sClaim E.bbPriority ∨ gv sClaim E.bbPriority = (coldBell 0).priority ∧ Config.serial % 2 ^ 40 ≤ (coldBell 0).crossing / 2 ^ 24) := by unfold ownBell; decide

theorem wit_bellLoss : hubUp (sMissed 3) 1 = true ∧ 3 ≤ (getPlane (sMissed 3) 1).missed ∧ (getHub (sMissed 3) 1).timeState = 1 ∧ (sMissed 3).bb.isFerry = false := by decide

theorem wit_probeSend : hubUp sLanded (0 / 2) = true ∧ hubSends sLanded (0 / 2) = true ∧ (getPlane sLanded (0 / 2)).node ≠ 0 ∧ (getLink sLanded 0).state ≠ 0 ∧ (getLink sLanded 0).probeAt ≠ some sLanded.cyc.k := by decide

theorem wit_probeReceived : hubUp sLanded (0 / 2) = true ∧ hubSends sLanded (0 / 2) = true ∧ (getPlane sLanded (0 / 2)).node ≠ 0 ∧ (getLink sLanded 0).state ≠ 0 := by decide

theorem wit_echo : lProbe = getLink sProbe 0 ∧ hubUp sProbe (0 / 2) = true ∧ lProbe.probeSent = some (9, 1000) ∧ lProbe.state ≠ 0 ∧ 640000 = (1377000 - ↑1000 - 96000) / 2 := by decide

theorem wit_delayLoss : hubUp sNoSample (0 / 2) = true ∧ (getLink sNoSample 0).state ≠ 0 ∧ (getLink sNoSample 0).lastSample + 16 ≤ sNoSample.cyc.k ∧ (getLink sNoSample 0).delayLost = false := by decide

theorem wit_rosterSend : hubSends sFerry 0 = true ∧ sFerry.bb.isFerry = true ∧ (getPlane sFerry 0).node = 5 := by decide

theorem wit_rosterReceived : hubUp sLanded (0 / 2) = true ∧ (getLink sLanded 0).state ≠ 0 ∧ (getLink sLanded 0).edge = false ∧ ((getPlane sLanded (0 / 2)).node = 3 ∨ (getPlane sLanded (0 / 2)).node = 4 ∨ (getPlane sLanded (0 / 2)).node = 6) := by decide

theorem wit_chainOriginate : hubSends sFerry 1 = true ∧ (getPlane sFerry 1).node = 5 := by decide

theorem wit_outwardChain : 0 = 0 / 2 ∧ hubUp sLanded 0 = true ∧ (getLink sLanded 0).state ≠ 0 ∧ (getLink sLanded 0).edge = false ∧ (getLink sLanded 0).noDelay = false ∧ (getPlane sLanded 0).node = 4 ∧ sLanded.bb.claiming = false ∧ chain0.tagOk = true ∧ chainNow sLanded 0 chain0.crossing = true ∧ 700000 = ↑(linkDelayPs (getLink sLanded 0)) + 600000 := by decide

theorem wit_outwardEnd : 0 = 0 / 2 ∧ hubUp sEndOfTrain 0 = true ∧ (getLink sEndOfTrain 0).state ≠ 0 ∧ (getLink sEndOfTrain 0).edge = false ∧ (getLink sEndOfTrain 0).noDelay = false ∧ (getPlane sEndOfTrain 0).node = 4 ∧ sEndOfTrain.bb.claiming = false ∧ chain0.tagOk = true ∧ chainNow sEndOfTrain 0 chain0.crossing = true ∧ 700000 = ↑(linkDelayPs (getLink sEndOfTrain 0)) + 600000 := by decide

theorem wit_inwardChain : 0 = 1 / 2 ∧ hubUp sUnits 0 = true ∧ (getLink sUnits 1).state ≠ 0 ∧ (getLink sUnits 1).edge = false ∧ (getLink sUnits 1).noDelay = false ∧ (getPlane sUnits 0).node = 5 ∧ inChain0.tagOk = true ∧ inChain0.edge = none ∧ (∀ u ∈ inChain0.units, (sUnits.bb.roster.units.any fun (r : UnitRec) => decide (r.id = u.id)) = true) := by decide

theorem wit_inwardOn : 1 = 3 / 2 ∧ hubUp sLanded 1 = true ∧ (getLink sLanded 3).state ≠ 0 ∧ (getLink sLanded 3).edge = false ∧ (getLink sLanded 3).noDelay = false ∧ (getPlane sLanded 1).node = 4 ∧ sLanded.bb.claiming = false ∧ inChain0.tagOk = true ∧ (getLink sLanded (otherLink 3)).edge = false ∧ (getLink sLanded (otherLink 3)).state ≠ 0 ∧ (getLink sLanded (otherLink 3)).noDelay = false ∧ hubSends sLanded 1 = true := by decide

theorem wit_edge : hubUp sLanded (0 / 2) = true ∧ (getLink sLanded 0).state = 2 ∧ chain0.tagOk = true ∧ isForeign sLanded (0 / 2) { chain0 with serial := 123 } = true ∧ sLanded.bb.isFerry = false := by decide

theorem wit_mergeYield : sJoin.bb.mergeJoin = true ∧ 2 ≤ sJoin.bb.mergeRun ∧ sJoin.bb.yieldK = none := by decide

theorem wit_listen : 128 = gv (sQuiet 128) E.bbPriority ∧ listenFrom (sQuiet 128) = some 1000000000 ∧ (getPlane (sQuiet 128) 0).node = 1 ∧ (getPlane (sQuiet 128) (1 - 0)).node ≤ 1 ∧ (sQuiet 128).bb.claiming = false ∧ 1000000000 + 3 * (gv (sQuiet 128) E.bbCrossingN * 125000) + (255 - 128) * 8000 ≤ (sQuiet 128).cyc.tk ∧ 0 < 128 := by decide

theorem wit_listenNone : 0 = gv (sQuiet 0) E.bbPriority ∧ listenFrom (sQuiet 0) = some 1000000000 ∧ (getPlane (sQuiet 0) 0).node = 1 ∧ (getPlane (sQuiet 0) (1 - 0)).node ≤ 1 ∧ (sQuiet 0).bb.claiming = false ∧ 1000000000 + 3 * (gv (sQuiet 0) E.bbCrossingN * 125000) + (255 - 0) * 8000 ≤ (sQuiet 0).cyc.tk ∧ (sQuiet 0).bb.noFerry = false := by decide

theorem wit_claim : (sBells false).bb.claiming = true ∧ 8 ≤ (sBells false).bb.coldSent := by decide

theorem wit_contention : 1 = gv sContend E.bbPriority ∧ 0 < 1 ∧ (getPlane sContend 0).node = 4 ∧ (getPlane sContend 1).node = 4 ∧ 3 + (255 - 1) ≤ (getPlane sContend 0).missed ∧ 3 + (255 - 1) ≤ (getPlane sContend 1).missed ∧ sContend.bb.claiming = false ∧ sContend.bb.isFerry = false := by decide

theorem wit_absence : sUnits.bb.isFerry = true ∧ 64 ≤ nget sUnits.bb.absent 44 0 ∧ (sUnits.bb.roster.units.any fun (x : UnitRec) => decide (x.id = 44)) = true ∧ sUnits.bb.removals.contains 44 = false := by decide

/-! ## Consist ports and sessions -/

/-- Ports 0, 1 and 16 are up; network A's endpoint has address 9; ports 0 and 1 take transit; CA slot 0 anchors [7]. -/
def sPorts : State :=
  svx (svx (svx { sGo with
      st.ports := true
      con.ports := (Vector.replicate 16 {}).set 0 { blockLock := true } |>.set 1 { blockLock := true }
      upd.cas := vupd sGo.upd.cas 0 (fun _ => { cert := [7], usage := 3 }) }
    E.conIp 0x3400 2 0 9) E.portTransit 0x3402 3 0 1) E.portTransit 0x3402 3 1 1
def ethOwn (h : Nat) : EthFrame := { dst := Config.mac h, ethertype := 0x0806, op := 1, dstIp := 9 }
def ethOn (h : Nat) : EthFrame := { dst := Config.mac h + 1, src := 44 }
def ethBad (len : Nat) : EthFrame := { len := len }
def ethTagged : EthFrame := { vid := some 7 }
def sIcmp (n : Nat) : State := { sPorts with con.icmp := [(0, List.replicate n 500000000)] }
/-- Allowlist entry 0 of network A lets ComId 5 in. -/
def sTrdp : State := svx sPorts E.trdpAllow 0x3400 64 0 (1 + 6 * 2 ^ 56 + 5 * 2 ^ 64)
def hello0 : HelloMsg := { fp := 77, root := [7], notBefore := 0, notAfter := 10 }
def hs0 : Handshake := { since := 100, fragSince := 100, number := some 4, finish := true, nets := 1, fp := 77 }
def sess1 : Session := { state := 1, fp := 77 }
def sHs : State := { sPorts with con.handshakes := [(3, hs0)], con.sessions := [(4, sess1)] }
def hsFrag : Handshake := { since := 100, fragSince := 100, count := 2, frags := [(0, [1])] }
def sHsFrag : State := { sPorts with con.handshakes := [(3, hsFrag)] }
def path0 : Path := { ip := 8, at_ := 100 }
/-- An open session with phase 0. -/
def sess2 : Session :=
  { state := 2, fp := 77, secrets := [(0, 11)], pathA := some path0, pathB := some path0, wins := Vector.replicate 2 { high := 2000, seen := [2000] }
    lastRx := 100, lastTx := 100, phaseBegan := 100, notAfter := some 1000000000 }
def sSess (e : Session) : State :=
  { sPorts with con.sessions := [(4, e)], sup.ctxs := nset sPorts.sup.ctxs 5 { role := 1 } }
/-- A record of session 4 under number `n`. -/
def rec4 (n : Nat) : SessRecord := { session := 4, seq := n, ip := 8, t := 5000 }
/-- What `sess2` becomes with the record. -/
def win4 (n : Nat) : Window1 := (windowTake (vget sess2.wins 0 {}) n).getD {}
def sess3 : Session := { sess2 with state := 3, secrets := [(0, 11), (3, 10)], rekeyMine := some (100, 1, 5), oldUntil := some 9000 }
def sess3b : Session := { sess3 with rekeyMine := none }
def sess3c : Session := { sess3 with rekeyMine := some (100, 3, 5) }
def sSel4 (e : Session) : State := sSel (sSess e) 8 4
/-- The shed of port 0 closes, and its receivers are still open. -/
def sShutPort : State := { sSess sess2 with
    sup.en.sheds := vupd (sSess sess2).sup.en.sheds 4 (fun _ => { state := 1, since := 1000000000 }) }
/-- The request of a DAP record. -/
def req4 : Request := { ctx := sessCtx 4, due := 7, reqId := msg0.reqId, op := 1, index := msg0.index, sub := msg0.sub, elen := msg0.elen, payload := msg0.body, hubs := 1, seq := 2001 }
def sessTaken : Session := { sess2 with taken := [2001] }

theorem wit_portShort : portUp sPorts 0 = true ∧ ((ethBad 63).badTag = true ∨ (ethBad 63).fcsOk = false ∨ (ethBad 63).len < 64 ∨ 9216 < (ethBad 63).len) := by decide

theorem wit_portVlan : portUp sPorts 0 = true ∧ ethTagged.badTag = false ∧ ethTagged.fcsOk = true ∧ 64 ≤ ethTagged.len ∧ ethTagged.len ≤ 9216 ∧ memberOf (bumpi sPorts E.portRxFrames 0) 0 (frameVlan (bumpi sPorts E.portRxFrames 0) 0 ethTagged) = false := by decide

theorem wit_portOwn : portUp sPorts 0 = true ∧ (ethOwn 0).badTag = false ∧ (ethOwn 0).fcsOk = true ∧ 64 ≤ (ethOwn 0).len ∧
    (ethOwn 0).len ≤ 9216 ∧ memberOf (bumpi sPorts E.portRxFrames 0) 0 (frameVlan (bumpi sPorts E.portRxFrames 0) 0 (ethOwn 0)) = true ∧
    (ethOwn 0).dst = Config.mac (0 / 8) ∧ terminates (bumpi sPorts E.portRxFrames 0) 0 (ethOwn 0) = true :=
  ⟨by decide, by decide, by decide, by decide, by decide, by decide, rfl, by decide⟩

theorem wit_portTransit : portUp sPorts 0 = true ∧ (ethOn 0).badTag = false ∧ (ethOn 0).fcsOk = true ∧ 64 ≤ (ethOn 0).len ∧
    (ethOn 0).len ≤ 9216 ∧ memberOf (bumpi sPorts E.portRxFrames 0) 0 (frameVlan (bumpi sPorts E.portRxFrames 0) 0 (ethOn 0)) = true ∧
    (ethOn 0).dst ≠ Config.mac (0 / 8) ∧ gvi (bumpi sPorts E.portRxFrames 0) E.portTransit 0 = 1 ∧
    ((getHub (bumpi sPorts E.portRxFrames 0) (0 / 8)).macs.any (fun e => e.mac = (ethOn 0).src)) = false ∧
    (getHub (bumpi sPorts E.portRxFrames 0) (0 / 8)).macs.length < 8192 :=
  ⟨by decide, by decide, by decide, by decide, by decide, by decide, Nat.succ_ne_self _, by decide, by decide, by decide⟩

theorem wit_endpoint : portUp (sIcmp 99) 0 = true ∧ 9 ≠ 0 ∧ 9 = endpointIp (sIcmp 99) 0 ∧ (0 = 16 ∨ hubSends (sIcmp 99) (0 / 8) = true) ∧ (bumpi (sIcmp 99) E.portTxFrames 0 = if 0 < 16 then bumpi (sIcmp 99) E.portTxFrames 0 else sIcmp 99) ∧ (0 = 16 ∨ endpointVlan (sIcmp 99) 0 = endpointVlan (sIcmp 99) 0) := by decide

theorem wit_icmp : portUp (sIcmp 99) 0 = true ∧ 9 ≠ 0 ∧ 9 = endpointIp (sIcmp 99) 0 ∧ (0 = 16 ∨ hubSends (sIcmp 99) (0 / 8) = true) ∧ (bumpi (sIcmp 99) E.portTxFrames 0 = if 0 < 16 then bumpi (sIcmp 99) E.portTxFrames 0 else sIcmp 99) ∧ (List.filter (fun (x : ℕ) => decide (1000000000 < x + 1000000000)) (nget (sIcmp 99).con.icmp (portHub (sIcmp 99) 0) [])).length < 100 := by decide

theorem wit_icmpFull : portUp (sIcmp 100) 0 = true ∧ 9 ≠ 0 ∧ 9 = endpointIp (sIcmp 100) 0 ∧ (0 = 16 ∨ hubSends (sIcmp 100) (0 / 8) = true) ∧ (bumpi (sIcmp 100) E.portTxFrames 0 = if 0 < 16 then bumpi (sIcmp 100) E.portTxFrames 0 else sIcmp 100) ∧ 100 ≤ (List.filter (fun (x : ℕ) => decide (1000000000 < x + 1000000000)) (nget (sIcmp 100).con.icmp (portHub (sIcmp 100) 0) [])).length := by decide

theorem wit_trdp : portUp sTrdp 0 = true ∧ endpointIp sTrdp 0 ≠ 0 ∧ 0 < 128 ∧ trdpMatch sTrdp 0 0 5 6 (endpointVlan sTrdp 0) 0 = true ∧ (∀ m < 0, trdpMatch sTrdp m 0 5 6 (endpointVlan sTrdp 0) 0 = false) := by decide

theorem wit_trdpNone : portUp sPorts 0 = true ∧ endpointIp sPorts 0 ≠ 0 ∧ (∀ n < 128, trdpMatch sPorts n 0 5 6 (endpointVlan sPorts 0) 0 = false) := by decide

theorem wit_hello : portUp sPorts 0 = true ∧ endpointIp sPorts 0 ≠ 0 ∧ (0 = 16 ∨ reachesNet sPorts (0 / 8) = true) ∧ nget? sPorts.con.handshakes 3 = none ∧ 3 ≠ 0 ∧ List.length sPorts.con.handshakes < 64 ∧ 0 ≤ gv sPorts E.conMtu - 44 ∧ 0 < 1 ∧ 1 ≤ 16 ∧ 0 < 16 ∧ hello0.formed = true ∧ hello0.supported = true ∧ denied sPorts hello0.fp = false ∧ anchorOf sPorts false hello0.root = some 0 ∧ hello0.chainOk = true ∧ (sPorts.sup.tp.utcValid = true → withinValidity sPorts 100 hello0.notBefore hello0.notAfter = true) ∧ (∀ p ∈ sPorts.con.handshakes, p.2.fp ≠ hello0.fp) ∧ assignNumber sPorts hello0.fp = some 0 ∧ nhas sPorts.con.sessions 0 = false := by decide

theorem wit_helloPart : portUp sPorts 0 = true ∧ endpointIp sPorts 0 ≠ 0 ∧ (0 = 16 ∨ reachesNet sPorts (0 / 8) = true) ∧ nget? sPorts.con.handshakes 3 = none ∧ 3 ≠ 0 ∧ List.length sPorts.con.handshakes < 64 ∧ 0 ≤ gv sPorts E.conMtu - 44 ∧ 15 < 16 ∧ 16 ≤ 16 ∧ 2 ≤ 16 := by decide

theorem wit_helloBad : portUp sPorts 16 = true ∧ endpointIp sPorts 16 ≠ 0 ∧ (16 = 16 ∨ reachesNet sPorts (16 / 8) = true) ∧ nget? sPorts.con.handshakes 3 = none ∧ 3 ≠ 0 ∧ List.length sPorts.con.handshakes < 64 ∧ 0 ≤ gv sPorts E.conMtu - 44 ∧ 0 < 1 ∧ 1 ≤ 16 := by decide

theorem wit_finish : portUp sHs 0 = true ∧ (0 = 16 ∨ reachesNet sHs (0 / 8) = true) ∧ nget? sHs.con.handshakes 3 = some hs0 ∧ hs0.number = some 4 ∧ hs0.done = false ∧ hs0.frags = [] ∧ 0 ≤ gv sHs E.conMtu - 44 := by decide

theorem wit_fragTimeout : nget? sHsFrag.con.handshakes 3 = some hsFrag ∧ hsFrag.frags ≠ [] ∧ hsFrag.fragSince + 1000000000 ≤ 1000000100 := by decide

theorem wit_hsTimeout : nget? sHs.con.handshakes 3 = some hs0 ∧ hs0.done = false ∧ hs0.since + 5000000000 ≤ 5000000100 ∧ hs0.number = some 4 ∧ nget? sHs.con.sessions 4 = some sess1 ∧ sess1.state = 1 := by decide

theorem wit_window : 0 < 2001 ∧ 2000 < 2001 := by decide

theorem wit_windowOld : 0 < 977 ∧ 977 ≤ 2000 ∧ 2000 ≤ 977 + 1023 ∧ [2000].contains 977 = false := by decide

theorem wit_windowPast : 976 + 1023 < 2000 := by decide

theorem wit_windowSeen : 2000 ≤ 2000 ∧ [2000].contains 2000 = true := by decide

theorem wit_recTag : 4 = recSession (rec4 2001).port (rec4 2001).session ∧ hubUp (sSess sess2) 0 = true ∧ portUp (sSess sess2) (rec4 2001).port = true ∧ portHub (sSess sess2) (rec4 2001).port = 0 ∧ getSess? (sSess sess2) 4 = some sess2 ∧ (rec4 2001).version = 1 := by decide

theorem wit_recReplay : 4 = recSession (rec4 2000).port (rec4 2000).session ∧ hubUp (sSess sess2) 0 = true ∧ portUp (sSess sess2) (rec4 2000).port = true ∧ portHub (sSess sess2) (rec4 2000).port = 0 ∧ getSess? (sSess sess2) 4 = some sess2 ∧ (rec4 2000).version = 1 ∧ 2 ≤ sess2.state ∧ (rec4 2000).tagOk = true ∧ nhas sess2.secrets ((rec4 2000).phase % 4) = true ∧ windowTake (vget sess2.wins 0 ({ } : Window1)) (rec4 2000).seq = none := by decide

theorem wit_rec : recAccepted (sSess sess2) 0 (rec4 977) 4 sess2 (win4 977) := by unfold recAccepted; decide

theorem wit_recTelegram : recAccepted (sSess sess2) 0 (rec4 977) 4 sess2 (win4 977) ∧ (4096 * 255 + 4) % 4096 = 4 ∧ 1 ≤ (4096 * 255 + 4) / 4096 ∧ (4096 * 255 + 4) / 4096 ≤ 255 ∧ [BitVec.ofNat 8 1].length ≤ min 4088 (gv (sSess sess2) E.conMtu - 68) := by unfold recAccepted; decide

theorem wit_recDap : recAccepted (sSess sess2) 0 (rec4 2001) 4 sess2 (win4 2001) ∧ nget? (sSess sess2).sup.ctxs (sessCtx 4) = some ({ role := 1 } : Context) ∧ req4 = ({ ctx := sessCtx 4, due := (sSess sess2).cyc.k + 2, reqId := msg0.reqId, index := msg0.index, sub := msg0.sub, hubs := 2 ^ 0, seq := (rec4 2001).seq } : Request) ∧ 1 ≤ 1 ∧ 1 ≤ 5 ∧ msg0.version = 1 ∧ msg0.flags = 0 ∧ msg0.plen = msg0.body.length ∧ sess2.taken.contains (rec4 2001).seq = false ∧ List.foldl max 0 sess2.taken < (rec4 2001).seq + 1024 ∧ shedClosing (sSess sess2) (rec4 2001).port = false ∧ 0 < 16 ∧ needsDerivation (sSess sess2) 1 msg0 = false := by unfold recAccepted; decide

theorem wit_recDapBad : recAccepted (sSess sess2) 0 (rec4 2001) 4 sess2 (win4 2001) ∧ nget? (sSess sess2).sup.ctxs (sessCtx 4) = some ({ role := 1 } : Context) ∧ { req4 with op := 0 } = ({ ctx := sessCtx 4, due := (sSess sess2).cyc.k + 2, reqId := msg0.reqId, op := 0, index := msg0.index, sub := msg0.sub, hubs := 2 ^ 0, seq := (rec4 2001).seq } : Request) ∧ ¬(1 ≤ 0 ∧ 0 ≤ 5 ∧ msg0.version = 1 ∧ msg0.flags = 0 ∧ msg0.plen = msg0.body.length) ∧ sess2.taken.contains (rec4 2001).seq = false ∧ List.foldl max 0 sess2.taken < (rec4 2001).seq + 1024 ∧ shedClosing (sSess sess2) (rec4 2001).port = false := by unfold recAccepted; decide

theorem wit_recDapShut : recAccepted sShutPort 0 (rec4 2001) 4 sess2 (win4 2001) ∧ nget? sShutPort.sup.ctxs (sessCtx 4) = some ({ role := 1 } : Context) ∧ req4 = ({ ctx := sessCtx 4, due := sShutPort.cyc.k + 2, reqId := msg0.reqId, index := msg0.index, sub := msg0.sub, hubs := 2 ^ 0, seq := (rec4 2001).seq } : Request) ∧ 1 ≤ 1 ∧ 1 ≤ 5 ∧ msg0.version = 1 ∧ msg0.flags = 0 ∧ msg0.plen = msg0.body.length ∧ shedClosing sShutPort (rec4 2001).port = true ∧ 0 < 16 := by unfold recAccepted; decide

theorem wit_recTaken : recAccepted (sSess sessTaken) 0 (rec4 2001) 4 sessTaken (win4 2001) ∧ shedClosing (sSess sessTaken) (rec4 2001).port = false ∧ sessTaken.taken.contains (rec4 2001).seq = true := by unfold recAccepted; decide

theorem wit_rekey : recAccepted (sSess sess2) 0 (rec4 2001) 4 sess2 (win4 2001) ∧ ¬((heardBy 0 (rec4 2001) sess2 (win4 2001)).state = 3 ∧ (heardBy 0 (rec4 2001) sess2 (win4 2001)).rekeyMine = none) ∧ (∀ (x : ℕ), (heardBy 0 (rec4 2001) sess2 (win4 2001)).phaseChanged = some x → x + 10000000000 ≤ (rec4 2001).t) := by unfold recAccepted; decide

theorem wit_rekeyIgnored : recAccepted (sSess sess3b) 0 (rec4 2001) 4 sess3b (win4 2001) ∧ (heardBy 0 (rec4 2001) sess3b (win4 2001)).state = 3 ∧ (heardBy 0 (rec4 2001) sess3b (win4 2001)).rekeyMine = none := by unfold recAccepted; decide

theorem wit_rekeyAnswer : recAccepted (sSess sess3) 0 (rec4 2001) 4 sess3 (win4 2001) ∧ (heardBy 0 (rec4 2001) sess3 (win4 2001)).rekeyMine = some (100, 1, 5) := by unfold recAccepted; decide

theorem wit_ownRekey : getSess? (sSess sess2) 4 = some sess2 ∧ sess2.state = 2 ∧ (sess2.phaseBegan + gv (sSess sess2) E.sessRekeyInterval * 1000000000 ≤ 100 + gv (sSess sess2) E.sessRekeyInterval * 1000000000 ∨ 2 ^ 32 ≤ sess2.sealedCount ∨ 2 ^ 32 ≤ sess2.recvCount) := by decide

theorem wit_rekeyRetry : getSess? (sSess sess3) 4 = some sess3 ∧ sess3.rekeyMine = some (100, 1, 5) ∧ 100 + 2000000000 ≤ 2000000100 ∧ 1 < 3 := by decide

theorem wit_rekeyGivenUp : getSess? (sSess sess3c) 4 = some sess3c ∧ sess3c.rekeyMine = some (100, 3, 5) ∧ 100 + 2000000000 ≤ 2000000100 ∧ 3 ≤ 3 := by decide

theorem wit_keyErase : getSess? (sSess sess3) 4 = some sess3 ∧ sess3.oldUntil = some 9000 ∧ 9000 ≤ 9000 := by decide

theorem wit_idlePing : getSess? (sSess sess2) 4 = some sess2 ∧ 2 ≤ sess2.state ∧ sess2.lastTx + gv (sSess sess2) E.sessIdleLimit * 1000000000 / 3 ≤ 100 + gv (sSess sess2) E.sessIdleLimit * 1000000000 / 3 := by decide

theorem wit_idleTimeout : getSess? (sSess sess2) 4 = some sess2 ∧ 2 ≤ sess2.state ∧ sess2.lastRx + gv (sSess sess2) E.sessIdleLimit * 1000000000 ≤ 100 + gv (sSess sess2) E.sessIdleLimit * 1000000000 := by decide

theorem wit_pathForget : getSess? (sSess sess2) 4 = some sess2 ∧ sess2.pathA = some path0 ∧ path0.at_ + gv (sSess sess2) E.sessIdleLimit * 1000000000 ≤ 100 + gv (sSess sess2) E.sessIdleLimit * 1000000000 := by decide

theorem wit_certExpiry : getSess? { sSess sess2 with sup := { (sSess sess2).sup with tp := { (sSess sess2).sup.tp with utcValid := true } } } 4 = some sess2 ∧ 2 ≤ sess2.state ∧ sess2.notAfter = some 1000000000 ∧ ↑1000000000 < ↑(sSess sess2).cyc.tk + (sSess sess2).sup.tp.utcOffset := by decide

theorem wit_sessClose : getSess? (sSel4 sess2) 4 = some sess2 ∧ accepts (sSel4 sess2) E.sessClose 2 13570 7 1 ∧ chosen (sSel4 sess2) E.sessClose 2 = 4 := by unfold accepts; decide

theorem wit_sessReserve : accepts sGo E.sessReserve 2 13568 159 (77 + 4 * 2 ^ 128 + 65535 * 2 ^ 144) ∧ reserveConds sGo (mkW sGo 2 13568 159 E.sessReserve.len (77 + 4 * 2 ^ 128 + 65535 * 2 ^ 144) E.sessReserve) = [] := by unfold accepts; decide

theorem wit_sessDeny : accepts sGo E.sessDeny 2 13568 160 77 := by unfold accepts; decide

/-! ## Twin -/

/-- Store an entry's value. -/
def put (e : Entry) (v : Nat) (s : State) : State := svx s e e.idx e.sub 0 v
/-- Twins of nodes 5 and 6, all links in service, this module in lease state `l` with home setting `home`. -/
def sTwinOf (l home : Nat) (f : Twin → Twin) : State :=
  let s := { sGo with st.ports := true }
  put E.twinEnable 1 (put E.bbConfigNode 5 (put E.twinPeerNode 6 (put E.twinHome home
    { s with twin := f { lease := l, paired := true, hadPair := true, mode := 1, links := Vector.replicate 4 { session := true, rxSeq := 9 } } })))
def sTwinIs (l : Nat) : State := sTwinOf l 1 id
def sUnpaired (l : Nat) : State := sTwinOf l 1 (fun t => { t with paired := false, hadPair := false, links := Vector.replicate 4 {} })
def twinHello0 : TwinHello := { serial := 44, gen := gv (sUnpaired 5) E.compatGen, node := 6, home := 2, n := gv (sUnpaired 5) E.bbCrossingN }
def sYield : State := sTwinOf 3 2 (fun t => { t with yieldReq := true })
def sAcked : State := sTwinOf 3 1 (fun t => { t with renewSent := [(7, 1000)] })
def sClaimed (own : Nat) : State := sTwinOf 2 1 (fun t => { t with claimAt := some own, claimSent := 500 })
def sHolds (h : Nat) : State := sTwinOf 3 1 (fun t => { t with heldFrom := h })
def sTake (l : Nat) (a : Option Nat) (e : Nat) : State := sTwinOf l 1 (fun t => { t with takeAt := a, eS := e })
def sPaired1 : State := sTwinOf 1 1 (fun t => { t with pairedAt := 1000 })
def sAloneWait : State := put E.twinAloneWait 2 (sTwinOf 2 1 (fun t => { t with heard := 1000 }))
def sRevert : State := { sTwinOf 2 1 (fun t => { t with revertSince := some 1000 }) with sup.mode := 1 }
def sForeignHold (l : Nat) : State := sTwinOf l 1 (fun t => { t with links := Vector.replicate 4 {}, foreignHold := 2, foreignK := 4 })
def shadow0 (k : Nat) : ShadowItem := { hub := 0, k := k, item := {} }
def sTSeen : State := sTwinOf 2 1 (fun t => { t with links := Vector.replicate 4 { session := true, rxSeq := 9, seen := [9, 8] } })
def sShadow : State := sTwinOf 2 1 (fun t => { t with shadow := [shadow0 0, shadow0 1] })
/-- A mirrored stall 3 in mirror state `m`. -/
def mirStall (m : Nat) : Stall := { state := .running, desc := desc0, exec := exec0, mirrorSt := m, catchStart := some 1000 }
def sMirror (m : Nat) : State := { sTwinIs 2 with sup.stalls := [(3, mirStall m)] }
/-- The same, with the digest 77 of its last checkpoint, of crossing 8. -/
def mirStallCk (m : Nat) : Stall := { mirStall m with ckTw := some (8, 77) }
def sMirrorCk (m : Nat) : State := { sTwinIs 2 with sup.stalls := [(3, mirStallCk m)] }
/-- A record of crossing `k` is held, taken from hub `h`. -/
def sMirrorHeld (k h : Nat) : State := { sTwinIs 2 with twin.record := some { crossing := k }, twin.recordHub := h }
def mir0 : MirrorRec := { crossing := 9, writes := [(1, 2, 3, 4)], seqs := [(1, 2)], timed := [(3, true, 5)] }
def catch0 (j : Bool) (d : Nat) : CatchUp := { join := j, cells := [(0x20000000, 9), (0x10000000, 9)], regs := List.replicate 32 7, dirty := d, nextTag := 5 }
def sLate : State := { sMirror 4 with cyc.tk := 10000001000 }
def sStopMode (l : Nat) : State := { sTwinIs l with sup.mode := 2 }
def mirAfter : Stall := { mirStall 4 with exec.mem := mput (mirStall 4).exec.mem 0x20000000 9 }

theorem wit_twinHello : gv (sUnpaired 5) E.twinEnable = 1 ∧ hubUp (sUnpaired 5) (1 / 2) = true ∧ (sUnpaired 5).st.ports = true ∧ (vget (sUnpaired 5).ilinks (30 + 1) ({ } : ILink)).failed = false ∧ helloPairs (sUnpaired 5) twinHello0 := by unfold helloPairs; decide

theorem wit_twinHelloFails : gv (sUnpaired 5) E.twinEnable = 1 ∧ hubUp (sUnpaired 5) (1 / 2) = true ∧ (sUnpaired 5).st.ports = true ∧ (vget (sUnpaired 5).ilinks (30 + 1) ({ } : ILink)).failed = false ∧ ¬helloPairs (sUnpaired 5) { twinHello0 with gen := 200 } := by unfold helloPairs; decide

theorem wit_keepalive : twinLinkUp (sTwinIs 2) 3 = true ∧ (getTLink (sTwinIs 2) 3).lastTx + 1000 ≤ 1000 ∧ hubSends (sTwinIs 2) (3 / 2) = true := by decide

theorem wit_renewSend : (sTwinIs 3).twin.lease = 3 ∧ 8000 % 8000 = 0 ∧ twinLinks (sTwinIs 3) ≠ [] ∧ 1 = (sTwinIs 3).twin.renewCount + 1 := by decide

theorem wit_renew : twinPasses (sTwinIs 2) 1 10 true ∧ holdsLease (sTwinIs 2) = false := by unfold twinPasses; decide

theorem wit_renewAtHolder : twinPasses (sTwinIs 3) 1 10 true ∧ holdsLease (sTwinIs 3) = true := by unfold twinPasses; decide

theorem wit_ack : twinPasses sAcked 1 10 true ∧ sAcked.twin.lease = 3 ∧ nget? sAcked.twin.renewSent 7 = some 1000 := by unfold twinPasses; decide

theorem wit_claimHome : twinPasses (sTwinOf 3 2 id) 1 10 true ∧ (sTwinOf 3 2 id).twin.lease = 3 ∧ gv (sTwinOf 3 2 id) E.twinHome = 2 ∧ (sTwinOf 3 2 id).twin.mode = 1 := by unfold twinPasses; decide

theorem wit_claimLoses : twinPasses (sClaimed 8) 1 10 true ∧ holdsLease (sClaimed 8) = false ∧ (sClaimed 8).twin.claimAt = some 8 ∧ winsClaim (sClaimed 8) 8 16 = true := by unfold twinPasses; decide

theorem wit_claimWinsHolder : twinPasses (sHolds 16) 1 10 true ∧ holdsLease (sHolds 16) = true ∧ winsClaim (sHolds 16) (sHolds 16).twin.heldFrom 8 = false := by unfold twinPasses; decide

theorem wit_claimWins : twinPasses (sClaimed 16) 1 10 true ∧ holdsLease (sClaimed 16) = false ∧ (sClaimed 16).twin.claimAt = some 16 ∧ winsClaim (sClaimed 16) 16 8 = false := by unfold twinPasses; decide

theorem wit_release' : twinPasses (sTwinIs 2) 1 10 true ∧ ((sTwinIs 2).twin.lease = 1 ∨ (sTwinIs 2).twin.lease = 2) ∧ (sTwinIs 2).twin.takeAt = none := by unfold twinPasses; decide

theorem wit_twinDiscard : gv sTSeen E.twinEnable = 1 ∧ twinLinkUp sTSeen 1 = true ∧ hubUp sTSeen (1 / 2) = true ∧ (true = false ∨ (getTLink sTSeen 1).seen.contains 9 = true) := by decide

theorem wit_leaseCease : (sTwinIs 3).twin.lease = 3 ∧ leaseEnd (sTwinIs 3) ≤ 100 + 4000 := by decide

theorem wit_leaseTake : ((sTake 1 (some 100) 0).twin.lease = 1 ∨ (sTake 1 (some 100) 0).twin.lease = 2) ∧ ((∃ (x : ℕ), (sTake 1 (some 100) 0).twin.takeAt = some x ∧ x ≤ 100) ∨ (sTake 1 (some 100) 0).twin.lease = 2 ∧ ((sTake 1 (some 100) 0).twin.eS ≠ 0 ∨ (sTake 1 (some 100) 0).twin.longHeard = true) ∧ leaseEnd (sTake 1 (some 100) 0) + 4000 ≤ 100) := by decide

theorem wit_listenClaim : sPaired1.twin.lease = 1 ∧ sPaired1.twin.paired = true ∧ sPaired1.twin.pairedAt + 100000 ≤ 101000 ∧ sPaired1.twin.claimAt = none ∧ sPaired1.twin.noClaim = false := by decide

theorem wit_aloneWait : gv sAloneWait E.twinAloneWait ≠ 0 ∧ (sAloneWait.twin.lease = 1 ∨ sAloneWait.twin.lease = 2) ∧ max sAloneWait.twin.heard sAloneWait.twin.aloneFrom + gv sAloneWait E.twinAloneWait * 1000000000 ≤ 2000001000 := by decide

theorem wit_revert : sRevert.twin.revertSince = some 1000 ∧ revertOk sRevert = true ∧ 1000 + gv sRevert E.twinRevertDelay * 1000000000 ≤ 1000 + gv sRevert E.twinRevertDelay * 1000000000 ∧ sRevert.twin.homeClaim = false := by decide

theorem wit_foreignHold : holdsLease (sForeignHold 3) = true ∧ twinLinks (sForeignHold 3) = [] ∧ 2 ≤ (sForeignHold 3).twin.foreignHold ∧ (sForeignHold 3).cyc.k ≤ (sForeignHold 3).twin.foreignK + 1 := by decide

theorem wit_mirror : twinPasses (sTwinIs 2) 1 10 true ∧ holdsLease (sTwinIs 2) = false ∧ (∀ (x : MirrorRec), (sTwinIs 2).twin.record = some x → x.crossing < mir0.crossing) ∧ mir0.digests = [] ∧ mir0.tags = [] := by unfold twinPasses; decide

theorem wit_mirrorTag : twinPasses (sMirror 2) 1 10 true ∧ holdsLease (sMirror 2) = false ∧ (∀ (x : MirrorRec), (sMirror 2).twin.record = some x → x.crossing < mir0.crossing) ∧ mir0.digests = [] ∧ getStall? (sMirror 2) 3 = some (mirStall 2) ∧ (mirStall 2).mirrorSt = 2 := by unfold twinPasses; decide

theorem wit_mirrorDiffer : twinPasses (sMirrorCk 2) 1 10 true ∧ holdsLease (sMirrorCk 2) = false ∧ (∀ (x : MirrorRec), (sMirrorCk 2).twin.record = some x → x.crossing < mir0.crossing) ∧ mir0.tags = [] ∧ getStall? (sMirrorCk 2) 3 = some (mirStallCk 2) ∧ (mirStallCk 2).mirrorSt = 2 ∧ (mirStallCk 2).ckTw = some (8, 77) ∧ 8 + 1 = mir0.crossing ∧ 77 ≠ 8 := by unfold twinPasses; decide

theorem wit_mirrorAgree : twinPasses (sMirrorCk 2) 1 10 true ∧ holdsLease (sMirrorCk 2) = false ∧ (∀ (x : MirrorRec), (sMirrorCk 2).twin.record = some x → x.crossing < mir0.crossing) ∧ mir0.tags = [] ∧ getStall? (sMirrorCk 2) 3 = some (mirStallCk 2) ∧ (mirStallCk 2).mirrorSt = 2 ∧ (mirStallCk 2).ckTw = some (8, 77) ∧ (8 + 1 ≠ mir0.crossing ∨ 77 = 77) := by unfold twinPasses; decide

theorem wit_mirrorOld : twinPasses (sMirrorHeld 10 0) 1 10 true ∧ holdsLease (sMirrorHeld 10 0) = false ∧ (sMirrorHeld 10 0).twin.record = some ({ crossing := 10 } : MirrorRec) ∧ mir0.crossing < 10 := by unfold twinPasses; decide

theorem wit_mirrorCopy : twinPasses (sMirrorHeld 9 0) 2 10 true ∧ holdsLease (sMirrorHeld 9 0) = false ∧ (sMirrorHeld 9 0).twin.record = some ({ crossing := 9 } : MirrorRec) ∧ mir0.crossing = 9 := by unfold twinPasses; decide

theorem wit_mirrorCopyHA : twinPasses (sMirrorHeld 9 1) 1 10 true ∧ holdsLease (sMirrorHeld 9 1) = false ∧ (sMirrorHeld 9 1).twin.record = some ({ crossing := 9 } : MirrorRec) ∧ mir0.crossing = 9 := by unfold twinPasses; decide

theorem wit_catchup : getStall? (sMirror 4) 3 = some (mirStall 4) ∧ (mirStall 4).mirrorSt = 4 ∧ mirAfter = { mirStall 4 with exec := { (mirStall 4).exec with mem := List.foldl (fun (m : Mem) (x : ℕ × Byte) => mput m x.1 x.2) (mirStall 4).exec.mem (List.filter (fun (x : ℕ × Byte) => canWrite (mirStall 4).desc x.1) (catch0 false 0).cells) } } ∧ twinPasses (sMirror 4) 1 10 true ∧ (catch0 false 0).join = false := by unfold twinPasses; decide

theorem wit_catchupJoin : getStall? (sMirror 4) 3 = some (mirStall 4) ∧ (mirStall 4).mirrorSt = 4 ∧ mirAfter = { mirStall 4 with exec := { (mirStall 4).exec with mem := List.foldl (fun (m : Mem) (x : ℕ × Byte) => mput m x.1 x.2) (mirStall 4).exec.mem (List.filter (fun (x : ℕ × Byte) => canWrite (mirStall 4).desc x.1) (catch0 true 131072).cells) } } ∧ twinPasses (sMirror 4) 1 10 true ∧ (catch0 true 131072).join = true ∧ (catch0 true 131072).dirty ≤ 131072 := by unfold twinPasses; decide

theorem wit_catchupTimeout : getStall? sLate 3 = some (mirStall 4) ∧ (mirStall 4).mirrorSt = 4 ∧ mirAfter = { mirStall 4 with exec := { (mirStall 4).exec with mem := List.foldl (fun (m : Mem) (x : ℕ × Byte) => mput m x.1 x.2) (mirStall 4).exec.mem (List.filter (fun (x : ℕ × Byte) => canWrite (mirStall 4).desc x.1) (catch0 true 131072).cells) } } ∧ (mirStall 4).catchStart = some 1000 ∧ 1000 + 10000000000 ≤ sLate.cyc.tk := by decide

theorem wit_twinOn : accepts { sStopMode 0 with sup := { (sStopMode 0).sup with dict := sGo.sup.dict } } E.twinEnable 2 14336 1 1 ∧ (sStopMode 0).twin.lease = 0 := by unfold accepts; decide

theorem wit_twinOff : accepts (sStopMode 3) E.twinEnable 2 14336 1 0 := by unfold accepts; decide

theorem wit_doParallel : accepts (sStopMode 3) E.twinDoParallel 2 14336 14 2147483649 ∧ (∀ c < 32, bit 2147483649 c = true → safetyPoint (sStopMode 3) false 2 c = false) := by unfold accepts; decide

/-! ## Bridge -/

/-- Window 1's definition: kind, interface, capacity, address and qualifier. -/
def winD (kind ifc cap addr qual : Nat) : Nat := kind + ifc * 2 ^ 8 + 0xFFFF * 2 ^ 16 + cap * 2 ^ 48 + addr * 2 ^ 64 + qual * 2 ^ 96
/-- Every interface is active; window 1 has this definition and state. -/
def sWin (d : Nat) (w : BWin) : State :=
  { sGo with br.ifs := Vector.replicate 6 { state := 1 }, br.defs := [(1, d)], br.wins := [(1, w)] }
def dMvbIn : Nat := winD 1 1 4 0x1010 0
def dMvbOut : Nat := winD 2 1 4 0x1010 0
def dMsg (cap : Nat) : Nat := winD 3 1 cap 0 0
def dCan : Nat := winD 4 3 2 0x123 0x7FF
def dCanRead : Nat := winD 5 3 2 0x123 0x124
def dSer (cap : Nat) : Nat := winD 6 5 cap 0 0
def can0 (i : Nat) : CanFrame := { id := i, data := [1, 2] }
def read0 : BOp := { stall := 3, tag := 9, read := true }
def write0 : BOp := { stall := 3, tag := 9, read := false, data := [1, 2, 3, 4] }
def wReads : BWin := { reading := some (read0, 100) }
def wWord (n : Nat) : BWin := { word := List.replicate n 5, wordAt := 100 }
def sSer (n : Nat) : State :=
  let s := sWin (dSer 4) (wWord n)
  { s with br.ifs := vupd s.br.ifs 4 (fun x => { x with lastByte := some 100 }) }
def sSerGap : State := put E.serGap 5 (sSer 3)
def sBusOff : State :=
  let s := sWin dCan {}
  { s with br.ifs := vupd s.br.ifs 2 (fun x => { x with state := 3, busOff := some 100 }) }
def group0 : SemGroup := { holder := some 3, since := 1, waits := [4, 5] }
def sLocked : State := { sGo with cyc.k := 1 + gv sGo E.brLockLimit + 1, sup.groups := [(2, group0)] }
def wWrites : BWin := { ops := [write0] }
/-- HA is to send an administrator list. -/
def sAdmin : State := put E.mvbBaEnable 1 (put E.mvbBaList 1 { sWin dMvbIn {} with
  upd.loft := [(1, { kind := 4, state := 2, header := List.replicate 6 0 ++ u8 4 })], upd.roots := Vector.replicate 4 { kinds := 16 } })
def sVoterOut : State := { sGo with hubs := vupd sGo.hubs 0 (fun d => { d with voter.inService := false }), br.master := true, br.ifs := Vector.replicate 6 { state := 1 } }

theorem wit_mvbPort : (getIf (sWin dMvbIn ({ } : BWin)) (0 + 1)).state ≠ 0 ∧ onlyWindow (sWin dMvbIn ({ } : BWin)) (fun (d : ℕ) => decide (winKind d = 1) && decide (winIfc d = 0 + 1) && decide (winPort d ≤ 17) && decide (17 < winPort d + winCap d)) 1 ∧ [BitVec.ofNat 8 1, BitVec.ofNat 8 2, BitVec.ofNat 8 3, BitVec.ofNat 8 4].length = portSize (winFcode (winDef (sWin dMvbIn ({ } : BWin)) 1)) := by unfold onlyWindow; decide

theorem wit_mvbMessage : (getIf (sWin (dMsg 2) ({ resume := true } : BWin)) (0 + 1)).state ≠ 0 ∧ (List.replicate 32 (BitVec.ofNat 8 5)).length = 32 ∧ onlyWindow (sWin (dMsg 2) ({ resume := true } : BWin)) (fun (d : ℕ) => decide (winKind d = 3) && decide (winIfc d = 0 + 1)) 1 ∧ winKind (winDef (sWin (dMsg 2) ({ resume := true } : BWin)) 1) = 3 ∧ takesRecs (sWin (dMsg 2) ({ resume := true } : BWin)) 1 1 := by unfold onlyWindow takesRecs; decide

theorem wit_mvbMessageFull : (getIf (sWin (dMsg 0) ({ } : BWin)) (0 + 1)).state ≠ 0 ∧ (List.replicate 32 (BitVec.ofNat 8 5)).length = 32 ∧ onlyWindow (sWin (dMsg 0) ({ } : BWin)) (fun (d : ℕ) => decide (winKind d = 3) && decide (winIfc d = 0 + 1)) 1 ∧ winKind (winDef (sWin (dMsg 0) ({ } : BWin)) 1) = 3 ∧ (getWin (sWin (dMsg 0) ({ } : BWin)) 1).sound = true ∧ winCap (winDef (sWin (dMsg 0) ({ } : BWin)) 1) ≤ (getWin (sWin (dMsg 0) ({ } : BWin)) 1).queue.length := by unfold onlyWindow; decide

theorem wit_canFrame : (getIf (sWin dCan ({ } : BWin)) (0 + 3)).state ≠ 0 ∧ (getIf (sWin dCan ({ } : BWin)) (0 + 3)).state ≠ 3 ∧ takesRecs (sWin dCan ({ } : BWin)) 1 1 ∧ (winsWhere (sWin dCan ({ } : BWin)) fun (d : ℕ) => decide (winKind d = 4) && decide (winIfc d = 0 + 3) && canMatches d (can0 291)) = [1] ∧ (winsWhere (sWin dCan ({ } : BWin)) fun (d : ℕ) => decide (winKind d = 5) && decide (winIfc d = 0 + 3) && canAnswers d (can0 291)) = [] ∧ winKind (winDef (sWin dCan ({ } : BWin)) 1) = 4 := by unfold takesRecs; decide

theorem wit_canAnswer : (getIf (sWin dCanRead wReads) (0 + 3)).state ≠ 0 ∧ (getIf (sWin dCanRead wReads) (0 + 3)).state ≠ 3 ∧ takesRecs (sWin dCanRead wReads) 1 1 ∧ (winsWhere (sWin dCanRead wReads) fun (d : ℕ) => decide (winKind d = 4) && decide (winIfc d = 0 + 3) && canMatches d (can0 292)) = [] ∧ (winsWhere (sWin dCanRead wReads) fun (d : ℕ) => decide (winKind d = 5) && decide (winIfc d = 0 + 3) && canAnswers d (can0 292)) = [1] ∧ winKind (winDef (sWin dCanRead wReads) 1) = 5 ∧ (getWin (sWin dCanRead wReads) 1).reading = some (read0, 100) := by unfold takesRecs; decide

theorem wit_canOther : (getIf (sWin dCan ({ } : BWin)) (0 + 3)).state ≠ 0 ∧ (getIf (sWin dCan ({ } : BWin)) (0 + 3)).state ≠ 3 ∧ takesRecs (sWin dCan ({ } : BWin)) 1 1 ∧ (winsWhere (sWin dCan ({ } : BWin)) fun (d : ℕ) => decide (winKind d = 4) && decide (winIfc d = 0 + 3) && canMatches d (can0 290)) = [] ∧ (winsWhere (sWin dCan ({ } : BWin)) fun (d : ℕ) => decide (winKind d = 5) && decide (winIfc d = 0 + 3) && canAnswers d (can0 290)) = [] := by unfold takesRecs; decide

theorem wit_serByte : wWord 6 = getWin (sSer 6) 1 ∧ (getIf (sSer 6) (0 + 5)).state ≠ 0 ∧ onlyWindow (sSer 6) (fun (d : ℕ) => decide (winKind d = 6) && decide (winIfc d = 0 + 5)) 1 ∧ winKind (winDef (sSer 6) 1) = 6 ∧ (wWord 6).reading = none ∧ takesRecs (sSer 6) 1 2 ∧ (wWord 6).word.length < 7 := by unfold onlyWindow takesRecs; decide

theorem wit_serWord : wWord 7 = getWin (sSer 7) 1 ∧ (getIf (sSer 7) (0 + 5)).state ≠ 0 ∧ onlyWindow (sSer 7) (fun (d : ℕ) => decide (winKind d = 6) && decide (winIfc d = 0 + 5)) 1 ∧ winKind (winDef (sSer 7) 1) = 6 ∧ (wWord 7).reading = none ∧ takesRecs (sSer 7) 1 2 ∧ (wWord 7).word.length = 7 := by unfold onlyWindow takesRecs; decide

theorem wit_serEnd : wWord 3 = getWin sSerGap 1 ∧ (getIf sSerGap (0 + 5)).state ≠ 0 ∧ onlyWindow sSerGap (fun (d : ℕ) => decide (winKind d = 6) && decide (winIfc d = 0 + 5)) 1 ∧ winKind (winDef sSerGap 1) = 6 ∧ (wWord 3).reading = none ∧ takesRecs sSerGap 1 2 ∧ (getIf sSerGap (0 + 5)).lastByte = some 100 ∧ gv sSerGap E.serGap ≠ 0 ∧ 100 + gv sSerGap E.serGap * 1000 ≤ 5100 := by unfold onlyWindow takesRecs; decide

theorem wit_serPack : wWord 3 = getWin (sSer 3) 1 ∧ (getIf (sSer 3) (0 + 5)).state ≠ 0 ∧ onlyWindow (sSer 3) (fun (d : ℕ) => decide (winKind d = 6) && decide (winIfc d = 0 + 5)) 1 ∧ winKind (winDef (sSer 3) 1) = 6 ∧ (wWord 3).reading = none ∧ takesRecs (sSer 3) 1 2 ∧ (wWord 3).word ≠ [] ∧ (wWord 3).wordAt + gv (sSer 3) E.brPackTimeout * (sSer 3).cyc.c ≤ (sSer 3).cyc.tk + (sSer 3).cyc.c := by unfold onlyWindow takesRecs; decide

theorem wit_busOff : (getIf (sWin dCan ({ } : BWin)) (0 + 3)).state ≠ 0 ∧ (getIf (sWin dCan ({ } : BWin)) (0 + 3)).state ≠ 3 := by decide

theorem wit_restartHold : (getIf sBusOff (0 + 3)).busOff = some 100 ∧ (getIf sBusOff (0 + 3)).state = 3 ∧ 100 + gv sBusOff E.canRestartHold * 1000000 ≤ 100 + gv sBusOff E.canRestartHold * 1000000 := by decide

theorem wit_lineState : (getIf (sWin dMvbIn ({ } : BWin)) (1 + 1)).state ≠ 0 ∧ (2 = if (true && false) = true then 1 else if (true || false) = true then 2 else 3) := by decide

theorem wit_transmit : dCanRead = winDef (sWin dCanRead ({ ops := [read0] } : BWin)) 1 ∧ dCanRead ≠ 0 ∧ ({ ops := [read0] } : BWin) = getWin (sWin dCanRead ({ ops := [read0] } : BWin)) 1 ∧ (getIf (sWin dCanRead ({ ops := [read0] } : BWin)) (winIfc dCanRead)).state ≠ 0 ∧ (getIf (sWin dCanRead ({ ops := [read0] } : BWin)) (winIfc dCanRead)).state ≠ 3 ∧ hubSends (sWin dCanRead ({ ops := [read0] } : BWin)) (winHub dCanRead) = true ∧ (sWin dCanRead ({ ops := [read0] } : BWin)).agree.lost = false ∧ (winKind dCanRead = 6 → serBusy (sWin dCanRead ({ ops := [read0] } : BWin)) (winIfc dCanRead) = false) ∧ [] = List.take (unitLen dCanRead read0) (List.drop read0.sent read0.data) ∧ winKind dCanRead ≠ 2 := by decide

theorem wit_transmitPort : dMvbOut = winDef (sWin dMvbOut wWrites) 1 ∧ dMvbOut ≠ 0 ∧ wWrites = getWin (sWin dMvbOut wWrites) 1 ∧ wWrites.ops = [write0] ∧ wWrites.reading = none ∧ (getIf (sWin dMvbOut wWrites) (winIfc dMvbOut)).state ≠ 0 ∧ (getIf (sWin dMvbOut wWrites) (winIfc dMvbOut)).state ≠ 3 ∧ hubSends (sWin dMvbOut wWrites) (winHub dMvbOut) = true ∧ (sWin dMvbOut wWrites).agree.lost = false ∧ (winKind dMvbOut = 6 → serBusy (sWin dMvbOut wWrites) (winIfc dMvbOut) = false) ∧ List.take (unitLen dMvbOut write0) (List.drop write0.sent write0.data) = List.take (unitLen dMvbOut write0) (List.drop write0.sent write0.data) ∧ winKind dMvbOut = 2 ∧ (write0.offset + write0.sent) % portSize (winFcode dMvbOut) = 0 ∧ portSize (winFcode dMvbOut) ≤ write0.data.length - write0.sent := by decide

theorem wit_readTimeout : (getWin (sWin dCanRead wReads) 1).reading = some (read0, 100) ∧ 100 + gv (sWin dCanRead wReads) E.brReadTimeout * 1000000 ≤ 100 + gv sGo E.brReadTimeout * 1000000 ∧ winKind (winDef (sWin dCanRead wReads) 1) = 5 ∧ takesRecs (sWin dCanRead wReads) 1 1 := by unfold takesRecs; decide

theorem wit_lockLimit : nget? sLocked.sup.groups 2 = some group0 ∧ group0.holder = some 3 ∧ group0.since + gv sLocked E.brLockLimit < sLocked.cyc.k := by decide

theorem wit_window' : accepts sGo E.brWindow 2 14608 1 dCan ∧ winOk sGo 1 dCan = true := by unfold accepts; decide

theorem wit_masterPort : (getIf (sWin dMvbOut ({ } : BWin)) (0 + 1)).state ≠ 0 ∧ 1 ≠ 12 ∧ hubSends (sWin dMvbOut ({ } : BWin)) 0 = true ∧ (sWin dMvbOut ({ } : BWin)).agree.lost = false ∧ (winsWhere (sWin dMvbOut ({ } : BWin)) fun (d : ℕ) => decide (winKind d = 2) && decide (winIfc d = 0 + 1) && decide (winFcode d = 1) && decide (winPort d ≤ 17) && decide (17 < winPort d + winCap d)) ≠ [] := by decide

theorem wit_masterMessage : (getIf (sWin (dMsg 2) wWrites) (0 + 1)).state ≠ 0 ∧ gvs (sWin (dMsg 2) wWrites) E.mvbDevAddr 1 0 = gvs (sWin (dMsg 2) wWrites) E.mvbDevAddr (0 + 1) 0 ∧ hubSends (sWin (dMsg 2) wWrites) 0 = true ∧ (sWin (dMsg 2) wWrites).agree.lost = false ∧ onlyWindow (sWin (dMsg 2) wWrites) (fun (d : ℕ) => decide (winKind d = 3) && decide (winIfc d = 0 + 1)) 1 ∧ (getWin (sWin (dMsg 2) wWrites) 1).ops = [write0] ∧ write0.read = false ∧ (getWin (sWin (dMsg 2) wWrites) 1).reading = none := by unfold onlyWindow; decide

theorem wit_masterGone : (getIf sVoterOut (0 + 1)).state ≠ 0 ∧ (getHub sVoterOut 0).voter.inService = false := by decide

theorem wit_masterSend (he : ∀ k d g, Config.ecdsaOk k d g = true) (hm : ∀ k d g, Config.mldsaOk k d g = true) :
    (getIf sAdmin (0 + 1)).state ≠ 0 ∧ gv sAdmin E.mvbBaEnable = 1 ∧ hubSends sAdmin 0 = true ∧ sAdmin.agree.lost = false ∧
    useCheck sAdmin (gv sAdmin E.mvbBaList) 4 = 0 :=
  ⟨by decide, by decide, by decide, by decide,
    useCheck_of sAdmin (gv sAdmin E.mvbBaList) 4 { kind := 4, state := 2, header := List.replicate 6 0 ++ u8 4 } he hm rfl (by decide) (by decide)⟩

/-! ## Field, evaluators, analog -/

/-- Both field dies are configured and heard. -/
def sField (f : Field → Field) : State :=
  { sGo with field := f { sGo.field with dies := Vector.replicate 2 { configured := true, fresh := false, cfgSeq := 3, cmd := { seq := 5 } }, cfgSeq := 4 } }
def sDi (d : Di) : State := sField (fun f => { f with di := Vector.replicate 64 d })
/-- Every output as given; safety output 0 is DOX0 when `safe`, and instance 0 drives it. -/
def sDo (safe : Bool) (d : Do) : State :=
  let s := sField (fun f => { f with outs := Vector.replicate 32 d })
  if safe then { s with saf.cfg := nset (nset (nset [] (ekey 0x4200 2 0) 1) (ekey 0x4201 1 0) 1) (ekey 0x4201 11 0) 1 } else s
def sWb (broken : Bool) : State :=
  let s := sDi { broken := broken }
  { s with field.dies := vupd s.field.dies 0 (fun d => { d with cfg := [(ekey E.diWbEnable.idx 2 0, 1)] }) }
def cmd6 : OutCmd := { seq := 6, bits := 5 }
def sDie (f : FieldDie → FieldDie) : State := sField (fun g => { g with dies := vupd g.dies 0 f })
def timed0 : TimedDo := { channel := 3, on := true, at_ := 0 }
/-- Instance 0 of a type: equivalent pairs of these places, permits for output 0, and its state. -/
def sInst (ty : Nat) (pairs : List (Nat × Nat)) (x : SafInst) : State :=
  let s := sField id
  let c := nset (nset (nset (nset [] (ekey 0x4200 2 0) 1) (ekey 0x4201 1 0) ty) (ekey 0x4201 5 0) 0) (ekey 0x4201 11 0) 1
  { s with saf.cfg := pairs.foldl (fun c p => nset c (ekey 0x4201 (2 + p.1) 0) p.2) c, saf.inst := vupd s.saf.inst 0 (fun _ => x) }
def atPair (since s : Nat) : PairSt := { state := s, since := since, activeAt := since, armed := true }
def sDemand : State := sInst 1 [(0, 4)] { state := 3, main := true }
def sIncon : State := sInst 1 [(0, 4)] { state := 3, pa := atPair 5 2 }
def sHeld : State := sInst 2 [(0, 4), (1, 5)] { state := 3, pb := atPair 5 0 }
def sSync : State := sInst 3 [(0, 4), (1, 5)] { state := 2, syncFrom := some 5 }
def sInactive : State := sInst 2 [(0, 4), (1, 5)] { state := 4, cause := 2, inhibit := true, pb := atPair 5 1 }
def sEditing : State := { sGo with saf.edit := some 2 }
def sAi (a : Ai) : State := sField (fun f => { f with ai := Vector.replicate 16 a })
def sCommit : State := { sGo with saf.edit := some 0, saf.pending := [(ekey 0x4201 2 0, 4)] }
def sOpen : State :=
  let s := sDo false { cmd := true }
  { s with field.dies := vupd s.field.dies 0 (fun d => { d with cfg := [(ekey 0x4101 4 3, 1)] }) }
def sCut : State := { sDo true { applied := true } with saf.tests := [(0, { lastSwitch := 1 })] }

theorem wit_diRaw : dieUp (sDi ({ } : Di)) (5 / 32) ∧ (getDi (sDi ({ } : Di)) 5).raw ≠ true := by unfold dieUp; decide

theorem wit_diEdge : dieUp (sDi ({ raw := true, rawAt := 100 } : Di)) (5 / 32) ∧ (getDi (sDi ({ raw := true, rawAt := 100 } : Di)) 5).raw = true ∧ (getDi (sDi ({ raw := true, rawAt := 100 } : Di)) 5).level ≠ true ∧ (getDi (sDi ({ raw := true, rawAt := 100 } : Di)) 5).rawAt + dieCfg (sDi ({ raw := true, rawAt := 100 } : Di)) (5 / 32) E.diFilter 1 5 * 1000 ≤ 100 + dieCfg (sDi ({ } : Di)) 0 E.diFilter 1 5 * 1000 := by unfold dieUp; decide

theorem wit_wireBreak : dieUp (sWb false) (0 / 32) ∧ ((3600, 9000) = if (getDi (sWb false) 0).set = 0 then (600, 1500) else if (getDi (sWb false) 0).set = 1 then (2400, 6000) else (3600, 9000)) ∧ dieCfg (sWb false) (0 / 32) E.diWbEnable 2 0 ≠ 0 ∧ (∀ (i0 : ℕ), (getDi (sWb false) 0).wbSince = some i0 → i0 + 20000000 ≤ 100) ∧ 50 ≤ 3600 ∧ (getDi (sWb false) 0).broken = false := by unfold dieUp; decide

theorem wit_wireHeal : dieUp (sWb true) (0 / 32) ∧ ((3600, 9000) = if (getDi (sWb true) 0).set = 0 then (600, 1500) else if (getDi (sWb true) 0).set = 1 then (2400, 6000) else (3600, 9000)) ∧ dieCfg (sWb true) (0 / 32) E.diWbEnable 2 0 ≠ 0 ∧ (∀ (i0 : ℕ), (getDi (sWb true) 0).wbSince = some i0 → i0 + 20000000 ≤ 100) ∧ 9000 ≤ 9500 ∧ (getDi (sWb true) 0).broken = true := by unfold dieUp; decide

theorem wit_comparatorPass : dieUp (sWb false) (0 / 32) := by unfold dieUp; decide

theorem wit_comparatorFirst : dieUp (sWb false) (0 / 32) ∧ (getDi (sWb false) 0).testFails = 0 := by unfold dieUp; decide

theorem wit_comparatorSecond : dieUp (sDi ({ testFails := 1 } : Di)) (0 / 32) ∧ (getDi (sDi ({ testFails := 1 } : Di)) 0).testFails = 1 := by unfold dieUp; decide

theorem wit_config : dieUp (sField id) 0 ∧ 4 = (sField id).field.cfgSeq ∧ (getDie (sField id) 0).cfgSeq < 4 := by unfold dieUp; decide

theorem wit_configOld : dieUp (sDie fun (d : FieldDie) => { d with cfgSeq := 4 }) 0 ∧ 4 = (sDie fun (d : FieldDie) => { d with cfgSeq := 4 }).field.cfgSeq ∧ (getDie (sDie fun (d : FieldDie) => { d with cfgSeq := 4 }) 0).cfgSeq = 4 ∧ (getDie (sDie fun (d : FieldDie) => { d with cfgSeq := 4 }) 0).configured = true := by unfold dieUp; decide

theorem wit_command : dieUp (sField id) 0 ∧ ((getDie (sField id) 0).fresh = true ∨ (getDie (sField id) 0).cmd.seq < cmd6.seq) := by unfold dieUp; decide

theorem wit_commandCopy : dieUp (sField id) 0 ∧ (getDie (sField id) 0).fresh = false ∧ ({ seq := 5 } : OutCmd) = (getDie (sField id) 0).cmd ∧ (getDie (sField id) 0).silent = false := by unfold dieUp; decide

theorem wit_commandOther : dieUp (sField id) 0 ∧ (getDie (sField id) 0).fresh = false ∧ ({ seq := 5, bits := 7 } : OutCmd) ≠ (getDie (sField id) 0).cmd ∧ 5 = (getDie (sField id) 0).cmd.seq ∧ (getDie (sField id) 0).silent = false := by unfold dieUp; decide

theorem wit_holdOnly : dieUp (sField id) 0 := by unfold dieUp; decide

theorem wit_safeOld : dieUp (sField id) 0 ∧ 4 < (getDie (sField id) 0).cmd.seq := by unfold dieUp; decide

theorem wit_safeNew : dieUp (sField id) 0 ∧ (getDie (sField id) 0).cmd.seq ≤ 5 := by unfold dieUp; decide

theorem wit_silent : dieUp (sInst 1 [(0, 4)] ({ state := 3, main := true } : SafInst)) 0 ∧ getDie (sField id) 0 = getDie (sInst 1 [(0, 4)] ({ state := 3, main := true } : SafInst)) 0 ∧ (getDie (sField id) 0).silent = false ∧ (getDie (sField id) 0).kept = [] ∧ (getDie (sField id) 0).lastAct + dieCfg (sInst 1 [(0, 4)] ({ state := 3, main := true } : SafInst)) 0 E.fieldSilentTimeout 2 0 * 1000000 ≤ dieCfg (sField id) 0 E.fieldSilentTimeout 2 0 * 1000000 := by unfold dieUp; decide

theorem wit_timed : 3 / 16 = 0 ∧ List.find? (fun (a : TimedDo) => decide (a.channel = 3) && decide (a.at_ ≤ fieldTime (sDie fun (d : FieldDie) => { d with timed := [timed0] }) 0 100)) (getDie (sDie fun (d : FieldDie) => { d with timed := [timed0] }) 0).timed = some timed0 := by decide

theorem wit_overload : dieUp (sDo false ({ applied := true } : Do)) (3 / 16) ∧ (getDo (sDo false ({ applied := true } : Do)) 3).applied = true := by unfold dieUp; decide

theorem wit_doReset : accepts (sDo false ({ overload := true, cmd := true } : Do)) E.doReset 2 16641 5 1 ∧ chosen (sDo false ({ overload := true, cmd := true } : Do)) E.doReset 2 = 0 := by unfold accepts; decide

theorem wit_doSafeState : accepts (sDo false ({ } : Do)) E.doSafeState 2 16641 2 1 ∧ (1 = 1 → doRole (sDo false ({ } : Do)) false (chosen (sDo false ({ } : Do)) E.doSafeState 2) = 0) := by unfold accepts; decide

theorem wit_readback : dieUp (sDo false ({ cmd := true } : Do)) (3 / 16) ∧ true = ((getDo (sDo false ({ cmd := true } : Do)) 3).cmd && !(getDo (sDo false ({ cmd := true } : Do)) 3).overload && !false) ∧ false = (!(getDo (sDo false ({ cmd := true } : Do)) 3).cmd && false) := by unfold dieUp; decide

theorem wit_openLoad : dieUp sOpen (3 / 16) ∧ (getDo sOpen 3).cmd = true ∧ dieCfg sOpen (3 / 16) E.doOpenLoad 4 3 = 1 ∧ 2 < 5 := by unfold dieUp; decide

theorem wit_openLoadNone : dieUp (sDo false ({ } : Do)) (3 / 16) ∧ (¬((getDo (sDo false ({ } : Do)) 3).cmd = true ∧ dieCfg (sDo false ({ } : Do)) (3 / 16) E.doOpenLoad 4 3 = 1) ∨ 20 ≤ 30) := by unfold dieUp; decide

theorem wit_cycleIdle : (∀ n < 32, sp (sField id) E.safType n = 0) := by decide

theorem wit_cycleDemand : 0 < 32 ∧ 4 < 32 ∧ soleInst sDemand 0 ∧ sp sDemand E.safType 0 ≠ 3 ∧ pairsOf sDemand 0 = [(0, 4)] ∧
    bit (sp sDemand E.safWiring 0) 0 = false ∧ (getInst sDemand 0).state = 3 ∧ crossDown sDemand = false ∧
    (∀ c : Nat, c = 4 ∨ c = 4 + 32 → (getDi sDemand c).raw = false ∧ (getDi sDemand c).broken = false ∧
      (getDi sDemand c).frontEnd = false ∧ (getDi sDemand c).rawAt + sp sDemand E.safFilter 0 * 1000 ≤ 20000000) := by
  refine ⟨by decide, by decide, by unfold soleInst; decide, by decide, by decide, by decide, by decide, by decide, ?_⟩
  rintro c (rfl | rfl) <;> decide

theorem wit_discrepancy : sp sIncon E.safType 0 ≠ 0 ∧ (0, 4) ∈ pairsOf sIncon 0 ∧ (getInst sIncon 0).state ≠ 4 ∧ (pairSt (getInst sIncon 0) 0).state = 2 ∧ (pairSt (getInst sIncon 0) 0).since + sp sIncon E.safDiscrepancy 0 * 1000000 ≤ 100000000000 := by decide

theorem wit_crossDisagree : sp sIncon E.safType 0 ≠ 0 ∧ (getInst sIncon 0).state ≠ 4 := by decide

theorem wit_heldLimit : sp sHeld E.safType 0 ≠ 0 ∧ atPair 5 0 ∈ commandPairs sHeld 0 ∧ (getInst sHeld 0).state ≠ 4 ∧ (atPair 5 0).state = 0 ∧ (atPair 5 0).activeAt + sp sHeld E.safHeldLimit 0 * 1000000000 ≤ 100000000000000 := by decide

theorem wit_sync : sp sSync E.safType 0 ≠ 0 ∧ (getInst sSync 0).state = 2 ∧ (getInst sSync 0).syncFrom = some 5 ∧ 5 + sp sSync E.safSync 0 * 1000000 < 100000000000 := by decide

theorem wit_inactive : sp sInactive E.safType 0 ≠ 0 ∧ (getInst sInactive 0).state = 4 ∧ (getInst sInactive 0).cause = 2 ∧ (∀ p ∈ commandPairs sInactive 0, p.state = 1 ∧ p.since + 100000000 ≤ 200000000) := by decide

theorem wit_outputTest : ({ } : OutTest) = nget (sDo true ({ applied := true } : Do)).saf.tests 0 ({ } : OutTest) ∧ roleAt (sDo true ({ applied := true } : Do)) 0 = 1 ∧ (getDo (sDo true ({ applied := true } : Do)) 0).applied = true ∧ 0 + 10000000000 ≤ 10000000000 := by decide

theorem wit_cutoffTest : ({ lastSwitch := 1 } : OutTest) = nget sCut.saf.tests 0 ({ } : OutTest) ∧ roleAt sCut 0 = 1 ∧ (getDo sCut 0).applied = true ∧ 0 < 1 ∧ 1 + 5000000000 ≤ 10000000000 := by decide

theorem wit_safOpen : accepts sGo E.safEdit 0 16896 4 1 ∧ sGo.saf.edit = none ∧ arbBlock sGo 7 0 0 = none := by unfold accepts; decide

theorem wit_safDiscard : accepts { sGo with saf := { sGo.saf with edit := some 0 } } E.safEdit 0 16896 4 0 := by unfold accepts; decide

theorem wit_safWrite : findEntry 16897 2 = some E.safPairA ∧ inSafSet 16897 2 = true ∧ E.safPairA.persist = true ∧ ¬(16897 = 16897 ∧ 2 = 1) ∧ accepts { sGo with saf := { sGo.saf with edit := some 0 } } E.safPairA 0 16897 2 4 ∧ safRange { sGo with saf := { sGo.saf with edit := some 0 } } (mkW { sGo with saf := { sGo.saf with edit := some 0 } } 0 16897 2 E.safPairA.len 4 E.safPairA) = [] := by unfold accepts; decide

theorem wit_safTypeW : 0 = chosen { sGo with saf := { sGo.saf with edit := some 0 } } E.safType 0 ∧ accepts { sGo with saf := { sGo.saf with edit := some 0 } } E.safType 0 16897 1 2 ∧ safParam { sGo with saf := { sGo.saf with edit := some 0 } } true E.safType 1 0 ≠ 2 ∧ 2 ≤ 4 := by unfold accepts; decide

theorem wit_safCommit : accepts sCommit E.safCommit 0 0x4200 5 (safCrc sCommit true) ∧ arbBlock sCommit 8 0 0 = none ∧
    commitConds sCommit (mkW sCommit 0 0x4200 5 E.safCommit.len (safCrc sCommit true) E.safCommit) = [] := by
  unfold accepts
  decide +kernel

theorem wit_aiSettle : ({ range := 1 } : Ai) = getAi (sAi ({ range := 1 } : Ai)) 2 ∧ dieUp (sAi ({ range := 1 } : Ai)) (2 / 8) ∧ 1 ≠ 0 ∧ ((∃ (i0 : ℕ), none = some i0 ∧ i0 ≤ 100) ∨ 0 < 40) := by unfold dieUp; decide

theorem wit_aiOutput : ({ range := 1, outputs := 40, modulator := true } : Ai) = getAi (sAi ({ range := 1, outputs := 40, modulator := true } : Ai)) 2 ∧ dieUp (sAi ({ range := 1, outputs := 40, modulator := true } : Ai)) (2 / 8) ∧ 1 ≠ 0 ∧ 40 ≤ 40 := by unfold dieUp; decide

theorem wit_aiLossStart : ({ range := 2 } : Ai) = getAi (sAi ({ range := 2 } : Ai)) 2 ∧ dieUp (sAi ({ range := 2 } : Ai)) (2 / 8) ∧ 2 ≠ 0 := by unfold dieUp; decide

theorem wit_aiLossEnd : ({ range := 2, lossAt := some 5, modulator := true } : Ai) = getAi (sAi ({ range := 2, lossAt := some 5, modulator := true } : Ai)) 2 := by decide

theorem wit_modulatorFault : ({ range := 2, lossAt := some 5 } : Ai) = getAi (sAi ({ range := 2, lossAt := some 5 } : Ai)) 2 ∧ 5 + 100000000 ≤ 100000005 := by decide

theorem wit_burdenOpen : ({ range := 2 } : Ai) = getAi (sAi ({ range := 2 } : Ai)) 2 ∧ dieUp (sAi ({ range := 2 } : Ai)) (2 / 8) := by unfold dieUp; decide

theorem wit_burdenAgain : ({ range := 2, burdenRec := true } : Ai) = getAi (sAi ({ range := 2, burdenRec := true } : Ai)) 2 ∧ dieUp (sAi ({ range := 2, burdenRec := true } : Ai)) (2 / 8) := by unfold dieUp; decide

theorem wit_burdenClose : ({ range := 2, burdenOpen := some 5 } : Ai) = getAi (sAi ({ range := 2, burdenOpen := some 5 } : Ai)) 2 ∧ 5 + 1000000000 ≤ 1000000005 := by decide

/-! ## Recorder -/

/-- The records on their way, the buffer and the journal slots of both hubs. -/
def sRec (fl bf : List Record) (sl : NMap JSlot) : State :=
  let f := fun (d : HubDie) => { d with inflight := fl, buffer := bf, journal := { slots := sl, nextEntry := 100 } }
  { sGo with hubs := vupd (vupd sGo.hubs 0 f) 1 f }
def rec0 (sev : Nat) : Record := { stamp := 5, code := 0x4010, sev := sev, source := 9 }
def sPowerFail (s : State) : State := { s with supply.powerFail := some 1000 }
def supp0 : SuppRun := { began := 5, count := 3, first := 5, last := 9, sev := 1 }
def bucket0 : Bucket := { tokens := 0, at_ := sGo.cyc.tk, run := some supp0 }
def sSupp (b : Bucket) : State := { sGo with sup.buckets := [(pairKey 0 9 0x4010, b)], cyc.tk := sGo.cyc.tk + 10000000000 }
def sMinute : State := { sGo with recd.seconds := 59 }
def sFreeze : State := { sRec [] [rec0 1] [] with recd.freeze := some (2, 1000) }
def job0 : PwdJob := { since := 5, req := { ctx := 2 } }
def sJob : State := { sGo with upd.jobs := [job0] }
/-- Every role has password "ab". -/
def ab : Nat := 0x6261
def sPwd : State := { sGo with upd.pwds := Vector.replicate 6 { hash := some (Config.pbkdf2 (visText (leBytes 64 ab)) 0) } }
def sLock : State := { sGo with upd.pwds := Vector.replicate 6 { lockedAt := some 5 } }
def sSweep : State := { sRec [] [] [(0, { rec_ := rec0 1, entry := 3, migrated := true }), (1, { rec_ := rec0 4, entry := 4 })] with recd.clearPoint := some (100, 2) }
/-- Storage links up, yards ACTIVE with room for 16 pages. -/
def sYard (y : Yard) (sl : NMap JSlot) : State :=
  let s := svs (svs (sRec [] [] sl) E.yardCapacity 3 0 65536) E.yardCapacity 4 0 65536
  { s with recd.yards := Vector.replicate 2 { y with state := 3, linkUp := true, headerWritten := true }, sup.mode := 2 }
def slots2 : NMap JSlot := [(0, { rec_ := rec0 1, entry := 3 }), (1, { rec_ := rec0 4, entry := 4 })]
def found0 : YardFound := { capacity := 65536, header := some { page := 3, serial := 77, wraps := 2 } }

theorem wit_record : hubUp (sRec [rec0 1, rec0 2] [] []) 0 = true ∧ (sRec [rec0 1, rec0 2] [] []).recd.freeze = none ∧ (rec0 1 = if (sRec [rec0 1, rec0 2] [] []).supply.powerFail.isSome = true then { rec0 1 with flags := (rec0 1).flags ||| 8 } else rec0 1) ∧ (getHub (sRec [rec0 1, rec0 2] [] []) 0).inflight = [rec0 1, rec0 2] ∧ (getHub (sRec [rec0 1, rec0 2] [] []) 0).buffer.length < 8191 ∧ (rec0 1).sev < 2 ∧ (sRec [rec0 1, rec0 2] [] []).supply.powerFail = none := by decide

theorem wit_recordWarn : hubUp (sRec [rec0 2] [] []) 0 = true ∧ (sRec [rec0 2] [] []).recd.freeze = none ∧ (rec0 2 = if (sRec [rec0 2] [] []).supply.powerFail.isSome = true then { rec0 2 with flags := (rec0 2).flags ||| 8 } else rec0 2) ∧ (getHub (sRec [rec0 2] [] []) 0).inflight = [rec0 2] ∧ (getHub (sRec [rec0 2] [] []) 0).buffer = [] ∧ 2 ≤ (rec0 2).sev ∧ journalRoom (sRec [rec0 2] [] []) 0 (rec0 2) := by unfold journalRoom; decide

theorem wit_bufferAge : hubUp (sRec [] [rec0 1] []) 0 = true ∧ (sRec [] [rec0 1] []).recd.freeze = none ∧ (rec0 1 = if (sRec [] [rec0 1] []).supply.powerFail.isSome = true then { rec0 1 with flags := (rec0 1).flags ||| 8 } else rec0 1) ∧ (getHub (sRec [] [rec0 1] []) 0).buffer = [rec0 1] ∧ (rec0 1).stamp + 1000000000 ≤ 1000000005 ∧ journalRoom (sRec [] [rec0 1] []) 0 (rec0 1) := by unfold journalRoom; decide

theorem wit_suppression : bucket0.refill (sSupp bucket0).cyc.tk = (nget (sSupp bucket0).sup.buckets (pairKey 0 9 16400) ({ } : Bucket)).refill (sSupp bucket0).cyc.tk ∧ (bucket0.refill (sSupp bucket0).cyc.tk).run = some supp0 ∧ (20000 ≤ (bucket0.refill (sSupp bucket0).cyc.tk).tokens ∨ supp0.began + 10000000000 ≤ (sSupp bucket0).cyc.tk) := by decide

theorem wit_second : (hubUp sGo 0 = true ∨ hubUp sGo 1 = true) ∧ sGo.recd.seconds + 1 < sGo.recd.lastStored + 60 := by decide

theorem wit_minute : (hubUp sMinute 0 = true ∨ hubUp sMinute 1 = true) ∧ sMinute.recd.lastStored + 60 ≤ sMinute.recd.seconds + 1 := by decide

theorem wit_mramError : hubUp sGo 0 = true ∧ (getHub sGo 0).journal.failed = false := by decide

theorem wit_freezeOn : accepts sGo E.recFreeze 2 20480 11 1 ∧ arbBlock sGo 5 0 0 = none := by unfold accepts; decide

theorem wit_freezeOff : accepts sFreeze E.recFreeze 2 20480 11 0 ∧ sFreeze.recd.freeze = some (2, 1000) := by unfold accepts; decide

theorem wit_freezeExpiry : sFreeze.recd.freeze = some (2, 1000) ∧ 1000 + 30000000000 ≤ 30000001000 := by decide

theorem wit_pwdHeld : (fun b : List Byte => Instr.recClear 2 b) = (fun b => .recClear 2 b) ∧ nhas sGo.sup.ctxs 2 = true := ⟨rfl, by decide⟩

theorem wit_pwdDone : sJob.upd.jobs = [job0] ∧ job0.req.ctx = 2 ∧ job0.since + 40000000 ≤ 40000005 := by decide

theorem wit_recClear : genericConds sPwd (mkW sPwd 2 0x5000 13 64 ab E.recClear) E.recClear = [] ∧ arbBlock sPwd 6 0 0 = none ∧
    pwdMatches sPwd 2 (visText (leBytes 64 ab)) = true := ⟨by decide, by decide, decide_eq_true rfl⟩

theorem wit_recClearWrong : genericConds sGo (mkW sGo 2 20480 13 64 97 E.recClear) E.recClear = [] ∧ arbBlock sGo 6 0 0 = none ∧ pwdMatches sGo 2 (visText (leBytes 64 97)) = false := by decide

theorem wit_pwdSet : 1 ≤ 3 ∧ 3 ≤ 5 ∧ genericConds sGo (mkW sGo 1 4368 3 64 30138990049255557934854730098 E.pwdSet) E.pwdSet = [] ∧ hPwdSet.conds sGo (mkW sGo 1 4368 3 64 30138990049255557934854730098 E.pwdSet) = [] := by decide

theorem wit_lockout : (vget sLock.upd.pwds 3 ({ } : Pwd)).lockedAt = some 5 ∧ 5 + 900000000000 ≤ 900000000005 := by decide

theorem wit_sweep : sSweep.recd.clearPoint = some (100, 2) := by decide

theorem wit_recWindow : nhas sSweep.sup.ctxs 2 = true := by decide

theorem wit_storageLost : (getShed (sYard ({ } : Yard) []) (storShed 0)).state ≠ 2 ∧ ((getShed (sYard ({ } : Yard) []) (storShed 0)).state = 1 → (vget (sYard ({ } : Yard) []).shedHub (storShed 0) ({ } : ShedHub)).stopped = false) := by decide

theorem wit_storageUp : (getShed (sYard ({ } : Yard) []) (storShed 0)).state ≠ 2 ∧ ((getShed (sYard ({ } : Yard) []) (storShed 0)).state = 1 → (vget (sYard ({ } : Yard) []).shedHub (storShed 0) ({ } : ShedHub)).stopped = false) ∧ found0.header = some ({ serial := 77, wraps := 2, page := 3 } : YardHead) := by decide

theorem wit_migrate : mayMigrate (sYard {} slots2) 0 = true ∧ (getYard (sYard {} slots2) 0).inPage = [] ∧
    slots2.map Prod.snd = waitingRecs (sYard {} slots2) 0 ∧
    (∃ x rest, slots2.map Prod.snd = x :: rest ∧ x.rec_.stamp + 10000000000 ≤ 10000000005) ∧
    (getYard (sYard {} slots2) 0).writePage < yardPages (sYard {} slots2) 0 ∧
    (getYard (sYard {} slots2) 0).pages = [] ∧ (slots2.map Prod.snd).take 63 = slots2.map Prod.snd :=
  ⟨by decide, by decide, by decide, ⟨_, _, rfl, by decide⟩, by decide, by decide, by decide⟩

theorem wit_yardWrite : (getYard (sYard ({ inPage := [3] } : Yard) slots2) 0).inPage ≠ [] ∧ hubUp (sYard ({ inPage := [3] } : Yard) slots2) 0 = true := by decide

theorem wit_yardHeader : mayMigrate (sYard ({ } : Yard) []) 0 = true ∧ (getYard (sYard ({ } : Yard) []) 0).lastHeader + 1000000000 ≤ 1000000000 := by decide

theorem wit_yardFailed : hubUp (sYard ({ errors := 2 } : Yard) []) 0 = true ∧ (getYard (sYard ({ errors := 2 } : Yard) []) 0).linkUp = true ∧ (false = true ∨ 2 ≤ (getYard (sYard ({ errors := 2 } : Yard) []) 0).errors) := by decide

theorem wit_yardError : hubUp (sYard ({ } : Yard) []) 0 = true ∧ (getYard (sYard ({ } : Yard) []) 0).linkUp = true ∧ (getYard (sYard ({ } : Yard) []) 0).errors < 2 := by decide

theorem wit_yardHealth : hubUp (sYard ({ } : Yard) []) 0 = true ∧ (getYard (sYard ({ } : Yard) []) 0).linkUp = true ∧ hubSends (sYard ({ } : Yard) []) 0 = true := by decide

theorem wit_yardFormat : 0 < 2 ∧ accepts (sYard ({ serial := 77 } : Yard) []) E.yardFormat 1 20497 2 (0 + 1) ∧ (sYard ({ serial := 77 } : Yard) []).sup.mode = 2 ∧ 1 ≤ (getYard (sYard ({ serial := 77 } : Yard) []) 0).state ∧ (getYard (sYard ({ serial := 77 } : Yard) []) 0).state ≤ 4 := by unfold accepts; decide

/-! ## Updates, tack room, performance -/

/-- A package header of a kind, with one payload block of `len` bytes. -/
def headerOf (kind len : Nat) : List Byte :=
  u32 0x4F5A494D ++ u16 1 ++ u8 kind ++ u8 0 ++ u8 (gv sGo E.compatGen) ++ List.replicate 11 0 ++ u32 1 ++ u64 len ++ u32 48 ++ List.replicate 12 0
/-- A header's 4 KiB with its CRC, or with one more than it. -/
def headerBytes (d : Nat) : List Byte :=
  let b := headerOf 2 4356 ++ List.replicate 208 0 ++ List.replicate 3836 0
  b ++ u32 (crc32c b + d)
def packageOf (kind state : Nat) (pay : List Byte) : Package :=
  { kind := kind, state := state, header := headerOf kind pay.length, payload := pay, manifestBlocks := 1 }
/-- Package 1 in the loft, its transfer open with these chunks. -/
def sLoft (p : Package) (cs : NMap (Nat × List Byte)) : State :=
  { sGo with upd.loft := [(1, p)], upd.transfer := some { pkg := 1, chunks := cs, lastChunk := 5 }, upd.roots := Vector.replicate 4 { kinds := 0x42 } }
def xOf (cs : NMap (Nat × List Byte)) : Transfer := { pkg := 1, chunks := cs, lastChunk := 5 }
/-- The chunks of a header but the last, under its CRC, and all of them. -/
def headChunks (h : List Byte) : NMap (Nat × List Byte) := (List.range 3).map (fun i => (i, (crc32c h, (h.drop (1024 * i)).take 1024)))
def headAll (h : List Byte) : NMap (Nat × List Byte) := nset (headChunks h) 3 (crc32c h, h.drop 3072)
def sHead (d : Nat) : State := { sLoft {} (headChunks (headerBytes d)) with upd.roots := Vector.replicate 4 { kinds := 4 } }
def zeros : List Byte := List.replicate 1024 0
/-- The chunks of a payload block of zeros, under a CRC: the first `n` of them, and all of them. -/
def zeroChunks (crc n : Nat) : NMap (Nat × List Byte) := (List.range n).map (fun i => (i, (crc, zeros)))
def blockCrc : Nat := crc32c ((List.range 64).flatMap (fun _ => zeros))
def payAll : NMap (Nat × List Byte) := nset (zeroChunks blockCrc 63) 63 (blockCrc, zeros)
/-- Package 1 of `n` payload blocks, whose manifest holds digests of 0. -/
def partOf (n : Nat) : Package :=
  { kind := 2, header := headerOf 2 4356 |>.set 20 (BitVec.ofNat 8 n), manifestBlocks := 1, manifest := List.replicate 48 0 }
def sPart (n : Nat) : State := sLoft (partOf n) (zeroChunks blockCrc 63)
def paused0 : Package := { kind := 2, state := 1, paused := true }
def sPaused : State := { sGo with upd.loft := [(1, paused0)], recd.seconds := 86400 }
def sStale : State := sLoft {} [(0, (1, []))]
/-- Package 1 is complete, of a kind and payload, and no transfer runs. -/
def sHave (kind : Nat) (pay : List Byte) : State :=
  { sLoft (packageOf kind 2 pay) [] with upd.transfer := none, upd.roots := Vector.replicate 4 { kinds := 0x7E } }
def sArmed : State := { sHave 1 [] with upd.loft := [(1, packageOf 1 3 [])] }
def sBank : State :=
  { sGo with upd.banks := vupd sGo.upd.banks (1 - sGo.upd.active) (fun b => { b with state := 3, gens := [gv sGo E.compatGen], epoch := sGo.upd.epoch }) }
def sDue : State := { sGo with upd.storeDue := [(7, (9, 1))], upd.store := [(7, (8, 4))] }
/-- Session 3 is anchored in CA slot 1. -/
def sAnchor (s : State) : State := { s with con.sessions := [(3, { state := 3, anchor := 1 })] }
def stale0 : Transfer := { pkg := 1, chunks := [(0, (1, []))], lastChunk := 5 }
def rootBytes : List Byte := u8 1 ++ u8 0x7E
def caBytes : List Byte := u8 1 ++ u8 3 ++ u16 0

theorem wit_chunkStray : (sGo.upd.transfer = none ∨ nhas sGo.sup.ctxs 0 = false ∨ sGo.upd.paused = true ∨ sGo.upd.transfer = some (xOf []) ∧ nget? sGo.upd.loft (xOf []).pkg = some ({ } : Package) ∧ (1 ≠ (xOf []).pkg ∨ (2, 0) ≠ nextBlock ({ } : Package))) := by decide

theorem wit_chunk : chunkFits (sLoft ({ } : Package) []) (xOf []) ({ } : Package) 0 0 0 zeros ∧ 1 = (xOf []).pkg ∧ storeWrites (sLoft ({ } : Package) []) = true ∧ List.length (nset (xOf []).chunks 0 (5, zeros)) < blockChunks ({ } : Package) (nextBlock ({ } : Package)) := by unfold chunkFits; decide

theorem wit_chunkCrc : chunkFits (sLoft {} (zeroChunks 7 3)) (xOf (zeroChunks 7 3)) {} 0 0 3 zeros ∧ 1 = (xOf (zeroChunks 7 3)).pkg ∧ storeWrites (sLoft {} (zeroChunks 7 3)) = true ∧
    (nset (zeroChunks 7 3) 3 (7, zeros)).length = blockChunks {} (nextBlock {}) ∧
    ∃ c ∈ nset (zeroChunks 7 3) 3 (7, zeros), c.2.1 ≠ crc32c ((nset (zeroChunks 7 3) 3 (7, zeros)).flatMap (fun c => c.2.2)) := by
  unfold chunkFits
  decide +kernel

theorem payAll_bytes : payAll.flatMap (fun c => c.2.2) = (List.range 64).flatMap (fun _ => zeros) := rfl

theorem payAll_crc : ∀ c ∈ payAll, c.2.1 = crc32c (payAll.flatMap (fun c => c.2.2)) := by
  rw [payAll_bytes]
  intro c hc
  change c ∈ (List.range 64).map (fun i => (i, (blockCrc, zeros))) at hc
  obtain ⟨i, _, rfl⟩ := List.mem_map.mp hc
  rfl

theorem wit_chunkPayload (h : Config.sha384 ((List.range 64).flatMap (fun _ => zeros)) = 0) :
    chunkFits (sPart 2) (xOf (zeroChunks blockCrc 63)) (partOf 2) 2 0 63 zeros ∧ 1 = (xOf (zeroChunks blockCrc 63)).pkg ∧
    storeWrites (sPart 2) = true ∧
    payAll.length = blockChunks (partOf 2) (nextBlock (partOf 2)) ∧ (∀ c ∈ payAll, c.2.1 = crc32c (payAll.flatMap (fun c => c.2.2))) ∧
    Config.sha384 (payAll.flatMap (fun c => c.2.2)) = beNat (((partOf 2).manifest.drop (48 * 0)).take 48) ∧
    (partOf 2).payloadBlocks + 1 < pkgBlocks (partOf 2) :=
  ⟨⟨rfl, rfl, by decide, by decide, by decide, by decide, by decide⟩, rfl, by decide, rfl, payAll_crc, by rw [payAll_bytes, h]; decide, by decide⟩

theorem wit_chunkLast (h : Config.sha384 ((List.range 64).flatMap (fun _ => zeros)) = 0) :
    chunkFits (sPart 1) (xOf (zeroChunks blockCrc 63)) (partOf 1) 2 0 63 zeros ∧ 1 = (xOf (zeroChunks blockCrc 63)).pkg ∧
    storeWrites (sPart 1) = true ∧
    payAll.length = blockChunks (partOf 1) (nextBlock (partOf 1)) ∧ (∀ c ∈ payAll, c.2.1 = crc32c (payAll.flatMap (fun c => c.2.2))) ∧
    Config.sha384 (payAll.flatMap (fun c => c.2.2)) = beNat (((partOf 1).manifest.drop (48 * 0)).take 48) ∧
    (partOf 1).payloadBlocks + 1 = pkgBlocks (partOf 1) ∧ (partOf 1).manifestBlocks = pkgManifest (partOf 1) :=
  ⟨⟨rfl, rfl, by decide, by decide, by decide, by decide, by decide⟩, rfl, by decide, rfl, payAll_crc, by rw [payAll_bytes, h]; decide, by decide, by decide⟩

theorem headAll_bytes (h : List Byte) : (headAll h).flatMap (fun c => c.2.2) = h := by
  show h.take 1024 ++ ((h.drop 1024).take 1024 ++ ((h.drop 2048).take 1024 ++ (h.drop 3072 ++ []))) = h
  rw [List.append_nil, show h.drop 3072 = (h.drop 2048).drop 1024 by rw [List.drop_drop], List.take_append_drop,
    show h.drop 2048 = (h.drop 1024).drop 1024 by rw [List.drop_drop], List.take_append_drop, List.take_append_drop]

theorem headAll_crc (h : List Byte) : ∀ c ∈ headAll h, c.2.1 = crc32c ((headAll h).flatMap (fun c => c.2.2)) := by
  rw [headAll_bytes]
  intro c hc
  change c ∈ [_, _, _, _] at hc
  simp only [List.mem_cons, List.not_mem_nil, or_false] at hc
  obtain rfl | rfl | rfl | rfl := hc <;> rfl

theorem wit_chunkBadHeader : chunkFits (sHead 1) (xOf (headChunks (headerBytes 1))) {} 0 0 3 ((headerBytes 1).drop 3072) ∧
    1 = (xOf (headChunks (headerBytes 1))).pkg ∧ storeWrites (sHead 1) = true ∧ (headAll (headerBytes 1)).length = blockChunks {} (nextBlock {}) ∧
    (∀ c ∈ headAll (headerBytes 1), c.2.1 = crc32c ((headAll (headerBytes 1)).flatMap (fun c => c.2.2))) ∧
    headerCheck (sHead 1) ((headAll (headerBytes 1)).flatMap (fun c => c.2.2)) ≠ 0 := by
  refine ⟨⟨rfl, rfl, by decide, by decide, by decide, by decide, by decide +kernel⟩, rfl, by decide, rfl, headAll_crc _, ?_⟩
  have hc : fieldAt (headerBytes 1) 4092 4 ≠ crc32c ((headerBytes 1).take 4092) := by decide +kernel
  rw [headAll_bytes]
  unfold headerCheck
  rw [if_pos hc]
  decide

theorem wit_chunkStale : sStale.upd.transfer = some stale0 ∧ nget? sStale.upd.loft stale0.pkg = some ({ } : Package) ∧ stale0.chunks ≠ [] ∧ stale0.lastChunk + 60000000000 < 60000000006 := by decide

theorem wit_packageExpiry : sPaused.upd.transfer = none ∧ sPaused.upd.paused = false ∧ nget? sPaused.upd.loft 1 = some paused0 ∧ paused0.state = 1 ∧ paused0.paused = true ∧ paused0.progress + 86400 ≤ sPaused.recd.seconds ∧ storeWrites sPaused = true := by decide

theorem wit_updAbort : accepts sStale E.updAbort 2 20736 5 1 ∧ sStale.upd.transfer = some stale0 := by unfold accepts; decide

theorem wit_updOpen : accepts sGo E.updOpen 0 20736 1 0 ∧ arbBlock sGo 0 0 0 = none ∧ sGo.upd.transfer = none ∧ List.length sGo.upd.loft < 64 := by unfold accepts; decide

theorem wit_updResume : accepts { sPaused with recd := { sPaused.recd with seconds := 86399 } } E.updOpen 0 20736 1 1 ∧ arbBlock { sPaused with recd := { sPaused.recd with seconds := 86399 } } 0 0 0 = none ∧ sPaused.upd.transfer = none ∧ 1 ≠ 0 ∧ nget? sPaused.upd.loft 1 = some paused0 ∧ paused0.state = 1 ∧ 86399 < paused0.progress + 86400 := by unfold accepts; decide

theorem wit_updDisarm : accepts sArmed E.updActivate 0 20736 6 0 := by unfold accepts; decide

theorem wit_updFallback : accepts sBank E.updFallback 0 20736 7 1 ∧ arbBlock sBank 1 0 0 = none ∧ (otherBank sBank).state = 3 ∧ (otherBank sBank).gens.contains (gv sBank E.compatGen) = true ∧ sBank.upd.epoch ≤ (otherBank sBank).epoch := by unfold accepts; decide

theorem wit_loftDelete : accepts (sHave 2 []) E.loftDelete 0 20752 65 1 ∧ nhas (sHave 2 []).upd.loft 1 = true ∧ pkgInUse (sHave 2 []) 1 = false ∧ (sHave 2 []).upd.transfer = none ∧ (sHave 2 []).upd.paused = false := by unfold accepts; decide

theorem wit_setReset : accepts sGo E.setReset 0 20992 3 1 ∧ arbBlock sGo 1 0 0 = none := by unfold accepts; decide

theorem wit_settings : nhas sDue.upd.storeDue 7 = true ∧ nwf sDue.upd.storeDue = true ∧ sDue.supply.powerFail = none ∧ storeWrites sDue = true := by decide

theorem wit_settingsOff : nhas sDue.upd.storeDue 7 = true ∧ nwf sDue.upd.storeDue = true ∧ (some 5 ≠ none ∨ storeWrites { sDue with supply := { sDue.supply with powerFail := some 5 } } = false) := by decide

theorem wit_rootClear : accepts (sHave 6 []) E.trRootClear 0 4432 3 1 ∧ arbBlock (sHave 6 []) 2 0 0 = none ∧ 1 ≤ 3 ∧ lockBit (sHave 6 []) (224 + 1) = false ∧ rootsKeep (vupd (sHave 6 []).upd.roots 1 fun (x : Root) => ({ } : Root)) = true := by unfold accepts; decide

theorem wit_rootKept : accepts sGo E.trRootClear 0 4432 3 1 ∧ arbBlock sGo 2 0 0 = none ∧ 1 ≤ 3 ∧ lockBit sGo (224 + 1) = false ∧ rootsKeep (vupd sGo.upd.roots 1 fun (x : Root) => ({ } : Root)) = false := by unfold accepts; decide

theorem wit_caClear : accepts (sAnchor sGo) E.trCaClear 0 4432 4 1 ∧ arbBlock (sAnchor sGo) 2 0 0 = none ∧ 1 ≤ 7 ∧ lockBit (sAnchor sGo) (228 + 1) = false := by unfold accepts; decide

theorem wit_trLock : accepts sGo E.trLockMask 0 4436 1 5 ∧ lockBit sGo 239 = false := by unfold accepts; decide

theorem wit_pcCtrl : accepts sGo E.pcCtrl 2 (21264 + 3) (1 + 2) 289 ∧ ctrlRange 289 = [] := by unfold accepts; decide

theorem wit_pcClear : accepts sGo E.pcClear 2 21248 7 1 := by unfold accepts; decide

theorem wit_pcSnap : accepts sGo E.pcSnapCmd 2 21248 1 1 := by unfold accepts; decide

theorem wit_pcSample : accepts sGo E.pcSampleK 2 21296 (1 + 3) 10 ∧ (10 = 0 ∨ 8 ≤ 10 ∧ 10 ≤ 24) := by unfold accepts; decide

theorem wit_pcLat : accepts sGo E.pcLatArm 2 21312 3 1 := by unfold accepts; decide

theorem wit_chunkHeader (he : ∀ k d g, Config.ecdsaOk k d g = true) (hm : ∀ k d g, Config.mldsaOk k d g = true) :
    chunkFits (sHead 0) (xOf (headChunks (headerBytes 0))) {} 0 0 3 ((headerBytes 0).drop 3072) ∧
    1 = (xOf (headChunks (headerBytes 0))).pkg ∧ storeWrites (sHead 0) = true ∧ (headAll (headerBytes 0)).length = blockChunks {} (nextBlock {}) ∧
    (∀ c ∈ headAll (headerBytes 0), c.2.1 = crc32c ((headAll (headerBytes 0)).flatMap (fun c => c.2.2))) ∧
    headerCheck (sHead 0) ((headAll (headerBytes 0)).flatMap (fun c => c.2.2)) = 0 := by
  refine ⟨⟨rfl, rfl, by decide, by decide, by decide, by decide, by decide +kernel⟩, rfl, by decide, rfl, headAll_crc _, ?_⟩
  have hv : headerVerifies (sHead 0) (headerBytes 0) = true := by
    simp only [headerVerifies, rootVerifies, he, hm, Bool.and_true]
    decide
  rw [headAll_bytes]
  unfold headerCheck
  rw [hv]
  decide +kernel

theorem wit_updArm (he : ∀ k d g, Config.ecdsaOk k d g = true) (hm : ∀ k d g, Config.mldsaOk k d g = true) :
    accepts (sHave 1 []) E.updActivate 0 0x5100 6 1 ∧ 1 ≠ 0 ∧ arbBlock (sHave 1 []) 1 0 0 = none ∧ useCheck (sHave 1 []) 1 1 = 0 ∧
    nget? (sHave 1 []).upd.loft 1 = some (packageOf 1 2 []) ∧ fieldAt (packageOf 1 2 []).header 38 2 ≤ (sHave 1 []).upd.format :=
  ⟨by unfold accepts; decide, by decide, by decide, useCheck_of _ _ _ (packageOf 1 2 []) he hm rfl (by decide) (by decide), rfl, by decide⟩

theorem wit_rootLoad (he : ∀ k d g, Config.ecdsaOk k d g = true) (hm : ∀ k d g, Config.mldsaOk k d g = true) :
    accepts (sHave 6 rootBytes) E.trRootLoad 0 0x1150 1 1 ∧ arbBlock (sHave 6 rootBytes) 2 0 0 = none ∧
    useCheck (sHave 6 rootBytes) 1 6 = 0 ∧ fieldAt (pkgPayload (sHave 6 rootBytes) 1) 0 1 ≤ 3 ∧
    lockBit (sHave 6 rootBytes) (224 + fieldAt (pkgPayload (sHave 6 rootBytes) 1) 0 1) = false ∧
    rootsKeep (vupd (sHave 6 rootBytes).upd.roots (fieldAt (pkgPayload (sHave 6 rootBytes) 1) 0 1)
      (fun _ => rootOf (pkgPayload (sHave 6 rootBytes) 1) 0)) = true :=
  ⟨by unfold accepts; decide, by decide, useCheck_of _ _ _ (packageOf 6 2 rootBytes) he hm rfl (by decide) (by decide), by decide, by decide, by decide⟩

theorem wit_caLoad (he : ∀ k d g, Config.ecdsaOk k d g = true) (hm : ∀ k d g, Config.mldsaOk k d g = true) (hc : Config.caOk [] = true) :
    accepts (sAnchor (sHave 5 caBytes)) E.trCaLoad 0 0x1150 2 1 ∧ arbBlock (sAnchor (sHave 5 caBytes)) 2 0 0 = none ∧
    useCheck (sAnchor (sHave 5 caBytes)) 1 5 = 0 ∧ fieldAt (pkgPayload (sAnchor (sHave 5 caBytes)) 1) 0 1 ≤ 7 ∧
    lockBit (sAnchor (sHave 5 caBytes)) (228 + fieldAt (pkgPayload (sAnchor (sHave 5 caBytes)) 1) 0 1) = false ∧
    Config.caOk (((pkgPayload (sAnchor (sHave 5 caBytes)) 1).drop 4).take (fieldAt (pkgPayload (sAnchor (sHave 5 caBytes)) 1) 2 2)) = true :=
  ⟨by unfold accepts; decide, by decide, useCheck_of _ _ _ (packageOf 5 2 caBytes) he hm rfl (by decide) (by decide), by decide, by decide, hc⟩

/-! ## The whole block -/

/-- Stall 3 writes; context 2 may not change entry 0x2100:05, and an arming of stall 3 stands in the way of context 0. -/
def sArbiter : State := { sGo with sup.arbTack := true }
def sLed : State := { sGo with supply.supplyGood := true }

theorem wit_arbiter : nwf sArbiter.sup.dict = true ∧ nhas sArbiter.sup.ctxs 0 = true ∧ mkW sArbiter 0 20992 3 1 1 E.setReset = mkW sArbiter 0 20992 3 E.setReset.len 1 E.setReset ∧ genericConds sArbiter (mkW sArbiter 0 20992 3 1 1 E.setReset) E.setReset = [] ∧ hSetReset.conds sArbiter (mkW sArbiter 0 20992 3 1 1 E.setReset) = [] ∧ hSetReset.own = false ∧ hSetReset.act (mkW sArbiter 0 20992 3 1 1 E.setReset) = some (1, 0, 0) ∧ arbBlock sArbiter 1 0 0 = some 2 ∧ gv sArbiter E.arbRefused + 1 < 2 ^ 32 := by decide

theorem wit_refusal : nhas sGo.sup.ctxs 2 = true ∧ genericConds sGo (mkW sGo 2 8448 4 E.voteHoldLimit.len 9 E.voteHoldLimit) E.voteHoldLimit ≠ [] ∧ (storeHandler E.voteHoldLimit).conds sGo (mkW sGo 2 8448 4 E.voteHoldLimit.len 9 E.voteHoldLimit) = [] ∧ (storeHandler E.voteHoldLimit).own = false ∧ (storeHandler E.voteHoldLimit).act (mkW sGo 2 8448 4 E.voteHoldLimit.len 9 E.voteHoldLimit) = none ∧ sGo.supply.powerFail = none ∧ E.voteHoldLimit.wr < 2 ^ 8 ∧ E.voteHoldLimit.lock < 2 ^ 16 := by decide

theorem wit_crossing : ∃ t, exec .crossingBoundary sBoundary = .next t := ⟨_, rfl⟩

theorem wit_blockCopy : 10 = BitVec.toNat (rget (ran sRun).exec 3) ∧ ready sRun 1 3 (ran sRun) (granules 10 + 1) ∧ BitVec.toNat (rget (ran sRun).exec 1) + 10 < 2 ^ 64 ∧ (∀ j < 10, canRead (ran sRun).desc (BitVec.toNat (rget (ran sRun).exec 2) + j) = true) ∧ (∀ j < 10, canWrite (ran sRun).desc (BitVec.toNat (rget (ran sRun).exec 1) + j) = true) ∧ BitVec.toNat (rget (ran sRun).exec 2) + 10 < 2 ^ 64 := by unfold ready; decide

theorem wit_blockFill : 10 = BitVec.toNat (rget (ran sRun).exec 3) ∧ ready sRun 1 3 (ran sRun) (granules 10 + 1) ∧ BitVec.toNat (rget (ran sRun).exec 1) + 10 < 2 ^ 64 ∧ (∀ j < 10, canWrite (ran sRun).desc (BitVec.toNat (rget (ran sRun).exec 1) + j) = true) := by unfold ready; decide

theorem wit_blockCrc : 10 = BitVec.toNat (rget (ran sRun).exec 3) ∧ ready sRun 1 3 (ran sRun) (granules 10 + 1) ∧ BitVec.toNat (rget (ran sRun).exec 1) + 10 < 2 ^ 64 ∧ (∀ j < 10, canRead (ran sRun).desc (BitVec.toNat (rget (ran sRun).exec 1) + j) = true) := by unfold ready; decide

theorem wit_blockCmp : 10 = BitVec.toNat (rget (ran sRun).exec 3) ∧ ready sRun 1 3 (ran sRun) (granules 10 + 1) ∧ BitVec.toNat (rget (ran sRun).exec 1) + 10 < 2 ^ 64 ∧ (4 = 0 ∨ 4 ≤ 4) ∧ (∀ j < 10, canRead (ran sRun).desc (BitVec.toNat (rget (ran sRun).exec 1) + j) = true) ∧ (∀ j < 10, canRead (ran sRun).desc (BitVec.toNat (rget (ran sRun).exec 2) + j) = true) ∧ BitVec.toNat (rget (ran sRun).exec 2) + 10 < 2 ^ 64 := by unfold ready; decide

theorem wit_carrySample : (getDie sGo 1).failed = false := by decide

theorem wit_carryClose : sGo.cyc.running = true ∧ hubUp sGo 1 = true ∧ (vget sGo.cyc.hubImg 1 ({ } : HubImage)).closed = false := by decide

theorem wit_carryAgree : (sClosed 5).cyc.running = true ∧ (sClosed 5).agree.mismatch = false ∧ (sClosed 5).agree.lost = false ∧ (sClosed 5).cyc.agreedK ≠ some (sClosed 5).cyc.k ∧ hubsClosed (sClosed 5) ≠ [] := by decide

theorem wit_carryEnd : sEnded.cyc.running = true ∧ sEnded.agree.mismatch = false ∧ sEnded.agree.lost = false ∧ sEnded.cyc.agreedK = some sEnded.cyc.k ∧ sEnded.cyc.endDone ≠ some sEnded.cyc.k ∧ runningStalls sEnded = [] := by decide

theorem wit_carryStart : (getRun sQueued 1).run = none ∧ sQueued.cyc.agreedK = some sQueued.cyc.k ∧ sQueued.agree.mismatch = false ∧ sQueued.agree.lost = false ∧ (getRun sQueued 1).queue = [queued3] ∧ getStall? sQueued queued3.stall = some ({ state := StallSt.running, desc := desc0, exec := exec0 } : Stall) := by decide

theorem wit_carryBoundary : sBoundary.cyc.running = true ∧ imagesClosed sBoundary = true ∧ sBoundary.cyc.endDone = some sBoundary.cyc.k ∧ sBoundary.st.recoverDue = false ∧ sBoundary.st.resetDue = none := by decide

theorem wit_ledOff : ({ sGo with supply.supplyGood := false } : State).supply.supplyGood = false := rfl

theorem wit_ledRun : let t : State := { sLed with sup.mode := 1 }
    t.supply.supplyGood = true ∧ t.st.phase = 10 ∧ t.cyc.running = true ∧ t.st.recovery = false ∧ t.sup.mode = 1 := by decide

theorem wit_ledRecovery : let t : State := { sLed with st.recovery := true }
    t.supply.supplyGood = true ∧ t.st.phase = 10 ∧ t.cyc.running = true ∧ t.st.recovery = true := by decide

theorem wit_ledConfig : let t : State := { sLed with sup.mode := 2 }
    t.supply.supplyGood = true ∧ t.st.phase = 10 ∧ t.cyc.running = true ∧ t.st.recovery = false ∧ t.sup.mode = 2 := by decide

theorem wit_ledRetired : let t : State := { sLed with sup.mode := 3 }
    t.supply.supplyGood = true ∧ t.st.phase = 10 ∧ t.cyc.running = true ∧ t.st.recovery = false ∧ t.sup.mode = 3 := by decide

theorem wit_ledTest : ({ sGo with st.phase := 1 } : State).st.phase = 1 ∧ 300000000 < 500000000 := by decide

/-! ## The remaining premises -/

/-- Quiet and signalling NaN operands reach every clause of the statement about NaN results. -/
theorem wit_nan : isNaN (fpOf (fpAdd 0x7FF8000000000001 0).1) = true ∧ isNaN (fpOf (fpSub 0x7FF0000000000000 0x7FF0000000000000).1) = true ∧
    isNaN (fpOf (fpMul 0 0x7FF0000000000000).1) = true ∧ isNaN (fpOf (fpDiv 0 0).1) = true ∧
    isNaN (fpOf (fpSqrt 0xBFF0000000000000).1) = true ∧ isNaN (fpOf (fpFma 0 0x7FF0000000000000 0).1) = true ∧
    isNaN (fpOf (fpMinMax true 0x7FF0000000000001 0xFFF8000000000000).1) = true ∧
    isNaN (fpOf (fpRint true 0x7FF0000000000001).1) = true := by decide +kernel

theorem wit_stallInsn : stallInsn (.add 0 1 2 3) = true := rfl
theorem wit_emptyQueue : sGo.pending = [] := rfl
theorem wit_modes : modesNamed sGo ∧ ∃ t, step { sGo with pending := [.pcSnapCmd 2] } = .next t :=
  ⟨⟨⟨by unfold modeNamed; decide, fun _ _ h => nomatch h⟩, by unfold modeNamed; decide, fun _ _ h => nomatch h⟩, _, rfl⟩

/-! ## Ill-formed commands are refused by the checks -/

theorem test_ill_context : wellFormed (.dapRead 4097 {}) = false ∧ wellFormed (.dapRead 4096 {}) = true ∧
    wellFormed (.pcClear 5512) = false ∧ wellFormed (.pcClear 5511) = true := by decide
theorem test_ill_index : wellFormed (.dictWrite 0 65536 1 0) = false ∧ wellFormed (.dictWrite 0 65535 1 0) = true := by decide
theorem test_ill_sub : wellFormed (.dictWrite 0 0x2100 256 0) = false ∧ wellFormed (.dictWrite 0 0x2100 255 0) = true := by decide
theorem test_ill_package : wellFormed (.stallLoad 0 4294967296 0) = false ∧ wellFormed (.stallLoad 0 4294967295 0) = true := by decide
theorem test_ill_stall : wellFormed (.loadCopyComplete 0 512 0) = false ∧ wellFormed (.loadCopyComplete 0 511 0) = true := by decide
theorem test_ill_channel : wellFormed (.forceExpiry 1 64) = false ∧ wellFormed (.forceExpiry 1 63) = true := by decide
theorem test_ill_window : wellFormed (.serPackTimeout 128) = false ∧ wellFormed (.serPackTimeout 127) = true := by decide
theorem test_ill_group : wellFormed (.lockLimitExpiry 16) = false ∧ wellFormed (.lockLimitExpiry 15) = true := by decide
theorem test_ill_password : wellFormed (.recClear 0 (List.replicate 65 0x61)) = false ∧
    wellFormed (.recClear 0 (List.replicate 64 0x61)) = true := by decide
theorem test_ill_request : wellFormed (.recWindowRead 0 65536) = false ∧ wellFormed (.recWindowRead 0 65535) = true := by decide
theorem test_ill_chunk : wellFormed (.chunk 1 4 0 0 0 [] 0) = false ∧ wellFormed (.chunk 1 2 0 64 0 [] 0) = false ∧
    wellFormed (.chunk 1 2 0 63 0 [] 0) = true := by decide
theorem test_ill_fcode : wellFormed (.mvbMasterFrameReceived 0 16 0 0) = false ∧ wellFormed (.mvbMasterFrameReceived 0 15 0 0) = true := by decide
theorem test_ill_start : wellFormed (.moduleStart { tests := [(10, 0)] }) = false ∧ wellFormed (.moduleStart { roots := 16 }) = false ∧
    wellFormed (.moduleStart { cas := 256 }) = false ∧ wellFormed (.moduleStart {}) = true := by decide

/-! ## One small step of each family -/

/-- A register of stall 3 after a command. -/
def regAfter (c : Instr) (s : State) (r : Reg) : Word :=
  match exec c s with
  | .next t => rget (stallOf t).exec r
  | _ => 0
/-- A number read from the state after a command. -/
def after (c : Instr) (s : State) (f : State → Nat) : Nat :=
  match exec c s with
  | .next t => f t
  | _ => 0

theorem test_mulh : regAfter (.mulh 1 7 5 4) sRun 7 = 0xFFFFFFFFFFFFFFFC := by decide
theorem test_mulhu : regAfter (.mulhu 1 7 5 4) sRun 7 = 3 := by decide
theorem test_rem_sign : regAfter (.rem 1 7 5 3) sRun 7 = 0xFFFFFFFFFFFFFFF8 := by decide
theorem test_srai : regAfter (.srai 1 7 5 63) sRun 7 = 0xFFFFFFFFFFFFFFFF := by decide
theorem test_zero_register : regAfter (.addi 1 0 3 1) sRun 0 = 0 := by decide
theorem test_load_sign : regAfter (.ldB 1 7 1 7) sRun 7 = 0xFFFFFFFFFFFFFF81 ∧ regAfter (.ldBu 1 7 1 7) sRun 7 = 0x81 := by decide
theorem test_load_little_endian : regAfter (.ldWu 1 7 1 4) sRun 7 = 0x81000000 := by decide
/-- The CRC-32C of the nine digits is its published check value. -/
theorem test_crc : crc32c [0x31, 0x32, 0x33, 0x34, 0x35, 0x36, 0x37, 0x38, 0x39] = 0xE3069283 := by decide +kernel
/-- 1/3 to nearest, inexact; the root of 2; 2.5 to an integral value by ties to even; 0.1 + 0.2. -/
theorem test_fp_round : fpDiv 0x3FF0000000000000 0x4008000000000000 = (0x3FD5555555555555, 1) ∧
    (fpSqrt 0x4000000000000000).1 = 0x3FF6A09E667F3BCD ∧ (fpRint true 0x4004000000000000).1 = 0x4000000000000000 ∧
    (fpAdd 0x3FB999999999999A 0x3FC999999999999A).1 = 0x3FD3333333333334 := by decide +kernel
theorem test_fp_fma_invalid : (fpFma 0 0x7FF0000000000000 0x3FF0000000000000).1 = 0x7FF8000000000000 := by decide +kernel
theorem test_crossing : after .crossingBoundary sBoundary (fun t => t.cyc.k) = 6 := by decide +kernel
theorem test_voter_release : after (.voterCopyArrival 0 1 7 pos1 0 1100) (sWord tag1) (fun t =>
    if (nget (getHub t 0).voter.words key1 {}).released then 1 else 0) = 1 := by decide
theorem test_dict_refused : after (.dictWrite 2 0x2100 4 9) sGo (fun t => gv t E.voteHoldLimit) = gv sGo E.voteHoldLimit := by decide
theorem test_di_filter : after (.diEdgeConfirmed 5 (100 + dieCfg (sDi {}) 0 E.diFilter 1 5 * 1000)) (sDi { raw := true, rawAt := 100 })
    (fun t => (getDi t 5).lastEdge) = 100 := by decide
theorem test_demand : after (.evaluatorCycle 20000000) sDemand (fun t => (getInst t 0).state) = 1 := by decide +kernel
theorem test_ai_clamp : (match exec (.aiOutput 2 99000000 100) (sAi { range := 1, outputs := 40 }) with
    | .next t => (getAi t 2).raw | _ => 0) = 12000000 := by decide
theorem test_record_flush : after (.bufferAgeFlush 0 1000000005) (sRec [] [rec0 1] []) (fun t => (getHub t 0).journal.slots.length) = 1 := by decide
theorem test_step_front : step { State.reset with pending := [.pcSnapCmd 0, .crossingBoundary] } =
    exec (.pcSnapCmd 0) { State.reset with pending := [.crossingBoundary] } := rfl

end Sys2Proof.Tests
end

/-!
PROOFS. Frames of the operations that a failed or restored link, or a reset command, leads to: what recording an event without a
stated code leaves alone, and the operations that touch no internal link end.
-/

namespace Sys2Proof.Machine
open Sys2Proof.Safe

/-! ## What `noted` carries over -/

theorem hubUp_bare (s : State) (h : Nat) : hubUp (bare s) h = hubUp s h := by
  unfold hubUp getHub bare vget
  by_cases hh : h < 2 <;> simp [hh]

theorem hubUp_of_noted {s t : State} (hn : noted s t) (h : Nat) : hubUp t h = hubUp s h := by
  rw [← hubUp_bare, show bare t = bare s from hn, hubUp_bare]

theorem ilinks_of_noted {s t : State} (hn : noted s t) : t.ilinks = s.ilinks := by
  have h := congrArg State.ilinks (show bare t = bare s from hn)
  exact h
theorem lanes_of_noted {s t : State} (hn : noted s t) : t.lanes = s.lanes := by
  have h := congrArg State.lanes (show bare t = bare s from hn)
  exact h
theorem agree_of_noted {s t : State} (hn : noted s t) : t.agree = s.agree := by
  have h := congrArg State.agree (show bare t = bare s from hn)
  exact h

/-- Whether an event is recorded depends on the hubs, the links and the rate limits alone. -/
theorem recorded_congr {s t : State} (code : Nat) (hh : t.hubs = s.hubs) (hl : t.ilinks = s.ilinks)
    (hs : t.sup.buckets = s.sup.buckets) (hr : t.recd.buckets = s.recd.buckets) : recorded t code ↔ recorded s code := by
  unfold recorded recordedFrom onWay suppressing hubUp hears hubLinkUp getHub
  rw [hh, hl, hs, hr]

/-! ## Records without a stated code -/

section
variable (s : State) (o d e t src : Nat)

@[simp] theorem bare_freeNext : bare (freeNext s) = bare s := rfl

theorem noted_emitOpen : noted s (emitOpen s o t src) := by
  unfold noted emitOpen
  simp only [bare_emitJ, bare_freeNext]

theorem noted_emitDie : noted s (emitDie s d t) := by
  unfold emitDie
  split
  · exact noted_emitOpen ..
  · split <;> exact noted_emitOpen ..

theorem noted_emitEnd : noted s (emitEnd s e t) := noted_emitDie ..

/-- The code, the severity and the data of such a record are three free values. -/
theorem emitOpen_freeCount : (emitOpen s o t src).st.freeCount = s.st.freeCount + 3 := by
  unfold emitOpen
  rw [emitJ_st]
  rfl

theorem emitDie_freeCount : (emitDie s d t).st.freeCount = s.st.freeCount + 3 := by
  unfold emitDie
  split
  · exact emitOpen_freeCount ..
  · split <;> exact emitOpen_freeCount ..
end

/-! ## Operations that touch no internal link end -/

section
variable (s : State) (h i l t d cause det state : Nat) (r : Record) (kind : EgKind) (b c : Nat) (data : List Byte) (up ex : Bool)
  (c? : Option Nat) (named : List Nat)

@[simp] theorem setLease_ilinks : (setLease s state t).ilinks = s.ilinks := by
  unfold setLease
  dsimp only
  split
  · rfl
  · split <;> simp

@[simp] theorem ceaseLease_ilinks : (ceaseLease s t).ilinks = s.ilinks := by
  unfold ceaseLease
  split
  · rw [setLease_ilinks]
  · rfl

@[simp] theorem refreshLease_ilinks : (refreshLease s).ilinks = s.ilinks := by
  unfold refreshLease
  dsimp only
  split <;> simp

@[simp] theorem twinSend_ilinks : (twinSend s l t kind b c data).ilinks = s.ilinks := by
  unfold twinSend
  split <;> rfl

@[simp] theorem releaseLease_ilinks : (releaseLease s t).ilinks = s.ilinks := by
  unfold releaseLease
  dsimp only
  rw [refreshLease_ilinks, ceaseLease_ilinks, foldl_keeps State.ilinks]
  · rfl
  · exact fun u n => foldl_keeps State.ilinks _ (fun _ _ => twinSend_ilinks ..) _ _

@[simp] theorem linkSession_ilinks : (linkSession s l up).ilinks = s.ilinks := by
  unfold linkSession
  dsimp only
  rw [refreshLease_ilinks, apply_ite State.ilinks, emitL_ilinks, ite_self]
  rfl

@[simp] theorem twinHelloSend_ilinks : (twinHelloSend s l t).ilinks = s.ilinks := by
  unfold twinHelloSend
  split
  · exact twinSend_ilinks ..
  · rfl

@[simp] theorem moduleLost_ilinks : (moduleLost s cause).ilinks = s.ilinks := by
  unfold moduleLost
  split
  · rfl
  · simp

@[simp] theorem abandon_ilinks : (abandon s l cause).ilinks = s.ilinks := by
  unfold abandon
  split
  · rfl
  · simp

/-- A lane fault whose cause leads to no mismatch restart. -/
theorem laneFault_ilinks (hc : 5 < cause) : (laneFault s l cause det named ex).ilinks = s.ilinks := by
  unfold laneFault
  dsimp only
  split
  · rfl
  · split
    · rfl
    · split
      · split
        · simp
        · simp [Nat.not_le_of_lt hc]
      · simp

@[simp] theorem judgeCross_ilinks : (judgeCross s l).ilinks = s.ilinks := by
  unfold judgeCross
  split
  · exact laneFault_ilinks _ _ _ _ _ _ (by decide)
  · rfl

@[simp] theorem enter_ilinks : (enter s i state c? t).ilinks = s.ilinks := rfl

@[simp] theorem emitBoth_ilinks (code sev : Nat) : (emitBoth s t code sev data).ilinks = s.ilinks := by
  unfold emitBoth
  refine foldl_keeps State.ilinks _ (fun u die => ?_) _ _
  split
  · rfl
  · exact emitF_ilinks ..

@[simp] theorem faultInst_ilinks : (faultInst s i cause t).ilinks = s.ilinks := by
  unfold faultInst
  split
  · rfl
  · exact emitBoth_ilinks ..

@[simp] theorem driveOutputs_ilinks : (driveOutputs s).ilinks = s.ilinks :=
  foldl_keeps State.ilinks driveOne (fun _ _ => rfl) _ _

@[simp] theorem faultLink_ilinks : (faultLink s t).ilinks = s.ilinks := by
  unfold faultLink
  rw [driveOutputs_ilinks]
  exact foldl_keeps State.ilinks _ (fun _ _ => faultInst_ilinks ..) _ _

@[simp] theorem takeWaiting_ilinks : (takeWaiting s h).ilinks = s.ilinks := by
  unfold takeWaiting takeFromPeer
  dsimp only
  split
  · split
    · rfl
    · exact emitH_ilinks ..
  · rfl

@[simp] theorem putSlot_ilinks : (putSlot s h i r).ilinks = s.ilinks := rfl

@[simp] theorem journalPut_ilinks : (journalPut s h r).ilinks = s.ilinks := by
  unfold journalPut
  dsimp only
  generalize (if oneHub s h = true then _ else r) = q
  split
  · rfl
  · split
    · rfl
    · split
      · exact bump_ilinks ..
      · rw [putSlot_ilinks, apply_ite State.ilinks, bump_ilinks, ite_self]

@[simp] theorem exchangeFrom_ilinks : (exchangeFrom s h t).ilinks = s.ilinks := by
  unfold exchangeFrom
  dsimp only
  have copies : ∀ (l : List (Nat × JSlot)) (u : State), (l.foldl (fun s p => journalPut s h p.2.rec_) u).ilinks = u.ilinks :=
    foldl_keeps State.ilinks _ (fun _ _ => journalPut_ilinks ..)
  split
  · rw [bumpx_ilinks, copies]
    refine foldl_keeps State.ilinks _ (fun u p => ?_) _ _
    rfl
  · rw [emitH_ilinks, bumpx_ilinks, copies]
    refine foldl_keeps State.ilinks _ (fun u p => ?_) _ _
    rfl

@[simp] theorem exchangeJournals_ilinks : (exchangeJournals s t).ilinks = s.ilinks := by
  unfold exchangeJournals
  split <;> simp

/-- Delivering the events that a field die kept does nothing but record. -/
theorem noted_flushKept : noted s (flushKept s d) := by
  have records : bare ((getDie s d).kept.foldl
      (fun s r => (emitJ s (3 + d) r.stamp r.source r.code r.sev r.data 0xFFFF).2) s) = bare s :=
    foldl_keeps bare _ (fun _ _ => bare_emitJ ..) _ _
  unfold noted
  rw [← records]
  unfold flushKept
  dsimp only
  simp only [bare]
  rw [map_vupd]
  · rfl
  · exact fun _ => rfl
end

end Sys2Proof.Machine

/-!
PROOFS. O18: transfers, discards, failure and restoration of the internal links (01 R12, R13, R157).
-/

namespace Sys2Proof.Machine
open Sys2Proof.Safe Sys2Proof.Claims

/-! ## A lane fault of a set of three (06 R157) -/

theorem inSet_of_three {s : State} {l : Nat} (hset : laneSet s = [0, 1, 2]) (hl : l < 3) : inSet s l = true := by
  have hm : l ∈ laneSet s := by
    rw [hset]
    simp only [List.mem_cons, List.not_mem_nil, or_false]
    omega
  exact (List.mem_filter.mp hm).2

theorem linkFaults_of_inSet {s : State} {l : Nat} (h : inSet s l = true) : linkFaults s l = true := by
  have hs : (getLane s l).state = .inSet := by simpa [inSet] using h
  simp [linkFaults, hs]

/-- Lane `l` of a set of three leaves it, to be reset. -/
def laneLeaves (s : State) (l cause : Nat) : State :=
  updLane (svi { updLane (bumpi s E.laneFaults l) l (fun d => { d with cause := cause }) with perf.setChanged := true }
    E.laneAbandoned l 0) l (fun d => { d with state := .out, resetDue := true, halted := true, retryAt := none })

/-- In a set of three a lane fault of any cause records event 0x2060 and takes the lane out of the set. -/
theorem laneFault_of_three {s : State} {l : Nat} (cause det : Nat) (named : List Nat) (ex : Bool) (hset : laneSet s = [0, 1, 2])
    (hlost : s.agree.lost = false) (hl : l < 3) :
    laneFault s l cause det named ex =
      laneLeaves (emitL s (srcLane l) 0x2060 2 (u8 cause ++ u64 s.cyc.k ++ u16 det)) l cause := by
  have hs : (getLane s l).state = .inSet := by simpa [inSet] using inSet_of_three hset hl
  unfold laneFault laneLeaves
  simp [hs, hlost, hset]

theorem getLane_laneLeaves_self (s : State) {l : Nat} (cause : Nat) (hl : l < 3) :
    (getLane (laneLeaves s l cause) l).state = .out ∧ (getLane (laneLeaves s l cause) l).cause = cause := by
  simp [laneLeaves, getLane, updLane, hl]

theorem getLane_laneLeaves_of_ne (s : State) {l j : Nat} (cause : Nat) (hj : j ≠ l) :
    getLane (laneLeaves s l cause) j = getLane s j := by
  simp [laneLeaves, getLane, updLane, vget_vupd_of_ne, hj]

theorem recorded_laneLeaves (s : State) (l cause code : Nat) : recorded (laneLeaves s l cause) code ↔ recorded s code :=
  recorded_congr code (by simp [laneLeaves]) (by simp [laneLeaves]) (by simp [laneLeaves]) (by simp [laneLeaves])

/-! ## A die declares an end failed (01 R13) -/

/-- The end is FAILED, and its die has recorded that. -/
def declareFailed (s : State) (e t : Nat) : State := emitEnd (updEnd s e (fun l => { l with failed := true })) e t

theorem noted_declareFailed (s : State) (e t : Nat) :
    noted (updEnd s e (fun l => { l with failed := true })) (declareFailed s e t) :=
  noted_emitEnd ..

section
variable (s : State) (e t : Nat)

@[simp] theorem declareFailed_ilinks :
    (declareFailed s e t).ilinks = vupd s.ilinks e (fun l => { l with failed := true }) :=
  (ilinks_of_noted (noted_declareFailed s e t)).trans rfl

@[simp] theorem declareFailed_lanes : (declareFailed s e t).lanes = s.lanes :=
  (lanes_of_noted (noted_declareFailed s e t)).trans rfl

@[simp] theorem declareFailed_agree : (declareFailed s e t).agree = s.agree :=
  (agree_of_noted (noted_declareFailed s e t)).trans rfl

@[simp] theorem hubUp_declareFailed (h : Nat) : hubUp (declareFailed s e t) h = hubUp s h :=
  (hubUp_of_noted (noted_declareFailed s e t) h).trans rfl

/-! What follows at each kind of end. -/

/-- A lane-to-hub end: the stores may be handed over, and the lane faults where the hub is in service. -/
theorem failEnd_of_hubLane (he : e < 12) : ∃ u det,
    (u = declareFailed s e t ∨ u = handOver (declareFailed s e t) (1 - (laneHub e).2)) ∧
    failEnd s e t = if hubUp u (laneHub e).2 && linkFaults u (laneHub e).1 then laneFault u (laneHub e).1 8 det else u := by
  unfold failEnd
  simp only [he, if_true]
  refine ⟨_, _, ?_, rfl⟩
  split
  · exact .inr rfl
  · exact .inl rfl

theorem failEnd_of_crossLane (h12 : 12 ≤ e) (h18 : e < 18) :
    failEnd s e t = judgeCross (judgeCross (declareFailed s e t) ((e - 12) / 2)) (crossPeer e) := by
  simp [failEnd, declareFailed, Nat.not_lt_of_le h12, h18]

theorem failEnd_of_fieldCross (he : e = 28 ∨ e = 29) :
    failEnd s e t = faultLink (updDie (declareFailed s e t) (e - 28) (fun d => { d with crossFailed := true })) t := by
  simp [failEnd, declareFailed, show ¬ e < 12 by omega, show ¬ e < 18 by omega, he]

theorem failEnd_of_twin (he : 30 ≤ e) : failEnd s e t = linkSession (declareFailed s e t) (e - 30) false := by
  simp [failEnd, declareFailed, show ¬ e < 12 by omega, show ¬ e < 18 by omega, show e ≠ 28 by omega,
    show e ≠ 29 by omega, he]

theorem failEnd_of_other (h18 : 18 ≤ e) (h28 : e < 28) : failEnd s e t = declareFailed s e t := by
  simp [failEnd, declareFailed, show ¬ e < 12 by omega, Nat.not_lt_of_le h18, Nat.ne_of_lt h28, show e ≠ 29 by omega,
    show ¬ 30 ≤ e by omega]

/-- Whatever follows, the named end alone moves, to FAILED. -/
theorem failEnd_ilinks : (failEnd s e t).ilinks = vupd s.ilinks e (fun l => { l with failed := true }) := by
  by_cases h12 : e < 12
  · obtain ⟨u, det, hu, hf⟩ := failEnd_of_hubLane s e t h12
    have hi : u.ilinks = vupd s.ilinks e (fun l => { l with failed := true }) := by
      rcases hu with rfl | rfl
      · exact declareFailed_ilinks ..
      · exact declareFailed_ilinks ..
    rw [hf]
    split
    · rw [laneFault_ilinks _ _ _ _ _ _ (by decide), hi]
    · exact hi
  by_cases h18 : e < 18
  · rw [failEnd_of_crossLane s e t (by omega) h18, judgeCross_ilinks, judgeCross_ilinks, declareFailed_ilinks]
  by_cases h28 : e < 28
  · rw [failEnd_of_other s e t (by omega) h28, declareFailed_ilinks]
  by_cases h30 : e < 30
  · rw [failEnd_of_fieldCross s e t (by omega), faultLink_ilinks]
    exact declareFailed_ilinks ..
  · rw [failEnd_of_twin s e t (by omega), linkSession_ilinks, declareFailed_ilinks]

/-- Of three lanes, the one that loses a hub in service has lane fault 8 (06 Table 06-2). -/
theorem failEnd_laneFault (he : e < 12) (hup : hubUp s (laneHub e).2 = true) (hset : laneSet s = [0, 1, 2])
    (hlost : s.agree.lost = false) :
    (getLane (failEnd s e t) (laneHub e).1).state = .out ∧ (getLane (failEnd s e t) (laneHub e).1).cause = 8 ∧
      recorded (failEnd s e t) 0x2060 ∧ ∀ j, j ≠ (laneHub e).1 → getLane (failEnd s e t) j = getLane s j := by
  have hl : (laneHub e).1 < 3 := by
    unfold laneHub
    split <;> dsimp only <;> omega
  obtain ⟨u, det, hu, hf⟩ := failEnd_of_hubLane s e t he
  have hlanes : u.lanes = s.lanes := by rcases hu with rfl | rfl <;> exact declareFailed_lanes ..
  have hagree : u.agree = s.agree := by rcases hu with rfl | rfl <;> exact declareFailed_agree ..
  have hhub : hubUp u (laneHub e).2 = true := by
    rw [← hup]
    rcases hu with rfl | rfl <;> exact hubUp_declareFailed ..
  have hthree : laneSet u = [0, 1, 2] := by
    rw [← hset]
    unfold laneSet inSet getLane
    rw [hlanes]
  rw [hf, hhub, linkFaults_of_inSet (inSet_of_three hthree hl), Bool.and_self, if_pos rfl,
    laneFault_of_three 8 det [] true hthree (by rw [hagree, hlost]) hl]
  obtain ⟨hout, hcause⟩ := getLane_laneLeaves_self (emitL u (srcLane (laneHub e).1) 0x2060 2 (u8 8 ++ u64 u.cyc.k ++ u16 det)) 8 hl
  refine ⟨hout, hcause, ?_, fun j hj => ?_⟩
  · rw [recorded_laneLeaves]
    exact recorded_emitL _ _ _ _ _ _ (by decide)
  · rw [getLane_laneLeaves_of_ne _ _ hj]
    unfold getLane
    rw [emitL_lanes, hlanes]

/-! ## The field cross link and the twin links -/

theorem crossFailed_bare (f : Nat) : (getDie (bare s) f).crossFailed = (getDie s f).crossFailed := by
  unfold getDie bare vget
  by_cases hf : f < 2 <;> simp [hf]

theorem crossFailed_of_noted {s t : State} (hn : noted s t) (f : Nat) :
    (getDie t f).crossFailed = (getDie s f).crossFailed := by
  rw [← crossFailed_bare, show bare t = bare s from hn, crossFailed_bare]

theorem noted_emitBoth (code sev : Nat) (data : List Byte) : noted s (emitBoth s t code sev data) := by
  unfold noted emitBoth
  refine foldl_keeps bare _ (fun u die => ?_) _ _
  split
  · rfl
  · exact bare_emitF ..

theorem enter_dies (i state : Nat) (c : Option Nat) : (enter s i state c t).field.dies = s.field.dies := rfl

theorem crossFailed_faultInst (i cause f : Nat) : (getDie (faultInst s i cause t) f).crossFailed = (getDie s f).crossFailed := by
  unfold faultInst
  split
  · rfl
  · dsimp only
    unfold getDie
    rw [enter_dies]
    exact crossFailed_of_noted (noted_emitBoth ..) f

theorem driveOutputs_dies : (driveOutputs s).field.dies = s.field.dies :=
  foldl_keeps (fun v => v.field.dies) driveOne (fun _ _ => rfl) _ _

theorem crossFailed_faultLink (f : Nat) : (getDie (faultLink s t) f).crossFailed = (getDie s f).crossFailed := by
  unfold faultLink getDie
  rw [driveOutputs_dies]
  exact foldl_keeps (fun v => (getDie v f).crossFailed) _ (fun u i => crossFailed_faultInst u t i 6 f) _ _

theorem failEnd_crossFailed (he : e = 28 ∨ e = 29) : (getDie (failEnd s e t) (e - 28)).crossFailed = true := by
  rw [failEnd_of_fieldCross s e t he, crossFailed_faultLink]
  unfold getDie updDie
  rw [vget_vupd_self _ _ _ _ (by omega)]

@[simp] theorem refreshLease_links : (refreshLease s).twin.links = s.twin.links := by
  unfold refreshLease
  dsimp only
  split <;> simp

theorem linkSession_session (l : Nat) (up : Bool) (hl : l < 4) : (vget (linkSession s l up).twin.links l {}).session = up := by
  unfold linkSession
  dsimp only
  rw [refreshLease_links, apply_ite State.twin, emitL_twin, ite_self]
  unfold updTLink
  rw [vget_vupd_self _ _ _ _ hl]

theorem failEnd_session (h30 : 30 ≤ e) (he : e < 34) : (vget (failEnd s e t).twin.links (e - 30) {}).session = false := by
  rw [failEnd_of_twin s e t h30]
  exact linkSession_session _ _ _ (by omega)

end

/-- A command that declares an end failed does what O18 says of a failed end. -/
theorem linkFails_of_failEnd {c : Instr} {s : State} {e t : Nat} (hx : exec c s = .next (failEnd s e t)) (he : e < 34) :
    linkFails c s e := by
  refine ⟨failEnd s e t, hx, ?_, fun j hj => ?_, fun h => failEnd_laneFault s e t h, failEnd_crossFailed s e t,
    fun h => failEnd_session s e t h he, fun h => ?_⟩
  · unfold getEnd
    rw [failEnd_ilinks, vget_vupd_self _ _ _ _ he]
  · unfold getEnd
    rw [failEnd_ilinks, vget_vupd_of_ne _ _ _ hj]
  · rw [failEnd_of_other s e t (by omega) (by omega)]
    exact noted_declareFailed s e t

/-! ## Transfers -/

/-- A discard counts in a block counter of its die and nowhere else. -/
theorem countDiscard_eq (s : State) (e : Nat) (crc : Bool) :
    countDiscard s e crc = { s with perf.blocks := (countDiscard s e crc).perf.blocks } := by
  unfold countDiscard
  dsimp only
  split
  · rfl
  · split
    · rfl
    · split <;> rfl

theorem transferRule_holds : transferRule := by
  intro s link seq i ok hup
  refine ⟨fun hok hnew => ?_, fun hbad => ?_⟩
  · refine ⟨_, show execInternalLinkTransfer link seq ok i s = .next _ from ?_, rfl⟩
    simp [execInternalLinkTransfer, hup, hok, hnew, updEnd]
  · have hno : (ok && !((getEnd s link).seen.contains seq)) = false := by
      rcases hbad with rfl | hold
      · rfl
      · simp [hold]
    refine ⟨_, show execInternalLinkTransfer link seq ok i s = .next _ from ?_,
      countDiscard_eq (updEnd s link (fun l => { l with discards := l.discards + 1, badNow := true, lastHeard := i })) link (!ok)⟩
    simp only [execInternalLinkTransfer, hup, hno]
    rfl

/-! ## Failure -/

theorem linkFailRule_holds : linkFailRule := by
  intro s link i hup hok
  refine ⟨fun hrun => linkFails_of_failEnd (t := i) ?_ link.isLt, fun hsil => linkFails_of_failEnd (t := i) ?_ link.isLt⟩
  · show execInternalLinkDiscardLimit link i s = _
    simp [execInternalLinkDiscardLimit, hup, hok, hrun]
  · show execInternalLinkSilence link i s = _
    simp [execInternalLinkSilence, silenceLimit, hup, hok, hsil]

/-! ## Restoration -/

/-- What the restoration of an end brings beside the end itself. -/
def restoration (s : State) (e t : Nat) : State :=
  if e = 18 || e = 19 then
    let s := takeWaiting (takeWaiting s 0) 1
    exchangeJournals (if hubLinkUp s then handOver s (dutyHub s) else s) t
  else if 20 ≤ e && e < 24 then flushKept s ((e - 20) % 2)
  else if e = 28 || e = 29 then updDie s (e - 28) (fun d => { d with crossFailed := false })
  else if 30 ≤ e then twinHelloSend s (e - 30) t
  else s

theorem exec_internalLinkRestored {s : State} {link : Fin 34} (i : Nat) (hup : endUp s link = true)
    (hf : (getEnd s link).failed = true) (hc : (getEnd s link).clean = true) (hb : (getEnd s link).badNow = false) :
    exec (.internalLinkRestored link i) s =
      .next (restoration (updEnd s link (fun l => { l with failed := false, lastHeard := i })) link i) := by
  show execInternalLinkRestored link i s = _
  simp only [execInternalLinkRestored, hup, hf, hc, hb]
  rfl

section
variable (s : State) (e t : Nat)

theorem restoration_of_plain (he : e < 18 ∨ 24 ≤ e ∧ e < 28) : restoration s e t = s := by
  simp [restoration, show e ≠ 18 by omega, show e ≠ 19 by omega, show ¬ (20 ≤ e ∧ e < 24) by omega, show e ≠ 28 by omega,
    show e ≠ 29 by omega, show ¬ 30 ≤ e by omega]

theorem restoration_of_field (h20 : 20 ≤ e) (h24 : e < 24) : restoration s e t = flushKept s ((e - 20) % 2) := by
  simp [restoration, show e ≠ 18 by omega, show e ≠ 19 by omega, h20, h24]

theorem restoration_of_fieldCross (he : e = 28 ∨ e = 29) :
    restoration s e t = updDie s (e - 28) (fun d => { d with crossFailed := false }) := by
  rcases he with rfl | rfl <;> rfl

/-- No other end moves with a restored one. -/
theorem restoration_ilinks : (restoration s e t).ilinks = s.ilinks := by
  unfold restoration
  dsimp only
  split
  · rw [exchangeJournals_ilinks, apply_ite State.ilinks]
    simp [handOver]
  · split
    · exact ilinks_of_noted (noted_flushKept ..)
    · split
      · rfl
      · split
        · exact twinHelloSend_ilinks ..
        · rfl

theorem kept_flushKept (f : Nat) (hf : f < 2) : (getDie (flushKept s f) f).kept = [] := by
  unfold flushKept getDie
  dsimp only
  rw [vget_vupd_self _ _ _ _ hf]
end

theorem linkRestoredRule_holds : linkRestoredRule := by
  intro s link i hup hf hc hb
  refine ⟨_, exec_internalLinkRestored i hup hf hc hb, ?_, fun he => ?_, fun ⟨h20, h24⟩ => ?_, fun he => ?_⟩
  · exact restoration_ilinks ..
  · rw [restoration_of_plain _ _ _ he]
    rfl
  · rw [restoration_of_field _ _ _ h20 h24]
    refine ⟨?_, kept_flushKept _ _ (by omega)⟩
    have hn := noted_flushKept (updEnd s link (fun l => { l with failed := false, lastHeard := i })) ((link.val - 20) % 2)
    rw [ilinks_of_noted hn]
    exact hn
  · rw [restoration_of_fieldCross _ _ _ he]
    rfl

end Sys2Proof.Machine

open Sys2Proof.Machine in
/-- Settles O18, from what each command does at each kind of end: `failEnd` and `restoration` move no end but the one named, and
a lane fault of a set of three takes the lane out. -/
theorem internalLinks : Obligations.InternalLinks := ⟨transferRule_holds, linkFailRule_holds, linkRestoredRule_holds⟩

/-!
PROOFS. O19: restarts of one die. Its clause on the command reset of a hub is refuted (01 R16).
-/

namespace Sys2Proof.Machine
open Sys2Proof.Safe Sys2Proof.Claims

/-- A command of one hub alone while both are in operation is refused and recorded, whatever its target (01 R16): a hub too. -/
theorem exec_dieResetCommand_of_one {s : State} {a b : Bool} (die : Fin 7) (i : Nat) (hab : a ≠ b) (h0 : hubUp s 0 = true)
    (h1 : hubUp s 1 = true) : exec (.dieResetCommand die a b i) s = .next (emitDie s die i) := by
  have hnot : resetAccepted s a b = false := by
    have both : (a && b) = false := by
      refine Bool.eq_false_iff.mpr fun h => hab ?_
      obtain ⟨ha, hb⟩ := Bool.and_eq_true_iff.mp h
      rw [ha, hb]
    simp [resetAccepted, both, h0, h1]
  have hone : (a != b) = true := bne_iff_ne.mpr hab
  show execDieResetCommand die a b i s = _
  simp [execDieResetCommand, hnot, hone, h0, h1]

/-- So it does not leave the state as it was: the record's code, severity and data are free values. -/
theorem dieResetCommand_of_one_changes {s : State} {a b : Bool} (die : Fin 7) (i : Nat) (hab : a ≠ b) (h0 : hubUp s 0 = true)
    (h1 : hubUp s 1 = true) : ¬ does (.dieResetCommand die a b i) s (fun t => t = s) := by
  rintro ⟨t, ht, rfl⟩
  rw [exec_dieResetCommand_of_one die i hab h0 h1] at ht
  have hs : emitDie t die i = t := by injection ht
  have hc := emitDie_freeCount t die i
  rw [hs] at hc
  omega

theorem not_dieResetRule : ¬ dieResetRule := by
  intro h
  obtain ⟨-, -, -, hub⟩ := h State.reset 3 true false 0
  exact dieResetCommand_of_one_changes 3 0 (by decide) (by decide) (by decide) (hub (.inl rfl))

end Sys2Proof.Machine

open Sys2Proof.Machine in
/-- Refutes O19: its last clause of DIE_RESET_COMMAND says that a command aimed at a hub changes nothing, whoever gives it. At the
reset state, where both hubs are in operation, a command of HA alone to die 3 is refused and recorded as R16 requires of any target. -/
theorem not_laneAndFieldRestarts : ¬ Obligations.LaneAndFieldRestarts := by
  rintro ⟨-, -, -, hreset, -⟩
  exact not_dieResetRule hreset

/-!
PROOFS. Retirement and exception entry of an instruction that a core runs, in the terms of the statements.
-/

namespace Sys2Proof.Machine
open Sys2Proof.Claims

section
variable {s : State} {i : Nat} {st : Stall}

/-- A retirement that posts nothing leaves the stall as it says, less the charge and with BIP clear; no other stall changes. -/
theorem applyIRes_retire_stall (s : State) (core i : Nat) (st st' : Stall) (charge : Nat) (evs : List (Nat × Nat))
    (lat : Nat × Nat) (ev : Nat) :
    getStall? (applyIRes s core i st charge (.retire st' evs lat ev none)) i =
        some { st' with exec := retireSw { st'.exec with fuel := st'.exec.fuel - charge } } ∧
      stallOnly s (applyIRes s core i st charge (.retire st' evs lat ev none)) i := by
  obtain ⟨p, n, h⟩ := applyIRes_retire s core i st st' charge evs lat ev
  rw [h]
  exact ⟨getStall?_setStall s i _, rfl, fun _ hj => getStall?_setStall_ne s _ hj⟩

/-- Retiring to `pc` with execution state `x`, whose fuel the body has not touched, is retiring as the statements say. -/
theorem applyIRes_retired (s : State) (core i : Nat) (st : Stall) (charge : Nat) {x : Exec} (pc : Word)
    (evs : List (Nat × Nat)) (lat : Nat × Nat) (ev : Nat) (hx : x.fuel = st.exec.fuel) :
    retired s (applyIRes s core i st charge (.retire { st with exec := { x with pc := pc } } evs lat ev none)) i st x pc
      charge := by
  obtain ⟨hst, honly⟩ := applyIRes_retire_stall s core i st { st with exec := { x with pc := pc } } charge evs lat ev
  refine ⟨?_, honly⟩
  rw [hst, ← hx]
  rfl

/-- An exception raised at the pc, where one can be entered, leaves the stall in its handler. -/
theorem applyIRes_entered (core charge : Nat) (cause detail : Nat) (fa : Word) (evs : List (Nat × Nat))
    (hst : getStall? s i = some st) (hc : canEnter st st.exec) :
    entered s (applyIRes s core i st charge (trapAt st.exec cause detail fa evs)) i st st.exec st.exec.pc fa cause detail := by
  obtain ⟨h4, hexl, hhandler, h64, hframe⟩ := hc
  obtain ⟨p, n, h⟩ := applyIRes_trap (s := s) (core := core) (i := i) (charge := charge) (x0 := st.exec) (evs := evs)
    (takeException_entered st.exec.pc fa cause detail h4 hexl hhandler h64 hframe)
  rw [trapAt, h]
  refine ⟨?_, rfl, fun _ hj => getStall?_updStall_ne s _ hj⟩
  rw [getStall?_withPerf, getStall?_updStall, hst]
  rfl

/-- A ready core runs the body of its instruction. -/
theorem runInsn_ready {core : CoreIx} {charge : Nat} (hr : ready s core i st charge) (body : State → Stall → Exec → IRes) :
    runInsn core charge body s = applyIRes s core i st charge (body s st st.exec) := by
  obtain ⟨hrun, hfetch, hfuel⟩ := hr
  exact runInsn_body body hrun hfetch hfuel

theorem getStall?_of_ready {core : CoreIx} {charge : Nat} (hr : ready s core i st charge) : getStall? s i = some st :=
  getStall?_of_running hr.1

end

/-! ## The checks of a data access (03 R66, 02 R49) -/

section
variable {s : State} {st : Stall} {ea : Word} {n slot off : Nat} {w : Bool} {m : MapItem} {e : Entry}

theorem firstBad_eq_none {ok : Nat → Bool} {a n : Nat} (h : ∀ j, j < n → ok ((a + j) % 2 ^ 64) = true) :
    firstBad ok a n = none := by
  induction n generalizing a with
  | zero => rfl
  | succ n ih =>
    have hhead : ok (a % 2 ^ 64) = true := h 0 (Nat.succ_pos n)
    have htail : ∀ j, j < n → ok ((a + 1 + j) % 2 ^ 64) = true := fun j hj => by
      rw [Nat.add_assoc, Nat.add_comm 1 j]
      exact h (j + 1) (Nat.succ_lt_succ hj)
    rw [firstBad, if_pos hhead, ih htail]

theorem checkAccess_misaligned (hn : ea.toNat % n ≠ 0) : checkAccess s st ea n w = .bad 2 (if w then 2 else 1) ea := by
  simp [checkAccess, hn]

theorem checkAccess_mem (hn : ea.toNat % n = 0) (hd : inDictwin ea.toNat = false)
    (hok : ∀ j, j < n → (if w then canWrite st.desc else canRead st.desc) ((ea.toNat + j) % 2 ^ 64) = true) :
    checkAccess s st ea n w = .mem ea.toNat := by
  simp [checkAccess, hn, hd, firstBad_eq_none hok]

/-- Where an address `off` bytes into slot `slot` of the window lies. -/
theorem dictwin_slot {a : Nat} (ha : a = 0x80000000 + 8 * slot + off) (ho : off < 8) (hs : slot < 8192) :
    inDictwin a = true ∧ (a - baseDictwin) / 8 = slot ∧ (a - baseDictwin) % 8 = off := by
  subst ha
  have hin : inDictwin (0x80000000 + 8 * slot + off) = true := by
    rw [inDictwin, inSeg, Bool.and_eq_true, decide_eq_true_eq, decide_eq_true_eq, baseDictwin]
    omega
  rw [baseDictwin]
  exact ⟨hin, by omega, by omega⟩

theorem slot_aligned {a : Nat} (ha : a = 0x80000000 + 8 * slot + off) (hn : n ∣ 8) (ho : off % n = 0) : a % n = 0 := by
  subst ha
  have hbase : n ∣ 0x80000000 := hn.trans (by decide)
  exact Nat.mod_eq_zero_of_dvd (((hbase.add (hn.mul_right slot))).add (Nat.dvd_of_mod_eq_zero ho))

section
variable (ha : ea.toNat = 0x80000000 + 8 * slot + off) (ho : off < 8) (hn : n ∣ 8) (hoff : off % n = 0) (h1 : 1 ≤ slot)
  (h2 : slot < 8192)
include ha ho hn hoff h1 h2

theorem checkAccess_unmapped (hi : slotItem s st slot = none) : checkAccess s st ea n w = .bad 3 4 ea := by
  obtain ⟨hdw, hslot, -⟩ := dictwin_slot ha ho h2
  have h0 : slot ≠ 0 := by omega
  simp [checkAccess, slot_aligned ha hn hoff, hdw, hslot, h0, hi]

theorem checkAccess_slotLoad (hi : slotItem s st slot = some (m, e)) (hfit : off + n ≤ natSize e) :
    checkAccess s st ea n false = .dict slot off := by
  obtain ⟨hdw, hslot, hof⟩ := dictwin_slot ha ho h2
  have h0 : slot ≠ 0 := by omega
  simp [checkAccess, slot_aligned ha hn hoff, hdw, hslot, hof, h0, hi, hfit]

theorem checkAccess_slotStore (hi : slotItem s st slot = some (m, e)) (hwhole : natSize e = n) (hzero : off = 0)
    (hw : m.write = true) : checkAccess s st ea n true = .dict slot 0 := by
  obtain ⟨hdw, hslot, hof⟩ := dictwin_slot ha ho h2
  have h0 : slot ≠ 0 := by omega
  simp [checkAccess, slot_aligned ha hn hoff, hdw, hslot, hof, h0, hi, hwhole, hzero, hw]

end
end

/-! ## Bytes of a word -/

/-- The model's sign extension of an `n`-byte value is that of a word of 8n bits. -/
theorem sextN_eq {n : Nat} (hn : 0 < n) (x : Nat) : sextN n x = (BitVec.ofNat (8 * n) x).signExtend 64 := by
  have hpow : 2 ^ (8 * n) = 2 * 2 ^ (8 * n - 1) := by
    rw [← Nat.pow_succ', Nat.succ_eq_add_one, Nat.sub_add_cancel (by omega : 1 ≤ 8 * n)]
  have hint : toInt n x = (BitVec.ofNat (8 * n) x).toInt := by
    rw [BitVec.toInt_eq_toNat_cond, BitVec.toNat_ofNat, toInt]
    exact if_congr (by omega) rfl rfl
  rw [sextN, hint, BitVec.signExtend]

theorem signExtend_byte : (fun x => (BitVec.ofNat 8 x).signExtend 64 : Nat → Word) = sextN 1 :=
  funext fun x => (sextN_eq Nat.one_pos x).symm
theorem signExtend_half : (fun x => (BitVec.ofNat 16 x).signExtend 64 : Nat → Word) = sextN 2 :=
  funext fun x => (sextN_eq (n := 2) (by decide) x).symm
theorem signExtend_word : (fun x => (BitVec.ofNat 32 x).signExtend 64 : Nat → Word) = sextN 4 :=
  funext fun x => (sextN_eq (n := 4) (by decide) x).symm

theorem bits_bytes (v off n : Nat) : bits v (8 * off) (8 * n) = v / 256 ^ off % 256 ^ n := by
  rw [bits, Nat.pow_mul, Nat.pow_mul]

theorem extractLsb'_byte (v : Word) (k : Nat) : v.extractLsb' (8 * k) 8 = BitVec.ofNat 8 (v.toNat / 256 ^ k) := by
  rw [BitVec.extractLsb', Nat.shiftRight_eq_div_pow, Nat.pow_mul]

end Sys2Proof.Machine

/-!
PROOFS. O5, O6: loads and stores (03 R66, R67, 02 R48 to R50).
-/

namespace Sys2Proof.Machine
open Sys2Proof.Claims

section
variable {mk : CoreIx → Reg → Reg → BitVec 16 → Instr} {n : Nat} {ext : Nat → Word}

theorem loadRule_of_loadOp (h : ∀ core rt ra disp s, exec (mk core rt ra disp) s = .next (loadOp core rt ra disp n ext s)) :
    loadRule mk n ext := by
  intro s core rt ra disp i st hr
  refine ⟨fun ⟨haligned, houtside, hread⟩ => ⟨_, h .., ?_⟩, fun hmis hc => ⟨_, h .., ?_⟩⟩
  · have hacc : checkAccess s st (effAddr st.exec ra disp) n false = .mem (effAddr st.exec ra disp).toNat :=
      checkAccess_mem haligned houtside hread
    simp only [loadOp, runInsn_ready hr, hacc]
    exact applyIRes_retired _ _ _ _ _ _ _ _ _ (rset_fuel ..)
  · have hacc : checkAccess s st (effAddr st.exec ra disp) n false = .bad 2 1 (effAddr st.exec ra disp) :=
      checkAccess_misaligned hmis
    simp only [loadOp, runInsn_ready hr, hacc]
    exact applyIRes_entered _ _ _ _ _ _ (getStall?_of_ready hr) hc

theorem dictLoadRule_of_loadOp (hn : n ∣ 8)
    (h : ∀ core rt ra disp s, exec (mk core rt ra disp) s = .next (loadOp core rt ra disp n ext s)) :
    dictLoadRule mk n ext := by
  intro s core rt ra disp i st slot off hr ha ho hoff h1 h2
  refine ⟨fun m e hi hfit => ⟨_, h .., ?_⟩, fun hi hc => ⟨_, h .., ?_⟩⟩
  · have hacc : checkAccess s st (effAddr st.exec ra disp) n false = .dict slot off :=
      checkAccess_slotLoad ha ho hn hoff h1 h2 hi hfit
    simp only [loadOp, runInsn_ready hr, hacc, bits_bytes]
    exact applyIRes_retired _ _ _ _ _ _ _ _ _ (rset_fuel ..)
  · have hacc : checkAccess s st (effAddr st.exec ra disp) n false = .bad 3 4 (effAddr st.exec ra disp) :=
      checkAccess_unmapped ha ho hn hoff h1 h2 hi
    simp only [loadOp, runInsn_ready hr, hacc]
    exact applyIRes_entered _ _ _ _ _ _ (getStall?_of_ready hr) hc

theorem storeRule_of_storeOp (h : ∀ core rt ra disp s, exec (mk core rt ra disp) s = .next (storeOp core rt ra disp n s)) :
    storeRule mk n := by
  rintro s core rt ra disp i st hr hwf ⟨haligned, houtside, hwrite⟩
  have hacc : checkAccess s st (effAddr st.exec ra disp) n true = .mem (effAddr st.exec ra disp).toNat :=
    checkAccess_mem haligned houtside hwrite
  refine ⟨_, mwrite st.exec.mem (effAddr st.exec ra disp).toNat n (rget st.exec rt).toNat, h .., ?_, wf_mwrite _ _ _ _ hwf,
    fun a => ?_⟩
  · simp only [storeOp, runInsn_ready hr, hacc]
    exact applyIRes_retired _ _ _ _ _ _ _ _ _ rfl
  · rw [mget_mwrite _ _ _ _ _ hwf, extractLsb'_byte]
    rfl

/-- A slot listed among those written is listed still, and one that is not is put last (02 R50). -/
theorem mem_appendNew (l : List Nat) (a : Nat) : a ∈ if a ∈ l then l else l ++ [a] := by
  split
  · assumption
  · exact List.mem_append_right l (List.mem_singleton_self a)

theorem dictStoreRule_of_storeOp (hn : n ∣ 8)
    (h : ∀ core rt ra disp s, exec (mk core rt ra disp) s = .next (storeOp core rt ra disp n s)) :
    dictStoreRule mk n := by
  intro s core rt ra disp i st slot m e hr ha h1 h2 hi hwhole hw
  have hacc : checkAccess s st (effAddr st.exec ra disp) n true = .dict slot 0 :=
    checkAccess_slotStore (off := 0) ha (by decide) hn (Nat.zero_mod n) h1 h2 hi hwhole rfl hw
  have hrun : storeOp core rt ra disp n s = applyIRes s core i st 1
      (.retire { st with
        dwWrites := nset st.dwWrites slot ((rget st.exec rt).toNat % 256 ^ n)
        dwOrder := if m.slot ∈ st.dwOrder then st.dwOrder else st.dwOrder ++ [m.slot]
        exec := { st.exec with pc := st.exec.pc + 4 } } [(0x15, 1), (0x17, 1)] (1, 0) 0 none) := by
    simp only [storeOp, runInsn_ready hr, hacc, hi]
  obtain ⟨hst, honly⟩ := applyIRes_retire_stall s core i st _ 1 _ _ _
  rw [← hrun] at hst honly
  exact ⟨_, _, h .., hst, by rw [slotValue, nget?_nset_self], mem_appendNew .., rfl, rfl, rfl, rfl, honly⟩

end

end Sys2Proof.Machine

open Sys2Proof.Machine in
/-- Settles O5: every load is `loadOp` at its size and extension. -/
theorem loads : Obligations.Loads := by
  rw [Obligations.Loads, signExtend_byte, signExtend_half, signExtend_word]
  have h2 : 2 ∣ 8 := by decide
  have h4 : 4 ∣ 8 := by decide
  exact ⟨loadRule_of_loadOp fun _ _ _ _ _ => rfl, loadRule_of_loadOp fun _ _ _ _ _ => rfl,
    loadRule_of_loadOp fun _ _ _ _ _ => rfl, loadRule_of_loadOp fun _ _ _ _ _ => rfl,
    loadRule_of_loadOp fun _ _ _ _ _ => rfl, loadRule_of_loadOp fun _ _ _ _ _ => rfl,
    loadRule_of_loadOp fun _ _ _ _ _ => rfl,
    dictLoadRule_of_loadOp (one_dvd 8) fun _ _ _ _ _ => rfl, dictLoadRule_of_loadOp (one_dvd 8) fun _ _ _ _ _ => rfl,
    dictLoadRule_of_loadOp h2 fun _ _ _ _ _ => rfl, dictLoadRule_of_loadOp h2 fun _ _ _ _ _ => rfl,
    dictLoadRule_of_loadOp h4 fun _ _ _ _ _ => rfl, dictLoadRule_of_loadOp h4 fun _ _ _ _ _ => rfl,
    dictLoadRule_of_loadOp (dvd_refl 8) fun _ _ _ _ _ => rfl⟩

open Sys2Proof.Machine in
/-- Settles O6: every store is `storeOp` at its size. -/
theorem stores : Obligations.Stores :=
  ⟨storeRule_of_storeOp fun _ _ _ _ _ => rfl, storeRule_of_storeOp fun _ _ _ _ _ => rfl,
    storeRule_of_storeOp fun _ _ _ _ _ => rfl, storeRule_of_storeOp fun _ _ _ _ _ => rfl,
    dictStoreRule_of_storeOp (one_dvd 8) fun _ _ _ _ _ => rfl, dictStoreRule_of_storeOp (by decide) fun _ _ _ _ _ => rfl,
    dictStoreRule_of_storeOp (by decide) fun _ _ _ _ _ => rfl, dictStoreRule_of_storeOp (dvd_refl 8) fun _ _ _ _ _ => rfl⟩

/-!
PROOFS. The codes with which a write is refused (02 R45, R46), and what a refusal leaves of the state (R47).
-/

namespace Sys2Proof.Machine
open Sys2Proof.Claims

/-! ## Abort codes -/

/-- A code of an abort class from 1 to 6: ABT_ACCESS, ABT_OBJECT, ABT_WIDTH, ABT_RANGE, ABT_STATE or ABT_LOCK. Its refusal is only
counted. -/
def Counted (c : Nat) : Prop := 0 < c / 2 ^ 24 ∧ c / 2 ^ 24 < 7

theorem counted_abort {cls d : Nat} (h0 : 0 < cls) (h7 : cls < 7) (hd : d < 2 ^ 24) : Counted (abort cls d) := by
  unfold Counted abort
  omega

theorem Counted.ne_zero {c : Nat} (h : Counted c) : c ≠ 0 := by
  obtain ⟨hpos, -⟩ := h
  omega

theorem Counted.ne_busy {c d : Nat} (h : Counted c) : c ≠ abort abtBusy d := by
  obtain ⟨-, h7⟩ := h
  unfold abort abtBusy
  omega

/-- The code that R45 chooses is one of those met. -/
theorem chooseAbort_mem {l : List Nat} (hl : l ≠ []) (h0 : ∀ c ∈ l, c ≠ 0) : chooseAbort l ∈ l := by
  induction l with
  | nil => exact absurd rfl hl
  | cons c cs ih =>
    have hc : c ≠ 0 := h0 c (List.mem_cons_self ..)
    rcases cs with _ | ⟨d, ds⟩
    · simp [chooseAbort, hc]
    · have hr : chooseAbort (d :: ds) ∈ d :: ds := ih (List.cons_ne_nil d ds) fun x hx => h0 x (List.mem_cons_of_mem _ hx)
      have hmin : min c (chooseAbort (d :: ds)) ∈ c :: d :: ds := by
        rcases min_choice c (chooseAbort (d :: ds)) with h | h <;> rw [h]
        · exact List.mem_cons_self ..
        · exact List.mem_cons_of_mem _ hr
      rw [chooseAbort, if_neg hc]
      split
      · exact List.mem_cons_self ..
      · split
        · exact List.mem_cons_self ..
        · split
          · exact List.mem_cons_of_mem _ hr
          · exact hmin

theorem counted_chooseAbort {l : List Nat} (hl : l ≠ []) (h : ∀ c ∈ l, Counted c) : Counted (chooseAbort l) :=
  h _ (chooseAbort_mem hl fun c hc => (h c hc).ne_zero)

theorem mem_refuseIf {p : Bool} {cls d c : Nat} (h : c ∈ refuseIf p cls d) : p = true ∧ c = abort cls d := by
  unfold refuseIf at h
  split at h
  · exact ⟨by assumption, List.mem_singleton.mp h⟩
  · exact absurd h List.not_mem_nil

theorem counted_of_mem_refuseIf {p : Bool} {cls d c : Nat} (h : c ∈ refuseIf p cls d) (h0 : 0 < cls) (h7 : cls < 7)
    (hd : d < 2 ^ 24) : Counted c := by
  obtain ⟨-, rfl⟩ := mem_refuseIf h
  exact counted_abort h0 h7 hd

/-! ## The conditions of the entry table -/

section
variable {s : State} {w : WReq} {e : Entry} {c : Nat}

theorem needRole_lt (he : e.wr < 2 ^ 8) : needRole w e < 2 ^ 8 := by
  unfold needRole
  split
  · decide
  · exact he

theorem lockAt_lt (he : e.lock < 2 ^ 16) (sub : Nat) : e.lockAt sub < 2 ^ 16 := by
  unfold Entry.lockAt
  split
  · split
    · decide
    · split <;> decide
  · exact he

/-- Every access condition refuses with ABT_ACCESS. -/
theorem counted_accessConds (hwr : e.wr < 2 ^ 8) (h : c ∈ accessConds s w e) : Counted c := by
  have hno : Counted (abort abtAccess 0xFF) := counted_abort (by decide) (by decide) (by decide)
  unfold accessConds at h
  split at h
  · rwa [List.mem_singleton.mp h]
  · split at h
    · split at h
      · rwa [List.mem_singleton.mp h]
      · split at h
        · exact counted_of_mem_refuseIf h (by decide) (by decide) (by decide)
        · rcases List.mem_append.mp h with h | h <;> exact counted_of_mem_refuseIf h (by decide) (by decide) (by decide)
    · split at h
      · exact absurd h List.not_mem_nil
      · exact counted_of_mem_refuseIf h (by decide) (by decide) (lt_trans (needRole_lt hwr) (by decide))

/-- Of the conditions of the entry table only ABT_BUSY in a power-fail has a class beyond ABT_LOCK. -/
theorem counted_genericConds (hlen : w.len = e.len) (hwr : e.wr < 2 ^ 8) (hlock : e.lock < 2 ^ 16)
    (hpf : s.supply.powerFail = none) (h : c ∈ genericConds s w e) : Counted c := by
  simp only [genericConds, List.mem_append] at h
  rcases h with (((((((h | h) | h) | h) | h) | h) | h) | h) | h
  · exact counted_of_mem_refuseIf h (by decide) (by decide) (by decide)
  · exact counted_accessConds hwr h
  · obtain ⟨hne, -⟩ := mem_refuseIf h
    exact absurd hlen (of_decide_eq_true hne)
  · exact counted_of_mem_refuseIf h (by decide) (by decide) (lt_trans (lockAt_lt hlock _) (by decide))
  · obtain ⟨hbusy, -⟩ := mem_refuseIf h
    rw [hpf, Option.isSome_none, Bool.and_false] at hbusy
    exact absurd hbusy Bool.false_ne_true
  all_goals exact counted_of_mem_refuseIf h (by decide) (by decide) (by decide)

end

/-! ## What a refusal leaves (R47) -/

section
variable {s : State} {w : WReq} {e : Entry} {h : Handler} {ctx code : Nat}

theorem noteRefusal_counted (hc : Counted code) (idx sub pkg : Nat) (own : Bool) :
    noteRefusal s ctx idx sub code pkg own = updCtx s ctx (fun c => { c with refusals := c.refusals + 1 }) := by
  obtain ⟨-, h7⟩ := hc
  have h8 : code / 0x1000000 ≠ abtCapacity := by unfold abtCapacity; omega
  have h10 : code / 0x1000000 ≠ abtAuth := by unfold abtAuth; omega
  have h11 : code / 0x1000000 ≠ abtIntegrity := by unfold abtIntegrity; omega
  simp [noteRefusal, h8, h10, h11]

/-- A write refused with a counted code, by a rule that names no event of its own, counts as a refusal of its context and is answered. -/
theorem applyW_counted (hj : Counted (judgeW h e s w)) (ho : h.own = false) :
    applyW h e s w =
      answerW (updCtx s w.ctx (fun c => { c with refusals := c.refusals + 1 })) w (judgeW h e s w) := by
  simp [applyW, hj.ne_zero, hj.ne_busy, ho, noteRefusal_counted hj]

/-- A write that no DAP request waits for is answered by nothing, where its context is no stall's. -/
theorem answerW_unasked (ha : w.answer = false) (hs : ctxIsStall w.ctx = false) : answerW s w code = s := by
  simp [answerW, ha, hs]

/-- A refusal shows in slot 0 of the stall that wrote (02 R48). -/
theorem answerW_stall (hs : ctxIsStall w.ctx = true) (h0 : code ≠ 0) : answerW s w code =
    updStall s (w.ctx - 5000) (fun st => { st with dwAbort := code, dwCount := min 0xFFFFFFFF (st.dwCount + 1) }) := by
  simp [answerW, hs, h0]

/-- Where no other condition is met, the entry table's alone choose the code. -/
theorem judgeW_generic (ha : h.act w = none) (hc : h.conds s w = []) : judgeW h e s w = chooseAbort (genericConds s w e) := by
  simp [judgeW, writeBlock, ha, hc, refuseIf]

end

end Sys2Proof.Machine

/-!
PROOFS. O23: dictionary writes, select entries and lock bits (02 R29 to R47, 18 R460, 23 R534, 20 R500).
-/

namespace Sys2Proof.Machine
open Sys2Proof.Claims

section
variable {s : State} {ctx idx sub v : Nat} {e : Entry}

/-- An open context's DICT_WRITE is the write that the entry's own handler judges. -/
theorem exec_dictWrite (hl : lookupEntry s idx sub = some e) :
    exec (.dictWrite ctx idx sub v) s = .next (writeCmd (handlerOf e sub) e ctx idx sub v s) := by
  show execDictWrite ctx idx sub v s = _
  simp only [execDictWrite, hl, applyWrite, writeCmd]
  simp [mkW, hl]

/-- An accepted write to an entry that keeps its value stores it, and is filed. -/
theorem writeCmd_store {h : Handler} (heff : h.eff = storeEff e) (hact : ∀ w, h.act w = none) (hlog : h.log = true)
    (ha : accepts s e ctx idx sub v) (hc : h.conds s (mkW s ctx idx sub e.len v e) = []) :
    writeCmd h e ctx idx sub v s = filed s e ctx idx sub v (svx s e idx sub (chosen s e ctx) v) := by
  obtain ⟨hopen, hgen⟩ := ha
  rw [writeCmd_accepted s idx sub ctx h e v hopen hgen (fun _ _ _ h => by simp [hact] at h) hc, heff, hlog, Bool.and_true]
  rfl

theorem dictWriteRule_holds : dictWriteRule := by
  intro s ctx idx sub v e hl hh
  refine ⟨fun ha => ⟨_, exec_dictWrite hl, ?_⟩, fun cls hopen hstall hcls h0 h7 => ⟨_, exec_dictWrite hl, ?_⟩⟩
  · rw [hh]
    exact writeCmd_store rfl (fun _ => rfl) rfl ha rfl
  · have hj : judgeW (storeHandler e) e s (mkW s ctx idx sub e.len v e) =
        chooseAbort (genericConds s (mkW s ctx idx sub e.len v e) e) := judgeW_generic rfl rfl
    have hcount : Counted (judgeW (storeHandler e) e s (mkW s ctx idx sub e.len v e)) := by
      rw [hj, Counted, ← hcls]
      exact ⟨h0, h7⟩
    rw [hh, writeCmd, if_pos hopen, applyW_counted hcount rfl, answerW_unasked rfl hstall]
    rfl

/-- An accepted write to an entry that is neither persistent nor of pair scope has its handler's effect alone. -/
theorem writeCmd_volatile {h : Handler} (hact : ∀ w, h.act w = none) (hp : e.persist = false) (hq : e.pair = false)
    (ha : accepts s e ctx idx sub v) (hc : h.conds s (mkW s ctx idx sub e.len v e) = []) :
    writeCmd h e ctx idx sub v s = h.eff s (mkW s ctx idx sub e.len v e) := by
  obtain ⟨hopen, hgen⟩ := ha
  rw [writeCmd_accepted s idx sub ctx h e v hopen hgen (fun _ _ _ h => by simp [hact] at h) hc]
  simp [hp, hq]

/-- No select entry is persistent or of pair scope (02 Table 02-5). -/
theorem select_volatile (hs : isSelect idx = true) (he : findEntry idx 1 = some e) : e.persist = false ∧ e.pair = false := by
  have hall : ∀ i ∈ [0x2000, 0x2040, 0x2200, 0x2580, 0x3000, 0x3100, 0x3200, 0x3400, 0x3500, 0x4000, 0x4100, 0x4200, 0x4300],
      ((findEntry i 1).all fun e => !e.persist && !e.pair) = true := by decide
  have h := hall idx (List.contains_iff_mem.mp hs)
  rw [he] at h
  simpa using h

theorem selectRule_holds : selectRule := by
  intro s ctx idx v e he hs ha
  obtain ⟨hp, hq⟩ := select_volatile hs he
  refine ⟨writeCmd hSelect e ctx idx 1 v s, ?_, writeCmd_volatile (fun _ => rfl) hp hq ha rfl⟩
  show execSelectWrite ctx idx v s = _
  simp [execSelectWrite, he, hs]

/-- Bits that need a role refuse nothing where there are none or the role is held. -/
theorem refuseIf_role {n : Nat} {held : Bool} (h : n = 0 ∨ held = true) (cls d : Nat) :
    refuseIf (decide (n ≠ 0) && !held) cls d = [] := by
  rcases h with rfl | rfl <;> simp [refuseIf]

theorem hLockBits_conds {w : WReq}
    (heng : (if w.sub = 4 then newLocks s w / 2 ^ 32 else newLocks s w) = 0 ∨ roleOk (w.roleIn s) 3 = true)
    (hsaf : (if w.sub = 4 then newLocks s w % 2 ^ 32 else 0) = 0 ∨ roleOk (w.roleIn s) 4 = true) :
    hLockBits.conds s w = [] := by
  unfold hLockBits
  exact List.append_eq_nil_iff.mpr ⟨refuseIf_role heng .., refuseIf_role hsaf ..⟩

theorem hLockAtStart_conds {w : WReq}
    (hclr : (gvs s E.lockAtStart w.sub 0 - (gvs s E.lockAtStart w.sub 0 &&& w.v)) &&& gvs s E.lockBits w.sub 0 = 0)
    (h32 : w.sub = 4 → w.v < 2 ^ 32 ∧ (w.v = 0 ∨ roleOk (w.roleIn s) 4 = true)) : hLockAtStart.conds s w = [] := by
  have hnone : (List.range 64).find? (fun i => bit 0 i) = none := by decide
  unfold hLockAtStart
  simp only [hclr, hnone, List.append_nil]
  by_cases h4 : w.sub = 4
  · obtain ⟨hlt, hrole⟩ := h32 h4
    rcases hrole with h | h
    · simp [refuseIf, h]
    · simpa [refuseIf, h] using fun _ => hlt
  · simp [refuseIf, h4]

theorem lockBitsRule_holds : lockBitsRule := by
  intro s ctx sub v old new h1 h4 ha hold hnew heng hsaf
  refine ⟨writeCmd hLockBits E.lockBits ctx 0x1140 sub v s, ?_, ?_⟩
  · show execLockBitsWrite ctx sub v s = _
    simp [execLockBitsWrite, h1, h4]
  · subst hold hnew
    exact writeCmd_volatile (fun _ => rfl) rfl rfl ha (hLockBits_conds heng hsaf)

theorem lockAtStartRule_holds : lockAtStartRule := by
  intro s ctx sub v old h1 h4 ha hold hclr h32
  refine ⟨writeCmd hLockAtStart E.lockAtStart ctx 0x1141 sub v s, ?_, ?_⟩
  · show execLockAtStartWrite ctx sub v s = _
    simp [execLockAtStartWrite, h1, h4]
  · subst hold
    refine writeCmd_store rfl (fun _ => rfl) rfl ha (hLockAtStart_conds hclr h32)

end

end Sys2Proof.Machine

open Sys2Proof.Machine in
/-- Settles O23: a command of the dictionary is its entry's handler, applied by `writeCmd`. -/
theorem dictionaryWrites : Obligations.DictionaryWrites :=
  ⟨dictWriteRule_holds, selectRule_holds, lockBitsRule_holds, lockAtStartRule_holds⟩

/-!
PROOFS. O24: arrival of the five DAP operations (02 R40 to R43, 18 R467).
-/

namespace Sys2Proof.Machine
open Sys2Proof.Claims

section
variable {s : State} {ctx op : Nat} {m : DapMsg} {c : Context}

/-- What a context's update comes to, where the context is open. -/
theorem updCtx_open (hc : nget? s.sup.ctxs ctx = some c) (f : Context → Context) :
    updCtx s ctx f = { s with sup.ctxs := nset s.sup.ctxs ctx (f c) } := by
  rw [updCtx, getCtx, nget, hc, Option.getD_some]

/-- The answer to a request that finds 16 outstanding: ABT_BUSY, detail 2. -/
def busyAnswer (ctx op : Nat) (m : DapMsg) (via : Option Nat) : Resp :=
  { ctx := ctx, reqId := m.reqId, op := op, index := m.index, sub := m.sub, elen := m.elen, code := abort abtBusy 2
    via := via, data := (u32 (abort abtBusy 2)).reverse }

theorem respBytes_busyAnswer (via : Option Nat) : respBytes (busyAnswer ctx op m via) =
    [1, BitVec.ofNat 8 op] ++ beBytes 2 m.reqId ++ beBytes 2 m.index ++ u8 m.sub ++ [0xC0] ++
      beBytes 2 (if op ≤ 2 then m.elen else 0) ++ [0, 4, 0x07, 0x00, 0x00, 0x02] := by
  have hcode : abort abtBusy 2 ≠ 0 := by decide
  have hdata : (u32 (abort abtBusy 2)).reverse = [0x07, 0x00, 0x00, 0x02] := by decide
  have hlen : beBytes 2 4 = [0, 4] := by decide
  simp [respBytes, busyAnswer, dapHead, hcode, hdata, hlen, u8, leBytes]

/-- The item by which a refusal at once leaves: kind 5, with the octets of the response. -/
theorem pushResp_item (s : State) (r : Resp) : ∃ x : OutItem,
    pushResp s r = { s with sup.outs := s.sup.outs ++ [x], con.sessions := (pushResp s r).con.sessions } ∧
      x.kind = 5 ∧ x.ident = respIdent r ∧ x.tag = r.reqId ∧ x.data = respBytes r := by
  unfold pushResp
  split <;> exact ⟨_, rfl, rfl, rfl, rfl, rfl⟩

theorem dapArrive_malformed (hc : nget? s.sup.ctxs ctx = some c) (via : Option Nat) (hubs seq : Nat)
    (hm : m.version ≠ 1 ∨ m.flags ≠ 0 ∨ m.plen ≠ m.body.length) :
    dapArrive s ctx op m via hubs seq =
      { s with sup.ctxs := nset s.sup.ctxs ctx { c with refusals := c.refusals + 1 } } := by
  have hopen : nhas s.sup.ctxs ctx = true := by rw [nhas, hc, Option.isSome_some]
  have hbad : (m.version ≠ 1 || m.flags ≠ 0 || m.plen ≠ m.body.length || op = 0 || 5 < op) = true := by
    rcases hm with h | h | h <;> simp [h]
  simp only [dapArrive, hc, dapDiscard, hopen, updCtx_open hc, hbad, if_true]

theorem dapHeader_ok (hv : m.version = 1) (hf : m.flags = 0) (hp : m.plen = m.body.length) (h1 : 1 ≤ op) (h5 : op ≤ 5) :
    (m.version ≠ 1 || m.flags ≠ 0 || m.plen ≠ m.body.length || op = 0 || 5 < op) = false := by
  have h0 : op ≠ 0 := by omega
  simp [hv, hf, hp, h0, h5]

section
variable (hc : nget? s.sup.ctxs ctx = some c) (hv : m.version = 1) (hf : m.flags = 0) (hp : m.plen = m.body.length)
  (h1 : 1 ≤ op) (h5 : op ≤ 5)
include hc hv hf hp h1 h5

/-- A 17th request outstanding counts as a refusal, and is answered at once. -/
theorem dapArrive_full (via : Option Nat) (hubs seq : Nat) (hfull : 16 ≤ c.outstanding) :
    dapArrive s ctx op m via hubs seq =
      pushResp { s with sup.ctxs := nset s.sup.ctxs ctx { c with refusals := c.refusals + 1 } }
        (busyAnswer ctx op m via) := by
  simp only [dapArrive, busyAnswer, hc, dapHeader_ok hv hf hp h1 h5, hfull, updCtx_open hc, Bool.false_eq_true, if_false, if_true]

/-- Any other request is outstanding, and waits for the image of the next crossing or for its derivation. -/
theorem dapArrive_taken (hubs seq : Nat) (hroom : c.outstanding < 16) :
    dapArrive s ctx op m none hubs seq =
      (let u := { s with sup.ctxs := nset s.sup.ctxs ctx { c with outstanding := c.outstanding + 1 } }
       let r : Request := { ctx := ctx, due := s.cyc.k + 2, reqId := m.reqId, op := op, index := m.index, sub := m.sub,
                            elen := m.elen, payload := m.body, hubs := hubs, seq := seq }
       if needsDerivation s op m = true then { u with upd.jobs := s.upd.jobs ++ [{ since := s.cyc.tk, req := r }] }
       else { u with sup.reqs := s.sup.reqs ++ [r] }) := by
  have hnot : ¬ 16 ≤ c.outstanding := Nat.not_le.mpr hroom
  simp only [dapArrive, hc, dapHeader_ok hv hf hp h1 h5, hnot, updCtx_open hc, Bool.false_eq_true, if_false,
    Option.isNone_none, Bool.true_and]
  rfl

end
end

theorem dapRule_of_dapCommand {mk : Nat → DapMsg → Instr} {op : Nat} (h1 : 1 ≤ op) (h5 : op ≤ 5)
    (h : ∀ ctx m s, exec (mk ctx m) s = .next (dapCommand s ctx op m)) : dapRule mk op := by
  rintro s ctx m c r hc rfl
  refine ⟨fun hm => ⟨_, h .., dapArrive_malformed hc _ _ _ hm⟩, fun hv hf hp hfull => ⟨_, h .., ?_⟩,
    fun hv hf hp hroom => ⟨_, h .., dapArrive_taken hc hv hf hp h1 h5 _ _ hroom⟩⟩
  rw [dapCommand, dapArrive_full hc hv hf hp h1 h5 _ _ _ hfull]
  obtain ⟨x, hx, hkind, hident, htag, hdata⟩ := pushResp_item
    { s with sup.ctxs := nset s.sup.ctxs ctx { c with refusals := c.refusals + 1 } } (busyAnswer ctx op m none)
  exact ⟨x, hx, hkind, hident, htag, hdata.trans (respBytes_busyAnswer none)⟩

end Sys2Proof.Machine

open Sys2Proof.Machine in
/-- Settles O24: each of the five commands is `dapCommand` of its operation. -/
theorem dapArrival : Obligations.DapArrival :=
  ⟨dapRule_of_dapCommand (by decide) (by decide) fun _ _ _ => rfl, dapRule_of_dapCommand (by decide) (by decide) fun _ _ _ => rfl,
    dapRule_of_dapCommand (by decide) (by decide) fun _ _ _ => rfl, dapRule_of_dapCommand (by decide) (by decide) fun _ _ _ => rfl,
    dapRule_of_dapCommand (by decide) (by decide) fun _ _ _ => rfl⟩

/-!
PROOFS. O51: a write that the entry table refuses (02 R28 to R47).
-/

namespace Sys2Proof.Machine
open Sys2Proof.Claims

theorem refusalKeeps_holds : refusalKeeps := by
  rintro s t h e ctx idx sub v w hopen rfl hg hconds hown hact hpf hwr hlock rfl
  have hj : judgeW h e s (mkW s ctx idx sub e.len v e) = chooseAbort (genericConds s (mkW s ctx idx sub e.len v e) e) :=
    judgeW_generic hact hconds
  have hcount : Counted (judgeW h e s (mkW s ctx idx sub e.len v e)) :=
    hj ▸ counted_chooseAbort hg fun c hc => counted_genericConds rfl hwr hlock hpf hc
  rw [writeCmd, if_pos hopen, applyW_counted hcount hown]
  cases hstall : ctxIsStall ctx with
  | false =>
    rw [answerW_unasked rfl hstall]
    exact ⟨rfl, rfl, rfl, rfl, rfl, rfl, rfl, rfl, fun _ _ => rfl⟩
  | true =>
    rw [answerW_stall hstall hcount.ne_zero]
    refine ⟨rfl, rfl, rfl, rfl, rfl, rfl, rfl, rfl, fun i hi => getStall?_updStall_ne _ _ ?_⟩
    have h5000 : 5000 ≤ ctx := of_decide_eq_true hstall
    show i ≠ ctx - 5000
    omega

end Sys2Proof.Machine

open Sys2Proof.Machine in
/-- Settles O51: the code chosen is one of the conditions met, none of which is ABT_BUSY outside a power-fail, so that the refusal is
only counted. -/
theorem refusedWrites : Obligations.RefusedWrites := refusalKeeps_holds

/-!
PROOFS. O1, O2, O3: the integer instructions (03 Tables 03-5 and 03-6, R69).
-/

namespace Sys2Proof.Machine
open Sys2Proof.Claims

/-! ## Instructions whose body retires -/

section
variable {s : State} {core : CoreIx} {i charge : Nat} {st : Stall} {body : State → Stall → Exec → IRes}

/-- A ready instruction whose body retires to `pc` with execution state `x`, its fuel untouched, retires as the statements say. -/
theorem retired_of_retireTo (hr : ready s core i st charge) {x : Exec} {pc : Word} {evs : List (Nat × Nat)} {lat : Nat}
    (hb : body s st st.exec = retireTo st x pc evs lat) (hx : x.fuel = st.exec.fuel) :
    retired s (runInsn core charge body s) i st x pc charge := by
  rw [runInsn_ready hr, hb]
  exact applyIRes_retired _ _ _ _ _ _ _ _ _ hx

/-- One that retires to the next instruction goes to pc + 4. -/
theorem retired_of_retireX (hr : ready s core i st charge) {x : Exec} {evs : List (Nat × Nat)} {lat : Nat}
    (hb : body s st st.exec = retireX st x evs lat) (hx : x.fuel = st.exec.fuel) (hpc : x.pc = st.exec.pc) :
    retired s (runInsn core charge body s) i st x (st.exec.pc + 4) charge := by
  refine retired_of_retireTo hr (evs := evs) (lat := lat) ?_ hx
  rw [hb, ← hpc]
  rfl

/-- A ready instruction whose body raises an exception in state `x` enters the handler from there, where one can be entered. -/
theorem entered_of_trap (hr : ready s core i st charge) {x x0 : Exec} {p fa : Word} {cause detail : Nat} {evs : List (Nat × Nat)}
    (hb : body s st st.exec = .trap x x0 p cause detail fa evs) (hc : canEnter st x) :
    entered s (runInsn core charge body s) i st x p fa cause detail := by
  obtain ⟨h4, hexl, hhandler, h64, hframe⟩ := hc
  obtain ⟨q, n, h⟩ := applyIRes_trap (s := s) (core := core) (i := i) (charge := charge) (x0 := x0) (evs := evs)
    (takeException_entered p fa cause detail h4 hexl hhandler h64 hframe)
  rw [runInsn_ready hr, hb, h]
  refine ⟨?_, rfl, fun _ hj => getStall?_updStall_ne s _ hj⟩
  rw [getStall?_withPerf, getStall?_updStall, getStall?_of_ready hr]
  rfl

/-- An integer instruction writes its value to rd and retires to pc + 4. -/
theorem retired_intOp (hr : ready s core i st 1) (rd : Reg) (lat : Nat) (evs : List (Nat × Nat)) (f : Exec → Word) :
    retired s (intOp core rd lat evs f s) i st (rset st.exec rd (f st.exec)) (st.exec.pc + 4) 1 :=
  retired_of_retireX hr rfl (rset_fuel ..) (rset_pc ..)

end

section
variable {lat : Nat} {evs : List (Nat × Nat)}

theorem regRule_of_intOp {mk : CoreIx → Reg → Reg → Reg → Instr} {f : Word → Word → Word → Word}
    (h : ∀ core rd ra rb s, exec (mk core rd ra rb) s =
      .next (intOp core rd lat evs (fun x => f (rget x ra) (rget x rb) (rget x rd)) s)) : regRule mk f :=
  fun _ _ _ _ _ _ _ hr => ⟨_, h .., retired_intOp hr ..⟩

theorem unaryRule_of_intOp {mk : CoreIx → Reg → Reg → Instr} {f : Word → Word}
    (h : ∀ core rd ra s, exec (mk core rd ra) s = .next (intOp core rd lat evs (fun x => f (rget x ra)) s)) : unaryRule mk f :=
  fun _ _ _ _ _ _ hr => ⟨_, h .., retired_intOp hr ..⟩

theorem immRule_of_intOp {n : Nat} {mk : CoreIx → Reg → Reg → BitVec n → Instr} {f : Word → BitVec n → Word}
    (h : ∀ core rd ra imm s, exec (mk core rd ra imm) s = .next (intOp core rd lat evs (fun x => f (rget x ra) imm) s)) :
    immRule mk f :=
  fun _ _ _ _ _ _ _ hr => ⟨_, h .., retired_intOp hr ..⟩

theorem divRule_of_divOp {mk : CoreIx → Reg → Reg → Reg → Instr} {f : Word → Word → Word}
    (h : ∀ core rd ra rb s, exec (mk core rd ra rb) s = .next (divOp core rd ra rb f s)) : divRule mk f :=
  fun _ _ _ _ _ _ _ hr =>
    ⟨fun h0 => ⟨_, h .., retired_of_retireX hr (if_neg h0) (rset_fuel ..) (rset_pc ..)⟩,
      fun h0 hc => ⟨_, h .., entered_of_trap hr (if_pos h0) hc⟩⟩

end

/-! ## The values of the tables -/

section
variable (a b : Word)

theorem shiftLeft_shAmt : a <<< b.setWidth 6 = a <<< shAmt b := by
  rw [BitVec.shiftLeft_eq', BitVec.toNat_setWidth]
  rfl

theorem ushiftRight_shAmt : a >>> b.setWidth 6 = a >>> shAmt b := by
  rw [BitVec.ushiftRight_eq', BitVec.toNat_setWidth]
  rfl

/-- Bits 64 to 127 of an integer's two's complement. -/
theorem extract_ofInt (p : Int) : (BitVec.ofInt 128 p).extractLsb' 64 64 = BitVec.ofInt 64 (p / 2 ^ 64) := by
  refine BitVec.eq_of_toNat_eq ?_
  rw [BitVec.extractLsb'_toNat, BitVec.toNat_ofInt, BitVec.toNat_ofInt, Nat.shiftRight_eq_div_pow]
  omega

theorem extract_mul_signExtend : (a.signExtend 128 * b.signExtend 128).extractLsb' 64 64 = mulHigh a b := by
  rw [BitVec.signExtend, BitVec.signExtend, ← BitVec.ofInt_mul, extract_ofInt]
  rfl

theorem extract_mul_zeroExtend : (a.zeroExtend 128 * b.zeroExtend 128).extractLsb' 64 64 = mulHighU a b := by
  refine BitVec.eq_of_toNat_eq ?_
  rw [mulHighU, BitVec.extractLsb'_toNat, BitVec.toNat_mul, BitVec.toNat_setWidth, BitVec.toNat_setWidth,
    ← Nat.mul_mod, Nat.shiftRight_eq_div_pow, BitVec.toNat_ofNat]
  generalize a.toNat * b.toNat = p
  omega

theorem ite_toInt_lt (c d : Word) : (if a.toInt < b.toInt then c else d) = if a.slt b then c else d :=
  if_congr BitVec.slt_iff_toInt_lt.symm rfl rfl

theorem ite_toNat_lt (c d : Word) : (if a.toNat < b.toNat then c else d) = if a.ult b then c else d :=
  if_congr BitVec.ult_iff_toNat_lt.symm rfl rfl

/-- Zeros above the highest 1 among the lowest `n` bits. -/
theorem clzLow_eq (n : Nat) : clzLow a n = ((List.range n).takeWhile (fun k => !(a.getLsbD (n - 1 - k)))).length := by
  induction n with
  | zero => rfl
  | succ n ih =>
    have hnext : (fun k => !(a.getLsbD (n - k))) ∘ Nat.succ = fun k => !(a.getLsbD (n - 1 - k)) := by
      funext k
      simp only [Function.comp_apply, Nat.succ_eq_add_one, Nat.sub_sub, Nat.add_comm 1 k]
    rw [clzLow, ih, List.range_succ_eq_map]
    cases h : a.getLsbD n <;> simp [List.takeWhile_map, hnext, h]

/-- Zeros below the lowest 1 among `n` bits from bit `i` up. -/
theorem ctzFrom_eq (n : Nat) : ∀ i, ctzFrom a i n = ((List.range n).takeWhile (fun k => !(a.getLsbD (i + k)))).length := by
  induction n with
  | zero => intro i; rfl
  | succ n ih =>
    intro i
    have hnext : (fun k => !(a.getLsbD (i + k))) ∘ Nat.succ = fun k => !(a.getLsbD (i + 1 + k)) := by
      funext k
      simp only [Function.comp_apply, Nat.succ_eq_add_one, Nat.add_assoc, Nat.add_comm 1 k]
    rw [ctzFrom, ih, List.range_succ_eq_map]
    cases h : a.getLsbD i <;> simp [List.takeWhile_map, hnext, h]

/-- The 1s among the lowest `n` bits. -/
theorem popLow_eq (n : Nat) : popLow a n = ((List.range n).filter (fun k => a.getLsbD k)).length := by
  induction n with
  | zero => rfl
  | succ n ih =>
    rw [popLow, ih, List.range_succ, List.filter_append, List.length_append]
    cases h : a.getLsbD n <;> simp [h]

theorem leadingZeros_eq : BitVec.ofNat 64 (leadingZeros a) = clz64 a := by
  rw [clz64, clzLow_eq]
  rfl

theorem trailingZeros_eq : BitVec.ofNat 64 (trailingZeros a) = ctz64 a := by
  rw [ctz64, ctzFrom_eq, trailingZeros]
  simp only [Nat.zero_add]

theorem onesOf_eq : BitVec.ofNat 64 (onesOf a) = popc64 a := by
  rw [popc64, popLow_eq]
  rfl

/-- The number of a byte string with a byte put below it. -/
theorem toNat_append_byte {n : Nat} (x : BitVec n) (v : Byte) : (x ++ v).toNat = v.toNat + 256 * x.toNat := by
  rw [BitVec.toNat_append, Nat.shiftLeft_eq, Nat.mul_comm, ← Nat.two_pow_add_eq_or_of_lt v.isLt]
  omega

/-- The bytes of a word, least significant first. -/
theorem leBytes_word : leBytes 8 a.toNat = (List.range 8).map (fun k => a.extractLsb' (8 * k) 8) := by
  refine List.ext_getElem (by simp) fun k h1 h2 => ?_
  have hk : k < 8 := by simpa using h1
  rw [← List.getD_eq_getElem _ 0 h1, getD_leBytes 8 a.toNat k hk, ← extractLsb'_byte]
  simp

theorem bytesReversed_eq : bytesReversed a = bswap64 a := by
  have hnum : leNat (leBytes 8 a.toNat).reverse = (bytesReversed a).toNat := by
    rw [leBytes_word, bytesReversed]
    simp only [toNat_append_byte, List.range, List.range.loop, List.map_cons, List.map_nil, List.reverse_cons, List.reverse_nil,
      List.nil_append, List.cons_append, leNat]
    rfl
  rw [bswap64, hnum, BitVec.ofNat_toNat, BitVec.setWidth_eq]

theorem flag_lt_imm (v : BitVec 16) : flag (a.toInt < v.toInt) = boolW (a.slt (sext16 v)) := by
  rw [BitVec.slt, sext16, BitVec.toInt_signExtend_of_le (by decide)]
  rfl

/-- The value of LUI: bit 15 of the immediate is the sign, whether it is extended before the shift or after. -/
theorem signExtend_shiftLeft_half (v : BitVec 16) : v.signExtend 64 <<< 16 = (v ++ (0 : BitVec 16)).signExtend 64 := by
  refine BitVec.eq_of_getLsbD_eq fun i hi => ?_
  have hmsb : (v ++ (0 : BitVec 16)).msb = v.msb := BitVec.msb_append.trans (if_neg (by decide))
  rw [BitVec.getLsbD_shiftLeft, BitVec.getLsbD_signExtend, BitVec.getLsbD_signExtend, BitVec.getLsbD_append, hmsb]
  rcases Nat.lt_or_ge i 16 with h16 | h16
  · simp [h16, hi, show i < 32 by omega]
  · rcases Nat.lt_or_ge i 32 with h32 | h32
    · simp [Nat.not_lt_of_le h16, hi, h32, show i - 16 < 64 by omega, show i - 16 < 16 by omega]
    · simp [Nat.not_lt_of_le h16, hi, Nat.not_lt_of_le h32, show i - 16 < 64 by omega, show ¬ i - 16 < 16 by omega]

end

/-! The values of the statements are those of the model, as functions. -/

theorem regRule_congr {mk : CoreIx → Reg → Reg → Reg → Instr} {f g : Word → Word → Word → Word} (hfg : ∀ a b d, f a b d = g a b d)
    (h : regRule mk g) : regRule mk f := by
  rwa [show f = g from funext fun a => funext fun b => funext fun d => hfg a b d]

theorem unaryRule_congr {mk : CoreIx → Reg → Reg → Instr} {f g : Word → Word} (hfg : ∀ a, f a = g a) (h : unaryRule mk g) :
    unaryRule mk f := by
  rwa [show f = g from funext hfg]

theorem immRule_congr {n : Nat} {mk : CoreIx → Reg → Reg → BitVec n → Instr} {f g : Word → BitVec n → Word}
    (hfg : ∀ a v, f a v = g a v) (h : immRule mk g) : immRule mk f := by
  rwa [show f = g from funext fun a => funext fun v => hfg a v]

theorem divRule_congr {mk : CoreIx → Reg → Reg → Reg → Instr} {f g : Word → Word → Word} (hfg : ∀ a b, f a b = g a b)
    (h : divRule mk g) : divRule mk f := by
  rwa [show f = g from funext fun a => funext fun b => hfg a b]

theorem luiRule_holds : luiRule := by
  intro s core rd imm i st hr
  rw [signExtend_shiftLeft_half]
  exact ⟨_, rfl, retired_intOp hr rd 1 [] fun _ => (imm ++ (0 : BitVec 16)).signExtend 64⟩

end Sys2Proof.Machine

open Sys2Proof.Machine in
/-- Settles O1: every instruction of Table 03-5 is `intOp` of its value. -/
theorem integerRegisterInstructions : Obligations.IntegerRegisterInstructions :=
  ⟨regRule_of_intOp fun _ _ _ _ _ => rfl, regRule_of_intOp fun _ _ _ _ _ => rfl, regRule_of_intOp fun _ _ _ _ _ => rfl,
    regRule_of_intOp fun _ _ _ _ _ => rfl, regRule_of_intOp fun _ _ _ _ _ => rfl,
    regRule_congr (fun a b _ => shiftLeft_shAmt a b) (regRule_of_intOp fun _ _ _ _ _ => rfl),
    regRule_congr (fun a b _ => ushiftRight_shAmt a b) (regRule_of_intOp fun _ _ _ _ _ => rfl),
    regRule_of_intOp fun _ _ _ _ _ => rfl, regRule_of_intOp fun _ _ _ _ _ => rfl, regRule_of_intOp fun _ _ _ _ _ => rfl,
    regRule_of_intOp fun _ _ _ _ _ => rfl,
    regRule_congr (fun a b _ => extract_mul_signExtend a b) (regRule_of_intOp fun _ _ _ _ _ => rfl),
    regRule_congr (fun a b _ => extract_mul_zeroExtend a b) (regRule_of_intOp fun _ _ _ _ _ => rfl),
    regRule_congr (fun a b _ => ite_toInt_lt a b a b) (regRule_of_intOp fun _ _ _ _ _ => rfl),
    regRule_congr (fun a b _ => ite_toInt_lt a b b a) (regRule_of_intOp fun _ _ _ _ _ => rfl),
    regRule_congr (fun a b _ => ite_toNat_lt a b a b) (regRule_of_intOp fun _ _ _ _ _ => rfl),
    regRule_congr (fun a b _ => ite_toNat_lt a b b a) (regRule_of_intOp fun _ _ _ _ _ => rfl),
    regRule_of_intOp fun _ _ _ _ _ => rfl, regRule_of_intOp fun _ _ _ _ _ => rfl,
    unaryRule_congr leadingZeros_eq (unaryRule_of_intOp fun _ _ _ _ => rfl),
    unaryRule_congr trailingZeros_eq (unaryRule_of_intOp fun _ _ _ _ => rfl),
    unaryRule_congr onesOf_eq (unaryRule_of_intOp fun _ _ _ _ => rfl),
    unaryRule_congr bytesReversed_eq (unaryRule_of_intOp fun _ _ _ _ => rfl)⟩

open Sys2Proof.Machine in
/-- Settles O2: every instruction of Table 03-6 without a memory access or a branch is `intOp` of its value. -/
theorem immediateInstructions : Obligations.ImmediateInstructions :=
  ⟨immRule_of_intOp fun _ _ _ _ _ => rfl, immRule_of_intOp fun _ _ _ _ _ => rfl, immRule_of_intOp fun _ _ _ _ _ => rfl,
    immRule_of_intOp fun _ _ _ _ _ => rfl, immRule_congr flag_lt_imm (immRule_of_intOp fun _ _ _ _ _ => rfl),
    immRule_of_intOp fun _ _ _ _ _ => rfl, immRule_of_intOp fun _ _ _ _ _ => rfl, immRule_of_intOp fun _ _ _ _ _ => rfl,
    immRule_of_intOp fun _ _ _ _ _ => rfl, luiRule_holds, immRule_of_intOp fun _ _ _ _ _ => rfl⟩

open Sys2Proof.Machine in
/-- Settles O3: the four divisions are `divOp`; a remainder is what the truncated quotient leaves. -/
theorem divisionInstructions : Obligations.DivisionInstructions :=
  ⟨divRule_of_divOp fun _ _ _ _ _ => rfl, divRule_of_divOp fun _ _ _ _ _ => rfl,
    divRule_congr (fun a b => congrArg (BitVec.ofInt 64) (Int.tmod_def a.toInt b.toInt).symm)
      (divRule_of_divOp fun _ _ _ _ _ => rfl),
    divRule_congr (fun a b => congrArg (BitVec.ofNat 64) (Nat.mod_eq_sub a.toNat b.toNat).symm)
      (divRule_of_divOp fun _ _ _ _ _ => rfl)⟩

/-!
PROOFS. O4: control transfer (03 R54, R68).
-/

namespace Sys2Proof.Machine
open Sys2Proof.Claims

/-- Four times a word is the word moved up by two bits. -/
theorem four_mul_word (w : BitVec 64) : (4 : BitVec 64) * w = w <<< 2 := by
  rw [BitVec.shiftLeft_eq_mul_twoPow, BitVec.mul_comm]
  rfl

/-- A conditional branch goes to its target or on. -/
theorem branchRule_of_branchOp {mk : CoreIx → Reg → Reg → BitVec 16 → Instr} {p : Word → Word → Bool}
    (h : ∀ core ra rb off s, exec (mk core ra rb off) s = .next (branchOp core off (fun x => p (rget x ra) (rget x rb)) s)) :
    branchRule mk p := by
  intro s core ra rb off i st hr
  refine ⟨_, h .., ?_⟩
  rw [four_mul_word]
  cases hp : p (rget st.exec ra) (rget st.exec rb)
  · exact retired_of_retireX hr (if_neg (by simp [hp])) rfl rfl
  · exact retired_of_retireTo hr (if_pos hp) rfl

theorem branchRule_congr {mk : CoreIx → Reg → Reg → BitVec 16 → Instr} {p q : Word → Word → Bool} (hpq : ∀ a b, p a b = q a b)
    (h : branchRule mk q) : branchRule mk p := by
  rwa [show p = q from funext fun a => funext fun b => hpq a b]

theorem jmpRule_holds : jmpRule := by
  intro s core off i st hr
  rw [four_mul_word]
  exact ⟨_, rfl, retired_of_retireTo hr rfl rfl⟩

theorem callRule_holds : callRule := by
  intro s core off i st hr
  rw [four_mul_word]
  exact ⟨_, rfl, retired_of_retireTo hr rfl (rset_fuel ..)⟩

theorem jalrRule_holds : jalrRule := fun _ _ _ _ _ _ _ hr =>
  ⟨fun h0 => ⟨_, rfl, retired_of_retireTo hr (if_neg (not_not_intro h0)) (rset_fuel ..)⟩,
    fun h0 hc => ⟨_, rfl, entered_of_trap hr (if_pos h0) hc⟩⟩

/-- An instruction that `runInsn` runs is checked at its fetch, whatever its charge and its body. -/
theorem fetchRule_of_runInsn {c : CoreIx → Instr} {charge : Nat} {body : State → Stall → Exec → IRes}
    (h : ∀ core s, exec (c core) s = .next (runInsn core charge body s)) : fetchRule c := by
  intro s core i st hrun hfetch hc
  refine ⟨_, h .., ?_⟩
  rw [runInsn_fetch body hrun hfetch]
  exact applyIRes_entered core 0 3 3 st.exec.pc [] (getStall?_of_running hrun) hc

end Sys2Proof.Machine

open Sys2Proof.Machine in
/-- Settles O4. -/
theorem controlTransfer : Obligations.ControlTransfer :=
  ⟨branchRule_of_branchOp fun _ _ _ _ _ => rfl, branchRule_of_branchOp fun _ _ _ _ _ => rfl,
    branchRule_of_branchOp fun _ _ _ _ _ => rfl, 
    branchRule_congr (fun a b => BitVec.sle_eq_not_slt (x := b) (y := a)) (branchRule_of_branchOp fun _ _ _ _ _ => rfl),
    branchRule_of_branchOp fun _ _ _ _ _ => rfl,
    branchRule_congr (fun a b => BitVec.ule_eq_not_ult b a) (branchRule_of_branchOp fun _ _ _ _ _ => rfl),
    jmpRule_holds, callRule_holds, jalrRule_holds, fun _ _ _ => fetchRule_of_runInsn fun _ _ => rfl,
    fun _ _ _ => fetchRule_of_runInsn fun _ _ => rfl, fun _ _ _ => fetchRule_of_runInsn fun _ _ => rfl,
    fetchRule_of_runInsn fun _ _ => rfl, fetchRule_of_runInsn fun _ _ => rfl⟩

/-!
PROOFS. O7: the binary64 instructions (03 R70 to R74).
-/

namespace Sys2Proof.Machine
open Sys2Proof.Claims

/-- A binary64 instruction raises its flags, and then writes its value or traps. -/
theorem fpRule_of_fpOp {c : CoreIx → Reg → Instr} {r : Exec → Reg → Word × Nat} {lat : Nat} {evs : List (Nat × Nat)}
    (h : ∀ core rd s, exec (c core rd) s = .next (fpOp core rd lat evs (fun x => r x rd) s)) : fpRule c r :=
  fun _ _ _ _ _ hr =>
    ⟨fun h0 => ⟨_, h .., retired_of_retireX hr (if_neg (not_not_intro h0)) (rset_fuel ..) (rset_pc ..)⟩,
      fun h0 hc => ⟨_, h .., entered_of_trap hr (if_pos h0) hc⟩⟩

end Sys2Proof.Machine

open Sys2Proof.Machine in
/-- Settles O7: every binary64 instruction is `fpOp` of its value and flags. -/
theorem binaryFloat : Obligations.BinaryFloat :=
  ⟨fun _ _ => fpRule_of_fpOp fun _ _ _ => rfl, fun _ _ => fpRule_of_fpOp fun _ _ _ => rfl,
    fun _ _ => fpRule_of_fpOp fun _ _ _ => rfl, fun _ _ => fpRule_of_fpOp fun _ _ _ => rfl,
    fun _ => fpRule_of_fpOp fun _ _ _ => rfl, fun _ _ => fpRule_of_fpOp fun _ _ _ => rfl,
    fun _ _ => fpRule_of_fpOp fun _ _ _ => rfl, fun _ _ => fpRule_of_fpOp fun _ _ _ => rfl,
    fun _ _ => fpRule_of_fpOp fun _ _ _ => rfl, fun _ _ => fpRule_of_fpOp fun _ _ _ => rfl,
    fun _ _ => fpRule_of_fpOp fun _ _ _ => rfl, fun _ _ => fpRule_of_fpOp fun _ _ _ => rfl,
    fun _ => fpRule_of_fpOp fun _ _ _ => rfl, fun _ => fpRule_of_fpOp fun _ _ _ => rfl,
    fun _ _ => fpRule_of_fpOp fun _ _ _ => rfl, fun _ => fpRule_of_fpOp fun _ _ _ => rfl,
    fun _ => fpRule_of_fpOp fun _ _ _ => rfl, fun _ => fpRule_of_fpOp fun _ _ _ => rfl,
    fun _ => fpRule_of_fpOp fun _ _ _ => rfl, fun _ => fpRule_of_fpOp fun _ _ _ => rfl,
    fun _ => fpRule_of_fpOp fun _ _ _ => rfl⟩

/-!
PROOFS. O9: the status word, the fuel and the supervisor pause (03 R55, R58, R65).
-/

namespace Sys2Proof.Machine
open Sys2Proof.Claims

/-- The bits that WRSW replaces (R55). -/
theorem getLsbD_wrswMask : ∀ b, b < 64 → wrswMask.getLsbD b = decide (b ≤ 4 ∨ 8 ≤ b ∧ b ≤ 12) := by decide

theorem rdswRule_holds : rdswRule := fun _ _ _ _ _ hr => ⟨_, rfl, retired_of_retireX hr rfl (rset_fuel ..) (rset_pc ..)⟩

theorem rdfuelRule_holds : rdfuelRule := fun _ _ _ _ _ hr => ⟨_, rfl, retired_of_retireX hr rfl (rset_fuel ..) (rset_pc ..)⟩

theorem wrswRule_holds : wrswRule := by
  intro s core ra i st hr
  refine ⟨_, _, rfl, retired_of_retireX hr rfl rfl rfl, rfl, fun b hb => ?_⟩
  rw [BitVec.getLsbD_or, BitVec.getLsbD_and, BitVec.getLsbD_and, BitVec.getLsbD_not, getLsbD_wrswMask b hb]
  by_cases hbit : b ≤ 4 ∨ 8 ≤ b ∧ b ≤ 12 <;> simp [hbit, hb]

/-- A pause changes nothing but performance counters. -/
theorem exec_supervisorPause (s : State) (lane : Fin 3) (core : CoreIx) (cycles : Nat) :
    ∃ p, exec (.supervisorPause lane core cycles) s = .next { s with perf := p } := by
  show ∃ p, execSupervisorPause lane core cycles s = _
  unfold execSupervisorPause
  dsimp only
  split
  · exact ⟨_, rfl⟩
  · exact ⟨s.perf, rfl⟩

theorem pauseRule_holds : pauseRule := fun s lane core cycles =>
  let ⟨_, h⟩ := exec_supervisorPause s lane core cycles
  ⟨_, h, rfl⟩

end Sys2Proof.Machine

open Sys2Proof.Machine in
/-- Settles O9. -/
theorem statusWordAndFuel : Obligations.StatusWordAndFuel := ⟨rdswRule_holds, wrswRule_holds, rdfuelRule_holds, pauseRule_holds⟩

/-!
PROOFS. O10: exception entry by BRK and illegal words, and ERET (03 R57, R87, R88, 04 R113, R114).
-/

namespace Sys2Proof.Machine
open Sys2Proof.Claims

theorem brkRule_holds : brkRule := fun _ _ _ _ hr hc => ⟨_, rfl, entered_of_trap hr rfl hc⟩

theorem illegalRule_holds : illegalRule := by
  intro s core w i st hw hr hc
  refine ⟨_, rfl, ?_⟩
  rw [if_neg (by simp [hw])]
  exact entered_of_trap hr rfl hc

/-- The status-word bits that ERET takes from the frame (R87): BIP, the enables and the flags. -/
theorem getLsbD_eretMask : ∀ b, b < 64 →
    (BitVec.ofNat 64 (2 ^ 22 + 0x1F00 + 0x1F)).getLsbD b = decide (b ≤ 4 ∨ 8 ≤ b ∧ b ≤ 12 ∨ b = 22) := by decide

theorem eretRule_holds : eretRule := by
  intro s core i st hr
  refine ⟨fun hexl hframe => ?_, fun hexl hc => ⟨_, rfl, ?_⟩⟩
  · obtain ⟨y, hy, hpc, hsw, hfuel, hmem, hreg⟩ := exceptionReturn_returned hexl hframe
    refine ⟨_, y, rfl, ?_⟩
    rw [runInsn_ready hr]
    simp only [hy]
    obtain ⟨p, n, ht⟩ := applyIRes_returned s core i st 1 y
    rw [ht]
    refine ⟨?_, ⟨rfl, fun j hj => getStall?_setStall_ne s _ hj⟩, hpc, ?_, ?_, ?_, ?_, hmem, ?_, fun b hb => ?_⟩
    · rw [getStall?_withPerf, getStall?_setStall, hfuel]
    · rw [hreg]; rfl
    · rw [hreg]; rfl
    · rw [hreg]; rfl
    · rw [hreg, if_pos rfl, BitVec.ofNat_add, BitVec.ofNat_toNat, BitVec.setWidth_eq]
      rfl
    · intro r h1 h2 h3 h31
      rw [hreg, if_neg h31, if_neg h3, if_neg h2, if_neg h1]
    · rw [hsw, BitVec.getLsbD_and, getLsbD_eretMask b hb]
      by_cases hbit : b ≤ 4 ∨ 8 ≤ b ∧ b ≤ 12 ∨ b = 22 <;> simp [hbit]
  · have hill : exceptionReturn st.desc st.exec = .illegal := if_pos (by rw [swExl, hexl]; rfl)
    refine entered_of_trap (x0 := st.exec) (evs := []) hr ?_ hc
    simp only [hill]
    rfl

end Sys2Proof.Machine

open Sys2Proof.Machine in
/-- Settles O10. -/
theorem exceptionEntryAndReturn : Obligations.ExceptionEntryAndReturn := ⟨brkRule_holds, illegalRule_holds, eretRule_holds⟩

/-!
PROOFS. O8: a NaN that arithmetic produces is the canonical one (03 R71).
-/

namespace Sys2Proof.Machine

/-- A word that arithmetic may produce: if it is a NaN it is the canonical one. -/
def CanonicalResult (w : Word) : Prop := isNaN (fpOf w) = true → w = 0x7FF8000000000000

section
variable (neg n1 n2 : Bool) (m m1 m2 : Nat) (e e1 e2 : Int)

/-- A NaN has all exponent bits set and a fraction that is not 0. -/
theorem isNaN_fpOf (w : Word) : isNaN (fpOf w) = true ↔ w.toNat / 2 ^ 52 % 2048 = 2047 ∧ w.toNat % 2 ^ 52 ≠ 0 := by
  unfold fpOf
  dsimp only
  split
  · next he =>
    split
    · next hf => exact iff_of_false (by simp [isNaN]) fun h => h.2 hf
    · next hf => exact iff_of_true rfl ⟨he, hf⟩
  · next he => split <;> exact iff_of_false (by simp [isNaN]) fun h => he h.1

/-- A sign and a magnitude up to that of the infinities are no NaN. -/
theorem isNaN_signed {pat : Nat} (h : pat ≤ 0x7FF0000000000000) : isNaN (fpOf (signW neg ||| BitVec.ofNat 64 pat)) = false := by
  have hnat : (signW neg ||| BitVec.ofNat 64 pat).toNat = (if neg then 2 ^ 63 else 0) + pat := by
    have hpat : (BitVec.ofNat 64 pat).toNat = pat := BitVec.toNat_ofNat .. ▸ Nat.mod_eq_of_lt (by omega)
    rw [BitVec.toNat_or, hpat]
    cases neg
    · simp [signW]
    · exact (Nat.two_pow_add_eq_or_of_lt (i := 63) (by omega) 1).symm
  refine Bool.eq_false_iff.mpr fun hnan => ?_
  obtain ⟨he, hf⟩ := (isNaN_fpOf _).mp hnan
  rw [hnat] at he hf
  cases neg
  · simp only [Bool.false_eq_true, if_false] at he hf
    omega
  · simp only [if_true] at he hf
    omega

theorem isNaN_infW : isNaN (fpOf (infW neg)) = false := isNaN_signed neg (le_refl _)

theorem isNaN_signW : isNaN (fpOf (signW neg)) = false := by
  have h := isNaN_signed neg (Nat.zero_le _)
  rwa [show signW neg ||| BitVec.ofNat 64 0 = signW neg from BitVec.or_zero] at h

/-- Rounding gives a number or an infinity (R70). -/
theorem isNaN_roundPack : isNaN (fpOf (roundPack neg m e).1) = false := by
  unfold roundPack
  dsimp only
  generalize (if max (e + (Nat.log2 m : Int) - 52) (-1074) ≤ e then _ else _ : Nat × Bool) = r
  generalize (if max (e + (Nat.log2 m : Int) - 52) (-1074) = -1074 then r.1 else _ : Nat) = pat
  split
  · exact isNaN_infW neg
  · next h => exact isNaN_signed neg (Nat.le_of_not_le h)

theorem isNaN_roundInt (z : Int) : isNaN (fpOf (roundInt z e neg).1) = false := by
  unfold roundInt
  split
  · exact isNaN_signW neg
  · exact isNaN_roundPack ..

theorem isNaN_addFin : isNaN (fpOf (addFin n1 m1 e1 n2 m2 e2).1) = false := isNaN_roundInt ..

theorem canonicalResult_of_number {w : Word} (h : isNaN (fpOf w) = false) : CanonicalResult w := fun hn => by
  rw [h] at hn
  cases hn

@[simp] theorem canonicalResult_canonNaN : CanonicalResult canonNaN := fun _ => rfl
@[simp] theorem canonicalResult_nanOf (l : List Fp) : CanonicalResult (nanOf l).1 := fun _ => rfl
@[simp] theorem canonicalResult_infW : CanonicalResult (infW neg) := canonicalResult_of_number (isNaN_infW neg)
@[simp] theorem canonicalResult_signW : CanonicalResult (signW neg) := canonicalResult_of_number (isNaN_signW neg)
@[simp] theorem canonicalResult_roundPack : CanonicalResult (roundPack neg m e).1 :=
  canonicalResult_of_number (isNaN_roundPack ..)
@[simp] theorem canonicalResult_addFin : CanonicalResult (addFin n1 m1 e1 n2 m2 e2).1 :=
  canonicalResult_of_number (isNaN_addFin ..)
end

/-! Each operation gives, case by case of its operands, one of the words above. -/

section
variable (a b c : Word)

theorem canonicalResult_fpAdd : CanonicalResult (fpAdd a b).1 := by
  unfold fpAdd
  split
  case h_3 => split <;> simp
  all_goals simp

theorem canonicalResult_fpMul : CanonicalResult (fpMul a b).1 := by
  unfold fpMul
  (repeat' split) <;> simp

theorem canonicalResult_fpDiv : CanonicalResult (fpDiv a b).1 := by
  unfold fpDiv
  (repeat' split) <;> simp

theorem canonicalResult_fpSqrt : CanonicalResult (fpSqrt a).1 := by
  unfold fpSqrt
  (repeat' split) <;> simp

theorem canonicalResult_fpFma : CanonicalResult (fpFma a b c).1 := by
  unfold fpFma
  (repeat' split) <;> simp

theorem canonicalResult_fpRint (nearest : Bool) : CanonicalResult (fpRint nearest a).1 := by
  unfold fpRint
  split
  · simp
  · simp
  · dsimp only
    split <;> simp

/-- FMIN and FMAX give the canonical NaN, or an operand that is no NaN. -/
theorem canonicalResult_fpMinMax (max_ : Bool) : CanonicalResult (fpMinMax max_ a b).1 := by
  unfold fpMinMax
  dsimp only
  cases ha : isNaN (fpOf a) <;> cases hb : isNaN (fpOf b)
  · simp only [Bool.and_self, Bool.false_eq_true, if_false]
    split
    · exact canonicalResult_of_number ha
    · exact canonicalResult_of_number hb
  · exact canonicalResult_of_number ha
  · exact canonicalResult_of_number hb
  · exact canonicalResult_canonNaN
end

end Sys2Proof.Machine

open Sys2Proof.Machine in
/-- Settles O8. -/
theorem canonicalNaN : Obligations.CanonicalNaN :=
  ⟨canonicalResult_fpAdd, fun a b => canonicalResult_fpAdd a (negW b), canonicalResult_fpMul, canonicalResult_fpDiv,
    canonicalResult_fpSqrt, canonicalResult_fpFma, fun m a b => canonicalResult_fpMinMax a b m,
    fun n a => canonicalResult_fpRint a n, fun a => isNaN_roundInt false 0 a.toInt, fun a => isNaN_roundInt false 0 a.toNat⟩

/-!
PROOFS. The end of an activation in the terms of the statements: SVC_YIELD, fuel stops and stall faults (03 R63, R84, 04 R115, 05 R139).
-/

namespace Sys2Proof.Machine
open Sys2Proof.Claims

/-- Of the stalls, `t` has `st` under `i` and every other one as `s` has it; the posted requests are those of `s`. -/
def StallIs (s t : State) (i : Nat) (st : Stall) : Prop :=
  getStall? t i = some st ∧ (∀ j, j ≠ i → getStall? t j = getStall? s j) ∧ t.sup.posted = s.sup.posted

/-- A stall whose activation has ended (R139). -/
def endedStall (st : Stall) (reason k : Nat) : Stall :=
  { st with exec.stopReason := reason, continued := decide (reason = 2), dwWrites := [], dwOrder := [], endedK := k }

section
variable {s t u : State} {i : Nat} {st st' : Stall}

theorem stallIs_refl (h : getStall? s i = some st) : StallIs s s i st := ⟨h, fun _ _ => rfl, rfl⟩

theorem stallIs_updStall (h : StallIs s t i st) (f : Stall → Stall) : StallIs s (updStall t i f) i (f st) := by
  obtain ⟨hi, hother, hposted⟩ := h
  refine ⟨?_, fun j hj => ?_, hposted⟩
  · rw [getStall?_updStall, hi]
    rfl
  · rw [getStall?_updStall_ne _ _ hj, hother j hj]

/-- What touches neither the stalls nor the posted requests. -/
theorem stallIs_of_eq (h : StallIs s t i st) (hs : u.sup.stalls = t.sup.stalls) (hp : u.sup.posted = t.sup.posted) :
    StallIs s u i st := by
  unfold StallIs getStall? at *
  rwa [hs, hp]

theorem stallIs_perfCount (h : StallIs s t i st) (core : Nat) (ctx : Option Nat) (evs : List (Nat × Nat)) :
    StallIs s (perfCount t core ctx evs) i st := by
  obtain ⟨p, hp⟩ := perfCount_only t core ctx evs
  rw [hp]
  exact h

theorem stallIs_perfInsn (h : StallIs s t i st) (core j : Nat) (evs : List (Nat × Nat)) (pc : Word) (lat : Nat × Nat) (ev : Nat) :
    StallIs s (perfInsn t core j evs pc lat ev) i st := by
  obtain ⟨p, n, hp⟩ := perfInsn_only t core j evs pc lat ev
  rw [hp]
  exact h

theorem stallIs_emitL (h : StallIs s t i st) (src code sev : Nat) (data : List Byte) (stall : Nat) :
    StallIs s (emitL t src code sev data stall) i st :=
  stallIs_of_eq h (emitL_sup_stalls ..) (emitL_sup_posted ..)

theorem decideActivation_of_nil (hp : t.sup.posted = []) (k tk : Nat) : decideActivation t i k tk = t := by
  unfold decideActivation
  rw [hp]
  dsimp only [List.foldl_nil]
  rw [← hp]

/-- The end of an activation without a posted request. -/
theorem stallIs_endActivation (h : StallIs s t i st) (hp : s.sup.posted = []) (core : CoreIx) (reason : Nat) :
    StallIs s (endActivation t core i reason) i (endedStall st reason t.cyc.k) ∧
      (getRun (endActivation t core i reason) core).run = none := by
  have hst : getStall? t i = some st := h.1
  unfold endActivation
  rw [hst]
  dsimp only
  rw [decideActivation_of_nil]
  · refine ⟨?_, ?_⟩
    · have hcyc : (svi t E.stallLastFuel i ((getRun t core).start - st.exec.fuel)).cyc.k = t.cyc.k := by rw [svi_cyc]
      rw [hcyc]
      exact stallIs_updStall (stallIs_of_eq h (svi_sup_stalls ..) (svi_sup_posted ..)) _
    · unfold getRun updRun
      rw [vget_vupd_self _ _ _ _ core.isLt]
  · exact (svi_sup_posted ..).trans (h.2.2.trans hp)

/-- A stall whose activation stops for want of fuel with execution state `x`, before the activation ends. -/
def outOfFuel (st : Stall) (x : Exec) : Stall := { st with exec := x, lastFuelStop := true }

/-- A fuel stop ends the activation with execution state `x` (R63, R64). -/
theorem stallIs_fuelStop (h : StallIs s t i st) (hp : s.sup.posted = []) (core : CoreIx) (x : Exec) :
    (∃ k, StallIs s (fuelStop t core i x) i (endedStall (outOfFuel st x) 2 k)) ∧
      (getRun (fuelStop t core i x) core).run = none := by
  have ends : ∀ u, StallIs s u i { st with exec := x } →
      (∃ k, StallIs s (endActivation (updStall u i fun st => { st with lastFuelStop := true }) core i 2) i
        (endedStall (outOfFuel st x) 2 k)) ∧
      (getRun (endActivation (updStall u i fun st => { st with lastFuelStop := true }) core i 2) core).run = none := by
    intro u hu
    obtain ⟨hs, hr⟩ := stallIs_endActivation (stallIs_updStall hu fun st => { st with lastFuelStop := true }) hp core 2
    exact ⟨⟨_, hs⟩, hr⟩
  have hx := stallIs_perfCount (stallIs_of_eq (stallIs_updStall h fun st => { st with exec := x })
    (bumpi_sup_stalls _ E.stallOverruns i) (bumpi_sup_posted _ E.stallOverruns i)) core (some i) [(0x21, 1)]
  unfold fuelStop
  refine ends _ ?_
  rw [hx.1]
  dsimp only
  split
  · exact hx
  · exact stallIs_emitL hx ..

/-- A stall that is faulted at `tk` in execution state `x`, with its rescue frame (R115). -/
def faultedStall (st : Stall) (x : Exec) (f : Frame) (tk : Nat) : Stall :=
  { st with
    exec := { x with rescue := f, faultCause := f.cause, faultTime := tk }
    state := .faulted, autoPending := true, lastFuelStop := false }

/-- A stall fault ends the activation with the stall FAULTED (R115). -/
theorem stallIs_stallFault (h : StallIs s t i st) (hp : s.sup.posted = []) (core : CoreIx) (x : Exec) (f : Frame) :
    (∃ k, StallIs s (stallFault t core i x f) i (endedStall (faultedStall st x f t.cyc.tk) 3 k)) ∧
      (getRun (stallFault t core i x f) core).run = none := by
  have hu := stallIs_updStall h fun st => faultedStall st x f t.cyc.tk
  unfold stallFault
  obtain ⟨hs, hr⟩ := stallIs_endActivation (stallIs_perfCount (stallIs_emitL hu ..) ..) hp core 3
  exact ⟨⟨_, hs⟩, hr⟩

end
end Sys2Proof.Machine

/-!
PROOFS. O12, O13: supervisor calls (03 R83 to R86, 04 R115, 05 R134).
-/

namespace Sys2Proof.Machine
open Sys2Proof.Claims

/-! ## Calls that return -/

section
variable {s : State} {core : CoreIx} {i charge : Nat} {st : Stall} {body : State → Stall → Exec → IRes}

/-- A call that returns leaves its results in g1 and g2, and posts at most one request. -/
theorem svcBack_of_svcReturn (hr : ready s core i st charge) {code : Nat} {post : Option PostedReq}
    (hb : body s st st.exec = svcReturn st st.exec code post) : svcBack s (runInsn core charge body s) i st charge code post := by
  rw [runInsn_ready hr, hb]
  cases post with
  | none =>
    obtain ⟨p, n, h⟩ := applyIRes_retire s core i st _ charge _ _ _
    unfold svcReturn
    dsimp only
    rw [h]
    exact ⟨getStall?_setStall s i _, rfl, fun _ hj => getStall?_setStall_ne s _ hj⟩
  | some q =>
    obtain ⟨p, n, h⟩ := applyIRes_post s core i st _ charge _ _ _ q
    unfold svcReturn
    dsimp only
    rw [h]
    refine ⟨(getStall?_setStall s i _).trans ?_, rfl, fun _ hj => getStall?_setStall_ne s _ hj⟩
    rfl

end

/-! ## Posted services (R85) -/

/-- The first byte of a service's pointer extent that the stall may not read (R86). -/
def pointerFault (d : Descriptor) : Option (Word × Nat) → Option Nat
  | none => none
  | some (a, n) => firstBad (blockRead d) a.toNat n

/-- Does a stall lack the right that a service takes? -/
def lacksRight (st : Stall) : Option Nat → Bool
  | none => false
  | some b => !(hasRight st b)

/-- What a posted service comes to after its pointer check: right, range and request limit, in this order. -/
def judgedService (st : Stall) (x : Exec) (need : Option Nat) (ok : Bool) (req : PostedReq) : IRes :=
  if lacksRight st need then svcReturn st x (abort abtAccess 0xFF) none
  else if !ok then svcReturn st x (abort abtRange 0) none
  else if 64 ≤ x.posted then svcReturn st x (abort abtBusy 2) none
  else svcReturn st x 0 (some req)

theorem svcPosted_eq (core : CoreIx) (charge : Nat) (ptr : Exec → Option (Word × Nat)) (need : Option Nat) (ok : Exec → Bool)
    (req : Exec → PostedReq) (s : State) :
    svcPosted core charge ptr need ok req s = runInsn core charge (fun _ st x => match pointerFault st.desc (ptr x) with
      | some fa => trapAt x 3 5 (BitVec.ofNat 64 fa) []
      | none => judgedService st x need (ok x) (req x)) s := rfl

theorem lacksRight_iff {st : Stall} {need : Option Nat} :
    lacksRight st need = true ↔ ∃ r, need = some r ∧ st.desc.rights.getLsbD r = false := by
  cases need <;> simp [lacksRight, hasRight]

section
variable {s : State} {core : CoreIx} {i charge : Nat} {st : Stall} {body : State → Stall → Exec → IRes}

/-- A service judged so returns as `postedRule` says. -/
theorem svcBack_of_judgedService (hr : ready s core i st charge) {need : Option Nat} {ok : Bool} {req : PostedReq}
    (hb : body s st st.exec = judgedService st st.exec need ok req) :
    if (∃ r, need = some r ∧ st.desc.rights.getLsbD r = false) then
      svcBack s (runInsn core charge body s) i st charge 0x010000FF none
    else if ok = false then svcBack s (runInsn core charge body s) i st charge 0x04000000 none
    else if 64 ≤ st.exec.posted then svcBack s (runInsn core charge body s) i st charge 0x07000002 none
    else svcBack s (runInsn core charge body s) i st charge 0 (some req) := by
  unfold judgedService at hb
  split
  · next hright => exact svcBack_of_svcReturn hr (by rw [hb, if_pos (lacksRight_iff.mpr hright)]; rfl)
  · next hright =>
    rw [if_neg (mt lacksRight_iff.mp hright)] at hb
    split
    · next hok => exact svcBack_of_svcReturn hr (by rw [hb, hok]; rfl)
    · next hok =>
      rw [if_neg (by simpa using hok)] at hb
      split
      · next hfull => exact svcBack_of_svcReturn hr (by rw [hb, if_pos hfull]; rfl)
      · next hfull => exact svcBack_of_svcReturn hr (by rw [hb, if_neg hfull])

end

/-- A posted service whose pointer extent is readable. -/
theorem postedRule_of_svcPosted {c : CoreIx → Instr} {charge : Nat} {need : Option Nat} {ptr : Exec → Option (Word × Nat)}
    {ok : Exec → Bool} {req : Exec → PostedReq}
    (h : ∀ core s, exec (c core) s = .next (svcPosted core charge ptr need ok req s)) :
    postedRule c charge need (fun x => (ptr x).map fun p => (p.1.toNat, p.2)) ok req := by
  intro s core i st hr hread
  have hbad : pointerFault st.desc (ptr st.exec) = none := by
    cases hp : ptr st.exec with
    | none => rfl
    | some p => exact firstBad_eq_none (hread p.1.toNat p.2 (congrArg (Option.map fun p => (p.1.toNat, p.2)) hp))
  refine ⟨_, h .., ?_⟩
  rw [svcPosted_eq]
  exact svcBack_of_judgedService hr (by rw [hbad])

theorem svcEvent_range (x : Exec) :
    decide (0x8000 ≤ (rget x 1).toNat ∧ (rget x 1).toNat ≤ 0xFFFF ∧ (rget x 2).toNat ≤ 2) =
      (decide (0x8000 ≤ (rget x 1).toNat) && decide ((rget x 1).toNat ≤ 0xFFFF) && decide ((rget x 2).toNat ≤ 2)) := by
  simp [Bool.and_assoc]

theorem safReqRange_eq :
    (fun x => decide ((rget x 1).toNat < 32 ∧ ((rget x 2).toNat = 1 ∨ (rget x 2).toNat = 2))) = safReqRange := by
  funext x
  simp [safReqRange]

/-! ## SVC_SEND (05 R134) -/

section
variable {s : State} {core : CoreIx} {i kind right off len : Nat} {st : Stall} {m : List Byte}
  (hoff : off = (rget st.exec 1).toNat) (hlen : len = (rget st.exec 2).toNat) (h9 : 9 ≤ len) (h4096 : len ≤ 4096)
  (hbox : off + len ≤ st.desc.outboxSize) (hm : m = mgets st.exec.mem (baseOutbox + off) len) (hkind : fieldAt m 0 1 = kind)
  (hneed : outboxRight kind = some right)
include hoff hlen h9 h4096 hbox hm hkind hneed

/-- A message inside the declared OUTBOX is judged as a posted service that takes the right of its kind. -/
theorem svcSend_body (hr : ready s core i st 8) :
    svcSend core s = runInsn core 8 (fun _ st x => judgedService st x (some right) (outboxArgs m)
      (.send kind (fieldAt m 1 1) (fieldAt m 4 4) (m.drop 8))) s := by
  have hin : (decide ((rget st.exec 2).toNat < 9) || decide (4096 < (rget st.exec 2).toNat) ||
      decide (st.desc.outboxSize < (rget st.exec 1).toNat + (rget st.exec 2).toNat)) = false := by
    simp only [Bool.or_eq_false_iff, decide_eq_false_iff_not]
    omega
  rw [svcSend, runInsn_ready hr, runInsn_ready hr]
  congr 1
  subst hoff hlen hm hkind
  simp only [hin, hneed]
  rfl

end

/-- Header and payload of a message of 9 bytes or more that `sendRule` describes are in range. -/
theorem outboxArgs_of_fields {m : List Byte} {kind len : Nat} (hm : m.length = len) (hkind : fieldAt m 0 1 = kind)
    (hsize : fieldAt m 2 2 = len - 8) (hflags : fieldAt m 1 1 < 2) (h2 : kind = 2 → fieldAt m 4 4 < 2 ^ 20)
    (h4 : kind = 4 → len = 9 ∧ fieldAt m 8 1 < 2 ∧ fieldAt m 4 4 < 32) : outboxArgs m = true := by
  have hdest : (decide (kind ≠ 2) || decide (fieldAt m 4 4 < 2 ^ 20)) = true := by
    simp only [Bool.or_eq_true, decide_eq_true_eq]
    omega
  have hfield : (decide (kind ≠ 4) || (decide (len = 9) && decide (fieldAt m 8 1 < 2) && decide (fieldAt m 4 4 < 32))) = true := by
    simp only [Bool.or_eq_true, Bool.and_eq_true, decide_eq_true_eq]
    omega
  simp only [outboxArgs, hm, hkind, hsize, hflags, decide_true, Bool.true_and, hdest, hfield]

theorem sendRule_of_svcSend {c : CoreIx → Instr} {kind right : Nat} (hneed : outboxRight kind = some right)
    (h : ∀ core s, exec (c core) s = .next (svcSend core s)) : sendRule c kind right := by
  intro s core i st off len m hr hoff hlen h9 h4096 hbox hm hkind hright hsize hflags h2 h4
  have hlength : m.length = len := by
    rw [hm, mgets, List.length_map, List.length_range]
  have hback := svcBack_of_judgedService hr (need := some right) (ok := true)
    (req := .send kind (fieldAt m 1 1) (fieldAt m 4 4) (m.drop 8))
    (body := fun _ st x => judgedService st x (some right) true (.send kind (fieldAt m 1 1) (fieldAt m 4 4) (m.drop 8))) rfl
  have hheld : ¬∃ r, some right = some r ∧ st.desc.rights.getLsbD r = false := by simp [hright]
  refine ⟨_, h .., ?_⟩
  rw [svcSend_body hoff hlen h9 h4096 hbox hm hkind hneed hr, outboxArgs_of_fields hlength hkind hsize hflags h2 h4]
  rwa [if_neg hheld, if_neg (by decide)] at hback

theorem sendRightRule_of_svcSend {c : CoreIx → Instr} {kind right : Nat} (hneed : outboxRight kind = some right)
    (h : ∀ core s, exec (c core) s = .next (svcSend core s)) : sendRightRule c kind right := by
  intro s core i st off len m hr hoff hlen h9 h4096 hbox hm hkind hright
  refine ⟨_, h .., ?_⟩
  rw [svcSend_body hoff hlen h9 h4096 hbox hm hkind hneed hr]
  exact svcBack_of_svcReturn hr (if_pos (lacksRight_iff.mpr ⟨right, rfl, hright⟩))

/-! ## Calls that post nothing (R84, R86) -/

theorem svcUnassignedRule_holds : svcUnassignedRule := by
  intro s core n i st hn hr
  have hun : svcAssigned n.toNat = false := by
    simp only [svcAssigned, Bool.and_eq_false_iff, decide_eq_false_iff_not]
    omega
  refine ⟨_, rfl, ?_⟩
  rw [if_neg (by simp [hun])]
  exact svcBack_of_svcReturn hr rfl

/-- A stall whose instruction yields with execution state `x` (R84). -/
def yieldedStall (st : Stall) (x : Exec) (charge : Nat) : Stall :=
  { st with exec := retireSw { x with fuel := x.fuel - charge }, lastFuelStop := false }

section
variable {s : State} {core : CoreIx} {i : Nat} {st : Stall} (charge : Nat) (hst : getStall? s i = some st)
  (hp : s.sup.posted = [])
include hst hp

theorem applyIRes_yield (x : Exec) :
    (∃ k, StallIs s (applyIRes s core i st charge (.yield x)) i (endedStall (yieldedStall st x charge) 1 k)) ∧
      (getRun (applyIRes s core i st charge (.yield x)) core).run = none := by
  obtain ⟨hs, hr⟩ := stallIs_endActivation (stallIs_perfInsn
    (stallIs_updStall (stallIs_refl hst) fun st => yieldedStall st x charge) core i
    [(2, 1), (3, charge), (0x1C, 1), (0x22, 1)] st.exec.pc (1, 0xFFFF) 4) hp core 1
  exact ⟨⟨_, hs⟩, hr⟩

theorem applyIRes_fault (x : Exec) (cause : Nat) (fa : Word) (code : Nat) :
    (∃ tk k, StallIs s (applyIRes s core i st charge (.fault x cause fa code)) i
      (endedStall (faultedStall st x (mkFrame x st.exec.pc (causeField cause 0 0 code) fa) tk) 3 k)) ∧
      (getRun (applyIRes s core i st charge (.fault x cause fa code)) core).run = none := by
  obtain ⟨⟨k, hs⟩, hr⟩ := stallIs_stallFault (stallIs_perfInsn (stallIs_refl hst) core i [] st.exec.pc (1, 0) 0) hp core x
    (mkFrame x st.exec.pc (causeField cause 0 0 code) fa)
  exact ⟨⟨_, k, hs⟩, hr⟩

end

theorem yieldRule_holds : yieldRule := by
  intro s core i st hr hp
  obtain ⟨⟨k, hget, hother, -⟩, hrun⟩ :=
    applyIRes_yield (core := core) 1 (getStall?_of_ready hr) hp { rset st.exec 1 0 with pc := st.exec.pc + 4 }
  rw [← runInsn_ready hr fun _ _ x => .yield { rset x 1 0 with pc := x.pc + 4 }] at hget hother hrun
  refine ⟨_, _, rfl, hget, hrun, ?_, rfl, rfl, hother⟩
  simp only [endedStall, yieldedStall, retireSw, rset_fuel, rset_sw]
  rfl

theorem svcFaultRule_holds : svcFaultRule := by
  intro s core i st hr hp
  obtain ⟨⟨tk, k, hget, -, -⟩, hrun⟩ := applyIRes_fault (core := core) 1 (getStall?_of_ready hr) hp
    { st.exec with fuel := st.exec.fuel - 1 } 0x14 0 ((rget st.exec 1).toNat % 2 ^ 32)
  rw [← runInsn_ready hr fun _ _ x => .fault { x with fuel := x.fuel - 1 } 0x14 0 ((rget x 1).toNat % 2 ^ 32)] at hget hrun
  exact ⟨_, _, rfl, hget, hrun, rfl, rfl, rfl, rfl, rfl, rfl⟩

end Sys2Proof.Machine

open Sys2Proof.Machine in
/-- Settles O12. -/
theorem supervisorCalls : Obligations.SupervisorCalls := by
  rw [Obligations.SupervisorCalls, safReqRange_eq, funext svcEvent_range]
  exact ⟨postedRule_of_svcPosted (ptr := fun x => some (rget x 1, 32)) fun _ _ => rfl,
    postedRule_of_svcPosted (ptr := fun _ => none) fun _ _ => rfl,
    postedRule_of_svcPosted (ptr := fun x => some (rget x 3, 36)) fun _ _ => rfl,
    postedRule_of_svcPosted (ptr := fun _ => none) fun _ _ => rfl,
    postedRule_of_svcPosted (ptr := fun _ => none) fun _ _ => rfl, yieldRule_holds, svcFaultRule_holds,
    svcUnassignedRule_holds⟩

open Sys2Proof.Machine in
/-- Settles O13: every kind of message goes through `svcSend`. -/
theorem outboxSends : Obligations.OutboxSends :=
  ⟨sendRule_of_svcSend rfl fun _ _ => rfl, sendRule_of_svcSend rfl fun _ _ => rfl, sendRule_of_svcSend rfl fun _ _ => rfl,
    sendRule_of_svcSend rfl fun _ _ => rfl, sendRule_of_svcSend rfl fun _ _ => rfl, sendRule_of_svcSend rfl fun _ _ => rfl,
    sendRule_of_svcSend rfl fun _ _ => rfl, sendRightRule_of_svcSend rfl fun _ _ => rfl,
    sendRightRule_of_svcSend rfl fun _ _ => rfl, sendRightRule_of_svcSend rfl fun _ _ => rfl,
    sendRightRule_of_svcSend rfl fun _ _ => rfl⟩

/-!
PROOFS. O11: block instructions (03 R75 to R82), and the fuel stop (03 R63, R64).
-/

namespace Sys2Proof.Machine
open Sys2Proof.Claims

/-! ## What granules change -/

/-- Of `x`, `y` differs at most in registers, memory, fuel and BIP. -/
def BlockFrame (x y : Exec) : Prop :=
  retireSw y = { retireSw x with regs := y.regs, mem := y.mem, fuel := y.fuel }

theorem swSet_bip_clear_set (w : Word) : swSet (swSet w swBip true) swBip false = swSet w swBip false := by
  refine BitVec.eq_of_getLsbD_eq fun b hb => ?_
  simp only [swSet, if_true, Bool.false_eq_true, if_false, BitVec.getLsbD_and, BitVec.getLsbD_or, BitVec.getLsbD_not]
  cases (BitVec.ofNat 64 (2 ^ swBip)).getLsbD b <;> simp

theorem rset_eq_regs (x : Exec) (r : Reg) (v : Word) : rset x r v = { x with regs := (rset x r v).regs } := by
  unfold rset
  split <;> rfl

section
variable {x y : Exec} {k c : Nat}

theorem blockFrame_refl (x : Exec) : BlockFrame x x := rfl

theorem blockFrame_regs (h : BlockFrame x y) (regs : Vector (BitVec 64) 32) : BlockFrame x { y with regs := regs } := by
  have := congrArg (fun z : Exec => { z with regs := regs }) h
  exact this

theorem blockFrame_rset (h : BlockFrame x y) (r : Reg) (v : Word) : BlockFrame x (rset y r v) :=
  rset_eq_regs y r v ▸ blockFrame_regs h _

theorem blockFrame_mem (h : BlockFrame x y) (m : Mem) : BlockFrame x { y with mem := m } := by
  have := congrArg (fun z : Exec => { z with mem := m }) h
  exact this

theorem blockFrame_fuel (h : BlockFrame x y) (f : Nat) : BlockFrame x { y with fuel := f } := by
  have := congrArg (fun z : Exec => { z with fuel := f }) h
  exact this

theorem blockFrame_bip (h : BlockFrame x y) : BlockFrame x { y with sw := swSet y.sw swBip true } := by
  unfold BlockFrame at h ⊢
  rw [← h]
  simp only [retireSw, swSet_bip_clear_set]

theorem blockFrame_blockStep (h : BlockFrame x y) (c : Nat) (g2too : Bool) : BlockFrame x (blockStep y c g2too) := by
  unfold blockStep
  refine blockFrame_rset ?_ ..
  split
  · exact blockFrame_rset (blockFrame_rset h ..) ..
  · exact blockFrame_rset h ..

theorem blockStep_g1 (y : Exec) (c : Nat) (g2too : Bool) : rget (blockStep y c g2too) 1 = rget y 1 + BitVec.ofNat 64 c := by
  unfold blockStep
  cases g2too <;> simp [rget_rset]

theorem blockStep_g2 (y : Exec) (c : Nat) (g2too : Bool) :
    rget (blockStep y c g2too) 2 = if g2too then rget y 2 + BitVec.ofNat 64 c else rget y 2 := by
  unfold blockStep
  cases g2too <;> simp [rget_rset]

theorem blockStep_g3 (y : Exec) (c : Nat) (g2too : Bool) : rget (blockStep y c g2too) 3 = rget y 3 - BitVec.ofNat 64 c := by
  unfold blockStep
  cases g2too <;> simp [rget_rset]

theorem blockStep_high (y : Exec) (c : Nat) (g2too : Bool) (r : Reg) (hr : 4 ≤ r.val) :
    rget (blockStep y c g2too) r = rget y r := by
  have h1 : r ≠ 1 := by rintro rfl; exact absurd hr (by decide)
  have h2 : r ≠ 2 := by rintro rfl; exact absurd hr (by decide)
  have h3 : r ≠ 3 := by rintro rfl; exact absurd hr (by decide)
  unfold blockStep
  cases g2too <;> simp [rget_rset, h1, h2, h3]

@[simp] theorem blockStep_mem (y : Exec) (c : Nat) (g2too : Bool) : (blockStep y c g2too).mem = y.mem := by
  unfold blockStep
  cases g2too <;> simp

@[simp] theorem blockStep_sw (y : Exec) (c : Nat) (g2too : Bool) : (blockStep y c g2too).sw = y.sw := by
  unfold blockStep
  cases g2too <;> simp

end

/-- `y` is `x` with the progress registers moved on by `k` bytes (R76); g2 and the memory are left open. -/
structure Progress (x y : Exec) (k : Nat) : Prop where
  frame : BlockFrame x y
  g1 : rget y 1 = rget x 1 + BitVec.ofNat 64 k
  g3 : rget y 3 = rget x 3 - BitVec.ofNat 64 k
  high : ∀ r : Reg, 4 ≤ r.val → rget y r = rget x r

section
variable {x y : Exec} {k c : Nat}

theorem progress_zero (x : Exec) : Progress x x 0 :=
  ⟨blockFrame_refl x, (BitVec.add_zero _).symm, (BitVec.sub_zero _).symm, fun _ _ => rfl⟩

theorem progress_mem (h : Progress x y k) (m : Mem) : Progress x { y with mem := m } k :=
  { h with frame := blockFrame_mem h.frame m }

theorem progress_g2 (h : Progress x y k) (v : Word) : Progress x (rset y 2 v) k where
  frame := blockFrame_rset h.frame 2 v
  g1 := by rw [rget_rset, if_neg (by decide), h.g1]
  g3 := by rw [rget_rset, if_neg (by decide), h.g3]
  high r hr := by rw [rget_rset, if_neg (by rintro ⟨rfl, -⟩; exact absurd hr (by decide)), h.high r hr]

theorem progress_blockStep (h : Progress x y k) (c : Nat) (g2too : Bool) : Progress x (blockStep y c g2too) (k + c) where
  frame := blockFrame_blockStep h.frame c g2too
  g1 := by rw [blockStep_g1, h.g1, BitVec.ofNat_add, BitVec.add_assoc]
  g3 := by rw [blockStep_g3, h.g3, BitVec.ofNat_add]; bv_omega
  high r hr := by rw [blockStep_high y c g2too r hr, h.high r hr]

/-- The charge and the BIP of a granule (R63, R76). -/
theorem progress_charge (h : Progress x y k) (f : Nat) : Progress x { y with fuel := f, sw := swSet y.sw swBip true } k :=
  { h with frame := blockFrame_fuel (blockFrame_bip h.frame) f }

theorem progress_retire (h : Progress x y k) (f : Nat) : Progress x { y with fuel := f } k :=
  { h with frame := blockFrame_fuel h.frame f }

theorem progress_g1_toNat (h : Progress x y k) {n : Nat} (hk : k ≤ n) (hn : (rget x 1).toNat + n < 2 ^ 64) :
    (rget y 1).toNat = (rget x 1).toNat + k := by
  rw [h.g1, BitVec.toNat_add, BitVec.toNat_ofNat]
  omega

theorem progress_g3_toNat (h : Progress x y k) (hk : k ≤ (rget x 3).toNat) : (rget y 3).toNat = (rget x 3).toNat - k := by
  have hlt := (rget x 3).isLt
  rw [h.g3, BitVec.toNat_sub, BitVec.toNat_ofNat]
  omega

/-- At the end of the operands. -/
theorem progress_end {n : Nat} (hn : n = (rget x 3).toNat) (h : Progress x y n) : rget y 1 = rget x 1 + rget x 3 ∧ rget y 3 = 0 := by
  have hword : BitVec.ofNat 64 n = rget x 3 := by rw [hn, BitVec.ofNat_toNat, BitVec.setWidth_eq]
  rw [h.g1, h.g3, hword]
  exact ⟨rfl, BitVec.sub_self _⟩

end

/-! ## Running granules -/

section
variable {step : Exec → Nat → Gran} {x y y' : Exec} {left done n k : Nat}

/-- A granule that completes is charged 1 unit and sets BIP. -/
theorem blockLoop_granule (h3 : 0 < (rget x 3).toNat) (hf : 1 ≤ x.fuel) (hs : step x (min 64 (rget x 3).toNat) = .done y false) :
    blockLoop step (left + 1) x done =
      blockLoop step left { y with fuel := x.fuel - 1, sw := swSet x.sw swBip true } (done + 1) := by
  have h0 : ¬ rget x 3 = 0 := by rintro h; rw [h] at h3; exact absurd h3 (by decide)
  have h1 : ¬ x.fuel < 1 := by omega
  rw [blockLoop, if_neg h0, if_neg h1, hs]
  rfl

/-- The last granule of an instruction that ends with it (BCMP at a difference) is charged together with the retirement. -/
theorem blockLoop_last (h3 : 0 < (rget x 3).toNat) (hf : 2 ≤ x.fuel) (hs : step x (min 64 (rget x 3).toNat) = .done y true) :
    blockLoop step (left + 1) x done = ({ y with fuel := x.fuel - 2, sw := swSet x.sw swBip true }, done + 1, none) := by
  have h0 : ¬ rget x 3 = 0 := by rintro h; rw [h] at h3; exact absurd h3 (by decide)
  have h1 : ¬ x.fuel < 1 := by omega
  have h2 : ¬ x.fuel - 1 < 1 := by omega
  rw [blockLoop, if_neg h0, if_neg h1, hs]
  dsimp only
  rw [if_pos rfl, if_neg h2, Nat.sub_sub]

/-- A granule that fails stops the loop at its first failing address (R77). -/
theorem blockLoop_bad (h3 : 0 < (rget x 3).toNat) (hf : 1 ≤ x.fuel) {fa : Nat} (hs : step x (min 64 (rget x 3).toNat) = .bad fa) :
    blockLoop step (left + 1) x done = (x, done, some (some fa)) := by
  have h0 : ¬ rget x 3 = 0 := by rintro h; rw [h] at h3; exact absurd h3 (by decide)
  have h1 : ¬ x.fuel < 1 := by omega
  rw [blockLoop, if_neg h0, if_neg h1, hs]

theorem blockLoop_end (h3 : (rget x 3).toNat = 0) (hf : 1 ≤ x.fuel) :
    blockLoop step (left + 1) x done = ({ x with fuel := x.fuel - 1 }, done, none) := by
  have h0 : rget x 3 = 0 := BitVec.eq_of_toNat_eq h3
  have h1 : ¬ x.fuel < 1 := by omega
  rw [blockLoop, if_pos h0, if_neg h1]

end

/-- Granule `j` of `n` bytes from `x` on completes and keeps `P`, which says of the bytes done, the memory and g2 how far the
instruction has come. The step sees the fuel and BIP of the granules before, and copies them. -/
def GranuleDone (step : Exec → Nat → Gran) (x : Exec) (n : Nat) (P : Nat → Mem → Word → Prop) (j : Nat) : Prop :=
  ∀ y, 64 * j < n → Progress x y (64 * j) → P (64 * j) y.mem (rget y 2) →
    ∃ y', step y (min 64 (n - 64 * j)) = .done y' false ∧ y'.sw = y.sw ∧ Progress x y' (64 * j + min 64 (n - 64 * j)) ∧
      P (64 * j + min 64 (n - 64 * j)) y'.mem (rget y' 2)

section
variable {step : Exec → Nat → Gran} {x : Exec} {n : Nat} {P : Nat → Mem → Word → Prop}

/-- The first `J` granules, one unit of fuel each. -/
theorem blockLoop_granules (hn : n = (rget x 3).toNat) (h0 : P 0 x.mem (rget x 2)) {J left : Nat} (hJ : J ≤ granules n)
    (hfuel : J ≤ x.fuel) (hleft : J ≤ left) (hstep : ∀ j, j < J → GranuleDone step x n P j) :
    ∃ y done, blockLoop step left x 0 = blockLoop step (left - J) y done ∧ Progress x y (min (64 * J) n) ∧
      P (min (64 * J) n) y.mem (rget y 2) ∧ y.fuel = x.fuel - J := by
  induction J with
  | zero => exact ⟨x, 0, rfl, by simpa using progress_zero x, by simpa using h0, rfl⟩
  | succ J ih =>
    obtain ⟨y, done, hloop, hprog, hP, hf⟩ :=
      ih (by omega) (by omega) (by omega) fun j hj => hstep j (Nat.lt_succ_of_lt hj)
    have hlt : 64 * J < n := by unfold granules at hJ; omega
    have hmin : min (64 * J) n = 64 * J := by omega
    have hnext : 64 * J + min 64 (n - 64 * J) = min (64 * (J + 1)) n := by omega
    rw [hmin] at hprog hP
    obtain ⟨y', hs, hsw, hprog', hP'⟩ := hstep J (Nat.lt_succ_self J) y hlt hprog hP
    rw [hnext] at hprog' hP'
    have h3 : (rget y 3).toNat = n - 64 * J := by rw [progress_g3_toNat hprog (by omega), hn]
    have hleft' : left - J = left - (J + 1) + 1 := by omega
    rw [← h3] at hs
    refine ⟨_, done + 1, ?_, progress_charge hprog' (y.fuel - 1), hP', by show y.fuel - 1 = _; omega⟩
    rw [hloop, hleft', blockLoop_granule (by omega) (by omega) hs, hsw]

/-- All granules and the retirement. -/
theorem blockLoop_completes (hn : n = (rget x 3).toNat) (h0 : P 0 x.mem (rget x 2)) (hfuel : granules n + 1 ≤ x.fuel)
    (hstep : ∀ j, j < granules n → GranuleDone step x n P j) :
    ∃ y done, blockLoop step (x.fuel + 1) x 0 = (y, done, none) ∧ Progress x y n ∧ P n y.mem (rget y 2) ∧
      y.fuel = x.fuel - (granules n + 1) := by
  obtain ⟨y, done, hloop, hprog, hP, hf⟩ :=
    blockLoop_granules (left := x.fuel + 1) hn h0 (Nat.le_refl _) (by omega) (by omega) hstep
  have hall : min (64 * granules n) n = n := by unfold granules; omega
  have hleft : x.fuel + 1 - granules n = x.fuel - granules n + 1 := by omega
  rw [hall] at hprog hP
  have h3 : (rget y 3).toNat = 0 := by rw [progress_g3_toNat hprog (by omega)]; omega
  refine ⟨_, done, ?_, progress_retire hprog (y.fuel - 1), hP, by show y.fuel - 1 = _; omega⟩
  rw [hloop, hleft, blockLoop_end h3 (by omega)]

end

/-! ## The bytes of a granule -/

theorem firstBad_eq_none_of_range {ok : Nat → Bool} {a k n c : Nat} (hok : ∀ j, j < n → ok (a + j) = true) (hn : a + n < 2 ^ 64)
    (hc : k + c ≤ n) : firstBad ok (a + k) c = none :=
  firstBad_eq_none fun j hj => by
    rw [Nat.mod_eq_of_lt (by omega), Nat.add_assoc]
    exact hok (k + j) (by omega)

theorem blockBytes_eq_mgets {m : Mem} {a : Word} {c : Nat} (h : a.toNat + c ≤ 2 ^ 64) : blockBytes m a c = mgets m a.toNat c :=
  List.map_congr_left fun j hj => by
    have hlt : j < c := List.mem_range.mp hj
    rw [Nat.mod_eq_of_lt (by omega)]

theorem mgets_add (m : Mem) (a k c : Nat) : mgets m a (k + c) = mgets m a k ++ mgets m (a + k) c := by
  simp only [mgets, List.range_add, List.map_append, List.map_map, Function.comp_def, Nat.add_assoc]

/-! ## The end of a block instruction -/

/-- The execution state that `blockDone` speaks of: that of the stall with the registers and the memory that the granules left. -/
def blockResult (st : Stall) (y : Exec) : Exec := { st.exec with regs := y.regs, mem := y.mem }

/-- A body that retires with `y` after `n` bytes' granules has run to its end. -/
theorem blockDone_of_retire {s : State} {core : CoreIx} {i n : Nat} {st : Stall} {body : State → Stall → Exec → IRes}
    (hr : ready s core i st (granules n + 1)) {y : Exec}
    (hb : ∃ evs lat ev, body s st st.exec = .retire { st with exec := { y with pc := st.exec.pc + 4 } } evs lat ev none)
    (hframe : BlockFrame st.exec y) (hfuel : y.fuel = st.exec.fuel - (granules n + 1)) :
    Claims.blockDone s (runInsn core 0 body s) i st (blockResult st y) n := by
  obtain ⟨hrun, hfetch, -⟩ := hr
  obtain ⟨evs, lat, ev, hb⟩ := hb
  obtain ⟨hst, honly⟩ := applyIRes_retire_stall s core i st { st with exec := { y with pc := st.exec.pc + 4 } } 0 evs lat ev
  rw [runInsn_body body hrun hfetch (Nat.zero_le _), hb]
  have hexec : retireSw { y with pc := st.exec.pc + 4, fuel := y.fuel - 0 } =
      { retireSw st.exec with regs := y.regs, mem := y.mem, fuel := st.exec.fuel - (granules n + 1), pc := st.exec.pc + 4 } := by
    have := congrArg (fun z : Exec => { z with pc := st.exec.pc + 4 }) hframe
    rw [← hfuel]
    exact this
  exact ⟨hst.trans (congrArg (fun z => some { st with exec := z }) hexec), rfl, honly⟩

section
variable {s : State} {core : CoreIx} {i n : Nat} {st : Stall} {crc : Bool} {step : Stall → Exec → Nat → Gran}

/-- A block instruction that is its granules and nothing else has run to its end when every granule completes. -/
theorem blockDone_blockOp (lvl : Stall → Exec → Nat) (P : Nat → Mem → Word → Prop) (hn : n = (rget st.exec 3).toNat)
    (hr : ready s core i st (granules n + 1)) (h0 : P 0 st.exec.mem (rget st.exec 2))
    (hstep : ∀ j, j < granules n → GranuleDone (step st) st.exec n P j) :
    ∃ y, Claims.blockDone s (blockOp core lvl crc step s) i st (blockResult st y) n ∧ Progress st.exec y n ∧
      P n y.mem (rget y 2) := by
  obtain ⟨y, done, hloop, hprog, hP, hf⟩ := blockLoop_completes hn h0 hr.2.2 hstep
  refine ⟨y, blockDone_of_retire hr ?_ hprog.frame hf, hprog, hP⟩
  dsimp only
  rw [hloop]
  exact ⟨_, _, _, rfl⟩

end

/-! ## BCOPY (R79) -/

theorem copyStep_done {st : Stall} {y : Exec} {c : Nat} (hsrc : firstBad (blockRead st.desc) (rget y 2).toNat c = none)
    (hdst : firstBad (blockWrite st.desc) (rget y 1).toNat c = none) :
    copyStep st y c = .done (blockStep { y with mem := blockPut y.mem (rget y 1) (blockBytes y.mem (rget y 2) c) } c true) false := by
  rw [copyStep, hsrc]
  dsimp only
  rw [hdst]

/-- After `k` of `n` bytes g2 has moved on, and copying the rest gives `final`. -/
def CopyLeft (final : Mem) (g1 g2 : Word) (n k : Nat) (m : Mem) (v : Word) : Prop :=
  v = g2 + BitVec.ofNat 64 k ∧ ∃ bound, n - k ≤ bound ∧ copied bound m (g1.toNat + k) (g2.toNat + k) (n - k) = final

theorem copied_succ {bound n : Nat} (m : Mem) (dst src : Nat) (h : 0 < n) : copied (bound + 1) m dst src n =
    copied bound (mputs m dst (mgets m src (min 64 n))) (dst + min 64 n) (src + min 64 n) (n - min 64 n) := by
  rw [copied, if_neg (by omega)]

theorem copied_zero (bound : Nat) (m : Mem) (dst src : Nat) : copied bound m dst src 0 = m := by
  cases bound <;> simp [copied]

theorem granuleDone_copyStep {st : Stall} {n : Nat} {final : Mem}
    (hok : ∀ j, j < n → canRead st.desc ((rget st.exec 2).toNat + j) = true ∧ canWrite st.desc ((rget st.exec 1).toNat + j) = true)
    (hsrc : (rget st.exec 2).toNat + n < 2 ^ 64) (hdst : (rget st.exec 1).toNat + n < 2 ^ 64) (j : Nat) :
    GranuleDone (copyStep st) st.exec n (CopyLeft final (rget st.exec 1) (rget st.exec 2) n) j := by
  intro y hlt hprog ⟨hg2, bound, hbound, hleft⟩
  have h1 : (rget y 1).toNat = (rget st.exec 1).toNat + 64 * j := progress_g1_toNat hprog (Nat.le_of_lt hlt) hdst
  have h2 : (rget y 2).toNat = (rget st.exec 2).toNat + 64 * j := by
    rw [hg2, BitVec.toNat_add, BitVec.toNat_ofNat]
    omega
  have hread : firstBad (blockRead st.desc) (rget y 2).toNat (min 64 (n - 64 * j)) = none :=
    h2 ▸ firstBad_eq_none_of_range (fun j hj => (hok j hj).1) hsrc (by omega)
  have hwrite : firstBad (blockWrite st.desc) (rget y 1).toNat (min 64 (n - 64 * j)) = none :=
    h1 ▸ firstBad_eq_none_of_range (fun j hj => (hok j hj).2) hdst (by omega)
  refine ⟨_, copyStep_done hread hwrite, blockStep_sw .., progress_blockStep (progress_mem hprog _) .., ?_, bound - 1, by omega, ?_⟩
  · rw [blockStep_g2, if_pos rfl, BitVec.ofNat_add, ← BitVec.add_assoc, ← hg2]
    rfl
  · have hsucc : bound = bound - 1 + 1 := by omega
    rw [← hleft, hsucc, copied_succ _ _ _ (by omega), blockStep_mem, blockPut, blockBytes_eq_mgets (by omega), h1, h2]
    simp only [Nat.add_assoc, Nat.sub_sub, Nat.add_sub_cancel]

theorem bcopyRule_holds : bcopyRule := by
  intro s core i st n hn hr hok hsrc hdst
  obtain ⟨y, hdone, hprog, hg2, bound, -, hmem⟩ := blockDone_blockOp (crc := false) (fun st x => level2 st (rget x 1) (rget x 2))
    (CopyLeft (copied n st.exec.mem (rget st.exec 1).toNat (rget st.exec 2).toNat n) (rget st.exec 1) (rget st.exec 2) n) hn hr
    ⟨(BitVec.add_zero _).symm, n, Nat.le_refl _, rfl⟩ fun j _ => granuleDone_copyStep hok hsrc hdst j
  obtain ⟨h1, h3⟩ := progress_end hn hprog
  refine ⟨_, _, rfl, hdone, ?_, h1, ?_, h3, hprog.high⟩
  · rw [← hmem, Nat.sub_self, copied_zero]
    rfl
  · rw [hn, BitVec.ofNat_toNat, BitVec.setWidth_eq] at hg2
    exact hg2

/-! ## BFILL (R80) -/

theorem fillStep_done {st : Stall} {y : Exec} {c : Nat} (hdst : firstBad (blockWrite st.desc) (rget y 1).toNat c = none) :
    fillStep st y c = .done (blockStep { y with
      mem := blockPut y.mem (rget y 1) ((List.range c).map fun i => fillByte (rget y 2) ((rget y 1).toNat + i)) } c false) false := by
  rw [fillStep, hdst]

/-- The byte at an address when `k` bytes from `a0` up have been filled. -/
def filled (m : Mem) (pat : Word) (a0 k a : Nat) : Byte :=
  if a0 ≤ a ∧ a < a0 + k then fillByte pat a else mget m a

/-- The next `c` bytes from a granule's start. -/
theorem filled_add (m : Mem) (pat : Word) (a0 k c a : Nat) :
    (if a0 + k ≤ a ∧ a < a0 + k + ((List.range c).map fun i => fillByte pat (a0 + k + i)).length
      then ((List.range c).map fun i => fillByte pat (a0 + k + i)).getD (a - (a0 + k)) 0 else filled m pat a0 k a) =
      filled m pat a0 (k + c) a := by
  rw [List.length_map, List.length_range]
  split
  · next hin =>
    have hpos : a0 + k + (a - (a0 + k)) = a := by omega
    rw [filled, if_pos (by omega), List.getD_eq_getElem _ _ (by rw [List.length_map, List.length_range]; omega),
      List.getElem_map, List.getElem_range, hpos]
  · next hout =>
    unfold filled
    split
    · next hold => rw [if_pos (by omega)]
    · next hnew => rw [if_neg (by omega)]

/-- The pattern stays in g2, and of a well-formed memory `k` bytes from `a0` up are filled. -/
def FillDone (m0 : Mem) (pat : Word) (a0 k : Nat) (m : Mem) (v : Word) : Prop :=
  v = pat ∧ (Mem.wf m0 = true → Mem.wf m = true ∧ ∀ a, mget m a = filled m0 pat a0 k a)

theorem granuleDone_fillStep {st : Stall} {n : Nat} (hok : ∀ j, j < n → canWrite st.desc ((rget st.exec 1).toNat + j) = true)
    (hdst : (rget st.exec 1).toNat + n < 2 ^ 64) (j : Nat) :
    GranuleDone (fillStep st) st.exec n (FillDone st.exec.mem (rget st.exec 2) (rget st.exec 1).toNat) j := by
  intro y hlt hprog ⟨hg2, hmem⟩
  have h1 : (rget y 1).toNat = (rget st.exec 1).toNat + 64 * j := progress_g1_toNat hprog (Nat.le_of_lt hlt) hdst
  have hwrite : firstBad (blockWrite st.desc) (rget y 1).toNat (min 64 (n - 64 * j)) = none :=
    h1 ▸ firstBad_eq_none_of_range hok hdst (by omega)
  refine ⟨_, fillStep_done hwrite, blockStep_sw .., progress_blockStep (progress_mem hprog _) .., ?_, fun hwf0 => ?_⟩
  · rw [blockStep_g2, if_neg Bool.false_ne_true]
    exact hg2
  · obtain ⟨hwf, hm⟩ := hmem hwf0
    rw [blockStep_mem]
    refine ⟨wf_mputs _ _ _ hwf, fun a => ?_⟩
    rw [blockPut, mget_mputs _ _ _ _ hwf, hm, h1, hg2]
    exact filled_add ..

theorem fillByte_eq (pat : Word) (a : Nat) : fillByte pat a = pat.extractLsb' (8 * (a % 8)) 8 := (extractLsb'_byte pat (a % 8)).symm

theorem bfill_done {s : State} {core : CoreIx} {i n : Nat} {st : Stall} (hn : n = (rget st.exec 3).toNat)
    (hr : ready s core i st (granules n + 1)) (hok : ∀ j, j < n → canWrite st.desc ((rget st.exec 1).toNat + j) = true)
    (hdst : (rget st.exec 1).toNat + n < 2 ^ 64) :
    ∃ t y, exec (.bfill core) s = .next t ∧ Claims.blockDone s t i st (blockResult st y) n ∧ Progress st.exec y n ∧
      FillDone st.exec.mem (rget st.exec 2) (rget st.exec 1).toNat n y.mem (rget y 2) := by
  obtain ⟨y, hdone, hprog, hfill⟩ := blockDone_blockOp (crc := false) (fun st x => level2 st (rget x 1) (rget x 1))
    (FillDone st.exec.mem (rget st.exec 2) (rget st.exec 1).toNat) hn hr
    ⟨rfl, fun hwf => ⟨hwf, fun a => (if_neg (by omega)).symm⟩⟩ fun j _ => granuleDone_fillStep hok hdst j
  exact ⟨_, y, rfl, hdone, hprog, hfill⟩

theorem bfillRule_holds : bfillRule := by
  intro s core i st n hn hr hwf hok hdst
  obtain ⟨t, y, hx, hdone, hprog, hg2, hmem⟩ := bfill_done hn hr hok hdst
  obtain ⟨hwf', hm⟩ := hmem hwf
  obtain ⟨h1, h3⟩ := progress_end hn hprog
  refine ⟨t, _, hx, hdone, hwf', fun a => ?_, h1, hg2, h3, hprog.high⟩
  rw [← fillByte_eq]
  exact hm a

end Sys2Proof.Machine

/-!
PROOFS. O11: BCRC, BCMP (03 R81, R82), a failing granule and the fuel stop (03 R63, R64, R77).
-/

namespace Sys2Proof.Machine
open Sys2Proof.Claims

/-! ## BCRC (R81) -/

theorem crcBit_lt {c : Nat} (h : c < 2 ^ 32) : crcBit c < 2 ^ 32 := by
  unfold crcBit
  split
  · exact Nat.xor_lt_two_pow (by omega) (by decide)
  · omega

theorem crcByte_lt {c : Nat} (h : c < 2 ^ 32) (b : Byte) : crcByte c b < 2 ^ 32 := by
  have hx : c ^^^ b.toNat < 2 ^ 32 := Nat.xor_lt_two_pow h (Nat.lt_of_lt_of_le b.isLt (by decide))
  exact crcBit_lt (crcBit_lt (crcBit_lt (crcBit_lt (crcBit_lt (crcBit_lt (crcBit_lt (crcBit_lt hx)))))))

theorem crcRun_lt {c : Nat} (h : c < 2 ^ 32) (bs : List Byte) : crcRun c bs < 2 ^ 32 := by
  unfold crcRun
  induction bs generalizing c with
  | nil => exact h
  | cons b bs ih => exact ih (crcByte_lt h b)

theorem crcRun_append (c : Nat) (as bs : List Byte) : crcRun c (as ++ bs) = crcRun (crcRun c as) bs := List.foldl_append ..

theorem crcStep_done {st : Stall} {y : Exec} {c : Nat} (hsrc : firstBad (blockRead st.desc) (rget y 1).toNat c = none) :
    crcStep st y c = .done (blockStep
      (rset y 2 (BitVec.ofNat 64 (crcRun ((rget y 2).toNat % 2 ^ 32) (blockBytes y.mem (rget y 1) c)))) c false) false := by
  rw [crcStep, hsrc]

/-- The low half of g2 is the register after `k` bytes; the memory is as at the start. -/
def CrcDone (m0 : Mem) (start a0 k : Nat) (m : Mem) (v : Word) : Prop :=
  m = m0 ∧ v.toNat % 2 ^ 32 = crcRun (start % 2 ^ 32) (mgets m0 a0 k)

theorem granuleDone_crcStep {st : Stall} {n : Nat} (hok : ∀ j, j < n → canRead st.desc ((rget st.exec 1).toNat + j) = true)
    (hsrc : (rget st.exec 1).toNat + n < 2 ^ 64) (j : Nat) :
    GranuleDone (crcStep st) st.exec n (CrcDone st.exec.mem (rget st.exec 2).toNat (rget st.exec 1).toNat) j := by
  intro y hlt hprog ⟨hmem, hcrc⟩
  have h1 : (rget y 1).toNat = (rget st.exec 1).toNat + 64 * j := progress_g1_toNat hprog (Nat.le_of_lt hlt) hsrc
  have hread : firstBad (blockRead st.desc) (rget y 1).toNat (min 64 (n - 64 * j)) = none :=
    h1 ▸ firstBad_eq_none_of_range hok hsrc (by omega)
  refine ⟨_, crcStep_done hread, ?_, progress_blockStep (progress_g2 hprog _) .., ?_, ?_⟩
  · rw [blockStep_sw, rset_sw]
  · rw [blockStep_mem, rset_mem, hmem]
  · have hbytes := crcRun_append ((rget st.exec 2).toNat % 2 ^ 32) (mgets st.exec.mem (rget st.exec 1).toNat (64 * j))
      (mgets st.exec.mem ((rget st.exec 1).toNat + 64 * j) (min 64 (n - 64 * j)))
    have hlt := crcRun_lt (Nat.mod_lt (rget st.exec 2).toNat (by decide : 0 < 2 ^ 32))
      (mgets st.exec.mem (rget st.exec 1).toNat (64 * j + min 64 (n - 64 * j)))
    rw [blockStep_g2, if_neg Bool.false_ne_true, rget_rset, if_pos (by decide), blockBytes_eq_mgets (by omega), hcrc, hmem, h1,
      ← hbytes, ← mgets_add, BitVec.toNat_ofNat]
    omega

theorem bcrcRule_holds : bcrcRule := by
  intro s core i st n hn hr hok hsrc
  obtain ⟨y, done, hloop, hprog, ⟨hmem, hcrc⟩, hf⟩ := blockLoop_completes
    (P := CrcDone st.exec.mem (rget st.exec 2).toNat (rget st.exec 1).toNat) hn ⟨rfl, rfl⟩ hr.2.2
    fun j _ => granuleDone_crcStep hok hsrc j
  have hend : Progress st.exec (crcEntry y) n := progress_g2 hprog _
  obtain ⟨h1, h3⟩ := progress_end hn hend
  refine ⟨_, _, rfl, blockDone_of_retire hr ?_ hend.frame (by rw [crcEntry, rset_fuel, hf]), ?_, ?_, h1, h3, hend.high⟩
  · dsimp only
    rw [hloop]
    exact ⟨_, _, _, rfl⟩
  · rw [blockResult, crcEntry, rset_mem, hmem]
  · show rget (crcEntry y) 2 = _
    rw [crcEntry, rget_rset, if_pos (by decide), hcrc]

/-! ## BCMP (R82) -/

theorem firstDiff_self (bs : List Byte) (i : Nat) : firstDiff bs bs i = none := by
  induction bs generalizing i with
  | nil => rfl
  | cons b bs ih => rw [firstDiff, if_pos rfl, ih]

/-- Equal bytes before two that differ. -/
theorem firstDiff_append {a b : Byte} (hab : a ≠ b) (p as bs : List Byte) (i : Nat) :
    firstDiff (p ++ a :: as) (p ++ b :: bs) i = some (i + p.length, decide (a.toNat < b.toNat)) := by
  induction p generalizing i with
  | nil => rw [List.nil_append, List.nil_append, firstDiff, if_neg hab, List.length_nil, Nat.add_zero]
  | cons c p ih => rw [List.cons_append, List.cons_append, firstDiff, if_pos rfl, ih, List.length_cons]; congr 2; omega

theorem mgets_congr {m : Mem} {a b c : Nat} (h : ∀ j, j < c → mget m (a + j) = mget m (b + j)) : mgets m a c = mgets m b c :=
  List.map_congr_left fun j hj => h j (List.mem_range.mp hj)

theorem mgets_split (m : Mem) (a : Nat) {e c : Nat} (h : e < c) :
    mgets m a c = mgets m a e ++ mget m (a + e) :: mgets m (a + e + 1) (c - e - 1) := by
  have hc : c = e + (1 + (c - e - 1)) := by omega
  rw [hc, mgets_add, mgets_add]
  simp [mgets, Nat.add_comm, Nat.add_left_comm]

/-- The first difference of two stretches of the memory. -/
theorem firstDiff_mgets {m : Mem} {a b e c : Nat} (he : e < c) (heq : ∀ j, j < e → mget m (a + j) = mget m (b + j))
    (hne : mget m (a + e) ≠ mget m (b + e)) :
    firstDiff (mgets m a c) (mgets m b c) 0 = some (e, decide ((mget m (a + e)).toNat < (mget m (b + e)).toNat)) := by
  rw [mgets_split m a he, mgets_split m b he, mgets_congr heq, firstDiff_append hne, Nat.zero_add, mgets, List.length_map,
    List.length_range]

section
variable {st : Stall} {rd : Reg} {y : Exec} {c e : Nat} (ha : firstBad (blockRead st.desc) (rget y 1).toNat c = none)
  (hb : firstBad (blockRead st.desc) (rget y 2).toNat c = none)
include ha hb

theorem cmpStep_done (hd : firstDiff (blockBytes y.mem (rget y 1) c) (blockBytes y.mem (rget y 2) c) 0 = none) :
    cmpStep rd st y c = .done (blockStep y c true) false := by
  rw [cmpStep, ha]
  dsimp only
  rw [hb]
  dsimp only
  rw [hd]

theorem cmpStep_last {lower : Bool}
    (hd : firstDiff (blockBytes y.mem (rget y 1) c) (blockBytes y.mem (rget y 2) c) 0 = some (e, lower)) :
    cmpStep rd st y c = .done (rset (blockStep y e true) rd (if lower then BitVec.ofInt 64 (-1) else 1)) true := by
  rw [cmpStep, ha]
  dsimp only
  rw [hb]
  dsimp only
  rw [hd]

end

/-- The memory is as at the start, and g2 has moved on with g1. -/
def CmpDone (m0 : Mem) (g2 : Word) (k : Nat) (m : Mem) (v : Word) : Prop := m = m0 ∧ v = g2 + BitVec.ofNat 64 k

section
variable {st : Stall} {n : Nat}
  (hok : ∀ j, j < n → canRead st.desc ((rget st.exec 1).toNat + j) = true ∧ canRead st.desc ((rget st.exec 2).toNat + j) = true)
  (h1n : (rget st.exec 1).toNat + n < 2 ^ 64) (h2n : (rget st.exec 2).toNat + n < 2 ^ 64)
include hok h1n h2n

/-- A granule of BCMP reads both operands where it stands. -/
theorem cmpStep_operands {y : Exec} {j : Nat} (hlt : 64 * j < n) (hprog : Progress st.exec y (64 * j))
    (hdone : CmpDone st.exec.mem (rget st.exec 2) (64 * j) y.mem (rget y 2)) :
    firstBad (blockRead st.desc) (rget y 1).toNat (min 64 (n - 64 * j)) = none ∧
      firstBad (blockRead st.desc) (rget y 2).toNat (min 64 (n - 64 * j)) = none ∧
      blockBytes y.mem (rget y 1) (min 64 (n - 64 * j)) =
        mgets st.exec.mem ((rget st.exec 1).toNat + 64 * j) (min 64 (n - 64 * j)) ∧
      blockBytes y.mem (rget y 2) (min 64 (n - 64 * j)) =
        mgets st.exec.mem ((rget st.exec 2).toNat + 64 * j) (min 64 (n - 64 * j)) := by
  obtain ⟨hmem, hg2⟩ := hdone
  have h1 : (rget y 1).toNat = (rget st.exec 1).toNat + 64 * j := progress_g1_toNat hprog (Nat.le_of_lt hlt) h1n
  have h2 : (rget y 2).toNat = (rget st.exec 2).toNat + 64 * j := by
    rw [hg2, BitVec.toNat_add, BitVec.toNat_ofNat]
    omega
  rw [blockBytes_eq_mgets (by omega), blockBytes_eq_mgets (by omega), h1, h2, hmem]
  exact ⟨firstBad_eq_none_of_range (fun j hj => (hok j hj).1) h1n (by omega),
    firstBad_eq_none_of_range (fun j hj => (hok j hj).2) h2n (by omega), rfl, rfl⟩

/-- A granule without a difference. -/
theorem granuleDone_cmpStep (rd : Reg) {j : Nat} (heq : ∀ i, i < min 64 (n - 64 * j) →
      mget st.exec.mem ((rget st.exec 1).toNat + 64 * j + i) = mget st.exec.mem ((rget st.exec 2).toNat + 64 * j + i)) :
    GranuleDone (cmpStep rd st) st.exec n (CmpDone st.exec.mem (rget st.exec 2)) j := by
  intro y hlt hprog hdone
  obtain ⟨ha, hb, hbytes1, hbytes2⟩ := cmpStep_operands hok h1n h2n hlt hprog hdone
  obtain ⟨hmem, hg2⟩ := hdone
  refine ⟨_, cmpStep_done ha hb ?_, blockStep_sw .., progress_blockStep hprog .., ?_, ?_⟩
  · rw [hbytes1, hbytes2, mgets_congr heq, firstDiff_self]
  · rw [blockStep_mem, hmem]
  · rw [blockStep_g2, if_pos rfl, hg2, BitVec.ofNat_add, BitVec.add_assoc]

end

/-- Writing rd, which is none of the progress registers, keeps what the granules did. -/
theorem rget_rset_rd {y : Exec} {rd : Reg} (hrd : rd.val = 0 ∨ 4 ≤ rd.val) (v : Word) :
    rget (rset y rd v) 1 = rget y 1 ∧ rget (rset y rd v) 2 = rget y 2 ∧ rget (rset y rd v) 3 = rget y 3 ∧
      ∀ r, r ≠ rd → rget (rset y rd v) r = rget y r := by
  have hother : ∀ r, r ≠ rd → rget (rset y rd v) r = rget y r := fun r hr => by rw [rget_rset, if_neg fun h => hr h.1]
  refine ⟨hother 1 ?_, hother 2 ?_, hother 3 ?_, hother⟩ <;> (rintro rfl; revert hrd; decide)

theorem rget_rset_rd_zero (y : Exec) (rd : Reg) : rget (rset y rd 0) rd = 0 := by
  rw [rget_rset]
  split
  · rfl
  · next h => rw [rget, if_pos (by simpa using h)]

/-- The whole range without a difference. -/
theorem bcmp_equal {s : State} {core : CoreIx} {rd : Reg} {i n : Nat} {st : Stall} (hn : n = (rget st.exec 3).toNat)
    (hrd : rd.val = 0 ∨ 4 ≤ rd.val) (hr : ready s core i st (granules n + 1))
    (hok : ∀ j, j < n → canRead st.desc ((rget st.exec 1).toNat + j) = true ∧ canRead st.desc ((rget st.exec 2).toNat + j) = true)
    (h1n : (rget st.exec 1).toNat + n < 2 ^ 64) (h2n : (rget st.exec 2).toNat + n < 2 ^ 64)
    (heq : ∀ j, j < n → mget st.exec.mem ((rget st.exec 1).toNat + j) = mget st.exec.mem ((rget st.exec 2).toNat + j)) :
    ∃ t x, exec (.bcmp core rd) s = .next t ∧ Claims.blockDone s t i st x n ∧ x.mem = st.exec.mem ∧ rget x rd = 0 ∧
      rget x 1 = rget st.exec 1 + rget st.exec 3 ∧ rget x 2 = rget st.exec 2 + rget st.exec 3 ∧ rget x 3 = 0 ∧
      ∀ r : Reg, 4 ≤ r.val → r ≠ rd → rget x r = rget st.exec r := by
  obtain ⟨y, done, hloop, hprog, ⟨hmem, hg2⟩, hf⟩ := blockLoop_completes
    (P := CmpDone st.exec.mem (rget st.exec 2)) hn ⟨rfl, (BitVec.add_zero _).symm⟩ hr.2.2 fun j _ =>
      granuleDone_cmpStep hok h1n h2n rd (fun i hi => by rw [Nat.add_assoc, Nat.add_assoc]; exact heq _ (by omega))
  obtain ⟨h1, h3⟩ := progress_end hn hprog
  obtain ⟨k1, k2, k3, kother⟩ := rget_rset_rd (y := y) hrd 0
  rw [hn, BitVec.ofNat_toNat, BitVec.setWidth_eq] at hg2
  refine ⟨_, _, rfl, blockDone_of_retire hr ?_ (blockFrame_rset hprog.frame rd 0) (by rw [rset_fuel, hf]), ?_,
    rget_rset_rd_zero y rd, k1.trans h1, k2.trans hg2, k3.trans h3, fun r hr hne => (kother r hne).trans (hprog.high r hr)⟩
  · have hill : ¬ (decide (1 ≤ rd.val) && decide (rd.val ≤ 3)) = true := by simp; omega
    dsimp only
    rw [if_neg hill, hloop]
    dsimp only
    rw [if_pos h3]
    exact ⟨_, _, _, rfl⟩
  · rw [blockResult, rset_mem, hmem]

/-- What BCMP leaves in rd at a difference of two bytes: -1 where the first is the lower, +1 otherwise (R82). -/
def orderWord (a b : Byte) : Word := if decide (a.toNat < b.toNat) then BitVec.ofInt 64 (-1) else 1

theorem orderWord_eq (a b : Byte) : orderWord a b = if a.toNat < b.toNat then -1 else 1 := by
  unfold orderWord
  by_cases h : a.toNat < b.toNat
  · rw [if_pos h, if_pos (decide_eq_true h)]
    rfl
  · rw [if_neg h, if_neg (by rwa [decide_eq_true_eq])]

/-- A difference at byte `d`: the granules before it complete, its own ends the instruction. -/
theorem blockLoop_cmpStep_difference {rd : Reg} {n d : Nat} {st : Stall} (hn : n = (rget st.exec 3).toNat) (hd : d < n)
    (hfuel : granules (d + 1) + 1 ≤ st.exec.fuel)
    (hok : ∀ j, j < n → canRead st.desc ((rget st.exec 1).toNat + j) = true ∧ canRead st.desc ((rget st.exec 2).toNat + j) = true)
    (h1n : (rget st.exec 1).toNat + n < 2 ^ 64) (h2n : (rget st.exec 2).toNat + n < 2 ^ 64)
    (heq : ∀ j, j < d → mget st.exec.mem ((rget st.exec 1).toNat + j) = mget st.exec.mem ((rget st.exec 2).toNat + j))
    (hne : mget st.exec.mem ((rget st.exec 1).toNat + d) ≠ mget st.exec.mem ((rget st.exec 2).toNat + d)) :
    ∃ z done, blockLoop (cmpStep rd st) (st.exec.fuel + 1) st.exec 0 = (z, done, none) ∧
      z.fuel = st.exec.fuel - (granules (d + 1) + 1) ∧ BlockFrame st.exec z ∧
      ∃ y, Progress st.exec y d ∧ CmpDone st.exec.mem (rget st.exec 2) d z.mem (rget y 2) ∧
        ∀ r, rget z r = rget (rset y rd (orderWord (mget st.exec.mem ((rget st.exec 1).toNat + d))
          (mget st.exec.mem ((rget st.exec 2).toNat + d)))) r := by
  have hJ : d = 64 * (d / 64) + d % 64 := (Nat.div_add_mod d 64).symm
  have hgran : granules (d + 1) = d / 64 + 1 := by unfold granules; omega
  obtain ⟨y, done, hloop, hprog, hcmp, hf⟩ := blockLoop_granules (J := d / 64) (left := st.exec.fuel + 1)
    (P := CmpDone st.exec.mem (rget st.exec 2)) hn ⟨rfl, (BitVec.add_zero _).symm⟩ (by unfold granules; omega) (by omega) (by omega)
    fun j hj => granuleDone_cmpStep hok h1n h2n rd (fun i hi => by rw [Nat.add_assoc, Nat.add_assoc]; exact heq _ (by omega))
  have hmin : min (64 * (d / 64)) n = 64 * (d / 64) := by omega
  rw [hmin] at hprog hcmp
  obtain ⟨ha, hb, hbytes1, hbytes2⟩ := cmpStep_operands hok h1n h2n (by omega) hprog hcmp
  obtain ⟨hmem, hg2⟩ := hcmp
  have hdiff := firstDiff_mgets (m := st.exec.mem) (a := (rget st.exec 1).toNat + 64 * (d / 64))
    (b := (rget st.exec 2).toNat + 64 * (d / 64)) (e := d % 64) (c := min 64 (n - 64 * (d / 64))) (by omega)
    (fun j hj => by rw [Nat.add_assoc, Nat.add_assoc]; exact heq _ (by omega))
    (by rwa [Nat.add_assoc, Nat.add_assoc, ← hJ])
  rw [← hbytes1, ← hbytes2, Nat.add_assoc, Nat.add_assoc, ← hJ] at hdiff
  have h3 : (rget y 3).toNat = n - 64 * (d / 64) := by rw [progress_g3_toNat hprog (by omega), hn]
  have hlast := cmpStep_last (rd := rd) ha hb hdiff
  rw [← h3] at hlast
  have hleft : st.exec.fuel + 1 - d / 64 = st.exec.fuel - d / 64 + 1 := by omega
  have hend : Progress st.exec (blockStep y (d % 64) true) d := by
    have := progress_blockStep hprog (d % 64) true
    rwa [← hJ] at this
  have hrun := blockLoop_last (left := st.exec.fuel - d / 64) (done := done) (by omega) (by omega) hlast
  rw [← hleft, ← hloop] at hrun
  refine ⟨_, _, hrun, ?_, ?_, blockStep y (d % 64) true, hend, ⟨?_, ?_⟩, fun r => rfl⟩
  · show y.fuel - 2 = _
    omega
  · have := blockFrame_fuel (blockFrame_bip (blockFrame_rset hend.frame rd (orderWord
      (mget st.exec.mem ((rget st.exec 1).toNat + d)) (mget st.exec.mem ((rget st.exec 2).toNat + d))))) (y.fuel - 2)
    rwa [rset_sw, blockStep_sw] at this
  · exact (rset_mem ..).trans ((blockStep_mem ..).trans hmem)
  · rw [blockStep_g2, if_pos rfl, hg2, BitVec.add_assoc, ← BitVec.ofNat_add, ← hJ]

/-- The first difference at byte `d`. -/
theorem bcmp_difference {s : State} {core : CoreIx} {rd : Reg} {i n d : Nat} {st : Stall} (hn : n = (rget st.exec 3).toNat)
    (hrd : rd.val = 0 ∨ 4 ≤ rd.val) (hr : ready s core i st (granules (d + 1) + 1)) (hd : d < n)
    (hok : ∀ j, j < n → canRead st.desc ((rget st.exec 1).toNat + j) = true ∧ canRead st.desc ((rget st.exec 2).toNat + j) = true)
    (h1n : (rget st.exec 1).toNat + n < 2 ^ 64) (h2n : (rget st.exec 2).toNat + n < 2 ^ 64)
    (heq : ∀ j, j < d → mget st.exec.mem ((rget st.exec 1).toNat + j) = mget st.exec.mem ((rget st.exec 2).toNat + j))
    (hne : mget st.exec.mem ((rget st.exec 1).toNat + d) ≠ mget st.exec.mem ((rget st.exec 2).toNat + d)) :
    ∃ t x, exec (.bcmp core rd) s = .next t ∧ Claims.blockDone s t i st x (d + 1) ∧ x.mem = st.exec.mem ∧
      (rd.val ≠ 0 → rget x rd =
        if (mget st.exec.mem ((rget st.exec 1).toNat + d)).toNat < (mget st.exec.mem ((rget st.exec 2).toNat + d)).toNat
        then -1 else 1) ∧
      rget x 1 = rget st.exec 1 + BitVec.ofNat 64 d ∧ rget x 2 = rget st.exec 2 + BitVec.ofNat 64 d ∧
      rget x 3 = rget st.exec 3 - BitVec.ofNat 64 d ∧ ∀ r : Reg, 4 ≤ r.val → r ≠ rd → rget x r = rget st.exec r := by
  obtain ⟨z, done, hloop, hf, hframe, y, hprog, ⟨hmem, hg2⟩, hz⟩ :=
    blockLoop_cmpStep_difference (rd := rd) hn hd hr.2.2 hok h1n h2n heq hne
  rw [← orderWord_eq]
  generalize orderWord _ _ = v at hz ⊢
  obtain ⟨k1, k2, k3, kother⟩ := rget_rset_rd (y := y) hrd v
  have h3 : rget z 3 = rget st.exec 3 - BitVec.ofNat 64 d := (hz 3).trans (k3.trans hprog.g3)
  refine ⟨_, _, rfl, blockDone_of_retire hr ?_ hframe hf, hmem, fun hrd0 => (hz rd).trans ?_, (hz 1).trans (k1.trans hprog.g1),
    (hz 2).trans (k2.trans hg2), h3, fun r hr hne => (hz r).trans ((kother r hne).trans (hprog.high r hr))⟩
  · have hill : ¬ (decide (1 ≤ rd.val) && decide (rd.val ≤ 3)) = true := by simp; omega
    have hleft : ¬ rget z 3 = 0 := by
      intro h
      have h0 : (rget y 3).toNat = 0 := by rw [← k3, ← hz, h]; rfl
      rw [progress_g3_toNat hprog (by omega)] at h0
      omega
    dsimp only
    rw [if_neg hill, hloop]
    dsimp only
    rw [if_neg hleft]
    exact ⟨_, _, _, rfl⟩
  · rw [rget_rset, if_pos ⟨rfl, hrd0⟩]

theorem bcmpRule_holds : bcmpRule := by
  intro s core rd i st n hn
  refine ⟨fun h1 h3 hr hc => ⟨_, rfl, ?_⟩, fun hrd hr hok h1n h2n => ⟨fun heq => ?_, fun d hd heq hne => ?_⟩⟩
  · refine entered_of_trap (x0 := st.exec) (evs := []) hr ?_ hc
    have hill : (decide (1 ≤ rd.val) && decide (rd.val ≤ 3)) = true := by simp [h1, h3]
    dsimp only
    rw [if_pos hill, trapAt]
  · exact bcmp_equal hn hrd hr hok h1n h2n heq
  · obtain ⟨hrun, hfetch, hfuel⟩ := hr
    have hle : granules (d + 1) ≤ granules n := Nat.div_le_div_right (by omega)
    exact bcmp_difference hn hrd ⟨hrun, hfetch, by omega⟩ hd hok h1n h2n heq hne

/-! ## A granule that fails (R77) -/

theorem firstBad_eq_some {ok : Nat → Bool} {a d n : Nat} (hd : d < n) (h : a + d < 2 ^ 64) (hok : ∀ j, j < d → ok (a + j) = true)
    (hbad : ok (a + d) = false) : firstBad ok a n = some (a + d) := by
  induction d generalizing a n with
  | zero =>
    obtain ⟨n, rfl⟩ := Nat.exists_eq_succ_of_ne_zero (Nat.ne_of_gt hd)
    rw [Nat.add_zero] at h hbad ⊢
    rw [firstBad, Nat.mod_eq_of_lt h, if_neg (by rw [hbad]; decide)]
  | succ d ih =>
    obtain ⟨n, rfl⟩ := Nat.exists_eq_succ_of_ne_zero (Nat.ne_of_gt (Nat.lt_of_le_of_lt (Nat.zero_le _) hd))
    have hstep : ∀ j, a + 1 + j = a + (j + 1) := fun j => by omega
    have hhead : ok (a % 2 ^ 64) = true := by rw [Nat.mod_eq_of_lt (by omega)]; exact hok 0 (Nat.succ_pos d)
    rw [firstBad, if_pos hhead, ih (by omega) (by omega) (fun j hj => hstep j ▸ hok (j + 1) (by omega)) (hstep d ▸ hbad), hstep]

/-- A granule's failure is an exception at the instruction's own address, in the state of the granules before it (R77). -/
theorem entered_blockOp {s : State} {core : CoreIx} {i n fa : Nat} {st : Stall} {lvl : Stall → Exec → Nat} {crc : Bool}
    {step : Stall → Exec → Nat → Gran} {y : Exec} (hr : ready s core i st 0)
    (hloop : blockLoop (step st) (st.exec.fuel + 1) st.exec 0 = (y, n, some (some fa))) (hc : canEnter st y) :
    entered s (blockOp core lvl crc step s) i st y st.exec.pc (BitVec.ofNat 64 fa) 3 6 := by
  refine entered_of_trap (x0 := y) (evs := [(3, n), (0x18, 1), (0x19, n), (0x1A, if lvl st st.exec = 2 then n else 0)]) hr ?_ hc
  dsimp only
  rw [hloop]

theorem bfillFaultRule_holds : bfillFaultRule := by
  intro s core i st d hr hc hd hlt hok hbad
  obtain ⟨hrun, hfetch, hfuel⟩ := hr
  have hgran : fillStep st st.exec (min 64 (rget st.exec 3).toNat) = .bad ((rget st.exec 1).toNat + d) := by
    rw [fillStep, firstBad_eq_some (ok := blockWrite st.desc) hd hlt hok hbad]
  have hfa : BitVec.ofNat 64 ((rget st.exec 1).toNat + d) = rget st.exec 1 + BitVec.ofNat 64 d := by
    rw [BitVec.ofNat_add, BitVec.ofNat_toNat, BitVec.setWidth_eq]
  exact ⟨_, rfl, hfa ▸ entered_blockOp ⟨hrun, hfetch, Nat.zero_le _⟩ (blockLoop_bad (by omega) hfuel hgran) hc⟩

/-! ## The fuel stop (R63, R64) -/

/-- An instruction whose charge exceeds the fuel is not run. -/
theorem runInsn_fuelStop {s : State} {core : CoreIx} {i charge : Nat} {st : Stall} (body : State → Stall → Exec → IRes)
    (hrun : running? s core = some (i, st)) (hfetch : canFetch st.desc st.exec.pc = true) (hfuel : st.exec.fuel < charge) :
    runInsn core charge body s = fuelStop s core i st.exec := by
  rw [runInsn, hrun]
  dsimp only
  rw [hfetch, if_neg (by decide), if_pos hfuel]

theorem fuelStopRule_holds : fuelStopRule := by
  intro s core rd ra rb i st hrun hfetch hfuel hp
  have hstop : exec (.add core rd ra rb) s = .next (fuelStop s core i st.exec) :=
    congrArg Host.Outcome.next (runInsn_fuelStop _ hrun hfetch (by omega))
  obtain ⟨⟨k, hget, -, -⟩, hnone⟩ := stallIs_fuelStop (stallIs_refl (getStall?_of_running hrun)) hp core st.exec
  exact ⟨_, _, hstop, hget, rfl, rfl, rfl, hnone⟩

end Sys2Proof.Machine

open Sys2Proof.Machine in
/-- Settles O11. -/
theorem blockInstructions : Obligations.BlockInstructions :=
  ⟨bcopyRule_holds, bfillRule_holds, bcrcRule_holds, bcmpRule_holds, bfillFaultRule_holds, fuelStopRule_holds⟩

/-!
PROOFS. O49: a supervisor pause is not seen (03 R65). Every part of an instruction runs alike whatever the performance counters hold.
-/

namespace Sys2Proof.Machine
open Sys2Proof.Claims

/-- The state with other performance counters. -/
def otherPerf (s : State) (p : Perf) : State := { s with perf := p }

section
variable (s : State) (p : Perf)

/-! ## What reads and writes no performance counter -/

theorem ite_otherPerf (c : Prop) [Decidable c] (t : State) :
    (if c then otherPerf s p else otherPerf t p) = otherPerf (if c then s else t) p := by
  split <;> rfl

theorem getStall?_otherPerf (i : Nat) : getStall? (otherPerf s p) i = getStall? s i := rfl

theorem getRun_otherPerf (c : Nat) : getRun (otherPerf s p) c = getRun s c := rfl

theorem updRun_otherPerf (c : Nat) (f : CoreRun → CoreRun) : updRun (otherPerf s p) c f = otherPerf (updRun s c f) p := rfl

theorem updStall_otherPerf (i : Nat) (f : Stall → Stall) : updStall (otherPerf s p) i f = otherPerf (updStall s i f) p := rfl

theorem setStall_otherPerf (i : Nat) (st : Stall) : setStall (otherPerf s p) i st = otherPerf (setStall s i st) p := rfl

theorem svx_otherPerf (e : Entry) (idx sub inst v : Nat) :
    svx (otherPerf s p) e idx sub inst v = otherPerf (svx s e idx sub inst v) p := by
  unfold svx
  split <;> rfl

theorem bumpx_otherPerf (e : Entry) (idx sub inst n : Nat) :
    bumpx (otherPerf s p) e idx sub inst n = otherPerf (bumpx s e idx sub inst n) p :=
  svx_otherPerf ..

theorem svi_otherPerf (e : Entry) (inst v : Nat) : svi (otherPerf s p) e inst v = otherPerf (svi s e inst v) p :=
  svx_otherPerf ..

theorem bumpi_otherPerf (e : Entry) (inst : Nat) : bumpi (otherPerf s p) e inst = otherPerf (bumpi s e inst) p :=
  bumpx_otherPerf ..

theorem bump_otherPerf (e : Entry) : bump (otherPerf s p) e = otherPerf (bump s e) p := bumpx_otherPerf ..

/-- The state with a rate limit's bucket replaced. -/
def putBucket (s : State) (k : Nat) (b : Bucket) : State := { s with sup.buckets := nset s.sup.buckets k b }

/-- A record of the lane supervisors: unlimited, passed by its bucket, or suppressed (R420, R422). -/
theorem emitJ_atLanes (s : State) (t src code sev : Nat) (data : List Byte) (stall : Nat) :
    emitJ s 0 t src code sev data stall =
      let r : Record := { stamp := t, source := src, code := code, sev := sev, stall := stall, data := recData data }
      let k := pairKey 0 src code
      let judged := (nget s.sup.buckets k {}).judge t sev
      if unlimited code sev then (true, deliver s 0 r)
      else if judged.1 then (true, deliver (putBucket s k judged.2) 0 r)
      else (false, bump (putBucket s k judged.2) E.recSuppressed) := rfl

theorem emitJ_otherPerf (t src code sev : Nat) (data : List Byte) (stall : Nat) :
    emitJ (otherPerf s p) 0 t src code sev data stall =
      ((emitJ s 0 t src code sev data stall).1, otherPerf (emitJ s 0 t src code sev data stall).2 p) := by
  rw [emitJ_atLanes, emitJ_atLanes]
  dsimp only
  split
  · rfl
  · rw [show (otherPerf s p).sup.buckets = s.sup.buckets from rfl]
    split
    · rfl
    · exact congrArg (Prod.mk false) (bump_otherPerf (putBucket s _ _) p _)

theorem emitL_otherPerf (src code sev : Nat) (data : List Byte) (stall : Nat) :
    emitL (otherPerf s p) src code sev data stall = otherPerf (emitL s src code sev data stall) p :=
  congrArg Prod.snd (emitJ_otherPerf ..)

theorem telegramSeq_otherPerf (ident k : Nat) :
    telegramSeq (otherPerf s p) ident k = ((telegramSeq s ident k).1, otherPerf (telegramSeq s ident k).2 p) := by
  unfold telegramSeq
  rw [show (otherPerf s p).agree.seqK = s.agree.seqK from rfl, show (otherPerf s p).sup.seqs = s.sup.seqs from rfl]
  split
  · split <;> rfl
  · rfl
  · rfl

theorem pushOutOf_otherPerf (k : Nat) (o : OutItem) : pushOutOf (otherPerf s p) k o = otherPerf (pushOutOf s k o) p := by
  unfold pushOutOf
  rw [show (otherPerf s p).cyc.k = s.cyc.k from rfl]
  split <;> rfl

/-- The output stream of crossing `k` replaced. -/
def putStream (s : State) (k : Nat) (outs : List OutItem) : State :=
  if k = s.cyc.k then { s with sup.outs := outs } else { s with sup.outsPrev := outs }

theorem putStream_otherPerf (k : Nat) (outs : List OutItem) :
    putStream (otherPerf s p) k outs = otherPerf (putStream s k outs) p := by
  unfold putStream
  rw [show (otherPerf s p).cyc.k = s.cyc.k from rfl]
  split <;> rfl

/-- A telegram takes the place of the earlier ones that it supersedes (09 R247). -/
theorem pushTelegram_eq (s : State) (k : Nat) (o : OutItem) (slot : Nat) :
    pushTelegram s k o slot =
      let earlier := fun (x : OutItem) => x.kind = 1 && x.ident = o.ident && x.seq = o.seq && x.stall = o.stall
      let stream := if k = s.cyc.k then s.sup.outs else s.sup.outsPrev
      pushOutOf (putStream (if stream.any earlier then bumpi s E.slotSuperseded slot else s) k
        (stream.filter fun x => !(earlier x))) k o := rfl

theorem pushTelegram_otherPerf (k : Nat) (o : OutItem) (slot : Nat) :
    pushTelegram (otherPerf s p) k o slot = otherPerf (pushTelegram s k o slot) p := by
  rw [pushTelegram_eq, pushTelegram_eq, show (otherPerf s p).cyc.k = s.cyc.k from rfl,
    show (otherPerf s p).sup.outs = s.sup.outs from rfl, show (otherPerf s p).sup.outsPrev = s.sup.outsPrev from rfl]
  dsimp only
  rw [bumpi_otherPerf, ite_otherPerf, putStream_otherPerf, pushOutOf_otherPerf]

theorem laneTx_otherPerf (n : Nat) : laneTx (otherPerf s p) n = otherPerf (laneTx s n) p := rfl

theorem acceptDo_otherPerf (ch i k : Nat) (on : Bool) : acceptDo (otherPerf s p) ch i k on = otherPerf (acceptDo s ch i k on) p := by
  unfold acceptDo
  rw [show (otherPerf s p).sup.doLast = s.sup.doLast from rfl]
  split
  · split <;> rfl
  · rfl

theorem judgeSend_otherPerf (i kind flags dest : Nat) (data : List Byte) (shut : Bool) :
    judgeSend (otherPerf s p) i kind flags dest data shut = judgeSend s i kind flags dest data shut := rfl

theorem decidePosted_otherPerf (i k tk : Nat) (q : Posted) :
    decidePosted (otherPerf s p) i k tk q = ((decidePosted s i k tk q).1, otherPerf (decidePosted s i k tk q).2 p) := by
  unfold decidePosted
  split
  · next kind flags dest data =>
    rw [judgeSend_otherPerf]
    split
    · rfl
    · dsimp only
      split
      · rfl
      · split
        · rw [telegramSeq_otherPerf]
          dsimp only
          rw [pushTelegram_otherPerf]
          rfl
        · rw [laneTx_otherPerf, pushOutOf_otherPerf]
          rfl
        · rw [acceptDo_otherPerf]
  · rw [emitJ_otherPerf]
  · rfl

/-- One request of an activation that ends, and the requests decided before it. -/
def decideStep (i k tk : Nat) (acc : List Posted × State) (q : Posted) : List Posted × State :=
  if q.stall = i && !q.decided then
    (acc.1 ++ [(decidePosted acc.2 i k tk q).1], (decidePosted acc.2 i k tk q).2)
  else (acc.1 ++ [q], acc.2)

theorem decideActivation_eq (s : State) (i k tk : Nat) :
    decideActivation s i k tk =
      { (s.sup.posted.foldl (decideStep i k tk) ([], s)).2 with
        sup.posted := (s.sup.posted.foldl (decideStep i k tk) ([], s)).1 } := rfl

theorem foldl_decideStep_otherPerf (i k tk : Nat) (qs ps : List Posted) :
    qs.foldl (decideStep i k tk) (ps, otherPerf s p) =
      ((qs.foldl (decideStep i k tk) (ps, s)).1, otherPerf (qs.foldl (decideStep i k tk) (ps, s)).2 p) := by
  induction qs generalizing ps s with
  | nil => rfl
  | cons q qs ih =>
    rw [List.foldl_cons, List.foldl_cons]
    unfold decideStep
    split
    · rw [decidePosted_otherPerf]
      exact ih ..
    · exact ih ..

theorem decideActivation_otherPerf (i k tk : Nat) :
    decideActivation (otherPerf s p) i k tk = otherPerf (decideActivation s i k tk) p := by
  rw [decideActivation_eq, decideActivation_eq, show (otherPerf s p).sup.posted = s.sup.posted from rfl,
    foldl_decideStep_otherPerf]
  rfl

theorem dwRequests_otherPerf (i : Nat) (st : Stall) : dwRequests (otherPerf s p) i st = dwRequests s i st := rfl

/-- The DICTWIN writes of an activation become requests (02 R49). -/
def addRequests (s : State) (reqs : List Request) : State := { s with sup.reqs := s.sup.reqs ++ reqs }

/-- The state in which the requests of an activation that ends are decided. -/
def endingState (s : State) (core i reason : Nat) (st : Stall) : State :=
  let t := svi s E.stallLastFuel i ((getRun s core).start - st.exec.fuel)
  addRequests (updStall t i fun st => endedStall st reason t.cyc.k) (dwRequests s i st)

theorem endingState_otherPerf (core i reason : Nat) (st : Stall) :
    endingState (otherPerf s p) core i reason st = otherPerf (endingState s core i reason st) p := by
  unfold endingState
  rw [dwRequests_otherPerf, getRun_otherPerf, svi_otherPerf]
  rfl

theorem endActivation_eq {i : Nat} {st : Stall} (hst : getStall? s i = some st) (core reason : Nat) :
    endActivation s core i reason =
      updRun (decideActivation (endingState s core i reason st) i (getRun (endingState s core i reason st) core).kRun
        (getRun (endingState s core i reason st) core).tk) core fun r => { r with run := none } := by
  rw [endActivation, hst]
  rfl

theorem endActivation_otherPerf (core i reason : Nat) :
    endActivation (otherPerf s p) core i reason = otherPerf (endActivation s core i reason) p := by
  cases hst : getStall? s i with
  | none =>
    unfold endActivation
    rw [getStall?_otherPerf, hst]
  | some st =>
    rw [endActivation_eq (otherPerf s p) hst, endActivation_eq s hst, endingState_otherPerf, getRun_otherPerf,
      decideActivation_otherPerf, updRun_otherPerf]

end

/-! ## What adds to the performance counters -/

section
variable (s : State) (p : Perf)

theorem perfCount_otherPerf (core : Nat) (ctx : Option Nat) (evs : List (Nat × Nat)) :
    ∃ q, perfCount (otherPerf s p) core ctx evs = otherPerf (perfCount s core ctx evs) q := by
  obtain ⟨a, ha⟩ := perfCount_only s core ctx evs
  obtain ⟨b, hb⟩ := perfCount_only (otherPerf s p) core ctx evs
  exact ⟨b, by rw [ha, hb]; rfl⟩

/-- A tag takes two free values and leaves the counters. -/
theorem perfTag_eq (l core i off : Nat) (lat : Nat × Nat) (ev : Nat) :
    ∃ q, perfTag s l core i off lat ev = otherPerf (if laneRuns s l then freeNext (freeNext s) else s) q := by
  unfold perfTag
  cases laneRuns s l with
  | false => exact ⟨s.perf, rfl⟩
  | true =>
    dsimp only
    rw [if_neg (by decide), if_pos rfl]
    split <;> exact ⟨_, rfl⟩

theorem perfTag_otherPerf (l core i off : Nat) (lat : Nat × Nat) (ev : Nat) :
    ∃ q, perfTag (otherPerf s p) l core i off lat ev = otherPerf (perfTag s l core i off lat ev) q := by
  obtain ⟨a, ha⟩ := perfTag_eq s l core i off lat ev
  obtain ⟨b, hb⟩ := perfTag_eq (otherPerf s p) l core i off lat ev
  refine ⟨b, ?_⟩
  rw [ha, hb, show laneRuns (otherPerf s p) l = laneRuns s l from rfl]
  split <;> rfl

theorem perfInsn_otherPerf (core i : Nat) (evs : List (Nat × Nat)) (pc : Word) (lat : Nat × Nat) (ev : Nat) :
    ∃ q, perfInsn (otherPerf s p) core i evs pc lat ev = otherPerf (perfInsn s core i evs pc lat ev) q := by
  unfold perfInsn
  dsimp only
  obtain ⟨q, hq⟩ := perfCount_otherPerf s p core (some i) evs
  obtain ⟨q0, h0⟩ := perfTag_otherPerf (perfCount s core (some i) evs) q 0 core i ((pc.toNat + 2 ^ 64 - baseCode) % 2 ^ 32) lat ev
  obtain ⟨q1, h1⟩ := perfTag_otherPerf (perfTag (perfCount s core (some i) evs) 0 core i _ lat ev) q0 1 core i
    ((pc.toNat + 2 ^ 64 - baseCode) % 2 ^ 32) lat ev
  rw [hq, h0, h1]
  exact perfTag_otherPerf ..

theorem fuelStop_otherPerf (core i : Nat) (x : Exec) :
    ∃ q, fuelStop (otherPerf s p) core i x = otherPerf (fuelStop s core i x) q := by
  unfold fuelStop
  dsimp only
  obtain ⟨q, hq⟩ := perfCount_otherPerf (bumpi (updStall s i fun st => { st with exec := x }) E.stallOverruns i) p core (some i)
    [(0x21, 1)]
  refine ⟨q, ?_⟩
  rw [updStall_otherPerf, bumpi_otherPerf, hq, getStall?_otherPerf]
  split
  · rw [updStall_otherPerf, endActivation_otherPerf]
  · split
    · rw [updStall_otherPerf, endActivation_otherPerf]
    · rw [getRun_otherPerf, emitL_otherPerf, updStall_otherPerf, endActivation_otherPerf]

theorem stallFault_otherPerf (core i : Nat) (x : Exec) (f : Frame) :
    ∃ q, stallFault (otherPerf s p) core i x f = otherPerf (stallFault s core i x f) q := by
  unfold stallFault
  dsimp only
  rw [updStall_otherPerf, emitL_otherPerf]
  obtain ⟨q, hq⟩ := perfCount_otherPerf _ p core (some i) [(0x1F, 1)]
  rw [hq]
  exact ⟨q, endActivation_otherPerf ..⟩

theorem postRequest_otherPerf (i tag : Nat) (q : PostedReq) :
    postRequest (otherPerf s p) i tag q = otherPerf (postRequest s i tag q) p := rfl

theorem applyIRes_yield_eq (core i : Nat) (st : Stall) (charge : Nat) (x : Exec) :
    applyIRes s core i st charge (.yield x) =
      endActivation (perfInsn (updStall s i fun st => yieldedStall st x charge) core i
        [(2, 1), (3, charge), (0x1C, 1), (0x22, 1)] st.exec.pc (1, 0xFFFF) 4) core i 1 := rfl

theorem applyIRes_otherPerf (core i : Nat) (st : Stall) (charge : Nat) (r : IRes) :
    ∃ q, applyIRes (otherPerf s p) core i st charge r = otherPerf (applyIRes s core i st charge r) q := by
  cases r with
  | retire st' evs lat ev post =>
    cases post with
    | none =>
      unfold applyIRes
      dsimp only
      rw [setStall_otherPerf]
      exact perfInsn_otherPerf ..
    | some q =>
      unfold applyIRes
      dsimp only
      rw [setStall_otherPerf, postRequest_otherPerf]
      exact perfInsn_otherPerf ..
  | trap x x0 pc cause detail fa evs =>
    unfold applyIRes
    dsimp only
    split
    · obtain ⟨q, hq⟩ := perfInsn_otherPerf s p core i evs st.exec.pc (1, 0) 32
      rw [hq]
      exact fuelStop_otherPerf ..
    · obtain ⟨q, hq⟩ := perfInsn_otherPerf s p core i evs st.exec.pc (1, 0) 0
      rw [hq]
      exact stallFault_otherPerf ..
    · rw [updStall_otherPerf]
      exact perfInsn_otherPerf ..
  | fault x cause fa code =>
    obtain ⟨q, hq⟩ := perfInsn_otherPerf s p core i [] st.exec.pc (1, 0) 0
    unfold applyIRes
    dsimp only
    rw [hq]
    exact stallFault_otherPerf ..
  | stop x evs =>
    obtain ⟨q, hq⟩ := perfInsn_otherPerf s p core i ([(3, st.exec.fuel - x.fuel)] ++ evs) st.exec.pc (1, 0) 32
    unfold applyIRes
    dsimp only
    rw [hq]
    exact fuelStop_otherPerf ..
  | yield x =>
    obtain ⟨q, hq⟩ := perfInsn_otherPerf (updStall s i fun st => yieldedStall st x charge) p core i
      [(2, 1), (3, charge), (0x1C, 1), (0x22, 1)] st.exec.pc (1, 0xFFFF) 4
    rw [applyIRes_yield_eq, applyIRes_yield_eq, updStall_otherPerf, hq, endActivation_otherPerf]
    exact ⟨q, rfl⟩
  | returned x =>
    unfold applyIRes
    dsimp only
    rw [setStall_otherPerf]
    exact perfInsn_otherPerf ..

/-- An instruction whose body reads no performance counter runs alike whatever they hold. -/
theorem runInsn_otherPerf {body : State → Stall → Exec → IRes} (hb : ∀ st x, body (otherPerf s p) st x = body s st x)
    (core : CoreIx) (charge : Nat) :
    ∃ q, runInsn core charge body (otherPerf s p) = otherPerf (runInsn core charge body s) q := by
  unfold runInsn
  rw [show running? (otherPerf s p) core = running? s core from rfl]
  cases running? s core with
  | none => exact ⟨p, rfl⟩
  | some r =>
    dsimp only
    split
    · exact applyIRes_otherPerf ..
    · split
      · exact fuelStop_otherPerf ..
      · rw [hb]
        exact applyIRes_otherPerf ..

end

/-! ## Every instruction -/

/-- The command runs one instruction whose body reads no performance counter. -/
def RunsUnseen (c : Instr) : Prop :=
  ∃ core charge body, (∀ s, exec c s = .next (runInsn core charge body s)) ∧
    ∀ s p st x, body (otherPerf s p) st x = body s st x

theorem runsUnseen_of_stallInsn {c : Instr} (h : stallInsn c = true) :
    RunsUnseen c ∨ (∀ s, exec c s = .next s) := by
  cases c <;> simp only [stallInsn, Bool.false_eq_true] at h
  case illegalInstruction core word =>
    cases hw : legalWord word with
    | true => exact .inr fun s => congrArg Host.Outcome.next (if_pos hw)
    | false => exact .inl ⟨core, 1, _, fun s => congrArg Host.Outcome.next (if_neg (by rw [hw]; decide)), fun _ _ _ _ => rfl⟩
  case svcUnassigned core n =>
    cases hn : svcAssigned n.toNat with
    | true => exact .inr fun s => congrArg Host.Outcome.next (if_pos hn)
    | false => exact .inl ⟨core, 1, _, fun s => congrArg Host.Outcome.next (if_neg (by rw [hn]; decide)), fun _ _ _ _ => rfl⟩
  all_goals exact .inl ⟨_, _, _, fun _ => rfl, fun _ _ _ _ => rfl⟩

theorem pauseUnseen_holds : pauseUnseen := by
  refine ⟨fun s lane core n => ?_, fun c s p hc => ?_⟩
  · obtain ⟨p, hp⟩ := exec_supervisorPause s lane core n
    exact ⟨_, hp, rfl, rfl, rfl⟩
  · obtain ⟨core, charge, body, hx, hb⟩ | hx := runsUnseen_of_stallInsn hc
    · obtain ⟨q, hq⟩ := runInsn_otherPerf s p (hb s p) core charge
      exact ⟨_, q, hx s, (hx _).trans (congrArg Host.Outcome.next hq)⟩
    · exact ⟨s, p, hx s, hx _⟩

end Sys2Proof.Machine

open Sys2Proof.Machine in
/-- Settles O49. -/
theorem pauseUnseen : Obligations.PauseUnseen := pauseUnseen_holds

/-!
PROOFS. O60, first part: the block instructions complete (03 R75, R77, R78).
-/

namespace Sys2Proof.Machine
open Sys2Proof.Claims

/-- The instruction answers a state in which its stall stands at pc + 4, and of the block nothing but that stall has changed. -/
def RetiresNext (c : Instr) (s : State) (i : Nat) (st : Stall) : Prop :=
  ∃ t st', exec c s = .next t ∧ getStall? t i = some st' ∧ st'.exec.pc = st.exec.pc + 4 ∧ stallOnly s t i

theorem retiresNext_of_blockDone {s t : State} {i n : Nat} {st : Stall} {c : Instr} {x : Exec} (hx : exec c s = .next t)
    (hdone : Claims.blockDone s t i st x n) : RetiresNext c s i st := by
  obtain ⟨hst, -, honly⟩ := hdone
  exact ⟨t, _, hx, hst, rfl, honly⟩

/-- BCMP ends at the first difference, or at the end of the range. -/
theorem bcmp_retiresNext {s : State} {core : CoreIx} {rd : Reg} {i n : Nat} {st : Stall} (hn : n = (rget st.exec 3).toNat)
    (hrd : rd.val = 0 ∨ 4 ≤ rd.val) (hr : ready s core i st (granules n + 1))
    (hok : ∀ j, j < n → canRead st.desc ((rget st.exec 1).toNat + j) = true ∧ canRead st.desc ((rget st.exec 2).toNat + j) = true)
    (h1n : (rget st.exec 1).toNat + n < 2 ^ 64) (h2n : (rget st.exec 2).toNat + n < 2 ^ 64) :
    RetiresNext (.bcmp core rd) s i st := by
  obtain ⟨hequal, hdiffer⟩ := (bcmpRule_holds s core rd i st n hn).2 hrd hr hok h1n h2n
  by_cases heq : ∀ j, j < n → mget st.exec.mem ((rget st.exec 1).toNat + j) = mget st.exec.mem ((rget st.exec 2).toNat + j)
  · obtain ⟨t, x, hx, hdone, -⟩ := hequal heq
    exact retiresNext_of_blockDone hx hdone
  · have hex : ∃ d, d < n ∧ mget st.exec.mem ((rget st.exec 1).toNat + d) ≠ mget st.exec.mem ((rget st.exec 2).toNat + d) := by
      simpa using heq
    obtain ⟨hd, hne⟩ := Nat.find_spec hex
    obtain ⟨t, x, hx, hdone, -⟩ := hdiffer (Nat.find hex) hd
      (fun j hj => by by_contra hj'; exact Nat.find_min hex hj ⟨by omega, hj'⟩) hne
    exact retiresNext_of_blockDone hx hdone

theorem blockCompletes_holds : blockCompletes := by
  intro s core i st n hn hr h1n
  refine ⟨fun hread hwrite h2n => ?_, fun hwrite => ?_, fun hread => ?_, fun rd hrd hread1 hread2 h2n => ?_⟩
  · obtain ⟨t, x, hx, hdone, -⟩ := bcopyRule_holds s core i st n hn hr (fun j hj => ⟨hread j hj, hwrite j hj⟩) h2n h1n
    exact retiresNext_of_blockDone hx hdone
  · obtain ⟨t, y, hx, hdone, -⟩ := bfill_done hn hr hwrite h1n
    exact retiresNext_of_blockDone hx hdone
  · obtain ⟨t, x, hx, hdone, -⟩ := bcrcRule_holds s core i st n hn hr hread h1n
    exact retiresNext_of_blockDone hx hdone
  · exact bcmp_retiresNext hn hrd hr (fun j hj => ⟨hread1 j hj, hread2 j hj⟩) h1n h2n

end Sys2Proof.Machine

/-!
PROOFS. O60, second part: what the crossing's number, agreement and end, and a restart that is due, owe to the commands of a crossing.
-/

namespace Sys2Proof.Machine
open Sys2Proof.Claims

/-! ## The crossing and the restart that is due -/

/-- The crossing's number, its agreement and its end. -/
def cycleView (s : State) : Nat × Option Nat × Option Nat := (s.cyc.k, s.cyc.agreedK, s.cyc.endDone)

/-- The crossing, and the restart that falls due at its end. -/
def crossView (s : State) : (Nat × Option Nat × Option Nat) × Bool × Option Nat := (cycleView s, s.st.recoverDue, s.st.resetDue)

section
variable {s t : State}

theorem cycleView_of_key (h : Safe.keyView t = Safe.keyView s) : cycleView t = cycleView s := congrArg (·.2.2.2) h

theorem cycleView_of_cross (h : crossView t = crossView s) : cycleView t = cycleView s := congrArg Prod.fst h

theorem crossView_of_eq (hc : t.cyc = s.cyc) (hs : t.st = s.st) : crossView t = crossView s := by
  rw [crossView, crossView, cycleView, cycleView, hc, hs]

end

section
variable {β : Type} (v : State → β)

theorem view_ite {c : Prop} {_ : Decidable c} {s t u : State} (hs : v s = v u) (ht : v t = v u) : v (if c then s else t) = v u := by
  split
  · exact hs
  · exact ht

end

/-! ## A fault of a lane (06 R175 to R181) -/

section
variable (s : State)

@[simp] theorem emitL_cross (src code sev : Nat) (data : List Byte) (stall : Nat) :
    crossView (emitL s src code sev data stall) = crossView s :=
  crossView_of_eq (emitL_cyc ..) (emitL_st ..)

@[simp] theorem svi_cross (e : Entry) (inst v : Nat) : crossView (svi s e inst v) = crossView s := crossView_of_eq (svi_cyc ..) (svi_st ..)

@[simp] theorem bump_cross (e : Entry) : crossView (bump s e) = crossView s := crossView_of_eq (bump_cyc ..) (bump_st ..)

@[simp] theorem bumpi_cross (e : Entry) (inst : Nat) : crossView (bumpi s e inst) = crossView s :=
  crossView_of_eq (bumpi_cyc ..) (bumpi_st ..)

@[simp] theorem freeNext_cross : crossView (freeNext s) = crossView s := rfl

@[simp] theorem updLane_cross (l : Nat) (f : Lane → Lane) : crossView (updLane s l f) = crossView s := rfl

@[simp] theorem twinSend_cross (l t : Nat) (kind : EgKind) (b c : Nat) (data : List Byte) :
    crossView (twinSend s l t kind b c data) = crossView s :=
  view_ite crossView rfl rfl

theorem setLease_cross (new t : Nat) : crossView (setLease s new t) = crossView s := by
  refine view_ite crossView rfl ?_
  rw [emitL_cross]
  exact view_ite crossView (bump_cross ..) rfl

theorem refreshLease_cross : crossView (refreshLease s) = crossView s := view_ite crossView rfl (emitL_cross ..)

theorem ceaseLease_cross (t : Nat) : crossView (ceaseLease s t) = crossView s := view_ite crossView (setLease_cross ..) rfl

theorem releaseLease_cross (t : Nat) : crossView (releaseLease s t) = crossView s := by
  unfold releaseLease
  dsimp only
  rw [refreshLease_cross, ceaseLease_cross,
    foldl_keeps crossView _ fun s l => foldl_keeps crossView _ (fun s d => twinSend_cross s ..) [0, 1000, 2000] s]
  rfl

theorem moduleLost_cross (cause : Nat) : crossView (moduleLost s cause) = crossView s := by
  refine view_ite crossView rfl ?_
  show crossView (releaseLease (emitL s ..) _) = _
  rw [releaseLease_cross, emitL_cross]

theorem abandon_cross (l cause : Nat) : crossView (abandon s l cause) = crossView s := by
  unfold abandon
  split
  · rfl
  · dsimp only
    rw [updLane_cross, bumpi_cross, emitL_cross]

theorem undoBack_cross : crossView (undoBack s) = crossView s := by
  unfold undoBack
  split <;> rfl

theorem rollback_cross : crossView (rollback s) = crossView s := undoBack_cross s

theorem diverge_cross (i : Nat) : crossView (diverge s i) = crossView s := by
  unfold diverge
  split
  · rfl
  · dsimp only
    rw [emitL_cross]
    rfl

/-- A mismatch restart leaves the crossing's number and agreement (06 R179). -/
theorem restart_cross (executed : Bool) (div : Option Nat) : crossView (mismatch.restart s executed div) = crossView s := by
  have back : crossView (rollback (abandonAll s 0xFF)) = crossView s := by
    rw [rollback_cross, abandonAll, abandon_cross, abandon_cross, abandon_cross]
  cases div with
  | none => exact back
  | some i => exact (diverge_cross (rollback (abandonAll s 0xFF)) i).trans back

/-- The one stall that a mismatch names, 0xFFFF for none or several (R181). -/
def mismatchStall (named : List Nat) : Nat := match named.dedup with | [i] => if i = 0xFFFF then 0xFFFF else i | _ => 0xFFFF

/-- The stall of a mismatch within the last 10 s (R181). -/
def recentMismatch (s : State) : Option Nat :=
  match s.agree.lastMismatch with
  | none => none
  | some (t, n) => if s.cyc.tk - t ≤ 10000000000 then some n else none

/-- A mismatch counted and recorded, before it is answered. -/
def mismatchNoted (s : State) (cause : Nat) (named : List Nat) : State :=
  let s := bump s E.mismatchRestarts
  emitL s (srcHub 0) 0x2064 2 (u8 cause ++ u16 (mismatchStall named) ++ u64 s.cyc.k ++ u8 (laneMask s))

/-- The answer to a mismatch: a restart, or the loss of the module at a second one with another stall or none (R181). -/
def mismatchAnswer (s : State) (second : Option Nat) (sid : Nat) (executed : Bool) : State :=
  match second with
  | some n => if n = sid && sid ≠ 0xFFFF then mismatch.restart s executed (some sid) else moduleLost s 3
  | none => mismatch.restart s executed none

theorem mismatch_eq (cause : Nat) (named : List Nat) (executed : Bool) :
    mismatch s cause named executed =
      if s.agree.lost || s.agree.mismatch then s
      else
        let t := mismatchNoted s cause named
        mismatchAnswer { t with agree.lastMismatch := some (t.cyc.tk, mismatchStall named) } (recentMismatch t) (mismatchStall named)
          executed := rfl

theorem mismatchAnswer_cross (second : Option Nat) (sid : Nat) (executed : Bool) :
    crossView (mismatchAnswer s second sid executed) = crossView s := by
  unfold mismatchAnswer
  split
  · exact view_ite crossView (restart_cross ..) (moduleLost_cross ..)
  · exact restart_cross ..

theorem mismatch_cross (cause : Nat) (named : List Nat) (executed : Bool) :
    crossView (mismatch s cause named executed) = crossView s := by
  rw [mismatch_eq]
  refine view_ite crossView rfl ((mismatchAnswer_cross ..).trans ?_)
  show crossView (emitL (bump s E.mismatchRestarts) _ _ _ _ _) = _
  rw [emitL_cross, bump_cross]

/-- A lane fault counted and recorded, before it is answered (06 R175). -/
def faultNoted (s : State) (l cause det : Nat) : State :=
  let s := emitL s (srcLane l) 0x2060 2 (u8 cause ++ u64 s.cyc.k ++ u16 det)
  updLane (bumpi s E.laneFaults l) l fun d => { d with cause := cause }

theorem faultNoted_cross (l cause det : Nat) : crossView (faultNoted s l cause det) = crossView s := by
  unfold faultNoted
  rw [updLane_cross, bumpi_cross, emitL_cross]

theorem laneFault_eq (l cause det : Nat) (named : List Nat) (executed : Bool) :
    laneFault s l cause det named executed =
      if s.agree.lost || (getLane s l).state = .failed then s
      else if cause = 11 && decide ((laneSet s).length ≤ 2) then s
      else
        let t := faultNoted s l cause det
        if (getLane s l).state = .inSet then
          if !decide ((laneSet s).length ≤ 2) then
            updLane (svi { t with perf.setChanged := true } E.laneAbandoned l 0) l
              fun d => { d with state := .out, resetDue := true, halted := true, retryAt := none }
          else if cause ≤ 5 then mismatch t 4 named executed
          else moduleLost (updLane t l fun d => { d with state := .out, halted := true }) 4
        else abandon t l cause := rfl

theorem laneFault_cross (l cause det : Nat) (named : List Nat) (executed : Bool) :
    crossView (laneFault s l cause det named executed) = crossView s := by
  rw [laneFault_eq]
  dsimp only
  refine view_ite crossView rfl (view_ite crossView rfl ?_)
  rw [← faultNoted_cross s l cause det]
  refine view_ite crossView (view_ite crossView ?_ (view_ite crossView ?_ ?_)) ?_
  · rw [updLane_cross, svi_cross]
    rfl
  · rw [mismatch_cross]
  · rw [moduleLost_cross, updLane_cross]
  · rw [abandon_cross]

end

end Sys2Proof.Machine

/-!
PROOFS. O60, third part: the crossing's number and a due restart up to the point of the boundary where a restart is taken (06 R180, 21 R511).
-/

namespace Sys2Proof.Machine
open Sys2Proof.Claims

section
variable (s : State)

theorem judgeLag_cross : crossView (judgeLag s) = crossView s := by
  unfold judgeLag
  split
  · rfl
  · exact laneFault_cross ..
  · dsimp only
    refine view_ite crossView (emitL_cross ..) ?_
    rw [freeNext_cross]
    exact emitL_cross { s with cyc.lagLanes := [] } ..

theorem crossingCycles_cross (l core : Nat) : crossView (crossingCycles s l core) = crossView s := by
  refine (foldl_keeps crossView _ (fun _ _ => ?_) _ _).trans rfl
  exact view_ite crossView rfl rfl

theorem perfCrossing_cross (shut : Nat → Bool) : crossView (perfCrossing s shut) = crossView s :=
  foldl_keeps crossView _ (fun _ _ => view_ite crossView rfl (crossingCycles_cross ..)) _ s

theorem closeCrossing_cross : crossView (closeCrossing s) = crossView s := by
  unfold closeCrossing
  dsimp only
  rw [perfCrossing_cross]
  exact judgeLag_cross s

theorem noteStep_cross (h old t : Nat) (step : Int) : crossView (noteStep s h old t step) = crossView s := by
  refine view_ite crossView rfl ?_
  rw [emitL_cross, bump_cross]

theorem compareHubs_cross : crossView (compareHubs s) = crossView s := by
  refine view_ite crossView rfl ?_
  have measured : crossView (if hubLinkUp s then measureHubDiff s (((getHub s 0).time : Int) - ((getHub s 1).time : Int)) else s) =
      crossView s := view_ite crossView (view_ite crossView rfl rfl) rfl
  exact view_ite crossView measured ((emitL_cross ..).trans measured)

theorem eachStall_cross (f : Nat → Stall → Stall) : crossView (eachStall s f) = crossView s := rfl

/-- The advance moves the crossing's number on by one. -/
theorem advance_cross : crossView (advance s) = (((crossView s).1.1 + 1, (crossView s).1.2), (crossView s).2) := by
  unfold advance
  refine (view_ite crossView rfl (eachStall_cross ..)).trans ?_
  rw [noteStep_cross, noteStep_cross, compareHubs_cross]
  rfl

theorem voterFailures_cross : crossView (voterFailures s) = crossView s :=
  view_ite crossView rfl (view_ite crossView rfl (moduleLost_cross ..))

theorem snapDrop_cross : crossView (snapDrop s) = crossView s := by
  unfold snapDrop
  split <;> rfl

theorem respond_cross (r : Resp) : crossView (respond s r) = crossView s := crossView_of_eq (respond_cyc ..) (respond_st ..)

/-- A request without effect is answered so (06 R180). -/
def refuseState (s : State) (r : Resp) : State :=
  respond s { r with code := abort abtState 3, data := (u32 (abort abtState 3)).reverse }

/-- The requests whose effect a restart took back are answered. -/
def refuseAffected (s : State) : State :=
  s.agree.affected.foldl (fun s r => if nhas s.sup.ctxs r.ctx then
    refuseState (updCtx s r.ctx fun c => { c with outstanding := c.outstanding + 1 }) r else s) s

/-- The requests that fell due in skipped crossings are answered. -/
def refuseOld (s : State) : State :=
  let old := fun (r : Request) => !(ctxIsStall r.ctx) && decide (r.due ≤ s.cyc.k)
  (s.sup.reqs.filter old).foldl
    (fun s r => refuseState s { ctx := r.ctx, reqId := r.reqId, op := r.op, index := r.index, sub := r.sub, elen := r.elen, via := r.via })
    { s with sup.reqs := s.sup.reqs.filter fun r => !(old r) }

/-- A stall that was due in a skipped crossing has a withheld activation. -/
def noteSkipped (s : State) (st : Stall) : Stall :=
  let from_ := s.cyc.skipFrom.getD s.cyc.k
  let ks := (List.range (s.cyc.k - from_)).map (from_ + ·)
  if st.state = .running && st.admitted && ks.any (fun k => dueIn st k) then { st with skipped := true } else st

/-- The state in which a resume boundary answers requests: output hold ended, the counters after the restart. -/
def resumeState (s : State) : State :=
  countersAfter { snapDrop s with
    agree.mismatch := false, agree.resumeDue := false, hubs := s.hubs.map fun h => { h with voter.outputHold := false } }

theorem resumeBoundary_eq :
    resumeBoundary s =
      let t := refuseOld { refuseAffected (resumeState s) with agree.affected := [] }
      eachStall t fun _ st => noteSkipped t st := by
  unfold resumeBoundary
  rfl

theorem refuseState_cross (r : Resp) : crossView (refuseState s r) = crossView s := respond_cross ..

theorem refuseAffected_cross : crossView (refuseAffected s) = crossView s := by
  refine foldl_keeps crossView _ (fun s r => ?_) _ s
  exact view_ite crossView ((refuseState_cross ..).trans rfl) rfl

theorem refuseOld_cross : crossView (refuseOld s) = crossView s := foldl_keeps crossView _ (fun _ _ => refuseState_cross ..) _ _

theorem resumeBoundary_cross : crossView (resumeBoundary s) = crossView s := by
  rw [resumeBoundary_eq]
  dsimp only
  rw [eachStall_cross, refuseOld_cross]
  exact (refuseAffected_cross _).trans (snapDrop_cross s)

end

end Sys2Proof.Machine

/-!
PROOFS. O60, fourth part: no write that takes effect at a boundary touches the crossing's number, whatever its entry (02 R43).
-/

namespace Sys2Proof.Machine
open Sys2Proof.Claims Safe

/-! ## Handlers -/

/-- A handler that leaves the crossing as it is. -/
def KeepsCycle (h : Handler) : Prop :=
  (∀ s w, cycleView (h.eff s w) = cycleView s) ∧ ∀ s w c, cycleView (h.refused s w c) = cycleView s

theorem keepsCycle_of_keeps {h : Handler} (hk : Keeps h) : KeepsCycle h :=
  ⟨fun s w => cycleView_of_key (hk.1 s w), fun s w c => cycleView_of_key (hk.2 s w c)⟩

/-- A handler that records no refusal of its own. -/
theorem keepsCycle_of_eff {h : Handler} (heff : ∀ s w, cycleView (h.eff s w) = cycleView s) (href : h.refused = fun s _ _ => s) :
    KeepsCycle h :=
  ⟨heff, fun s w c => by rw [href]⟩

section
variable (s : State)

@[simp] theorem emitL_cycle (src code sev : Nat) (data : List Byte) (stall : Nat) :
    cycleView (emitL s src code sev data stall) = cycleView s := cycleView_of_key (emitL_key ..)

theorem holdMode_cycle (ctx : Nat) : cycleView (holdMode s ctx) = cycleView s := view_ite cycleView rfl (emitL_cycle ..)

theorem holdEff_cycle (w : WReq) : cycleView (holdEff s w) = cycleView s := by
  unfold holdEff
  dsimp only
  rw [holdMode_cycle, emitL_cycle]
  rfl

theorem cmdEff_cycle (w : WReq) : cycleView (cmdEff s w) = cycleView s := by
  unfold cmdEff
  split
  · rfl
  · split
    · exact view_ite cycleView rfl rfl
    · exact view_ite cycleView (holdMode_cycle ..) rfl
    · exact cycleView_of_key (beginRestart_key ..)
    · exact view_ite cycleView rfl (cycleView_of_key (beginUnload_key ..))
    · rfl

theorem closeAnchored_cycle (slot : Nat) : cycleView (closeAnchored s slot) = cycleView s := by
  refine foldl_keeps cycleView _ (fun s p => ?_) _ s
  rfl

theorem tackEvent_cycle (kind slot check ctx : Nat) : cycleView (tackEvent s kind slot check ctx) = cycleView s :=
  cycleView_of_key (tackEvent_key ..)

theorem refreshLease_cycle : cycleView (refreshLease s) = cycleView s := cycleView_of_cross (refreshLease_cross s)

theorem setLease_cycle (new t : Nat) : cycleView (setLease s new t) = cycleView s := cycleView_of_cross (setLease_cross ..)

end

theorem hStallCmd_keepsCycle : KeepsCycle hStallCmd := keepsCycle_of_eff cmdEff_cycle rfl

theorem hStallHold_keepsCycle : KeepsCycle hStallHold := keepsCycle_of_eff holdEff_cycle rfl

theorem hCycleMode_keepsCycle : KeepsCycle hCycleMode := keepsCycle_of_eff (fun _ _ => view_ite cycleView rfl rfl) rfl

theorem hCompanionLoad_keepsCycle : KeepsCycle hCompanionLoad :=
  ⟨fun _ _ => rfl, fun s w c => cycleView_of_key (hBbPlanLoad_key.2 s w c)⟩

theorem hTwinEnable_keepsCycle : KeepsCycle hTwinEnable := by
  refine keepsCycle_of_eff (fun s w => ?_) rfl
  have stored : cycleView (storeEff E.twinEnable s w) = cycleView s := cycleView_of_key (storeEff_key ..)
  unfold hTwinEnable
  dsimp only
  split
  · split
    · rw [refreshLease_cycle, setLease_cycle]
      exact stored
    · exact stored
  · rw [refreshLease_cycle, setLease_cycle]
    have ended : cycleView (([0, 1, 2, 3] : List Nat).foldl (fun s l => linkSession s l false)
        (releaseLease (storeEff E.twinEnable s w) (storeEff E.twinEnable s w).cyc.tk)) = cycleView s :=
      (foldl_keeps cycleView _ (fun s l => cycleView_of_key (linkSession_key s l false)) _ _).trans
        ((cycleView_of_cross (releaseLease_cross ..)).trans stored)
    generalize List.foldl (fun s l => linkSession s l false) _ _ = t at ended ⊢
    exact ended

theorem hTrCaLoad_keepsCycle : KeepsCycle hTrCaLoad :=
  keepsCycle_of_eff (fun _ _ => (tackEvent_cycle ..).trans (closeAnchored_cycle ..)) rfl

theorem hTrCaClear_keepsCycle : KeepsCycle hTrCaClear :=
  keepsCycle_of_eff (fun _ _ => (tackEvent_cycle ..).trans (closeAnchored_cycle ..)) rfl

theorem handlersA_keepCycle : ∀ p ∈ handlersA, KeepsCycle p.2 := by
  simp [handlersA, keepsCycle_of_keeps, hStallCmd_keepsCycle, hStallHold_keepsCycle, hCycleMode_keepsCycle, hDiForce, hDoForce,
    hAiForce]

theorem handlersB_keepCycle : ∀ p ∈ handlersB, KeepsCycle p.2 := by
  simp [handlersB, keepsCycle_of_keeps, hCompanionLoad_keepsCycle, hTwinEnable_keepsCycle]

theorem handlersC_keepCycle : ∀ p ∈ handlersC, KeepsCycle p.2 := by
  simp [handlersC, keepsCycle_of_keeps, hTrCaLoad_keepsCycle, hTrCaClear_keepsCycle]

/-- Every handler leaves the crossing as it is. -/
theorem handlerOf_keepsCycle (e : Entry) (sub : Nat) : KeepsCycle (handlerOf e sub) := by
  unfold handlerOf
  split
  · exact keepsCycle_of_keeps hSelect_key
  · split
    · exact keepsCycle_of_keeps hSafParam_key
    · split
      · next p hp =>
        obtain h | h | h : p ∈ handlersA ∨ p ∈ handlersB ∨ p ∈ handlersC := by
          simpa [or_assoc] using List.mem_of_find?_eq_some hp
        · exact handlersA_keepCycle p h
        · exact handlersB_keepCycle p h
        · exact handlersC_keepCycle p h
      · exact keepsCycle_of_keeps (storeHandler_key e)

/-! ## Writes -/

/-- The state of an accepted write before its answer: its effect, its log and its record for the peer. -/
def acceptedW (h : Handler) (e : Entry) (s : State) (w : WReq) : State :=
  let s := h.eff s w
  let s := if e.persist && h.log then logWrite s w e else s
  if e.pair then
    { s with twin.pairWrites := s.twin.pairWrites ++ [{ index := w.idx, sub := w.sub, inst := w.inst, value := w.v }] }
  else s

/-- The state of a refused write before it is counted: the arbiter's record, and the handler's own. -/
def refusedW (h : Handler) (e : Entry) (s : State) (w : WReq) : State :=
  let code := judgeW h e s w
  let s := if code = abort abtBusy 1 then arbRefuse s w (blockingBit h s w (writeBlock h s w)) else s
  if h.own then h.refused s w code else s

theorem applyW_eq (h : Handler) (e : Entry) (s : State) (w : WReq) :
    applyW h e s w =
      if judgeW h e s w = 0 then (if h.held then acceptedW h e s w else answerW (acceptedW h e s w) w 0)
      else answerW (noteRefusal (refusedW h e s w) w.ctx w.idx w.sub (judgeW h e s w) (h.pkg w) h.own) w (judgeW h e s w) := rfl

section
variable {h : Handler} (hk : KeepsCycle h) (e : Entry) (s : State) (w : WReq)
include hk

theorem acceptedW_cycle : cycleView (acceptedW h e s w) = cycleView s := by
  have logged : cycleView (if e.persist && h.log then logWrite (h.eff s w) w e else h.eff s w) = cycleView s :=
    view_ite cycleView ((cycleView_of_key (logWrite_key ..)).trans (hk.1 s w)) (hk.1 s w)
  exact view_ite cycleView logged logged

theorem refusedW_cycle : cycleView (refusedW h e s w) = cycleView s := by
  have counted : cycleView (if judgeW h e s w = abort abtBusy 1 then arbRefuse s w (blockingBit h s w (writeBlock h s w)) else s) =
      cycleView s := view_ite cycleView (cycleView_of_key (arbRefuse_key ..)) rfl
  exact view_ite cycleView ((hk.2 ..).trans counted) counted

theorem applyW_cycle : cycleView (applyW h e s w) = cycleView s := by
  have answered : ∀ t c, cycleView (answerW t w c) = cycleView t := fun t c => cycleView_of_key (answerW_key t w c)
  rw [applyW_eq]
  refine view_ite cycleView (view_ite cycleView (acceptedW_cycle hk e s w) ?_) ?_
  · rw [answered, acceptedW_cycle hk]
  · rw [answered, cycleView_of_key (noteRefusal_key ..), refusedW_cycle hk]

end

theorem applyWrite_cycle (s : State) (w : WReq) : cycleView (applyWrite s w) = cycleView s := by
  unfold applyWrite
  split
  · rw [cycleView_of_key (answerW_key ..), cycleView_of_key (noteRefusal_key ..)]
  · exact applyW_cycle (handlerOf_keepsCycle ..) ..

theorem applyRequest_cycle (s : State) (r : Request) : cycleView (applyRequest s r) = cycleView s := by
  refine view_ite cycleView rfl ?_
  split
  · exact applyWrite_cycle ..
  · refine applyW_cycle ?_ ..
    split
    · exact handlerOf_keepsCycle ..
    · exact handlerOf_keepsCycle ..

theorem applyWrites_cycle (s : State) : cycleView (applyWrites s) = cycleView s :=
  foldl_keeps cycleView _ applyRequest_cycle _ _

theorem applyPeerWrites_cycle (s : State) : cycleView (applyPeerWrites s) = cycleView s := by
  refine foldl_keeps cycleView _ (fun s p => ?_) _ _
  split
  · rfl
  · exact view_ite cycleView ((handlerOf_keepsCycle ..).1 ..) ((handlerOf_keepsCycle ..).1 ..)

end Sys2Proof.Machine

/-!
PROOFS. O60, fifth part: the steps of Table 21-4 leave the crossing's number (21 R511).
-/

namespace Sys2Proof.Machine
open Sys2Proof.Claims Safe

section
variable (s : State)

/-! ## Steps 1 to 3 -/

theorem ferryBoth_cycle : cycleView (ferryBoth s) = cycleView s := by
  refine view_ite cycleView rfl (view_ite cycleView rfl ?_)
  refine foldl_keeps cycleView _ (fun s h => ?_) _ s
  exact view_ite cycleView ((cycleView_of_key (setNode_key ..)).trans rfl) rfl

theorem backboneBoundary_cycle (x : Nat) : cycleView (backboneBoundary s x) = cycleView s := by
  have counted : cycleView (countAbsent (ferryBoth (planeBoundary (planeBoundary s 0 x) 1 x))) = cycleView s := by
    rw [cycleView_of_key (countAbsent_key ..), ferryBoth_cycle, cycleView_of_key (planeBoundary_key ..),
      cycleView_of_key (planeBoundary_key ..)]
  have joined : ∀ t, cycleView (slewMerge (joinBoundary (openEdges t))) = cycleView t := fun t => by
    rw [cycleView_of_key (slewMerge_key ..), cycleView_of_key (joinBoundary_key ..), cycleView_of_key (openEdges_key ..)]
  unfold backboneBoundary
  dsimp only
  generalize countAbsent (ferryBoth (planeBoundary (planeBoundary s 0 x) 1 x)) = t at counted ⊢
  rw [← counted]
  split
  · refine view_ite cycleView ((joined _).trans ?_) ((joined _).trans ?_) <;>
      exact view_ite cycleView (cycleView_of_key (rosterEffect_key ..)) rfl
  · exact view_ite cycleView (joined t) (joined t)

theorem modeBoundary_cycle : cycleView (modeBoundary s) = cycleView s := by
  unfold modeBoundary
  split
  · rfl
  · exact view_ite cycleView rfl (emitL_cycle ..)

theorem stepsA_cycle : cycleView (stepsA s) = cycleView s := by
  unfold stepsA
  dsimp only
  rw [modeBoundary_cycle, cycleView_of_key (utcBoundary_key ..), cycleView_of_key (datumBoundary_key ..), backboneBoundary_cycle,
    cycleView_of_key (snapLatch_key ..), cycleView_of_key (windowsBoundary_key ..), cycleView_of_key (sessionsBoundary_key ..),
    cycleView_of_key (sendConfig_key ..), cycleView_of_key (keyView_mk ..), cycleView_of_key (lanesBoundary_key ..)]
  rfl

/-! ## Step 4 -/

theorem laneFault_cycle (l cause det : Nat) (named : List Nat) (executed : Bool) :
    cycleView (laneFault s l cause det named executed) = cycleView s := cycleView_of_cross (laneFault_cross ..)

theorem switchActivity_cycle (i : Nat) : cycleView (switchActivity s i) = cycleView s := by
  unfold switchActivity
  dsimp only
  rw [cycleView_of_key (endRuns_key ..)]
  refine Eq.trans (b := cycleView (cancelTriggers (leaveGroups s i) i)) rfl ?_
  rw [cycleView_of_key (cancelTriggers_key ..), cycleView_of_key (leaveGroups_key ..)]

theorem completeLoad_cycle (i : Nat) (st : Stall) (ld : Loading) : cycleView (completeLoad s i st ld) = cycleView s := by
  have event : ∀ a b, cycleView (loadEvent s i ld a b) = cycleView s := fun a b => emitL_cycle ..
  unfold completeLoad
  split
  · exact view_ite cycleView (event ..) (event ..)
  · refine (foldl_keeps cycleView _ (fun _ _ => laneFault_cycle ..) _ _).trans ?_
    refine view_ite cycleView ?_ ?_
    · rw [cycleView_of_key (updStall_key ..), cycleView_of_key (dropDecls_key ..), switchActivity_cycle, event]
    · rw [cycleView_of_key (svi_key ..), cycleView_of_key (svi_key ..), cycleView_of_key (setStall_key ..), event]

theorem stallBoundary_cycle (i : Nat) : cycleView (stallBoundary s i) = cycleView s := by
  have moved : ∀ st, cycleView (transition s i st) = cycleView s := fun st =>
    view_ite cycleView rfl (view_ite cycleView (view_ite cycleView rfl (cycleView_of_key (beginUnload_key ..)))
      (view_ite cycleView (cycleView_of_key (finishUnload_key ..)) rfl))
  have progressed : ∀ t st, cycleView (loadProgress t i st) = cycleView t := fun t st => by
    unfold loadProgress
    split
    · rfl
    · exact view_ite cycleView (view_ite cycleView rfl rfl) (view_ite cycleView (completeLoad_cycle ..) rfl)
  unfold stallBoundary
  split
  · rfl
  · dsimp only
    split
    · exact moved _
    · rw [progressed, moved]

theorem eachId_cycle {f : State → Nat → State} (hf : ∀ s i, cycleView (f s i) = cycleView s) : cycleView (eachId s f) = cycleView s :=
  foldl_keeps cycleView _ hf _ s

theorem sessionsAfterWrites_cycle : cycleView (sessionsAfterWrites s) = cycleView s := by
  refine foldl_keeps cycleView _ (fun s p => ?_) _ s
  exact view_ite cycleView (cycleView_of_key (closeSession_key ..)) rfl

theorem stepsB_cycle : cycleView (stepsB s) = cycleView s := by
  unfold stepsB
  dsimp only
  rw [eachId_cycle _ fun s i => cycleView_of_key (autoRestart_key s i), sessionsAfterWrites_cycle, applyPeerWrites_cycle,
    applyWrites_cycle, eachId_cycle _ stallBoundary_cycle]
  rfl

/-! ## Steps 5 to 7 -/

theorem view_foldl_snd {α β γ : Type} (v : State → γ) {f : β × State → α → β × State} (h : ∀ a x, v (f a x).2 = v a.2)
    (l : List α) (a : β × State) : v (l.foldl f a).2 = v a.2 := by
  induction l generalizing a with
  | nil => rfl
  | cons x l ih => rw [List.foldl_cons, ih, h]

theorem triggerRequests_cycle : cycleView (triggerRequests s) = cycleView s := by
  refine view_foldl_snd cycleView (fun a p => ?_) (postedOrder s.sup.posted) ([], s)
  dsimp only
  split
  · rfl
  · split
    · exact cycleView_of_key (decideArm_key ..)
    · exact cycleView_of_key (decideCancel_key ..)
    · rfl

theorem decideSafety_cycle : cycleView (decideSafety s) = cycleView s := by
  refine view_foldl_snd cycleView (fun a p => ?_) (postedOrder s.sup.posted) ([], s)
  dsimp only
  split
  · exact view_ite cycleView rfl rfl
  · rfl

theorem takeOutcomes_cycle : cycleView (takeOutcomes s) = cycleView s := by
  refine (foldl_keeps cycleView _ (fun _ _ => ?_) _ _).trans ?_
  · rfl
  · exact decideSafety_cycle s

theorem stepsC_cycle : cycleView (stepsC s) = cycleView s := by
  have purged : cycleView (purgeGroups (takeOutcomes (triggerRequests (freeTriggers
      (refreshYards (energyBoundary (twinBoundary s (trainX s s.cyc.tk - 1)))
        (twinBoundary s (trainX s s.cyc.tk - 1)).cyc.tk))))) = cycleView s := by
    rw [cycleView_of_key (purgeGroups_key ..), takeOutcomes_cycle, triggerRequests_cycle, cycleView_of_key (freeTriggers_key ..),
      cycleView_of_key (refreshYards_key ..), cycleView_of_key (energyBoundary_key ..), cycleView_of_key (twinBoundary_key ..)]
  unfold stepsC
  dsimp only
  rw [cycleView_of_key (storeStalls_key ..)]
  exact view_ite cycleView ((cycleView_of_key (completeStart_key ..)).trans purged) purged

theorem executeBoundary_cycle : cycleView (executeBoundary s) = cycleView s := by
  rw [executeBoundary, stepsC_cycle, stepsB_cycle, stepsA_cycle]

end
end Sys2Proof.Machine

/-!
PROOFS. O60, sixth part: the agreement of a crossing's image (06 R160 to R163) leaves the crossing's number and its agreement.
-/

namespace Sys2Proof.Machine
open Sys2Proof.Claims Safe

section
variable (s : State)

/-! ## Triggers and releases -/

theorem wantActivation_cycle (i : Nat) : cycleView (wantActivation s i).2 = cycleView s := by
  unfold wantActivation
  split
  · rfl
  · split
    · split <;> rfl
    · split <;> rfl

theorem fire_cycle (idx : Nat) (t : Trigger) (n : Nat) (tgt : Int) (stamp : Nat) (resumed : Bool) :
    cycleView (fire s idx t n tgt stamp resumed) = cycleView s := by
  unfold fire
  dsimp only
  rw [cycleView_of_key (putEntry_key ..), cycleView_of_key (keyView_mk_sup ..)]
  split
  · exact wantActivation_cycle ..
  · split
    · exact view_ite cycleView rfl (cycleView_of_key (acceptDo_key ..))
    · rfl

theorem evalTrigger_cycle (idx : Nat) (resumed : Bool) : cycleView (evalTrigger s idx resumed) = cycleView s := by
  unfold evalTrigger
  split
  · rfl
  · refine view_ite cycleView rfl ?_
    dsimp only
    refine view_ite cycleView (view_ite cycleView (fire_cycle ..) rfl)
      (view_ite cycleView ?_ (view_ite cycleView (fire_cycle ..) rfl))
    split
    · exact view_ite cycleView (fire_cycle ..) rfl
    · refine view_ite cycleView ?_ (view_ite cycleView (fire_cycle ..) rfl)
      rw [cycleView_of_key (keyView_mk_sup ..), cycleView_of_key (carryTimed_key ..)]
      exact view_ite cycleView (fire_cycle ..) rfl

theorem evalTriggers_cycle (resumed : Bool) : cycleView (evalTriggers s resumed) = cycleView s :=
  foldl_keeps cycleView _ (fun _ _ => view_ite cycleView rfl (evalTrigger_cycle ..)) _ s

theorem failVoter_cycle (h reported : Nat) : cycleView (failVoter s h reported) = cycleView s :=
  view_ite cycleView rfl ((cycleView_of_key (updVoter_key ..)).trans (emitL_cycle ..))

/-- One hub's report is judged (06 R171). -/
def judgeRelease (s : State) (used : List Nat) (h : Nat) : State :=
  let s := if !(used.contains h) || sameWords s h || reportAgrees s h then s else failVoter s h (reportedDigest s h)
  updVoter { s with agree.reportDigest := vupd s.agree.reportDigest h fun _ => none } h fun v => { v with matchedLog := [] }

theorem judgeReleases_eq (used : List Nat) : judgeReleases s used = judgeRelease (judgeRelease s used 0) used 1 := rfl

theorem judgeRelease_cycle (used : List Nat) (h : Nat) : cycleView (judgeRelease s used h) = cycleView s := by
  unfold judgeRelease
  dsimp only
  rw [cycleView_of_key (updVoter_key ..), cycleView_of_key (keyView_mk ..)]
  exact view_ite cycleView rfl (failVoter_cycle ..)

theorem evaluateImage_cycle (used : List Nat) : cycleView (evaluateImage s used) = cycleView s := by
  unfold evaluateImage
  dsimp only
  rw [cycleView_of_key (freeTriggers_key ..), evalTriggers_cycle]
  refine Eq.trans (b := cycleView (judgeReleases (snapAgree
    (energyAgree (applyDatums (fuse s s.cyc.k)) (applyDatums (fuse s s.cyc.k)).cyc.k (powerOf (applyDatums (fuse s s.cyc.k)) used)))
    used)) rfl ?_
  rw [judgeReleases_eq, judgeRelease_cycle, judgeRelease_cycle, cycleView_of_key (snapAgree_key ..),
    cycleView_of_key (energyAgree_key ..), cycleView_of_key (applyDatums_key ..), cycleView_of_key (fuse_key ..)]

/-! ## Adoption -/

theorem dropLost_cycle (used : List Nat) : cycleView (dropLost s used) = cycleView s :=
  foldl_keeps cycleView _ (fun _ _ => cycleView_of_key (updCtx_key ..)) _ _

theorem adoptImage_cycle (used : List Nat) : cycleView (adoptImage s used).2.2.2 = cycleView s := by
  unfold adoptImage
  dsimp only
  rw [cycleView_of_key (takeDi_key ..), cycleView_of_key (mergeSample_key ..), cycleView_of_key (mergeSample_key ..),
    cycleView_of_key (mergeMirror_key ..)]
  refine (foldl_keeps cycleView _ (fun s h => ?_) _ _).trans (cycleView_of_key (noteDiffering_key ..))
  exact foldl_keeps cycleView _ (fun _ _ => cycleView_of_key (mergeItem_key ..)) _ s

theorem adoptDev_cycle (l : List LaneItem) : cycleView (adoptDev s l) = cycleView s := by
  refine foldl_keeps cycleView _ (fun s x => ?_) _ s
  exact view_ite cycleView ((cycleView_of_key (systemAdopted_key ..)).trans (cycleView_of_key (adopt_key ..)))
    (cycleView_of_key (adopt_key ..))

theorem faultInputs_cycle (img : List LaneItem) (rep : AgreeReport) (minor : List Nat) :
    cycleView (faultInputs s img rep minor) = cycleView s :=
  (foldl_keeps cycleView _ (fun _ _ => laneFault_cycle ..) _ _).trans (foldl_keeps cycleView _ (fun _ _ => laneFault_cycle ..) _ _)

theorem judgeJoin_cycle (rep : AgreeReport) : cycleView (judgeJoin s rep) = cycleView s := by
  refine foldl_keeps cycleView _ (fun s l => ?_) _ s
  split
  · rfl
  · exact view_ite cycleView rfl (view_ite cycleView rfl (laneFault_cycle ..))

theorem closeImages_cycle : cycleView (closeImages s) = cycleView s := rfl

theorem noticeActivations_cycle (wins : List Item) : cycleView (noticeActivations s wins) = cycleView s :=
  foldl_keeps cycleView _ (fun _ _ => view_ite cycleView (wantActivation_cycle ..) rfl) _ s

theorem afterAdoption_cycle (rep : AgreeReport) (used : List Nat) (rise fall : Nat) (wins : List Item) :
    cycleView (afterAdoption s rep used rise fall wins) = cycleView s := by
  refine view_ite cycleView (closeImages_cycle s) ?_
  dsimp only
  rw [cycleView_of_key (sendMirror_key ..), cycleView_of_key (freeTriggers_key ..), cycleView_of_key (scheduleCrossing_key ..),
    closeImages_cycle, noticeActivations_cycle, evaluateImage_cycle, cycleView_of_key (agreeHead_key ..)]

theorem mergeAndJudge_cycle (rep : AgreeReport) (used : List Nat) : cycleView (mergeAndJudge s rep used) = cycleView s := by
  unfold mergeAndJudge
  dsimp only
  have adopted : cycleView (adoptImage (decideRequests s) used).2.2.2 = cycleView s := by
    rw [adoptImage_cycle, cycleView_of_key (decideRequests_key ..)]
  split
  · rw [closeImages_cycle, cycleView_of_cross (mismatch_cross ..)]
  · rw [afterAdoption_cycle, judgeJoin_cycle, faultInputs_cycle, adoptDev_cycle, adopted]

end

/-- The crossing is agreed, whatever its images come to. -/
theorem agreeInputs_cycle (s : State) (rep : AgreeReport) :
    cycleView (agreeInputs s rep) = (s.cyc.k, some s.cyc.k, s.cyc.endDone) := by
  have faulted : ∀ l : List Nat, cycleView (l.foldl (fun s l => laneFault s l 2 (srcLane l) [] false) { s with cyc.agreedK := some s.cyc.k }) =
      (s.cyc.k, some s.cyc.k, s.cyc.endDone) := fun l => foldl_keeps cycleView _ (fun _ _ => laneFault_cycle ..) l _
  unfold agreeInputs
  generalize usedImages s rep = images
  dsimp only
  rw [← faulted images.2]
  refine view_ite cycleView (closeImages_cycle _) ?_
  rw [mergeAndJudge_cycle, dropLost_cycle, cycleView_of_key (countLost_key ..)]

end Sys2Proof.Machine

/-!
PROOFS. O60, last part: the commands that carry a crossing complete (05 R119 to R122, 06 R162, R173, R174).
-/

namespace Sys2Proof.Machine
open Sys2Proof.Claims Safe

/-! ## FIELD_SAMPLE (R120) -/

/-- The lane supervisors' state, and the sequence number of a die's samples. -/
def sampleView (die : Nat) (s : State) : Sup × Nat := (s.sup, (getDie s die).seq)

section
variable (s : State) (d : Nat)

theorem translateEdges_sample (die : Nat) : sampleView d (translateEdges s die) = sampleView d s := by
  unfold translateEdges
  dsimp only
  refine (foldl_keeps (sampleView d) _ (fun _ _ => ?_) _ _).trans ?_
  · rfl
  · refine (foldl_keeps (sampleView d) _ (fun _ _ => ?_) _ _).trans (foldl_keeps (sampleView d) _ (fun _ _ => ?_) _ _) <;> rfl

theorem takeSets_sample (die t : Nat) : sampleView d (takeSets s die t) = sampleView d s := by
  refine foldl_keeps (sampleView d) _ (fun _ _ => ?_) _ s
  exact view_ite (sampleView d) rfl rfl

theorem updTacho_sample (c : Nat) (f : Tacho → Tacho) : sampleView d (updTacho s c f) = sampleView d s := rfl

theorem tachoSample_sample (c t : Nat) : sampleView d (tachoSample s c t) = sampleView d s := by
  unfold tachoSample
  dsimp only
  rw [updTacho_sample]
  exact view_ite (sampleView d) rfl rfl

theorem aiTakeCfg_sample (c : Nat) : sampleView d (aiTakeCfg s c) = sampleView d s := rfl

theorem updAi_sample (c : Nat) (f : Ai → Ai) : sampleView d (updAi s c f) = sampleView d s := rfl

theorem aiSample_sample (c : Nat) : sampleView d (aiSample s c) = sampleView d s := by
  have taken : ∀ t, sampleView d (if 0 < (getAi s c).samples && !(getAi s c).peaked then freeNext t else t) = sampleView d t :=
    fun t => view_ite (sampleView d) rfl rfl
  unfold aiSample
  dsimp only
  rw [aiTakeCfg_sample, updAi_sample, taken, taken]

end

/-- A hub takes a sample that arrives whole. -/
def giveSample (smp : Sample) (f : Nat) (s : State) (h : Nat) (ok : Bool) : State :=
  if ok && hubUp s h && ilinkUp s (20 + h * 2 + f) then
    updHub s h fun d => { d with sample := vupd d.sample f fun _ => some smp }
  else s

/-- The die's registers as it samples. -/
def beginSample (s : State) (f t : Nat) : State :=
  updDie s f fun d => { d with
    counterPrev := d.counter, counter := tickAt t, sampleAt := s.cyc.tk + s.cyc.c - 6000, seq := d.seq + 1 }

/-- The die's channels sampled. -/
def sampledDie (s : State) (f t : Nat) : State :=
  let s := takeSets (translateEdges s f) f t
  let s := (List.range 2).foldl (fun s n => tachoSample s (f * 2 + n) t) s
  let s := (List.range 8).foldl (fun s n => aiSample s (f * 8 + n)) s
  freeNext { s with field.dissipation := freeVal s }

theorem execFieldSample_eq (die : Fin 2) (t : Nat) (toHa toHb : Bool) (s : State) (hup : (getDie s die).failed = false) :
    exec (.fieldSample die t toHa toHb) s = .next (
      let u := sampledDie (beginSample s die t) die t
      let smp := dieSample u die (s.cyc.tk + s.cyc.c - 6000)
      let w := (List.range 32).foldl (fun s n => updDi s (die * 32 + n) fun d => { d with rise := false, fall := false }) u
      giveSample smp die (giveSample smp die w 0 toHa) 1 toHb) := by
  show execFieldSample die t toHa toHb s = _
  unfold execFieldSample
  dsimp only
  rw [if_neg (by rw [hup]; decide)]
  rfl

theorem sampledDie_sample (s : State) (d f t : Nat) : sampleView d (sampledDie s f t) = sampleView d s := by
  have tachos : ∀ s, sampleView d ((List.range 2).foldl (fun s n => tachoSample s (f * 2 + n) t) s) = sampleView d s := fun s =>
    foldl_keeps (sampleView d) _ (fun _ _ => tachoSample_sample ..) _ s
  have analogs : ∀ s, sampleView d ((List.range 8).foldl (fun s n => aiSample s (f * 8 + n)) s) = sampleView d s := fun s =>
    foldl_keeps (sampleView d) _ (fun _ _ => aiSample_sample ..) _ s
  have dissipated : ∀ s, sampleView d (freeNext { s with field.dissipation := freeVal s }) = sampleView d s := fun _ => rfl
  unfold sampledDie
  dsimp only
  rw [dissipated, analogs, tachos, takeSets_sample, translateEdges_sample]

theorem getDie_updDie (s : State) (die : Fin 2) (f : FieldDie → FieldDie) : getDie (updDie s die f) die = f (getDie s die) :=
  vget_vupd_self _ _ _ _ die.isLt

theorem fieldSample_does (s : State) (die : Fin 2) (t : Nat) (toHa toHb : Bool) (hup : (getDie s die).failed = false) :
    does (.fieldSample die t toHa toHb) s fun t => (getDie t die).seq = (getDie s die).seq + 1 ∧ t.sup = s.sup := by
  have begun : sampleView die (beginSample s die t) = (s.sup, (getDie s die).seq + 1) := by
    rw [sampleView, beginSample, getDie_updDie]
    rfl
  have given : ∀ smp u h ok, sampleView die (giveSample smp die u h ok) = sampleView die u := fun smp u h ok =>
    view_ite (sampleView die) rfl rfl
  have cleared : ∀ u, sampleView die ((List.range 32).foldl
      (fun s n => updDi s (die * 32 + n) fun d => { d with rise := false, fall := false }) u) = sampleView die u := fun u => by
    refine foldl_keeps (sampleView die) _ (fun _ _ => ?_) _ u
    rfl
  refine ⟨_, execFieldSample_eq die t toHa toHb s hup, ?_⟩
  dsimp only
  generalize dieSample _ _ _ = smp
  have hview := (given smp _ 1 toHb).trans ((given smp _ 0 toHa).trans ((cleared (sampledDie (beginSample s die t) die t)).trans
    ((sampledDie_sample ..).trans begun)))
  exact ⟨congrArg Prod.snd hview, congrArg Prod.fst hview⟩

/-! ## IMAGE_CLOSE (R121) -/

theorem closeImage_img (s : State) (hub : Fin 2) (k : Nat) (rd : HubReading) :
    (vget (closeImage s hub k rd).cyc.hubImg hub {}).closed = true ∧ (vget (closeImage s hub k rd).cyc.hubImg hub {}).k = k := by
  unfold closeImage
  dsimp only
  rw [vget_vupd_self _ _ _ _ hub.isLt]
  exact ⟨rfl, rfl⟩

theorem imageClose_does (s : State) (hub : Fin 2) (rd : HubReading) (hrun : s.cyc.running = true) (hup : hubUp s hub = true)
    (hopen : (vget s.cyc.hubImg hub {}).closed = false) :
    does (.imageClose hub rd) s fun t =>
      (vget t.cyc.hubImg hub {}).closed = true ∧ (vget t.cyc.hubImg hub {}).k = s.cyc.k + 1 ∧ t.cyc.k = s.cyc.k := by
  have hocc : (s.cyc.running && hubUp s hub && !((vget s.cyc.hubImg hub {}).closed && (vget s.cyc.hubImg hub {}).k = s.cyc.k + 1)) =
      true := by rw [hrun, hup, hopen]; rfl
  obtain ⟨hclosed, hk⟩ := closeImage_img s hub (s.cyc.k + 1) rd
  exact ⟨_, congrArg Host.Outcome.next (if_pos hocc), hclosed, hk, congrArg Prod.fst (cycleView_of_key (closeImage_key s hub (s.cyc.k + 1) rd))⟩

/-! ## INPUT_AGREEMENT (06 R162) -/

theorem inputAgreement_does (s : State) (rep : AgreeReport) (hrun : s.cyc.running = true) (hmis : s.agree.mismatch = false)
    (hlost : s.agree.lost = false) (hk : s.cyc.agreedK ≠ some s.cyc.k) (hclosed : hubsClosed s ≠ []) :
    does (.inputAgreement rep) s fun t => t.cyc.agreedK = some s.cyc.k := by
  have hocc : (s.cyc.running && !s.agree.mismatch && !s.agree.lost && decide (s.cyc.agreedK ≠ some s.cyc.k) &&
      decide (hubsClosed s ≠ [])) = true := by simp [hrun, hmis, hlost, hk, hclosed]
  exact ⟨_, congrArg Host.Outcome.next (if_pos hocc), congrArg (·.2.1) (agreeInputs_cycle s rep)⟩

/-! ## CHECKPOINT_AGREEMENT (06 R174) -/

/-- Lanes that report nothing agree with each other. -/
theorem sameCheckpoint_nil (s : State) (i a b : Nat) : sameCheckpoint s [] [] i a b = true := by
  simp [sameCheckpoint, diffsOf]

theorem minority_of_same {same : Nat → Nat → Bool} (h : ∀ a b, same a b = true) (set : List Nat) : minority set same = some [] := by
  unfold minority
  split <;> simp [h]

/-- Without a report no checkpoint differs. -/
theorem judgeCheckpoints_nil (s : State) : judgeCheckpoints s [] [] = s := by
  unfold judgeCheckpoints
  simp [judgedIds, sameCheckpoint_nil, minority_of_same, diffsOf, applyDiffs]

theorem decideBridges_cycle (s : State) : cycleView (decideBridges s) = cycleView s := by
  refine foldl_keeps cycleView _ (fun s i => ?_) _ s
  refine view_foldl_snd cycleView (fun a p => ?_) s.sup.posted ([], s)
  dsimp only
  split
  · exact cycleView_of_key (decideBridge_key ..)
  · rfl

theorem endCrossing_nil_cycle (s : State) (hmis : s.agree.mismatch = false) (hlost : s.agree.lost = false) :
    (endCrossing s [] []).cyc.endDone = some s.cyc.k := by
  have hk : (outputCommand (decideBridges s)).cyc.k = s.cyc.k := by
    have := (cycleView_of_key (outputCommand_key (decideBridges s))).trans (decideBridges_cycle s)
    exact congrArg Prod.fst this
  unfold endCrossing
  rw [judgeCheckpoints_nil]
  dsimp only
  rw [hmis, hlost, if_neg (by decide)]
  exact congrArg some hk

theorem checkpointAgreement_does (s : State) (hrun : s.cyc.running = true) (hmis : s.agree.mismatch = false)
    (hlost : s.agree.lost = false) (hk : s.cyc.agreedK = some s.cyc.k) (hend : s.cyc.endDone ≠ some s.cyc.k) :
    does (.checkpointAgreement [] []) s fun t => t.cyc.endDone = some s.cyc.k := by
  have hocc : (s.cyc.running && decide (s.cyc.agreedK = some s.cyc.k) && decide (s.cyc.endDone ≠ some s.cyc.k) &&
      !s.agree.mismatch && !s.agree.lost) = true := by simp [hrun, hmis, hlost, hk, hend]
  exact ⟨_, congrArg Host.Outcome.next (if_pos hocc), endCrossing_nil_cycle s hmis hlost⟩

/-! ## ACTIVATION_START (R122, R139) -/

theorem getRun_updRun (s : State) (core : CoreIx) (f : CoreRun → CoreRun) : getRun (updRun s core f) core = f (getRun s core) :=
  vget_vupd_self _ _ _ _ core.isLt

theorem getRun_setStall (s : State) (i : Nat) (st : Stall) (core : Nat) : getRun (setStall s i st) core = getRun s core := rfl

theorem getRun_perfCount (s : State) (core c : Nat) (ctx : Option Nat) (evs : List (Nat × Nat)) :
    getRun (perfCount s c ctx evs) core = getRun s core := by
  obtain ⟨p, hp⟩ := perfCount_only s c ctx evs
  rw [hp]
  rfl

theorem startActivation_run (s : State) (core : CoreIx) (q : Queued) (rest : List Queued) :
    (getRun (startActivation s core q rest) core).run = some q.stall ∧
      (getRun (startActivation s core q rest) core).queue = rest := by
  unfold startActivation
  dsimp only
  split
  · rw [getRun_updRun]
    exact ⟨rfl, rfl⟩
  · rw [getRun_perfCount, getRun_setStall, getRun_updRun, getRun_updRun]
    exact ⟨rfl, rfl⟩

theorem activationStart_does (s : State) (core : CoreIx) (q : Queued) (rest : List Queued) (st : Stall)
    (hidle : (getRun s core).run = none) (hk : s.cyc.agreedK = some s.cyc.k) (hmis : s.agree.mismatch = false)
    (hlost : s.agree.lost = false) (hq : (getRun s core).queue = q :: rest) (hst : getStall? s q.stall = some st)
    (hrunning : st.state = .running) :
    does (.activationStart core) s fun t => (getRun t core).run = some q.stall ∧ (getRun t core).queue = rest := by
  have hocc : ¬ ((getRun s core).run.isSome || decide (s.cyc.agreedK ≠ some s.cyc.k) || s.agree.mismatch || s.agree.lost) = true := by
    simp [hidle, hk, hmis, hlost]
  have hbegin : mayBegin s q = true := by simp [mayBegin, hst, hrunning]
  refine ⟨startActivation s core q rest, congrArg Host.Outcome.next ((if_neg hocc).trans ?_), startActivation_run s core q rest⟩
  rw [hq, dropStopped, if_pos hbegin]

/-! ## CROSSING_BOUNDARY (R119, 21 R511) -/

theorem crossBoundary_k (s : State) (hrec : s.st.recoverDue = false) (hres : s.st.resetDue = none) :
    (crossBoundary s).cyc.k = s.cyc.k + 1 := by
  have hadv : crossView (voterFailures (advance (closeCrossing s))) =
      ((s.cyc.k + 1, s.cyc.agreedK, s.cyc.endDone), false, none) := by
    rw [voterFailures_cross, advance_cross, closeCrossing_cross, crossView, cycleView, hrec, hres]
  unfold crossBoundary
  generalize voterFailures (advance (closeCrossing s)) = t at hadv ⊢
  dsimp only
  split
  · exact (congrArg Prod.fst (cycleView_of_key (snapMissed_key t t.cyc.k))).trans (congrArg (·.1.1) hadv)
  · have hresume : crossView (if t.agree.mismatch then resumeBoundary t else t) =
        ((s.cyc.k + 1, s.cyc.agreedK, s.cyc.endDone), false, none) :=
      (view_ite crossView (resumeBoundary_cross t) rfl).trans hadv
    generalize (if t.agree.mismatch then resumeBoundary t else t) = u at hresume ⊢
    have hrec' : u.st.recoverDue = false := congrArg (·.2.1) hresume
    have hres' : u.st.resetDue = none := congrArg (·.2.2) hresume
    rw [hrec', hres', if_neg (by decide), if_neg (by decide)]
    exact (congrArg Prod.fst (executeBoundary_cycle u)).trans (congrArg (·.1.1) hresume)

theorem crossingBoundary_does (s : State) (hrun : s.cyc.running = true) (hclosed : imagesClosed s = true)
    (hend : s.cyc.endDone = some s.cyc.k) (hrec : s.st.recoverDue = false) (hres : s.st.resetDue = none) :
    does .crossingBoundary s fun t => t.cyc.k = s.cyc.k + 1 := by
  have hocc : (s.cyc.running && imagesClosed s && (decide (s.cyc.endDone = some s.cyc.k) || s.agree.mismatch || s.agree.lost ||
      decide (s.cyc.agreedK ≠ some s.cyc.k))) = true := by simp [hrun, hclosed, hend]
  exact ⟨_, congrArg Host.Outcome.next (if_pos hocc), crossBoundary_k s hrec hres⟩

theorem crossingCompletes_holds : crossingCompletes := by
  intro s
  refine ⟨fun die i a b hup => fieldSample_does s die i a b hup, fun hub rd hrun hup hopen => imageClose_does s hub rd hrun hup hopen,
    fun hrun hmis hlost => ⟨fun rep hk hclosed => inputAgreement_does s rep hrun hmis hlost hk hclosed,
      fun hk hend _ => checkpointAgreement_does s hrun hmis hlost hk hend⟩,
    fun core q rest st hidle hk hmis hlost hq hst hrunning =>
      activationStart_does s core q rest st hidle hk hmis hlost hq hst hrunning,
    fun hrun hclosed hend hrec hres => crossingBoundary_does s hrun hclosed hend hrec hres⟩

end Sys2Proof.Machine

open Sys2Proof.Machine in
/-- Settles O60. -/
theorem crossingCompletions : Obligations.CrossingCompletions := ⟨blockCompletes_holds, crossingCompletes_holds⟩

/-!
PROOFS. O26: loading, replacing, starting, stopping, restarting and unloading a stall (04 R103 to R111, 05 R138).
-/

namespace Sys2Proof.Machine
open Sys2Proof.Claims Safe

section
variable {s : State} {ctx idx sub v i : Nat} {e : Entry} {h : Handler} {st : Stall} {w : WReq}

/-! ## Accepted writes, and the update of one stall -/

/-- An accepted write that the arbiter lets pass, to an entry that is neither persistent nor of pair scope, has its handler's effect
alone. -/
theorem writeCmd_unblocked (hp : e.persist = false) (hq : e.pair = false) (ha : accepts s e ctx idx sub v)
    (hb : ∀ a k c, h.act (mkW s ctx idx sub e.len v e) = some (a, k, c) → arbBlock s a k c = none)
    (hc : h.conds s (mkW s ctx idx sub e.len v e) = []) :
    writeCmd h e ctx idx sub v s = h.eff s (mkW s ctx idx sub e.len v e) := by
  obtain ⟨hopen, hgen⟩ := ha
  rw [writeCmd_accepted s idx sub ctx h e v hopen hgen hb hc]
  simp [hp, hq]

theorem unblocked_of_some {a k c : Nat} (hb : arbBlock s a k c = none) :
    ∀ a' k' c', some (a, k, c) = some (a', k', c') → arbBlock s a' k' c' = none := by
  rintro _ _ _ ⟨⟩
  exact hb

theorem updStall_eq_setStall (hst : getStall? s i = some st) (f : Stall → Stall) : updStall s i f = setStall s i (f st) := by
  simp only [getStall?] at hst
  simp only [updStall, nupd, hst, setStall]

/-! ## Loads (R103, R104, R106) -/

/-- The package number and the grant are the two fields of a STALL_LOAD. -/
theorem bits_stallLoad (pkg : Nat) (grant : Word) :
    bits (pkg % 2 ^ 32 + grant.toNat * 2 ^ 64) 0 32 = pkg % 2 ^ 32 ∧
      bits (pkg % 2 ^ 32 + grant.toNat * 2 ^ 64) 64 64 = grant.toNat := by
  have hg : grant.toNat < 2 ^ 64 := grant.isLt
  unfold bits
  omega

/-- The copy of package `n` with the parts `p`, as it begins. -/
def copyOf (s : State) (n : Nat) (p : StallPkg) (replace : Bool) : Loading :=
  { pkgNo := n, pkg := p, replace := replace, since := s.cyc.tk, waiting := restabling s
    placed := (placeSegs s p.desc).getD [2, 2, 1] }

/-- A stall that a STALL_LOAD creates. -/
def newStall (s : State) (n : Nat) (p : StallPkg) (grant : Word) : Stall :=
  { state := .loading, pkgNo := n, desc := p.desc, grant := grant, map := p.map, decls := p.decls
    placed := (placeSegs s p.desc).getD [2, 2, 1], loading := some (copyOf s n p false) }

theorem loadEff_eq {p : StallPkg} (hp : parsePkg (pkgPayload s (bits w.v 0 32)) = some p) : loadEff s w =
    sv { setStall s (freeId s) (newStall s (bits w.v 0 32) p (BitVec.ofNat 64 (bits w.v 64 64))) with
      sup.ctxs := nset s.sup.ctxs (5000 + freeId s) {} } E.stallLastId (freeId s) := by
  rw [loadEff, hp]
  rfl

theorem replaceEff_eq {p : StallPkg} (hp : parsePkg (pkgPayload s w.v) = some p) (hst : getStall? s w.inst = some st) :
    replaceEff s w = setStall s w.inst { st with loading := some (copyOf s w.v p true) } := by
  rw [replaceEff, hp]
  exact updStall_eq_setStall hst _

theorem stallLoadRule_holds : stallLoadRule := by
  intro s ctx pkg v id grant p hv ha hb hc hid hp
  obtain ⟨hpkg, hgrant⟩ := bits_stallLoad pkg grant
  rw [← hv] at hpkg hgrant
  refine ⟨writeCmd hStallLoad E.stallLoad ctx 0x2200 2 v s, by rw [hv]; rfl,
    newStall s (pkg % 2 ^ 32) p grant, copyOf s (pkg % 2 ^ 32) p false, ?_, rfl, rfl, rfl, rfl, rfl, rfl, rfl, rfl, rfl, rfl⟩
  rw [writeCmd_unblocked rfl rfl ha (unblocked_of_some hb) hc, hid]
  refine (loadEff_eq (p := p) ?_).trans ?_
  · exact (congrArg (parsePkg <| pkgPayload s ·) hpkg).trans hp
  · simp only [mkW, hpkg, hgrant, BitVec.ofNat_toNat, BitVec.setWidth_eq]

theorem stallReplaceRule_holds : stallReplaceRule := by
  intro s ctx pkg i st p ha hi hst hb hc hp
  subst hi
  exact ⟨_, congrArg Host.Outcome.next (writeCmd_unblocked rfl rfl ha (unblocked_of_some hb) hc), _,
    replaceEff_eq hp hst, rfl, rfl, rfl, rfl, rfl⟩

theorem loadCopyRule_holds : loadCopyRule := by
  intro s lane i d st ld hst hld hwait hin
  have hbind : (getStall? s i).bind (·.loading) = some ld := by rw [hst, Option.bind_some, hld]
  refine ⟨_, rfl, ?_⟩
  simp only [hbind, hwait, hin, Bool.not_true, Bool.or_self, Bool.false_eq_true, if_false]
  exact updStall_eq_setStall hst _

/-! ## STALL_CMD (R108, R110, R111) -/

/-- A STALL_CMD that no condition of Table 04-6 refuses, and the arbiter lets pass where it is UNLOAD, has its effect alone. -/
theorem stallCmd_accepted (ha : accepts s E.stallCmd ctx 0x2201 1 v) (hb : v = 4 → arbBlock s 9 0 0 = none)
    (hc : cmdConds s (mkW s ctx 0x2201 1 E.stallCmd.len v E.stallCmd) = []) :
    writeCmd hStallCmd E.stallCmd ctx 0x2201 1 v s = cmdEff s (mkW s ctx 0x2201 1 E.stallCmd.len v E.stallCmd) := by
  refine writeCmd_unblocked rfl rfl ha (fun a k c hact => ?_) hc
  change (if v = 4 then some (9, 0, 0) else none) = some (a, k, c) at hact
  by_cases h4 : v = 4
  · rw [if_pos h4] at hact
    exact unblocked_of_some (hb h4) a k c hact
  · rw [if_neg h4] at hact
    cases hact

section
variable (hst : getStall? s w.inst = some st)
include hst

theorem cmdConds_start (hv : w.v = 1) (hstop : st.state = .stopped) (hc : startConds s w.inst st = []) : cmdConds s w = [] := by
  simp only [cmdConds, hst, hv, hstop, if_true, hc]

theorem cmdConds_stop (hv : w.v = 2)
    (hs : st.state = .stopped ∨ st.state = .running ∨ st.state = .held ∨ st.state = .faulted) : cmdConds s w = [] := by
  simp only [cmdConds, hst, hv]
  rcases hs with hs | hs | hs | hs <;> simp [refuseIf, hs]

theorem cmdConds_restart (hv : w.v = 3) (hf : st.state = .faulted) : cmdConds s w = [] := by
  simp [cmdConds, hst, hv, hf, refuseIf]

theorem cmdConds_unload (hv : w.v = 4) (hs : st.state = .stopped ∨ st.state = .faulted)
    (hshared : sharedMapped s w.inst st = false) (hrole : ctxIsStall w.ctx = true ∨ roleOk (w.roleIn s) 3 = true) :
    cmdConds s w = [] := by
  simp only [cmdConds, hst, hv, hshared]
  rcases hs with hs | hs <;> rcases hrole with hr | hr <;> simp [refuseIf, hs, hr]

theorem cmdEff_start (hv : w.v = 1) (hstop : st.state = .stopped) :
    cmdEff s w = setStall s w.inst { admitAt s w.inst st with state := .running } := by
  simp only [cmdEff, hst, hv, hstop, if_true]

theorem cmdEff_stop (hv : w.v = 2) (hs : st.state ≠ .held) :
    cmdEff s w = setStall s w.inst { st with
      state := .stopped, admitted := false, phase := 0, autoPending := false
      exec.stopReason := if st.state = .running then 4 else st.exec.stopReason } := by
  simp only [cmdEff, hst, hv, hs, if_false]

theorem cmdEff_stop_held (hv : w.v = 2) (hs : st.state = .held) :
    cmdEff s w =
      holdMode (setStall s w.inst { st with state := .stopped, admitted := false, phase := 0, autoPending := false }) w.ctx := by
  simp [cmdEff, hst, hv, hs]

theorem cmdEff_restart (hv : w.v = 3) (hf : st.state = .faulted) : cmdEff s w = beginRestart s w.inst true := by
  simp only [cmdEff, hst, hv, hf, decide_true]

theorem cmdEff_unload (hv : w.v = 4) (hr : restabling s = false) :
    cmdEff s w = beginUnload (setStall s w.inst { st with
      state := .unloading, admitted := false, loading := none, unloadFor := ctxCode w.ctx, unloadWait := false }) w.inst := by
  simp [cmdEff, hst, hv, hr]

end

/-- The mode that the stalls which are HELD give the module: it stays in STOP, and is otherwise HOLD or RUN (05 R142, R143). -/
def heldMode (s : State) : Nat := if s.sup.mode = 2 then 2 else if 0 < heldCount s then 3 else 1

theorem holdMode_eq (s : State) (ctx : Nat) :
    holdMode s ctx = if heldMode s = s.sup.mode then s
      else emitL { s with sup.mode := heldMode s } (srcHub 0) 0x2050 0
        (u8 s.sup.mode ++ u8 (heldMode s) ++ u16 (ctxCode ctx)) := rfl

theorem noted_holdMode (s : State) (ctx : Nat) : noted { s with sup.mode := heldMode s } (holdMode s ctx) := by
  rw [holdMode_eq]
  split
  · next hsame =>
    rw [hsame]
    rfl
  · exact bare_emitL ..

/-- The control block of a stall as RESTARTING begins. -/
def restartExec (s : State) (st : Stall) : Exec :=
  { initRegs st.desc { st.exec with mem := restartMem st.desc st.exec.mem (pkgData s st.pkgNo) } with
    restarts := st.exec.restarts + 1 }

theorem beginRestart_admitted (hst : getStall? s i = some st) :
    beginRestart s i true = setStall (endRuns (cancelTriggers s i) i) i { st with
      state := .restarting, restartAt := some s.cyc.k, autoPending := false, first := true, continued := false
      skipped := false, stepped := false, lastFuelStop := false, imgWin := {}, trigWait := [], dataFrom := s.cyc.k
      dwWrites := [], dwOrder := [], exec := restartExec s st } := by
  have hst' : getStall? (endRuns (cancelTriggers s i) i) i = some st := hst
  simp only [beginRestart, hst', if_true]
  rfl

/-- The state without the triggers that a stall armed and the outcomes that it waits for (R108). -/
def withoutRequests (s : State) (i : Nat) : State :=
  { cancelTriggers s i with sup.posted := (cancelTriggers s i).sup.posted.filter (fun p => p.stall ≠ i) }

/-- A stall as its unload begins, event 0x2042 apart. -/
def unloaded (s : State) (i : Nat) (st : Stall) : State :=
  setStall (withoutRequests s i) i { st with unloadWait := false, restartAt := some s.cyc.k, results := [], trigWait := [] }

theorem beginUnload_eq (hst : getStall? s i = some st) :
    beginUnload s i = emitL (unloaded s i st) (srcStall i) 0x2042 1 (u32 st.pkgNo ++ u16 st.unloadFor) i := by
  have hst' : getStall? (withoutRequests s i) i = some st := hst
  rw [withoutRequests] at hst'
  simp only [beginUnload, hst']
  rfl

theorem setStall_setStall (s : State) (i : Nat) (st st' : Stall) : setStall (setStall s i st) i st' = setStall s i st' := by
  simp only [setStall, nset_nset]

/-- An unload leaves nothing of what the stall's slot held before. -/
theorem unloaded_setStall (s : State) (i : Nat) (st st' : Stall) : unloaded (setStall s i st) i st' = unloaded s i st' :=
  setStall_setStall (withoutRequests s i) i st _

end

theorem stallCmdRule_holds : stallCmdRule := by
  intro s ctx i st hi hst
  subst hi
  refine ⟨fun ha hs hc => ⟨_, rfl, ?_⟩, fun ha hs => ⟨_, rfl, ?_⟩, fun ha hs => ⟨_, rfl, ?_⟩, fun ha hs => ⟨_, rfl, ?_⟩⟩
  · exact (stallCmd_accepted ha nofun (cmdConds_start hst rfl hs hc)).trans (cmdEff_start hst rfl hs)
  · have hne : st.state ≠ .held := by rcases hs with h | h | h <;> simp [h]
    exact (stallCmd_accepted ha nofun (cmdConds_stop hst rfl (by tauto))).trans (cmdEff_stop hst rfl hne)
  · rw [stallCmd_accepted ha nofun (cmdConds_stop hst rfl (.inr (.inr (.inl hs)))), cmdEff_stop_held hst rfl hs]
    exact noted_holdMode ..
  · refine ⟨restartExec s st, ?_, rfl, rfl, rfl, rfl, rfl, rfl, rfl⟩
    exact (stallCmd_accepted ha nofun (cmdConds_restart hst rfl hs)).trans
      ((cmdEff_restart hst rfl hs).trans (beginRestart_admitted hst))

theorem unloadRule_holds : unloadRule := by
  intro s ctx i st ha hi hst hs hshared hrole hb hr
  subst hi
  refine ⟨_, rfl, ?_⟩
  rw [stallCmd_accepted ha (fun _ => hb) (cmdConds_unload hst rfl hs hshared hrole), cmdEff_unload hst rfl hr,
    beginUnload_eq (getStall?_setStall ..)]
  refine ⟨recorded_emitL _ _ _ _ _ _ (by decide), ?_⟩
  rw [noted, bare_emitL, unloaded_setStall]
  rfl

end Sys2Proof.Machine

open Sys2Proof.Machine in
/-- Settles O26: a write of a stall's control entries that nothing refuses has its handler's effect alone, which is the state that the
rule names. -/
theorem stallLifeCycle : Obligations.StallLifeCycle :=
  ⟨stallLoadRule_holds, loadCopyRule_holds, stallReplaceRule_holds, stallCmdRule_holds, unloadRule_holds⟩

/-! PROOFS. The queue and the modes (O53, O57, O58). -/
namespace Sys2Proof.Machine

open Sys2Proof.Claims Safe

theorem modesNamed_reset : modesNamed State.reset :=
  ⟨⟨.inr (.inl rfl), fun _ _ h => nomatch h⟩, .inr (.inl rfl), fun _ _ h => nomatch h⟩

theorem step_of_empty {s : State} (h : s.pending = []) : step s = .next s := by
  unfold step
  rw [h]

/-- A crossing that has ended with CROSSING_BOUNDARY waiting, where the twin's holder has carried a write of the value 7 to the mode
command. The mode of a write is judged by the conditions of its entry, which a carried write does not meet again. -/
def carriesMode7 : State :=
  { State.reset with
    pending := [.crossingBoundary]
    st.phase := 10
    cyc.running := true, cyc.k := 5, cyc.agreedK := some 5, cyc.endDone := some 5
    cyc.hubImg := Vector.replicate 2 { k := 6, closed := true }
    twin.peerWrites := [{ index := 0x2400, sub := 2, inst := 0, value := 7 }] }

/-- The mode that waits for a boundary after one step. -/
def waitingMode (o : Host.Outcome State Fault Refusal) : Option Nat :=
  match o with
  | .next t => t.sup.modePending.map (·.1)
  | _ => none

theorem modesNamed_carriesMode7 : modesNamed carriesMode7 := modesNamed_reset

theorem carriesMode7_waits : waitingMode (step carriesMode7) = some 7 := by decide +kernel

/-- A step after which a mode waits that no command can give ends in a state whose modes are not all named. -/
theorem not_modesNamed_of_waitingMode {s : State} (h : waitingMode (step s) = some 7) :
    ∃ t, step s = .next t ∧ ¬ modesNamed t := by
  cases hs : step s with
  | next t =>
    rw [hs] at h
    obtain ⟨⟨m, c⟩, hm, hm7⟩ : ∃ p, t.sup.modePending = some p ∧ p.1 = 7 := Option.map_eq_some_iff.mp h
    exact ⟨t, rfl, fun hn => absurd (hn.1.2 m c hm) (by simp at hm7; omega)⟩
  | _ => rw [hs] at h; cases h

end Sys2Proof.Machine

open Sys2Proof.Machine in
/-- Settles O53: with nothing waiting, step takes its first branch. -/
theorem emptyQueueIdles : Obligations.EmptyQueueIdles := fun _ => step_of_empty

open Sys2Proof.Machine in
/-- Settles O57: reset gives STOP with no mode waiting, live and agreed. -/
theorem resetModeNamed : Obligations.ResetModeNamed := modesNamed_reset

open Sys2Proof.Machine in
/-- Refutes O58: at a boundary a write that the twin's holder carried has its effect with no condition of the entry judged, so the
value 7 for the mode command is left for the next boundary. -/
theorem not_modesStayNamed : ¬ Obligations.ModesStayNamed := by
  intro h
  obtain ⟨t, ht, hn⟩ := not_modesNamed_of_waitingMode carriesMode7_waits
  exact hn (h carriesMode7 t modesNamed_carriesMode7 ht)

/-! PROOFS. The inputs of a crossing (O14). -/
namespace Sys2Proof.Machine

open Sys2Proof.Claims Safe

/-- The tachos have counted five since the last field sample. -/
def countedFive : State := { State.reset with tacho := Vector.replicate 4 { count := 5 } }

/-- The count that the first tacho's sample holds. -/
def sampledCount (o : Out) : Option Int :=
  match o with
  | .next t => some (getTacho t 0).sampleCount
  | _ => none

/-- A field sample takes the count of the die's tachos into their samples. -/
theorem fieldSample_takesCount : sampledCount (exec (.fieldSample 0 0 false false) countedFive) = some 5 := by decide +kernel

theorem not_fieldSampleRule : ¬ fieldSampleRule := by
  intro h
  obtain ⟨t, ht, hframe, -⟩ := h countedFive 0 0 false false rfl
  have htacho : t.tacho = countedFive.tacho := by rw [hframe]
  have hcount := fieldSample_takesCount
  rw [ht] at hcount
  simp only [sampledCount, getTacho, htacho] at hcount
  exact absurd hcount (by decide)

end Sys2Proof.Machine

open Sys2Proof.Machine in
/-- Refutes O14: a field sample writes the count of a tacho into its sample, which the clause of FIELD_SAMPLE leaves as it was. -/
theorem not_crossingInputs : ¬ Obligations.CrossingInputs := fun h => not_fieldSampleRule h.1

/-! PROOFS. Records that later records leave recorded. -/
namespace Sys2Proof.Machine

open Sys2Proof.Claims Safe

section
variable {s : State} {c : Nat}

theorem mem_nset_of_ne {α : Type} {p : Nat × α} {i : Nat} (v : α) (hne : p.1 ≠ i) : ∀ {m : NMap α}, p ∈ m → p ∈ nset m i v
  | (k, w) :: rest, hp => by
    unfold nset
    split
    · exact List.mem_cons_of_mem _ hp
    · split
      · next _ hik =>
        rcases List.mem_cons.mp hp with rfl | hr
        · exact absurd hik.symm hne
        · exact List.mem_cons_of_mem _ hr
      · rcases List.mem_cons.mp hp with rfl | hr
        · exact List.mem_cons_self
        · exact List.mem_cons_of_mem _ (mem_nset_of_ne v hne hr)

theorem onWay_deliver_of_onWay (o : Nat) (r : Record) {h : Nat} (hw : onWay s h c) : onWay (deliver s o r) h c := by
  obtain ⟨x, hx, hcode⟩ := hw
  refine ⟨x, ?_, hcode⟩
  unfold getHub deliver vget at *
  by_cases hh : h < 2
  · simp only [hh, dite_true, Vector.getElem_mapIdx] at *
    split
    · exact hx
    · exact List.mem_append_left _ hx
  · simp [hh] at hx

theorem recorded_deliver (o : Nat) (r : Record) (hrec : recorded s c) : recorded (deliver s o r) c := by
  obtain ⟨origin, ho, hway | hsup⟩ := hrec
  · refine ⟨origin, ho, .inl fun h hh hup he => ?_⟩
    rw [hubUp_deliver] at hup
    exact onWay_deliver_of_onWay o r (hway h hh hup he)
  · exact ⟨origin, ho, .inr hsup⟩

/-- A bucket of another code's pair is none that suppresses this code. -/
theorem recorded_nset_supBuckets {k : Nat} (b : Bucket) (hk : k % 65536 ≠ c) (hrec : recorded s c) :
    recorded { s with sup.buckets := nset s.sup.buckets k b } c := by
  obtain ⟨origin, ho, hway | ⟨p, hp, hpc, hrun⟩⟩ := hrec
  · exact ⟨origin, ho, .inl hway⟩
  · refine ⟨origin, ho, .inr ⟨p, ?_, hpc, hrun⟩⟩
    rcases List.mem_append.mp hp with hs | hr
    · exact List.mem_append_left _ (mem_nset_of_ne b (by rintro rfl; exact hk hpc) hs)
    · exact List.mem_append_right _ hr

theorem recorded_nset_recdBuckets {k : Nat} (b : Bucket) (hk : k % 65536 ≠ c) (hrec : recorded s c) :
    recorded { s with recd.buckets := nset s.recd.buckets k b } c := by
  obtain ⟨origin, ho, hway | ⟨p, hp, hpc, hrun⟩⟩ := hrec
  · exact ⟨origin, ho, .inl hway⟩
  · refine ⟨origin, ho, .inr ⟨p, ?_, hpc, hrun⟩⟩
    rcases List.mem_append.mp hp with hs | hr
    · exact List.mem_append_left _ hs
    · exact List.mem_append_right _ (mem_nset_of_ne b (by rintro rfl; exact hk hpc) hr)

theorem recorded_bump (e : Entry) : recorded (bump s e) c ↔ recorded s c :=
  recorded_congr c (bump_hubs ..) (bump_ilinks ..) (bump_sup_buckets ..) (congrArg Recorder.buckets (bump_recd ..))

theorem recorded_judged (ok : Bool) (o : Nat) (r : Record) (hrec : recorded s c) :
    recorded (if ok then (true, deliver s o r) else (false, bump s E.recSuppressed)).2 c := by
  cases ok
  · exact (recorded_bump _).mpr hrec
  · exact recorded_deliver _ _ hrec

/-- A record leaves recorded what was: one of another code touches neither that code's records nor its buckets, and one of the same
code is itself recorded. -/
theorem recorded_emitJ_of_recorded {origin code : Nat} (t src sev : Nat) (data : List Byte) (stall : Nat) (ho : origin < 3)
    (hcode : code < 65536) (hrec : recorded s c) : recorded (emitJ s origin t src code sev data stall).2 c := by
  by_cases hcc : code = c
  · subst hcc
    exact ⟨origin, ho, recordedFrom_emitJ _ _ _ _ _ _ _ _ hcode⟩
  · have hk : pairKey origin src code % 65536 ≠ c := by
      unfold pairKey
      omega
    have hbucket : ∀ b : Bucket, recorded
        (if origin = 0 then { s with sup.buckets := nset s.sup.buckets (pairKey origin src code) b }
          else { s with recd.buckets := nset s.recd.buckets (pairKey origin src code) b }) c := by
      intro b
      split
      · exact recorded_nset_supBuckets b hk hrec
      · exact recorded_nset_recdBuckets b hk hrec
    unfold emitJ
    dsimp only
    split
    · exact recorded_deliver _ _ hrec
    · exact recorded_judged _ _ _ (hbucket _)

theorem recorded_emitL_of_recorded {code : Nat} (src sev : Nat) (data : List Byte) (stall : Nat) (hcode : code < 65536)
    (hrec : recorded s c) : recorded (emitL s src code sev data stall) c :=
  recorded_emitJ_of_recorded _ _ _ _ _ (by decide) hcode hrec

end

end Sys2Proof.Machine

/-! PROOFS. The forces (O25). -/
namespace Sys2Proof.Machine

open Sys2Proof.Claims Safe

section
variable (s : State) (kind ch : Nat)

theorem forcedAs_eq (m : NMap Force) : forcedAs s kind m = setForces s kind m := rfl

theorem bare_setForces (m : NMap Force) : bare (setForces s kind m) = setForces (bare s) kind m := by
  unfold setForces
  split
  · rfl
  · split <;> rfl

theorem recorded_setForces (m : NMap Force) (c : Nat) : recorded (setForces s kind m) c ↔ recorded s c := by
  unfold setForces
  split
  · rfl
  · split <;> rfl

/-! ## One force -/

theorem dropForce_does (cause : Nat) (h : nhas (forcesOf s kind) ch = true) :
    recorded (dropForce s kind ch cause) 0x2053 ∧
      noted (forcedAs s kind (nerase (forcesOf s kind) ch)) (dropForce s kind ch cause) := by
  unfold dropForce
  rw [if_pos h]
  exact ⟨recorded_emitL _ _ _ _ _ _ (by decide), bare_emitL ..⟩

theorem putForce_does (v ctx : Nat) :
    recorded (putForce s kind ch v ctx) 0x2052 ∧
      noted (forcedAs s kind (nset (forcesOf s kind) ch { value := v, expires := s.cyc.tk + gv s E.forceTimeout * 1000000000 }))
        (putForce s kind ch v ctx) :=
  ⟨recorded_emitL _ _ _ _ _ _ (by decide), bare_emitL ..⟩

/-- An accepted write of a force entry, which is neither persistent nor of pair scope, puts the force or drops it. -/
theorem forceRule_of {mk : Nat → Nat → Instr} {e : Entry} {idx kind : Nat} {level : State → Nat → Nat → Nat}
    {lv : State → WReq → Nat} (hlv : ∀ s w, lv s w = level s w.inst w.v) (hp : e.persist = false) (hq : e.pair = false)
    (hx : ∀ s ctx v, exec (mk ctx v) s = .next (writeCmd (hForce kind lv) e ctx idx 1 v s)) : forceRule mk e idx kind level := by
  intro s ctx v ch ha hch
  subst hch
  refine ⟨fun hv hpoint harb => ⟨_, hx s ctx v, ?_⟩, fun hv hhas => ⟨_, hx s ctx v, ?_⟩⟩
  · rw [writeCmd_unblocked hp hq ha
      (by simp only [hForce, mkW, if_neg hv]; exact unblocked_of_some harb)
      (by show refuseIf (_ && safetyPoint s false kind (chosen s e ctx)) _ _ = []
          rw [hpoint, Bool.and_false]
          rfl)]
    simp only [hForce, mkW, if_neg hv, hlv]
    exact putForce_does ..
  · subst hv
    rw [writeCmd_unblocked hp hq ha (by simp [hForce, mkW]) (by simp [hForce, mkW, refuseIf])]
    exact dropForce_does s kind _ 1 hhas

/-! ## Every force of a kind -/

theorem bare_dropAll (cause : Nat) : bare (dropAll s kind cause) = setForces (bare s) kind [] := by
  unfold dropAll
  rw [bare_setForces, foldl_keeps bare _ (fun _ _ => bare_emitL ..)]

theorem recorded_foldl_emitL {α : Type} {f : State → α → State} {c : Nat}
    (hf : ∀ s a, ∃ src code sev data stall, code < 65536 ∧ f s a = emitL s src code sev data stall) :
    ∀ (l : List α) {s : State}, recorded s c → recorded (l.foldl f s) c
  | [], _, h => h
  | a :: l, s, h => by
    obtain ⟨src, code, sev, data, stall, hc, he⟩ := hf s a
    exact recorded_foldl_emitL hf l (by rw [he]; exact recorded_emitL_of_recorded _ _ _ _ hc h)

theorem recorded_dropAll_of_recorded (cause : Nat) {c : Nat} (h : recorded s c) : recorded (dropAll s kind cause) c :=
  (recorded_setForces ..).mpr (recorded_foldl_emitL (fun _ _ => ⟨_, _, _, _, _, by decide, rfl⟩) _ h)

theorem recorded_dropAll (cause : Nat) (h : forcesOf s kind ≠ []) : recorded (dropAll s kind cause) 0x2053 := by
  refine (recorded_setForces ..).mpr ?_
  obtain ⟨p, l, hl⟩ := List.exists_cons_of_ne_nil h
  rw [hl]
  exact recorded_foldl_emitL (fun _ _ => ⟨_, _, _, _, _, by decide, rfl⟩) l (recorded_emitL _ _ _ _ _ _ (by decide))

theorem forcesOf_emitL (src code sev : Nat) (data : List Byte) (stall : Nat) :
    forcesOf (emitL s src code sev data stall) kind = forcesOf s kind := by
  simp [forcesOf]

theorem forcesOf_setForces_ne {k k' : Nat} (hk : 1 ≤ k ∧ k ≤ 3) (hk' : 1 ≤ k' ∧ k' ≤ 3) (hne : k ≠ k') (m : NMap Force) :
    forcesOf (setForces s k m) k' = forcesOf s k' := by
  obtain rfl | rfl | rfl : k = 1 ∨ k = 2 ∨ k = 3 := by omega
  all_goals
    obtain rfl | rfl | rfl : k' = 1 ∨ k' = 2 ∨ k' = 3 := by omega
    all_goals simp [forcesOf, setForces] at hne ⊢

theorem forcesOf_dropAll_ne {k k' : Nat} (hk : 1 ≤ k ∧ k ≤ 3) (hk' : 1 ≤ k' ∧ k' ≤ 3) (hne : k ≠ k') (cause : Nat) :
    forcesOf (dropAll s k cause) k' = forcesOf s k' := by
  unfold dropAll
  rw [forcesOf_setForces_ne _ hk hk' hne]
  exact foldl_keeps (forcesOf · k') _ (fun _ _ => forcesOf_emitL ..) _ _

/-- FORCE_CLEAR_ALL drops the forces of each kind in turn. -/
def dropKinds : State := dropAll (dropAll (dropAll s 1 2) 2 2) 3 2

theorem noted_dropKinds : noted { s with sup.forceDi := [], sup.forceDo := [], sup.forceAi := [] } (dropKinds s) := by
  unfold noted dropKinds
  rw [bare_dropAll, bare_dropAll, bare_dropAll]
  rfl

theorem recorded_dropKinds (h : s.sup.forceDi ≠ [] ∨ s.sup.forceDo ≠ [] ∨ s.sup.forceAi ≠ []) :
    recorded (dropKinds s) 0x2053 := by
  unfold dropKinds
  rcases h with h | h | h
  · exact recorded_dropAll_of_recorded _ _ _ (recorded_dropAll_of_recorded _ _ _ (recorded_dropAll s 1 2 h))
  · refine recorded_dropAll_of_recorded _ _ _ (recorded_dropAll _ 2 2 ?_)
    rw [forcesOf_dropAll_ne s (by decide) (by decide) (by decide)]
    exact h
  · refine recorded_dropAll _ 3 2 ?_
    rw [forcesOf_dropAll_ne _ (by decide) (by decide) (by decide), forcesOf_dropAll_ne _ (by decide) (by decide) (by decide)]
    exact h

end

theorem forceEndRule_holds : forceEndRule := by
  refine ⟨fun s ctx ha => ⟨dropKinds s, ?_, noted_dropKinds s, recorded_dropKinds s⟩, fun s kind ch f hf hdue => ⟨_, rfl, ?_⟩⟩
  · exact congrArg Host.Outcome.next (writeCmd_volatile (h := hForceClear) (fun _ => rfl) rfl rfl ha rfl)
  · rw [hf]
    dsimp only
    rw [if_pos hdue]
    exact dropForce_does s _ ch 3 (by rw [nhas, hf]; rfl)

end Sys2Proof.Machine

open Sys2Proof.Machine in
/-- Settles O25: a write of a force entry that nothing refuses puts or drops one force with its record, and a clear or an expiry drops
what it names. -/
theorem forces : Obligations.Forces :=
  ⟨forceRule_of (fun _ _ => rfl) rfl rfl (fun _ _ _ => rfl), forceRule_of (fun _ _ => rfl) rfl rfl (fun _ _ _ => rfl),
    forceRule_of (fun _ _ => rfl) rfl rfl (fun _ _ _ => rfl), forceEndRule_holds⟩

/-! PROOFS. HOLD, the image map, the mode commands and the retain commits (O27). -/
namespace Sys2Proof.Machine

open Sys2Proof.Claims Safe

/-! ## HOLD and its release (R143) -/

section
variable {s : State} {w : WReq} {i : Nat} {st : Stall}

theorem holdConds_hold (hst : getStall? s w.inst = some st) (hv : w.v = 1) (hm : s.sup.mode ≠ 2) (hrun : st.state = .running)
    (hc : 2 ≤ st.desc.energyClass) (hmir : st.desc.mirrored = false) (he0 : holdHitsE0 s w.inst st = false) :
    holdConds s w = [] := by
  have hclass : ¬ st.desc.energyClass ≤ 1 := by omega
  simp [holdConds, hst, hv, hm, hrun, hclass, hmir, he0, refuseIf]

theorem holdConds_release (hst : getStall? s w.inst = some st) (hv : w.v = 2) (hheld : st.state = .held) : holdConds s w = [] := by
  simp [holdConds, hst, hv, hheld, refuseIf]

/-- The stall as a write of STALL_HOLD leaves it. -/
def heldBy (st : Stall) (v : Nat) : Stall :=
  { st with state := if v = 1 then .held else .running, exec.stopReason := if v = 1 then 5 else st.exec.stopReason }

theorem heldMode_emitL (s : State) (src code sev : Nat) (data : List Byte) (stall : Nat) :
    heldMode (emitL s src code sev data stall) = heldMode s := by
  unfold heldMode heldCount
  rw [emitL_sup_mode, emitL_sup_stalls]

theorem bare_withMode_emitL (s : State) (m src code sev : Nat) (data : List Byte) (stall : Nat) :
    bare { emitL s src code sev data stall with sup.mode := m } = bare { s with sup.mode := m } := by
  have h : ∀ u : State, bare { u with sup.mode := m } = { bare u with sup.mode := m } := fun _ => rfl
  rw [h, h, bare_emitL]

theorem recorded_holdMode (ctx : Nat) {c : Nat} (hrec : recorded s c) : recorded (holdMode s ctx) c := by
  rw [holdMode_eq]
  split
  · exact hrec
  · exact recorded_emitL_of_recorded _ _ _ _ (by decide) hrec

theorem holdEff_does (hst : getStall? s w.inst = some st) :
    recorded (holdEff s w) 0x2051 ∧
      noted { setStall s w.inst (heldBy st w.v) with sup.mode := heldMode (setStall s w.inst (heldBy st w.v)) } (holdEff s w) := by
  have heff : holdEff s w =
      holdMode (emitL (setStall s w.inst (heldBy st w.v)) (srcStall w.inst) 0x2051 1 (u8 w.v ++ u16 (ctxCode w.ctx)) w.inst)
        w.ctx := by
    unfold holdEff
    rw [updStall_eq_setStall hst]
    rfl
  rw [heff]
  refine ⟨recorded_holdMode _ (recorded_emitL _ _ _ _ _ _ (by decide)), ?_⟩
  unfold noted
  rw [noted_holdMode, heldMode_emitL, bare_withMode_emitL]

theorem heldMode_setStall (i : Nat) (st : Stall) (hm : s.sup.mode ≠ 2) :
    heldMode (setStall s i st) = if 0 < heldCount (setStall s i st) then 3 else 1 :=
  if_neg hm

theorem heldCount_setStall_pos (s : State) (i : Nat) (hheld : st.state = .held) : 0 < heldCount (setStall s i st) :=
  List.length_pos_of_mem (List.mem_filter.mpr ⟨mem_nset s.sup.stalls i st, by simp [hheld]⟩)

end

theorem holdRule_holds : holdRule := by
  intro s ctx i st hi hst hm
  subst hi
  refine ⟨fun ha hrun hclass hmir he0 harb => ⟨_, rfl, ?_⟩, fun ha hheld => ⟨_, rfl, ?_⟩⟩
  · rw [writeCmd_unblocked rfl rfl ha (unblocked_of_some harb) (holdConds_hold hst rfl hm hrun hclass hmir he0)]
    obtain ⟨hrec, hnoted⟩ := holdEff_does (w := mkW s ctx 0x2201 9 E.stallHold.len 1 E.stallHold) hst
    rw [heldMode_setStall _ _ hm, if_pos (heldCount_setStall_pos s _ rfl)] at hnoted
    exact ⟨hrec, hnoted⟩
  · rw [writeCmd_unblocked rfl rfl ha (fun _ _ _ hact => by simp [hStallHold, mkW] at hact) (holdConds_release hst rfl hheld)]
    obtain ⟨hrec, hnoted⟩ := holdEff_does (w := mkW s ctx 0x2201 9 E.stallHold.len 2 E.stallHold) hst
    rw [heldMode_setStall _ _ hm] at hnoted
    exact ⟨hrec, hnoted⟩

/-! ## The image map, the mode and the commanded CYCLE_CPF (R131, R138, R142) -/

theorem imapRule_holds : imapRule := by
  intro s ctx sub v i st ⟨hopen, hgen⟩ hi hst hc
  subst hi
  refine ⟨_, rfl, ?_⟩
  rw [writeCmd_accepted s 0x2210 sub ctx hStallImap E.stallImap v hopen hgen nofun hc]
  show filed s E.stallImap ctx 0x2210 sub v (updStall s (chosen s E.stallImap ctx) _) = _
  rw [updStall_eq_setStall hst]
  rfl

theorem cpfConds {s : State} {w : WReq} (h : ∀ c, c < 16 → coreAdmitted s c ≤ capacityFor s.cyc.c w.v) :
    hCycleCpf.conds s w = [] := by
  have hfit : (List.range 16).any (fun c => capacityFor s.cyc.c w.v < coreAdmitted s c) = false := by
    simpa using h
  simp only [hCycleCpf, hfit, Bool.and_false, refuseIf, Bool.false_eq_true, if_false]

theorem modeRule_holds : modeRule := by
  intro s ctx v
  refine ⟨fun ha hrecovery => ⟨_, rfl, ?_⟩, fun ha => ⟨_, rfl, ?_⟩, fun ha hfit => ⟨_, rfl, ?_⟩⟩
  · rw [writeCmd_volatile (fun _ => rfl) rfl rfl ha (by simp [hCycleMode, mkW, hrecovery, refuseIf])]
    by_cases hm : s.sup.mode = 2 <;> simp [hCycleMode, mkW, hm]
  · rw [writeCmd_volatile (fun _ => rfl) rfl rfl ha (by simp [hCycleMode, mkW, refuseIf])]
    simp [hCycleMode, mkW]
  · exact writeCmd_store rfl (fun _ => rfl) rfl ha (cpfConds hfit)

/-! ## The retain commits (R149) -/

/-- A list that holds a value once is that value between parts that do not hold it. -/
theorem split_of_once {l : List Nat} {i : Nat} (h : l.count i = 1) : ∃ a b, l = a ++ i :: b ∧ i ∉ a ∧ i ∉ b := by
  obtain ⟨a, b, rfl⟩ := List.append_of_mem (List.count_pos_iff.mp (h.symm ▸ Nat.one_pos))
  rw [List.count_append, List.count_cons_self] at h
  exact ⟨a, b, rfl, List.count_eq_zero.mp (by omega), List.count_eq_zero.mp (by omega)⟩

section
variable (s : State) (bad : List Nat) (i : Nat)

/-- What a commit reads and writes for one stall, and what no commit touches. -/
def retainView : Option Stall × Option Stall × Nat × Vector (Bool × Bool × Option RetainCopies) 2 × Cycle × Vector Lane 3 ×
    NMap Nat × List Egress :=
  (getStall? s i, nget? s.agreed.stalls i, nget s.sup.retainSeq i 0,
    s.hubs.map (fun h => (h.failed, h.restarting, nget? h.retain i)), s.cyc, s.lanes, s.cnt, s.egress)

/-- The copy that a commit of the stall stores. -/
def commitCopy (st g : Stall) : RetainCopy :=
  { tag := st.desc.retainTag, retainSize := st.desc.retainSize, mirrorSize := st.desc.mirrorSize
    seq := nget s.sup.retainSeq i 0 + 1, tk := s.cyc.tk, data := retainBytes g.exec.mem, valid := !(bad.contains i) }

/-- One hub's store with the copy in it. -/
def storesCopy (c : RetainCopy) (h : HubDie) : HubDie :=
  if h.failed || h.restarting then h else { h with retain := nset h.retain i (putCopy (nget h.retain i {}) c) }

variable {i} {st g : Stall}

theorem commitStall_eq (hst : getStall? s i = some st) (hg : nget? s.agreed.stalls i = some g) :
    commitStall s bad i =
      if st.admitted && retains st.desc then
        updStall { s with
          hubs := s.hubs.map (storesCopy i (commitCopy s bad i st g))
          sup.retainSeq := nset s.sup.retainSeq i (nget s.sup.retainSeq i 0 + 1)
          agreed.retainSeq := nset s.agreed.retainSeq i (nget s.sup.retainSeq i 0 + 1)
          agreed.stalls := nupd s.agreed.stalls i (fun x => { x with retainCommit := s.cyc.tk }) } i
          (fun x => { x with retainCommit := s.cyc.tk })
      else s := by
  unfold commitStall
  rw [hg, hst]
  rfl

/-- The commit of another stall. -/
theorem commitStall_other {j : Nat} (hj : j ≠ i) : retainView (commitStall s bad j) i = retainView s i := by
  unfold commitStall
  split
  · split
    · simp only [retainView, getStall?, updStall, nget?_nupd_of_ne _ _ hj.symm, nget, nget?_nset_of_ne _ _ hj.symm,
        Vector.map_map]
      congr 4
      refine Vector.map_congr_left fun h _ => ?_
      simp only [Function.comp]
      split <;> simp [nget?_nset_of_ne _ _ hj.symm]
    · rfl
  · rfl

theorem commits_other : ∀ (l : List Nat) (s : State), i ∉ l → retainView (l.foldl (commitStall · bad ·) s) i = retainView s i
  | [], _, _ => rfl
  | j :: l, s, h => by
    obtain ⟨hij, hl⟩ := not_or.mp (mt List.mem_cons.mpr h)
    rw [List.foldl_cons, commits_other l _ hl, commitStall_other s bad (Ne.symm hij)]

/-- A hub's copies of the stall after its commit, from the hub's standing and the copies before. -/
def withCopy (c : RetainCopy) (x : Bool × Bool × Option RetainCopies) : Bool × Bool × Option RetainCopies :=
  (x.1, x.2.1, if x.1 || x.2.1 then x.2.2 else some (putCopy (x.2.2.getD {}) c))

/-- The stall's own commit: its copy is in the store of each hub in operation. -/
theorem commitStall_self (hst : getStall? s i = some st) (hg : nget? s.agreed.stalls i = some g) (hadm : st.admitted = true)
    (hret : retains st.desc = true) :
    retainView (commitStall s bad i) i =
      (some { st with retainCommit := s.cyc.tk }, some { g with retainCommit := s.cyc.tk }, nget s.sup.retainSeq i 0 + 1,
        (s.hubs.map (fun h => (h.failed, h.restarting, nget? h.retain i))).map (withCopy (commitCopy s bad i st g)),
        s.cyc, s.lanes, s.cnt, s.egress) := by
  rw [commitStall_eq s bad hst hg, hadm, hret]
  simp only [getStall?] at hst
  simp only [Bool.and_self, if_true, retainView, getStall?, updStall, nget?_nupd_self, nget_nset_self, Vector.map_map, hst, hg,
    Option.map_some]
  congr 4
  refine Vector.map_congr_left fun h _ => ?_
  simp only [Function.comp, storesCopy, withCopy, nget]
  split <;> simp_all

/-- A pass that comes to a stall once commits it as the state before the pass has it. -/
theorem commitAll_once (honce : (s.sup.stalls.map Prod.fst).count i = 1) (hst : getStall? s i = some st)
    (hg : nget? s.agreed.stalls i = some g) (hadm : st.admitted = true) (hret : retains st.desc = true) :
    retainView (commitAll s bad) i =
      (some { st with retainCommit := s.cyc.tk }, some { g with retainCommit := s.cyc.tk }, nget s.sup.retainSeq i 0 + 1,
        (s.hubs.map (fun h => (h.failed, h.restarting, nget? h.retain i))).map (withCopy (commitCopy s bad i st g)),
        s.cyc, s.lanes, s.cnt, s.egress) := by
  obtain ⟨before, after, hids, hb, ha⟩ := split_of_once honce
  have hview := commits_other bad before s hb
  unfold commitAll
  rw [hids, List.foldl_append, List.foldl_cons, commits_other bad after _ ha]
  generalize before.foldl (commitStall · bad ·) s = u at hview
  simp only [retainView, Prod.mk.injEq] at hview
  obtain ⟨hust, hug, huseq, huhubs, hucyc, hulanes, hucnt, hueg⟩ := hview
  rw [commitStall_self u bad (hust.trans hst) (hug.trans hg) hadm hret]
  simp only [commitCopy, huseq, huhubs, hucyc, hulanes, hucnt, hueg]

end

theorem retainRule_holds : retainRule := by
  intro s bad i st g c hrun hpf hlost hmis honce hst hg hadm hret hc
  have hcount : (s.sup.stalls.map Prod.fst).count i = 1 := by
    rw [List.count_eq_length_filter, List.filter_map, List.length_map, ← honce]
    rfl
  have hc' : commitCopy s bad i st g = c := hc.symm
  have hview := commitAll_once s bad hcount hst hg hadm hret
  simp only [retainView, Prod.mk.injEq, hc'] at hview
  obtain ⟨hst', -, hseq, hhubs, hcyc, hlanes, hcnt, heg⟩ := hview
  refine ⟨commitAll s bad, ?_, hst', by rw [hseq, hc], fun h hh hup => ?_, hcyc, hlanes, hcnt, heg⟩
  · show execRetainCommitPass bad s = _
    unfold execRetainCommitPass
    rw [hrun, hpf, hlost, hmis]
    rfl
  · have hhub := congrArg (·[h]) hhubs
    simp only [Vector.getElem_map, withCopy, Prod.mk.injEq] at hhub
    obtain ⟨-, -, hcopies⟩ := hhub
    simp only [hubUp, getHub, vget, hh, dite_true] at hup ⊢
    rw [hcopies, nget]
    simp_all

end Sys2Proof.Machine

open Sys2Proof.Machine in
/-- Settles O27: a write that nothing refuses has its handler's effect, and a pass commits each stall on its own. -/
theorem holdAndModes : Obligations.HoldAndModes := ⟨holdRule_holds, imapRule_holds, modeRule_holds, retainRule_holds⟩

/-! PROOFS. Values and counters of entries that a record leaves alone. -/
namespace Sys2Proof.Machine

open Sys2Proof.Claims Safe

section
variable (s : State) {e : Entry} {idx sub inst : Nat}

/-- The key of the count of suppressed records, which every record may raise. -/
def suppressedKey : Nat := ekey E.recSuppressed.idx E.recSuppressed.sub 0

/-- A value that no setting holds and no record raises. -/
def plainCount (e : Entry) (idx sub inst : Nat) : Prop := e.sup = false ∧ ekey idx sub inst ≠ suppressedKey

variable (h : plainCount e idx sub inst)
include h

theorem gvx_bare : gvx (bare s) e idx sub inst = gvx s e idx sub inst := by
  obtain ⟨hsup, hkey⟩ := h
  unfold gvx
  rw [hsup]
  show dval (nset s.cnt suppressedKey 0) e idx sub inst = dval s.cnt e idx sub inst
  unfold dval
  rw [nget_nset_of_ne _ _ _ hkey]

theorem bare_svx (v : Nat) : bare (svx s e idx sub inst v) = svx (bare s) e idx sub inst v := by
  obtain ⟨hsup, hkey⟩ := h
  unfold svx
  rw [hsup]
  show { bare s with cnt := nset (nset s.cnt (ekey idx sub inst) v) suppressedKey 0 } =
    { bare s with cnt := nset (nset s.cnt suppressedKey 0) (ekey idx sub inst) v }
  rw [nset_comm _ _ _ hkey]

theorem bare_bumpx (n : Nat) : bare (bumpx s e idx sub inst n) = bumpx (bare s) e idx sub inst n := by
  unfold bumpx
  rw [bare_svx _ h, gvx_bare _ h]

end

theorem bare_updLane (s : State) (l : Nat) (f : Lane → Lane) : bare (updLane s l f) = updLane (bare s) l f := rfl

theorem plainCount_lane {e : Entry} {l : Nat} (hsup : e.sup = false) (hidx : e.idx = 0x2001) (hsub : e.sub < 256) (hl : l < 3) :
    plainCount e e.idx e.sub l :=
  ⟨hsup, by
    have hs : suppressedKey = 0x5000 * 16777216 + 5 * 65536 := rfl
    rw [hs, ekey, hidx]
    omega⟩

theorem bare_bumpi_lane (s : State) {e : Entry} {l : Nat} (hsup : e.sup = false) (hidx : e.idx = 0x2001) (hsub : e.sub < 256)
    (hl : l < 3) : bare (bumpi s e l) = bumpi (bare s) e l :=
  bare_bumpx s (plainCount_lane hsup hidx hsub hl) 1

theorem bare_svi_lane (s : State) {e : Entry} {l : Nat} (hsup : e.sup = false) (hidx : e.idx = 0x2001) (hsub : e.sub < 256)
    (hl : l < 3) (v : Nat) : bare (svi s e l v) = svi (bare s) e l v :=
  bare_svx s (plainCount_lane hsup hidx hsub hl) v

/-! ## Two changes of one element -/

theorem vupd_vupd {α : Type} {n : Nat} (v : Vector α n) (i : Nat) (f g : α → α) : vupd (vupd v i f) i g = vupd v i (g ∘ f) := by
  unfold vupd
  split <;> simp

/-- Only what a change makes of the element itself matters. -/
theorem vupd_congr {α : Type} {n : Nat} (v : Vector α n) (i : Nat) {f g : α → α} (d : α) (h : f (vget v i d) = g (vget v i d)) :
    vupd v i f = vupd v i g := by
  unfold vupd vget at *
  split
  · next hi => rw [dif_pos hi] at h; rw [h]
  · rfl

theorem updLane_updLane (s : State) (l : Nat) (f g : Lane → Lane) : updLane (updLane s l f) l g = updLane s l (g ∘ f) := by
  unfold updLane
  rw [vupd_vupd]

theorem updLane_congr (s : State) (l : Nat) {f g : Lane → Lane} (h : f (getLane s l) = g (getLane s l)) :
    updLane s l f = updLane s l g := by
  unfold updLane
  rw [vupd_congr _ _ _ h]

end Sys2Proof.Machine

/-! PROOFS. The lane set (O16). -/
namespace Sys2Proof.Machine

open Sys2Proof.Claims Safe

section
variable {s : State} {c : Nat}

/-! ## A loss of the module leaves recorded what was -/

theorem recorded_setLease (new t : Nat) (h : recorded s c) : recorded (setLease s new t) c := by
  unfold setLease
  dsimp only
  split
  · exact h
  · refine recorded_emitL_of_recorded _ _ _ _ (by decide) ?_
    split
    · exact (recorded_bump _).mpr h
    · exact h

theorem recorded_ceaseLease (t : Nat) (h : recorded s c) : recorded (ceaseLease s t) c := by
  unfold ceaseLease
  split
  · exact recorded_setLease _ _ h
  · exact h

theorem recorded_refreshLease (h : recorded s c) : recorded (refreshLease s) c := by
  unfold refreshLease
  dsimp only
  split
  · exact h
  · exact recorded_emitL_of_recorded _ _ _ _ (by decide) h

theorem recorded_twinSend (l t : Nat) (kind : EgKind) (b n : Nat) (data : List Byte) (h : recorded s c) :
    recorded (twinSend s l t kind b n data) c := by
  unfold twinSend
  split
  · exact h
  · exact h

theorem recorded_foldl {α : Type} {f : State → α → State} (hf : ∀ s a, recorded s c → recorded (f s a) c) :
    ∀ (l : List α) {s : State}, recorded s c → recorded (l.foldl f s) c
  | [], _, h => h
  | a :: l, _, h => recorded_foldl hf l (hf _ a h)

theorem recorded_releaseLease (t : Nat) (h : recorded s c) : recorded (releaseLease s t) c := by
  unfold releaseLease
  refine recorded_refreshLease (recorded_ceaseLease _ (recorded_foldl (fun _ _ hu => ?_) _ h))
  exact recorded_foldl (fun _ _ hv => recorded_twinSend _ _ _ _ _ _ hv) _ hu

/-- A change of every hub that leaves its records on their way, and whether it is in operation. -/
theorem recorded_mapHubs {f : HubDie → HubDie} (hf : ∀ d, (f d).failed = d.failed ∧ (f d).restarting = d.restarting ∧
    (f d).inflight = d.inflight) (h : recorded s c) : recorded { s with hubs := s.hubs.map f } c := by
  obtain ⟨origin, ho, hway | hsup⟩ := h
  · refine ⟨origin, ho, .inl fun j hj hup he => ?_⟩
    have hhub : getHub { s with hubs := s.hubs.map f } j = f (getHub s j) := by simp [getHub, vget, hj]
    obtain ⟨hfailed, hrest, hfl⟩ := hf (getHub s j)
    unfold hubUp at hup
    rw [hhub, hfailed, hrest] at hup
    unfold onWay
    rw [hhub, hfl]
    exact hway j hj hup he
  · exact ⟨origin, ho, .inr hsup⟩

/-- A hub whose voter is to command the programmed safe states. -/
def safeHub (d : HubDie) : HubDie := { d with voter.safeCmd := true, voter.words := [], voter.items := [] }

/-- The module once its stalls have stopped and its lease is released. -/
def lostState (s : State) : State :=
  { s with
    agree.lost := true
    st.fatal := true
    cyc.runs := Vector.replicate 16 {}
    sup.outs := []
    hubs := s.hubs.map safeHub }

theorem moduleLost_eq (cause : Nat) (hlost : s.agree.lost = false) :
    moduleLost s cause =
      (let u := emitL s (srcHub 0) 0x2065 4 (u8 cause ++ u64 s.cyc.k)
       lostState (releaseLease u u.cyc.tk)) := by
  unfold moduleLost
  rw [if_neg (by rw [hlost]; decide)]
  rfl

theorem recorded_lostState (h : recorded s c) : recorded (lostState s) c :=
  (recorded_mapHubs (fun _ => ⟨rfl, rfl, rfl⟩) h : recorded { s with hubs := s.hubs.map safeHub } c)

theorem moduleLost_does (cause : Nat) (hlost : s.agree.lost = false) :
    recorded (moduleLost s cause) 0x2065 ∧ (recorded s c → recorded (moduleLost s cause) c) ∧
      (moduleLost s cause).agree.lost = true ∧ (moduleLost s cause).sup.outs = [] ∧
      ∀ h, h < 2 → (getHub (moduleLost s cause) h).voter.safeCmd = true := by
  rw [moduleLost_eq cause hlost]
  refine ⟨recorded_lostState (recorded_releaseLease _ (recorded_emitL _ _ _ _ _ _ (by decide))), fun h => ?_, rfl, rfl,
    fun h hh => by simp [lostState, safeHub, getHub, vget, hh]⟩
  exact recorded_lostState (recorded_releaseLease _ (recorded_emitL_of_recorded _ _ _ _ (by decide) h))

end

/-! ## Lag and lane faults (R123, R157) -/

/-- A lane counts among those that lag in this crossing. -/
def lagNoted (s : State) (l : Nat) : State :=
  { s with cyc.lagLanes := if s.cyc.lagLanes.contains l then s.cyc.lagLanes else s.cyc.lagLanes ++ [l] }

theorem lagNoted_eq (s : State) (l : Nat) :
    (if s.cyc.lagLanes.contains l then s else { s with cyc.lagLanes := s.cyc.lagLanes ++ [l] }) = lagNoted s l := by
  unfold lagNoted
  split <;> rfl

theorem recorded_lagNoted (s : State) (l c : Nat) : recorded (lagNoted s l) c ↔ recorded s c := Iff.rfl

theorem bare_lagNoted (s : State) (l : Nat) : bare (lagNoted s l) = lagNoted (bare s) l := rfl

theorem timingLagRule_holds : timingLagRule := by
  intro s lane core hin hlost
  have hstate : (getLane s lane.val).state = .inSet := by simpa [inSet] using hin
  refine ⟨lagNoted (emitL s (srcLane lane.val) 0x2049 2 (u64 s.cyc.k ++ u8 core.val)) lane.val, ?_,
    (recorded_lagNoted ..).mpr (recorded_emitL s _ _ _ _ _ (by decide)), ?_⟩
  · show execTimingLag lane core s = _
    unfold execTimingLag
    dsimp only
    rw [if_pos (by rw [hin, hlost]; rfl), hstate, if_neg (by decide), lagNoted_eq]
  · show bare (lagNoted _ _) = bare (lagNoted s lane.val)
    rw [bare_lagNoted, bare_emitL, bare_lagNoted]

theorem recorded_setChanged (s : State) (c : Nat) : recorded { s with perf.setChanged := true } c ↔ recorded s c := Iff.rfl

theorem recorded_bumpi (s : State) (e : Entry) (i c : Nat) : recorded (bumpi s e i) c ↔ recorded s c :=
  recorded_congr c (bumpi_hubs ..) (bumpi_ilinks ..) (bumpi_sup_buckets ..) (congrArg Recorder.buckets (bumpi_recd ..))

theorem recorded_svi (s : State) (e : Entry) (i v c : Nat) : recorded (svi s e i v) c ↔ recorded s c :=
  recorded_congr c (svi_hubs ..) (svi_ilinks ..) (svi_sup_buckets ..) (congrArg Recorder.buckets (svi_recd ..))

theorem recorded_updLane (s : State) (l : Nat) (f : Lane → Lane) (c : Nat) : recorded (updLane s l f) c ↔ recorded s c := Iff.rfl

theorem recorded_faultNoted (s : State) (l cause det : Nat) : recorded (faultNoted s l cause det) 0x2060 := by
  unfold faultNoted
  rw [recorded_updLane, recorded_bumpi]
  exact recorded_emitL _ _ _ _ _ _ (by decide)

theorem getLane_faultNoted (s : State) {l : Nat} (cause det : Nat) (hl : l < 3) :
    (getLane (faultNoted s l cause det) l).cause = cause := by
  unfold faultNoted getLane
  rw [show (updLane (bumpi (emitL s (srcLane l) 0x2060 2 (u8 cause ++ u64 s.cyc.k ++ u16 det)) E.laneFaults l) l
    (fun d => { d with cause := cause })).lanes = vupd _ l (fun d => { d with cause := cause }) from rfl, vget_vupd_self _ _ _ _ hl]

theorem bare_faultNoted (s : State) {l : Nat} (cause det : Nat) (hl : l < 3) :
    bare (faultNoted s l cause det) = updLane (bumpi (bare s) E.laneFaults l) l (fun d => { d with cause := cause }) := by
  unfold faultNoted
  rw [bare_updLane, bare_bumpi_lane _ rfl rfl (by decide) hl, bare_emitL]

section
variable {s : State} {l : Nat} (cause det : Nat) (named : List Nat) (ex : Bool) (hin : inSet s l = true)
  (hlost : s.agree.lost = false) (hcause : 5 < cause) (h11 : cause ≠ 11)
include hin hlost h11

/-- A lane fault of a lane in a set of three. -/
theorem laneFault_leaves (hn : 3 ≤ (laneSet s).length) :
    laneFault s l cause det named ex =
      updLane (svi { faultNoted s l cause det with perf.setChanged := true } E.laneAbandoned l 0) l
        (fun d => { d with state := .out, resetDue := true, halted := true, retryAt := none }) := by
  have hstate : (getLane s l).state = .inSet := by simpa [inSet] using hin
  have hmany : ¬ (laneSet s).length ≤ 2 := by omega
  rw [laneFault_eq]
  simp [hstate, hlost, h11, hmany]

include hcause in
/-- A fault of the lane's own in a set of two or fewer. -/
theorem laneFault_loses (hn : (laneSet s).length ≤ 2) :
    laneFault s l cause det named ex =
      moduleLost (updLane (faultNoted s l cause det) l fun d => { d with state := .out, halted := true }) 4 := by
  have hstate : (getLane s l).state = .inSet := by simpa [inSet] using hin
  have hbig : ¬ cause ≤ 5 := by omega
  rw [laneFault_eq]
  simp [hstate, hlost, h11, hn, hbig]

end

theorem releaseLease_lanes (s : State) (t : Nat) : (releaseLease s t).lanes = s.lanes := by
  have hsend : ∀ (u : State) (l t : Nat) (kind : EgKind) (b n : Nat) (data : List Byte),
      (twinSend u l t kind b n data).lanes = u.lanes := fun u l t kind b n data => by
    unfold twinSend
    split <;> rfl
  have hset : ∀ (u : State) (new t : Nat), (setLease u new t).lanes = u.lanes := fun u new t => by
    unfold setLease
    dsimp only
    split
    · rfl
    · split <;> simp
  have hrefresh : ∀ u : State, (refreshLease u).lanes = u.lanes := fun u => by
    unfold refreshLease
    dsimp only
    split <;> simp
  have hcease : ∀ (u : State) (t : Nat), (ceaseLease u t).lanes = u.lanes := fun u t => by
    unfold ceaseLease
    split
    · exact hset ..
    · rfl
  unfold releaseLease
  dsimp only
  rw [hrefresh, hcease, foldl_keeps State.lanes _ (fun u n => foldl_keeps State.lanes _ (fun _ _ => hsend ..) _ _)]
  rfl

theorem moduleLost_lanes (s : State) (cause : Nat) : (moduleLost s cause).lanes = s.lanes := by
  unfold moduleLost
  split
  · rfl
  · exact (releaseLease_lanes ..).trans (emitL_lanes ..)

/-- A lane of a set of three has left it after a fault. -/
theorem noted_laneFault_leaves (s : State) {l : Nat} (cause det : Nat) (hl : l < 3) :
    noted (updLane (svi { bumpi s E.laneFaults l with perf.setChanged := true } E.laneAbandoned l 0) l (fun d =>
        { d with cause := cause, state := .out, resetDue := true, halted := true, retryAt := none }))
      (updLane (svi { faultNoted s l cause det with perf.setChanged := true } E.laneAbandoned l 0) l
        (fun d => { d with state := .out, resetDue := true, halted := true, retryAt := none })) := by
  have hperf : ∀ u : State, bare { u with perf.setChanged := true } = { bare u with perf.setChanged := true } := fun _ => rfl
  unfold noted
  rw [bare_updLane, bare_updLane, bare_svi_lane _ rfl rfl (by decide) hl, bare_svi_lane _ rfl rfl (by decide) hl, hperf, hperf,
    bare_faultNoted _ _ _ hl, bare_bumpi_lane _ rfl rfl (by decide) hl]
  exact updLane_updLane (svi { bumpi (bare s) E.laneFaults l with perf.setChanged := true } E.laneAbandoned l 0) l
    (fun d => { d with cause := cause }) (fun d => { d with state := .out, resetDue := true, halted := true, retryAt := none })

theorem laneErrorRule_holds : laneErrorRule := by
  intro s lane core i hin hlost
  refine ⟨fun hn => ⟨_, rfl, ?_⟩, fun hn => ⟨_, rfl, ?_⟩⟩
  · rw [laneFault_leaves 7 _ [] true hin hlost (by decide) hn]
    refine ⟨?_, noted_laneFault_leaves s 7 _ lane.isLt⟩
    rw [recorded_updLane, recorded_svi, recorded_setChanged]
    exact recorded_faultNoted s lane 7 (srcLane lane)
  · rw [laneFault_loses 7 _ [] true hin hlost (by decide) (by decide) hn]
    have hnoted : recorded (faultNoted s lane 7 (srcLane lane)) 0x2060 := recorded_faultNoted ..
    have hagree : (faultNoted s lane 7 (srcLane lane)).agree.lost = false := by
      unfold faultNoted
      simpa using hlost
    have hlane := getLane_faultNoted s 7 (srcLane lane) lane.isLt
    generalize faultNoted s lane 7 (srcLane lane) = u at hnoted hagree hlane
    obtain ⟨hloss, hkeeps, hgone, houts, hsafe⟩ := moduleLost_does (c := 0x2060)
      (s := updLane u lane fun d => { d with state := .out, halted := true }) 4 hagree
    have hout : getLane (moduleLost (updLane u lane fun d => { d with state := .out, halted := true }) 4) lane =
        { getLane u lane with state := .out, halted := true } := by
      unfold getLane
      rw [moduleLost_lanes]
      exact vget_vupd_self _ _ _ _ lane.isLt
    refine ⟨hkeeps hnoted, hloss, by rw [hout], by rw [hout]; exact hlane, hgone, houts, hsafe⟩

end Sys2Proof.Machine

namespace Sys2Proof.Machine

open Sys2Proof.Claims Safe

/-! ## The end of a mismatch restart (R180) -/

theorem getLane_updLane (s : State) (l j : Nat) (f : Lane → Lane) :
    getLane (updLane s l f) j = if j = l ∧ l < 3 then f (getLane s l) else getLane s j :=
  vget_vupd ..

theorem laneSet_updLane (s : State) (l : Nat) {f : Lane → Lane} (hf : ∀ d, (f d).state = d.state) :
    laneSet (updLane s l f) = laneSet s := by
  refine List.filter_congr fun j _ => ?_
  unfold inSet
  rw [getLane_updLane]
  split
  · next h => rw [hf, h.1]
  · rfl

/-- After a lane's restart those of the set that have still to complete theirs are the others. -/
theorem rollbacks_updLane (s : State) (lane : Fin 3) :
    (laneSet (updLane s lane fun d => { d with rollback := false })).all
        (fun l => !(getLane (updLane s lane fun d => { d with rollback := false }) l).rollback) =
      (laneSet s).all (fun l => l = lane.val || !(getLane s l).rollback) := by
  rw [laneSet_updLane s lane.val (f := fun d => { d with rollback := false }) (fun _ => rfl)]
  congr 1
  funext l
  rw [getLane_updLane]
  by_cases h : l = lane.val <;> simp [h]

theorem rollbackRule_holds : rollbackRule := by
  intro s lane hroll
  refine ⟨_, rfl, ?_⟩
  rw [if_pos hroll]
  dsimp only
  rw [rollbacks_updLane]
  show (if s.agree.mismatch && _ then _ else _) = _
  split
  · next h => rw [h, Bool.or_true]; rfl
  · next h => rw [Bool.not_eq_true _ |>.mp h, Bool.or_false]; rfl

/-! ## Re-stabling (R175, R178, 20 R497) -/

theorem restableCmdRule_holds : restableCmdRule := by
  intro s ctx v ha hout hnone
  refine ⟨_, rfl, ?_⟩
  rw [writeCmd_volatile (h := hRestableCmd) (fun _ => rfl) rfl rfl ha (by simp [hRestableCmd, mkW, hout, refuseIf])]
  show (if (getLane s v).attempt.isSome = true then s else updLane s v _) = _
  rw [hnone]
  exact updLane_congr s v rfl

theorem laneResetDoneRule_holds : laneResetDoneRule := by
  intro s lane i hres
  refine ⟨_, rfl, ?_⟩
  rw [if_pos hres]
  refine updLane_congr s lane ?_
  cases (getLane s lane).attempt with
  | none => rfl
  | some a => cases hs : a.start <;> simp [hs]

theorem bulkDoneRule_holds : bulkDoneRule := by
  intro s lane a ha hphase hbulk
  refine ⟨_, rfl, ?_⟩
  rw [ha]
  dsimp only
  rw [if_pos (by rw [hphase, hbulk]; rfl)]
  rfl

/-- An attempt abandoned, its record apart. -/
def abandoned (s : State) (l : Nat) : State :=
  let n := gvi (bumpi s E.laneAbandoned l) E.laneAbandoned l
  updLane (bumpi s E.laneAbandoned l) l (fun d => { d with
    attempt := none
    state := if 3 ≤ n then .failed else .out
    retryAt := if 3 ≤ n then none else some (s.cyc.tk + 1000000000) })

theorem abandon_eq (s : State) (l cause : Nat) {a : Attempt} (ha : (getLane s l).attempt = some a) :
    abandon s l cause = abandoned (emitL s (srcLane l) 0x2063 2 (u8 a.phase ++ u8 a.number ++ u8 cause)) l := by
  unfold abandon
  rw [ha]
  rfl

theorem bare_abandoned (s : State) {l : Nat} (hl : l < 3) : bare (abandoned s l) = abandoned (bare s) l := by
  unfold abandoned
  dsimp only
  rw [bare_updLane, bare_bumpi_lane _ rfl rfl (by decide) hl, ← bare_bumpi_lane _ rfl rfl (by decide) hl,
    gvi, gvi, gvx_bare _ (plainCount_lane rfl rfl (by decide) hl)]
  rfl

theorem recorded_abandoned (s : State) (l c : Nat) : recorded (abandoned s l) c ↔ recorded s c := by
  unfold abandoned
  dsimp only
  rw [recorded_updLane, recorded_bumpi]

theorem restableLimitRule_holds : restableLimitRule := by
  intro s lane a t0 n ha hstart hphase hdue hn
  subst hn
  refine ⟨_, rfl, ?_⟩
  rw [ha]
  dsimp only
  rw [hstart]
  dsimp only
  rw [if_pos (by simp [hphase, hdue]), abandon_eq s lane 0 ha]
  refine ⟨(recorded_abandoned ..).mpr (recorded_emitL _ _ _ _ _ _ (by decide)), ?_⟩
  show bare (abandoned _ _) = bare (abandoned s lane)
  rw [bare_abandoned _ lane.isLt, bare_emitL, bare_abandoned _ lane.isLt]

/-! ## A lane's reset (R497) -/

section
variable (s : State) {e e' : Entry} {idx sub inst idx' sub' inst' : Nat}

theorem gvx_svx_self (h : e.sup = false) (v : Nat) : gvx (svx s e idx sub inst v) e idx sub inst = v := by
  unfold gvx svx
  rw [h]
  simp [dval]

theorem gvx_svx_of_ne (h : e.sup = false) (h' : e'.sup = false) (hkey : ekey idx sub inst ≠ ekey idx' sub' inst') (v : Nat) :
    gvx (svx s e' idx' sub' inst' v) e idx sub inst = gvx s e idx sub inst := by
  unfold gvx svx
  rw [h, h']
  simp [dval, nget_nset_of_ne _ _ _ hkey]

theorem commandReset_eq (l : Nat) (f : Lane → Lane) : updLane (commandReset s l) l f = laneReset s l f := by
  have h := updLane_updLane s l (fun d => { d with resetting := true, resetDue := false, keys := false, halted := true }) f
  unfold laneReset
  dsimp only
  rw [← show _ = updLane s l (fun d => f { d with resetting := true, resetDue := false, keys := false, halted := true }) from h]
  rfl

theorem abandoned_commandReset {l : Nat} (hl : l < 3) : gvi (commandReset s l) E.laneAbandoned l = gvi s E.laneAbandoned l :=
  gvx_svx_of_ne (e := E.laneAbandoned) (e' := E.resetCounts) _ rfl rfl
    (by simp only [ekey, E.laneAbandoned, E.resetCounts]; omega) _

/-- What a lane becomes by LANE_RESET, beside its reset. -/
def freshLane (auto : Nat) (d : Lane) : Lane :=
  { d with state := .out, retryAt := none, attempt := if auto = 1 then some { phase := 1, number := 1 } else none }

theorem hLaneReset_conds {w : WReq} (h : (getLane s w.inst).state = .out ∨ (getLane s w.inst).state = .failed) :
    hLaneReset.conds s w = [] := by
  rcases h with h | h <;> simp [hLaneReset, h, refuseIf]

theorem hLaneReset_eff {w : WReq} (hv : w.v ≠ 0) :
    hLaneReset.eff s w = svi (laneReset s w.inst (freshLane (gv s E.restableAuto))) E.laneAbandoned w.inst 0 := by
  have hnumber : (newAttempt (svi (commandReset s w.inst) E.laneAbandoned w.inst 0) w.inst 1) = { phase := 1, number := 1 } := by
    unfold newAttempt
    rw [gvi, svi, gvx_svx_self _ rfl]
  have hauto : gv (svi (commandReset s w.inst) E.laneAbandoned w.inst 0) E.restableAuto = gv s E.restableAuto := rfl
  show (if w.v = 0 then s else _) = _
  rw [if_neg hv, hnumber, hauto, ← commandReset_eq]
  rfl

end

theorem laneResetRule_holds : laneResetRule := by
  intro s ctx l ha hl hl3 hstate
  subst hl
  refine ⟨_, rfl, ?_⟩
  rw [writeCmd_volatile (h := hLaneReset) (fun _ => rfl) rfl rfl ha (hLaneReset_conds s hstate), hLaneReset_eff s Nat.one_ne_zero]
  rfl

theorem restableRetryRule_holds : restableRetryRule := by
  intro s lane r hr hout hdue
  refine ⟨_, rfl, ?_⟩
  dsimp only
  rw [hr]
  dsimp only
  rw [if_pos (by simp [hout, hdue]), newAttempt, abandoned_commandReset s lane.isLt, commandReset_eq]

end Sys2Proof.Machine

open Sys2Proof.Machine in
/-- Settles O16: each command leaves the lane as its rule says, with a loss of the module where two lanes or fewer were left. -/
theorem laneSet : Obligations.LaneSet :=
  ⟨timingLagRule_holds, laneErrorRule_holds, rollbackRule_holds, restableCmdRule_holds, laneResetRule_holds, laneResetDoneRule_holds,
    bulkDoneRule_holds, restableLimitRule_holds, restableRetryRule_holds⟩

/-!
PROOFS. O55, O56 and O59, first part: what no operation does to the queue of commands, and what each does to the crossing's number.
-/

namespace Sys2Proof.Machine

open Sys2Proof.Claims Safe

/-! ## The queue and the number -/

/-- Of the view of the modes, the queue of commands and the crossing's number. -/
def qk (v : (Nat × Option (Nat × Nat)) × (Nat × Option (Nat × Nat)) × List Instr × Nat × Option Nat × Option Nat) :
    List Instr × Nat :=
  (v.2.2.1, v.2.2.2.1)

theorem qk_congr {t u : State} (hp : t.pending = u.pending) (hk : t.cyc.k = u.cyc.k) : qk (keyView t) = qk (keyView u) := by
  simp [qk, keyView, hp, hk]

theorem qk_foldl {α : Type} {f : State → α → State} (h : ∀ s a, qk (keyView (f s a)) = qk (keyView s)) (l : List α)
    (s : State) : qk (keyView (l.foldl f s)) = qk (keyView s) :=
  foldl_keeps (fun s => qk (keyView s)) f h l s

@[simp] theorem qk_mk (x : State) (sup agreed : Sup) (lanes : Vector Lane 3) (agree : Agree) (ilinks : Vector ILink 34)
    (hubs : Vector HubDie 2) (hubDiff : Int) (hubDiffRun : Nat) (hubDiffDone : Bool) (recd : Recorder) (supply : Supply)
    (shedHub : Vector ShedHub 12) (bb : Backbone) (con : Consist) (twin : Twin) (br : Bridge) (field : Field) (tacho : Vector
    Tacho 4) (saf : Safety) (upd : Update) (perf : Perf) (st : Startup) (cnt : NMap Nat) (egress : List Egress) :
    qk (keyView
      (State.mk sup agreed x.cyc lanes agree ilinks hubs hubDiff hubDiffRun hubDiffDone recd supply shedHub bb con twin br
      field tacho saf upd perf st cnt egress x.pending)) = qk (keyView x) :=
  rfl

@[simp] theorem qk_mk_cyc (x : State) (sup agreed : Sup) (tk : Nat) (c : Nat) (running : Bool) (lagLanes : List Nat)
    (hubOpen : Vector (List Item) 2) (hubImg : Vector HubImage 2) (head : HeadVals) (agreedK : Option Nat) (endDone : Option
    Nat) (discards : Vector Nat 2) (skipFrom : Option Nat) (lastStep : Int) (runs : Vector CoreRun 16) (lanes : Vector Lane 3)
    (agree : Agree) (ilinks : Vector ILink 34) (hubs : Vector HubDie 2) (hubDiff : Int) (hubDiffRun : Nat) (hubDiffDone : Bool)
    (recd : Recorder) (supply : Supply) (shedHub : Vector ShedHub 12) (bb : Backbone) (con : Consist) (twin : Twin) (br :
    Bridge) (field : Field) (tacho : Vector Tacho 4) (saf : Safety) (upd : Update) (perf : Perf) (st : Startup) (cnt : NMap Nat)
    (egress : List Egress) :
    qk (keyView
      (State.mk sup agreed (Cycle.mk x.cyc.k tk c running lagLanes hubOpen hubImg head agreedK endDone discards skipFrom
      lastStep runs) lanes agree ilinks hubs hubDiff hubDiffRun hubDiffDone recd supply shedHub bb con twin br field tacho saf
      upd perf st cnt egress x.pending)) = qk (keyView x) :=
  rfl

@[simp] theorem qk_ite (c : Prop) [Decidable c] (a b : State) :
    qk (keyView (if c then a else b)) = if c then qk (keyView a) else qk (keyView b) := by
  split <;> rfl

theorem pending_k_of_qk {t : State} {l : List Instr} {n : Nat} (h : qk (keyView t) = (l, n)) : t.pending = l ∧ t.cyc.k = n :=
  Prod.mk.inj h

theorem pending_of_qk {t u : State} (h : qk (keyView t) = qk (keyView u)) : t.pending = u.pending := congrArg Prod.fst h

theorem k_of_qk {t u : State} (h : qk (keyView t) = qk (keyView u)) : t.cyc.k = u.cyc.k := congrArg Prod.snd h

/-! ## The lease -/

@[simp] theorem handOver_qk (s : State) (h : Nat) : qk (keyView (handOver s h)) = qk (keyView s) := by
  unfold handOver
  simp

@[simp] theorem releaseLease_qk (s : State) (t : Nat) : qk (keyView (releaseLease s t)) = qk (keyView s) := by
  unfold releaseLease
  simp [qk_foldl]

/-! ## Lanes -/

@[simp] theorem moduleLost_qk (s : State) (cause : Nat) : qk (keyView (moduleLost s cause)) = qk (keyView s) := by
  unfold moduleLost
  split <;> simp

@[simp] theorem mismatchRestart_qk (s : State) (executed : Bool) (div : Option Nat) :
    qk (keyView (mismatch.restart s executed div)) = qk (keyView s) := by
  have back : ∀ u, qk (keyView (rollback u)) = qk (keyView u) := fun u => by
    show qk (keyView (undoBack u)) = _
    unfold undoBack
    split <;> rfl
  unfold mismatch.restart
  cases div <;> simp [back]

@[simp] theorem mismatch_qk (s : State) (cause : Nat) (named : List Nat) (executed : Bool) :
    qk (keyView (mismatch s cause named executed)) = qk (keyView s) := by
  have noted : qk (keyView (mismatchNoted s cause named)) = qk (keyView s) := by
    unfold mismatchNoted
    simp
  have answered : ∀ u second sid, qk (keyView (mismatchAnswer u second sid executed)) = qk (keyView u) := fun u second sid => by
    unfold mismatchAnswer
    (repeat' split) <;> simp
  rw [mismatch_eq]
  split
  · rfl
  · rw [answered]
    exact noted

@[simp] theorem laneFault_qk (s : State) (l cause det : Nat) (named : List Nat := []) (executed : Bool := true) :
    qk (keyView (laneFault s l cause det named executed)) = qk (keyView s) := by
  unfold laneFault
  dsimp only
  (repeat' split) <;> simp

@[simp] theorem judgeLag_qk (s : State) : qk (keyView (judgeLag s)) = qk (keyView s) := by
  unfold judgeLag
  dsimp only
  (repeat' split) <;> simp

/-! ## Voters -/

@[simp] theorem applyDiffs_qk (s : State) (ds : List LaneDiff) : qk (keyView (applyDiffs s ds)) = qk (keyView s) := by
  unfold applyDiffs
  simp [qk_foldl]

@[simp] theorem releaseWord_qk (s : State) (h key : Nat) (w : WordPos) (m : Copy) :
    qk (keyView (releaseWord s h key w m)) = qk (keyView s) := by
  have faulted : ∀ (l : List Nat) (o : Option OutItem) (u : State), qk (keyView (l.foldl (fun s l =>
      if inSet s l then laneFault s l 4 (srcHub h) (itemStall o)
      else if (getLane s l).state = .shadow then laneFault s l 9 (srcHub h) else s) u)) = qk (keyView u) := fun l o u => by
    refine qk_foldl (fun s l => ?_) l u
    (repeat' split) <;> simp
  unfold releaseWord
  dsimp only
  (repeat' split) <;> simp [faulted]

@[simp] theorem releaseFrom_qk (s : State) (h n key : Nat) : qk (keyView (releaseFrom s h n key)) = qk (keyView s) := by
  induction n generalizing s key with
  | zero => rfl
  | succ n ih =>
    unfold releaseFrom
    dsimp only
    (repeat' split) <;> simp [ih]

@[simp] theorem openWindow_qk (s : State) (h key : Nat) (c : Copy) (t : Nat) :
    qk (keyView (openWindow s h key c t)) = qk (keyView s) := by
  unfold openWindow
  dsimp only
  split <;> simp

@[simp] theorem copyArrives_qk (s : State) (h : Nat) (c : Copy) (t : Nat) :
    qk (keyView (copyArrives s h c t)) = qk (keyView s) := by
  unfold copyArrives
  dsimp only
  (repeat' split) <;> simp

@[simp] theorem closeWindow_qk (s : State) (h key : Nat) (w : WordPos) : qk (keyView (closeWindow s h key w)) = qk (keyView s) := by
  unfold closeWindow
  split <;> simp [qk_foldl]

@[simp] theorem failVoter_qk (s : State) (h reported : Nat) : qk (keyView (failVoter s h reported)) = qk (keyView s) := by
  unfold failVoter
  simp

@[simp] theorem voterFailures_qk (s : State) : qk (keyView (voterFailures s)) = qk (keyView s) := by
  unfold voterFailures
  dsimp only
  (repeat' split) <;> simp

@[simp] theorem judgeReleases_qk (s : State) (used : List Nat) : qk (keyView (judgeReleases s used)) = qk (keyView s) := by
  have judged : ∀ u h, qk (keyView (judgeRelease u used h)) = qk (keyView u) := fun u h => by
    unfold judgeRelease
    dsimp only
    rw [updVoter_key, qk_mk]
    split <;> simp
  rw [judgeReleases_eq, judged, judged]

/-! ## Bridges, field dies and the backbone -/

@[simp] theorem decideBridges_qk (s : State) : qk (keyView (decideBridges s)) = qk (keyView s) := by
  refine qk_foldl (fun s i => ?_) _ s
  refine view_foldl_snd (fun s => qk (keyView s)) (fun a p => ?_) s.sup.posted ([], s)
  dsimp only
  split
  · exact congrArg qk (decideBridge_key ..)
  · rfl

@[simp] theorem faultOutput_qk (s : State) (n t : Nat) : qk (keyView (faultOutput s n t)) = qk (keyView s) := by
  unfold faultOutput
  simp [qk_foldl]

@[simp] theorem faultLink_qk (s : State) (t : Nat) : qk (keyView (faultLink s t)) = qk (keyView s) := by
  unfold faultLink
  simp [qk_foldl]

@[simp] theorem tripRun_qk (s : State) (l : List Nat) (cause t : Nat) : qk (keyView (tripRun s l cause t)) = qk (keyView s) := by
  unfold tripRun
  simp [qk_foldl]

@[simp] theorem testFailed_qk (s : State) (ch kind t : Nat) : qk (keyView (testFailed s ch kind t)) = qk (keyView s) := by
  unfold testFailed
  simp

@[simp] theorem tripCommand_qk (s : State) (bits t : Nat) : qk (keyView (tripCommand s bits t)) = qk (keyView s) := by
  unfold tripCommand
  simp [qk_foldl]

@[simp] theorem applyCommand_qk (s : State) (die hub : Nat) (c : OutCmd) (t : Nat) :
    qk (keyView (applyCommand s die hub c t)) = qk (keyView s) := by
  unfold applyCommand
  simp

@[simp] theorem dapCommand_qk (s : State) (ctx op : Nat) (m : DapMsg) : qk (keyView (dapCommand s ctx op m)) = qk (keyView s) := by
  unfold dapCommand
  simp

@[simp] theorem supplyLatch_qk (s : State) : qk (keyView (supplyLatch s)) = qk (keyView s) := by
  unfold supplyLatch
  simp

@[simp] theorem hubOutOfRange_qk (s : State) (h : Nat) : qk (keyView (hubOutOfRange s h)) = qk (keyView s) := by
  unfold hubOutOfRange
  simp

@[simp] theorem relayFrame_qk (s : State) (i : Nat) (p : PlanEntry) (tk dur : Nat) (broken : Bool) (data : List Byte) (t : Nat) :
    qk (keyView (relayFrame s i p tk dur broken data t)) = qk (keyView s) := by
  unfold relayFrame
  simp

/-! ## Triggers -/

@[simp] theorem triggerRequests_qk (s : State) : qk (keyView (triggerRequests s)) = qk (keyView s) := by
  refine view_foldl_snd (fun s => qk (keyView s)) (fun a p => ?_) (postedOrder s.sup.posted) ([], s)
  dsimp only
  split
  · rfl
  · split
    · exact congrArg qk (decideArm_key ..)
    · exact congrArg qk (decideCancel_key ..)
    · rfl

@[simp] theorem wantActivation_qk (s : State) (i : Nat) : qk (keyView (wantActivation s i).2) = qk (keyView s) := by
  unfold wantActivation
  split
  · rfl
  · split
    · split <;> simp
    · split <;> simp

@[simp] theorem fire_qk (s : State) (idx : Nat) (t : Trigger) (n : Nat) (tgt : Int) (stamp : Nat) (resumed : Bool) :
    qk (keyView (fire s idx t n tgt stamp resumed)) = qk (keyView s) := by
  unfold fire
  dsimp only
  rw [putEntry_key, qk_mk]
  split
  · exact wantActivation_qk ..
  · split
    · simp
    · rfl

@[simp] theorem evalTrigger_qk (s : State) (idx : Nat) (resumed : Bool) :
    qk (keyView (evalTrigger s idx resumed)) = qk (keyView s) := by
  have fired : ∀ (u : State) (c : Prop) [Decidable c] t n tgt stamp,
      qk (keyView (if c then fire u idx t n tgt stamp resumed else u)) = qk (keyView u) := fun u c _ t n tgt stamp =>
    view_ite (fun s => qk (keyView s)) (fire_qk ..) rfl
  unfold evalTrigger
  split
  · rfl
  · refine view_ite (fun s => qk (keyView s)) rfl ?_
    dsimp only
    refine view_ite (fun s => qk (keyView s)) (fired ..) (view_ite (fun s => qk (keyView s)) ?_ (fired ..))
    split
    · exact fired ..
    · refine view_ite (fun s => qk (keyView s)) ?_ (fired ..)
      exact (congrArg qk (carryTimed_key ..)).trans (fired ..)

@[simp] theorem evalTriggers_qk (s : State) (resumed : Bool) : qk (keyView (evalTriggers s resumed)) = qk (keyView s) := by
  refine qk_foldl (fun s i => ?_) _ s
  split <;> simp

/-! ## The train, the twin and sessions -/

@[simp] theorem ferryBoth_qk (s : State) : qk (keyView (ferryBoth s)) = qk (keyView s) := by
  unfold ferryBoth
  simp

@[simp] theorem backboneBoundary_qk (s : State) (x : Nat) : qk (keyView (backboneBoundary s x)) = qk (keyView s) := by
  unfold backboneBoundary
  dsimp only
  split <;> simp

theorem twinTake_qk {s u : State} {l seq t : Nat} {tagOk : Bool} (h : twinTake s l seq t tagOk = some u) :
    qk (keyView u) = qk (keyView s) := by
  unfold twinTake at h
  split at h
  · cases h
  · split at h
    · cases h
    · obtain rfl := Option.some.inj h
      rfl

theorem onTwin_qk {f : State → State} (hf : ∀ s, qk (keyView (f s)) = qk (keyView s)) (s : State) (l seq t : Nat)
    (tagOk : Bool) :
    qk (keyView (onTwin s l seq t tagOk f)) = qk (keyView s) := by
  unfold onTwin
  split
  · next u hu => rw [hf, twinTake_qk hu]
  · simp

@[simp] theorem judgeHello_qk (s : State) (id port t : Nat) (hs : HelloMsg) :
    qk (keyView (judgeHello s id port t hs)) = qk (keyView s) := by
  have refused : ∀ (u : State) code cause fp, qk (keyView (refuseHs u id port code cause fp)) = qk (keyView u) :=
    fun u code cause fp => by simp
  have dropped : ∀ u : State, qk (keyView (u.con.handshakes.foldl (fun s p =>
      if p.1 ≠ id && p.2.number.isSome && !p.2.done && p.2.fp = hs.fp then dropHandshake s p.1 else s) u)) = qk (keyView u) :=
    fun u => by
      refine qk_foldl (fun s p => ?_) _ u
      split <;> simp
  unfold judgeHello
  dsimp only
  refine view_ite (fun s => qk (keyView s)) (refused ..) (view_ite (fun s => qk (keyView s)) (refused ..)
    (view_ite (fun s => qk (keyView s)) (refused ..) (view_ite (fun s => qk (keyView s)) (refused ..) ?_)))
  split
  · exact refused ..
  · refine view_ite (fun s => qk (keyView s)) (refused ..) (view_ite (fun s => qk (keyView s)) (refused ..) ?_)
    rw [← dropped s]
    generalize List.foldl _ s _ = u
    split
    · exact refused ..
    · split
      · rw [hsSend_key]
        split <;> simp
      · split <;> simp

@[simp] theorem helloArrives_qk (s : State) (id port t : Nat) (f : Fragment) (hs : HelloMsg) :
    qk (keyView (helloArrives s id port t f hs)) = qk (keyView s) := by
  unfold helloArrives
  dsimp only
  (repeat' split) <;> simp

@[simp] theorem secondCopy_qk (s : State) (ctx seq h : Nat) : qk (keyView (secondCopy s ctx seq h)) = qk (keyView s) := by
  unfold secondCopy
  simp

@[simp] theorem sessionsAfterWrites_qk (s : State) : qk (keyView (sessionsAfterWrites s)) = qk (keyView s) := by
  unfold sessionsAfterWrites
  simp [qk_foldl]

/-! ## Writes -/

/-- A handler that leaves the queue of commands and the crossing's number. -/
def KeepsQk (h : Handler) : Prop :=
  (∀ s w, qk (keyView (h.eff s w)) = qk (keyView s)) ∧ ∀ s w c, qk (keyView (h.refused s w c)) = qk (keyView s)

theorem keepsQk_of_keeps {h : Handler} (hk : Keeps h) : KeepsQk h :=
  ⟨fun s w => congrArg qk (hk.1 s w), fun s w c => congrArg qk (hk.2 s w c)⟩

/-- A handler that records no refusal of its own. -/
theorem keepsQk_of_eff {h : Handler} (heff : ∀ s w, qk (keyView (h.eff s w)) = qk (keyView s))
    (href : h.refused = fun s _ _ => s) : KeepsQk h :=
  ⟨heff, fun s w c => by rw [href]⟩

@[simp] theorem holdMode_qk (s : State) (ctx : Nat) : qk (keyView (holdMode s ctx)) = qk (keyView s) := by
  rw [holdMode_eq]
  split <;> simp

@[simp] theorem closeAnchored_qk (s : State) (slot : Nat) : qk (keyView (closeAnchored s slot)) = qk (keyView s) :=
  foldl_keeps (fun s => qk (keyView s)) _ (fun _ _ => by rfl) _ s

theorem hStallHold_keepsQk : KeepsQk hStallHold := by
  refine keepsQk_of_eff (fun s w => ?_) rfl
  show qk (keyView (holdEff s w)) = _
  unfold holdEff
  simp

theorem hStallCmd_keepsQk : KeepsQk hStallCmd := by
  refine keepsQk_of_eff (fun s w => ?_) rfl
  show qk (keyView (cmdEff s w)) = _
  unfold cmdEff
  split
  · rfl
  · split
    · split <;> simp
    · dsimp only
      split <;> simp
    · simp
    · dsimp only
      split <;> simp
    · rfl

theorem hCycleMode_keepsQk : KeepsQk hCycleMode := by
  refine keepsQk_of_eff (fun s w => ?_) rfl
  unfold hCycleMode
  dsimp only
  split <;> simp

theorem hCompanionLoad_keepsQk : KeepsQk hCompanionLoad :=
  ⟨fun _ _ => rfl, fun s w c => congrArg qk (hBbPlanLoad_key.2 s w c)⟩

theorem hTwinEnable_keepsQk : KeepsQk hTwinEnable := by
  refine keepsQk_of_eff (fun s w => ?_) rfl
  unfold hTwinEnable
  dsimp only
  split
  · split <;> simp
  · rw [refreshLease_key, setLease_key, qk_mk]
    exact (qk_foldl (fun s l => congrArg qk (linkSession_key s l false)) _ _).trans (by simp)

theorem hTrCaLoad_keepsQk : KeepsQk hTrCaLoad :=
  keepsQk_of_eff (fun _ _ => (congrArg qk (tackEvent_key ..)).trans (closeAnchored_qk ..)) rfl

theorem hTrCaClear_keepsQk : KeepsQk hTrCaClear :=
  keepsQk_of_eff (fun _ _ => (congrArg qk (tackEvent_key ..)).trans (closeAnchored_qk ..)) rfl

/-- Every handler leaves the queue of commands and the crossing's number. -/
theorem handlerOf_keepsQk (e : Entry) (sub : Nat) : KeepsQk (handlerOf e sub) := by
  unfold handlerOf
  split
  · exact keepsQk_of_keeps hSelect_key
  · split
    · exact keepsQk_of_keeps hSafParam_key
    · split
      · next p hp =>
        have hall : ∀ p ∈ handlersA ++ handlersB ++ handlersC, KeepsQk p.2 := by
          simp [handlersA, handlersB, handlersC, keepsQk_of_keeps, hStallCmd_keepsQk, hStallHold_keepsQk, hCycleMode_keepsQk,
            hDiForce, hDoForce, hAiForce, hCompanionLoad_keepsQk, hTwinEnable_keepsQk, hTrCaLoad_keepsQk, hTrCaClear_keepsQk]
        exact hall p (by simpa [or_assoc] using List.mem_of_find?_eq_some hp)
      · exact keepsQk_of_keeps (storeHandler_key e)

theorem applyW_qk {h : Handler} (hk : KeepsQk h) (e : Entry) (s : State) (w : WReq) :
    qk (keyView (applyW h e s w)) = qk (keyView s) := by
  have accepted : qk (keyView (acceptedW h e s w)) = qk (keyView s) := by
    unfold acceptedW
    dsimp only
    (repeat' split) <;> simp [hk.1]
  have refused : qk (keyView (refusedW h e s w)) = qk (keyView s) := by
    unfold refusedW
    dsimp only
    (repeat' split) <;> simp [hk.2]
  rw [applyW_eq]
  (repeat' split) <;> simp [accepted, refused]

theorem writeCmd_qk {h : Handler} (hk : KeepsQk h) (e : Entry) (ctx idx sub v : Nat) (s : State) :
    qk (keyView (writeCmd h e ctx idx sub v s)) = qk (keyView s) := by
  unfold writeCmd
  (repeat' split) <;> simp [applyW_qk hk]

@[simp] theorem applyWrite_qk (s : State) (w : WReq) : qk (keyView (applyWrite s w)) = qk (keyView s) := by
  unfold applyWrite
  split
  · simp
  · exact applyW_qk (handlerOf_keepsQk ..) ..

@[simp] theorem applyRequest_qk (s : State) (r : Request) : qk (keyView (applyRequest s r)) = qk (keyView s) := by
  unfold applyRequest
  split
  · rfl
  · split
    · exact applyWrite_qk ..
    · refine applyW_qk ?_ ..
      split
      · exact handlerOf_keepsQk ..
      · exact handlerOf_keepsQk ..

@[simp] theorem applyPeerWrites_qk (s : State) : qk (keyView (applyPeerWrites s)) = qk (keyView s) := by
  refine (qk_foldl (fun s p => ?_) _ _).trans (qk_mk s _ _ ..)
  split
  · rfl
  · dsimp only
    split <;> simp [(handlerOf_keepsQk ..).1]

/-! ## The inputs of a crossing -/

@[simp] theorem dropLost_qk (s : State) (used : List Nat) : qk (keyView (dropLost s used)) = qk (keyView s) := by
  unfold dropLost
  simp [qk_foldl]

@[simp] theorem faultInputs_qk (s : State) (img : List LaneItem) (rep : AgreeReport) (minor : List Nat) :
    qk (keyView (faultInputs s img rep minor)) = qk (keyView s) := by
  unfold faultInputs
  simp [qk_foldl]

@[simp] theorem judgeJoin_qk (s : State) (rep : AgreeReport) : qk (keyView (judgeJoin s rep)) = qk (keyView s) := by
  refine qk_foldl (fun s l => ?_) _ s
  split
  · rfl
  · split
    · rfl
    · split <;> simp

@[simp] theorem adoptDev_qk (s : State) (l : List LaneItem) : qk (keyView (adoptDev s l)) = qk (keyView s) := by
  unfold adoptDev
  simp [qk_foldl]

@[simp] theorem noticeActivations_qk (s : State) (wins : List Item) :
    qk (keyView (noticeActivations s wins)) = qk (keyView s) := by
  refine qk_foldl (fun s it => ?_) wins s
  dsimp only
  split <;> simp

@[simp] theorem adoptImage_qk (s : State) (used : List Nat) :
    qk (keyView (adoptImage s used).2.2.2) = qk (keyView s) := by
  unfold adoptImage
  simp [takeDi_key, qk_foldl]

@[simp] theorem evaluateImage_qk (s : State) (used : List Nat) : qk (keyView (evaluateImage s used)) = qk (keyView s) := by
  unfold evaluateImage
  simp

@[simp] theorem closeImages_qk (s : State) : qk (keyView (closeImages s)) = qk (keyView s) := by
  unfold closeImages
  simp

@[simp] theorem afterAdoption_qk (s : State) (rep : AgreeReport) (used : List Nat) (rise fall : Nat) (wins : List Item) :
    qk (keyView (afterAdoption s rep used rise fall wins)) = qk (keyView s) := by
  unfold afterAdoption
  split <;> simp

@[simp] theorem mergeAndJudge_qk (s : State) (rep : AgreeReport) (used : List Nat) :
    qk (keyView (mergeAndJudge s rep used)) = qk (keyView s) := by
  have adopted : qk (keyView (adoptImage (decideRequests s) used).2.2.2) = qk (keyView s) := by simp
  unfold mergeAndJudge
  dsimp only
  generalize adoptImage (decideRequests s) used = image at adopted
  split <;> simp [adopted]

@[simp] theorem agreeInputs_qk (s : State) (rep : AgreeReport) : qk (keyView (agreeInputs s rep)) = qk (keyView s) := by
  unfold agreeInputs
  dsimp only
  split <;> simp [qk_foldl]

/-! ## Retain commits -/

@[simp] theorem commitAll_qk (s : State) (bad : List Nat) : qk (keyView (commitAll s bad)) = qk (keyView s) := by
  unfold commitAll
  simp [qk_foldl]

/-! ## Resets -/

theorem restartLogic_qk (s : State) : qk (keyView (restartLogic s)) = (s.pending, 0) := rfl

/-- A reset of the module begins with crossing 0. -/
theorem resetDies_qk (s : State) (cause : Nat) : qk (keyView (resetDies s cause)) = (s.pending, 0) := by
  have fresh : qk (keyView (freshField (restartLogic s))) = (s.pending, 0) :=
    (congrArg qk (freshField_key ..)).trans (restartLogic_qk s)
  unfold resetDies
  rw [← fresh]
  split <;> simp

theorem resetSequence_qk (s : State) (cause : Nat) : qk (keyView (resetSequence s cause)) = (s.pending, 0) := by
  have stopped : qk (keyView (if gv s E.twinEnable = 1 then releaseLease s s.cyc.tk else s)) = qk (keyView s) := by
    split <;> simp
  have stored : ∀ u : State, qk (keyView (if u.supply.powerFail.isSome then u else storeAll u)) = qk (keyView u) := fun u => by
    split <;> simp
  have committed : ∀ u : State, qk (keyView (if u.agree.lost || u.supply.powerFail.isSome then u else commitAll u [])) =
      qk (keyView u) := fun u => by
    split <;> simp
  have sent : ∀ u : State, qk (keyView ([0, 1, 2, 5, 6].foldl (fun s d => send s { kind := .dieReset, a := d }) u)) =
      qk (keyView u) := fun u => by simp
  unfold resetSequence
  dsimp only
  rw [resetDies_qk]
  refine congrArg (fun l => (l, 0)) (pending_of_qk ?_)
  rw [sent, flushClean_key, endFreeze_key, stored, committed, stopped]

/-! ## The steps of a boundary -/

@[simp] theorem agreeGeneration_qk (s : State) : qk (keyView (agreeGeneration s)) = qk (keyView s) := by
  unfold agreeGeneration
  simp

@[simp] theorem judgeCheckpoints_qk (s : State) (dev : List LaneDiff) (equiv : List Nat) :
    qk (keyView (judgeCheckpoints s dev equiv)) = qk (keyView s) := by
  unfold judgeCheckpoints
  dsimp only
  split <;> simp [qk_foldl]

@[simp] theorem endCrossing_qk (s : State) (dev : List LaneDiff) (equiv : List Nat) :
    qk (keyView (endCrossing s dev equiv)) = qk (keyView s) := by
  unfold endCrossing
  dsimp only
  split <;> simp

@[simp] theorem switchActivity_qk (s : State) (i : Nat) : qk (keyView (switchActivity s i)) = qk (keyView s) := by
  unfold switchActivity
  simp

@[simp] theorem completeLoad_qk (s : State) (i : Nat) (st : Stall) (ld : Loading) :
    qk (keyView (completeLoad s i st ld)) = qk (keyView s) := by
  unfold completeLoad
  dsimp only
  (repeat' split) <;> simp [qk_foldl]

@[simp] theorem transition_qk (s : State) (i : Nat) (st : Stall) : qk (keyView (transition s i st)) = qk (keyView s) := by
  unfold transition
  simp

@[simp] theorem loadProgress_qk (s : State) (i : Nat) (st : Stall) : qk (keyView (loadProgress s i st)) = qk (keyView s) := by
  unfold loadProgress
  (repeat' split) <;> simp

@[simp] theorem stallBoundary_qk (s : State) (i : Nat) : qk (keyView (stallBoundary s i)) = qk (keyView s) := by
  unfold stallBoundary
  dsimp only
  (repeat' split) <;> simp

theorem eachId_qk {f : State → Nat → State} (hf : ∀ s i, qk (keyView (f s i)) = qk (keyView s)) (s : State) :
    qk (keyView (eachId s f)) = qk (keyView s) :=
  qk_foldl hf _ s

@[simp] theorem applyWrites_qk (s : State) : qk (keyView (applyWrites s)) = qk (keyView s) := by
  unfold applyWrites
  simp [qk_foldl]

@[simp] theorem decideSafety_qk (s : State) : qk (keyView (decideSafety s)) = qk (keyView s) := by
  refine view_foldl_snd (fun s => qk (keyView s)) (fun a p => ?_) (postedOrder s.sup.posted) ([], s)
  dsimp only
  split
  · split <;> simp
  · rfl

@[simp] theorem takeOutcomes_qk (s : State) : qk (keyView (takeOutcomes s)) = qk (keyView s) := by
  unfold takeOutcomes
  simp [qk_foldl]

@[simp] theorem noteStep_qk (s : State) (h old t : Nat) (step : Int) : qk (keyView (noteStep s h old t step)) = qk (keyView s) := by
  unfold noteStep
  simp

@[simp] theorem compareHubs_qk (s : State) : qk (keyView (compareHubs s)) = qk (keyView s) := by
  unfold compareHubs
  simp

/-- The advance of the crossing moves its number on by one. -/
theorem advance_qk (s : State) : qk (keyView (advance s)) = (s.pending, s.cyc.k + 1) := by
  have noted : ∀ u h old new step, qk (keyView (noteStep u h old new step)) = qk (keyView u) := fun u h old new step => by simp
  have stepped : ∀ u f, qk (keyView (eachStall u f)) = qk (keyView u) := fun _ _ => rfl
  unfold advance
  dsimp only
  rw [qk_ite, stepped, ite_self, noted, noted, compareHubs_qk]
  rfl

@[simp] theorem modeBoundary_qk (s : State) : qk (keyView (modeBoundary s)) = qk (keyView s) := by
  unfold modeBoundary
  split <;> simp

@[simp] theorem closeCrossing_qk (s : State) : qk (keyView (closeCrossing s)) = qk (keyView s) := by
  unfold closeCrossing
  simp

@[simp] theorem stepsA_qk (s : State) : qk (keyView (stepsA s)) = qk (keyView s) := by
  unfold stepsA
  simp

@[simp] theorem stepsB_qk (s : State) : qk (keyView (stepsB s)) = qk (keyView s) := by
  unfold stepsB
  simp [eachId_qk]

@[simp] theorem stepsC_qk (s : State) : qk (keyView (stepsC s)) = qk (keyView s) := by
  unfold stepsC
  simp

@[simp] theorem executeBoundary_qk (s : State) : qk (keyView (executeBoundary s)) = qk (keyView s) := by
  unfold executeBoundary
  simp

/-! ## Dies and links -/

@[simp] theorem loseField_qk (s : State) (f t : Nat) : qk (keyView (loseField s f t)) = qk (keyView s) := by
  unfold loseField
  split <;> simp

@[simp] theorem restartField_qk (s : State) (f cause t : Nat) : qk (keyView (restartField s f cause t)) = qk (keyView s) := by
  unfold restartField
  simp

@[simp] theorem tripLane_qk (s : State) (l : Nat) : qk (keyView (tripLane s l)) = qk (keyView s) := by
  unfold tripLane
  simp

@[simp] theorem beginHub_qk (s : State) (h cause t : Nat) : qk (keyView (beginHub s h cause t)) = qk (keyView s) := by
  unfold beginHub
  dsimp only
  (repeat' split) <;> simp

@[simp] theorem judgeCross_qk (s : State) (l : Nat) : qk (keyView (judgeCross s l)) = qk (keyView s) := by
  unfold judgeCross
  split <;> simp

@[simp] theorem failEnd_qk (s : State) (e t : Nat) : qk (keyView (failEnd s e t)) = qk (keyView s) := by
  unfold failEnd
  dsimp only
  (repeat' split) <;> simp

@[simp] theorem takeWaiting_qk (s : State) (h : Nat) : qk (keyView (takeWaiting s h)) = qk (keyView s) := by
  unfold takeWaiting
  simp

/-! ## The start phases -/

@[simp] theorem settingsStage_qk (s : State) (rep : StartReport) : qk (keyView (settingsStage s rep)) = qk (keyView s) := by
  unfold settingsStage
  simp [qk_foldl]

@[simp] theorem stallStage_qk (s : State) : qk (keyView (stallStage s)) = qk (keyView s) := by
  unfold stallStage
  simp [qk_foldl]

theorem beginCrossings_qk (s : State) (ms : Nat) : qk (keyView (beginCrossings s ms)) = (s.pending, 0) := rfl

/-- The last start phase begins with crossing 0. -/
theorem openStage_qk (s : State) (ms : Nat) : qk (keyView (openStage s ms)) = (s.pending, 0) := by
  have begun : ∀ u : State, u.pending = s.pending → qk (keyView (openPorts (beginCrossings u ms))) =
      (s.pending, 0) := fun u hu => by
    rw [openPorts_key, beginCrossings_qk, hu]
  have locks : (startLocks s).pending = s.pending := congrArg (fun v => (qk v).1) (startLocks_key s)
  have opened : qk (keyView (openPorts (beginCrossings (if s.st.recovery then s else startLocks s) ms))) = (s.pending, 0) := by
    refine begun _ ?_
    split
    · rfl
    · exact locks
  unfold openStage
  dsimp only
  rw [qk_mk, ← opened]
  split <;> simp

theorem startPhases_qk (s : State) (rep : StartReport) :
    qk (keyView (startPhases s rep)) = qk (keyView s) ∨ qk (keyView (startPhases s rep)) = (s.pending, 0) := by
  have banked : qk (keyView (bankStage
      { s with con.svcHub := if (getHub s 0).failed then 1 else 0, upd.writer := dutyHub s } rep).1) = qk (keyView s) :=
    congrArg qk (bankStage_key ..)
  have tested : ∀ u early t, qk (keyView (testStage (drawKeys (gatherBlocks (hubStage u rep early) 1 t)) rep)) = qk (keyView u) :=
    fun u early t => by simp
  have settled : ∀ u, qk (keyView (if (settingsStage u rep).st.recovery then settingsStage u rep
      else stallStage (settingsStage u rep))) = qk (keyView u) := fun u => by
    split <;> simp
  unfold startPhases
  dsimp only
  generalize bankStage _ rep = r at banked
  obtain ⟨u, early⟩ := r
  dsimp only at banked ⊢
  split
  · left
    rw [holdStart_key, tested, banked]
  · right
    rw [openStage_qk]
    refine congrArg (fun l => (l, 0)) (pending_of_qk ?_)
    rw [settled, tested, banked]

/-! ## The instructions of a stall -/

theorem decidePosted_qk (s : State) (i k tk : Nat) (p : Posted) :
    qk (keyView (decidePosted s i k tk p).2) = qk (keyView s) := by
  unfold decidePosted
  split
  · split
    · rfl
    · dsimp only
      split
      · rfl
      · split
        · exact congrArg qk ((pushTelegram_key ..).trans (telegramSeq_key ..))
        · simp
        · simp
  · exact congrArg qk (emitJ_key ..)
  · rfl

@[simp] theorem decideActivation_qk (s : State) (i k tk : Nat) :
    qk (keyView (decideActivation s i k tk)) = qk (keyView s) := by
  refine view_foldl_snd (fun s => qk (keyView s)) (fun a p => ?_) s.sup.posted ([], s)
  dsimp only
  split
  · exact decidePosted_qk ..
  · rfl

@[simp] theorem endActivation_qk (s : State) (core i reason : Nat) :
    qk (keyView (endActivation s core i reason)) = qk (keyView s) := by
  unfold endActivation
  split <;> simp

@[simp] theorem fuelStop_qk (s : State) (core i : Nat) (x : Exec) : qk (keyView (fuelStop s core i x)) = qk (keyView s) := by
  unfold fuelStop
  dsimp only
  split <;> simp

@[simp] theorem stallFault_qk (s : State) (core i : Nat) (x : Exec) (f : Frame) :
    qk (keyView (stallFault s core i x f)) = qk (keyView s) := by
  unfold stallFault
  simp

theorem applyIRes_qk (s : State) (core i : Nat) (st : Stall) (charge : Nat) (r : IRes) :
    qk (keyView (applyIRes s core i st charge r)) = qk (keyView s) := by
  unfold applyIRes
  cases r with
  | retire st' evs lat ev post => cases post <;> simp [postRequest]
  | trap x x0 p cause detail fa evs =>
    dsimp only
    split <;> simp
  | fault x cause fa code => simp
  | stop x evs => simp
  | yield x => simp
  | returned x => simp

theorem runInsn_qk (core : CoreIx) (charge : Nat) (body : State → Stall → Exec → IRes) (s : State) :
    qk (keyView (runInsn core charge body s)) = qk (keyView s) := by
  unfold runInsn
  split
  · rfl
  · dsimp only
    split
    · exact applyIRes_qk ..
    · split
      · exact fuelStop_qk ..
      · exact applyIRes_qk ..

/-! ## The boundary of a crossing -/

/-- A boundary moves the crossing on by one, or a reset that is due begins again at 0. -/
theorem crossBoundary_qk (s : State) :
    qk (keyView (crossBoundary s)) = (s.pending, s.cyc.k + 1) ∨ qk (keyView (crossBoundary s)) = (s.pending, 0) := by
  have moved : qk (keyView (voterFailures (advance (closeCrossing s)))) = (s.pending, s.cyc.k + 1) := by
    rw [voterFailures_qk, advance_qk, pending_of_qk (closeCrossing_qk s), k_of_qk (closeCrossing_qk s)]
  have resumed : ∀ u : State, qk (keyView (if u.agree.mismatch then resumeBoundary u else u)) = qk (keyView u) := fun u => by
    split <;> simp
  unfold crossBoundary
  dsimp only
  generalize voterFailures (advance (closeCrossing s)) = u at moved
  split
  · left
    rw [snapMissed_key, moved]
  · have hu := (resumed u).trans moved
    generalize (if u.agree.mismatch = true then resumeBoundary u else u) = r at hu
    have hpending : r.pending = s.pending := congrArg Prod.fst hu
    split
    · right
      rw [resetSequence_qk, ← hpending]
    · split
      · right
        rw [resetSequence_qk, ← hpending]
      · left
        rw [executeBoundary_qk, hu]

end Sys2Proof.Machine

/-!
PROOFS. O55, O56 and O59, second part: every command answers a state with the queue as it was, and moves the crossing's number on
only at a boundary.
-/

namespace Sys2Proof.Machine

open Sys2Proof.Claims Safe

/-- The command answers a state with the queue and the crossing's number as they were. -/
def Stays (c : Instr) : Prop := ∀ s, does c s fun t => qk (keyView t) = qk (keyView s)

/-! ## Commands that take several steps -/

theorem qk_of_arrives {s u : State} {hub : Nat} {r : SessRecord} {n : Option Nat} (h : recordArrives s hub r = (n, u)) :
    qk (keyView u) = qk (keyView s) := by
  have hkey := recordArrives_key s hub r
  rw [h] at hkey
  exact congrArg qk hkey

theorem giveSample_qk (smp : Sample) (f : Nat) (s : State) (h : Nat) (ok : Bool) :
    qk (keyView (giveSample smp f s h ok)) = qk (keyView s) := by
  unfold giveSample
  split <;> simp

theorem sampledDie_qk (s : State) (f t : Nat) : qk (keyView (sampledDie s f t)) = qk (keyView s) := by
  unfold sampledDie
  dsimp only
  rw [freeNext_key, qk_mk, qk_foldl (fun s n => congrArg qk (aiSample_key ..)),
    qk_foldl (fun s n => congrArg qk (tachoSample_key ..)), takeSets_key, translateEdges_key]

theorem canFrameReceived_stays (ifc : Fin 2) (f : CanFrame) (t : Nat) : Stays (.canFrameReceived ifc f t) := by
  intro s
  refine ⟨_, rfl, ?_⟩
  dsimp only
  split
  · rfl
  · refine (qk_foldl (fun s n => ?_) _ _).trans (qk_foldl (fun s n => ?_) _ _)
    · split <;> simp
    · simp

theorem mvbPortReceived_stays (ifc : Fin 2) (port : Nat) (data : List Byte) (lineB checkErr : Bool) (t : Nat) :
    Stays (.mvbPortReceived ifc port data lineB checkErr t) := by
  intro s
  refine ⟨_, rfl, ?_⟩
  dsimp only
  split
  · rfl
  · refine (qk_foldl (fun s n => ?_) _ _).trans ?_
    · (repeat' split) <;> simp
    · split <;> simp

theorem mvbMessageReceived_stays (ifc : Fin 2) (src dst : Nat) (data : List Byte) (t : Nat) :
    Stays (.mvbMessageReceived ifc src dst data t) := by
  intro s
  refine ⟨_, rfl, ?_⟩
  dsimp only
  split
  · rfl
  · exact qk_foldl (fun s n => congrArg qk (enqueue_key ..)) _ s

theorem serByteReceived_stays (ifc : Fin 2) (b : Byte) (err : Fin 3) (t : Nat) : Stays (.serByteReceived ifc b err t) := by
  intro s
  refine ⟨_, rfl, ?_⟩
  dsimp only
  split
  · rfl
  · refine (qk_foldl (fun s n => congrArg qk (serByte_key ..)) _ _).trans ?_
    split <;> simp

theorem serFrameEnd_stays (ifc : Fin 2) (t : Nat) : Stays (.serFrameEnd ifc t) := by
  intro s
  refine ⟨_, rfl, ?_⟩
  dsimp only
  split
  · rfl
  · split
    · rfl
    · refine (qk_foldl (fun s n => ?_) _ _).trans ?_ <;> simp

theorem commandInactiveTimer_stays (inst : Fin 32) (t : Nat) : Stays (.commandInactiveTimer inst t) := by
  intro s
  refine ⟨_, rfl, ?_⟩
  dsimp only
  split
  · rfl
  · rw [driveOutputs_key, setPermits_key]
    split
    · simp
    · split <;> simp

theorem evaluatorCycle_stays (t : Nat) : Stays (.evaluatorCycle t) := by
  intro s
  exact ⟨_, rfl, (congrArg qk (driveOutputs_key _)).trans (qk_foldl (fun s i => congrArg qk (evalInst_key ..)) _ s)⟩

theorem logicSilentTimeout_stays (die : Fin 2) (t : Nat) : Stays (.logicSilentTimeout die t) := by
  intro s
  refine ⟨_, rfl, ?_⟩
  dsimp only
  split
  · rw [driveOutputs_key, tripRun_qk, emitF_key, updDie_key]
  · rfl

theorem timedDoInstant_stays (die : Fin 2) (channel t : Nat) : Stays (.timedDoInstant die channel t) := by
  intro s
  refine ⟨_, rfl, ?_⟩
  dsimp only
  split
  · rfl
  · split
    · rw [driveOutputs_key]
      split <;> simp
    · rfl

theorem fieldSample_stays (die : Fin 2) (t : Nat) (toHa toHb : Bool) : Stays (.fieldSample die t toHa toHb) := by
  intro s
  cases hfailed : (getDie s die).failed with
  | true => exact ⟨s, congrArg Host.Outcome.next (if_pos hfailed), rfl⟩
  | false =>
    refine ⟨_, execFieldSample_eq die t toHa toHb s hfailed, ?_⟩
    dsimp only
    rw [giveSample_qk, giveSample_qk, qk_foldl (fun s n => congrArg qk (updDi_key ..)), sampledDie_qk]
    rfl

theorem hubRejoin_stays (hub : Fin 2) : Stays (.hubRejoin hub) := by
  intro s
  refine ⟨_, rfl, ?_⟩
  dsimp only
  split
  · rw [refreshYards_key, exchangeJournals_key]
    split <;> simp
  · rfl

theorem powerFailWarning_stays (vin t : Nat) : Stays (.powerFailWarning vin t) := by
  intro s
  refine ⟨_, rfl, ?_⟩
  dsimp only
  split
  · rfl
  · rw [flushMark_key, keyView_mk, endFreeze_key]
    split <;> simp

theorem portFrameReceived_stays (port : Fin 16) (fr : EthFrame) : Stays (.portFrameReceived port fr) := by
  intro s
  refine ⟨_, rfl, ?_⟩
  have discarded : ∀ (u : State) (c : Prop) [Decidable c], qk (keyView (if c then discard u port else u)) = qk (keyView u) :=
    fun u c _ => by split <;> simp
  refine view_ite (fun s => qk (keyView s)) rfl ?_
  dsimp only
  refine view_ite (fun s => qk (keyView s)) ?_ (view_ite (fun s => qk (keyView s)) ?_ (view_ite (fun s => qk (keyView s)) ?_ ?_))
  · simp
  · simp
  · refine (qk_foldl (fun s q => congrArg qk (forward_key ..)) _ _).trans ?_
    rw [learn_key, discarded, bumpi_key]
  · rw [discarded, bumpi_key]

theorem rekey_stays (hub : Fin 2) (rec : SessRecord) (share : Nat) : Stays (.rekey hub rec share) := by
  intro s
  refine ⟨_, rfl, ?_⟩
  split
  · next h => exact qk_of_arrives h
  · next h =>
    rw [← qk_of_arrives h]
    split
    · rfl
    · dsimp only
      split <;> simp

theorem rekeyAnswer_stays (hub : Fin 2) (rec : SessRecord) (share : Nat) : Stays (.rekeyAnswer hub rec share) := by
  intro s
  refine ⟨_, rfl, ?_⟩
  split
  · next h => exact qk_of_arrives h
  · next h =>
    rw [← qk_of_arrives h]
    split
    · rfl
    · split <;> simp

theorem sessionCloseRecord_stays (hub : Fin 2) (rec : SessRecord) : Stays (.sessionCloseRecord hub rec) := by
  intro s
  refine ⟨_, rfl, ?_⟩
  split
  · next h => exact qk_of_arrives h
  · next h =>
    rw [← qk_of_arrives h]
    simp

theorem sessionDapRecord_stays (hub : Fin 2) (rec : SessRecord) (op : Nat) (msg : DapMsg) :
    Stays (.sessionDapRecord hub rec op msg) := by
  intro s
  refine ⟨_, rfl, ?_⟩
  split
  · next h => exact qk_of_arrives h
  · next h =>
    rw [← qk_of_arrives h]
    dsimp only
    split
    · simp
    · split <;> simp

theorem sessionTelegramRecord_stays (hub : Fin 2) (rec : SessRecord) (ident : Nat) (data : List Byte) :
    Stays (.sessionTelegramRecord hub rec ident data) := by
  intro s
  refine ⟨_, rfl, ?_⟩
  split
  · next h => exact qk_of_arrives h
  · next h =>
    rw [← qk_of_arrives h]
    dsimp only
    split <;> simp

theorem catchup_stays (link : Fin 4) (seq : Nat) (tagOk : Bool) (stall : Nat) (st : CatchUp) (t : Nat) :
    Stays (.catchup link seq tagOk stall st t) := by
  intro s
  refine ⟨_, rfl, onTwin_qk (fun s => ?_) ..⟩
  (repeat' split) <;> simp

theorem mirrorRecord_stays (link : Fin 4) (seq : Nat) (tagOk : Bool) (rec : MirrorRec) (t : Nat) :
    Stays (.mirrorRecord link seq tagOk rec t) := by
  intro s
  refine ⟨_, rfl, onTwin_qk (fun s => ?_) ..⟩
  split
  · rfl
  · split
    · simp
    · refine (qk_foldl (fun s p => ?_) _ _).trans ((qk_foldl (fun s p => ?_) _ _).trans ?_)
      · split <;> simp
      · split <;> simp
      · simp

theorem twinAck_stays (link : Fin 4) (seq : Nat) (tagOk : Bool) (count t : Nat) : Stays (.twinAck link seq tagOk count t) := by
  intro s
  refine ⟨_, rfl, onTwin_qk (fun s => ?_) ..⟩
  (repeat' split) <;> simp

theorem twinClaim_stays (link : Fin 4) (seq : Nat) (tagOk : Bool) (boundary : Nat) (holding : Bool) (t : Nat) :
    Stays (.twinClaim link seq tagOk boundary holding t) := by
  intro s
  refine ⟨_, rfl, onTwin_qk (fun s => ?_) ..⟩
  simp

theorem twinRelease_stays (link : Fin 4) (seq : Nat) (tagOk : Bool) (holder : Bool) (t : Nat) :
    Stays (.twinRelease link seq tagOk holder t) := by
  intro s
  refine ⟨_, rfl, onTwin_qk (fun s => ?_) ..⟩
  (repeat' split) <;> simp

theorem twinRenew_stays (link : Fin 4) (seq : Nat) (tagOk : Bool) (boundary : Nat) (yields : Bool) (count markK markItem t : Nat) :
    Stays (.twinRenew link seq tagOk boundary yields count markK markItem t) := by
  intro s
  refine ⟨_, rfl, onTwin_qk (fun s => ?_) ..⟩
  simp

theorem leaseRenewSend_stays (t : Nat) : Stays (.leaseRenewSend t) := by
  intro s
  refine ⟨_, rfl, ?_⟩
  dsimp only
  split
  · have sent : ∀ (l : List Nat) (u : State) (n b : Nat) (data : State → List Byte),
        qk (keyView (l.foldl (fun s l => twinSend s l t .twinRenew n b (data s)) u)) = qk (keyView u) :=
      fun l u n b data => qk_foldl (fun s l => congrArg qk (twinSend_key ..)) l u
    split
    · rw [refreshLease_key, ceaseLease_key, sent _ _ _ _ fun u => _ ++ markBytes u, qk_mk]
    · rw [sent _ _ _ _ fun u => _ ++ markBytes u, qk_mk]
  · rfl

/-! ## Every command, by chapter -/

/-- The commands of the module itself, where they restart nothing: lanes, voters, bridges, evaluators, field dies, energy, DAP requests,
the twin, the dies, links and supply, and a crossing, its boundary apart (01, 02, 05 to 08, 12 to 15, 20). -/
def moduleInsn : Instr → Bool
  | .laneHardwareError .. | .timingLag .. | .rollbackComplete .. | .laneResetComplete .. | .restableBulkComplete .. |
  .restableLimitExpiry .. | .restableRetry .. | .voterCopyArrival .. | .skewWindowClose .. | .releaseDeadline .. |
  .fieldSample .. | .imageClose .. | .inputAgreement .. | .activationStart .. | .supervisorPause .. | .retainCommitPass .. |
  .checkpointAgreement .. | .loadCopyComplete .. | .mvbLineStateChange .. | .canBusOff .. | .canRestartHoldExpiry .. |
  .mvbPortReceived .. | .mvbMessageReceived .. | .canFrameReceived .. | .serByteReceived .. | .serPackTimeout .. |
  .serFrameEnd .. | .bridgeBusTransmitDone .. | .bridgeReadTimeout .. | .mvbMasterFrameReceived .. | .mvbMasterFrameSend .. |
  .lockLimitExpiry .. | .evaluatorCycle .. | .discrepancyTimeout .. | .crossDisagreementTimeout .. | .syncTimeout .. |
  .heldLimitExpiry .. | .commandInactiveTimer .. | .outputTest .. | .cutoffTest .. | .fieldConfigReceived .. | .diRawChange ..
  | .diEdgeConfirmed .. | .wireBreakTimer .. | .comparatorTest .. | .outputCommandReceived .. | .holdCommandReceived .. |
  .safeStateCommandReceived .. | .logicSilentTimeout .. | .timedDoInstant .. | .doOverloadTrip .. | .readbackMismatch .. |
  .openLoadDetect .. | .forceExpiry .. | .dapRead .. | .dapWrite .. | .dapLogin .. | .dapLogout .. | .dapDescribe .. |
  .aiOutput .. | .modulatorLossStart .. | .modulatorLossEnd .. | .modulatorFault .. | .burdenOpen .. | .burdenClose .. |
  .budgetOverrunAlert | .shedReceiverStop .. | .tachoTransition .. | .tachoFaultClear .. | .oscCorrectionOutOfRange .. |
  .timeHubDiffAlert | .voteHoldLimitExpiry .. | .twinHello .. | .twinKeepaliveSend .. | .leaseRenewSend .. | .twinRenew .. |
  .twinAck .. | .twinClaim .. | .twinRelease .. | .leaseCease .. | .leaseTake .. | .listenClaimTimeout .. |
  .aloneWaitExpiry .. | .revertClaim .. | .backboneClaimCompare .. | .shadowItemExpiry | .mirrorRecord .. | .catchup .. |
  .catchupTimeout .. | .fieldRestart .. | .laneWatchdog .. | .closeMarkerSilence .. | .hubRestart .. | .hubRejoin .. |
  .thermalTrip .. | .dieResetCommand .. | .internalLinkTransfer .. | .internalLinkDiscardLimit .. | .internalLinkSilence .. |
  .internalLinkRestored .. | .holdupReady .. | .powerFailWarning .. | .powerRestored .. | .holdupMeasure .. | .recoverPress ..
  | .recoverHold .. | .recoverStuck .. | .recoverRelease .. => true
  | _ => false

theorem stays_of_moduleInsn {c : Instr} (h : moduleInsn c = true) : Stays c := by
  cases c <;> try exact absurd h Bool.false_ne_true
  case fieldSample => apply fieldSample_stays
  case mvbPortReceived => apply mvbPortReceived_stays
  case mvbMessageReceived => apply mvbMessageReceived_stays
  case canFrameReceived => apply canFrameReceived_stays
  case serByteReceived => apply serByteReceived_stays
  case serFrameEnd => apply serFrameEnd_stays
  case evaluatorCycle => apply evaluatorCycle_stays
  case commandInactiveTimer => apply commandInactiveTimer_stays
  case logicSilentTimeout => apply logicSilentTimeout_stays
  case timedDoInstant => apply timedDoInstant_stays
  case leaseRenewSend => apply leaseRenewSend_stays
  case twinRenew => apply twinRenew_stays
  case twinAck => apply twinAck_stays
  case twinClaim => apply twinClaim_stays
  case twinRelease => apply twinRelease_stays
  case mirrorRecord => apply mirrorRecord_stays
  case catchup => apply catchup_stays
  case hubRejoin => apply hubRejoin_stays
  case powerFailWarning => apply powerFailWarning_stays
  all_goals
    intro s
    refine ⟨_, rfl, ?_⟩
  any_goals dsimp only
  all_goals (repeat' split) <;> simp

/-- The commands of the train and of storage: backbone, inauguration, consist ports, sessions, recorder, loft and passwords (02, 09 to
11, 17, 18). -/
def trainInsn : Instr → Bool
  | .alignmentMarker .. | .linkPeerSilence .. | .linkDown .. | .relayStartBlock .. | .bellSend .. | .slotTransmit .. |
  .backboneFrameReceived .. | .speedRefTelegram .. | .datumTelegram .. | .utcTelegram .. | .bellReceived .. |
  .coldBellReceived .. | .bellLoss .. | .probeSend .. | .probeReceived .. | .echoReceived .. | .linkDelayLoss .. |
  .rosterSend .. | .rosterReceived .. | .chainOriginate .. | .edgeDetected .. | .outwardChain .. | .inwardChain .. |
  .mergeYield | .listenTimeout .. | .claimConfirmed | .contentionTimeout | .unitAbsenceRemoval .. | .recordReceived .. |
  .suppressionRunEnd .. | .bufferAgeFlush .. | .operatingSecondTick | .mramWriteError .. | .freezeExpiry .. | .recClear .. |
  .clearSweepComplete .. | .recWindowRead .. | .storageLinkChange .. | .migrationPageWrite .. | .yardWriteComplete .. |
  .yardHeaderWrite .. | .yardCommandError .. | .yardHealthPoll .. | .chunk .. | .chunkStaleTimeout .. | .packageExpiry .. |
  .settingsPartWrite .. | .pwdSet .. | .passwordDerivationDone .. | .lockoutExpiry .. | .dictWrite .. | .portFrameReceived ..
  | .macAgeing .. | .arpRequest .. | .icmpEchoRequest .. | .consistPortLinkChange .. | .hello .. | .finish .. |
  .fragmentTimeout .. | .handshakeTimeout .. | .sessionDapRecord .. | .sessionTelegramRecord .. | .sessionPing .. |
  .sessionCloseRecord .. | .rekey .. | .rekeyAnswer .. | .moduleRekeyStart .. | .rekeyRetry .. | .phaseKeyErase .. |
  .idlePing .. | .sessionIdleTimeout .. | .pathForget .. | .certExpiry .. | .trdpProcessData .. => true
  | _ => false

theorem stays_of_trainInsn {c : Instr} (h : trainInsn c = true) : Stays c := by
  cases c <;> try exact absurd h Bool.false_ne_true
  case portFrameReceived => apply portFrameReceived_stays
  case sessionDapRecord => apply sessionDapRecord_stays
  case sessionTelegramRecord => apply sessionTelegramRecord_stays
  case sessionCloseRecord => apply sessionCloseRecord_stays
  case rekey => apply rekey_stays
  case rekeyAnswer => apply rekeyAnswer_stays
  all_goals
    intro s
    refine ⟨_, rfl, ?_⟩
  any_goals dsimp only
  all_goals (repeat' split) <;> simp

/-- The commands that are one write of an entry, some for the entries of one table alone (02 R43). -/
def writeInsn : Instr → Bool
  | .stallLoad .. | .stallReplace .. | .stallCmdStart .. | .stallCmdStop .. | .stallCmdRestart .. | .stallCmdUnload .. |
  .stallHold .. | .stallRelease .. | .stallImapWrite .. | .cycleModeCmdRun .. | .cycleModeCmdStop .. | .cycleCpfWrite .. |
  .restableCmd .. | .laneReset .. | .brWindowWrite .. | .safEditOpen .. | .safEditDiscard .. | .safParamWrite .. |
  .safTypeWrite .. | .safCommit .. | .doReset .. | .doSafeStateWrite .. | .diForce .. | .doForce .. | .aiForce .. |
  .forceClearAll .. | .selectWrite .. | .lockBitsWrite .. | .lockAtStartWrite .. | .supplyModeCmd .. | .bbKeyActive .. |
  .bbDatumAnnounce .. | .bbPlanLoad .. | .bbCompanionLoad .. | .bbCompanionRemove .. | .posDatumSet .. | .trigCancel .. |
  .pcCtrlWrite .. | .pcClear .. | .pcSnapCmd .. | .pcSampleKWrite .. | .pcLatArm .. | .twinEnableWrite .. |
  .twinDoParallelWrite .. | .recFreezeOn .. | .recFreezeOff .. | .yardFormat .. | .sessClose .. | .sessReserve .. |
  .sessDeny .. | .updOpen .. | .updAbort .. | .updActivateArm .. | .updActivateDisarm .. | .updFallback .. | .loftDelete .. |
  .setReset .. | .trRootLoad .. | .trCaLoad .. | .trRootClear .. | .trCaClear .. | .trLockMaskWrite .. | .resetCmd .. |
  .recoveryPwdReset .. => true
  | _ => false

theorem stays_of_writeCmd {c : Instr} {h : Handler} {e : Entry} {ctx idx sub v : Nat} (hk : KeepsQk h)
    (hc : ∀ s, exec c s = .next (writeCmd h e ctx idx sub v s)) : Stays c :=
  fun s => ⟨_, hc s, writeCmd_qk hk e ctx idx sub v s⟩

theorem stays_of_writeInsn {c : Instr} (h : writeInsn c = true) : Stays c := by
  cases c <;> try exact absurd h Bool.false_ne_true
  case selectWrite | safParamWrite | lockBitsWrite | lockAtStartWrite =>
    intro s
    refine ⟨_, rfl, ?_⟩
    (repeat' split) <;> simp [writeCmd_key]
  all_goals
    refine stays_of_writeCmd ?_ (fun _ => rfl)
    simp [keepsQk_of_keeps, hStallCmd_keepsQk, hStallHold_keepsQk, hCycleMode_keepsQk, hDiForce, hDoForce, hAiForce,
      hCompanionLoad_keepsQk, hTwinEnable_keepsQk, hTrCaLoad_keepsQk, hTrCaClear_keepsQk]

theorem stays_of_stallInsn {c : Instr} (h : stallInsn c = true) : Stays c := by
  rcases runsUnseen_of_stallInsn h with ⟨core, charge, body, hc, -⟩ | hc
  · exact fun s => ⟨_, hc s, runInsn_qk ..⟩
  · exact fun s => ⟨s, hc s, rfl⟩

/-! ## Commands that may restart the module -/

/-- The command answers a state with the queue as it was, and with crossing 0 where it moves the crossing's number. -/
def StaysOrRestarts (c : Instr) : Prop :=
  ∀ s, does c s fun t => qk (keyView t) = qk (keyView s) ∨ qk (keyView t) = (s.pending, 0)

theorem hubWatchdog_restarts (hub : Fin 2) (i : Nat) : StaysOrRestarts (.hubWatchdog hub i) := by
  intro s
  refine ⟨_, rfl, iteInduction (motive := fun t => qk (keyView t) = qk (keyView s) ∨ qk (keyView t) = (s.pending, 0))
    (fun _ => .inr (resetDies_qk ..)) fun _ => .inl ?_⟩
  simp

theorem hubAloneTimeout_restarts (hub : Fin 2) (i : Nat) : StaysOrRestarts (.hubAloneTimeout hub i) := by
  intro s
  refine ⟨_, rfl, ?_⟩
  dsimp only
  split
  · exact .inl rfl
  · split
    · left
      (repeat' split) <;> simp
    · split
      · right
        rw [qk_mk, handOver_qk, updHub_key, resetDies_qk]
      · exact .inl rfl

theorem supplyGood_restarts (i : Nat) : StaysOrRestarts (.supplyGood i) := by
  intro s
  refine ⟨_, rfl, ?_⟩
  split
  · exact .inl rfl
  · right
    dsimp only
    rw [qk_mk, resetDies_qk]

theorem holdupExhausted_restarts (i : Nat) : StaysOrRestarts (.holdupExhausted i) := by
  intro s
  refine ⟨_, rfl, ?_⟩
  split
  · exact .inl rfl
  · exact .inr (restartLogic_qk s)

theorem moduleStart_restarts (rep : StartReport) : StaysOrRestarts (.moduleStart rep) := by
  intro s
  refine ⟨_, rfl, ?_⟩
  split
  · exact startPhases_qk s rep
  · split
    · right
      have hreset := resetSequence_qk s 2
      obtain ⟨hpending, -⟩ := pending_k_of_qk hreset
      rcases startPhases_qk (resetSequence s 2) rep with h | h
      · rw [h, hreset]
      · rw [h, hpending]
    · exact .inl rfl

/-! ## Every command -/

/-- What a command makes of the queue and of the crossing's number. -/
def Moves (c : Instr) : Prop :=
  ∀ s, does c s fun t => t.pending = s.pending ∧
    (t.cyc.k = s.cyc.k ∨ (c = .crossingBoundary ∧ t.cyc.k = s.cyc.k + 1) ∨ t.cyc.k = 0)

theorem moves_of_staysOrRestarts {c : Instr} (h : StaysOrRestarts c) : Moves c := fun s => by
  obtain ⟨t, ht, hqk | hqk⟩ := h s
  · exact ⟨t, ht, pending_of_qk hqk, .inl (k_of_qk hqk)⟩
  · obtain ⟨hpending, hk⟩ := pending_k_of_qk hqk
    exact ⟨t, ht, hpending, .inr (.inr hk)⟩

theorem moves_of_stays {c : Instr} (h : Stays c) : Moves c :=
  moves_of_staysOrRestarts fun s => let ⟨t, ht, hqk⟩ := h s; ⟨t, ht, .inl hqk⟩

theorem crossingBoundary_moves : Moves .crossingBoundary := by
  intro s
  refine ⟨_, rfl, ?_⟩
  split
  · rcases crossBoundary_qk s with h | h
    · obtain ⟨hpending, hk⟩ := pending_k_of_qk h
      exact ⟨hpending, .inr (.inl ⟨rfl, hk⟩)⟩
    · obtain ⟨hpending, hk⟩ := pending_k_of_qk h
      exact ⟨hpending, .inr (.inr hk)⟩
  · exact ⟨rfl, .inl rfl⟩

/-- The commands that leave the queue and the crossing's number. -/
def staysInsn (c : Instr) : Bool := stallInsn c || writeInsn c || moduleInsn c || trainInsn c

theorem stays_of_staysInsn {c : Instr} (h : staysInsn c = true) : Stays c := by
  simp only [staysInsn, Bool.or_eq_true, or_assoc] at h
  rcases h with h | h | h | h
  · exact stays_of_stallInsn h
  · exact stays_of_writeInsn h
  · exact stays_of_moduleInsn h
  · exact stays_of_trainInsn h

theorem moves_all (c : Instr) : Moves c := by
  by_cases h : staysInsn c = true
  · exact moves_of_stays (stays_of_staysInsn h)
  · cases c
    case hubWatchdog => exact moves_of_staysOrRestarts (hubWatchdog_restarts _ _)
    case hubAloneTimeout => exact moves_of_staysOrRestarts (hubAloneTimeout_restarts _ _)
    case supplyGood => exact moves_of_staysOrRestarts (supplyGood_restarts _)
    case holdupExhausted => exact moves_of_staysOrRestarts (holdupExhausted_restarts _)
    case moduleStart => exact moves_of_staysOrRestarts (moduleStart_restarts _)
    case crossingBoundary => exact crossingBoundary_moves
    all_goals exact absurd rfl h

theorem exec_eq_next {c : Instr} {s t u : State} (h : exec c s = .next t) (hu : exec c s = .next u) : u = t :=
  Host.Outcome.next.inj (hu.symm.trans h)

end Sys2Proof.Machine

open Sys2Proof.Machine in
/-- Settles O55: each command answers a state, as each family of commands does. -/
theorem everyCommandAnswers : Obligations.EveryCommandAnswers := fun c s =>
  let ⟨t, ht, _⟩ := moves_all c s
  ⟨t, ht⟩

open Sys2Proof.Machine in
/-- Settles O56: no operation that a command is made of touches the queue, and a restart keeps it. -/
theorem queueUntouched : Obligations.QueueUntouched := by
  intro c s t ht
  obtain ⟨u, hu, hpending, -⟩ := moves_all c s
  rw [exec_eq_next hu ht, hpending]

open Sys2Proof.Machine in
/-- Settles O59: only the advance of a boundary writes the crossing's number, and only a restart or a start sets it to 0. -/
theorem crossingNumber : Obligations.CrossingNumber := by
  intro c s t ht
  obtain ⟨u, hu, -, hk⟩ := moves_all c s
  rw [exec_eq_next hu ht]
  exact hk

/-!
PROOFS. O15, first part: what the close of a crossing leaves of the images and of the hubs' time, and whose marker a boundary takes.
-/

namespace Sys2Proof.Machine

open Sys2Proof.Claims Safe

/-- Whether a hub is up, and how its time stands. -/
def hubTime (d : HubDie) : Bool × Bool × Nat := (d.failed, d.restarting, d.timeState)

/-- What a boundary reads to find T_k: whether crossings run, the hubs' images and the hubs' time. -/
def pace (s : State) : Bool × Vector HubImage 2 × Vector (Bool × Bool × Nat) 2 :=
  (s.cyc.running, s.cyc.hubImg, s.hubs.map hubTime)

section
variable {s t : State}

theorem pace_of_eq (hr : t.cyc.running = s.cyc.running) (hi : t.cyc.hubImg = s.cyc.hubImg)
    (hh : t.hubs.map hubTime = s.hubs.map hubTime) :
    pace t = pace s := by
  rw [pace, pace, hr, hi, hh]

theorem pace_of_hubs (hc : t.cyc = s.cyc) (hh : t.hubs = s.hubs) : pace t = pace s := by rw [pace, pace, hc, hh]

theorem running_of_pace (h : pace t = pace s) : t.cyc.running = s.cyc.running := congrArg Prod.fst h

theorem hubImg_of_pace (h : pace t = pace s) : t.cyc.hubImg = s.cyc.hubImg := congrArg (·.2.1) h

theorem hub_of_pace (h : pace t = pace s) (i : Nat) :
    (getHub t i).failed = (getHub s i).failed ∧ (getHub t i).restarting = (getHub s i).restarting ∧
      (getHub t i).timeState = (getHub s i).timeState := by
  have hm := congrArg (fun p => vget p.2.2 i (false, false, 0)) h
  by_cases hi : i < 2
  · simpa [pace, hubTime, getHub, vget, hi] using hm
  · simp [getHub, vget, hi]

theorem timeHub_of_pace (h : pace t = pace s) : timeHub t = timeHub s := by
  simp [timeHub, hubUp, timeValid, hub_of_pace h]

end

section
variable (s : State)

@[simp] theorem svi_pace (e : Entry) (inst v : Nat) : pace (svi s e inst v) = pace s := pace_of_hubs (svi_cyc ..) (svi_hubs ..)

@[simp] theorem bump_pace (e : Entry) : pace (bump s e) = pace s := pace_of_hubs (bump_cyc ..) (bump_hubs ..)

@[simp] theorem bumpi_pace (e : Entry) (inst : Nat) : pace (bumpi s e inst) = pace s := pace_of_hubs (bumpi_cyc ..) (bumpi_hubs ..)

@[simp] theorem updLane_pace (l : Nat) (f : Lane → Lane) : pace (updLane s l f) = pace s := rfl

theorem pace_sup (sup : Sup) : pace { s with sup := sup } = pace s := rfl

theorem updVoter_pace (h : Nat) (f : Voter → Voter) : pace (updVoter s h f) = pace s :=
  pace_of_eq rfl rfl (map_vupd _ _ _ _ fun _ => rfl)

@[simp] theorem deliver_pace (origin : Nat) (r : Record) : pace (deliver s origin r) = pace s := by
  refine pace_of_eq rfl rfl (Vector.ext fun i hi => ?_)
  simp only [deliver, Vector.getElem_map, Vector.getElem_mapIdx]
  split <;> rfl

theorem emitJ_pace (origin t src code sev : Nat) (data : List Byte) (stall : Nat) :
    pace (emitJ s origin t src code sev data stall).2 = pace s := by
  unfold emitJ
  dsimp only
  (repeat' split) <;> simp <;> rfl

@[simp] theorem emitL_pace (src code sev : Nat) (data : List Byte) (stall : Nat) :
    pace (emitL s src code sev data stall) = pace s :=
  emitJ_pace ..

theorem twinSend_pace (l t : Nat) (kind : EgKind) (b c : Nat) (data : List Byte) : pace (twinSend s l t kind b c data) = pace s :=
  view_ite pace rfl rfl

theorem setLease_pace (new t : Nat) : pace (setLease s new t) = pace s := by
  refine view_ite pace rfl ?_
  rw [emitL_pace]
  exact view_ite pace (bump_pace ..) rfl

theorem refreshLease_pace : pace (refreshLease s) = pace s := view_ite pace rfl (emitL_pace ..)

theorem ceaseLease_pace (t : Nat) : pace (ceaseLease s t) = pace s := view_ite pace (setLease_pace ..) rfl

theorem releaseLease_pace (t : Nat) : pace (releaseLease s t) = pace s := by
  unfold releaseLease
  dsimp only
  rw [refreshLease_pace, ceaseLease_pace,
    foldl_keeps pace _ fun s l => foldl_keeps pace _ (fun s d => twinSend_pace s ..) [0, 1000, 2000] s]
  rfl

/-- What the voters hold says nothing of the hubs' time. -/
theorem voters_time (hubs : Vector HubDie 2) (f : HubDie → Voter) :
    (hubs.map (fun h => { h with voter := f h })).map hubTime = hubs.map hubTime :=
  Vector.ext fun i hi => by simp [hubTime]

theorem moduleLost_pace (cause : Nat) : pace (moduleLost s cause) = pace s := by
  have lost : ∀ u : State, pace { u with
      agree.lost := true, st.fatal := true, cyc.runs := Vector.replicate 16 {}, sup.outs := []
      hubs := u.hubs.map (fun h => { h with voter.safeCmd := true, voter.words := [], voter.items := [] }) } = pace u :=
    fun u => pace_of_eq rfl rfl (voters_time u.hubs _)
  unfold moduleLost
  split
  · rfl
  · dsimp only
    rw [lost, releaseLease_pace, emitL_pace]

theorem abandon_pace (l cause : Nat) : pace (abandon s l cause) = pace s := by
  unfold abandon
  split
  · rfl
  · dsimp only
    rw [updLane_pace, bumpi_pace, emitL_pace]

theorem rollback_pace : pace (rollback s) = pace s := by
  show pace (undoBack s) = _
  unfold undoBack
  split <;> rfl

theorem diverge_pace (i : Nat) : pace (diverge s i) = pace s := by
  unfold diverge
  split
  · rfl
  · dsimp only
    rw [emitL_pace]
    rfl

theorem restart_pace (executed : Bool) (div : Option Nat) : pace (mismatch.restart s executed div) = pace s := by
  have back : pace (rollback (abandonAll s 0xFF)) = pace s := by
    rw [rollback_pace, abandonAll, abandon_pace, abandon_pace, abandon_pace]
  unfold mismatch.restart
  dsimp only
  generalize rollback (abandonAll s 0xFF) = u at back
  rw [← back]
  cases div with
  | none => exact pace_of_eq rfl rfl (voters_time u.hubs _)
  | some i =>
    rw [← diverge_pace u i]
    dsimp only
    generalize diverge u i = w
    exact pace_of_eq rfl rfl (voters_time w.hubs _)

theorem mismatch_pace (cause : Nat) (named : List Nat) (executed : Bool) : pace (mismatch s cause named executed) = pace s := by
  have noted : pace (mismatchNoted s cause named) = pace s := (emitL_pace ..).trans (bump_pace ..)
  have answered : ∀ u second sid, pace (mismatchAnswer u second sid executed) = pace u := fun u second sid => by
    unfold mismatchAnswer
    split
    · exact view_ite pace (restart_pace ..) (moduleLost_pace ..)
    · exact restart_pace ..
  rw [mismatch_eq]
  exact view_ite pace rfl ((answered ..).trans noted)

theorem laneFault_pace (l cause det : Nat) (named : List Nat) (executed : Bool) :
    pace (laneFault s l cause det named executed) = pace s := by
  have noted : pace (faultNoted s l cause det) = pace s := by
    unfold faultNoted
    rw [updLane_pace, bumpi_pace, emitL_pace]
  rw [laneFault_eq]
  dsimp only
  refine view_ite pace rfl (view_ite pace rfl ?_)
  rw [← noted]
  refine view_ite pace (view_ite pace ?_ (view_ite pace (mismatch_pace ..) ?_)) (abandon_pace ..)
  · rw [updLane_pace, svi_pace]
    rfl
  · rw [moduleLost_pace, updLane_pace]

theorem judgeLag_pace : pace (judgeLag s) = pace s := by
  unfold judgeLag
  split
  · rfl
  · exact laneFault_pace ..
  · dsimp only
    refine view_ite pace (emitL_pace ..) ?_
    exact emitL_pace { s with cyc.lagLanes := [] } ..

theorem votersBoundary_pace : pace (votersBoundary s) = pace s := by
  unfold votersBoundary
  dsimp only
  rw [pace_sup, updVoter_pace, updVoter_pace]

theorem crossingCycles_pace (l core : Nat) : pace (crossingCycles s l core) = pace s := by
  refine (foldl_keeps pace _ (fun _ _ => ?_) _ _).trans rfl
  exact view_ite pace rfl rfl

theorem perfCrossing_pace (shut : Nat → Bool) : pace (perfCrossing s shut) = pace s :=
  foldl_keeps pace _ (fun _ _ => view_ite pace rfl (crossingCycles_pace ..)) _ s

theorem closeCrossing_pace : pace (closeCrossing s) = pace s := by
  unfold closeCrossing
  dsimp only
  rw [perfCrossing_pace]
  exact (votersBoundary_pace _).trans (judgeLag_pace s)

end

theorem timeHub_cases (s : State) : timeHub s = 0 ∨ timeHub s = 1 := by
  unfold timeHub
  (repeat' split) <;> simp

/-- The image of the hub that the lanes follow is closed, for the next crossing. -/
theorem timeHub_closed {s : State} (hc : imagesClosed s = true) :
    (vget s.cyc.hubImg (timeHub s) {}).closed = true ∧ (vget s.cyc.hubImg (timeHub s) {}).k = s.cyc.k + 1 := by
  obtain ⟨hany, hall⟩ := Bool.and_eq_true_iff.mp hc
  have hup : hubUp s (timeHub s) = true := by
    unfold timeHub
    split
    · simp_all
    · split <;> simp_all
  obtain h | h := timeHub_cases s <;> simpa [hup] using List.all_eq_true.mp hall (timeHub s) (by simp [h])

theorem marker_of_closed {s : State} {h : Nat} (hc : (vget s.cyc.hubImg h {}).closed = true)
    (hk : (vget s.cyc.hubImg h {}).k = s.cyc.k + 1) :
    marker s h = ((vget s.cyc.hubImg h {}).tk, (vget s.cyc.hubImg h {}).step) := by
  simp [marker, hc, hk]

end Sys2Proof.Machine

/-!
PROOFS. O15, second part: no step of a boundary after the advance writes T_k or stops the crossings.
-/

namespace Sys2Proof.Machine

open Sys2Proof.Claims Safe

/-- T_k, and whether crossings run. -/
def clock (s : State) : Nat × Bool := (s.cyc.tk, s.cyc.running)

theorem clock_of_cyc {s t : State} (h : t.cyc = s.cyc) : clock t = clock s := by rw [clock, clock, h]

theorem tk_running_of_clock {t : State} {n : Nat} {b : Bool} (h : clock t = (n, b)) : t.cyc.tk = n ∧ t.cyc.running = b :=
  Prod.mk.inj h

@[simp] theorem clock_ite (c : Prop) [Decidable c] (s t : State) :
    clock (if c then s else t) = if c then clock s else clock t := by
  split <;> rfl

theorem clock_foldl {α : Type} {f : State → α → State} (h : ∀ s a, clock (f s a) = clock s) (l : List α) (s : State) :
    clock (l.foldl f s) = clock s :=
  foldl_keeps clock f h l s

@[simp] theorem clock_mk (x : State) (sup agreed : Sup) (lanes : Vector Lane 3) (agree : Agree) (ilinks : Vector ILink 34)
    (hubs : Vector HubDie 2) (hubDiff : Int) (hubDiffRun : Nat) (hubDiffDone : Bool) (recd : Recorder) (supply : Supply)
    (shedHub : Vector ShedHub 12) (bb : Backbone) (con : Consist) (twin : Twin) (br : Bridge) (field : Field)
    (tacho : Vector Tacho 4) (saf : Safety) (upd : Update) (perf : Perf) (st : Startup) (cnt : NMap Nat) (egress : List Egress)
    (pending : List Instr) :
    clock (State.mk sup agreed x.cyc lanes agree ilinks hubs hubDiff hubDiffRun hubDiffDone recd supply shedHub bb con twin br
      field tacho saf upd perf st cnt egress pending) = clock x :=
  rfl

@[simp] theorem clock_mk_cyc (x : State) (sup agreed : Sup) (k c : Nat) (lagLanes : List Nat)
    (hubOpen : Vector (List Item) 2) (hubImg : Vector HubImage 2) (head : HeadVals) (agreedK endDone : Option Nat)
    (discards : Vector Nat 2) (skipFrom : Option Nat) (lastStep : Int) (runs : Vector CoreRun 16) (lanes : Vector Lane 3)
    (agree : Agree) (ilinks : Vector ILink 34) (hubs : Vector HubDie 2) (hubDiff : Int) (hubDiffRun : Nat) (hubDiffDone : Bool)
    (recd : Recorder) (supply : Supply) (shedHub : Vector ShedHub 12) (bb : Backbone) (con : Consist) (twin : Twin)
    (br : Bridge) (field : Field) (tacho : Vector Tacho 4) (saf : Safety) (upd : Update) (perf : Perf) (st : Startup)
    (cnt : NMap Nat) (egress : List Egress) (pending : List Instr) :
    clock (State.mk sup agreed (Cycle.mk k x.cyc.tk c x.cyc.running lagLanes hubOpen hubImg head agreedK endDone discards
      skipFrom lastStep runs) lanes agree ilinks hubs hubDiff hubDiffRun hubDiffDone recd supply shedHub bb con twin br field
      tacho saf upd perf st cnt egress pending) = clock x :=
  rfl

/-! ## Operations on the state -/

@[simp] theorem freeNext_clock (s : State) : clock (freeNext s) = clock s := by
  rfl

@[simp] theorem svx_clock (s : State) (e : Entry) (idx sub inst v : Nat) : clock (svx s e idx sub inst v) = clock s :=
  clock_of_cyc (svx_cyc ..)

@[simp] theorem svs_clock (s : State) (e : Entry) (sub inst v : Nat) : clock (svs s e sub inst v) = clock s :=
  clock_of_cyc (svs_cyc ..)

@[simp] theorem svi_clock (s : State) (e : Entry) (inst v : Nat) : clock (svi s e inst v) = clock s :=
  clock_of_cyc (svi_cyc ..)

@[simp] theorem sv_clock (s : State) (e : Entry) (v : Nat) : clock (sv s e v) = clock s :=
  clock_of_cyc (sv_cyc ..)

@[simp] theorem bumpx_clock (s : State) (e : Entry) (idx sub inst n : Nat) : clock (bumpx s e idx sub inst n) = clock s :=
  clock_of_cyc (bumpx_cyc ..)

@[simp] theorem bumps_clock (s : State) (e : Entry) (sub inst n : Nat) : clock (bumps s e sub inst n) = clock s :=
  clock_of_cyc (bumps_cyc ..)

@[simp] theorem bumpi_clock (s : State) (e : Entry) (inst : Nat) : clock (bumpi s e inst) = clock s :=
  clock_of_cyc (bumpi_cyc ..)

@[simp] theorem bump_clock (s : State) (e : Entry) : clock (bump s e) = clock s :=
  clock_of_cyc (bump_cyc ..)

@[simp] theorem updCtx_clock (s : State) (ctx : Nat) (f : Context → Context) : clock (updCtx s ctx f) = clock s := by
  rfl

@[simp] theorem updStall_clock (s : State) (i : Nat) (f : Stall → Stall) : clock (updStall s i f) = clock s := by
  rfl

@[simp] theorem setStall_clock (s : State) (i : Nat) (st : Stall) : clock (setStall s i st) = clock s := by
  rfl

@[simp] theorem updLane_clock (s : State) (l : Nat) (f : Lane → Lane) : clock (updLane s l f) = clock s := by
  rfl

@[simp] theorem updHub_clock (s : State) (h : Nat) (f : HubDie → HubDie) : clock (updHub s h f) = clock s := by
  rfl

@[simp] theorem updShed_clock (s : State) (i : Nat) (f : Shed → Shed) : clock (updShed s i f) = clock s := by
  rfl

@[simp] theorem send_clock (s : State) (e : Egress) : clock (send s e) = clock s := by
  rfl

@[simp] theorem deliver_clock (s : State) (origin : Nat) (r : Record) : clock (deliver s origin r) = clock s := by
  rfl

@[simp] theorem emitJ_clock (s : State) (origin t src code sev : Nat) (data : List Byte) (stall : Nat) :
    clock (emitJ s origin t src code sev data stall).2 = clock s :=
  clock_of_cyc (emitJ_cyc ..)

@[simp] theorem emitL_clock (s : State) (src code sev : Nat) (data : List Byte) (stall : Nat := 0xFFFF) :
    clock (emitL s src code sev data stall) = clock s :=
  clock_of_cyc (emitL_cyc ..)

@[simp] theorem emitH_clock (s : State) (hub t src code sev : Nat) (data : List Byte) :
    clock (emitH s hub t src code sev data) = clock s :=
  clock_of_cyc (emitH_cyc ..)

@[simp] theorem laneTx_clock (s : State) (n : Nat) : clock (laneTx s n) = clock s := by
  rfl

@[simp] theorem pushResp_clock (s : State) (r : Resp) : clock (pushResp s r) = clock s := by
  unfold pushResp
  simp

@[simp] theorem respond_clock (s : State) (r : Resp) : clock (respond s r) = clock s :=
  clock_of_cyc (respond_cyc ..)

@[simp] theorem noteRefusal_clock (s : State) (ctx idx sub code pkg : Nat) (own : Bool) :
    clock (noteRefusal s ctx idx sub code pkg own) = clock s :=
  clock_of_cyc (noteRefusal_cyc ..)

/-! ## Writes -/

/-- A handler leaves T_k and the running of crossings. -/
def Still (h : Handler) : Prop := (∀ s w, clock (h.eff s w) = clock s) ∧ ∀ s w c, clock (h.refused s w c) = clock s

@[simp] theorem arbRefuse_clock (s : State) (w : WReq) (blk : Nat) : clock (arbRefuse s w blk) = clock s := by
  unfold arbRefuse
  simp

@[simp] theorem answerW_clock (s : State) (w : WReq) (code : Nat) : clock (answerW s w code) = clock s := by
  unfold answerW
  simp

@[simp] theorem logWrite_clock (s : State) (w : WReq) (e : Entry) : clock (logWrite s w e) = clock s := by
  rfl

theorem applyW_clock {h : Handler} (hk : Still h) (e : Entry) (s : State) (w : WReq) : clock (applyW h e s w) = clock s := by
  have accepted : clock (acceptedW h e s w) = clock s := by
    unfold acceptedW
    dsimp only
    (repeat' split) <;> simp [hk.1]
  have refused : clock (refusedW h e s w) = clock s := by
    unfold refusedW
    dsimp only
    (repeat' split) <;> simp [hk.2]
  rw [applyW_eq]
  (repeat' split) <;> simp [accepted, refused]

@[simp] theorem storeEff_clock (e : Entry) (s : State) (w : WReq) : clock (storeEff e s w) = clock s := by
  unfold storeEff
  simp

/-! ## The mooring lease -/

@[simp] theorem updTLink_clock (s : State) (l : Nat) (f : TLink → TLink) : clock (updTLink s l f) = clock s := by
  rfl

@[simp] theorem setLease_clock (s : State) (new t : Nat) : clock (setLease s new t) = clock s := by
  unfold setLease
  simp

@[simp] theorem refreshLease_clock (s : State) : clock (refreshLease s) = clock s := by
  unfold refreshLease
  simp

@[simp] theorem twinSend_clock (s : State) (l t : Nat) (kind : EgKind) (b c : Nat) (data : List Byte) :
    clock (twinSend s l t kind b c data) = clock s := by
  unfold twinSend
  simp

@[simp] theorem ceaseLease_clock (s : State) (t : Nat) : clock (ceaseLease s t) = clock s := by
  unfold ceaseLease
  simp

@[simp] theorem releaseLease_clock (s : State) (t : Nat) : clock (releaseLease s t) = clock s := by
  unfold releaseLease
  simp [clock_foldl]

/-! ## Stall control -/

@[simp] theorem cancelTriggers_clock (s : State) (id : Nat) : clock (cancelTriggers s id) = clock s := by
  rfl

@[simp] theorem dropDecls_clock (s : State) (old new : List Decl) : clock (dropDecls s old new) = clock s := by
  rfl

@[simp] theorem loadEff_clock (s : State) (w : WReq) : clock (loadEff s w) = clock s := by
  unfold loadEff
  dsimp only
  split <;> simp

@[simp] theorem replaceEff_clock (s : State) (w : WReq) : clock (replaceEff s w) = clock s := by
  unfold replaceEff
  split <;> simp

@[simp] theorem endRuns_clock (s : State) (id : Nat) : clock (endRuns s id) = clock s := by
  rfl

@[simp] theorem beginRestart_clock (s : State) (id : Nat) (keepAdmission : Bool) :
    clock (beginRestart s id keepAdmission) = clock s := by
  unfold beginRestart
  dsimp only
  split <;> simp

@[simp] theorem holdMode_clock (s : State) (ctx : Nat) : clock (holdMode s ctx) = clock s := by
  unfold holdMode
  simp

@[simp] theorem beginUnload_clock (s : State) (id : Nat) : clock (beginUnload s id) = clock s := by
  unfold beginUnload
  dsimp only
  split <;> simp

@[simp] theorem cmdEff_clock (s : State) (w : WReq) : clock (cmdEff s w) = clock s := by
  unfold cmdEff
  (repeat' split) <;> simp

@[simp] theorem holdEff_clock (s : State) (w : WReq) : clock (holdEff s w) = clock s := by
  unfold holdEff
  simp

/-! ## Lanes -/

@[simp] theorem abandon_clock (s : State) (l cause : Nat) : clock (abandon s l cause) = clock s := by
  unfold abandon
  split <;> simp

@[simp] theorem abandonAll_clock (s : State) (cause : Nat) : clock (abandonAll s cause) = clock s := by
  unfold abandonAll
  simp

@[simp] theorem moduleLost_clock (s : State) (cause : Nat) : clock (moduleLost s cause) = clock s := by
  unfold moduleLost
  simp

@[simp] theorem diverge_clock (s : State) (i : Nat) : clock (diverge s i) = clock s := by
  unfold diverge
  split <;> simp

@[simp] theorem countersAfter_clock (s : State) : clock (countersAfter s) = clock s := by
  rfl

@[simp] theorem undoBack_clock (s : State) : clock (undoBack s) = clock s := by
  unfold undoBack
  split <;> simp

@[simp] theorem rollback_clock (s : State) : clock (rollback s) = clock s := by
  unfold rollback
  simp

@[simp] theorem mismatch_clock (s : State) (cause : Nat) (named : List Nat) (executed : Bool) :
    clock (mismatch s cause named executed) = clock s := by
  have restarted : ∀ u div, clock (mismatch.restart u executed div) = clock u := fun u div => by
    unfold mismatch.restart
    cases div <;> simp
  have noted : clock (mismatchNoted s cause named) = clock s := by
    unfold mismatchNoted
    simp
  have answered : ∀ u second sid, clock (mismatchAnswer u second sid executed) = clock u := fun u second sid => by
    unfold mismatchAnswer
    (repeat' split) <;> simp [restarted]
  rw [mismatch_eq]
  split
  · rfl
  · rw [answered]
    exact noted

@[simp] theorem laneFault_clock (s : State) (l cause det : Nat) (named : List Nat := []) (executed : Bool := true) :
    clock (laneFault s l cause det named executed) = clock s := by
  unfold laneFault
  simp

@[simp] theorem laneRestarts_clock (s : State) (l : Nat) : clock (laneRestarts s l) = clock s := by
  rfl

@[simp] theorem commandReset_clock (s : State) (l : Nat) : clock (commandReset s l) = clock s := by
  rfl

@[simp] theorem beginBulk_clock (s : State) (l : Nat) (a : Attempt) : clock (beginBulk s l a) = clock s := by
  unfold beginBulk
  simp

@[simp] theorem stepAttempt_clock (s : State) (l : Nat) : clock (stepAttempt s l) = clock s := by
  unfold stepAttempt
  split <;> simp

@[simp] theorem lanesBoundary_clock (s : State) : clock (lanesBoundary s) = clock s := by
  unfold lanesBoundary
  simp

/-! ## Voter -/

@[simp] theorem voterFailures_clock (s : State) : clock (voterFailures s) = clock s := by
  unfold voterFailures
  simp

/-! ## Bridge -/

@[simp] theorem passGroup_clock (s : State) (n : Nat) : clock (passGroup s n) = clock s := by
  rfl

@[simp] theorem leaveGroups_clock (s : State) (i : Nat) : clock (leaveGroups s i) = clock s := by
  unfold leaveGroups
  simp [clock_foldl]

@[simp] theorem purgeGroups_clock (s : State) : clock (purgeGroups s) = clock s := by
  unfold purgeGroups
  simp [clock_foldl]

@[simp] theorem loadWindows_clock (s : State) : clock (loadWindows s) = clock s := by
  rfl

@[simp] theorem windowsBoundary_clock (s : State) : clock (windowsBoundary s) = clock s := by
  unfold windowsBoundary
  simp

/-! ## Evaluators -/

@[simp] theorem updDo_clock (s : State) (ch : Nat) (f : Do → Do) : clock (updDo s ch f) = clock s := by
  rfl

@[simp] theorem driveOne_clock (s : State) (ch : Nat) : clock (driveOne s ch) = clock s := by
  rfl

@[simp] theorem driveOutputs_clock (s : State) : clock (driveOutputs s) = clock s := by
  unfold driveOutputs
  simp [clock_foldl]

@[simp] theorem closeEdit_clock (s : State) (ctx : Nat) : clock (closeEdit s ctx) = clock s := by
  unfold closeEdit
  simp

@[simp] theorem pend_clock (s : State) (idx sub inst v : Nat) : clock (pend s idx sub inst v) = clock s := by
  rfl

@[simp] theorem activate_clock (s : State) : clock (activate s) = clock s := by
  rfl

@[simp] theorem abandonTests_clock (s : State) : clock (abandonTests s) = clock s := by
  rfl

@[simp] theorem commitEff_clock (s : State) (w : WReq) : clock (commitEff s w) = clock s := by
  rfl

/-! ## Field input and output -/

@[simp] theorem sendConfig_clock (s : State) : clock (sendConfig s) = clock s := by
  unfold sendConfig
  simp

/-! ## Force -/

@[simp] theorem setForces_clock (s : State) (kind : Nat) (m : NMap Force) : clock (setForces s kind m) = clock s := by
  unfold setForces
  simp

@[simp] theorem dropForce_clock (s : State) (kind ch cause : Nat) : clock (dropForce s kind ch cause) = clock s := by
  unfold dropForce
  simp

@[simp] theorem putForce_clock (s : State) (kind ch v ctx : Nat) : clock (putForce s kind ch v ctx) = clock s := by
  unfold putForce
  simp

@[simp] theorem dropAll_clock (s : State) (kind cause : Nat) : clock (dropAll s kind cause) = clock s := by
  unfold dropAll
  simp [clock_foldl]

/-! ## Energy -/

@[simp] theorem supplyLatch_clock (s : State) : clock (supplyLatch s) = clock s := by
  rfl

@[simp] theorem supplyBoundary_clock (s : State) : clock (supplyBoundary s) = clock s := by
  unfold supplyBoundary
  split <;> simp

@[simp] theorem shedEnter_clock (s : State) (i new : Nat) : clock (shedEnter s i new) = clock s := by
  unfold shedEnter
  simp

@[simp] theorem stepShed_clock (s : State) (i : Nat) : clock (stepShed s i) = clock s := by
  unfold stepShed
  dsimp only
  split <;> simp

@[simp] theorem energyBoundary_clock (s : State) : clock (energyBoundary s) = clock s := by
  unfold energyBoundary
  simp [clock_foldl]

/-! ## Tacho -/

@[simp] theorem hubDiffEvent_clock (s : State) : clock (hubDiffEvent s) = clock s := by
  unfold hubDiffEvent
  simp

@[simp] theorem measureHubDiff_clock (s : State) (d : Int) : clock (measureHubDiff s d) = clock s := by
  unfold measureHubDiff
  simp

/-! ## Backbone -/

@[simp] theorem updPlane_clock (s : State) (h : Nat) (f : Plane → Plane) : clock (updPlane s h f) = clock s := by
  rfl

@[simp] theorem setNode_clock (s : State) (h new : Nat) : clock (setNode s h new) = clock s := by
  unfold setNode
  simp

@[simp] theorem judgeEmpty_clock (s : State) (h x : Nat) : clock (judgeEmpty s h x) = clock s := by
  unfold judgeEmpty
  simp [clock_foldl]

@[simp] theorem planRefused_clock (s : State) (w : WReq) (code : Nat) : clock (planRefused s w code) = clock s := by
  unfold planRefused
  simp

/-! ## Triggers -/

@[simp] theorem putEntry_clock (s : State) (idx : Nat) (t : Trigger) (stamp n flags late k : Nat) :
    clock (putEntry s idx t stamp n flags late k) = clock s := by
  rfl

@[simp] theorem dropEntries_clock (s : State) (idx : Nat) (t : Trigger) : clock (dropEntries s idx t) = clock s := by
  rfl

@[simp] theorem freeTriggers_clock (s : State) : clock (freeTriggers s) = clock s := by
  rfl

@[simp] theorem decideArm_clock (s : State) (p : Posted) (req : Nat) : clock (decideArm s p req).2 = clock s := by
  unfold decideArm
  dsimp only
  (repeat' split) <;> simp

@[simp] theorem decideCancel_clock (s : State) (p : Posted) (h : Nat) : clock (decideCancel s p h).2 = clock s := by
  unfold decideCancel
  dsimp only
  (repeat' split) <;> simp

@[simp] theorem triggerRequests_clock (s : State) : clock (triggerRequests s) = clock s := by
  refine view_foldl_snd clock (fun a p => ?_) (postedOrder s.sup.posted) ([], s)
  dsimp only
  split
  · rfl
  · split
    · exact decideArm_clock ..
    · exact decideCancel_clock ..
    · rfl

@[simp] theorem endPositionTriggers_clock (s : State) : clock (endPositionTriggers s) = clock s := by
  unfold endPositionTriggers
  simp [clock_foldl]

@[simp] theorem datumBegin_clock (s : State) : clock (datumBegin s) = clock s := by
  unfold datumBegin
  simp

@[simp] theorem datumBoundary_clock (s : State) : clock (datumBoundary s) = clock s := by
  unfold datumBoundary
  split <;> simp

/-! ## Inauguration -/

@[simp] theorem rosterEffect_clock (s : State) (x : Nat) (r : Roster) : clock (rosterEffect s x r) = clock s := by
  unfold rosterEffect
  simp

@[simp] theorem holdItems_clock (s : State) : clock (holdItems s) = clock s := by
  rfl

@[simp] theorem joinBoundary_clock (s : State) : clock (joinBoundary s) = clock s := by
  unfold joinBoundary
  split <;> simp

@[simp] theorem slewMerge_clock (s : State) : clock (slewMerge s) = clock s := by
  unfold slewMerge
  simp

@[simp] theorem countAbsent_clock (s : State) : clock (countAbsent s) = clock s := by
  unfold countAbsent
  simp

@[simp] theorem landAfterMerge_clock (s : State) (h : Nat) : clock (landAfterMerge s h) = clock s := by
  unfold landAfterMerge
  split <;> simp

@[simp] theorem planeBoundary_clock (s : State) (h x : Nat) : clock (planeBoundary s h x) = clock s := by
  unfold planeBoundary
  dsimp only
  split <;> simp

@[simp] theorem ferryBoth_clock (s : State) : clock (ferryBoth s) = clock s := by
  unfold ferryBoth
  simp

@[simp] theorem openEdges_clock (s : State) : clock (openEdges s) = clock s := by
  rfl

@[simp] theorem backboneBoundary_clock (s : State) (x : Nat) : clock (backboneBoundary s x) = clock s := by
  unfold backboneBoundary
  dsimp only
  split <;> simp

/-! ## Performance counters -/

@[simp] theorem coreAll_clock (s : State) (core : Nat) (f : CorePerf → CorePerf) : clock (coreAll s core f) = clock s := by
  unfold coreAll
  simp

@[simp] theorem snapLatch_clock (s : State) (b : Nat) : clock (snapLatch s b) = clock s := by
  unfold snapLatch
  simp

@[simp] theorem snapDrop_clock (s : State) : clock (snapDrop s) = clock s := by
  unfold snapDrop
  split <;> simp

@[simp] theorem snapMissed_clock (s : State) (b : Nat) : clock (snapMissed s b) = clock s := by
  unfold snapMissed
  simp

/-! ## Twin -/

@[simp] theorem linkSession_clock (s : State) (l : Nat) (up : Bool) : clock (linkSession s l up) = clock s := by
  unfold linkSession
  simp

@[simp] theorem setMirror_clock (s : State) (i new : Nat) : clock (setMirror s i new) = clock s := by
  unfold setMirror
  split <;> simp

@[simp] theorem noteTwinDigest_clock (s : State) (x i : Nat) : clock (noteTwinDigest s x i) = clock s := by
  unfold noteTwinDigest
  split <;> simp

@[simp] theorem mirrorStep_clock (s : State) (x i : Nat) : clock (mirrorStep s x i) = clock s := by
  unfold mirrorStep
  (repeat' split) <;> simp

@[simp] theorem mirrorFeed_clock (s : State) (i : Nat) : clock (mirrorFeed s i) = clock s := by
  unfold mirrorFeed
  split <;> simp

@[simp] theorem twinBoundary_clock (s : State) (x : Nat) : clock (twinBoundary s x) = clock s := by
  unfold twinBoundary
  simp [clock_foldl]

/-! ## Journal -/

@[simp] theorem updJournal_clock (s : State) (h : Nat) (f : Journal → Journal) : clock (updJournal s h f) = clock s := by
  rfl

@[simp] theorem putSlot_clock (s : State) (h slot : Nat) (r : Record) : clock (putSlot s h slot r) = clock s := by
  rfl

@[simp] theorem journalPut_clock (s : State) (h : Nat) (r : Record) : clock (journalPut s h r) = clock s := by
  unfold journalPut
  dsimp only
  (repeat' split) <;> simp

@[simp] theorem flushBuffer_clock (s : State) (h : Nat) : clock (flushBuffer s h) = clock s := by
  unfold flushBuffer
  simp [clock_foldl]

@[simp] theorem flushAll_clock (s : State) : clock (flushAll s) = clock s := by
  unfold flushAll
  simp

@[simp] theorem endFreeze_clock (s : State) (t : Nat) : clock (endFreeze s t) = clock s := by
  unfold endFreeze
  split <;> simp

@[simp] theorem pauseTransfer_clock (s : State) : clock (pauseTransfer s) = clock s := by
  unfold pauseTransfer
  split <;> simp

/-! ## Recorder -/

@[simp] theorem updPwd_clock (s : State) (role : Nat) (f : Pwd → Pwd) : clock (updPwd s role f) = clock s := by
  rfl

@[simp] theorem pwdFail_clock (s : State) (role ctx : Nat) : clock (pwdFail s role ctx) = clock s := by
  unfold pwdFail
  simp

@[simp] theorem pwdPass_clock (s : State) (role : Nat) : clock (pwdPass s role) = clock s := by
  rfl

@[simp] theorem clearEff_clock (s : State) (w : WReq) : clock (clearEff s w) = clock s := by
  unfold clearEff
  simp

@[simp] theorem updYard_clock (s : State) (h : Nat) (f : Yard → Yard) : clock (updYard s h f) = clock s := by
  rfl

@[simp] theorem setYard_clock (s : State) (h new status t : Nat) : clock (setYard s h new status t) = clock s := by
  unfold setYard
  simp

@[simp] theorem refreshYards_clock (s : State) (t : Nat) : clock (refreshYards s t) = clock s := by
  unfold refreshYards
  simp

@[simp] theorem sendYardHeader_clock (s : State) (h seq : Nat) : clock (sendYardHeader s h seq) = clock s := by
  rfl

/-! ## Sessions -/

@[simp] theorem updSess_clock (s : State) (n : Nat) (f : Session → Session) : clock (updSess s n f) = clock s := by
  rfl

@[simp] theorem endContext_clock (s : State) (ctx : Nat) : clock (endContext s ctx) = clock s := by
  unfold endContext
  dsimp only
  rw [clock_mk]
  refine (view_ite clock (pauseTransfer_clock _) rfl).trans ?_
  split
  · exact (view_ite clock (endFreeze_clock ..) rfl).trans (closeEdit_clock ..)
  · exact closeEdit_clock ..

@[simp] theorem hubRecord_clock (s : State) (n t ty : Nat) (data : List Byte := []) :
    clock (hubRecord s n t ty data) = clock s := by
  unfold hubRecord
  split
  · rfl
  · dsimp only
    refine (clock_foldl (fun s p => ?_) _ _).trans (by simp)
    (repeat' split) <;> simp

@[simp] theorem closeSession_clock (s : State) (n cause : Nat) : clock (closeSession s n cause) = clock s := by
  unfold closeSession
  split <;> simp

@[simp] theorem openSession_clock (s : State) (id : Nat) (h : Handshake) : clock (openSession s id h) = clock s := by
  unfold openSession
  (repeat' split) <;> simp

@[simp] theorem takeLists_clock (s : State) : clock (takeLists s) = clock s := by
  unfold takeLists
  simp [clock_foldl]

@[simp] theorem sessionsBoundary_clock (s : State) : clock (sessionsBoundary s) = clock s := by
  unfold sessionsBoundary
  dsimp only
  rw [takeLists_clock]
  refine (clock_foldl (fun s p => ?_) _ _).trans (clock_foldl (fun s p => ?_) _ s) <;> split <;> simp

@[simp] theorem sessionsAfterWrites_clock (s : State) : clock (sessionsAfterWrites s) = clock s := by
  unfold sessionsAfterWrites
  simp [clock_foldl]

/-! ## Update -/

@[simp] theorem updPkg_clock (s : State) (n : Nat) (f : Package → Package) : clock (updPkg s n f) = clock s := by
  rfl

@[simp] theorem dropChunks_clock (s : State) : clock (dropChunks s) = clock s := by
  rfl

@[simp] theorem erasePkg_clock (s : State) (n : Nat) : clock (erasePkg s n) = clock s := by
  rfl

@[simp] theorem disarmAll_clock (s : State) : clock (disarmAll s) = clock s := by
  rfl

@[simp] theorem tackEvent_clock (s : State) (kind slot check ctx : Nat) : clock (tackEvent s kind slot check ctx) = clock s := by
  unfold tackEvent
  simp

@[simp] theorem closeAnchored_clock (s : State) (slot : Nat) : clock (closeAnchored s slot) = clock s := by
  unfold closeAnchored
  simp [clock_foldl]

/-! ## Access -/

@[simp] theorem storeHandler_still (e : Entry) : Still (storeHandler e) :=
  ⟨fun s w => by unfold storeHandler; simp, fun _ _ _ => rfl⟩

@[simp] theorem hStallLoad_still : Still hStallLoad :=
  ⟨fun s w => by unfold hStallLoad; simp, fun _ _ _ => rfl⟩

@[simp] theorem hStallReplace_still : Still hStallReplace :=
  ⟨fun s w => by unfold hStallReplace; simp, fun _ _ _ => rfl⟩

@[simp] theorem hStallCmd_still : Still hStallCmd :=
  ⟨fun s w => by unfold hStallCmd; simp, fun _ _ _ => rfl⟩

@[simp] theorem hStallHold_still : Still hStallHold :=
  ⟨fun s w => by unfold hStallHold; simp, fun _ _ _ => rfl⟩

@[simp] theorem hStallImap_still : Still hStallImap :=
  ⟨fun _ _ => rfl, fun _ _ _ => rfl⟩

@[simp] theorem hCycleMode_still : Still hCycleMode :=
  ⟨fun s w => by unfold hCycleMode; simp, fun _ _ _ => rfl⟩

@[simp] theorem hCycleCpf_still : Still hCycleCpf :=
  ⟨fun _ _ => rfl, fun _ _ _ => rfl⟩

@[simp] theorem hRestableCmd_still : Still hRestableCmd :=
  ⟨fun s w => by unfold hRestableCmd; simp, fun _ _ _ => rfl⟩

@[simp] theorem hLaneReset_still : Still hLaneReset :=
  ⟨fun s w => by unfold hLaneReset; simp, fun _ _ _ => rfl⟩

@[simp] theorem hBrWindow_still : Still hBrWindow :=
  ⟨fun _ _ => rfl, fun _ _ _ => rfl⟩

@[simp] theorem hSafEdit_still : Still hSafEdit :=
  ⟨fun s w => by unfold hSafEdit; simp, fun _ _ _ => rfl⟩

@[simp] theorem hSafParam_still : Still hSafParam :=
  ⟨fun s w => by unfold hSafParam; simp, fun _ _ _ => rfl⟩

@[simp] theorem hSafCommit_still : Still hSafCommit :=
  ⟨fun _ _ => rfl, fun _ _ _ => rfl⟩

@[simp] theorem hDoReset_still : Still hDoReset :=
  ⟨fun s w => by unfold hDoReset; simp, fun _ _ _ => rfl⟩

@[simp] theorem hDoSafeState_still : Still hDoSafeState :=
  ⟨fun _ _ => rfl, fun _ _ _ => rfl⟩

@[simp] theorem hForce_still (kind : Nat) (level : State → WReq → Nat) : Still (hForce kind level) :=
  ⟨fun s w => by unfold hForce; simp, fun _ _ _ => rfl⟩

@[simp] theorem hDiForce_still : Still hDiForce := hForce_still ..

@[simp] theorem hDoForce_still : Still hDoForce := hForce_still ..

@[simp] theorem hAiForce_still : Still hAiForce := hForce_still ..

@[simp] theorem hForceClear_still : Still hForceClear :=
  ⟨fun s w => by unfold hForceClear; simp, fun _ _ _ => rfl⟩

@[simp] theorem hSelect_still : Still hSelect :=
  ⟨fun _ _ => rfl, fun _ _ _ => rfl⟩

@[simp] theorem hLockBits_still : Still hLockBits :=
  ⟨fun _ _ => rfl, fun _ _ _ => rfl⟩

@[simp] theorem hLockAtStart_still : Still hLockAtStart :=
  ⟨fun _ _ => rfl, fun _ _ _ => rfl⟩

@[simp] theorem hSupplyMode_still : Still hSupplyMode :=
  ⟨fun s w => by unfold hSupplyMode; simp, fun _ _ _ => rfl⟩

@[simp] theorem hBudget_still (e : Entry) : Still (hBudget e) :=
  ⟨fun s w => by unfold hBudget; simp, fun _ _ _ => rfl⟩

@[simp] theorem hThermalCrit_still : Still hThermalCrit :=
  ⟨fun _ _ => rfl, fun _ _ _ => rfl⟩

@[simp] theorem hShedAllow_still : Still hShedAllow :=
  ⟨fun _ _ => rfl, fun _ _ _ => rfl⟩

@[simp] theorem hBbKeyActive_still : Still hBbKeyActive :=
  ⟨fun _ _ => rfl, fun _ _ _ => rfl⟩

@[simp] theorem hBbKey_still : Still hBbKey :=
  ⟨fun _ _ => rfl, fun _ _ _ => rfl⟩

@[simp] theorem hBbUtcSet_still : Still hBbUtcSet :=
  ⟨fun _ _ => rfl, fun _ _ _ => rfl⟩

@[simp] theorem hDatumAnnounce_still : Still hDatumAnnounce :=
  ⟨fun _ _ => rfl, fun _ _ _ => rfl⟩

@[simp] theorem hBbPlanLoad_still : Still hBbPlanLoad :=
  ⟨fun s w => by unfold hBbPlanLoad; simp, fun s w c => by unfold hBbPlanLoad; simp⟩

@[simp] theorem hCompanionLoad_still : Still hCompanionLoad :=
  ⟨fun _ _ => rfl, fun s w c => hBbPlanLoad_still.2 s w c⟩

@[simp] theorem hCompanionRemove_still : Still hCompanionRemove :=
  ⟨fun _ _ => rfl, fun _ _ _ => rfl⟩

@[simp] theorem hPosDatumSet_still : Still hPosDatumSet :=
  ⟨fun s w => by unfold hPosDatumSet; simp, fun _ _ _ => rfl⟩

@[simp] theorem hTrigCancel_still : Still hTrigCancel :=
  ⟨fun s w => by unfold hTrigCancel; dsimp only; (repeat' split) <;> simp, fun _ _ _ => rfl⟩

@[simp] theorem hPcCtrl_still : Still hPcCtrl :=
  ⟨fun _ _ => rfl, fun _ _ _ => rfl⟩

@[simp] theorem hPcClear_still : Still hPcClear :=
  ⟨fun s w => by unfold hPcClear; simp, fun _ _ _ => rfl⟩

@[simp] theorem hPcSnapCmd_still : Still hPcSnapCmd :=
  ⟨fun s w => by unfold hPcSnapCmd; simp, fun _ _ _ => rfl⟩

@[simp] theorem hPcSnapPeriod_still : Still hPcSnapPeriod :=
  ⟨fun _ _ => rfl, fun _ _ _ => rfl⟩

@[simp] theorem hPcSampleK_still : Still hPcSampleK :=
  ⟨fun _ _ => rfl, fun _ _ _ => rfl⟩

@[simp] theorem hPcLatArm_still : Still hPcLatArm :=
  ⟨fun s w => by unfold hPcLatArm; simp, fun _ _ _ => rfl⟩

@[simp] theorem hTwinEnable_still : Still hTwinEnable :=
  ⟨fun s w => by unfold hTwinEnable; simp, fun _ _ _ => rfl⟩

@[simp] theorem hDoParallel_still : Still hDoParallel :=
  ⟨fun _ _ => rfl, fun _ _ _ => rfl⟩

@[simp] theorem hRecFreeze_still : Still hRecFreeze :=
  ⟨fun s w => by unfold hRecFreeze; dsimp only; (repeat' split) <;> simp, fun _ _ _ => rfl⟩

@[simp] theorem hRecClear_still : Still hRecClear :=
  ⟨fun s w => by unfold hRecClear; simp, fun s w c => by unfold hRecClear; simp⟩

@[simp] theorem hRecCursor_still : Still hRecCursor :=
  ⟨fun _ _ => rfl, fun _ _ _ => rfl⟩

@[simp] theorem hRecFilter_still : Still hRecFilter :=
  ⟨fun _ _ => rfl, fun _ _ _ => rfl⟩

@[simp] theorem hYardFormat_still : Still hYardFormat :=
  ⟨fun s w => by unfold hYardFormat; simp, fun _ _ _ => rfl⟩

@[simp] theorem hSessClose_still : Still hSessClose :=
  ⟨fun s w => by unfold hSessClose; simp, fun _ _ _ => rfl⟩

@[simp] theorem hSessReserve_still : Still hSessReserve :=
  ⟨fun _ _ => rfl, fun _ _ _ => rfl⟩

@[simp] theorem hSessDeny_still : Still hSessDeny :=
  ⟨fun _ _ => rfl, fun _ _ _ => rfl⟩

@[simp] theorem hTrdpAllow_still : Still hTrdpAllow :=
  ⟨fun _ _ => rfl, fun _ _ _ => rfl⟩

@[simp] theorem hPortVlans_still : Still hPortVlans :=
  ⟨fun _ _ => rfl, fun _ _ _ => rfl⟩

@[simp] theorem hUpdOpen_still : Still hUpdOpen :=
  ⟨fun s w => by unfold hUpdOpen; dsimp only; (repeat' split) <;> simp, fun _ _ _ => rfl⟩

@[simp] theorem hUpdAbort_still : Still hUpdAbort :=
  ⟨fun s w => by unfold hUpdAbort; dsimp only; split <;> simp, fun _ _ _ => rfl⟩

@[simp] theorem hUpdActivate_still : Still hUpdActivate :=
  ⟨fun s w => by unfold hUpdActivate; simp, fun _ _ _ => rfl⟩

@[simp] theorem hUpdFallback_still : Still hUpdFallback :=
  ⟨fun s w => by unfold hUpdFallback; simp, fun _ _ _ => rfl⟩

@[simp] theorem hLoftDelete_still : Still hLoftDelete :=
  ⟨fun _ _ => rfl, fun _ _ _ => rfl⟩

@[simp] theorem hSetReset_still : Still hSetReset :=
  ⟨fun s w => by unfold hSetReset; simp, fun _ _ _ => rfl⟩

@[simp] theorem hTrRootLoad_still : Still hTrRootLoad :=
  ⟨fun s w => by unfold hTrRootLoad; simp, fun _ _ _ => rfl⟩

@[simp] theorem hTrCaLoad_still : Still hTrCaLoad :=
  ⟨fun s w => by unfold hTrCaLoad; simp, fun _ _ _ => rfl⟩

@[simp] theorem hTrRootClear_still : Still hTrRootClear :=
  ⟨fun s w => by unfold hTrRootClear; simp, fun _ _ _ => rfl⟩

@[simp] theorem hTrCaClear_still : Still hTrCaClear :=
  ⟨fun s w => by unfold hTrCaClear; simp, fun _ _ _ => rfl⟩

@[simp] theorem hTrLockMask_still : Still hTrLockMask :=
  ⟨fun _ _ => rfl, fun _ _ _ => rfl⟩

@[simp] theorem hPwdSet_still : Still hPwdSet :=
  ⟨fun s w => by unfold hPwdSet; simp, fun _ _ _ => rfl⟩

@[simp] theorem rangeHandler_still (e : Entry) (bad : State → WReq → Bool) : Still (rangeHandler e bad) :=
  ⟨fun s w => by unfold rangeHandler; simp, fun _ _ _ => rfl⟩

@[simp] theorem hTachoSign_still : Still hTachoSign :=
  ⟨fun _ _ => rfl, fun _ _ _ => rfl⟩

@[simp] theorem hCanData_still : Still hCanData :=
  ⟨fun _ _ => rfl, fun _ _ _ => rfl⟩

@[simp] theorem hSerFormat_still : Still hSerFormat :=
  ⟨fun _ _ => rfl, fun _ _ _ => rfl⟩

@[simp] theorem hAiGain_still : Still hAiGain :=
  ⟨fun _ _ => rfl, fun _ _ _ => rfl⟩

@[simp] theorem hConfigNode_still : Still hConfigNode :=
  ⟨fun _ _ => rfl, fun _ _ _ => rfl⟩

@[simp] theorem hPeerNode_still : Still hPeerNode :=
  ⟨fun _ _ => rfl, fun _ _ _ => rfl⟩

@[simp] theorem hStallSheds_still : Still hStallSheds :=
  ⟨fun _ _ => rfl, fun _ _ _ => rfl⟩

@[simp] theorem hResetCmd_still : Still hResetCmd :=
  ⟨fun _ _ => rfl, fun _ _ _ => rfl⟩

@[simp] theorem hRecoveryPwd_still : Still hRecoveryPwd :=
  ⟨fun s w => by unfold hRecoveryPwd; simp [clock_foldl], fun _ _ _ => rfl⟩

/-- Every handler leaves T_k and the running of crossings. -/
theorem handlerOf_still (e : Entry) (sub : Nat) : Still (handlerOf e sub) := by
  unfold handlerOf
  split
  · exact hSelect_still
  · split
    · exact hSafParam_still
    · split
      · next p hp =>
        have hall : ∀ p ∈ handlersA ++ handlersB ++ handlersC, Still p.2 := by
          simp [handlersA, handlersB, handlersC]
        exact hall p (by simpa [or_assoc] using List.mem_of_find?_eq_some hp)
      · exact storeHandler_still e

@[simp] theorem applyWrite_clock (s : State) (w : WReq) : clock (applyWrite s w) = clock s := by
  unfold applyWrite
  split
  · simp
  · exact applyW_clock (handlerOf_still ..) ..

/-! ## Activation -/

@[simp] theorem eachStall_clock (s : State) (f : Nat → Stall → Stall) : clock (eachStall s f) = clock s := by
  rfl

/-! ## Retain -/

@[simp] theorem eraseRetain_clock (s : State) (i : Nat) : clock (eraseRetain s i) = clock s := by
  rfl

/-! ## Boundary -/

@[simp] theorem loadEvent_clock (s : State) (i : Nat) (ld : Loading) (outcome agreeing : Nat) :
    clock (loadEvent s i ld outcome agreeing) = clock s := by
  unfold loadEvent
  simp

@[simp] theorem dropActivity_clock (s : State) (i : Nat) : clock (dropActivity s i) = clock s := by
  unfold dropActivity
  simp

@[simp] theorem switchActivity_clock (s : State) (i : Nat) : clock (switchActivity s i) = clock s := by
  unfold switchActivity
  simp

@[simp] theorem completeLoad_clock (s : State) (i : Nat) (st : Stall) (ld : Loading) :
    clock (completeLoad s i st ld) = clock s := by
  unfold completeLoad
  split <;> simp [clock_foldl]

@[simp] theorem finishUnload_clock (s : State) (i : Nat) (st : Stall) : clock (finishUnload s i st) = clock s := by
  unfold finishUnload
  simp

@[simp] theorem transition_clock (s : State) (i : Nat) (st : Stall) : clock (transition s i st) = clock s := by
  unfold transition
  simp

@[simp] theorem loadProgress_clock (s : State) (i : Nat) (st : Stall) : clock (loadProgress s i st) = clock s := by
  unfold loadProgress
  split <;> simp

@[simp] theorem stallBoundary_clock (s : State) (i : Nat) : clock (stallBoundary s i) = clock s := by
  unfold stallBoundary
  dsimp only
  (repeat' split) <;> simp

@[simp] theorem autoRestart_clock (s : State) (i : Nat) : clock (autoRestart s i) = clock s := by
  unfold autoRestart
  split <;> simp

theorem eachId_clock {f : State → Nat → State} (h : ∀ s i, clock (f s i) = clock s) (s : State) :
    clock (eachId s f) = clock s :=
  clock_foldl h _ s

@[simp] theorem applyRequest_clock (s : State) (r : Request) : clock (applyRequest s r) = clock s := by
  unfold applyRequest
  split
  · rfl
  · split
    · exact applyWrite_clock ..
    · refine applyW_clock ?_ ..
      split
      · exact handlerOf_still ..
      · exact handlerOf_still ..

@[simp] theorem applyWrites_clock (s : State) : clock (applyWrites s) = clock s := by
  unfold applyWrites
  simp [clock_foldl]

@[simp] theorem applyPeerWrites_clock (s : State) : clock (applyPeerWrites s) = clock s := by
  refine (clock_foldl (fun s p => ?_) _ _).trans (clock_mk s _ _ ..)
  split
  · rfl
  · dsimp only
    split <;> simp [(handlerOf_still ..).1]

@[simp] theorem decideSafety_clock (s : State) : clock (decideSafety s) = clock s := by
  refine view_foldl_snd clock (fun a p => ?_) (postedOrder s.sup.posted) ([], s)
  dsimp only
  split
  · split <;> simp
  · rfl

@[simp] theorem takeOutcomes_clock (s : State) : clock (takeOutcomes s) = clock s := by
  unfold takeOutcomes
  simp [clock_foldl]

@[simp] theorem noteStep_clock (s : State) (h old t : Nat) (step : Int) : clock (noteStep s h old t step) = clock s := by
  unfold noteStep
  simp

@[simp] theorem compareHubs_clock (s : State) : clock (compareHubs s) = clock s := by
  unfold compareHubs
  simp

@[simp] theorem utcBoundary_clock (s : State) : clock (utcBoundary s) = clock s := by
  unfold utcBoundary
  split <;> simp

@[simp] theorem modeBoundary_clock (s : State) : clock (modeBoundary s) = clock s := by
  unfold modeBoundary
  split <;> simp

@[simp] theorem resumeBoundary_clock (s : State) : clock (resumeBoundary s) = clock s := by
  have refused : ∀ u r, clock (refuseState u r) = clock u := fun u r => respond_clock ..
  have affected : ∀ u, clock (refuseAffected u) = clock u := fun u => by
    refine clock_foldl (fun u r => ?_) _ u
    exact view_ite clock ((refused ..).trans (updCtx_clock ..)) rfl
  have old : ∀ u, clock (refuseOld u) = clock u := fun u => clock_foldl (fun u r => refused ..) _ _
  rw [resumeBoundary_eq]
  dsimp only
  rw [eachStall_clock, old, clock_mk, affected]
  exact (countersAfter_clock _).trans (snapDrop_clock s)

@[simp] theorem completeStart_clock (s : State) : clock (completeStart s) = clock s := by
  unfold completeStart
  simp

@[simp] theorem storeStalls_clock (s : State) : clock (storeStalls s) = clock s := by
  unfold storeStalls
  simp

@[simp] theorem stepsA_clock (s : State) : clock (stepsA s) = clock s := by
  unfold stepsA
  simp

@[simp] theorem stepsB_clock (s : State) : clock (stepsB s) = clock s := by
  unfold stepsB
  simp [eachId_clock]

@[simp] theorem stepsC_clock (s : State) : clock (stepsC s) = clock s := by
  unfold stepsC
  simp

@[simp] theorem executeBoundary_clock (s : State) : clock (executeBoundary s) = clock s := by
  unfold executeBoundary
  simp

end Sys2Proof.Machine

/-!
PROOFS. O15, third part: the crossing boundary (05 R119, 21 R511).
-/

namespace Sys2Proof.Machine

open Sys2Proof.Claims Safe

/-- The next crossing begins at the T of the marker of the hub that the lanes follow. -/
theorem advance_clock (s : State) : clock (advance s) = ((marker s (timeHub s)).1, s.cyc.running) := by
  have followed : (if timeHub s = 0 then marker s 0 else marker s 1) = marker s (timeHub s) := by
    obtain h | h := timeHub_cases s <;> rw [h] <;> rfl
  unfold advance
  dsimp only
  rw [clock_ite, eachStall_clock, ite_self, noteStep_clock, noteStep_clock, compareHubs_clock, followed]
  rfl

/-- With no reset due, the boundary keeps what the resumption, the steps of Table 21-4 and a missed snapshot keep. -/
theorem crossBoundary_keeps {β : Type} (v : State → β) (hmissed : ∀ u b, v (snapMissed u b) = v u)
    (hresume : ∀ u, v (resumeBoundary u) = v u) (hsteps : ∀ u, v (executeBoundary u) = v u) {s : State}
    (hrec : s.st.recoverDue = false) (hres : s.st.resetDue = none) :
    v (crossBoundary s) = v (voterFailures (advance (closeCrossing s))) := by
  have hcross : crossView (voterFailures (advance (closeCrossing s))) =
      ((s.cyc.k + 1, s.cyc.agreedK, s.cyc.endDone), false, none) := by
    rw [voterFailures_cross, advance_cross, closeCrossing_cross, crossView, cycleView, hrec, hres]
  unfold crossBoundary
  dsimp only
  generalize voterFailures (advance (closeCrossing s)) = t at hcross
  split
  · exact hmissed ..
  · have hdue : crossView (if t.agree.mismatch then resumeBoundary t else t) = crossView t :=
      view_ite crossView (resumeBoundary_cross t) rfl
    have hkept : v (if t.agree.mismatch then resumeBoundary t else t) = v t := view_ite v (hresume t) rfl
    generalize (if t.agree.mismatch = true then resumeBoundary t else t) = u at hdue hkept
    have hrecover : u.st.recoverDue = false := congrArg (·.2.1) (hdue.trans hcross)
    have hreset : u.st.resetDue = none := congrArg (·.2.2) (hdue.trans hcross)
    rw [hrecover, hreset, if_neg (by decide), if_neg (by decide), hsteps, hkept]

theorem crossBoundary_clock {s : State} (hclosed : imagesClosed s = true) (hrec : s.st.recoverDue = false)
    (hres : s.st.resetDue = none) :
    clock (crossBoundary s) = ((vget s.cyc.hubImg (timeHub s) {}).tk, s.cyc.running) := by
  have hpace := closeCrossing_pace s
  have hk : (closeCrossing s).cyc.k = s.cyc.k := k_of_qk (closeCrossing_qk s)
  have himg := hubImg_of_pace hpace
  obtain ⟨hshut, hnext⟩ := timeHub_closed hclosed
  have hmarker : (marker (closeCrossing s) (timeHub s)).1 = (vget s.cyc.hubImg (timeHub s) {}).tk := by
    rw [marker_of_closed (by rw [himg, hshut]) (by rw [himg, hnext, hk]), himg]
  rw [crossBoundary_keeps clock snapMissed_clock resumeBoundary_clock executeBoundary_clock hrec hres, voterFailures_clock,
    advance_clock, timeHub_of_pace hpace, hmarker, running_of_pace hpace]

theorem boundaryRule_holds : boundaryRule := by
  intro s hrun hclosed hend hrec hres
  have hocc : (s.cyc.running && imagesClosed s && (decide (s.cyc.endDone = some s.cyc.k) || s.agree.mismatch || s.agree.lost ||
      decide (s.cyc.agreedK ≠ some s.cyc.k))) = true := by
    simpa [hrun, hclosed, or_assoc] using hend
  have hqk : qk (keyView (crossBoundary s)) = (s.pending, s.cyc.k + 1) := by
    rw [crossBoundary_keeps (fun u => qk (keyView u)) (fun u b => congrArg qk (snapMissed_key u b)) (fun u => congrArg qk (resumeBoundary_key u))
      executeBoundary_qk hrec hres, voterFailures_qk, advance_qk, pending_of_qk (closeCrossing_qk s), k_of_qk (closeCrossing_qk s)]
  obtain ⟨hpending, hk⟩ := pending_k_of_qk hqk
  obtain ⟨htk, hstill⟩ := tk_running_of_clock (crossBoundary_clock hclosed hrec hres)
  exact ⟨_, congrArg Host.Outcome.next (if_pos hocc), hk, htk, hstill.trans hrun, hpending⟩

end Sys2Proof.Machine

/-!
PROOFS. O15, fourth part: the start of an activation, and the IMAGE that it reads (05 R122, R139).
-/

namespace Sys2Proof.Machine

open Sys2Proof.Claims Safe

/-! ## The image placed -/

/-- Cells laid over a memory: a cell replaces the byte under it, every other byte stays. -/
theorem mget_overlay (img : Mem) (a : Nat) : ∀ (b : Nat) (m : Mem), mrising b img = true → Mem.wf m = true →
    mget (img.foldl (fun m c => mput m c.1 c.2) m) a = if mget img a = 0 then mget m a else mget img a := by
  induction img with
  | nil => intro b m _ _; simp [mget]
  | cons c img ih =>
    obtain ⟨k, v⟩ := c
    intro b m hrise hwf
    obtain ⟨⟨-, hv⟩, hrest⟩ : (b ≤ k ∧ v ≠ 0) ∧ mrising (k + 1) img = true := by simpa [mrising] using hrise
    rw [List.foldl_cons, ih (k + 1) _ hrest (wf_mput _ _ _ hwf), mget_mput _ _ _ _ hwf, mget]
    rcases Nat.lt_trichotomy a k with hlt | rfl | hgt
    · rw [mget_of_rising img (k + 1) a hrest (by omega), if_neg (by omega : ¬k = a), if_pos hlt, if_pos rfl, if_pos rfl,
        if_neg (by omega)]
    · rw [mget_of_rising img (a + 1) a hrest (by omega), if_pos rfl, if_pos rfl, if_pos rfl, if_neg hv]
    · rw [if_neg (by omega : ¬k = a), if_neg (by omega : ¬a < k), if_neg (by omega : ¬a = k)]

theorem wf_overlay (img m : Mem) (h : Mem.wf m = true) : Mem.wf (img.foldl (fun m c => mput m c.1 c.2) m) = true := by
  induction img generalizing m with
  | nil => exact h
  | cons c img ih => exact ih _ (wf_mput _ _ _ h)

/-- A memory whose cells all lie in a range reads 0 outside it. -/
theorem mget_of_range {img : Mem} {lo hi a : Nat} (hin : ∀ c ∈ img, lo ≤ c.1 ∧ c.1 < hi) (ha : a < lo ∨ hi ≤ a) : mget img a = 0 := by
  induction img with
  | nil => rfl
  | cons c img ih =>
    obtain ⟨hlo, hhi⟩ := hin c List.mem_cons_self
    rw [mget, if_neg (by omega), ih fun c hc => hin c (List.mem_cons_of_mem _ hc), ite_self]

/-- The queued image takes the place of the former one; memory outside IMAGE stays. -/
theorem mget_imageOver {m img : Mem} (hm : Mem.wf m = true) (himg : Mem.wf img = true)
    (hin : ∀ c ∈ img, baseImage ≤ c.1 ∧ c.1 < baseOutbox) (a : Nat) :
    mget (img.foldl (fun m c => mput m c.1 c.2) (mclear m baseImage baseOutbox)) a =
      if a < baseImage ∨ baseOutbox ≤ a then mget m a else mget img a := by
  rw [mget_overlay img a 0 _ himg (wf_mclear _ _ _ hm), mget_mclear _ _ _ _ hm]
  by_cases hout : a < baseImage ∨ baseOutbox ≤ a
  · rw [if_pos (mget_of_range hin hout), if_neg (show ¬(baseImage ≤ a ∧ a < baseOutbox) by omega), if_pos hout]
  · rw [if_neg hout, if_pos (show baseImage ≤ a ∧ a < baseOutbox by omega)]
    split
    · next hzero => exact hzero.symm
    · rfl

theorem mget_placeImage (s : State) (i : Nat) (st : Stall) {img : Mem} (hm : Mem.wf st.exec.mem = true) (himg : Mem.wf img = true)
    (hin : ∀ c ∈ img, baseImage ≤ c.1 ∧ c.1 < baseOutbox) (a : Nat) :
    mget (placeImage s i st img) a =
      if a < baseImage ∨ baseOutbox ≤ a then mget st.exec.mem a
      else if st.desc.imageSize ≠ 0 ∧ (a = baseImage + 30 ∨ baseImage + 52 ≤ a ∧ a < baseImage + 64) then
        mget (placeImage s i st img) a
      else mget img a := by
  have hover := mget_imageOver hm himg hin a
  have hwf := wf_overlay img (mclear st.exec.mem baseImage baseOutbox) (wf_mclear _ _ _ hm)
  unfold placeImage
  generalize img.foldl (fun m c => mput m c.1 c.2) (mclear st.exec.mem baseImage baseOutbox) = m at hover hwf
  dsimp only
  by_cases hsize : st.desc.imageSize = 0
  · simp [hsize, hover]
  · rw [if_neg hsize]
    by_cases hcell : a = baseImage + 30 ∨ baseImage + 52 ≤ a ∧ a < baseImage + 64
    · have hin' : ¬(a < baseImage ∨ baseOutbox ≤ a) := by
        unfold baseImage baseOutbox at *
        omega
      rw [if_neg hin', if_pos ⟨hsize, hcell⟩]
    · have hrest : ¬(st.desc.imageSize ≠ 0 ∧ (a = baseImage + 30 ∨ baseImage + 52 ≤ a ∧ a < baseImage + 64)) := fun h => hcell h.2
      rw [if_neg hrest, mget_mwrite _ _ _ _ _ (wf_mwrite _ _ _ _ (wf_mput _ _ _ hwf)), if_neg (by omega),
        mget_mwrite _ _ _ _ _ (wf_mput _ _ _ hwf), if_neg (by omega), mget_mput _ _ _ _ hwf, if_neg (by omega), hover]

/-! ## The activation begun -/

/-- The stall as its activation begins: full fuel, no request posted, the queued image in place. -/
def begunStall (s : State) (q : Queued) (st : Stall) : Stall :=
  { st with
    continued := false, dwImage := q.dw, dwWrites := [], dwOrder := []
    exec := { st.exec with
      fuel := st.desc.fuel, posted := 0, activations := st.exec.activations + 1, mem := placeImage s q.stall st q.image } }

/-- The core's record of an activation that begins. -/
def begunRun (q : Queued) (rest : List Queued) (st : Stall) : CoreRun :=
  { run := some q.stall, queue := rest, start := st.desc.fuel, tk := q.tk, kRun := q.k }

theorem startActivation_eq {s : State} {q : Queued} {st : Stall} (hst : getStall? s q.stall = some st) (core : Nat)
    (rest : List Queued) :
    ∃ p, startActivation s core q rest =
      { setStall (updRun s core fun _ => begunRun q rest st) q.stall (begunStall s q st) with perf := p } := by
  have hst' : getStall? (updRun s core fun _ => { run := some q.stall, queue := rest, start := 0, tk := q.tk, kRun := q.k }) q.stall =
      some st := hst
  have htwice : ∀ f g : CoreRun → CoreRun, updRun (updRun s core f) core g = updRun s core (g ∘ f) := fun f g => by
    simp only [updRun, vupd_vupd]
  unfold startActivation
  dsimp only
  rw [hst']
  dsimp only
  rw [htwice]
  exact perfCount_only _ core (some q.stall) [(0x20, 1)]

theorem activationStart_exec {s : State} {core : CoreIx} {q : Queued} {rest : List Queued} {st : Stall}
    (hidle : (getRun s core).run = none) (hk : s.cyc.agreedK = some s.cyc.k) (hmis : s.agree.mismatch = false)
    (hlost : s.agree.lost = false) (hq : (getRun s core).queue = q :: rest) (hst : getStall? s q.stall = some st)
    (hrunning : st.state = .running) :
    exec (.activationStart core) s = .next (startActivation s core q rest) := by
  have hocc : ¬ ((getRun s core).run.isSome || decide (s.cyc.agreedK ≠ some s.cyc.k) || s.agree.mismatch || s.agree.lost) = true := by
    simp [hidle, hk, hmis, hlost]
  have hbegin : mayBegin s q = true := by simp [mayBegin, hst, hrunning]
  refine congrArg Host.Outcome.next ((if_neg hocc).trans ?_)
  rw [hq, dropStopped, if_pos hbegin]

theorem activationStartRule_holds : activationStartRule := by
  intro s core q rest st hidle hk hmis hlost hq hst hrunning
  obtain ⟨p, hp⟩ := startActivation_eq hst core rest
  have hrun : getRun (updRun s core fun _ => begunRun q rest st) core = begunRun q rest st := getRun_updRun ..
  refine ⟨_, activationStart_exec hidle hk hmis hlost hq hst hrunning, ?_⟩
  rw [hp]
  exact ⟨rfl, hrun, fun c hc => vget_vupd_of_ne _ _ _ hc, fun j hj => getStall?_setStall_ne _ _ hj, _,
    getStall?_setStall _ _ _, fun hm himg hin a => mget_placeImage s q.stall st hm himg hin a⟩

end Sys2Proof.Machine

/-!
PROOFS. O15, last part: the agreement of the checkpoints (06 R173, R174), and the obligation.
-/

namespace Sys2Proof.Machine

open Sys2Proof.Claims Safe

/-- What the decisions on bridge operations leave: the crossing, the command's sequence number and the lanes. -/
def endView (s : State) : Cycle × Nat × Vector Lane 3 := (s.cyc, s.sup.cmdSeq, s.lanes)

theorem decideBridge_end (s : State) (p : Posted) : endView (decideBridge s p).2 = endView s := by
  have unlocked : ∀ g i, endView (unlockGroup s g i) = endView s := fun g i => view_ite endView rfl rfl
  unfold decideBridge
  split
  · dsimp only
    split
    · rfl
    · split
      · rfl
      · exact unlocked ..
      · rfl
  · rfl

theorem decideBridges_end (s : State) : endView (decideBridges s) = endView s := by
  refine foldl_keeps endView _ (fun s i => ?_) _ s
  refine view_foldl_snd endView (fun a p => ?_) s.sup.posted ([], s)
  dsimp only
  split
  · exact decideBridge_end ..
  · rfl

/-- The timed actions on channels that the command sets by other means are withdrawn (R204). -/
def withdrawHeld (s : State) : State :=
  (List.range 32).foldl (fun s ch => if doRole s false ch = 0 && setByFirstTwo s ch then withdrawTimed s ch else s) s

/-- The output command joins the stream, and what it carries is used up. -/
def commandSent (s : State) : State :=
  let word := (List.range 32).foldl (fun m ch => setBit m ch (commandBit s ch)) 0
  let seq := (s.sup.cmdSeq + 1) % 2 ^ 32
  let s := pushOut s { ident := seq, kind := 4, data := cmdBytes word s.sup.safReqs s.sup.timedDo s.sup.withdraw }
  { s with sup.cmdSeq := seq, sup.safReqs := [], sup.timedDo := [], sup.withdraw := [] }

theorem outputCommand_eq (s : State) : outputCommand s = commandSent (withdrawHeld s) := rfl

theorem withdrawHeld_end (s : State) : endView (withdrawHeld s) = endView s := by
  refine foldl_keeps endView _ (fun s ch => ?_) _ s
  exact view_ite endView (view_ite endView rfl rfl) rfl

theorem commandSent_end (s : State) : endView (commandSent s) = (s.cyc, (s.sup.cmdSeq + 1) % 2 ^ 32, s.lanes) := rfl

theorem commandSent_last (s : State) :
    ∃ o, (commandSent s).sup.outs.getLast? = some o ∧ o.kind = 4 ∧ o.ident = (s.sup.cmdSeq + 1) % 2 ^ 32 :=
  ⟨_, List.getLast?_concat, rfl, rfl⟩

theorem commandSent_used (s : State) :
    (commandSent s).sup.safReqs = [] ∧ (commandSent s).sup.timedDo = [] ∧ (commandSent s).sup.withdraw = [] :=
  ⟨rfl, rfl, rfl⟩

/-- Where no activation still runs, the whole pending generation is agreed. -/
theorem agreeGeneration_agreed {s : State} (hidle : runningStalls s = []) : (agreeGeneration s).agreed = s.sup := by
  simp [agreeGeneration, hidle]

theorem endCrossing_nil {s : State} (hmis : s.agree.mismatch = false) (hlost : s.agree.lost = false) :
    endCrossing s [] [] =
      { agreeGeneration (outputCommand (decideBridges s)) with
        cyc.endDone := some (agreeGeneration (outputCommand (decideBridges s))).cyc.k } := by
  unfold endCrossing
  rw [judgeCheckpoints_nil]
  dsimp only
  rw [hmis, hlost, if_neg (by decide)]

theorem checkpointRule_holds : checkpointRule := by
  intro s hrun hk hend hmis hlost hidle
  have hocc : (s.cyc.running && decide (s.cyc.agreedK = some s.cyc.k) && decide (s.cyc.endDone ≠ some s.cyc.k) &&
      !s.agree.mismatch && !s.agree.lost) = true := by simp [hrun, hmis, hlost, hk, hend]
  refine ⟨_, congrArg Host.Outcome.next (if_pos hocc), ?_⟩
  have hdecided : endView (withdrawHeld (decideBridges s)) = endView s := (withdrawHeld_end _).trans (decideBridges_end s)
  rw [endCrossing_nil hmis hlost, outputCommand_eq]
  generalize withdrawHeld (decideBridges s) = u at hdecided
  obtain ⟨hcyc, hseq, hlanes⟩ : u.cyc = s.cyc ∧ u.sup.cmdSeq = s.sup.cmdSeq ∧ u.lanes = s.lanes := by
    simpa [endView] using hdecided
  have hagreed : (agreeGeneration (commandSent u)).agreed = (commandSent u).sup :=
    agreeGeneration_agreed (by rw [← hidle]; exact congrArg (fun c : Cycle => c.runs.toList.filterMap (·.run)) hcyc)
  obtain ⟨o, hlast, hkind, hident⟩ := commandSent_last u
  obtain ⟨hsaf, htimed, hwithdraw⟩ := commandSent_used u
  exact ⟨congrArg (fun c : Cycle => some c.k) hcyc, hagreed, congrArg (fun n => (n + 1) % 2 ^ 32) hseq,
    ⟨o, hlast, hkind, by rw [hident, hseq]⟩, hsaf, htimed, hwithdraw, hlanes⟩

end Sys2Proof.Machine

open Sys2Proof.Machine in
/-- Settles O15: a start of an activation is one substitution of the stall and its core; the checkpoint's frame is what bridges and
the output command leave; at the boundary only the advance writes T_k, and it takes the marker of an image that is closed. -/
theorem crossingExecution : Obligations.CrossingExecution := ⟨activationStartRule_holds, checkpointRule_holds, boundaryRule_holds⟩

/-! PROOFS. The egress voters (O17). -/
namespace Sys2Proof.Machine

open Sys2Proof.Claims Safe

/-! ## The voter of one hub -/

section
variable (s : State) (h : Nat) (f g : Voter → Voter)

theorem getHub_updVoter (j : Nat) : getHub (updVoter s h f) j =
    if j = h ∧ h < 2 then { getHub s h with voter := f (getHub s h).voter } else getHub s j :=
  vget_vupd ..

theorem voter_updVoter (hh : h < 2) : (getHub (updVoter s h f) h).voter = f (getHub s h).voter :=
  congrArg HubDie.voter (vget_vupd_self s.hubs h _ {} hh)

theorem updVoter_updVoter : updVoter (updVoter s h f) h g = updVoter s h (g ∘ f) := by
  unfold updVoter updHub
  rw [vupd_vupd]
  rfl

/-- Only what a change makes of the voter itself matters. -/
theorem updVoter_congr {s : State} {h : Nat} {f g : Voter → Voter} (hfg : f (getHub s h).voter = g (getHub s h).voter) :
    updVoter s h f = updVoter s h g :=
  congrArg (fun hubs => { s with hubs := hubs }) (vupd_congr s.hubs h (f := fun d => { d with voter := f d.voter })
    (g := fun d => { d with voter := g d.voter }) {} (congrArg (fun v => { getHub s h with voter := v }) hfg))

theorem hubUp_updVoter (j : Nat) : hubUp (updVoter s h f) j = hubUp s j := by
  unfold hubUp
  rw [getHub_updVoter]
  split
  · next hj => rw [hj.1]
  · rfl

theorem onWay_updVoter (j c : Nat) : onWay (updVoter s h f) j c ↔ onWay s j c := by
  unfold onWay
  rw [getHub_updVoter]
  split
  · next hj => rw [hj.1]
  · rfl

theorem recorded_updVoter (c : Nat) : recorded (updVoter s h f) c ↔ recorded s c := by
  unfold recorded recordedFrom
  simp only [hubUp_updVoter, onWay_updVoter]
  rfl

theorem voter_bare : (getHub (bare s) h).voter = (getHub s h).voter := by
  unfold getHub bare vget
  split <;> simp

theorem voter_of_noted {s t : State} (hn : noted s t) (h : Nat) : (getHub t h).voter = (getHub s h).voter := by
  rw [← voter_bare t, show bare t = bare s from hn, voter_bare]

theorem bare_updVoter : bare (updVoter s h f) = updVoter (bare s) h f := by
  have hhubs : (updVoter s h f).hubs.map (fun d => { d with inflight := [] }) = (updVoter (bare s) h f).hubs := by
    unfold updVoter updHub bare vupd
    dsimp only
    split <;> simp
  show { bare s with hubs := (updVoter s h f).hubs.map (fun d : HubDie => { d with inflight := [] }) } = _
  rw [hhubs]
  rfl

end

/-! ## What a voter releases (R165) -/

section
variable {s : State} {h key n : Nat} {w : WordPos} {m : Copy}

theorem releaseFrom_absent (hw : nget? (getHub s h).voter.words key = none) : releaseFrom s h n key = s := by
  cases n with
  | zero => rfl
  | succ n => simp [releaseFrom, hw]

/-- A matched word whose predecessor is released is released, and then the words after it. -/
theorem releaseFrom_matched (hw : nget? (getHub s h).voter.words key = some w) (hrel : w.released = false) (hcl : w.closed = false)
    (hm : w.matched = some m)
    (hfree : key % 2 ^ 24 = 0 ∨ ∃ p, nget? (getHub s h).voter.words (key - 1) = some p ∧ p.released = true) :
    releaseFrom s h (n + 1) key = releaseFrom (releaseWord s h key w m) h n (key + 1) := by
  rw [releaseFrom]
  rcases hfree with h0 | ⟨p, hp, hpr⟩
  · have hfirst : key % 16777216 = 0 := h0
    simp [hw, hrel, hcl, hm, hfirst]
  · simp [hw, hrel, hcl, hm, hp, hpr]

/-- A word counted among the released ones of its voter. -/
def wordCounted (s : State) (h key : Nat) (w : WordPos) : State :=
  blockCount (updVoter s h (fun v => { v with words := nset v.words key { w with released := true } })) (0x5381 + h) 1

/-- A voter with an item. -/
def withItem (ik : Nat) (x : OutItem) (v : Voter) : Voter := { v with items := nset v.items ik x }

/-- Copies that are all equal to the released value fault no lane. -/
theorem releaseWord_equal (heq : ∀ c ∈ w.copies, c.payload = m.payload ∧ c.tag = m.tag) :
    releaseWord s h key w m =
      let u := wordCounted s h key w
      if isLast m.tag && !s.agree.mismatch && !s.agree.lost then
        match voterItem s h w.item with
        | none => u
        | some o =>
          if itemLeaves o then
            let x := wholeItem u h key o
            deliverItem (updVoter u h (withItem w.item x)) h x
          else u
      else u := by
  have hbad : w.copies.filter (fun c => c.payload ≠ m.payload || c.tag ≠ m.tag) = [] := by
    simpa [List.filter_eq_nil_iff] using heq
  unfold releaseWord
  dsimp only
  rw [hbad]
  rfl

theorem releaseWord_inner (heq : ∀ c ∈ w.copies, c.payload = m.payload ∧ c.tag = m.tag) (hlast : isLast m.tag = false) :
    releaseWord s h key w m = wordCounted s h key w := by
  rw [releaseWord_equal heq]
  simp [hlast]

theorem releaseWord_last {o : OutItem} (heq : ∀ c ∈ w.copies, c.payload = m.payload ∧ c.tag = m.tag) (hlast : isLast m.tag = true)
    (hmis : s.agree.mismatch = false) (hlost : s.agree.lost = false) (ho : voterItem s h w.item = some o) (hstale : o.stale = false) :
    releaseWord s h key w m =
      let u := wordCounted s h key w
      let x := wholeItem u h key o
      deliverItem (updVoter u h (withItem w.item x)) h x := by
  rw [releaseWord_equal heq]
  simp [hlast, hmis, hlost, ho, itemLeaves, hstale]

/-- A whole item is the item but for its data. -/
theorem wholeItem_fields (s : State) (h key : Nat) (o : OutItem) :
    (wholeItem s h key o).kind = o.kind ∧ (wholeItem s h key o).ident = o.ident ∧ (wholeItem s h key o).single = o.single := by
  unfold wholeItem
  split <;> exact ⟨rfl, rfl, rfl⟩

/-- What a voter keeps of a field output command that has left. -/
def commandKept (o : OutItem) (v : Voter) : Voter :=
  { v with
    held := nset v.held cmdKey o, holdSince := nerase v.holdSince cmdKey, relSeq := noteReleased v.relSeq o
    lastCmd := o.ident, safeCmd := false }

theorem deliverItem_command {o : OutItem} (hk : o.kind = 4) (hsingle : o.single = false) :
    deliverItem s h o =
      send (updVoter s h (commandKept o)) { kind := .outputCommand, port := h, a := o.ident, data := o.data } := by
  unfold deliverItem transmitItem
  simp [hk, hsingle, heldKey]
  rfl

end

/-! ## A copy arrives (R165) -/

/-- The items of a voter once a window has opened: that of the window's word joins them, with its deadline. -/
def openItems (s : State) (h key t : Nat) : NMap OutItem :=
  match nget? (getHub s h).voter.items (itemOfWord s key), streamItem s (itemOfWord s key) with
  | none, some o =>
    nset (getHub s h).voter.items (itemOfWord s key) { o with deadline := itemDeadline s h (keyTk s key) t o }
  | _, _ => (getHub s h).voter.items

theorem nget?_openItems (s : State) (h key t : Nat) {k : Nat} (hk : k ≠ itemOfWord s key) :
    nget? (openItems s h key t) k = nget? (getHub s h).voter.items k := by
  unfold openItems
  split
  · exact nget?_nset_of_ne _ _ hk
  · rfl

theorem openWindow_eq (s : State) (h key : Nat) (c : Copy) (t : Nat) :
    openWindow s h key c t = updVoter s h (fun v => { v with
      words := nset v.words key
        { opened := t, copies := (nget? v.early key).toList ++ [c], item := itemOfWord s key }
      early := nerase v.early key
      items := openItems s h key t }) := by
  unfold openWindow openItems
  dsimp only
  cases nget? (getHub s h).voter.items (itemOfWord s key) with
  | some x =>
    refine updVoter_congr (s := s) ?_
    cases nget? (getHub s h).voter.early key <;> rfl
  | none =>
    cases streamItem s (itemOfWord s key) with
    | none =>
      refine updVoter_congr (s := s) ?_
      cases nget? (getHub s h).voter.early key <;> rfl
    | some o =>
      refine (updVoter_updVoter ..).trans (updVoter_congr ?_)
      cases nget? (getHub s h).voter.early key <;> simp

/-- A word with two copies that agree. -/
def withSecond (w : WordPos) (a c : Copy) : WordPos := { w with copies := [a, c], matched := some c }

/-- A voter with a word on whose value two lanes agree. -/
def agreedOn (key : Nat) (w : WordPos) (c : Copy) (v : Voter) : Voter :=
  { v with words := nset v.words key w, matchedLog := v.matchedLog ++ [c] }

/-- The word on which two lanes agree, before its release. -/
def wordMatched (s : State) (h key : Nat) (w : WordPos) (a c : Copy) : State :=
  updVoter s h (agreedOn key (withSecond w a c) c)

section
variable {s : State} {h t key : Nat} {c : Copy} {w : WordPos} (hkey : wordKey c.tag = key) (hin : inSet s c.lane = true)
include hkey hin

theorem copyArrives_first (hw : nget? (getHub s h).voter.words key = none) :
    copyArrives s h c t = openWindow s h key c t := by
  subst hkey
  simp [copyArrives, hw, hin]

theorem copyArrives_late (hw : nget? (getHub s h).voter.words key = some w) (hlate : w.opened + gv s E.voteSkew * 1000 < t) :
    copyArrives s h c t = bumpi s E.laneLateCopies c.lane := by
  subst hkey
  simp [copyArrives, hw, hin, hlate]

/-- Two lanes of the set agree on a word: it has its value, and whatever that lets go is released. -/
theorem copyArrives_second {a : Copy} (hw : nget? (getHub s h).voter.words key = some w)
    (htime : t ≤ w.opened + gv s E.voteSkew * 1000) (hcl : w.closed = false) (hrel : w.released = false) (hm : w.matched = none)
    (hcopies : w.copies = [a]) (hlane : a.lane ≠ c.lane) (hset : inSet s a.lane = true) (hpay : a.payload = c.payload)
    (htag : a.tag = c.tag) :
    copyArrives s h c t = releaseFrom (wordMatched s h key w a c) h 65536 key := by
  subst hkey
  simp [copyArrives, wordMatched, withSecond, hw, hin, Nat.not_lt.mpr htime, hcl, hcopies, hlane, hrel, hm, hset, sameCopy, hpay, htag]
  rfl

end

section
variable {s : State} {h key : Nat} {w : WordPos} {a c : Copy}

/-- The word on which two lanes agree, released and counted. -/
def wordAgreed (s : State) (h key : Nat) (w : WordPos) (a c : Copy) : State :=
  blockCount (updVoter s h (agreedOn key { withSecond w a c with released := true } c)) (0x5381 + h) 1

theorem voter_wordMatched (hh : h < 2) : (getHub (wordMatched s h key w a c) h).voter =
    agreedOn key (withSecond w a c) c (getHub s h).voter :=
  voter_updVoter s h _ hh

theorem voter_wordAgreed (hh : h < 2) : (getHub (wordAgreed s h key w a c) h).voter =
    agreedOn key { withSecond w a c with released := true } c (getHub s h).voter :=
  voter_updVoter s h _ hh

theorem wordCounted_wordMatched :
    wordCounted (wordMatched s h key w a c) h key (withSecond w a c) = wordAgreed s h key w a c := by
  refine congrArg (fun u => blockCount u (0x5381 + h) 1) ((updVoter_updVoter ..).trans (updVoter_congr ?_))
  dsimp only [Function.comp_apply, agreedOn]
  rw [nset_nset]

theorem wordAgreed_next (hh : h < 2) (hnext : nget? (getHub s h).voter.words (key + 1) = none) :
    nget? (getHub (wordAgreed s h key w a c) h).voter.words (key + 1) = none := by
  rw [voter_wordAgreed hh]
  exact (nget?_nset_of_ne _ _ (by omega)).trans hnext

/-- The release of a word begins at that word, whose predecessor is released. -/
theorem releaseFrom_wordMatched (hh : h < 2) (hcl : w.closed = false) (hrel : w.released = false)
    (hfree : key % 2 ^ 24 = 0 ∨ ∃ p, nget? (getHub s h).voter.words (key - 1) = some p ∧ p.released = true) (n : Nat) :
    releaseFrom (wordMatched s h key w a c) h (n + 1) key =
      releaseFrom (releaseWord (wordMatched s h key w a c) h key (withSecond w a c) c) h n (key + 1) := by
  refine releaseFrom_matched (by rw [voter_wordMatched hh]; exact nget?_nset_self ..) hrel hcl rfl ?_
  by_cases h0 : key % 2 ^ 24 = 0
  · exact .inl h0
  · obtain ⟨p, hp, hpr⟩ := hfree.resolve_left h0
    refine .inr ⟨p, ?_, hpr⟩
    rw [voter_wordMatched hh]
    exact (nget?_nset_of_ne _ _ (by omega)).trans hp

theorem voterItem_wordMatched (hh : h < 2) (ik : Nat) : voterItem (wordMatched s h key w a c) h ik = voterItem s h ik := by
  unfold voterItem
  rw [voter_wordMatched hh]
  rfl

/-- A field output command whose last word is released, with the data of its released words. -/
def commandReleased (u : State) (h ik : Nat) (x : OutItem) : State :=
  send (updVoter (updVoter u h (withItem ik x)) h (commandKept x))
    { kind := .outputCommand, port := h, a := x.ident, data := x.data }

theorem commandReleased_next {u : State} (hh : h < 2) (ik : Nat) (x : OutItem)
    (hnext : nget? (getHub u h).voter.words (key + 1) = none) :
    nget? (getHub (commandReleased u h ik x) h).voter.words (key + 1) = none := by
  have hvoter : (getHub (commandReleased u h ik x) h).voter = commandKept x (withItem ik x (getHub u h).voter) :=
    (voter_updVoter _ h _ hh).trans (congrArg (commandKept x) (voter_updVoter u h _ hh))
  rw [hvoter]
  exact hnext

variable (hh : h < 2) (hcl : w.closed = false) (hrel : w.released = false) (hpay : a.payload = c.payload) (htag : a.tag = c.tag)
  (hfree : key % 2 ^ 24 = 0 ∨ ∃ p, nget? (getHub s h).voter.words (key - 1) = some p ∧ p.released = true)
  (hnext : nget? (getHub s h).voter.words (key + 1) = none)
include hh hcl hrel hpay htag hfree hnext

/-- A word inside an item is released, and nothing leaves. -/
theorem releaseFrom_inner (hlast : isLast c.tag = false) (n : Nat) :
    releaseFrom (wordMatched s h key w a c) h (n + 1) key = wordAgreed s h key w a c := by
  rw [releaseFrom_wordMatched hh hcl hrel hfree, releaseWord_inner (by simp [withSecond, hpay, htag]) hlast, wordCounted_wordMatched]
  exact releaseFrom_absent (wordAgreed_next hh hnext)

/-- The last word of a field output command is released, and the command leaves. -/
theorem releaseFrom_command {o : OutItem} (hlast : isLast c.tag = true) (hmis : s.agree.mismatch = false)
    (hlost : s.agree.lost = false) (ho : voterItem s h w.item = some o) (hstale : o.stale = false) (hk : o.kind = 4)
    (hsingle : o.single = false) (n : Nat) :
    releaseFrom (wordMatched s h key w a c) h (n + 1) key =
      commandReleased (wordAgreed s h key w a c) h w.item (wholeItem (wordAgreed s h key w a c) h key o) := by
  obtain ⟨hkind, -, hone⟩ := wholeItem_fields (wordAgreed s h key w a c) h key o
  have hitem : voterItem (wordMatched s h key w a c) h w.item = some o := (voterItem_wordMatched hh _).trans ho
  rw [releaseFrom_wordMatched hh hcl hrel hfree, releaseWord_last (s := wordMatched s h key w a c) (w := withSecond w a c)
    (by simp [withSecond, hpay, htag]) hlast hmis hlost hitem
    hstale,
    wordCounted_wordMatched]
  dsimp only
  rw [deliverItem_command (hkind.trans hk) (hone.trans hsingle)]
  exact releaseFrom_absent (commandReleased_next hh _ _ (wordAgreed_next hh hnext))

end

/-- A voter that serves takes every copy. -/
theorem exec_copyArrives {s : State} {hub : Fin 2} (hserves : voterServes s hub) (lane : Fin 3) (payload : Word) (pos : BitVec 40)
    (mark : BitVec 24) (i : Nat) : exec (.voterCopyArrival hub lane payload pos mark i) s =
      .next (copyArrives s hub { lane := lane, payload := payload, tag := pos ++ mark } i) := by
  obtain ⟨hserv, hup, hmis, hlost⟩ := hserves
  exact congrArg Host.Outcome.next (if_pos (by simp [hserv, hup, hmis, hlost]))

theorem copyRule_holds : copyRule := by
  intro s hub lane payload tag pos mark i key c hserves hin htag hkey hc
  have hexec := exec_copyArrives hserves lane payload pos mark i
  rw [← htag, ← hc] at hexec
  obtain ⟨hinc, hpayc, htagc⟩ : inSet s c.lane = true ∧ c.payload = payload ∧ c.tag = tag := by
    subst hc
    exact ⟨hin, rfl, rfl⟩
  have hkeyc : wordKey c.tag = key := by rw [htagc, hkey, wordKey]
  obtain ⟨-, -, hmis, hlost⟩ := hserves
  refine ⟨fun hw => ⟨_, hexec, ?_⟩, fun w hw hlate => ⟨_, hexec, ?_⟩,
    fun w a hw htime hcl hrel hm hcopies hlane hset hpay hta hfree hnext => ?_⟩
  · rw [copyArrives_first hkeyc hinc hw, openWindow_eq]
    beta_reduce
    rw [voter_updVoter _ _ _ hub.isLt]
    exact ⟨rfl, fun k hk => nget?_openItems s hub _ i hk⟩
  · rw [copyArrives_late hkeyc hinc hw hlate, hc]
  · have hlanes : a.lane ≠ c.lane := by rwa [hc]
    have hpays : a.payload = c.payload := hpay.trans hpayc.symm
    have htags : a.tag = c.tag := hta.trans htagc.symm
    rw [copyArrives_second hkeyc hinc hw htime hcl hrel hm hcopies hlanes hset hpays htags] at hexec
    refine ⟨fun hlast => ⟨_, hexec, ?_⟩, fun o x hlast ho hstale hk hsingle hx => ⟨_, hexec, ?_⟩⟩
    · exact releaseFrom_inner hub.isLt hcl hrel hpays htags hfree hnext (htagc ▸ hlast) 65535
    · refine (releaseFrom_command hub.isLt hcl hrel hpays htags hfree hnext (htagc ▸ hlast) hmis hlost ho hstale hk hsingle
        65535).trans ?_
      have hwhole : wholeItem (wordAgreed s hub key w a c) hub key o = x := hx.symm
      have hident : x.ident = o.ident := by
        rw [← hwhole]
        exact (wholeItem_fields ..).2.1
      rw [hwhole, commandReleased, updVoter_updVoter, hident]
      unfold commandKept
      rw [hident]
      rfl

/-! ## A window closes (R165 steps 4 and 5) -/

section
variable {s : State} {c : Nat}

theorem recorded_abandon (l cause : Nat) (hrec : recorded s c) : recorded (abandon s l cause) c := by
  cases ha : (getLane s l).attempt with
  | none => simpa [abandon, ha] using hrec
  | some a =>
    rw [abandon_eq s l cause ha]
    exact (recorded_abandoned ..).mpr (recorded_emitL_of_recorded _ _ _ _ (by decide) hrec)

theorem abandon_agree (s : State) (l cause : Nat) : (abandon s l cause).agree = s.agree := by
  unfold abandon
  split
  · rfl
  · simp

/-- A rollback keeps the records on their way, and the rate limits of the lanes' records. -/
theorem recorded_rollback : recorded (rollback s) c ↔ recorded s c := by
  obtain ⟨hhubs, hlinks, hrecd⟩ : (undoBack s).hubs = s.hubs ∧ (undoBack s).ilinks = s.ilinks ∧ (undoBack s).recd = s.recd := by
    unfold undoBack
    split <;> exact ⟨rfl, rfl, rfl⟩
  exact recorded_congr c hhubs hlinks rfl (congrArg Recorder.buckets hrecd)

theorem recorded_diverge (i : Nat) (hrec : recorded s c) : recorded (diverge s i) c := by
  unfold diverge
  split
  · exact hrec
  · exact recorded_emitL_of_recorded (s := setStall s i _) _ _ _ _ (by decide) hrec

/-- A hub in output hold, with its windows gone (R179). -/
def heldHub (d : HubDie) : HubDie :=
  { d with voter := { d.voter with outputHold := true, words := [], matchedLog := [], early := []
                                   items := d.voter.items.filter (fun p => p.2.whole) } }

theorem recorded_heldHubs (h : recorded s c) : recorded { s with hubs := s.hubs.map heldHub } c :=
  recorded_mapHubs (fun _ => ⟨rfl, rfl, rfl⟩) h

theorem recorded_restart (executed : Bool) (div : Option Nat) (hrec : recorded s c) :
    recorded (mismatch.restart s executed div) c := by
  have hback : recorded (rollback (abandonAll s 0xFF)) c :=
    recorded_rollback.mpr (recorded_abandon _ _ (recorded_abandon _ _ (recorded_abandon _ _ hrec)))
  cases div with
  | none => exact recorded_heldHubs hback
  | some i => exact recorded_heldHubs (recorded_diverge i hback)

theorem restart_mismatch (s : State) (executed : Bool) (div : Option Nat) :
    (mismatch.restart s executed div).agree.mismatch = true := rfl

/-- The module is in a mismatch restart, or lost. -/
def broken (s : State) : Prop := s.agree.mismatch = true ∨ s.agree.lost = true

theorem mismatchAnswer_does (second : Option Nat) (sid : Nat) (executed : Bool) (hlost : s.agree.lost = false) (hrec : recorded s c) :
    recorded (mismatchAnswer s second sid executed) c ∧ broken (mismatchAnswer s second sid executed) := by
  have hrestart : ∀ div, recorded (mismatch.restart s executed div) c ∧ broken (mismatch.restart s executed div) :=
    fun div => ⟨recorded_restart executed div hrec, .inl (restart_mismatch ..)⟩
  obtain ⟨-, hkeeps, hgone, -⟩ := moduleLost_does (c := c) 3 hlost
  unfold mismatchAnswer
  split
  · split
    · exact hrestart _
    · exact ⟨hkeeps hrec, .inr hgone⟩
  · exact hrestart _

/-- A restart or loss has been recorded as a mismatch where there is one. -/
def breakNoted (s : State) : Prop := broken s → recorded s 0x2064

/-- A mismatch breaks the module, with event 0x2064 (R179). -/
theorem mismatch_does (cause : Nat) (named : List Nat) (executed : Bool) (hs : breakNoted s) :
    recorded (mismatch s cause named executed) 0x2064 ∧ broken (mismatch s cause named executed) := by
  rw [mismatch_eq]
  split
  · next hb =>
    have hbroken : broken s := ((Bool.or_eq_true ..).mp hb).symm
    exact ⟨hs hbroken, hbroken⟩
  · next hb =>
    have hlost : s.agree.lost = false := by simp_all
    refine mismatchAnswer_does _ _ _ ?_ (recorded_emitL _ _ _ _ _ _ (by decide))
    simpa [mismatchNoted] using hlost

theorem breakNoted_of_agree {t : State} (hagree : t.agree = s.agree) (hrec : recorded s 0x2064 → recorded t 0x2064)
    (hs : breakNoted s) : breakNoted t := by
  intro hb
  unfold broken at hb
  rw [hagree] at hb
  exact hrec (hs hb)

theorem breakNoted_faultNoted (l cause det : Nat) (hs : breakNoted s) : breakNoted (faultNoted s l cause det) := by
  refine breakNoted_of_agree (by simp [faultNoted]) (fun hrec => ?_) hs
  unfold faultNoted
  rw [recorded_updLane, recorded_bumpi]
  exact recorded_emitL_of_recorded _ _ _ _ (by decide) hrec

/-- A lane fault of a cause that the voters find loses the module only by a mismatch, which is recorded. -/
theorem breakNoted_laneFault (l det : Nat) (named : List Nat) (executed : Bool) {cause : Nat} (hcause : cause ≤ 5)
    (hs : breakNoted s) : breakNoted (laneFault s l cause det named executed) := by
  have hfault : breakNoted (faultNoted s l cause det) := breakNoted_faultNoted l cause det hs
  rw [laneFault_eq]
  simp only [if_pos hcause]
  split
  · exact hs
  · split
    · exact hs
    · generalize faultNoted s l cause det = u at hfault
      split
      · split
        · refine breakNoted_of_agree (by simp) (fun hrec => ?_) hfault
          rw [recorded_updLane, recorded_svi, recorded_setChanged]
          exact hrec
        · exact fun _ => (mismatch_does 4 named executed hfault).1
      · exact breakNoted_of_agree (abandon_agree ..) (recorded_abandon l cause) hfault

theorem breakNoted_foldl {f : State → Nat → State} (hf : ∀ s l, breakNoted s → breakNoted (f s l)) :
    ∀ (ls : List Nat) {s : State}, breakNoted s → breakNoted (ls.foldl f s)
  | [], _, hs => hs
  | l :: ls, _, hs => breakNoted_foldl hf ls (hf _ l hs)

end

/-- A voter with a word whose window has closed. -/
def withClosed (key : Nat) (w : WordPos) (v : Voter) : Voter := { v with words := nset v.words key { w with closed := true } }

/-- The lanes of the set that sent no copy of a word. -/
def absentLanes (s : State) (w : WordPos) : List Nat := (laneSet s).filter (fun l => !(w.copies.any (fun c => c.lane = l)))

/-- A word's window closed, and the lanes that sent no copy faulted. -/
def windowShut (s : State) (h key : Nat) (w : WordPos) : State :=
  (absentLanes s w).foldl (fun u l => laneFault u l 5 (srcHub h) (itemStall (voterItem s h w.item))) (updVoter s h (withClosed key w))

theorem closeWindow_eq (s : State) (h key : Nat) (w : WordPos) :
    closeWindow s h key w =
      if w.released then releaseFrom (windowShut s h key w) h 65536 (key + 1)
      else mismatch (windowShut s h key w) 2 (itemStall (voterItem s h w.item)) true := rfl

theorem exec_skewWindowClose {s : State} {hub : Fin 2} {index i key : Nat} {w : WordPos} (hw : openWord s hub index i = some (key, w)) :
    exec (.skewWindowClose hub index i) s = .next (closeWindow s hub key w) := by
  show execSkewWindowClose hub index i s = _
  unfold execSkewWindowClose
  rw [hw]

theorem absentLanes_eq_nil {s : State} {w : WordPos}
    (hall : ∀ l, l < 3 → inSet s l = true → w.copies.any (fun c => c.lane = l) = true) : absentLanes s w = [] := by
  refine List.filter_eq_nil_iff.mpr fun l hl => ?_
  obtain ⟨hmem, hin⟩ := List.mem_filter.mp hl
  have hlt : l < 3 := by
    simp only [List.mem_cons, List.not_mem_nil, or_false] at hmem
    omega
  simp [hall l hlt hin]

theorem absentLanes_eq_singleton {s : State} {w : WordPos} {l : Nat} (hl : l < 3) (hset : laneSet s = [0, 1, 2])
    (hcopies : ∀ j, j < 3 → (w.copies.any (fun c => c.lane = j) = true ↔ j ≠ l)) : absentLanes s w = [l] := by
  have hone : absentLanes s w = [0, 1, 2].filter (fun j => decide (j = l)) := by
    rw [absentLanes, hset]
    refine List.filter_congr fun j hj => ?_
    have hlt : j < 3 := by
      simp only [List.mem_cons, List.not_mem_nil, or_false] at hj
      omega
    by_cases hjl : j = l
    · simpa [hjl] using hcopies l hl
    · simpa [hjl] using (hcopies j hlt).mpr hjl
  rw [hone]
  interval_cases l <;> rfl

theorem noted_emitL (s : State) (src code sev : Nat) (data : List Byte) (stall : Nat) : noted s (emitL s src code sev data stall) :=
  bare_emitL ..

theorem laneLeaves_hubs (s : State) (l cause : Nat) : (laneLeaves s l cause).hubs = s.hubs := by
  simp [laneLeaves]

/-- A lane fault of a set of three leaves the voters as they were. -/
theorem voter_laneFault_of_three {s : State} {l : Nat} (cause det : Nat) (named : List Nat) (ex : Bool)
    (hset : laneSet s = [0, 1, 2]) (hlost : s.agree.lost = false) (hl : l < 3) (h : Nat) :
    (getHub (laneFault s l cause det named ex) h).voter = (getHub s h).voter := by
  rw [laneFault_of_three cause det named ex hset hlost hl]
  unfold getHub
  rw [laneLeaves_hubs]
  exact voter_of_noted (noted_emitL ..) h

theorem resetDue_laneLeaves (s : State) {l : Nat} (cause : Nat) (hl : l < 3) : (getLane (laneLeaves s l cause) l).resetDue = true := by
  simp [laneLeaves, getLane, updLane, hl]

theorem windowCloseRule_holds : windowCloseRule := by
  intro s hub index i key w hw hmis hlost hnext
  have hopen : breakNoted (updVoter s hub (withClosed key w)) := by
    rintro (h | h)
    · exact absurd (hmis.symm.trans h) (by decide)
    · exact absurd (hlost.symm.trans h) (by decide)
  have hshut : nget? (getHub (updVoter s hub (withClosed key w)) hub).voter.words (key + 1) = none := by
    rw [voter_updVoter _ _ _ hub.isLt]
    exact (nget?_nset_of_ne _ _ (by omega)).trans hnext
  have hexec := exec_skewWindowClose hw
  rw [closeWindow_eq] at hexec
  refine ⟨fun hrel hall => ⟨_, hexec, ?_⟩, fun l hl hrel hset hcopies => ⟨_, hexec, ?_⟩, fun hrel => ⟨_, hexec, ?_⟩⟩
  · rw [if_pos hrel, windowShut, absentLanes_eq_nil hall]
    exact releaseFrom_absent hshut
  · have hsets : laneSet (updVoter s hub (withClosed key w)) = [0, 1, 2] := hset
    have hlosts : (updVoter s hub (withClosed key w)).agree.lost = false := hlost
    rw [if_pos hrel, windowShut, absentLanes_eq_singleton hl hset hcopies, List.foldl_cons, List.foldl_nil,
      releaseFrom_absent (by rw [voter_laneFault_of_three _ _ _ _ hsets hlosts hl, hshut]),
      laneFault_of_three _ _ _ _ hsets hlosts hl]
    obtain ⟨hstate, hcause⟩ := getLane_laneLeaves_self (emitL (updVoter s hub (withClosed key w)) (srcLane l) 0x2060 2
      (u8 5 ++ u64 (updVoter s hub (withClosed key w)).cyc.k ++ u16 (srcHub hub))) 5 hl
    refine ⟨hstate, hcause, resetDue_laneLeaves _ _ hl, (recorded_laneLeaves ..).mpr (recorded_emitL _ _ _ _ _ _ (by decide)),
      fun j hj => (getLane_laneLeaves_of_ne _ _ hj).trans ?_⟩
    exact congrArg (fun lanes => vget lanes j {}) (emitL_lanes ..)
  · rw [if_neg (by simp [hrel])]
    exact mismatch_does _ _ _ (breakNoted_foldl (fun _ l => breakNoted_laneFault l _ _ _ (by decide)) _ hopen)

/-! ## Deadlines and holds (R167 to R169) -/

/-- A counter and a voter move apart. -/
theorem bumpx_updVoter (s : State) (h : Nat) (f : Voter → Voter) (e : Entry) (idx sub inst n : Nat) :
    bumpx (updVoter s h f) e idx sub inst n = updVoter (bumpx s e idx sub inst n) h f := by
  unfold bumpx svx
  dsimp only
  split <;> rfl

/-- What a hub sends in place of an item that it holds. -/
def holdAnswer (s : State) (h : Nat) (o : OutItem) : State :=
  if o.kind = 4 then
    send s { kind := if (getHub s h).voter.safeCmd then .safeCommand else .holdCommand, port := h, a := (getHub s h).voter.lastCmd }
  else if o.kind = 1 then stageHeld s h o
  else s

/-- The hold of an item begins, unless one is unbroken. -/
def withHold (o : OutItem) (t : Nat) (v : Voter) : Voter :=
  { v with holdSince := if nhas v.holdSince (heldKey o) then v.holdSince else nset v.holdSince (heldKey o) t }

/-- An item counted and recorded as late. -/
def lateNoted (s : State) (h t : Nat) (o : OutItem) : State :=
  emitH (bumps s E.voteStaleItems (10 + h) 0 1) h t (srcHub h) 0x2067 1 (u8 o.kind ++ u32 o.ident ++ u64 s.cyc.k)

theorem holdItem_eq (s : State) (h t : Nat) (o : OutItem) :
    holdItem s h t o = holdAnswer (updVoter (lateNoted s h t o) h (withHold o t)) h o := by
  have hcyc : (bumps s E.voteStaleItems (10 + h) 0 1).cyc = s.cyc := bumps_cyc ..
  unfold holdItem holdAnswer lateNoted
  dsimp only
  rw [hcyc]
  split
  · split
    · next hsafe => exact congrArg (send _) (congrArg (fun k => Egress.mk k h _ 0 0 []) (if_pos hsafe).symm)
    · next hsafe => exact congrArg (send _) (congrArg (fun k => Egress.mk k h _ 0 0 []) (if_neg hsafe).symm)
  · rfl

theorem recorded_holdAnswer {s : State} {c : Nat} (h : Nat) (o : OutItem) (hrec : recorded s c) : recorded (holdAnswer s h o) c := by
  unfold holdAnswer stageHeld
  dsimp only
  (repeat' split) <;> exact hrec

theorem bare_stageHeld (s : State) (h : Nat) (o : OutItem) : bare (stageHeld s h o) = stageHeld (bare s) h o := by
  have hbb : (bare s).bb = s.bb := rfl
  unfold stageHeld
  rw [voter_bare, hbb]
  cases nget? (getHub s h).voter.held (heldKey o) with
  | none => rfl
  | some x =>
    dsimp only
    split <;> rfl

theorem bare_holdAnswer (s : State) (h : Nat) (o : OutItem) : bare (holdAnswer s h o) = holdAnswer (bare s) h o := by
  unfold holdAnswer
  rw [voter_bare, ← bare_stageHeld]
  split
  · rfl
  · split <;> rfl

theorem deadlineRule_holds : deadlineRule := by
  intro s hub item i key o hserves hstale
  obtain ⟨hserv, hup, hmis, hlost⟩ := hserves
  dsimp only
  have hexec : exec (.releaseDeadline hub item i) s =
      .next (holdItem (updVoter s hub (withItem key { o with stale := true })) hub i o) := by
    show execReleaseDeadline hub item i s = _
    unfold execReleaseDeadline
    simp only [hserv, hup, hmis, hlost, hstale]
    rfl
  refine ⟨_, hexec, ?_, ?_⟩
  · rw [holdItem_eq]
    exact recorded_holdAnswer _ _ ((recorded_updVoter ..).mpr (recorded_emitH _ _ _ _ _ _ _ hub.isLt (by decide)))
  · have hlate : bare (lateNoted (updVoter s hub (withItem key { o with stale := true })) hub i o) =
        bare (updVoter (bumps s E.voteStaleItems (10 + hub) 0 1) hub (withItem key { o with stale := true })) :=
      (bare_emitH ..).trans (congrArg bare (bumpx_updVoter ..))
    have hanswer : noted (holdAnswer (updVoter (bumps s E.voteStaleItems (10 + hub) 0 1) hub
          (withHold o i ∘ withItem key { o with stale := true })) hub o)
        (holdItem (updVoter s hub (withItem key { o with stale := true })) hub i o) := by
      unfold noted
      rw [holdItem_eq, bare_holdAnswer, bare_holdAnswer, bare_updVoter, hlate, ← bare_updVoter, updVoter_updVoter]
    unfold holdAnswer at hanswer
    rw [voter_updVoter _ _ _ hub.isLt] at hanswer
    exact hanswer

theorem holdLimitRule_holds : holdLimitRule := by
  intro s hub key i t0 hhold hdue
  have hexec : exec (.voteHoldLimitExpiry hub key i) s = execVoteHoldLimitExpiry hub key i s := rfl
  unfold execVoteHoldLimitExpiry at hexec
  rw [hhold] at hexec
  dsimp only at hexec
  rw [if_pos hdue] at hexec
  refine ⟨fun hkey => ⟨_, hexec, ?_⟩, fun hkey hlease => ⟨_, hexec, ?_⟩⟩
  · rw [if_neg hkey]
    rfl
  · have hfree : holdsLease (updVoter s hub (fun v => { v with safeCmd := true })) = false := hlease
    rw [if_pos hkey, hfree, Bool.and_false]
    rfl

end Sys2Proof.Machine

open Sys2Proof.Machine in
/-- Settles O17: a second equal copy lets go of one word alone, and of the command at its last word; a lane fault of a voter's cause
loses the module only by a mismatch, so that a close without a value has always recorded one. -/
theorem egressVoters : Obligations.EgressVoters := ⟨copyRule_holds, windowCloseRule_holds, deadlineRule_holds, holdLimitRule_holds⟩

/-!
PROOFS. O28: the time bases' alerts (07 R190, R192) and the counting of the tachos (07 R193).
-/

namespace Sys2Proof.Machine

open Sys2Proof.Claims Safe

/-! ## A lane fault of a set of three, in the terms of the statements (06 R157) -/

section
variable (s : State) (l cause : Nat)

theorem laneLeaves_eq_laneOut : laneLeaves s l cause = laneOut s l cause :=
  updLane_updLane (svi { bumpi s E.laneFaults l with perf.setChanged := true } E.laneAbandoned l 0) l
    (fun d => { d with cause := cause }) (fun d => { d with state := .out, resetDue := true, halted := true, retryAt := none })

theorem bare_laneOut {l : Nat} (hl : l < 3) : bare (laneOut s l cause) = laneOut (bare s) l cause := by
  have hperf : ∀ u : State, bare { u with perf.setChanged := true } = { bare u with perf.setChanged := true } := fun _ => rfl
  unfold laneOut
  rw [bare_updLane, bare_svi_lane _ rfl rfl (by decide) hl, hperf, bare_bumpi_lane _ rfl rfl (by decide) hl]

/-- A lane fault of a set of three, of a state `t` that is `s` but for records. -/
theorem noted_laneFault_of_three {s t : State} {l : Nat} (cause det : Nat) (hset : laneSet t = [0, 1, 2])
    (hlost : t.agree.lost = false) (hl : l < 3) (hn : noted s t) : noted (laneOut s l cause) (laneFault t l cause det) := by
  unfold noted at *
  rw [laneFault_of_three cause det [] true hset hlost hl, laneLeaves_eq_laneOut, bare_laneOut _ _ hl, bare_laneOut _ _ hl,
    bare_emitL, hn]

/-- It records event 0x2060 and leaves recorded what was. -/
theorem recorded_laneFault_of_three {t : State} {l code : Nat} (cause det : Nat) (hset : laneSet t = [0, 1, 2])
    (hlost : t.agree.lost = false) (hl : l < 3) (hrec : recorded t code) :
    recorded (laneFault t l cause det) 0x2060 ∧ recorded (laneFault t l cause det) code := by
  rw [laneFault_of_three cause det [] true hset hlost hl, recorded_laneLeaves, recorded_laneLeaves]
  exact ⟨recorded_emitL _ _ _ _ _ _ (by decide), recorded_emitL_of_recorded _ _ _ _ (by decide) hrec⟩

end

/-! ## Corrections out of range (R192) -/

/-- A record of the lanes leaves the lane set as it is. -/
theorem laneSet_emitL (s : State) (src code sev : Nat) (data : List Byte) (stall : Nat) :
    laneSet (emitL s src code sev data stall) = laneSet s := by
  unfold laneSet inSet getLane
  rw [emitL_lanes]

/-- The node of a hub that lands or has landed goes back to LISTEN. -/
theorem hubOutOfRange_eq (s : State) (h : Nat) :
    hubOutOfRange s h =
      { updHub s h (fun d => { d with timeState := 0, oscBad := true }) with
        bb.planes := vupd s.bb.planes h (fun p =>
          { p with node := if p.node = 3 ∨ p.node = 4 ∨ p.node = 6 then 1 else p.node }) } := by
  have hnode : (fun p : Plane => if p.node = 3 || p.node = 4 || p.node = 6 then { p with node := 1 } else p) =
      fun p => { p with node := if p.node = 3 ∨ p.node = 4 ∨ p.node = 6 then 1 else p.node } := by
    funext p
    by_cases hp : p.node = 3 ∨ p.node = 4 ∨ p.node = 6
    · simp [hp, or_assoc]
    · simp [hp, or_assoc]
  unfold hubOutOfRange
  rw [hnode]

theorem oscRule_holds : oscRule := by
  intro s die ppb i hppb
  have hfar : ¬ ppb.natAbs ≤ 200000 := Nat.not_le_of_lt hppb
  refine ⟨fun hlane hset hlost => ⟨_, rfl, ?_⟩, fun hhub hup => ⟨_, rfl, ?_⟩⟩
  · have hstate : (getLane s die).state = .inSet := by simpa [inSet] using inSet_of_three hset hlane
    dsimp only
    rw [if_neg hfar, if_pos hlane, if_neg (by rw [hstate]; decide)]
    obtain ⟨hfault, hrange⟩ := recorded_laneFault_of_three (cause := 7) (det := srcLane die)
      ((laneSet_emitL ..).trans hset) ((congrArg Agree.lost (emitL_agree ..)).trans hlost) hlane
      (recorded_emitL s (srcLane die) 0x2073 2 0xFFFF (u32 (ofInt 4 ppb)) (by decide))
    exact ⟨hrange, hfault, noted_laneFault_of_three 7 _ ((laneSet_emitL ..).trans hset)
      ((congrArg Agree.lost (emitL_agree ..)).trans hlost) hlane (noted_emitL ..)⟩
  · dsimp only
    rw [if_neg hfar, if_neg (Nat.not_lt_of_le hhub), if_neg (by rw [hup]; decide)]
    refine ⟨recorded_emitH _ _ _ _ _ _ _ (by omega) (by decide), ?_⟩
    unfold noted
    rw [bare_emitH, apply_ite bare, bare_emitH, ite_self, hubOutOfRange_eq]
    rfl

/-! ## The difference of the hubs' time bases (R190) -/

theorem hubDiffRule_holds : hubDiffRule := by
  intro s hrun hdone
  refine ⟨_, rfl, ?_⟩
  rw [if_pos (by rw [hdone]; simpa using hrun)]
  exact ⟨recorded_emitL _ _ _ _ _ _ (by decide), noted_emitL ..⟩

/-! ## Tacho counting (R193) -/

/-- One phase that changes counts up where A leads B, else down. -/
theorem quadDelta_of_change : ∀ a b phaseB level : Bool, (if phaseB then b else a) ≠ level →
    quadDelta a b (if phaseB then a else level) (if phaseB then level else b) =
      if turn (a, b) = (if phaseB then a else level, if phaseB then level else b) then 1 else -1 := by decide

/-- A channel once one of its phases has changed at `i`: it has counted, or found a phase error. -/
def phaseMoved (x : Tacho) (phaseB level : Bool) (i stand : Nat) : Tacho :=
  let a := if phaseB then x.a else level
  let b := if phaseB then level else x.b
  let other := if phaseB then x.lastA else x.lastB
  let y := { x with a := a, b := b, lastA := if phaseB then x.lastA else i, lastB := if phaseB then i else x.lastB }
  if other ≠ 0 && i < other + 1000 then phaseErrorAt y i
  else
    let d := quadDelta x.a x.b a b
    { y with
      count := x.count + d, lastDelta := d, lastEdge := i, prevEdge := x.lastEdge
      edges := (i, x.count + d) :: edgesWithin x.edges i stand }

theorem getTacho_updTacho_self (s : State) (ch : Fin 4) (f : Tacho → Tacho) :
    getTacho (updTacho s ch f) ch = f (getTacho s ch) := vget_vupd_self _ _ _ _ ch.isLt

theorem getTacho_updTacho_of_ne (s : State) {ch c : Nat} (f : Tacho → Tacho) (hc : c ≠ ch) :
    getTacho (updTacho s ch f) c = getTacho s c := vget_vupd_of_ne _ _ _ hc

/-- A transition of a channel whose die works changes that channel alone. -/
theorem exec_tachoTransition {s : State} {ch : Fin 4} {x : Tacho} {phaseB level : Bool} (i : Nat) (hx : x = getTacho s ch)
    (hdie : (getDie s (ch / 2)).failed = false) (hold : (if phaseB then x.b else x.a) ≠ level) :
    ∃ stand, exec (.tachoTransition ch phaseB level i) s = .next (updTacho s ch fun _ => phaseMoved x phaseB level i stand) := by
  subst hx
  have hexec : exec (.tachoTransition ch phaseB level i) s = execTachoTransition ch phaseB level i s := rfl
  have hgo : ¬ ((getDie s (tachoDie ch)).failed || decide ((if phaseB then (getTacho s ch).b else (getTacho s ch).a) = level)) =
      true := by
    have hdie' : (getDie s (tachoDie ch)).failed = false := hdie
    simp [hdie', hold]
  unfold execTachoTransition at hexec
  dsimp only at hexec
  rw [if_neg hgo] at hexec
  exact ⟨_, hexec.trans (congrArg Host.Outcome.next (apply_ite (fun y => updTacho s ch fun _ => y) _ _ _).symm)⟩

theorem tachoRule_holds : tachoRule := by
  intro s ch x i hx
  refine ⟨fun phaseB level a b other hdie hold ha hb hother => ?_, fun u huntil hdue => ⟨_, rfl, ?_⟩⟩
  · obtain ⟨stand, hexec⟩ := exec_tachoTransition i hx hdie hold
    refine ⟨_, hexec, rfl, fun c hc => getTacho_updTacho_of_ne s _ hc, ?_⟩
    have hdelta := quadDelta_of_change _ _ _ _ hold
    rw [← ha, ← hb] at hdelta
    rw [getTacho_updTacho_self]
    unfold phaseMoved
    rw [← ha, ← hb, ← hother]
    dsimp only
    by_cases herr : other ≠ 0 ∧ i < other + 1000
    · rw [if_pos (by simpa using herr), if_pos herr]
      exact ⟨rfl, rfl, rfl, rfl⟩
    · rw [if_neg (by simpa using herr), if_neg herr, hdelta]
      exact ⟨rfl, rfl, rfl, rfl, rfl⟩
  · rw [← hx, huntil]
    dsimp only
    rw [if_pos hdue]
    rfl

end Sys2Proof.Machine

open Sys2Proof.Machine in
/-- Settles O28: a fault of a set of three commutes with recording, and a change of one tacho phase moves the pair of levels
by one place in the quadrature order. -/
theorem timeAndTacho : Obligations.TimeAndTacho := ⟨oscRule_holds, hubDiffRule_holds, tachoRule_holds⟩

/-!
PROOFS. O29: datums (07 R199), cancelled triggers (07 R207), supply mode, budget and sheds (08 R211, R219, R224).
-/

namespace Sys2Proof.Machine

open Sys2Proof.Claims Safe

/-! ## A datum ends the armed position triggers (R199, R206) -/

/-- The state with another table of triggers, and other stalls. -/
def withTriggers (s : State) (m : NMap Trigger) (stalls : NMap Stall) : State :=
  { s with sup.triggers := m, sup.stalls := stalls }

/-- At a datum, an armed position trigger ends with its last entry; another one stays. -/
def endTrigger (s : State) (p : Nat × Trigger) : State :=
  if p.2.armed && reqKind p.2 = 2 then
    putEntry { s with sup.triggers := nset s.sup.triggers p.1 { p.2 with armed := false } } p.1 p.2 s.cyc.tk 0
      (tfLast + tfDatumEnd) 0 s.cyc.k
  else s

theorem endPositionTriggers_eq (s : State) : endPositionTriggers s = s.sup.triggers.foldl endTrigger s := rfl

theorem endPositionTriggers_only (s : State) : ∃ m stalls, endPositionTriggers s = withTriggers s m stalls := by
  have hkeep : ∀ u p, withTriggers (endTrigger u p) [] [] = withTriggers u [] [] := fun u p => by
    unfold endTrigger
    split <;> rfl
  have hrest : withTriggers (endPositionTriggers s) [] [] = withTriggers s [] [] :=
    foldl_keeps (withTriggers · [] []) endTrigger hkeep s.sup.triggers s
  have hall := congrArg (withTriggers · (endPositionTriggers s).sup.triggers (endPositionTriggers s).sup.stalls) hrest
  exact ⟨_, _, hall⟩

theorem foldl_endTrigger_of_none (l : List (Nat × Trigger)) (s : State) (h : ∀ p ∈ l, p.2.armed = true → reqKind p.2 ≠ 2) :
    l.foldl endTrigger s = s := by
  induction l with
  | nil => rfl
  | cons p l ih =>
    have hp : endTrigger s p = s := if_neg (by simpa using h p List.mem_cons_self)
    rw [List.foldl_cons, hp, ih fun q hq => h q (List.mem_cons_of_mem p hq)]

theorem endPositionTriggers_triggers_of_one {s : State} {j : Nat} {x : Trigger} (hone : s.sup.triggers = [(j, x)])
    (harm : x.armed = true) (hpos : reqKind x = 2) :
    (endPositionTriggers s).sup.triggers = [(j, { x with armed := false })] := by
  rw [endPositionTriggers_eq, hone, List.foldl_cons, List.foldl_nil, endTrigger, if_pos (by simp [harm, hpos])]
  show nset s.sup.triggers j { x with armed := false } = _
  simp [hone, nset]

/-- An accepted write to a pair-scope entry that is not persistent has its handler's effect, and is carried to a paired module. -/
theorem writeCmd_pairScope {s : State} {ctx idx sub v : Nat} {e : Entry} {h : Handler} (hact : ∀ w, h.act w = none)
    (hp : e.persist = false) (hq : e.pair = true) (ha : accepts s e ctx idx sub v)
    (hc : h.conds s (mkW s ctx idx sub e.len v e) = []) :
    writeCmd h e ctx idx sub v s =
      let u := h.eff s (mkW s ctx idx sub e.len v e)
      { u with twin.pairWrites := u.twin.pairWrites ++ [{ index := idx, sub := sub, inst := chosen s e ctx, value := v }] } := by
  obtain ⟨hopen, hgen⟩ := ha
  rw [writeCmd_accepted s idx sub ctx h e v hopen hgen (fun _ _ _ h => by simp [hact] at h) hc, hp, hq]
  rfl

/-- The datum that POS_DATUM_SET sets, before the position triggers end. -/
def datumNoted (s : State) (ctx v : Nat) : State :=
  { s with
    sup.tp.datumWrite := some (toInt 8 v, ctx)
    sup.tp.datumNumber := if s.sup.tp.datumNumber = 0xFFFF then 1 else s.sup.tp.datumNumber + 1 }

theorem exec_posDatumSet {s : State} {ctx v : Nat} (ha : accepts s E.posDatumSet ctx 0x2500 12 v) :
    exec (.posDatumSet ctx v) s = .next
      { endPositionTriggers (datumNoted s ctx v) with
        twin.pairWrites := (endPositionTriggers (datumNoted s ctx v)).twin.pairWrites ++
          [{ index := 0x2500, sub := 12, inst := chosen s E.posDatumSet ctx, value := v }] } :=
  congrArg Host.Outcome.next (writeCmd_pairScope (h := hPosDatumSet) (fun _ => rfl) rfl rfl ha rfl)

theorem datumSetRule_holds : datumSetRule := by
  intro s ctx v ha
  refine ⟨_, exec_posDatumSet ha, ?_, fun hnone => ?_, fun j x hone harm hpos => ?_⟩
  · obtain ⟨m, stalls, hend⟩ := endPositionTriggers_only (datumNoted s ctx v)
    rw [hend]
    rfl
  · have hsame : endPositionTriggers (datumNoted s ctx v) = datumNoted s ctx v := foldl_endTrigger_of_none _ _ hnone
    rw [hsame]
    rfl
  · exact endPositionTriggers_triggers_of_one (s := datumNoted s ctx v) hone harm hpos

/-! ## A cancelled trigger (R207) -/

theorem updStall_setStall (s : State) (i : Nat) (st : Stall) (f : Stall → Stall) :
    updStall (setStall s i st) i f = setStall s i (f st) := by
  have hst : getStall? (setStall s i st) i = some st := nget?_nset_self ..
  rw [updStall_eq_setStall hst, setStall_setStall]

/-- The last entry of trigger `j`, which is cancelled. -/
def cancelEntry (s : State) (j : Nat) (x : Trigger) : TrigEntry :=
  { handle := trigHandle j x, userTag := reqTag x, stamp := s.cyc.tk, lateness := 0, firings := 0, kind := reqKind x
    flags := tfLast, crossing := s.cyc.k % 2 ^ 32 }

/-- A cancelled trigger leaves its owner with that entry alone of its own. -/
theorem hTrigCancel_eff {s : State} {w : WReq} {x : Trigger} {st : Stall} (hv : w.v = 1)
    (hx : nget? s.sup.triggers w.inst = some x) (hst : getStall? s x.owner = some st) :
    hTrigCancel.eff s w =
      setStall { s with sup.triggers := nerase s.sup.triggers w.inst } x.owner { st with
        trigWait := mergeEntry (st.trigWait.filter (fun e => e.handle ≠ trigHandle w.inst x)) (cancelEntry s w.inst x) } := by
  have hdrop : dropEntries s w.inst x = setStall s x.owner { st with
      trigWait := st.trigWait.filter (fun e => e.handle ≠ trigHandle w.inst x) } := updStall_eq_setStall hst _
  unfold hTrigCancel
  dsimp only
  rw [if_neg (by simp [hv]), hx]
  dsimp only
  rw [hdrop]
  exact updStall_setStall { s with sup.triggers := nerase s.sup.triggers w.inst } x.owner _ _

theorem trigCancelRule_holds : trigCancelRule := by
  intro s ctx j x st ha hj hx hst
  subst hj
  have hconds : hTrigCancel.conds s (mkW s ctx 0x2581 6 E.trigCancel.len 1 E.trigCancel) = [] := by
    show refuseIf (decide (1 = 1) && !(nhas s.sup.triggers (chosen s E.trigCancel ctx))) abtState 3 = []
    simp [nhas, hx, refuseIf]
  exact ⟨_, congrArg Host.Outcome.next (writeCmd_volatile (h := hTrigCancel) (fun _ => rfl) rfl rfl ha hconds),
    cancelEntry s (chosen s E.trigCancel ctx) x, hTrigCancel_eff rfl hx hst, rfl, rfl, rfl, rfl⟩

/-! ## Supply mode and budget (R211, R219) -/

theorem supplyModeRule_holds : supplyModeRule := fun _ _ _ ha =>
  ⟨_, congrArg Host.Outcome.next (writeCmd_volatile (h := hSupplyMode) (fun _ => rfl) rfl rfl ha rfl), rfl⟩

theorem overrunRule_holds : overrunRule := by
  intro s t0 hsince hdue hdone
  refine ⟨_, rfl, ?_⟩
  rw [hsince]
  dsimp only
  rw [if_pos (by simp [hdue, hdone])]
  exact ⟨recorded_emitL _ _ _ _ _ _ (by decide), noted_emitL ..⟩

/-! ## The receivers of a closing port shed (R224) -/

/-- The receivers of shed `i` of hub `h` have stopped: what is held in ingress is dropped, no block lock and no twin session stays. -/
def receiverStopped (s : State) (i h : Nat) : State :=
  { s with
    shedHub := vupd s.shedHub i (fun _ => { stopped := true })
    twin.links := s.twin.links.mapIdx (fun l x => if i = 7 + 4 * (l / 2) then { x with session := false } else x)
    cyc.hubOpen := vupd s.cyc.hubOpen h (fun l => l.filter (fun it => !((shedPorts i).contains it.port)))
    con.ports := Vector.ofFn (fun p : Fin 16 =>
      let x := vget s.con.ports p.val {}
      if (shedPorts i).contains p.val then { x with blockLock := false } else x) }

theorem receiverStopped_ports (s : State) (i h : Nat) {p : Nat} (hp : p < 16) :
    vget (receiverStopped s i h).con.ports p {} =
      if (shedPorts i).contains p then { vget s.con.ports p {} with blockLock := false } else vget s.con.ports p {} := by
  simp [receiverStopped, vget, hp]

theorem receiverStopped_links (s : State) (i h : Nat) {l : Nat} (hl : l < 4) :
    vget (receiverStopped s i h).twin.links l {} =
      if i = 7 + 4 * (l / 2) then { vget s.twin.links l {} with session := false } else vget s.twin.links l {} := by
  simp [receiverStopped, vget, hl]

/-- What a shed drops is counted and recorded, where it is not nothing. -/
def dropCounted (s : State) (i h n t : Nat) : State :=
  if n = 0 then s else emitH (bumps s E.shedDroppedIn (i + 1) 0 n) h t (srcHub h) 0x1035 1 (u8 i ++ u32 n)

section
variable (s : State) (i h n t : Nat)

theorem dropCounted_shedHub : (dropCounted s i h n t).shedHub = s.shedHub := by
  unfold dropCounted
  split <;> simp

theorem dropCounted_con : (dropCounted s i h n t).con = s.con := by
  unfold dropCounted
  split <;> simp

theorem dropCounted_twin : (dropCounted s i h n t).twin = s.twin := by
  unfold dropCounted
  split <;> simp

end

theorem shedStopRule_holds : shedStopRule := by
  intro s shed dropped i h n hport hclosing hruns hdue hh hn
  have hexec : exec (.shedReceiverStop shed dropped i) s = execShedReceiverStop shed dropped i s := rfl
  unfold execShedReceiverStop at hexec
  dsimp only at hexec
  rw [if_pos (by simp [hport, hclosing, hruns, hdue]), ← hh, ← hn] at hexec
  have hstop : exec (.shedReceiverStop shed dropped i) s = .next (dropCounted (receiverStopped s shed h) shed h n i) := hexec
  refine ⟨_, hstop, ?_⟩
  dsimp only
  rw [dropCounted_shedHub, dropCounted_con, dropCounted_twin]
  refine ⟨congrArg ShedHub.stopped (vget_vupd_self _ _ _ _ shed.isLt), fun j hj => vget_vupd_of_ne _ _ _ hj,
    fun p hp => receiverStopped_ports s shed h hp, fun l hl => receiverStopped_links s shed h hl, fun h0 => ?_, fun h0 => ?_⟩
  · rw [dropCounted, if_pos h0]
    rfl
  · rw [dropCounted, if_neg (Nat.ne_of_gt h0)]
    exact ⟨recorded_emitH _ _ _ _ _ _ _ (by rw [hh]; split <;> decide) (by decide), bare_emitH ..⟩

end Sys2Proof.Machine

open Sys2Proof.Machine in
/-- Settles O29: a datum reaches only the triggers and the stalls that own them, and a shed's receivers stop before what they drop
is counted. -/
theorem datumsAndEnergy : Obligations.DatumsAndEnergy :=
  ⟨datumSetRule_holds, trigCancelRule_holds, supplyModeRule_holds, shedStopRule_holds, overrunRule_holds⟩

/-!
PROOFS. O32: bells received and lost (07 R187, 09 R235, 10 R271 to R273), and the measurement of a link's delay (10 R265).
-/

namespace Sys2Proof.Machine

open Sys2Proof.Claims Safe

/-! ## Links, planes and hubs of the backbone, one changed -/

theorem vupd_eq_self {α : Type} {n : Nat} (v : Vector α n) (i : Nat) {f : α → α} (d : α) (h : f (vget v i d) = vget v i d) :
    vupd v i f = v := by
  rw [vupd_congr v i (g := id) d h]
  unfold vupd
  split <;> simp

section
variable (s : State) {i : Nat}

theorem getLink_updLink_self (f : BLink → BLink) (hi : i < 4) : getLink (updLink s i f) i = f (getLink s i) :=
  vget_vupd_self _ _ _ _ hi

theorem updLink_updLink (i : Nat) (f g : BLink → BLink) : updLink (updLink s i f) i g = updLink s i (g ∘ f) := by
  unfold updLink
  rw [vupd_vupd]

/-- Only what a change makes of the link itself matters. -/
theorem updLink_congr {s : State} {i : Nat} {f g : BLink → BLink} (hfg : f (getLink s i) = g (getLink s i)) :
    updLink s i f = updLink s i g :=
  congrArg (fun links => { s with bb.links := links }) (vupd_congr s.bb.links i {} hfg)

/-- Only what a change makes of the plane itself matters. -/
theorem updPlane_congr {s : State} {h : Nat} {f g : Plane → Plane} (hfg : f (getPlane s h) = g (getPlane s h)) :
    updPlane s h f = updPlane s h g :=
  congrArg (fun planes => { s with bb.planes := planes }) (vupd_congr s.bb.planes h {} hfg)

theorem updPlane_eq_self {s : State} {h : Nat} {f : Plane → Plane} (hf : f (getPlane s h) = getPlane s h) :
    updPlane s h f = s :=
  congrArg (fun planes => { s with bb.planes := planes }) (vupd_eq_self s.bb.planes h {} hf)

theorem updPlane_updPlane (h : Nat) (f g : Plane → Plane) : updPlane (updPlane s h f) h g = updPlane s h (g ∘ f) := by
  unfold updPlane
  rw [vupd_vupd]

theorem updHub_updHub (h : Nat) (f g : HubDie → HubDie) : updHub (updHub s h f) h g = updHub s h (g ∘ f) := by
  unfold updHub
  rw [vupd_vupd]

/-- Only what a change makes of the hub itself matters. -/
theorem updHub_congr {s : State} {h : Nat} {f g : HubDie → HubDie} (hfg : f (getHub s h) = g (getHub s h)) :
    updHub s h f = updHub s h g :=
  congrArg (fun hubs => { s with hubs := hubs }) (vupd_congr s.hubs h {} hfg)

theorem updHub_eq_self {s : State} {h : Nat} {f : HubDie → HubDie} (hf : f (getHub s h) = getHub s h) : updHub s h f = s :=
  congrArg (fun hubs => { s with hubs := hubs }) (vupd_eq_self s.hubs h {} hf)

/-- A change of one hub that leaves its records on their way, and whether it is in operation, leaves recorded what was. -/
theorem recorded_updHub {s : State} {c : Nat} (h : Nat) {f : HubDie → HubDie} (hf : ∀ d, (f d).failed = d.failed ∧
    (f d).restarting = d.restarting ∧ (f d).inflight = d.inflight) (hrec : recorded s c) : recorded (updHub s h f) c := by
  have hview : ∀ j, (getHub (updHub s h f) j).failed = (getHub s j).failed ∧
      (getHub (updHub s h f) j).restarting = (getHub s j).restarting ∧
      (getHub (updHub s h f) j).inflight = (getHub s j).inflight := fun j => by
    unfold getHub updHub
    dsimp only
    rw [vget_vupd]
    split
    · next hj => rw [hj.1]; exact hf _
    · exact ⟨rfl, rfl, rfl⟩
  have hup : ∀ j, hubUp (updHub s h f) j = hubUp s j := fun j => by
    obtain ⟨hfailed, hrest, -⟩ := hview j
    unfold hubUp
    rw [hfailed, hrest]
  have hway : ∀ j, onWay (updHub s h f) j c ↔ onWay s j c := fun j => by
    obtain ⟨-, -, hfl⟩ := hview j
    unfold onWay
    rw [hfl]
  obtain ⟨origin, ho, hw | hsup⟩ := hrec
  · refine ⟨origin, ho, .inl fun j hj hu he => ?_⟩
    exact (hway j).mpr (hw j hj ((hup j).symm.trans hu) he)
  · exact ⟨origin, ho, .inr hsup⟩

end

/-! ## A node's state (10 R263) -/

section
variable (s : State) {h : Nat} (n : Nat)

/-- A node's state changes in its plane alone. -/
theorem setNode_bb : (setNode s h n).bb = { s.bb with planes := vupd s.bb.planes h (fun p => { p with node := n }) } := by
  unfold setNode
  dsimp only
  split
  · next hn =>
    have hsame := vupd_eq_self s.bb.planes h (f := fun p => { p with node := n }) {} (by rw [← hn]; rfl)
    rw [hsame]
  · rw [emitH_bb]
    split <;> rfl

theorem setNode_frame : (setNode s h n).lanes = s.lanes ∧ (setNode s h n).sup.stalls = s.sup.stalls ∧
    (setNode s h n).cyc = s.cyc := by
  unfold setNode
  dsimp only
  split
  · exact ⟨rfl, rfl, rfl⟩
  · rw [emitH_lanes, emitH_sup_stalls, emitH_cyc]
    split <;> exact ⟨rfl, rfl, rfl⟩

/-- A change of a node's state is recorded. -/
theorem recorded_setNode (hh : h < 2) (hn : (getPlane s h).node ≠ n) : recorded (setNode s h n) 0x3010 := by
  unfold setNode
  dsimp only
  rw [if_neg hn]
  exact recorded_emitH _ _ _ _ _ _ _ hh (by decide)

end

/-! ## A bell that a hub accepts (R235, R271) -/

/-- A plane under the key number that a bell names in crossing `k` (09 R241). -/
def underKey (k key : Nat) (p : Plane) : Plane :=
  if p.keyCur = key then p else { p with keyPrev := some p.keyCur, keyCur := key, keyChanged := k, keyReported := none }

theorem nameKey_eq (s : State) (h key : Nat) : nameKey s h key = updPlane s h (underKey s.cyc.k key) := by
  unfold nameKey
  dsimp only
  split
  · next hkey => exact (updPlane_eq_self (f := underKey s.cyc.k key) (if_pos hkey)).symm
  · next hkey =>
    refine (updPlane_congr ?_).symm
    exact if_neg hkey

/-- A plane as a bell with phase error `e` marks it. -/
def markedPlane (i : Nat) (b : Bell) (e : Int) (p : Plane) : Plane :=
  { p with
    bellOk := true, missed := 0, phaseErr := e, facing := i % 2, bellCold := b.cold, bellMerge := b.merge
    errRun := if p.node = 4 && 200000 < e.natAbs then p.errRun + 1 else 0 }

/-- The step that falls due on a phase error (07 R189), where the hub `compares`. -/
def steppedHub (slew : Nat) (e : Int) (compares : Bool) (d : HubDie) : HubDie :=
  if compares && ((slew * 1000 : Nat) : Int) < (((e + 500) / 1000).natAbs : Int) then { d with stepDue := some ((e + 500) / 1000) }
  else d

/-- The correction that a bell drives under the free value `f`, and the end of HOLDOVER of a hub that has landed. -/
def correctedHub (f : Nat) (landed : Bool) (d : HubDie) : HubDie :=
  { d with
    corr := ((f % 400001 : Nat) : Int) - 200000
    timeState := if d.timeState = 2 && landed then 1 else d.timeState }

/-- What a bell says of the ferryman. -/
def bellFerry (s : State) (b : Bell) : State :=
  { s with
    bb.ferryman := if b.cold then s.bb.ferryman else b.address
    bb.ferryPriority := b.priority, bb.inaugSeen := max s.bb.inaugSeen b.inaug
    bb.inaug := if b.cold then s.bb.inaug else b.inaug
    bb.noFerry := false
    bb.yieldK := if b.last && b.merge then some s.cyc.k else s.bb.yieldK }

/-- What a bell with phase error `e` makes of hub `h`. -/
def heardHub (s : State) (h : Nat) (e : Int) : HubDie → HubDie :=
  correctedHub (freeVal s) ((getPlane s h).node = 4 || (getPlane s h).node = 6) ∘
    steppedHub (gv s E.timeSlewMax) e ((getPlane s h).node = 3 || (getHub s h).timeState = 2)

/-- A bell as a hub takes it in, before its phase error may send the hub to land again. -/
def bellHeard (s : State) (h i : Nat) (b : Bell) : State :=
  bellFerry (updHub (updPlane (nameKey (freeNext s) h b.key) h (markedPlane i b (phaseError s h i b))) h
    (heardHub s h (phaseError s h i b))) b

/-- A step that falls due, and then another change of the hub. -/
theorem updHub_dueStep (u : State) (h : Nat) (e : Int) (c : Bool) (g : HubDie → HubDie) :
    updHub (if c then dueStep u h e else u) h g = updHub u h (g ∘ steppedHub (gv u E.timeSlewMax) e c) := by
  have hstep : (if c then dueStep u h e else u) = updHub u h (steppedHub (gv u E.timeSlewMax) e c) := by
    cases c with
    | false => exact (updHub_eq_self (f := steppedHub (gv u E.timeSlewMax) e false) rfl).symm
    | true =>
      unfold dueStep
      dsimp only
      rw [if_pos rfl]
      split
      · next hfar =>
        refine (updHub_congr ?_).symm
        exact if_pos (by simpa using hfar)
      · next hnear =>
        exact (updHub_eq_self (f := steppedHub (gv u E.timeSlewMax) e true) (if_neg (by simpa using hnear))).symm
  rw [hstep, updHub_updHub]

/-- A joining half notes the yield that its ferryman announces. -/
theorem bellFerry_eq (u : State) (b : Bell) : bellFerry u b =
    (let v := { u with
      bb.ferryman := if b.cold then u.bb.ferryman else b.address
      bb.ferryPriority := b.priority, bb.inaugSeen := max u.bb.inaugSeen b.inaug
      bb.inaug := if b.cold then u.bb.inaug else b.inaug
      bb.noFerry := false }
    if b.last && b.merge then { v with bb.yieldK := some v.cyc.k } else v) := by
  unfold bellFerry
  cases b.last && b.merge
  · rfl
  · rfl

/-- A hub accepts a bell: it is heard, and the third in a row with a phase error out of tolerance has a LANDED hub land again. -/
theorem acceptBell_eq (s : State) (h i : Nat) (b : Bell) :
    acceptBell s h i b =
      let e := phaseError s h i b
      let u := bellHeard s h i b
      if (getPlane s h).node = 4 && 3 ≤ (getPlane u h).errRun then
        setNode (updPlane (emitH u h u.cyc.tk (srcHub h) 0x3017 2 (u8 h ++ u64 (ofInt 8 e))) h
          (fun p => { p with errRun := 0 })) h 3
      else u := by
  have hhub : ∀ u, gv u E.timeSlewMax = gv s E.timeSlewMax →
      updHub (if (getPlane s h).node = 3 || (getHub s h).timeState = 2 then dueStep u h (phaseError s h i b) else u) h
        (correctedHub (freeVal s) ((getPlane s h).node = 4 || (getPlane s h).node = 6)) =
      updHub u h (heardHub s h (phaseError s h i b)) := fun u hu => by
    rw [updHub_dueStep, hu]
    rfl
  have hslew : gv (updPlane (nameKey (freeNext s) h b.key) h (markedPlane i b (phaseError s h i b))) E.timeSlewMax =
      gv s E.timeSlewMax := by
    rw [nameKey_eq]
    rfl
  unfold bellHeard
  dsimp only
  rw [← hhub _ hslew, bellFerry_eq]
  rfl

section
variable (s : State) {h : Nat} (i : Nat) (b : Bell)

theorem bellHeard_eq : bellHeard s h i b = bellFerry (updHub (updPlane (freeNext s) h
    (markedPlane i b (phaseError s h i b) ∘ underKey s.cyc.k b.key)) h (heardHub s h (phaseError s h i b))) b := by
  unfold bellHeard
  rw [nameKey_eq, updPlane_updPlane]
  rfl

theorem bellHeard_bb : (bellHeard s h i b).bb = { s.bb with
    planes := vupd s.bb.planes h (markedPlane i b (phaseError s h i b) ∘ underKey s.cyc.k b.key)
    ferryman := if b.cold then s.bb.ferryman else b.address
    ferryPriority := b.priority, inaugSeen := max s.bb.inaugSeen b.inaug
    inaug := if b.cold then s.bb.inaug else b.inaug
    noFerry := false
    yieldK := if b.last && b.merge then some s.cyc.k else s.bb.yieldK } := by
  rw [bellHeard_eq]
  rfl

/-- A bell changes the hubs, the backbone and the count of free values alone. -/
theorem bellHeard_frame : ∃ hubs bb st, bellHeard s h i b = { s with hubs := hubs, bb := bb, st := st } := by
  rw [bellHeard_eq]
  unfold bellFerry updHub updPlane freeNext
  exact ⟨_, _, _, rfl⟩

/-- What a bell makes of a hub leaves its records on their way, and whether it is in operation. -/
theorem heardHub_keeps (e : Int) : ∀ d, (heardHub s h e d).failed = d.failed ∧
    (heardHub s h e d).restarting = d.restarting ∧ (heardHub s h e d).inflight = d.inflight := by
  intro d
  unfold heardHub steppedHub correctedHub
  dsimp only [Function.comp_apply]
  split
  · exact ⟨rfl, rfl, rfl⟩
  · exact ⟨rfl, rfl, rfl⟩

theorem recorded_freeNext (c : Nat) : recorded (freeNext s) c ↔ recorded s c := Iff.rfl

theorem recorded_updPlane (f : Plane → Plane) (c : Nat) : recorded (updPlane s h f) c ↔ recorded s c := Iff.rfl

theorem recorded_bellFerry (c : Nat) : recorded (bellFerry s b) c ↔ recorded s c := Iff.rfl

theorem recorded_bellHeard {c : Nat} (hrec : recorded s c) : recorded (bellHeard s h i b) c := by
  rw [bellHeard_eq, recorded_bellFerry]
  refine recorded_updHub h (heardHub_keeps s _) ?_
  rwa [recorded_updPlane, recorded_freeNext]

theorem underKey_landing (k key : Nat) (p : Plane) : (underKey k key p).node = p.node ∧
    (underKey k key p).planNo = p.planNo ∧ (underKey k key p).takenX = p.takenX := by
  unfold underKey
  split
  · exact ⟨rfl, rfl, rfl⟩
  · exact ⟨rfl, rfl, rfl⟩

/-- Only a LANDED hub with a phase error out of tolerance may land again. -/
theorem acceptBell_eq_bellHeard (hh : h < 2) (herr : (getPlane s h).node = 4 → (phaseError s h i b).natAbs ≤ 200000) :
    acceptBell s h i b = bellHeard s h i b := by
  rw [acceptBell_eq]
  dsimp only
  refine if_neg fun hrun => ?_
  obtain ⟨hn, hrun⟩ : (getPlane s h).node = 4 ∧ 3 ≤ (getPlane (bellHeard s h i b) h).errRun := by simpa using hrun
  have hplane : getPlane (bellHeard s h i b) h =
      markedPlane i b (phaseError s h i b) (underKey s.cyc.k b.key (getPlane s h)) := by
    unfold getPlane
    rw [bellHeard_bb]
    exact vget_vupd_self _ _ _ _ hh
  have hnone : (getPlane (bellHeard s h i b) h).errRun = 0 := by
    rw [hplane]
    exact if_neg (by simp [Nat.not_lt_of_le (herr hn)])
  omega

/-! ## The first bell of a hub that lands (R272) -/

/-- A plane takes plan number and crossing number of a bell. -/
def takenPlane (b : Bell) (p : Plane) : Plane := { p with planNo := b.plan, takenX := some b.crossing, joins := false }

/-- A hub takes plan number, crossing number and crossing length of a bell. -/
def bellTaken (s : State) (h : Nat) (b : Bell) : State :=
  { updPlane s h (takenPlane b) with
    bb.cDue := if b.n * 125000 = s.cyc.c then s.bb.cDue else some (b.n * 125000) }

theorem bellTaken_planes : (bellTaken s h b).bb.planes = vupd s.bb.planes h (takenPlane b) := rfl

theorem takeBell_eq (hh : h < 2) : takeBell s h i b = bellHeard (setNode (bellTaken s h b) h 3) h i b := by
  have hlength : (let u := updPlane s h (takenPlane b)
      if b.n * 125000 = u.cyc.c then u else { u with bb.cDue := some (b.n * 125000) }) = bellTaken s h b := by
    unfold bellTaken
    dsimp only
    by_cases hc : b.n * 125000 = s.cyc.c
    · rw [if_pos hc]
      exact if_pos hc
    · rw [if_neg hc]
      exact if_neg hc
  have htaken : takeBell s h i b = acceptBell (setNode (bellTaken s h b) h 3) h i b := by
    rw [← hlength]
    rfl
  have hnode : (getPlane (setNode (bellTaken s h b) h 3) h).node = 3 := by
    unfold getPlane
    rw [setNode_bb]
    dsimp only
    rw [vget_vupd_self _ _ _ _ hh]
  rw [htaken, acceptBell_eq_bellHeard _ _ _ hh fun h4 => by omega]

/-- A plane that has taken a bell lands. -/
def landsOn (b : Bell) (p : Plane) : Prop :=
  p.node = 3 ∧ p.planNo = b.plan ∧ p.takenX = some b.crossing ∧ p.bellOk = true

theorem takeBell_bb (hh : h < 2) : ∃ g : Plane → Plane, (∀ p, landsOn b (g p)) ∧ (takeBell s h i b).bb = { s.bb with
    planes := vupd s.bb.planes h g
    cDue := if b.n * 125000 = s.cyc.c then s.bb.cDue else some (b.n * 125000)
    ferryman := if b.cold then s.bb.ferryman else b.address
    ferryPriority := b.priority, inaugSeen := max s.bb.inaugSeen b.inaug
    inaug := if b.cold then s.bb.inaug else b.inaug
    noFerry := false
    yieldK := if b.last && b.merge then some s.cyc.k else s.bb.yieldK } := by
  obtain ⟨-, -, hcyc⟩ := setNode_frame (bellTaken s h b) (h := h) 3
  have hk : (bellTaken s h b).cyc = s.cyc := rfl
  refine ⟨((markedPlane i b (phaseError (setNode (bellTaken s h b) h 3) h i b) ∘ underKey s.cyc.k b.key) ∘
    (fun p => { p with node := 3 })) ∘ takenPlane b,
    fun p => ?_, ?_⟩
  · obtain ⟨hnode, hplan, hx⟩ := underKey_landing s.cyc.k b.key { takenPlane b p with node := 3 }
    exact ⟨hnode, hplan, hx, rfl⟩
  · rw [takeBell_eq s i b hh, bellHeard_bb, setNode_bb, hcyc, hk, ← vupd_vupd s.bb.planes h (takenPlane b),
      ← vupd_vupd _ h (fun p : Plane => { p with node := 3 })]
    rfl

theorem takeBell_lands (hh : h < 2) : landsOn b (getPlane (takeBell s h i b) h) := by
  obtain ⟨g, hg, hbb⟩ := takeBell_bb s i b hh
  unfold getPlane
  rw [hbb]
  dsimp only
  rw [vget_vupd_self _ _ _ _ hh]
  exact hg _

theorem recorded_takeBell (hh : h < 2) (hn : (getPlane s h).node ≠ 3) : recorded (takeBell s h i b) 0x3010 := by
  rw [takeBell_eq s i b hh]
  refine recorded_bellHeard _ _ _ (recorded_setNode _ 3 hh ?_)
  have hsame : getPlane (bellTaken s h b) h = takenPlane b (getPlane s h) := by
    unfold getPlane
    rw [bellTaken_planes]
    exact vget_vupd_self _ _ _ _ hh
  rwa [hsame]

theorem takeBell_frame (hh : h < 2) :
    (takeBell s h i b).lanes = s.lanes ∧ (takeBell s h i b).sup.stalls = s.sup.stalls := by
  obtain ⟨hlanes, hstalls, -⟩ := setNode_frame (bellTaken s h b) (h := h) 3
  obtain ⟨hubs, bb, st, hheard⟩ := bellHeard_frame (setNode (bellTaken s h b) h 3) (h := h) i b
  rw [takeBell_eq s i b hh, hheard]
  exact ⟨hlanes, hstalls⟩

end

/-! ## A hub's own bell (R235) -/

/-- The peer of a link has been heard in this crossing. -/
def peerNoted (s : State) (i : Nat) : State := updLink s i (fun l => { l with lastPeer := s.cyc.k })

theorem peerHeard_of_up {s : State} {i : Nat} (hi : i < 4) (hup : (getLink s i).state = 2) : peerHeard s i = peerNoted s i := by
  have hstate : (getLink (peerNoted s i) i).state = 2 :=
    (congrArg BLink.state (getLink_updLink_self s _ hi)).trans hup
  exact if_neg fun h1 => absurd (hstate.symm.trans h1) (by decide)

/-- What a hub in node state `n` does with a bell that verifies and comes over no edge. -/
def bellJudged (s : State) (h i n : Nat) (b : Bell) : State :=
  if b.cold then coldBell s h i b
  else if (n = 1 && !s.bb.isFerry) || (n = 3 && (getPlane s h).joins) then takeBell s h i b
  else if n = 3 || n = 4 || n = 6 then
    if (transparent s h || (bellWindow s i b.arrival).isSome) && bellMatches s h b then
      let s := hearBell s b
      if s.bb.claiming then s else acceptBell s h i b
    else missBell s
  else if n = 5 && (bellWindow s i b.arrival).isSome && bellMatches s h b then s
  else missBell s

section
variable {s : State} {link : Fin 4} {h : Nat} {b : Bell}

/-- The commands take every bell that a hub in operation receives over a link that is not DOWN; COLD_BELL_RECEIVED takes COLD ones
only. -/
theorem exec_bellReceived (hup : hubUp s (link / 2) = true) (hstate : (getLink s link).state ≠ 0) :
    exec (.bellReceived link b) s = .next (bellArrives s link b) := by
  have hgo : (hubUp s (linkHub link) && decide ((getLink s link).state ≠ 0)) = true := by
    rw [linkHub, hup]
    simpa using hstate
  exact congrArg Host.Outcome.next (if_pos hgo)

theorem exec_coldBellReceived (hcold : b.cold = true) (hup : hubUp s (link / 2) = true) (hstate : (getLink s link).state ≠ 0) :
    exec (.coldBellReceived link b) s = .next (bellArrives s link b) := by
  have hgo : (b.cold && hubUp s (linkHub link) && decide ((getLink s link).state ≠ 0)) = true := by
    rw [linkHub, hup, hcold]
    simpa using hstate
  exact congrArg Host.Outcome.next (if_pos hgo)

theorem bellArrives_unverified (hkey : (bbKeyOf s b.key).isSome = true) (htag : b.tagOk = false) :
    bellArrives s link b = bump s E.bbBellsMissed := by
  unfold bellArrives
  dsimp only
  rw [if_pos hkey, htag]
  rfl

theorem bellArrives_own (hown : ownBell s link h b) :
    bellArrives s link b = bellJudged (peerNoted s link) h link (getPlane s h).node b := by
  obtain ⟨rfl, -, hstate, hedge, htag, hkey⟩ := hown
  have hedge' : (getLink (peerNoted s link) link).edge = false :=
    (congrArg BLink.edge (getLink_updLink_self s _ link.isLt)).trans hedge
  unfold bellArrives
  dsimp only
  rw [if_pos hkey, if_neg (by simp [htag, hkey]), peerHeard_of_up link.isLt hstate, hedge']
  rfl

end

/-! ## A LANDED hub's bell (R271) -/

/-- The plane of a LANDED hub that accepts a bell with phase error `e`, under the key in use. -/
def matchedPlane (i : Nat) (e : Int) (p : Plane) : Plane :=
  { p with
    bellOk := true, missed := 0, phaseErr := e, facing := i % 2, bellCold := false, bellMerge := false, errRun := 0 }

/-- The rate correction that the free value `f` makes. -/
def corrOf (f : Nat) : Int := ((f % 400001 : Nat) : Int) - 200000

/-- A LANDED hub out of HOLDOVER once it has accepted a bell with phase error `e`. -/
def landedBell (s : State) (h i : Nat) (e : Int) (b : Bell) : State :=
  { updHub (updPlane (freeNext s) h (matchedPlane i e)) h (fun d => { d with corr := corrOf (freeVal s) }) with
    bb.ferryman := b.address, bb.ferryPriority := b.priority, bb.inaug := b.inaug
    bb.inaugSeen := max s.bb.inaugSeen b.inaug, bb.noFerry := false }

theorem corr_landedBell (s : State) {h : Nat} (i : Nat) (e : Int) (b : Bell) (hh : h < 2) :
    (getHub (landedBell s h i e b) h).corr = corrOf (freeVal s) :=
  congrArg HubDie.corr (vget_vupd_self s.hubs h (fun d => { d with corr := corrOf (freeVal s) }) {} hh)

theorem bellHeard_eq_landedBell {s : State} {h i : Nat} {b : Bell} (hn : (getPlane s h).node = 4) (hcold : b.cold = false)
    (hmerge : b.merge = false) (hkey : (getPlane s h).keyCur = b.key) (herr : (phaseError s h i b).natAbs ≤ 200000)
    (htime : (getHub s h).timeState ≠ 2) : bellHeard s h i b = landedBell s h i (phaseError s h i b) b := by
  have hunder : underKey s.cyc.k b.key (getPlane s h) = getPlane s h := if_pos hkey
  have hplane : updPlane (freeNext s) h (markedPlane i b (phaseError s h i b) ∘ underKey s.cyc.k b.key) =
      updPlane (freeNext s) h (matchedPlane i (phaseError s h i b)) := by
    refine updPlane_congr ?_
    show markedPlane i b (phaseError s h i b) (underKey s.cyc.k b.key (getPlane s h)) =
      matchedPlane i (phaseError s h i b) (getPlane s h)
    rw [hunder]
    unfold markedPlane matchedPlane
    rw [hcold, hmerge, if_neg (by simpa using fun _ => herr)]
  have hhub : heardHub s h (phaseError s h i b) (getHub s h) = { getHub s h with corr := corrOf (freeVal s) } := by
    unfold heardHub
    rw [hn]
    simp [steppedHub, correctedHub, corrOf, htime]
  have hcorr : updHub (updPlane (freeNext s) h (matchedPlane i (phaseError s h i b))) h (heardHub s h (phaseError s h i b)) =
      updHub (updPlane (freeNext s) h (matchedPlane i (phaseError s h i b))) h (fun d => { d with corr := corrOf (freeVal s) }) :=
    updHub_congr hhub
  rw [bellHeard_eq, hplane, hcorr]
  unfold bellFerry landedBell
  rw [hcold, hmerge, Bool.and_false]
  rfl

section
variable {s : State} {link : Fin 4} {h : Nat} {b : Bell}

theorem bellArrives_landed (hown : ownBell s link h b) (hcold : b.cold = false) (hn : (getPlane s h).node = 4)
    (hwin : (bellWindow s link b.arrival).isSome = true) (hmatch : bellMatches s h b = true) (hclaim : s.bb.claiming = false) :
    bellArrives s link b = acceptBell (peerNoted s link) h link b := by
  have hwin' : (bellWindow (peerNoted s link) link b.arrival).isSome = true := hwin
  have hmatch' : bellMatches (peerNoted s link) h b = true := hmatch
  have hclaim' : (peerNoted s link).bb.claiming = false := hclaim
  have hear : hearBell (peerNoted s link) b = peerNoted s link := if_neg (by simp [hclaim'])
  rw [bellArrives_own hown, hn, bellJudged, if_neg (by simp [hcold]), if_neg (by simp), if_pos (by simp),
    if_pos (by simp [hwin', hmatch'])]
  dsimp only
  rw [hear, hclaim']
  rfl

theorem bellArrives_listen (hown : ownBell s link h b) (hcold : b.cold = false) (hn : (getPlane s h).node = 1)
    (hferry : s.bb.isFerry = false) : bellArrives s link b = takeBell (peerNoted s link) h link b := by
  have hferry' : (peerNoted s link).bb.isFerry = false := hferry
  rw [bellArrives_own hown, hn, bellJudged, if_neg (by simp [hcold]), if_pos (by simp [hferry'])]

theorem bellArrives_cold (hown : ownBell s link h b) (hcold : b.cold = true) :
    bellArrives s link b = coldBell (peerNoted s link) h link b := by
  rw [bellArrives_own hown, bellJudged, if_pos hcold]

end

theorem bellRule_holds : bellRule := by
  intro s link b h e hh he
  have hlt : h < 2 := by omega
  refine ⟨fun hup hstate hkey htag => ?_, fun hown hcold hn hwin hmatch hclaim hmerge hkey herr htime => ?_,
    fun hown hcold hn hferry => ?_⟩
  · subst hh
    exact ⟨_, exec_bellReceived hup hstate, bellArrives_unverified hkey htag⟩
  · have hphase : phaseError (peerNoted s link) h link b = e := he.symm
    have hheard := bellHeard_eq_landedBell (s := peerNoted s link) (i := link) hn hcold hmerge hkey.symm (hphase ▸ herr) htime
    obtain ⟨-, hup, hstate, -⟩ := id hown
    refine ⟨_, exec_bellReceived (hh ▸ hup) (by rw [hstate]; decide), ?_⟩
    rw [bellArrives_landed hown hcold hn hwin hmatch hclaim, acceptBell_eq_bellHeard _ _ _ hlt fun _ => hphase ▸ herr, hheard,
      hphase]
    beta_reduce
    rw [corr_landedBell _ _ _ _ hlt]
    rfl
  · obtain ⟨-, hup, hstate, -⟩ := id hown
    refine ⟨_, exec_bellReceived (hh ▸ hup) (by rw [hstate]; decide), ?_⟩
    rw [bellArrives_listen hown hcold hn hferry]
    obtain ⟨hnode, hplan, hx, hok⟩ := takeBell_lands (peerNoted s link) link b hlt
    obtain ⟨_, -, hbb⟩ := takeBell_bb (peerNoted s link) link b hlt
    obtain ⟨hlanes, hstalls⟩ := takeBell_frame (peerNoted s link) link b hlt
    have hn3 : (getPlane (peerNoted s link) h).node ≠ 3 := fun h3 => absurd (hn.symm.trans h3) (by decide)
    refine ⟨recorded_takeBell _ _ _ hlt hn3, hnode, hplan, hx, hok, ?_, ?_, ?_, hlanes, hstalls⟩
    all_goals rw [hbb]
    · rfl
    · exact if_neg (by simp [hcold])
    · exact if_neg (by simp [hcold])

/-! ## COLD bells (R272, R273) -/

/-- The claim that a COLD bell carries is the best one heard. -/
def follows (s : State) (b : Bell) : State :=
  { s with bb.ferrySerial := b.crossing / 2 ^ 24, bb.ferryPriority := b.priority, bb.coldFlag := false }

/-- A claimer gives its claim up for a better one, with both hubs. -/
def claimEnded (s : State) (h : Nat) (b : Bell) : State :=
  let v := follows { s with bb.claiming := false } b
  if (getPlane v (1 - h)).node = 2 then setNode v (1 - h) 3 else v

section
variable {s : State} {h : Nat} (i : Nat) {b : Bell}

theorem coldBell_listen (hn : (getPlane s h).node = 1) (hferry : s.bb.isFerry = false) :
    coldBell s h i b = takeBell (follows s b) h i b := by
  unfold coldBell
  dsimp only
  rw [if_pos (by simp [hn, hferry])]
  rfl

theorem coldBell_better (hn : (getPlane s h).node = 2)
    (hbetter : betterClaim b.priority (b.crossing / 2 ^ 24) (gv s E.bbPriority) serial40 = true) :
    coldBell s h i b = takeBell (claimEnded s h b) h i b := by
  unfold coldBell
  dsimp only
  rw [if_neg (by simp [hn]), if_pos hn, if_pos hbetter]
  rfl

theorem coldBell_worse (hn : (getPlane s h).node = 2)
    (hworse : betterClaim b.priority (b.crossing / 2 ^ 24) (gv s E.bbPriority) serial40 = false) :
    coldBell s h i b = bump s E.bbBellsMissed := by
  unfold coldBell
  dsimp only
  rw [if_neg (by simp [hn]), if_pos hn, hworse]
  rfl

end

/-- The claim is ended, and the other hub of a claimer lands too. -/
theorem claimEnded_does (s : State) {h : Nat} (b : Bell) (hh : h < 2) : (claimEnded s h b).bb.claiming = false ∧
    ((getPlane s (1 - h)).node = 2 → (getPlane (claimEnded s h b) (1 - h)).node = 3) := by
  have hother : 1 - h < 2 := by omega
  unfold claimEnded
  dsimp only
  split
  · next hclaims =>
    refine ⟨by rw [setNode_bb]; rfl, fun _ => ?_⟩
    unfold getPlane
    rw [setNode_bb]
    exact congrArg Plane.node (vget_vupd_self _ (1 - h) (fun p : Plane => { p with node := 3 }) _ hother)
  · next hidle => exact ⟨rfl, fun hn => absurd hn hidle⟩

theorem takeBell_of_ne (s : State) {h j : Nat} (i : Nat) (b : Bell) (hh : h < 2) (hj : j ≠ h) :
    getPlane (takeBell s h i b) j = getPlane s j := by
  obtain ⟨_, -, hbb⟩ := takeBell_bb s i b hh
  unfold getPlane
  rw [hbb]
  exact vget_vupd_of_ne _ _ _ hj

theorem betterClaim_iff (p1 n1 p2 n2 : Nat) : betterClaim p1 n1 p2 n2 = true ↔ p2 < p1 ∨ p1 = p2 ∧ n1 < n2 := by
  simp [betterClaim]

theorem coldBellRule_holds : coldBellRule := by
  intro s link b h hown hcold
  obtain ⟨hh, hup, hstate, -⟩ := id hown
  have hlt : h < 2 := by omega
  have hexec := exec_coldBellReceived hcold (hh ▸ hup) (show (getLink s link).state ≠ 0 by rw [hstate]; decide)
  rw [bellArrives_cold hown hcold] at hexec
  refine ⟨fun hn hferry => ⟨_, hexec, ?_⟩, fun hn hclaim => ⟨_, hexec, ?_⟩, fun hn hclaim => ⟨_, hexec, ?_⟩⟩
  · rw [coldBell_listen link (s := peerNoted s link) hn hferry]
    obtain ⟨hnode, hplan, -⟩ := takeBell_lands (follows (peerNoted s link) b) link b hlt
    obtain ⟨_, -, hbb⟩ := takeBell_bb (follows (peerNoted s link) b) link b hlt
    have hn3 : (getPlane (follows (peerNoted s link) b) h).node ≠ 3 := fun h3 => absurd (hn.symm.trans h3) (by decide)
    refine ⟨recorded_takeBell _ _ _ hlt hn3, hnode, hplan, ?_⟩
    rw [hbb, hcold]
    exact ⟨rfl, rfl, rfl, rfl⟩
  · have hbetter : betterClaim b.priority (b.crossing / 2 ^ 24) (gv (peerNoted s link) E.bbPriority) serial40 = true :=
      (betterClaim_iff ..).mpr (hclaim.imp id fun h => ⟨h.1.symm, h.2⟩)
    rw [coldBell_better link (s := peerNoted s link) hn hbetter]
    obtain ⟨hnode, -⟩ := takeBell_lands (claimEnded (peerNoted s link) h b) link b hlt
    obtain ⟨_, -, hbb⟩ := takeBell_bb (claimEnded (peerNoted s link) h b) link b hlt
    obtain ⟨hended, hboth⟩ := claimEnded_does (peerNoted s link) b hlt
    refine ⟨by rw [hbb]; exact hended, hnode, fun ho => ?_⟩
    rw [takeBell_of_ne _ _ _ hlt (by omega)]
    exact hboth ho
  · have hworse : betterClaim b.priority (b.crossing / 2 ^ 24) (gv (peerNoted s link) E.bbPriority) serial40 = false := by
      rw [Bool.eq_false_iff, Ne, betterClaim_iff]
      have hprio : gv (peerNoted s link) E.bbPriority = gv s E.bbPriority := rfl
      rw [hprio, serial40]
      omega
    exact coldBell_worse link hn hworse

/-! ## Lost bells (07 R187) -/

theorem bellLossRule_holds : bellLossRule := by
  intro s plane hup hmissed htime hferry
  exact ⟨_, congrArg Host.Outcome.next (if_pos (by simp [hup, hmissed, htime, hferry])), rfl⟩

/-! ## The delay of a link (10 R265) -/

/-- A link once its probe number `c` has left at `at_`, in crossing `k`. -/
def probedLink (c at_ k : Nat) (l : BLink) : BLink :=
  { l with probeCount := c, probeSent := some (c, at_), probeAt := some k }

/-- A link once the echo of its probe has brought a valid sample `d`, in crossing `k`. -/
def sampledLink (d k : Nat) (l : BLink) : BLink :=
  { l with
    probeSent := none, samples := (d :: l.samples).take 16, noDelay := false, delayLost := false, lastSample := k }

/-- The first probe of a crossing. -/
theorem exec_probeSend {s : State} {link : Fin 4} {at_ : Int} (hsends : hubSends s (link / 2) = true)
    (hn : (getPlane s (link / 2)).node ≠ 0) (hstate : (getLink s link).state ≠ 0)
    (hfirst : (getLink s link).probeAt ≠ some s.cyc.k) :
    exec (.probeSend link at_) s = .next
      (send (updLink s link (probedLink (((getLink s link).probeCount + 1) % 65536) at_.toNat s.cyc.k))
        { kind := .probe, port := link, a := ((getLink s link).probeCount + 1) % 65536, b := at_.toNat }) :=
  congrArg Host.Outcome.next (if_pos (by simp [linkHub, hsends, hn, hstate, hfirst]))

/-- The echo of the probe sent last ends its wait, with a sample where that is valid. -/
theorem exec_echoReceived {s : State} {link : Fin 4} {n t0 : Nat} {at_ : Int} (hup : hubUp s (link / 2) = true)
    (hsent : (getLink s link).probeSent = some (n, t0)) (hstate : (getLink s link).state ≠ 0) :
    exec (.echoReceived link n at_) s = .next
      (let d := (at_ - (t0 : Int) - 96000) / 2
      if 0 ≤ d && d ≤ 640000 then updLink s link (sampledLink d.toNat s.cyc.k)
      else updLink s link (fun l => { l with probeSent := none })) := by
  have hexec : exec (.echoReceived link n at_) s = execEchoReceived link n at_ s := rfl
  unfold execEchoReceived at hexec
  dsimp only at hexec
  rw [hsent] at hexec
  dsimp only at hexec
  rw [if_neg (by simp [linkHub, hup, hstate]), updLink_updLink] at hexec
  exact hexec

theorem delayRule_holds : delayRule := by
  intro s link l hl hup
  subst hl
  have hhub : linkHub link < 2 := by unfold linkHub; omega
  refine ⟨fun at_ hsends hn hstate hfirst => ⟨_, exec_probeSend hsends hn hstate hfirst, ?_⟩,
    fun n at_ hsends hn hstate => ⟨_, congrArg Host.Outcome.next (if_pos (by simp [linkHub, hsends, hn, hstate])), rfl⟩,
    fun n t0 at_ d hsent hstate hd => ⟨_, exec_echoReceived hup hsent hstate, ?_⟩,
    fun hstate hlast hlost =>
      ⟨_, congrArg Host.Outcome.next (if_pos (by simp [linkHub, hup, hstate, hlast, hlost])), ?_⟩⟩
  · rw [updLink_congr (f := probedLink _ _ _) (g := fun l => probedLink ((l.probeCount + 1) % 65536) at_.toNat s.cyc.k l) rfl]
    rfl
  · dsimp only
    rw [← hd]
    by_cases hvalid : 0 ≤ d ∧ d ≤ 640000
    · rw [if_pos (by simpa using hvalid)]
      refine updLink_congr ?_
      rw [if_pos hvalid]
      rfl
    · rw [if_neg (by simpa using hvalid)]
      refine updLink_congr ?_
      rw [if_neg hvalid]
  · exact ⟨recorded_emitH _ _ _ _ _ _ _ hhub (by decide), bare_emitH ..⟩

end Sys2Proof.Machine

open Sys2Proof.Machine in
/-- Settles O32: a bell that verifies is taken by a listening hub, by a claimer that hears a better claim, and by a LANDED hub as a
phase error; each changes the planes and hubs of that hub, and the claimer's other hub. -/
theorem bellsAndDelays : Obligations.BellsAndDelays := ⟨bellRule_holds, coldBellRule_holds, bellLossRule_holds, delayRule_holds⟩

/-!
PROOFS. O20: the restart of the hub that serves the service port closes the session there, which ends a freeze of that session (17
R431): the other hub flushes its buffer. The clause on HUB_WATCHDOG is refuted by that.
-/

namespace Sys2Proof.Machine

open Sys2Proof.Claims Safe

/-! ## Changes that leave every buffer as it is -/

section
variable {s t : State}

theorem buffer_bare (s : State) (j : Nat) : (getHub (bare s) j).buffer = (getHub s j).buffer := by
  unfold getHub bare vget
  by_cases hj : j < 2 <;> simp [hj]

theorem buffer_of_noted (hn : noted s t) (j : Nat) : (getHub t j).buffer = (getHub s j).buffer := by
  rw [← buffer_bare, show bare t = bare s from hn, buffer_bare]

theorem buffer_of_hubs (hh : t.hubs = s.hubs) (j : Nat) : (getHub t j).buffer = (getHub s j).buffer := by
  unfold getHub
  rw [hh]

theorem freeze_of_noted (hn : noted s t) : t.recd.freeze = s.recd.freeze := by
  have h := congrArg (fun u => u.recd.freeze) (show bare t = bare s from hn)
  exact h

end

section
variable (s : State) (h j t : Nat)

theorem buffer_updHub_of_ne (f : HubDie → HubDie) (hj : j ≠ h) : (getHub (updHub s h f) j).buffer = (getHub s j).buffer :=
  congrArg HubDie.buffer (vget_vupd_of_ne _ _ _ hj)

theorem buffer_emitL (src code sev : Nat) (data : List Byte) (stall : Nat) :
    (getHub (emitL s src code sev data stall) j).buffer = (getHub s j).buffer :=
  buffer_of_noted (noted_emitL ..) j

/-! The lease and the sessions of the twin links record, and change no hub otherwise. -/

theorem buffer_refreshLease : (getHub (refreshLease s) j).buffer = (getHub s j).buffer := by
  unfold refreshLease
  dsimp only
  split
  · rfl
  · exact buffer_emitL ..

theorem buffer_linkSession (l : Nat) (up : Bool) : (getHub (linkSession s l up) j).buffer = (getHub s j).buffer := by
  unfold linkSession
  dsimp only
  rw [buffer_refreshLease]
  exact iteInduction (motive := fun u => (getHub u j).buffer = (getHub s j).buffer) (fun _ => rfl) fun _ => buffer_emitL ..

theorem buffer_setLease (new : Nat) : (getHub (setLease s new t) j).buffer = (getHub s j).buffer := by
  unfold setLease
  dsimp only
  split
  · rfl
  · rw [buffer_emitL]
    split
    · exact buffer_of_hubs (bump_hubs ..) j
    · rfl

theorem buffer_ceaseLease : (getHub (ceaseLease s t) j).buffer = (getHub s j).buffer := by
  unfold ceaseLease
  split
  · exact buffer_setLease ..
  · rfl

theorem twinSend_hubs (l : Nat) (kind : EgKind) (b c : Nat) (data : List Byte) : (twinSend s l t kind b c data).hubs = s.hubs := by
  unfold twinSend
  split <;> rfl

theorem buffer_releaseLease : (getHub (releaseLease s t) j).buffer = (getHub s j).buffer := by
  unfold releaseLease
  dsimp only
  rw [buffer_refreshLease, buffer_ceaseLease]
  refine buffer_of_hubs ?_ j
  rw [foldl_keeps State.hubs]
  · rfl
  · exact fun u l => foldl_keeps State.hubs _ (fun _ _ => twinSend_hubs ..) _ _

theorem buffer_lostState : (getHub (lostState s) j).buffer = (getHub s j).buffer := by
  unfold getHub lostState vget
  by_cases hj : j < 2 <;> simp [hj, safeHub]

theorem buffer_moduleLost (cause : Nat) : (getHub (moduleLost s cause) j).buffer = (getHub s j).buffer := by
  cases hlost : s.agree.lost with
  | true => rw [moduleLost, hlost, if_pos rfl]
  | false =>
    rw [moduleLost_eq cause hlost, buffer_lostState, buffer_releaseLease, buffer_emitL]

/-! ## Flushing (17 R424) -/

/-- A change of a hub's journal leaves the buffers alone. -/
theorem buffer_updJournal (f : Journal → Journal) : (getHub (updJournal s h f) j).buffer = (getHub s j).buffer := by
  unfold getHub updJournal updHub
  dsimp only
  rw [vget_vupd]
  split
  · next hj => rw [hj.1]
  · rfl

theorem buffer_journalPut (r : Record) : (getHub (journalPut s h r) j).buffer = (getHub s j).buffer := by
  have hbump : ∀ (u : State) e, (getHub (bump u e) j).buffer = (getHub u j).buffer := fun u e => buffer_of_hubs (bump_hubs ..) j
  unfold journalPut putSlot
  dsimp only
  split
  · rfl
  · generalize (if oneHub s h = true then _ else r) = q
    split
    · exact buffer_updJournal ..
    · split
      · exact hbump ..
      · rw [buffer_updJournal]
        split
        · rfl
        · exact hbump ..

/-- A flush takes out of the hub's buffer what it writes, and nothing out of another's. -/
theorem buffer_flushBuffer : (getHub (flushBuffer s h) j).buffer =
    (getHub (updHub s h fun d => { d with
      buffer := (getHub s h).buffer.filter fun r => !(s.recd.freeze.isNone || 3 ≤ r.sev) }) j).buffer :=
  foldl_keeps (fun u => (getHub u j).buffer) _ (fun u r => buffer_journalPut u h j r) _ _

/-- Outside a freeze the flush of HA's buffer, and of HB's after it, leaves HA's empty. -/
theorem buffer_flushAll (hfree : s.recd.freeze = none) (hup : hubUp s 0 = true) : (getHub (flushAll s) 0).buffer = [] := by
  have hHa : (getHub (flushBuffer s 0) 0).buffer = [] := by
    rw [buffer_flushBuffer, hfree]
    simp [getHub, updHub]
  unfold flushAll
  rw [List.foldl_cons, List.foldl_cons, List.foldl_nil, if_pos hup]
  split
  · rw [buffer_flushBuffer, buffer_updHub_of_ne _ _ _ _ (by decide), hHa]
  · exact hHa

end

/-! ## The end of a freeze (17 R431) -/

section
variable {s : State} {ctx began : Nat}

theorem buffer_endFreeze (t : Nat) (hfreeze : s.recd.freeze = some (ctx, began)) (hup : hubUp s 0 = true) :
    (getHub (endFreeze s t) 0).buffer = [] := by
  unfold endFreeze
  rw [hfreeze]
  exact buffer_flushAll _ (freeze_of_noted (noted_emitL ..)) ((hubUp_of_noted (noted_emitL ..) 0).trans hup)

theorem pauseTransfer_hubs (s : State) : (pauseTransfer s).hubs = s.hubs := by
  unfold pauseTransfer
  split <;> rfl

/-- The close of a context ends the freeze that it holds. -/
theorem buffer_endContext (hfreeze : s.recd.freeze = some (ctx, began)) (hup : hubUp s 0 = true) :
    (getHub (endContext s ctx) 0).buffer = [] := by
  obtain ⟨hrecd, hhubs⟩ : (closeEdit s ctx).recd = s.recd ∧ (closeEdit s ctx).hubs = s.hubs := by
    unfold closeEdit
    split <;> exact ⟨rfl, rfl⟩
  have hfreeze' : (closeEdit s ctx).recd.freeze = some (ctx, began) := by rw [hrecd, hfreeze]
  have hup' : hubUp (closeEdit s ctx) 0 = true := by
    rw [← hup]
    unfold hubUp getHub
    rw [hhubs]
  rw [← buffer_endFreeze (closeEdit s ctx).cyc.tk hfreeze' hup']
  refine buffer_of_hubs ?_ 0
  unfold endContext
  dsimp only
  rw [hfreeze']
  dsimp only
  rw [if_pos rfl]
  split
  · exact pauseTransfer_hubs ..
  · rfl

/-! ## HUB_WATCHDOG of the hub that serves the service port (20 R483, R496) -/

theorem buffer_closeService {e : Session} (hsession : nget? s.con.sessions svcSession = some e)
    (hfreeze : s.recd.freeze = some (0, began)) (hup : hubUp s 0 = true) : (getHub (closeService s) 0).buffer = [] := by
  unfold closeService
  dsimp only
  rw [hsession]
  dsimp only
  refine buffer_endContext (began := began) ?_ ?_
  · exact (freeze_of_noted (noted_emitL ..)).trans hfreeze
  · exact (hubUp_of_noted (noted_emitL ..) 0).trans hup

/-- The restart of HB, which serves the port, makes HA flush what it has buffered during a freeze of the session there. -/
theorem buffer_beginHub {e : Session} (cause t : Nat) (hdown : hubUp s 1 = true) (hserves : s.con.svcHub = 1)
    (hsession : nget? s.con.sessions svcSession = some e) (hfreeze : s.recd.freeze = some (0, began)) (hup : hubUp s 0 = true) :
    (getHub (beginHub s 1 cause t) 0).buffer = [] := by
  have hlose : ∀ (c : Bool) (u : State), (getHub (if c then moduleLost u 1 else u) 0).buffer = (getHub u 0).buffer := fun c u => by
    cases c
    · rfl
    · exact buffer_moduleLost ..
  have hhand : ∀ (c : Bool) (u : State), (if c then handOver u (1 - 1) else u).hubs = u.hubs := fun c _ => by cases c <;> rfl
  unfold beginHub
  rw [if_neg (by rw [hdown]; decide)]
  dsimp only
  rw [hlose, buffer_linkSession, buffer_linkSession, buffer_updHub_of_ne _ _ _ _ (by decide)]
  refine (buffer_of_hubs (hhand ..) 0).trans ?_
  rw [if_pos (by rw [bumps_con]; exact hserves)]
  refine buffer_closeService (e := e) (began := began) ?_ ?_ ?_
  · rw [bumps_con, hsession]
  · rw [bumps_recd, hfreeze]
  · rw [← hup]
    unfold hubUp getHub
    rw [bumps_hubs]

end

theorem exec_hubWatchdog_of_one {s : State} {hub : Fin 2} (i : Nat) (hother : (getHub s (1 - hub)).watchdogAt = none) :
    exec (.hubWatchdog hub i) s = .next (updHub (beginHub s hub 1 i) hub fun d => { d with watchdogAt := some i }) := by
  have hexec : exec (.hubWatchdog hub i) s = execHubWatchdog hub i s := rfl
  unfold execHubWatchdog at hexec
  dsimp only at hexec
  rw [hother] at hexec
  exact hexec

/-- A module in operation whose service port, served by HB, has an open session that holds a freeze: the record of the freeze's
begin waits in both buffers. -/
def heldFreeze : State :=
  { State.reset with
    st.phase := 10
    cyc.running := true
    con.svcHub := 1
    con.sessions := [(svcSession, { state := 2 })]
    recd.freeze := some (0, State.reset.cyc.tk)
    hubs := Vector.replicate 2 { buffer := [{ code := 0x5005, source := srcHub 0 }] } }

theorem buffer_of_hubDown {s t : State} {h cause i : Nat} (hdown : hubDown s t h cause i) :
    (getHub t (1 - h)).buffer = (getHub s (1 - h)).buffer := by
  obtain ⟨-, -, -, -, -, -, -, -, hother, -⟩ := hdown
  have hbuffer := congrArg HubDie.buffer hother
  exact hbuffer

theorem not_hubWatchdogRule : ¬ hubWatchdogRule := by
  intro h
  obtain ⟨hone, -⟩ := h heldFreeze 1 4 0 (by decide)
  obtain ⟨t, ht, hdown, -⟩ := (hone (by decide) (by decide)).1
  rw [exec_hubWatchdog_of_one 0 (by decide)] at ht
  injection ht with ht
  have hflushed : (getHub t 0).buffer = [] := by
    rw [← ht, buffer_updHub_of_ne _ _ _ _ (by decide)]
    exact buffer_beginHub 1 0 (by decide) rfl rfl rfl (by decide)
  have hkept : (getHub t 0).buffer = (getHub heldFreeze 0).buffer := buffer_of_hubDown hdown
  rw [hflushed] at hkept
  exact absurd hkept (by decide)

end Sys2Proof.Machine

open Sys2Proof.Machine in
/-- Refutes O20: its clause on HUB_WATCHDOG says that the surviving hub keeps all but the records on their way to it. Where the
hub that restarts serves the service port and the session there holds a freeze, the session's close (20 R496) ends the freeze, and
the surviving hub flushes its buffer (17 R431). -/
theorem not_hubRestarts : ¬ Obligations.HubRestarts := by
  rintro ⟨hwatchdog, -⟩
  exact not_hubWatchdogRule hwatchdog

/-!
PROOFS. O30: a link that goes DOWN is no edge that opens at the next boundary any more (10 R281, R283). The clause on LINK_DOWN is
refuted by that.
-/

namespace Sys2Proof.Machine

open Sys2Proof.Claims Safe

/-- Recording leaves the backbone as it is. -/
theorem bb_of_noted {u t : State} (hn : noted u t) : t.bb = u.bb := by
  have h : (bare t).bb = (bare u).bb := congrArg State.bb hn
  exact h

section
variable (s : State) {i : Nat}

theorem getLink_emitH (i h t src code sev : Nat) (data : List Byte) : getLink (emitH s h t src code sev data) i = getLink s i := by
  unfold getLink
  rw [emitH_bb]

theorem getLink_setNode (i h n : Nat) : getLink (setNode s h n) i = getLink s i := by
  unfold getLink
  rw [setNode_bb]

/-- A link that has gone DOWN is no edge that opens. -/
theorem opens_downLink (hi : i < 4) (hstate : (getLink s i).state ≠ 0) : (getLink (downLink s i) i).opens = false := by
  unfold downLink
  dsimp only
  rw [if_neg hstate]
  generalize hu : updLink (setLink s i 0) i _ = u
  have hclosed : (getLink u i).opens = false := by rw [← hu, getLink_updLink_self _ _ hi]
  generalize hv : ite (3 ≤ _) _ u = v
  have hnoted : (getLink v i).opens = false := by
    rw [← hv]
    split
    · rwa [getLink_emitH]
    · exact hclosed
  split
  · rw [getLink_setNode]
    exact hnoted
  · exact hnoted

end

/-- Links that are all UP, that of HA towards the fore end an edge of the keeping half that opens at the next boundary (10 R281). -/
def openingEdge : State :=
  { State.reset with
    bb.links := Vector.ofFn fun i : Fin 4 => if i = 0 then { state := 2, edge := true, opens := true } else { state := 2 } }

theorem not_linkStateRule : ¬ linkStateRule := by
  intro h
  obtain ⟨-, hdown⟩ := h openingEdge 0
  obtain ⟨t, ht, -, hnoted⟩ := hdown (by decide)
  dsimp only at hnoted
  rw [if_neg (by decide)] at hnoted
  have hclosed : (getLink t 0).opens = false := by
    rw [← Host.Outcome.next.inj ht]
    exact opens_downLink openingEdge (by decide) (by decide)
  have hopens := congrArg (fun bb => (vget bb.links 0 {}).opens) (bb_of_noted hnoted)
  have hkept : (getLink t 0).opens = true := hopens.trans (by decide)
  rw [hclosed] at hkept
  exact absurd hkept (by decide)

end Sys2Proof.Machine

open Sys2Proof.Machine in
/-- Refutes O30: its clause on LINK_DOWN names what the link loses, and says that the rest is as it was. A link that is an edge of the
keeping half, and opens at the next boundary (10 R281), also loses that mark: a link that is DOWN is no edge. -/
theorem not_backboneLinks : ¬ Obligations.BackboneLinks := by
  rintro ⟨-, hstate, -⟩
  exact not_linkStateRule hstate

/-!
PROOFS. O31: slots and frames (09 R246 to R251), the telegrams of the system (R254 to R256), and the loading of slot plans (R241, R245).
-/

namespace Sys2Proof.Machine

open Sys2Proof.Claims Safe

/-! ## What both links of a plane carry (R232) -/

/-- What link `i` carries of a message of plan unit `u` of the crossing that begins at `tk`. -/
def linkEgress (s : State) (plane : Nat) (kind : EgKind) (tk u a : Nat) (d : List Byte) (i : Nat) : List Egress :=
  if (getLink s i).state = 0 then [] else
    [{ kind := kind, port := i, a := a
       b := (passage s plane (leavesAft (getPlane s plane).reversed i) tk u).toNat, data := d }]

section
variable (s : State) (plane : Nat) (kind : EgKind) (tk u a : Nat) (d : List Byte)

theorem sendBoth_eq (hsends : hubSends s plane = true) : sendBoth s plane kind tk u a d =
    { s with egress := linkEgress s plane kind tk u a d (2 * plane + 1) ++ linkEgress s plane kind tk u a d (2 * plane) ++
        s.egress } := by
  have hone : ∀ (v : State) i, (if (getLink v i).state = 0 then v else
      send v { kind := kind, port := i, a := a
               b := (passage v plane (leavesAft (getPlane v plane).reversed i) tk u).toNat, data := d }) =
      { v with egress := linkEgress v plane kind tk u a d i ++ v.egress } := by
    intro v i
    unfold linkEgress
    split
    · rfl
    · rfl
  unfold sendBoth
  dsimp only
  rw [if_pos hsends, hone, hone, List.append_assoc]
  rfl

theorem sentBoth_of_sendBoth (hsends : hubSends s plane = true) :
    sentBoth s (sendBoth s plane kind tk u a d) plane kind tk u a d := by
  rw [sendBoth_eq _ _ _ _ _ _ _ hsends]
  rfl

end

/-! ## Changes of a plane that its traffic does not read -/

/-- A change of a plane that leaves a part of it leaves that part of every plane. -/
theorem getPlane_updPlane_view (s : State) (h j : Nat) {f : Plane → Plane} {β : Type} (view : Plane → β)
    (hf : ∀ p, view (f p) = view p) : view (getPlane (updPlane s h f) j) = view (getPlane s j) := by
  unfold getPlane updPlane
  dsimp only
  rw [vget_vupd]
  split
  · next hj => rw [hf, hj.1]
  · rfl

/-- The parts of a plane that its traffic reads: passage times, orientation, and the keys that its bells have named. -/
def trafficView (p : Plane) : Int × Int × Bool × Option Nat × Nat × Nat :=
  (p.wAft, p.wFore, p.reversed, p.keyPrev, p.keyCur, p.keyChanged)

section
variable (s : State) (h : Nat) {f : Plane → Plane} (hf : ∀ p, trafficView (f p) = trafficView p)
include hf

theorem traffic_updPlane (plane : Nat) :
    let p := getPlane (updPlane s h f) plane
    let q := getPlane s plane
    p.wAft = q.wAft ∧ p.wFore = q.wFore ∧ p.reversed = q.reversed ∧ p.keyPrev = q.keyPrev ∧ p.keyCur = q.keyCur ∧
      p.keyChanged = q.keyChanged := by
  simpa [trafficView] using getPlane_updPlane_view s h plane trafficView hf

theorem linkEgress_updPlane (plane : Nat) (kind : EgKind) (tk u a : Nat) (d : List Byte) (i : Nat) :
    linkEgress (updPlane s h f) plane kind tk u a d i = linkEgress s plane kind tk u a d i := by
  obtain ⟨haft, hfore, hrev, -⟩ := traffic_updPlane s h hf plane
  unfold linkEgress passage
  rw [haft, hfore, hrev]
  rfl

theorem frameOf_updPlane (plane x : Nat) (p : PlanEntry) (kind flags seq : Nat) (data : List Byte) :
    frameOf (updPlane s h f) plane x p kind flags seq data = frameOf s plane x p kind flags seq data := by
  obtain ⟨-, -, -, hprev, hcur, hchanged⟩ := traffic_updPlane s h hf plane
  have hkey : keyFor (updPlane s h f) plane x = keyFor s plane x := by
    unfold keyFor
    dsimp only
    rw [hprev, hcur, hchanged]
    rfl
  unfold frameOf
  rw [hkey]
  rfl

theorem keyAllowed_updPlane (plane key : Nat) : keyAllowed (updPlane s h f) plane key = keyAllowed s plane key := by
  obtain ⟨-, -, -, hprev, hcur, hchanged⟩ := traffic_updPlane s h hf plane
  unfold keyAllowed
  dsimp only
  rw [hprev, hcur, hchanged]
  rfl

end

/-! ## SLOT_TRANSMIT (R246, R248) -/

section
variable {s : State} {plane x tk src : Nat} {p : PlanEntry} {o : OutItem}

/-- A plane once a telegram of its own has left it. -/
def takenOut (src : Nat) (pl : Plane) : Plane := { pl with released := nerase pl.released src }

/-- A plane that has sent in a slot of train crossing `x`. -/
def sentMarked (x slot : Nat) (pl : Plane) : Plane := { pl with slotSeen := nset pl.slotSeen (slotKey x slot) 3 }

/-- A telegram that is released, or a hub that is not in output hold, leaves nothing to hold at the slot. -/
theorem holdAtSlot_idle (h : (getHub s plane).voter.outputHold = false ∨ nhas (getPlane s plane).released src = true) :
    holdAtSlot s plane tk p src = s := by
  unfold holdAtSlot
  refine if_neg ?_
  rcases h with h | h
  · simp [h]
  · simp [h]

/-- An empty slot of a stall's telegram. -/
theorem transmit_empty (hstall : p.stall ≠ 0xFFFF) (hnone : nget? (getPlane s plane).released (srcOfTrain s p.ident) = none)
    (hhold : (getHub s plane).voter.outputHold = false) : transmit s plane x tk p = s := by
  unfold transmit
  rw [if_neg hstall]
  dsimp only
  rw [holdAtSlot_idle (.inl hhold), hnone]

/-- A stall's telegram that is released, or held, leaves its plane. -/
theorem transmit_released (hstall : p.stall ≠ 0xFFFF) (ho : nget? (getPlane s plane).released (srcOfTrain s p.ident) = some o) :
    transmit s plane x tk p =
      let u := updPlane s plane (takenOut (srcOfTrain s p.ident))
      let flag := 64 * b2n (mirroredStall s p.stall)
      if o.stale then
        (if issuesTelegrams s p.stall then sendFrame u plane x tk p 1 (128 + flag) o.seq o.data .heldTelegram else u)
      else placeOwn (sendFrame u plane x tk p 1 flag o.seq o.data .telegram) plane tk p o.seq o.data := by
  unfold transmit
  rw [if_neg hstall]
  dsimp only
  rw [holdAtSlot_idle (.inr (by simp [nhas, ho])), ho]
  rfl

/-- A frame of a released telegram leaves on both links, and changes nothing else but its plane. -/
theorem sendFrame_takenOut (hsends : hubSends s plane = true) (kind flags seq : Nat) (data : List Byte) (eg : EgKind) :
    sendFrame (updPlane s plane (takenOut src)) plane x tk p kind flags seq data eg =
      { updPlane s plane (sentMarked x p.slot ∘ takenOut src) with
        egress := (sendBoth s plane eg tk p.offset p.slot (frameOf s plane x p kind flags seq data)).egress } := by
  have hview : ∀ pl, trafficView (takenOut src pl) = trafficView pl := fun _ => rfl
  have hsends' : hubSends (updPlane s plane (takenOut src)) plane = true := hsends
  unfold sendFrame
  dsimp only
  rw [frameOf_updPlane s plane hview, sendBoth_eq _ _ _ _ _ _ _ hsends', linkEgress_updPlane s plane hview,
    linkEgress_updPlane s plane hview, sendBoth_eq _ _ _ _ _ _ _ hsends, ← updPlane_updPlane]
  rfl

/-- What a plane takes of its own telegram joins its hub's image alone. -/
theorem placeOwn_only (s : State) (plane tk : Nat) (p : PlanEntry) (seq : Nat) (data : List Byte) :
    ∃ items, placeOwn s plane tk p seq data = { s with cyc.hubOpen := items } := by
  unfold placeOwn
  dsimp only
  split
  · exact ⟨_, rfl⟩
  · exact ⟨_, rfl⟩

theorem placeOwn_unmapped (seq : Nat) (data : List Byte) (hmap : mapsTelegram s (srcOfTrain s p.ident) = false)
    (hdatum : p.ident / 64 ≠ 4065) : placeOwn s plane tk p seq data = s := if_neg (by simp [hmap, hdatum])

end

/-- An owned slot of a hub that may send, one of whose occurrences passes now. -/
theorem exec_slotTransmit {s : State} {plane : Fin 2} {slot i x tk : Nat} {p : PlanEntry}
    (hp : s.bb.inForce.entries.find? (fun p => p.slot = slot) = some p) (hsends : hubSends s plane = true)
    (hn : (getPlane s plane).node = 4 ∨ (getPlane s plane).node = 5) (hown : p.node = s.bb.address)
    (hocc : occurrence s plane p i = some (x, tk)) :
    exec (.slotTransmit plane slot i) s = .next (if s.agree.lost then s else transmit s plane x tk p) := by
  have hexec : exec (.slotTransmit plane slot i) s = execSlotTransmit plane slot i s := rfl
  unfold execSlotTransmit at hexec
  dsimp only at hexec
  rw [hp] at hexec
  dsimp only at hexec
  rw [hocc] at hexec
  rw [hexec]
  cases hlost : s.agree.lost with
  | true => simp
  | false => simp [hsends, hn, hown]

theorem slotTransmitRule_holds : slotTransmitRule := by
  intro s plane slot i x tk src p hsrc hp hsends hn hown hocc hstall
  subst hsrc
  have hexec := exec_slotTransmit hp hsends hn hown hocc
  refine ⟨fun o hlost ho hfresh => ⟨_, hexec, ?_⟩, fun o hlost ho hstale => ⟨_, hexec, ?_⟩,
    fun hlost hnone hhold => ⟨_, hexec, ?_⟩, fun hlost => ⟨_, hexec, if_pos hlost⟩⟩
  · rw [if_neg (by simp [hlost]), transmit_released hstall ho]
    dsimp only
    rw [if_neg (by simp [hfresh]), sendFrame_takenOut hsends]
    refine ⟨?_, ?_, fun hmap hdatum => ?_⟩
    · obtain ⟨items, hplace⟩ := placeOwn_only _ plane tk p o.seq o.data
      rw [hplace]
      exact sentBoth_of_sendBoth _ _ _ _ _ _ _ hsends
    · obtain ⟨items, hplace⟩ := placeOwn_only _ plane tk p o.seq o.data
      rw [hplace]
      rfl
    · refine (congrArg (fun u : State => u.cyc.hubOpen) (placeOwn_unmapped _ _ ?_ hdatum)).trans rfl
      exact hmap
  · rw [if_neg (by simp [hlost]), transmit_released hstall ho]
    dsimp only
    rw [if_pos hstale]
    split
    · rw [sendFrame_takenOut hsends]
      exact ⟨rfl, sentBoth_of_sendBoth _ _ _ _ _ _ _ hsends, rfl⟩
    · exact ⟨rfl, rfl⟩
  · rw [if_neg (by simp [hlost]), transmit_empty hstall hnone hhold]

/-! ## BACKBONE_FRAME_RECEIVED (R249 to R251) -/

/-- A plane in which slot `slot` of train crossing `x` has had its outcome from a start block. -/
def frameMarked (x slot : Nat) (pl : Plane) : Plane := { pl with slotSeen := nset pl.slotSeen (slotKey x slot) 1 }

section
variable {s : State} {h i x : Nat} {f : BbFrame} {p : PlanEntry}

/-- The marks of a slot bear on nothing that judges a frame. -/
theorem receiveFrame_eq : receiveFrame s h i f p x =
    let u := updPlane s h (frameMarked x p.slot)
    if !(frameRight s f p x) then missFrame u h p
    else if bbKeyOf s f.key = none && keyAllowed s h f.key then missFrame (noKey u h f.key) h p
    else if !f.tagOk || !(keyAllowed s h f.key) then
      emitH (missFrame (bumpi u E.linkTagFail i) h p) h f.t (srcHub h) 0x3002 2
        (u8 i ++ u16 p.slot ++ u16 f.node ++ u8 f.key ++ u64 s.cyc.k)
    else if telegramRight f p then acceptFrame u h i f p
    else missFrame u h p := by
  have hallowed : keyAllowed (updPlane s h (frameMarked x p.slot)) h f.key = keyAllowed s h f.key :=
    keyAllowed_updPlane s h (f := frameMarked x p.slot) (fun _ => rfl) h f.key
  dsimp only
  rw [← hallowed]
  rfl

theorem receiveFrame_wrong (hright : frameRight s f p x = false) :
    receiveFrame s h i f p x = missFrame (updPlane s h (frameMarked x p.slot)) h p := by
  rw [receiveFrame_eq, hright]
  rfl

/-- A right frame under a key that the module holds, whose tag does not verify. -/
theorem receiveFrame_untagged (hright : frameRight s f p x = true) (hkey : (bbKeyOf s f.key).isSome = true)
    (htag : f.tagOk = false) : receiveFrame s h i f p x =
      emitH (missFrame (bumpi (updPlane s h (frameMarked x p.slot)) E.linkTagFail i) h p) h f.t (srcHub h) 0x3002 2
        (u8 i ++ u16 p.slot ++ u16 f.node ++ u8 f.key ++ u64 s.cyc.k) := by
  rw [receiveFrame_eq]
  dsimp only
  rw [if_neg (by simp [hright]), if_neg (by simp [Option.isSome_iff_ne_none.mp hkey]), if_pos (by simp [htag])]

theorem receiveFrame_accepted (hright : frameRight s f p x = true) (hkey : (bbKeyOf s f.key).isSome = true)
    (htag : f.tagOk = true) (hallowed : keyAllowed s h f.key = true) (htel : telegramRight f p = true) :
    receiveFrame s h i f p x = acceptFrame (updPlane s h (frameMarked x p.slot)) h i f p := by
  rw [receiveFrame_eq]
  dsimp only
  rw [if_neg (by simp [hright]), if_neg (by simp [Option.isSome_iff_ne_none.mp hkey]), if_neg (by simp [htag, hallowed]),
    if_pos htel]

/-- The item that a frame brings. -/
def frameItem (s : State) (f : BbFrame) (p : PlanEntry) : Item :=
  { kind := 1, source := srcOfTrain s p.ident, seq := f.seq, stamp := f.t, forced := f.force, data := f.data }

/-- An image once it has taken a frame, where that addresses the module (R251). -/
def frameItems (s : State) (f : BbFrame) (p : PlanEntry) (l : List Item) : List Item :=
  if p.dest = 0 ∨ p.dest = s.bb.address / 4 then l ++ [frameItem s f p] else l

/-- A frame of the peer of an UP link, without the twin's lease, counts and joins the image. -/
theorem acceptFrame_eq (hi : i < 4) (hup : (getLink s i).state = 2) (hn : (getPlane s h).node = 4 ∨ (getPlane s h).node = 5)
    (htwin : f.twin = false) : acceptFrame s h i f p =
      { peerNoted (bumps s E.slotRx (h + 1) p.slot 1) i with
        bb.lastHeard := nset s.bb.lastHeard p.node f.t
        cyc.hubOpen := vupd s.cyc.hubOpen h (frameItems s f p) } := by
  have hup' : (getLink (bumps s E.slotRx (h + 1) p.slot 1) i).state = 2 := hup
  have hjoin : acceptFrame s h i f p =
      let u := { peerNoted (bumps s E.slotRx (h + 1) p.slot 1) i with bb.lastHeard := nset s.bb.lastHeard p.node f.t }
      if (p.dest = 0 || p.dest = s.bb.address / 4) && ((getPlane s h).node = 4 || (getPlane s h).node = 5) then
        { u with cyc.hubOpen := vupd s.cyc.hubOpen h (· ++ [frameItem s f p]) }
      else u := by
    unfold acceptFrame
    dsimp only
    rw [peerHeard_of_up hi hup', htwin]
    rfl
  rw [hjoin]
  dsimp only
  by_cases hdest : p.dest = 0 ∨ p.dest = s.bb.address / 4
  · have hitems : frameItems s f p = fun l => l ++ [frameItem s f p] := funext fun _ => if_pos hdest
    rw [if_pos (by simp [hdest, hn]), hitems]
  · have hitems : frameItems s f p = id := funext fun _ => if_neg hdest
    rw [if_neg (by simp [hdest]), hitems, vupd_eq_self s.cyc.hubOpen h (f := id) [] rfl]
    rfl

end

theorem frameRule_holds : frameRule := by
  intro s link f h hh hup hstate hedge hn
  subst hh
  have hexec : exec (.backboneFrameReceived link f) s = execBackboneFrameReceived link f s := rfl
  unfold execBackboneFrameReceived linkHub at hexec
  dsimp only at hexec
  rw [if_pos (by simp [hup, hstate, hedge, hn])] at hexec
  have hhub : link.val / 2 < 2 := by omega
  refine ⟨fun hnone => ⟨_, hexec, by rw [hnone]⟩, fun p x hwin => ?_⟩
  rw [hwin] at hexec
  dsimp only at hexec
  refine ⟨fun hseen => ⟨_, hexec, if_pos hseen⟩, fun hnew => ?_⟩
  rw [if_neg (by simp [hnew])] at hexec
  refine ⟨fun hwrong => ⟨_, hexec, receiveFrame_wrong hwrong⟩, fun hright hkey htag => ⟨_, hexec, ?_⟩,
    fun hright hkey htag hallowed htel htwin => ⟨_, hexec, ?_⟩⟩
  · rw [receiveFrame_untagged hright hkey htag]
    exact ⟨recorded_emitH _ _ _ _ _ _ _ hhub (by decide), bare_emitH ..⟩
  · rw [receiveFrame_accepted hright hkey htag hallowed htel]
    refine acceptFrame_eq link.isLt hstate ?_ htwin
    have hkeep := getPlane_updPlane_view s (link / 2) (link / 2) (f := frameMarked x p.slot) Plane.node fun _ => rfl
    rwa [hkeep]

/-! ## Telegrams of the system (R254 to R256) -/

theorem systemTelegramRule_holds : systemTelegramRule := fun _ _ _ _ =>
  ⟨⟨_, rfl, rfl⟩, fun hlast hinstant hdue => ⟨_, congrArg Host.Outcome.next (if_neg (by simp [hlast, hinstant, hdue])), rfl⟩,
    ⟨_, rfl, rfl⟩⟩

/-! ## Plans, keys and announcements (R241, R245, R255, 10 R276) -/

section
variable {s : State} {w : WReq}

/-- A valid plan is loaded as a companion where there is room for it, or it replaces one of its number. -/
theorem hCompanionLoad_conds (hplan : planConds s w = []) (hroom : s.bb.companions.length < 8 ∨
    s.bb.companions.any (fun q => q.number = (parsePlan (pkgPayload s w.v) w.v).number) = true) : hCompanionLoad.conds s w = [] := by
  unfold hCompanionLoad
  dsimp only
  rw [hplan, List.nil_append]
  refine if_neg ?_
  rcases hroom with hroom | hroom
  · simp [Nat.not_le_of_lt hroom]
  · simp [hroom]

theorem hCompanionRemove_conds (hheld : s.bb.companions.any (fun q => q.number = w.v) = true) : hCompanionRemove.conds s w = [] :=
  if_neg (by simp [hheld])

theorem hDatumAnnounce_conds
    (hslot : s.bb.inForce.entries.any (fun p => p.ident / 64 = 4065 && p.node = s.bb.address) = true) :
    hDatumAnnounce.conds s w = [] := if_neg (by simp [hslot])

end

theorem planRule_holds : planRule := by
  intro s ctx v p hp
  subst hp
  refine ⟨fun ha hc => ⟨_, congrArg Host.Outcome.next (writeCmd_volatile (h := hBbPlanLoad) (fun _ => rfl) rfl rfl ha hc), ?_⟩,
    fun ha hc hroom => ⟨_, congrArg Host.Outcome.next (writeCmd_volatile (h := hCompanionLoad) (fun _ => rfl) rfl rfl ha ?_), rfl⟩,
    fun ha hheld => ⟨_, congrArg Host.Outcome.next (writeCmd_volatile (h := hCompanionRemove) (fun _ => rfl) rfl rfl ha ?_), rfl⟩,
    fun ha => ⟨_, congrArg Host.Outcome.next (writeCmd_store (h := hBbKeyActive) rfl (fun _ => rfl) rfl ha rfl), rfl⟩,
    fun ha hslot => ⟨_, congrArg Host.Outcome.next (writeCmd_pairScope (h := hDatumAnnounce) (fun _ => rfl) rfl rfl ha ?_), rfl⟩⟩
  · exact ⟨recorded_emitL _ _ _ _ _ _ (by decide), noted_emitL ..⟩
  · exact hCompanionLoad_conds hc hroom
  · exact hCompanionRemove_conds hheld
  · exact hDatumAnnounce_conds hslot

end Sys2Proof.Machine

open Sys2Proof.Machine in
/-- Settles O31: a slot carries what its plane has released, a frame is judged in the window of its slot, and the system telegrams, plans
and announcements each set what they name. -/
theorem backboneTelegrams : Obligations.BackboneTelegrams :=
  ⟨slotTransmitRule_holds, frameRule_holds, systemTelegramRule_holds, planRule_holds⟩

/-!
PROOFS. O33: rosters (10 R269, R275), chains (R266 to R268), the edges they find (R279), and the yield of a joining half (R281).
-/

namespace Sys2Proof.Machine

open Sys2Proof.Claims Safe

/-! ## Rosters (R269, R275) -/

section
variable {s : State} {h : Nat}

theorem hubUp_of_hubSends (hsends : hubSends s h = true) : hubUp s h = true :=
  (Bool.and_eq_true_iff.mp hsends).1

/-- A plane that has sent the roster in crossing `k`. -/
def rosterSent (k : Nat) (p : Plane) : Plane := { p with rosterAt := some k }

/-- What both links carry does not depend on a change that the plane's traffic does not read. -/
theorem sendBoth_updPlane {f : Plane → Plane} (hf : ∀ p, trafficView (f p) = trafficView p) {plane : Nat}
    (hsends : hubSends s plane = true) (kind : EgKind) (tk u a : Nat) (d : List Byte) :
    sendBoth (updPlane s h f) plane kind tk u a d =
      { updPlane s h f with egress := (sendBoth s plane kind tk u a d).egress } := by
  have hsends' : hubSends (updPlane s h f) plane = true := hsends
  rw [sendBoth_eq _ _ _ _ _ _ _ hsends', linkEgress_updPlane s h hf, linkEgress_updPlane s h hf, sendBoth_eq _ _ _ _ _ _ _ hsends]
  rfl

end

theorem rosterRule_holds : rosterRule := by
  refine ⟨fun s plane hsends hferry hn => ?_, fun s link r hup hstate hedge hn htag => ?_⟩
  · refine ⟨_, congrArg Host.Outcome.next (if_pos (by simp [hubUp_of_hubSends hsends, hferry, hn])), ?_⟩
    have hsent := sendBoth_updPlane (h := plane) (f := rosterSent s.cyc.k) (fun _ => rfl) hsends
    unfold rosterSent at hsent
    rw [hsent]
    exact ⟨rfl, _, sentBoth_of_sendBoth _ _ _ _ _ _ _ hsends, List.isPrefixOf_iff_prefix.mpr (List.prefix_append ..)⟩
  · refine ⟨_, congrArg Host.Outcome.next (if_neg ?_), ?_⟩
    · rcases hn with hn | hn | hn
      all_goals simp [linkHub, hup, hstate, hedge, hn, htag]
    dsimp only
    by_cases hknown : s.bb.roster = { r.roster with shiftAft := 0, shiftFore := 0 } ∨ s.bb.isFerry = true
    · rw [if_pos hknown]
      exact if_pos (Bool.or_eq_true_iff.mpr (hknown.imp_left decide_eq_true))
    · rw [if_neg hknown]
      exact if_neg fun h => hknown ((Bool.or_eq_true_iff.mp h).imp_left of_decide_eq_true)

/-! ## What a link carries of a chain (R266) -/

/-- A chain with its tag, as link `i` carries it. -/
def taggedChain (s : State) (i : Nat) (kind : EgKind) (aft : Bool) (hops : Nat) (body : List Byte) : List Byte :=
  let h := linkHub i
  let x := trainX s s.cyc.tk
  body ++ bbTag s (keyFor s h x) (bbIv (0xFF00 + hops) h 2 ((if kind = .outwardChain then 1 else 3) + b2n (!aft)) x) body

/-- A chain on link `i` at the passage time of its cell. -/
def chainMessage (s : State) (i : Nat) (kind : EgKind) (aft : Bool) (hops : Nat) (body : List Byte) : Egress :=
  { kind := kind, port := i, data := taggedChain s i kind aft hops body
    b := (passage s (linkHub i) aft s.cyc.tk (serviceUnit s (if kind = .outwardChain then 192 else 320))).toNat }

/-- What link `i` carries of a chain: nothing where the link does not work or its delay is not known. -/
def chainEgress (s : State) (i : Nat) (kind : EgKind) (aft : Bool) (hops : Nat) (body : List Byte) : List Egress :=
  if (getLink s i).state = 0 ∨ (getLink s i).noDelay = true then [] else [chainMessage s i kind aft hops body]

theorem linkHub_otherLink (i : Nat) : linkHub (otherLink i) = linkHub i := by
  unfold linkHub otherLink
  omega

/-- A chain that is passed on to the other link of its plane. -/
theorem chainMessage_otherLink (s : State) (i : Nat) (kind : EgKind) (aft : Bool) (hops : Nat) (body : List Byte) :
    chainMessage s (otherLink i) kind aft hops body =
      { kind := kind, port := otherLink i, data := taggedChain s (otherLink i) kind aft hops body
        b := (passage s (linkHub i) aft s.cyc.tk (serviceUnit s (if kind = .outwardChain then 192 else 320))).toNat } := by
  unfold chainMessage
  rw [linkHub_otherLink]

section
variable {s : State} {i : Nat} {kind : EgKind} {aft : Bool} {hops : Nat} {body : List Byte}

theorem sendChain_eq (hsends : hubSends s (linkHub i) = true) :
    sendChain s i kind aft hops body = { s with egress := chainEgress s i kind aft hops body ++ s.egress } := by
  unfold sendChain chainEgress
  by_cases hidle : (getLink s i).state = 0 ∨ (getLink s i).noDelay = true
  · rw [if_pos (by simp [hidle]), if_pos hidle]
    rfl
  · rw [if_neg (by simp [hidle, hsends]), if_neg hidle]
    rfl

/-- A chain changes nothing but what leaves the module. -/
theorem sendChain_only : sendChain s i kind aft hops body = { s with egress := (sendChain s i kind aft hops body).egress } := by
  unfold sendChain
  split
  · rfl
  · rfl

theorem sendChain_silent (h : (getLink s i).state = 0 ∨ (getLink s i).noDelay = true ∨ hubSends s (linkHub i) = false) :
    sendChain s i kind aft hops body = s := if_pos (by simpa [or_assoc] using h)

theorem sendChain_working (hstate : (getLink s i).state ≠ 0) (hdelay : (getLink s i).noDelay = false)
    (hsends : hubSends s (linkHub i) = true) :
    sendChain s i kind aft hops body = { s with egress := chainMessage s i kind aft hops body :: s.egress } := by
  rw [sendChain_eq hsends, chainEgress, if_neg (by simp [hstate, hdelay])]
  rfl

end

/-! ## CHAIN_ORIGINATE of the ferryman (R266) -/

@[simp] theorem length_beBytes (n x : Nat) : (beBytes n x).length = n := by simp [beBytes]

section
variable (aft : Bool) (edge : Option Foreign) (merge cold : Bool) (records hops sender : Nat) (wAft wFore : Int)

theorem length_chainBytes : (chainBytes aft edge merge cold records hops sender wAft wFore).length = 32 := by
  simp [chainBytes]

/-- The hop count stands at byte 4 of a chain. -/
theorem chainBytes_hops (tag : List Byte) :
    ((chainBytes aft edge merge cold records hops sender wAft wFore ++ tag).drop 4).take 2 = beBytes 2 hops := by
  simp [chainBytes, List.drop_append, List.drop_eq_nil_of_le]

end

/-- The body of the chain that the ferryman, or a claimer, originates on link `i` of a plane. -/
def ownChain (p : Plane) (s : State) (i : Nat) : List Byte :=
  let w : Int × Int := if s.bb.claiming && !s.bb.running then (0, 0) else (p.wAft, p.wFore)
  chainBytes (leavesAft p.reversed i) (some (ownClaim s)) s.bb.mergeFlag s.bb.coldFlag 0 0 s.bb.address w.1 w.2

/-- The ferryman's, or a claimer's, own chain leaves by link `i`. -/
def originateOn (p : Plane) (s : State) (i : Nat) : State :=
  sendChain s i .outwardChain (leavesAft p.reversed i) 0 (ownChain p s i)

theorem originateOutward_eq (s : State) (h : Nat) : originateOutward s h =
    originateOn (getPlane s h) (originateOn (getPlane s h) s (2 * h)) (2 * h + 1) := rfl

/-- The ferryman's, or a claimer's, own chain with its tag. -/
def ownTagged (p : Plane) (s : State) (i : Nat) : List Byte :=
  taggedChain s i .outwardChain (leavesAft p.reversed i) 0 (ownChain p s i)

theorem length_ownTagged (p : Plane) (s : State) (i : Nat) : (ownTagged p s i).length = 48 := by
  simp [ownTagged, taggedChain, ownChain, length_chainBytes, bbTag]

theorem ownTagged_hops (p : Plane) (s : State) (i : Nat) : ((ownTagged p s i).drop 4).take 2 = [0, 0] := chainBytes_hops ..

/-- What link `i` carries of the ferryman's, or a claimer's, own chain. -/
def ownEgress (p : Plane) (s : State) (i : Nat) : List Egress :=
  chainEgress s i .outwardChain (leavesAft p.reversed i) 0 (ownChain p s i)

theorem originateOn_eq {s : State} {i : Nat} (p : Plane) (hsends : hubSends s (linkHub i) = true) (g : List Egress) :
    originateOn p { s with egress := g } i = { s with egress := ownEgress p s i ++ g } :=
  sendChain_eq (s := { s with egress := g }) hsends

/-- The ferryman's chain on each link of a plane. -/
theorem exec_chainOriginate {s : State} {plane : Fin 2} (hsends : hubSends s plane = true) (hn : (getPlane s plane).node = 5) :
    exec (.chainOriginate plane) s = .next { s with
      egress := ownEgress (getPlane s plane) s (2 * plane + 1) ++ (ownEgress (getPlane s plane) s (2 * plane) ++ s.egress) } := by
  have heven : linkHub (2 * plane) = plane := by unfold linkHub; omega
  have hodd : linkHub (2 * plane + 1) = plane := by unfold linkHub; omega
  have hboth : originateOutward s plane = { s with
      egress := ownEgress (getPlane s plane) s (2 * plane + 1) ++ (ownEgress (getPlane s plane) s (2 * plane) ++ s.egress) } := by
    rw [originateOutward_eq, originateOn_eq (i := 2 * plane) _ (heven.symm ▸ hsends) s.egress,
      originateOn_eq _ (hodd.symm ▸ hsends)]
  refine congrArg Host.Outcome.next ((if_neg (by simp [hubUp_of_hubSends hsends, hn])).trans ?_)
  exact (if_pos (by simp [hn])).trans hboth

theorem chainOriginateRule_holds : chainOriginateRule := by
  intro s plane hsends hn
  refine ⟨_, exec_chainOriginate hsends hn, rfl, ownTagged (getPlane s plane) s (2 * plane),
    ownTagged (getPlane s plane) s (2 * plane + 1), length_ownTagged .., length_ownTagged .., ownTagged_hops .., ownTagged_hops ..,
    ?_⟩
  have heven : linkHub (2 * plane) = plane := by unfold linkHub; omega
  have hodd : linkHub (2 * plane + 1) = plane := by unfold linkHub; omega
  dsimp only
  rw [List.append_assoc]
  unfold ownEgress chainEgress chainMessage
  rw [heven, hodd]
  rfl

/-! ## Chains that arrive (R266 to R268) -/

/-- A plane that has taken an outward chain over link `i`, `step` behind its sender, in crossing `k`. -/
def chainedPlane (i : Nat) (ch : OutChain) (step : Int) (k : Nat) (p : Plane) : Plane :=
  { p with
    wAft := if ch.aft then ch.wAft + step else ch.wAft - step
    wFore := if ch.aft then ch.wFore - step else ch.wFore + step
    facing := i % 2, chainOk := true, hops := ch.hops + 1, reversed := (i % 2 = 0) != ch.aft
    chainAt := if p.chainAt.isSome then p.chainAt else some k }

/-- A hub that has taken an outward chain knows its ferryman. -/
def chainTaken (s : State) (h i : Nat) (ch : OutChain) (step : Int) : State :=
  { updPlane s h (chainedPlane i ch step s.cyc.k) with bb.ferrySerial := ch.serial }

theorem offsetsAfter_eq (aft : Bool) (wa wf : Int) (d : Nat) : offsetsAfter aft wa wf d =
    (if aft then wa + (d + 600000) else wa - (d + 600000), if aft then wf - (d + 600000) else wf + (d + 600000)) := by
  cases aft
  · rfl
  · rfl

/-- A hub takes its offsets from a chain, and passes the chain on. -/
theorem takeChain_eq (s : State) (h i : Nat) (ch : OutChain) {step : Int}
    (hstep : step = (linkDelayPs (getLink s i) : Int) + 600000) :
    ∃ body, takeChain s h i ch =
      sendChain (chainTaken s h i ch step) (otherLink i) .outwardChain ch.aft (ch.hops + 1) body := by
  subst hstep
  unfold takeChain
  rw [offsetsAfter_eq]
  exact ⟨_, rfl⟩

/-- The body of an inward chain that has passed a landed hub, which has appended its own unit (R268). -/
def passedChain (s : State) (ch : InChain) : List Byte :=
  let units := appendUnit s ch.aft ch.units
  chainBytes ch.aft ch.edge ch.merge ch.cold units.length (ch.hops + 1) s.bb.address ch.wAft ch.wFore ++
    (rosterBytes { units := units.map (fun u => { u with admitted := false, refusal := 0 }) }).drop 32

section
variable {s : State} {link : Fin 4} (hup : hubUp s (link / 2) = true) (hstate : (getLink s link).state ≠ 0)
  (hedge : (getLink s link).edge = false) (hdelay : (getLink s link).noDelay = false)
include hup hstate hedge hdelay

theorem exec_outwardChain {ch : OutChain} (hn : (getPlane s (link / 2)).node = 4) (hclaim : s.bb.claiming = false)
    (htag : ch.tagOk = true) (hnow : chainNow s (link / 2) ch.crossing = true) :
    exec (.outwardChain link ch) s = .next (takeChain s (link / 2) link ch) := by
  refine congrArg Host.Outcome.next ((if_neg (by simp [linkHub, hup, hn, hstate, htag])).trans ?_)
  rw [if_neg (by simp [hedge])]
  exact if_neg (by simp [linkHub, hn, hclaim, hdelay, hnow])

theorem exec_inwardChain_ferry {ch : InChain} (hn : (getPlane s (link / 2)).node = 5) (htag : ch.tagOk = true) :
    exec (.inwardChain link ch) s = .next (collect s (link / 2) ch) := by
  refine congrArg Host.Outcome.next ((if_neg (by simp [linkHub, hup, hn, hstate, hedge, htag, hdelay])).trans ?_)
  exact if_pos (by simp [linkHub, hn])

/-- A landed hub passes an inward chain on, but over no edge. -/
theorem exec_inwardChain_landed {ch : InChain} (hn : (getPlane s (link / 2)).node = 4) (hclaim : s.bb.claiming = false)
    (htag : ch.tagOk = true) : exec (.inwardChain link ch) s = .next
      (if (getLink s (otherLink link)).edge then s
      else sendChain s (otherLink link) .inwardChain ch.aft (ch.hops + 1) (passedChain s ch)) := by
  refine congrArg Host.Outcome.next ((if_neg (by simp [linkHub, hup, hn, hstate, hedge, htag, hdelay])).trans ?_)
  refine (if_neg (by simp [linkHub, hn, hclaim])).trans (if_congr Iff.rfl rfl ?_)
  dsimp only
  rw [if_pos (by simp [linkHub, hn])]
  rfl

end

/-- A plane of the ferryman that has collected an inward chain. -/
def collectedPlane (ch : InChain) (p : Plane) : Plane :=
  if ch.aft then { p with foreUnits := ch.units, endAft := ch.wAft } else { p with aftUnits := ch.units, endFore := ch.wFore }

/-- An inward chain from the end of the train, all of whose units are in the roster, is noted alone. -/
theorem collect_known {s : State} {h : Nat} {ch : InChain} (hend : ch.edge = none)
    (hknown : ∀ u ∈ ch.units, s.bb.roster.units.any (fun r => r.id = u.id) = true) :
    collect s h ch = { updPlane s h (collectedPlane ch) with bb.unitsFound := s.bb.unitsFound ++ ch.units.map (·.id) } := by
  have hnew : ch.units.any (fun u => !(s.bb.roster.units.any (fun r => r.id = u.id))) = false :=
    List.any_eq_false.mpr fun u hu => by rw [hknown u hu]; decide
  unfold collect
  rw [hend]
  refine if_neg fun hannounce => ?_
  exact absurd ((Bool.and_eq_true_iff.mp hannounce).2.symm.trans hnew) (by decide)

theorem chainRule_holds : chainRule := by
  intro s link h hh hup hstate hedge hdelay
  subst hh
  have hhub : linkHub (otherLink link) = link / 2 := linkHub_otherLink link
  refine ⟨fun ch step hn hclaim htag hnow hstep => ?_, fun ch hn htag hend hknown => ?_, fun ch hn hclaim htag hother => ?_,
    fun ch hn hclaim htag hother hwork hknow hsends => ?_⟩
  · obtain ⟨body, htake⟩ := takeChain_eq s (link / 2) link ch hstep
    refine ⟨_, exec_outwardChain hup hstate hedge hdelay hn hclaim htag hnow, ?_⟩
    rw [htake]
    refine ⟨sendChain_only, fun hsilent => ?_, fun hwork hknow hsends => ?_⟩
    · rw [sendChain_silent (s := chainTaken s (link / 2) link ch step) (hhub.symm ▸ hsilent)]
      rfl
    · rw [sendChain_working (s := chainTaken s (link / 2) link ch step) hwork hknow (hhub.symm ▸ hsends),
        chainMessage_otherLink]
      exact ⟨_, rfl⟩
  · exact ⟨_, exec_inwardChain_ferry hup hstate hedge hdelay hn htag, collect_known hend hknown⟩
  · exact ⟨_, exec_inwardChain_landed hup hstate hedge hdelay hn hclaim htag, if_pos hother⟩
  · refine ⟨_, exec_inwardChain_landed hup hstate hedge hdelay hn hclaim htag, ?_⟩
    rw [if_neg (by simp [hother]), sendChain_working hwork hknow (hhub.symm ▸ hsends), chainMessage_otherLink]
    exact ⟨rfl, _, rfl⟩

/-! ## Edges (R279) and the yield of a merge (R281) -/

/-- A link that is found to be an edge: it knows the foreign claim once a foreign bell has come. -/
def edgeLink (ch : OutChain) (l : BLink) : BLink :=
  match l.fBell with
  | none => { l with edge := true }
  | some b => { l with
      edge := true
      foreign := some { priority := ch.priority, n := ch.n, serial := ch.serial
                        offset := (b + (if ch.aft then ch.wAft else ch.wFore) + (linkDelayPs l : Int)) / 1000 } }

theorem learnEdge_eq (s : State) {i : Nat} (ch : OutChain) (hi : i < 4) :
    learnEdge (updLink s i (fun l => { l with edge := true })) i ch = updLink s i (edgeLink ch) := by
  have hlink := getLink_updLink_self s (fun l => { l with edge := true }) hi
  unfold learnEdge
  rw [hlink]
  dsimp only
  cases hbell : (getLink s i).fBell with
  | none => exact updLink_congr (by rw [edgeLink, hbell])
  | some b =>
    dsimp only
    rw [updLink_updLink]
    refine updLink_congr ?_
    rw [edgeLink, Function.comp_apply]
    dsimp only
    rw [hbell]
    rfl

theorem judgeForeign_of_not_ferry {s : State} (f : Foreign) (hferry : s.bb.isFerry = false) : judgeForeign s f = s :=
  if_pos (by simp [hferry])

theorem edgeRule_holds : edgeRule := by
  refine ⟨fun s link ch hup hstate htag hforeign hferry => ?_, fun s hjoin hrun hyield => ?_⟩
  · refine ⟨_, congrArg Host.Outcome.next (if_pos (by simp [linkHub, hup, hstate, htag, hforeign])), ?_⟩
    dsimp only
    rw [learnEdge_eq s ch link.isLt]
    split
    · exact judgeForeign_of_not_ferry _ hferry
    · rfl
  · exact ⟨_, congrArg Host.Outcome.next (if_pos (by simp [hjoin, hrun, hyield])), rfl⟩

end Sys2Proof.Machine

open Sys2Proof.Machine in
/-- Settles O33: a landed hub takes its offsets from an outward chain, and passes chains on in its own segment alone; the ferryman
sends its roster and its chains on the links of its planes. -/
theorem chainsAndRosters : Obligations.ChainsAndRosters :=
  ⟨rosterRule_holds, chainOriginateRule_holds, chainRule_holds, edgeRule_holds⟩

/-!
PROOFS. O34: cold claims (10 R272 to R274), the claim of a contention (R283), a train without ferryman (R284), and units that stay
away (R276).
-/

namespace Sys2Proof.Machine

open Sys2Proof.Claims Safe

/-! ## Records that a node's change leaves recorded -/

section
variable {s : State} {h c : Nat}

theorem recorded_setNode_of_recorded (n : Nat) (hh : h < 2) (hrec : recorded s c) : recorded (setNode s h n) c := by
  unfold setNode
  dsimp only
  split
  · exact hrec
  · refine recorded_emitJ_of_recorded _ _ _ _ _ (by omega) (by decide) ((recorded_updPlane _ _ _).mpr ?_)
    split
    · exact recorded_updHub h (fun _ => ⟨rfl, rfl, rfl⟩) hrec
    · exact hrec

end

/-! ## Nodes that change their state with their time base (10 R263, Table 10-1) -/

/-- A hub with another state of its time base. -/
def timedHub (time : Nat) (d : HubDie) : HubDie := { d with timeState := time }

/-- A plane with another node state. -/
def nodePlane (new : Nat) (p : Plane) : Plane := { p with node := new }

/-- A change of a node's state is the change of its plane, and of its hub's time base where the hub is then in LISTEN, CLAIM or
LANDING. -/
theorem noted_setNode {s : State} {h n : Nat} (hn : (getPlane s h).node ≠ n) :
    noted (updPlane (if 1 ≤ n && n ≤ 3 then updHub s h (timedHub 0) else s) h (nodePlane n)) (setNode s h n) := by
  unfold setNode
  dsimp only
  rw [if_neg hn]
  exact bare_emitH ..

section
variable (origin : Nat → Bool) (time new : Nat)

/-- A hub as its node, in state `node`, leaves the states `origin`. -/
def movedHub (node : Nat) (d : HubDie) : HubDie := if origin node then timedHub time d else d

/-- A plane as its node leaves the states `origin`. -/
def movedPlane (p : Plane) : Plane := if origin p.node then nodePlane new p else p

/-- The node of a hub leaves the states `origin`, but for the record of it. -/
def movedNode (s : State) (h : Nat) : State :=
  updPlane (updHub s h (movedHub origin time (getPlane s h).node)) h (movedPlane origin new)

/-- The nodes of both hubs leave the states `origin`, but for the records of it. -/
def movedNodes (s : State) : State :=
  { s with
    hubs := s.hubs.mapIdx (fun h => movedHub origin time (getPlane s h).node)
    bb.planes := s.bb.planes.map (movedPlane origin new) }

section
variable {s : State} {h : Nat}

theorem movedNode_of_mem (hn : origin (getPlane s h).node = true) :
    movedNode origin time new s h = updPlane (updHub s h (timedHub time)) h (nodePlane new) := by
  have hhub : movedHub origin time (getPlane s h).node = timedHub time := funext fun _ => if_pos hn
  unfold movedNode
  rw [hhub]
  refine updPlane_congr ?_
  exact if_pos hn

theorem movedNode_of_not_mem (hn : origin (getPlane s h).node = false) : movedNode origin time new s h = s := by
  have hhub : updHub s h (movedHub origin time (getPlane s h).node) = s := updHub_eq_self (if_neg (by simp [hn]))
  unfold movedNode
  rw [hhub]
  exact updPlane_eq_self (if_neg (by simp [hn]))

end

/-- Both elements of a pair replaced. -/
theorem vupd_both {α : Type} (v : Vector α 2) (f : Nat → α → α) : vupd (vupd v 0 (f 0)) 1 (f 1) = v.mapIdx f := by
  refine Vector.ext fun i hi => ?_
  obtain rfl | rfl : i = 0 ∨ i = 1 := by omega
  all_goals simp [vupd]

theorem movedNode_movedNode (s : State) :
    movedNode origin time new (movedNode origin time new s 0) 1 = movedNodes origin time new s := by
  have hother : getPlane (movedNode origin time new s 0) 1 = getPlane s 1 := vget_vupd_of_ne _ _ _ (by decide)
  have hhubs := vupd_both s.hubs fun h => movedHub origin time (getPlane s h).node
  have hplanes := vupd_both s.bb.planes fun _ => movedPlane origin new
  rw [show s.bb.planes.mapIdx (fun _ => movedPlane origin new) = s.bb.planes.map (movedPlane origin new) from
    Vector.ext fun _ _ => by simp] at hplanes
  unfold movedNodes
  rw [← hhubs, ← hplanes, movedNode, hother]
  rfl

theorem bare_updHub {s : State} {h : Nat} {f : HubDie → HubDie}
    (hf : ∀ d : HubDie, ({ f d with inflight := [] } : HubDie) = f { d with inflight := [] }) :
    bare (updHub s h f) = updHub (bare s) h f := by
  have hhubs : (vupd s.hubs h f).map (fun d => { d with inflight := [] }) =
      vupd (s.hubs.map fun d => { d with inflight := [] }) h f := by
    unfold vupd
    split
    · simp [hf]
    · rfl
  show { bare s with hubs := (vupd s.hubs h f).map (fun d : HubDie => { d with inflight := [] }) } = _
  rw [hhubs]
  rfl

theorem bare_movedNode (s : State) (h : Nat) : bare (movedNode origin time new s h) = movedNode origin time new (bare s) h := by
  have hhub : bare (updHub s h (movedHub origin time (getPlane s h).node)) =
      updHub (bare s) h (movedHub origin time (getPlane s h).node) :=
    bare_updHub fun d => by
      unfold movedHub
      split
      · rfl
      · rfl
  show updPlane (bare (updHub s h _)) h _ = _
  rw [hhub]
  rfl

theorem noted_movedNode {u v : State} (hn : noted u v) (h : Nat) :
    noted (movedNode origin time new u h) (movedNode origin time new v h) := by
  unfold noted
  rw [bare_movedNode, bare_movedNode, show bare v = bare u from hn]

/-- An operation that moves the node of a hub with a record of it moves both. -/
theorem noted_movedNodes {f : State → Nat → State} (hf : ∀ u h, noted (movedNode origin time new u h) (f u h)) (s : State) :
    noted (movedNodes origin time new s) (f (f s 0) 1) := by
  have hfirst := noted_movedNode origin time new (hf s 0) 1
  rw [movedNode_movedNode] at hfirst
  exact (hf (f s 0) 1).trans hfirst

end

/-! ## LISTEN_TIMEOUT (R272, R284) -/

/-- A listening node claims. -/
def claimNode (s : State) (h : Nat) : State := if (getPlane s h).node = 1 then setNode s h 2 else s

/-- The state LISTEN. -/
def listens (n : Nat) : Bool := n = 1

theorem noted_claimNode (s : State) (h : Nat) : noted (movedNode listens 0 2 s h) (claimNode s h) := by
  unfold claimNode
  split
  · next hn =>
    rw [movedNode_of_mem _ _ _ (by simp [listens, hn])]
    exact noted_setNode (by omega)
  · next hn =>
    rw [movedNode_of_not_mem _ _ _ (by simp [listens, hn])]
    rfl

section
variable {s : State} {h c : Nat}

theorem recorded_claimNode (hh : h < 2) (hn : (getPlane s h).node = 1) : recorded (claimNode s h) 0x3010 := by
  rw [claimNode, if_pos hn]
  exact recorded_setNode s 2 hh (by omega)

theorem recorded_claimNode_of_recorded (hh : h < 2) (hrec : recorded s c) : recorded (claimNode s h) c := by
  unfold claimNode
  split
  · exact recorded_setNode_of_recorded 2 hh hrec
  · exact hrec

theorem getPlane_claimNode_of_ne {j : Nat} (hj : j ≠ h) : getPlane (claimNode s h) j = getPlane s j := by
  unfold claimNode
  split
  · unfold getPlane
    rw [setNode_bb]
    exact vget_vupd_of_ne _ _ _ hj
  · rfl

end

/-- A plane of a module that claims: it is at the origin of offsets, with no units known. -/
def claimedPlane (p : Plane) : Plane := { p with wAft := 0, wFore := 0, reversed := false, foreUnits := [], aftUnits := [] }

/-- A module that claims with COLD bells, before its listening hubs do. -/
def coldClaim (s : State) : State :=
  { s with
    bb.claiming := true, bb.running := false, bb.coldSent := 0, bb.coldFlag := true, bb.bellK := none
    bb.claimInaug := s.bb.inaugSeen + 1, bb.cDue := some (gv s E.bbCrossingN * 125000), bb.alignDue := true
    bb.planes := s.bb.planes.map claimedPlane }

theorem vget_map {α β : Type} {n : Nat} (v : Vector α n) (i : Nat) (f : α → β) (d : α) :
    vget (v.map f) i (f d) = f (vget v i d) := by
  unfold vget
  split
  · simp
  · rfl

theorem node_coldClaim (s : State) (h : Nat) : (getPlane (coldClaim s) h).node = (getPlane s h).node :=
  (congrArg Plane.node (vget_map s.bb.planes h claimedPlane {})).trans rfl

/-- Quiet for the listen time, a module claims where its priority lets it. -/
theorem exec_listenTimeout {s : State} {plane : Fin 2} {t0 : Nat} (hfrom : listenFrom s = some t0)
    (hn : (getPlane s plane).node = 1) (hquiet : (getPlane s (1 - plane)).node ≤ 1) (hclaim : s.bb.claiming = false)
    (htime : t0 + 3 * (gv s E.bbCrossingN * 125000) + (255 - gv s E.bbPriority) * 8000 ≤ s.cyc.tk) :
    exec (.listenTimeout plane) s = .next
      (if gv s E.bbPriority = 0 then noFerryman s 1 else claimNode (claimNode (coldClaim s) 0) 1) := by
  have hexec : exec (.listenTimeout plane) s = execListenTimeout plane s := rfl
  unfold execListenTimeout at hexec
  dsimp only at hexec
  rw [hfrom] at hexec
  dsimp only at hexec
  rw [if_pos (by simp [hn, hquiet, hclaim, htime])] at hexec
  exact hexec

/-- What becomes of a plane by a cold claim. -/
theorem movedPlane_claimedPlane (p : Plane) : movedPlane listens 2 (claimedPlane p) =
    { p with
      wAft := 0, wFore := 0, reversed := false, foreUnits := [], aftUnits := []
      node := if p.node = 1 then 2 else p.node } := by
  rw [movedPlane, show listens (claimedPlane p).node = decide (p.node = 1) from rfl]
  by_cases hn : p.node = 1
  · rw [if_pos (decide_eq_true hn), if_pos hn]
    rfl
  · rw [if_neg fun h => hn (of_decide_eq_true h), if_neg hn]
    rfl

theorem movedNodes_coldClaim (s : State) : movedNodes listens 0 2 (coldClaim s) =
    { coldClaim s with
      hubs := s.hubs.mapIdx (fun h d => if (getPlane s h).node = 1 then { d with timeState := 0 } else d)
      bb.planes := s.bb.planes.map (fun p => { p with
        wAft := 0, wFore := 0, reversed := false, foreUnits := [], aftUnits := []
        node := if p.node = 1 then 2 else p.node }) } := by
  have hhubs : (fun h => movedHub listens 0 (getPlane (coldClaim s) h).node) =
      fun h d => if (getPlane s h).node = 1 then { d with timeState := 0 } else d := by
    funext h d
    rw [node_coldClaim, movedHub, listens]
    exact if_congr (by simp) rfl rfl
  have hplanes : (coldClaim s).bb.planes.map (movedPlane listens 2) = s.bb.planes.map (movedPlane listens 2 ∘ claimedPlane) :=
    Vector.map_map ..
  unfold movedNodes
  rw [hhubs, hplanes, funext (f := movedPlane listens 2 ∘ claimedPlane) movedPlane_claimedPlane]
  rfl

theorem listenRule_holds : listenRule := by
  rintro s plane _ _ t0 rfl rfl hfrom hn hquiet hclaim htime
  have hexec := exec_listenTimeout hfrom hn hquiet hclaim htime
  refine ⟨fun hp => ⟨_, hexec, ?_⟩, fun hp hfirst => ⟨_, hexec, ?_⟩⟩
  · rw [if_neg (by omega)]
    refine ⟨?_, ?_⟩
    · obtain h0 | h1 : (getPlane s 0).node = 1 ∨ (getPlane s 1).node = 1 := by
        obtain hz | ho : plane.val = 0 ∨ plane.val = 1 := by omega
        · exact .inl (hz ▸ hn)
        · exact .inr (ho ▸ hn)
      · exact recorded_claimNode_of_recorded (by decide) (recorded_claimNode (by decide) ((node_coldClaim s 0).trans h0))
      · refine recorded_claimNode (by decide) ?_
        rw [getPlane_claimNode_of_ne (by decide), node_coldClaim, h1]
    · have hnoted := noted_movedNodes listens 0 2 noted_claimNode (coldClaim s)
      rw [movedNodes_coldClaim] at hnoted
      exact hnoted
  · rw [if_pos hp, noFerryman, if_neg (by simp [hfirst])]
    exact ⟨recorded_emitL _ _ _ _ _ _ (by decide), noted_emitL ..⟩

/-! ## CLAIM_CONFIRMED (R273, R274) -/

/-- A claiming node, or one of a contention, becomes FERRYMAN with the ferryman's time base. -/
def ferryNode (s : State) (h : Nat) : State :=
  if (getPlane s h).node = 2 || (getPlane s h).node = 4 then setNode (updHub s h (timedHub 3)) h 5 else s

/-- The states COLD_CLAIM and LANDED. -/
def claims (n : Nat) : Bool := n = 2 || n = 4

theorem noted_ferryNode (s : State) (h : Nat) : noted (movedNode claims 3 5 s h) (ferryNode s h) := by
  unfold ferryNode
  split
  · next hn =>
    have hold : (getPlane (updHub s h (timedHub 3)) h).node ≠ 5 := fun h5 => by
      have h5' : (getPlane s h).node = 5 := h5
      simp [h5'] at hn
    rw [movedNode_of_mem _ _ _ hn]
    exact noted_setNode hold
  · next hn =>
    rw [movedNode_of_not_mem _ _ _ (Bool.eq_false_iff.mpr hn)]
    rfl

/-- The module whose claim stands, before its hubs are FERRYMAN. -/
def claimWon (s : State) : State :=
  { s with
    bb.claiming := false, bb.isFerry := true, bb.inaug := s.bb.claimInaug
    bb.inaugSeen := max s.bb.inaugSeen s.bb.claimInaug, bb.ferrySerial := serial40
    bb.ferryPriority := gv s E.bbPriority, bb.ferryman := s.bb.address, bb.noFerry := false }

/-- The ferryman whose claim stands, with event 0x3011. -/
def ferryElected (s : State) (cold : Bool) : State :=
  let u := ferryNode (ferryNode (claimWon s) 0) 1
  emitL u (srcHub 0) 0x3011 1
    (u8 (b2n ((getPlane u 0).node = 5) + 2 * b2n ((getPlane u 1).node = 5)) ++ u32 u.bb.inaug ++ u8 (gv u E.bbPriority)
      ++ u8 (if cold then 1 else 2))

theorem noted_ferryElected (s : State) (cold : Bool) : noted (movedNodes claims 3 5 (claimWon s)) (ferryElected s cold) :=
  (noted_emitL ..).trans (noted_movedNodes claims 3 5 noted_ferryNode (claimWon s))

/-- The hub in whose order the ferryman of a cold start counts its units. -/
def countingHub (s : State) : Nat := if (getPlane s 0).node = 5 then 0 else 1

/-- The ferryman of a cold start has announced its first roster. -/
def coldStarted (s : State) : State :=
  let v := ferryElected s true
  announce v true false (segmentUnits v (countingHub v))

theorem exec_claimConfirmed {s : State} (hclaim : s.bb.claiming = true) (hsent : 8 ≤ s.bb.coldSent) :
    exec .claimConfirmed s = .next (if s.bb.running then ferryElected s false else coldStarted s) := by
  have hexec : exec .claimConfirmed s = .next
      (let v := ferryElected s (!s.bb.running)
      if !s.bb.running then announce v true false (segmentUnits v (countingHub v)) else v) :=
    congrArg Host.Outcome.next (if_neg (by simp [hclaim, hsent]))
  rw [hexec]
  cases s.bb.running
  · rfl
  · rfl

/-- A plane with the anchor shifts of an announced roster (R274). -/
def announcedPlane (cold : Bool) (p : Plane) : Plane := { p with shift := if cold then endShifts p else (0, 0) }

section
variable (s : State) (cold merge : Bool) (found : List UnitRec)

/-- A roster is announced with the next inauguration count; it empties the list of removals, and sets the shifts of the planes. -/
theorem noted_announce : ∃ r : Roster, r.cold = cold ∧ r.inaug = s.bb.inaug + 1 ∧
    noted { s with
      bb.rosterNext := some r, bb.removals := [], bb.planes := s.bb.planes.map (announcedPlane cold) }
      (announce s cold merge found) := by
  unfold announce
  exact ⟨_, rfl, rfl, foldl_keeps bare _ (fun _ _ => view_ite bare rfl (bare_emitL ..)) _ _⟩

theorem recorded_announce_of_recorded {c : Nat} (hrec : recorded s c) : recorded (announce s cold merge found) c := by
  unfold announce
  refine recorded_foldl (fun u x hu => ?_) _ hrec
  split
  · exact hu
  · exact recorded_emitL_of_recorded _ _ _ _ (by decide) hu

end

/-- Who is the ferryman, and how the nodes and the hubs' time bases stand. -/
def office (s : State) : Bool × Bool × Nat × Nat × Bool × Vector Nat 2 × Vector Nat 2 :=
  (s.bb.claiming, s.bb.isFerry, s.bb.inaug, s.bb.ferryPriority, s.bb.noFerry, s.bb.planes.map (·.node),
    s.hubs.map (·.timeState))

theorem office_bare (s : State) : office (bare s) = office s := by
  have hhubs : (s.hubs.map fun d => { d with inflight := [] }).map (·.timeState) = s.hubs.map (·.timeState) := Vector.map_map ..
  unfold office
  rw [← hhubs]
  rfl

theorem office_of_noted {s t : State} (hn : noted s t) : office t = office s := by
  rw [← office_bare, show bare t = bare s from hn, office_bare]

theorem office_announce (s : State) (cold merge : Bool) (found : List UnitRec) :
    office (announce s cold merge found) = office s := by
  obtain ⟨r, -, -, hnoted⟩ := noted_announce s cold merge found
  have hnodes : (s.bb.planes.map (announcedPlane cold)).map (·.node) = s.bb.planes.map (·.node) := Vector.map_map ..
  rw [office_of_noted hnoted, office, hnodes]
  rfl

/-- An office is that of each hub. -/
theorem node_timeState_of_office {s t : State} (ho : office t = office s) (h : Nat) :
    (getPlane t h).node = (getPlane s h).node ∧ (getHub t h).timeState = (getHub s h).timeState := by
  simp only [office, Prod.mk.injEq] at ho
  obtain ⟨-, -, -, -, -, hnodes, htimes⟩ := ho
  have hnode : ∀ u : State, vget (u.bb.planes.map (·.node)) h 0 = (getPlane u h).node :=
    fun u => vget_map u.bb.planes h (·.node) {}
  have htime : ∀ u : State, vget (u.hubs.map (·.timeState)) h 0 = (getHub u h).timeState :=
    fun u => vget_map u.hubs h (·.timeState) {}
  rw [← hnode, ← hnode, ← htime, ← htime, hnodes, htimes]
  exact ⟨rfl, rfl⟩

/-- A node that leaves the states `origin`, and its hub. -/
theorem movedNodes_of_mem (origin : Nat → Bool) (time new : Nat) {s : State} {h : Nat} (hh : h < 2)
    (hn : origin (getPlane s h).node = true) :
    getPlane (movedNodes origin time new s) h = nodePlane new (getPlane s h) ∧
      getHub (movedNodes origin time new s) h = timedHub time (getHub s h) := by
  have hplane : getPlane (movedNodes origin time new s) h = movedPlane origin new (getPlane s h) := by
    simp [getPlane, movedNodes, vget, hh]
  have hhub : getHub (movedNodes origin time new s) h = movedHub origin time (getPlane s h).node (getHub s h) := by
    simp [getHub, movedNodes, vget, hh]
  rw [hplane, hhub]
  exact ⟨if_pos hn, if_pos hn⟩

/-- The office of the module whose claim stands. -/
theorem office_elected {s t : State} (ho : office t = office (movedNodes claims 3 5 (claimWon s))) :
    t.bb.claiming = false ∧ t.bb.isFerry = true ∧ t.bb.inaug = s.bb.claimInaug ∧ t.bb.ferryPriority = gv s E.bbPriority ∧
      t.bb.noFerry = false ∧ ∀ h, h < 2 → ((getPlane s h).node = 2 ∨ (getPlane s h).node = 4) →
        (getPlane t h).node = 5 ∧ (getHub t h).timeState = 3 := by
  have hview := ho
  simp only [office, Prod.mk.injEq] at hview
  obtain ⟨hclaim, hferry, hinaug, hprio, hfound, -⟩ := hview
  refine ⟨hclaim, hferry, hinaug, hprio, hfound, fun h hh hn => ?_⟩
  have hclaims : claims (getPlane (claimWon s) h).node = true := show claims (getPlane s h).node = true by simpa [claims] using hn
  obtain ⟨hplane, hhub⟩ := movedNodes_of_mem claims 3 5 hh hclaims
  obtain ⟨hnode, htime⟩ := node_timeState_of_office ho h
  rw [hnode, htime, hplane, hhub]
  exact ⟨rfl, rfl⟩

section
variable (s : State) (cold : Bool)

theorem ferryElected_bb : (ferryElected s cold).bb = (movedNodes claims 3 5 (claimWon s)).bb :=
  bb_of_noted (noted_ferryElected s cold)

theorem office_ferryElected : office (ferryElected s cold) = office (movedNodes claims 3 5 (claimWon s)) :=
  office_of_noted (noted_ferryElected s cold)

theorem recorded_ferryElected : recorded (ferryElected s cold) 0x3011 := recorded_emitL _ _ _ _ _ _ (by decide)

theorem office_coldStarted : office (coldStarted s) = office (movedNodes claims 3 5 (claimWon s)) :=
  (office_announce ..).trans (office_ferryElected s true)

theorem recorded_coldStarted : recorded (coldStarted s) 0x3011 :=
  recorded_announce_of_recorded _ _ _ _ (recorded_ferryElected s true)

/-- The first roster of a cold start. -/
theorem rosterNext_coldStarted :
    ∃ r, (coldStarted s).bb.rosterNext = some r ∧ r.cold = true ∧ r.inaug = s.bb.claimInaug + 1 := by
  obtain ⟨r, hcold, hinaug, hnoted⟩ := noted_announce (ferryElected s true) true false
    (segmentUnits (ferryElected s true) (countingHub (ferryElected s true)))
  rw [ferryElected_bb] at hinaug
  exact ⟨r, congrArg Backbone.rosterNext (bb_of_noted hnoted), hcold, hinaug⟩

end

theorem claimRule_holds : claimRule := by
  refine ⟨fun s hclaim hsent => ⟨_, exec_claimConfirmed hclaim hsent, ?_⟩,
    fun s p hp hpos h0 h1 hm0 hm1 hclaim hferry => ?_⟩
  · cases s.bb.running with
    | true =>
      obtain ⟨hended, hferry, hinaug, hprio, hfound, hnodes⟩ := office_elected (office_ferryElected s false)
      have hroster : (ferryElected s false).bb.rosterNext = s.bb.rosterNext ∧ (ferryElected s false).bb.roster = s.bb.roster := by
        rw [ferryElected_bb]
        exact ⟨rfl, rfl⟩
      exact ⟨recorded_ferryElected s false, hended, hferry, hinaug, hprio, hfound, hnodes, fun _ => hroster, nofun⟩
    | false =>
      obtain ⟨hended, hferry, hinaug, hprio, hfound, hnodes⟩ := office_elected (office_coldStarted s)
      exact ⟨recorded_coldStarted s, hended, hferry, hinaug, hprio, hfound, hnodes, nofun, fun _ => rosterNext_coldStarted s⟩
  · subst hp
    refine ⟨_, congrArg Host.Outcome.next ((if_pos (by simp [h0, h1, hm0, hm1, hclaim, hferry])).trans (if_neg ?_)), rfl⟩
    omega

/-! ## UNIT_ABSENCE_REMOVAL (R276) -/

theorem absenceRule_holds : absenceRule := by
  intro s u hferry habsent hunit hnew
  exact ⟨_, congrArg Host.Outcome.next (if_pos (by rw [hferry, hunit, hnew, decide_eq_true habsent]; rfl)), rfl⟩

end Sys2Proof.Machine

open Sys2Proof.Machine in
/-- Settles O34: a quiet module claims with its listening hubs, a claim that stands makes a ferryman of both hubs, and a cold start
announces the first roster. -/
theorem claimsAndContention : Obligations.ClaimsAndContention := ⟨listenRule_holds, claimRule_holds, absenceRule_holds⟩

/-!
PROOFS. O35: frames at the consist ports (11 R287, R289), the endpoint of a port's network (R288, R290), and process data (R307, R308).
-/

namespace Sys2Proof.Machine

open Sys2Proof.Claims Safe

/-! ## PORT_FRAME_RECEIVED (R288 to R290) -/

section
variable {s : State} {port : Fin 16} {f : EthFrame}

/-- What becomes of a frame of a VLAN of its port: the endpoint's discard, and the forwarding. -/
def frameTaken (u : State) (p : Nat) (f : EthFrame) : State :=
  let own := f.dst = Config.mac (p / 8)
  let vlan := frameVlan u p f
  let u := if (own || f.dst / 2 ^ 40 % 2 = 1) && endpointIp u p ≠ 0 && vlan = endpointVlan u p && !(terminates u p f) && own then
      discard u p
    else u
  if !own && gvi u E.portTransit p = 1 then
    let v := learn u (p / 8) p f.src f.t
    (forwardTo v (p / 8) p vlan f.dst).foldl (fun v q => forward v f vlan q) v
  else u

theorem exec_portFrameReceived (hup : portUp s port = true) : exec (.portFrameReceived port f) s = .next (
    let u := bumpi s E.portRxFrames port
    if f.badTag || !f.fcsOk || f.len < 64 || 9216 < f.len then discard u port
    else if !(memberOf u port (frameVlan u port f)) then discard u port
    else frameTaken u port f) := by
  show execPortFrameReceived port f s = _
  have hvlan : ∀ u : State, frameVlan u port f =
      if f.vid.getD 0 = 0 then gvi u E.portPvid port else f.vid.getD 0 := fun _ => rfl
  unfold execPortFrameReceived frameTaken
  dsimp only
  rw [hup]
  cases hvid : f.vid with
  | none => simp only [hvlan, hvid]; rfl
  | some v => simp only [hvlan, hvid]; rfl

/-- A frame for the hub itself that the endpoint terminates goes no further here. -/
theorem frameTaken_own {u : State} {p : Nat} (hown : f.dst = Config.mac (p / 8)) (hend : terminates u p f = true) :
    frameTaken u p f = u := by
  simp [frameTaken, hown, hend]

theorem frameTaken_transit {u : State} {p : Nat} (hdst : f.dst ≠ Config.mac (p / 8)) (htransit : gvi u E.portTransit p = 1) :
    frameTaken u p f =
      let v := learn u (p / 8) p f.src f.t
      (forwardTo v (p / 8) p (frameVlan u p f) f.dst).foldl (fun v q => forward v f (frameVlan u p f) q) v := by
  simp [frameTaken, hdst, htransit]

/-! ### Forwarding (R289) -/

/-- A hub that has learnt a new address. -/
def learnt (p mac t : Nat) (d : HubDie) : HubDie := { d with macs := d.macs ++ [{ mac := mac, port := p, at_ := t }] }

theorem learn_new {u : State} {h p mac t : Nat} (hnew : (getHub u h).macs.any (fun e => e.mac = mac) = false)
    (hroom : (getHub u h).macs.length < 8192) : learn u h p mac t = updHub u h (learnt p mac t) := by
  unfold learn
  dsimp only
  rw [if_neg (by rw [hnew]; decide), if_neg (Nat.not_le.mpr hroom)]
  rfl

/-- A fold whose steps change nothing. -/
theorem foldl_stays {α : Type} {g : State → α → State} {l : List α} (hl : ∀ x ∈ l, g s x = s) : l.foldl g s = s := by
  induction l with
  | nil => rfl
  | cons x l ih =>
    rw [List.foldl_cons, hl x List.mem_cons_self]
    exact ih fun y hy => hl y (List.mem_cons_of_mem _ hy)

/-- A frame is forwarded to ports of the hub alone. -/
theorem hub_of_mem_forwardTo {u : State} {h p vlan dst q : Nat} (hq : q ∈ forwardTo u h p vlan dst) : q / 8 = h := by
  have hports : ∀ g : Nat → Bool, q ∈ ((List.range 8).map (fun i => 8 * h + i)).filter g → q / 8 = h := fun g hg => by
    obtain ⟨i, hi, rfl⟩ := List.mem_map.mp (List.mem_of_mem_filter hg)
    have := List.mem_range.mp hi
    omega
  unfold forwardTo at hq
  dsimp only at hq
  split at hq
  · split at hq
    · exact hports _ hq
    · exact hports _ (List.mem_of_mem_filter hq)
  · exact hports _ hq

/-- The frame as it leaves by a port of a hub that sends. -/
def frameOut (u : State) (f : EthFrame) (vlan q : Nat) : Egress :=
  { kind := .ethFrame, port := q, a := f.dst, b := f.src, c := if gvi u E.portPvid q = vlan then 0 else vlan }

theorem forward_silent {u : State} {vlan q : Nat} (hsends : hubSends u (q / 8) = false) : forward u f vlan q = u := by
  simp [forward, hsends]

/-- The counter of the frames that a port sends bears on nothing that a later port reads. -/
theorem foldl_forward {h vlan : Nat} (l : List Nat) (hl : ∀ q ∈ l, q / 8 = h) : ∀ u : State, hubSends u h = true →
    ∃ c, l.foldl (fun v q => forward v f vlan q) u =
      { u with egress := (l.map (frameOut u f vlan)).reverse ++ u.egress, cnt := c } := by
  induction l with
  | nil => exact fun u _ => ⟨u.cnt, rfl⟩
  | cons q l ih =>
    intro u hsends
    have hq : q / 8 = h := hl q List.mem_cons_self
    have hone : forward u f vlan q = send (bumpi u E.portTxFrames q) (frameOut u f vlan q) := by
      simp [forward, hq, hsends, frameOut]
    obtain ⟨c, hc⟩ := ih (fun x hx => hl x (List.mem_cons_of_mem _ hx)) (send (bumpi u E.portTxFrames q) (frameOut u f vlan q)) hsends
    refine ⟨c, ?_⟩
    rw [List.foldl_cons, hone, hc, List.map_cons, List.reverse_cons, List.append_assoc]
    rfl

theorem hubSends_learnt (s : State) (h j p mac t : Nat) : hubSends (updHub s h (learnt p mac t)) j = hubSends s j := by
  unfold hubSends hubUp getHub updHub
  dsimp only
  rw [vget_vupd]
  split
  · next hj => rw [hj.1]; rfl
  · rfl

end

theorem portFrameRule_holds : portFrameRule := by
  rintro s port f u hup rfl
  have hexec := exec_portFrameReceived (f := f) hup
  refine ⟨fun hbad => ⟨_, hexec, if_pos (by simpa [or_assoc] using hbad)⟩, fun htag hfcs hmin hmax => ?_⟩
  dsimp only at hexec
  rw [if_neg (by simp [htag, hfcs, hmin, hmax])] at hexec
  refine ⟨fun hout => ⟨_, hexec, if_pos (by rw [hout]; rfl)⟩, fun hin hown hend => ⟨_, hexec, ?_⟩,
    fun hin hdst htransit hnew hroom => ⟨_, hexec, ?_⟩⟩
  · rw [if_neg (by simp [hin]), frameTaken_own hown hend]
  · rw [if_neg (by simp [hin]), frameTaken_transit hdst htransit, learn_new hnew hroom]
    refine ⟨fun hsilent => ?_, fun hsends => ?_⟩
    · exact foldl_stays fun q hq => forward_silent (by rw [hub_of_mem_forwardTo hq, hubSends_learnt]; exact hsilent)
    · obtain ⟨c, hc⟩ := foldl_forward (f := f) (vlan := frameVlan (bumpi s E.portRxFrames port) port f) _
        (fun q => hub_of_mem_forwardTo) (updHub (bumpi s E.portRxFrames port) (port / 8) (learnt port f.src f.t))
        ((hubSends_learnt ..).trans hsends)
      dsimp only
      rw [hc]
      exact ⟨rfl, rfl, rfl⟩

/-! ## MAC_AGEING (R289) -/

theorem macAgeingRule_holds : macAgeingRule := by
  intro s hub mac i
  refine ⟨_, rfl, rfl, ?_, fun j hj => ?_⟩
  · unfold getHub updHub
    rw [vget_vupd_self _ _ _ _ hub.isLt]
  · unfold getHub updHub
    rw [vget_vupd_of_ne _ _ _ hj]

/-! ## The endpoint (R290) -/

/-- A port that sends counts what it sends; the service port has no count. -/
def sentBy (s : State) (p : Nat) : State := if p < 16 then bumpi s E.portTxFrames p else s

theorem sentBy_only (s : State) (p : Nat) : ∃ c, sentBy s p = { s with cnt := c } := by
  unfold sentBy
  split
  · exact ⟨_, rfl⟩
  · exact ⟨_, rfl⟩

/-- The answers of the last second bear on no count. -/
theorem sentBy_icmp (s : State) (p : Nat) (m : NMap (List Nat)) :
    sentBy { s with con.icmp := m } p = { sentBy s p with con.icmp := m } := by
  unfold sentBy
  split
  · rfl
  · rfl

theorem send_sentBy (s : State) (p : Nat) (e : Egress) : send (sentBy s p) e = { sentBy s p with egress := e :: s.egress } := by
  obtain ⟨c, hc⟩ := sentBy_only s p
  rw [hc]
  rfl

theorem endpointRule_holds : endpointRule := by
  intro s port ip u hup h0 hip hsends hu
  change u = sentBy s port at hu
  subst hu
  have hreach : reachesEndpoint s port ip = true := by simp [reachesEndpoint, hup, h0, ← hip]
  have hecho : (reachesEndpoint s port ip && (port.val = 16 || hubSends s (port / 8))) = true := by simp [hreach, hsends]
  refine ⟨fun mac vlan hvlan => ⟨_, congrArg Host.Outcome.next (if_pos ?_), send_sentBy ..⟩,
    fun src data i hroom => ⟨_, congrArg Host.Outcome.next ((if_pos hecho).trans (if_neg (Nat.not_le.mpr hroom))), ?_⟩,
    fun src data i hfull => ⟨_, congrArg Host.Outcome.next ((if_pos hecho).trans (if_pos hfull)), rfl, rfl⟩⟩
  · rw [hreach]
    by_cases h16 : port.val = 16
    · simp [h16]
    · simp [hsends.resolve_left h16, hvlan.resolve_left h16]
  · refine (send_sentBy ..).trans ?_
    rw [sentBy_icmp]

/-! ## CONSIST_PORT_LINK_CHANGE (R287) -/

theorem portLinkRule_holds : portLinkRule := by
  rintro s port lock los down rfl
  refine ⟨_, rfl, ?_⟩
  simp

/-! ## TRDP_PROCESS_DATA (R307, R308) -/

/-- The first number of a range with a property. -/
theorem find?_range_of_first {n k : Nat} {p : Nat → Bool} (hn : n < k) (hp : p n = true) (hmin : ∀ m, m < n → p m = false) :
    (List.range k).find? p = some n :=
  List.find?_range_eq_some.mpr ⟨hp, List.mem_range.mpr hn, fun m hm => by simp [hmin m hm]⟩

theorem trdpRule_holds : trdpRule := by
  intro s port comId src seq i data hup hip
  dsimp only
  have hexec : ∀ formed, exec (.trdpProcessData port comId src (endpointVlan s port) seq formed data i) s = _ := fun _ =>
    congrArg Host.Outcome.next (if_neg (by simp [hup, hip]))
  refine ⟨fun n hn hfirst hmin => ⟨_, hexec true, ?_⟩, fun hnone => ⟨_, hexec true, ?_⟩, ⟨_, hexec false, rfl⟩⟩
  · dsimp only
    rw [if_pos (by simp), find?_range_of_first hn hfirst hmin]
  · dsimp only
    rw [if_pos (by simp), List.find?_eq_none.mpr fun n hn => by simp [hnone n (List.mem_range.mp hn)]]

end Sys2Proof.Machine

open Sys2Proof.Machine in
/-- Settles O35: a port discards a frame, leaves it to the commands of its content, or forwards it; each other command changes what it
names. -/
theorem consistPorts : Obligations.ConsistPorts :=
  ⟨portFrameRule_holds, macAgeingRule_holds, endpointRule_holds, portLinkRule_holds, trdpRule_holds⟩

/-!
PROOFS. O36: handshakes of sessions (11 R291, R297 to R300).
-/

namespace Sys2Proof.Machine

open Sys2Proof.Claims Safe

/-! ## Sending does not depend on records -/

section
variable {s t : State} (hn : noted s t)
include hn

theorem hubSends_of_noted (h : Nat) : hubSends t h = hubSends s h := by
  unfold hubSends
  rw [hubUp_of_noted hn, voter_of_noted hn]

theorem reachesNet_of_noted (h : Nat) : reachesNet t h = reachesNet s h := by
  unfold reachesNet dutyHub hubLinkUp
  rw [hubUp_of_noted hn, ilinks_of_noted hn]

theorem con_of_noted : t.con = s.con := by
  have h := congrArg State.con (show bare t = bare s from hn)
  exact h

theorem dict_of_noted : t.sup.dict = s.sup.dict := by
  have h := congrArg (fun u => u.sup.dict) (show bare t = bare s from hn)
  exact h

theorem egress_of_noted : t.egress = s.egress := by
  have h := congrArg State.egress (show bare t = bare s from hn)
  exact h

/-- What leaves, and what the consist ports hold, are no part of the records. -/
theorem noted_sent (c : Consist) (x : List Egress) : noted { s with con := c, egress := x } { t with con := c, egress := x } := by
  have h := congrArg (fun u : State => { u with con := c, egress := x }) (show bare t = bare s from hn)
  exact h

end

/-! ## The associations -/

/-- The associations with one of them replaced. -/
def withHs (s : State) (id : Nat) (h : Handshake) : State := { s with con.handshakes := nset s.con.handshakes id h }

section
variable (s : State) (id : Nat) (h h' : Handshake)

@[simp] theorem getHs?_withHs : getHs? (withHs s id h) id = some h := nget?_nset_self ..

@[simp] theorem withHs_withHs : withHs (withHs s id h) id h' = withHs s id h' := by
  unfold withHs
  rw [nset_nset]

theorem updHs_of_held {s : State} {id : Nat} {h : Handshake} (hh : getHs? s id = some h) (f : Handshake → Handshake) :
    updHs s id f = withHs s id (f h) := by
  have hget : nget? s.con.handshakes id = some h := hh
  unfold updHs withHs nupd
  rw [hget]

end

theorem eq_or_mem_of_mem_nset {α : Type} {p : Nat × α} {i : Nat} {v : α} :
    ∀ {m : NMap α}, p ∈ nset m i v → p = (i, v) ∨ p ∈ m
  | [], hp => .inl (List.mem_singleton.mp hp)
  | (k, w) :: rest, hp => by
    unfold nset at hp
    split at hp
    · exact List.mem_cons.mp hp
    · split at hp
      · exact (List.mem_cons.mp hp).imp_right (List.mem_cons_of_mem _)
      · rcases List.mem_cons.mp hp with rfl | hr
        · exact .inr List.mem_cons_self
        · exact (eq_or_mem_of_mem_nset hr).imp_right (List.mem_cons_of_mem _)

/-! ## What leaves of a handshake message (R297) -/

/-- The fragments of a handshake message on a network, newest first. -/
def hsPart (s : State) (id : Nat) (h : Handshake) (kind : EgKind) (code : Nat) (body : List Byte) (n : Nat) : List Egress :=
  if bit h.nets n = true ∧ (h.service = true ∨ hubSends s n = true ∧ reachesNet s n = true) then
    ((hsFragments s id h kind body).map (fun d =>
      ({ kind := kind, port := if h.service then 16 else n, a := id, b := code, data := d } : Egress))).reverse
  else []

theorem foldl_send {α : Type} (g : α → Egress) (l : List α) (s : State) :
    l.foldl (fun s d => send s (g d)) s = { s with egress := (l.map g).reverse ++ s.egress } := by
  induction l generalizing s with
  | nil => rfl
  | cons d l ih =>
    rw [List.foldl_cons, ih, List.map_cons, List.reverse_cons, List.append_assoc]
    rfl

section
variable (s : State) (id : Nat) (h : Handshake) (kind : EgKind) (code : Nat) (body : List Byte)

theorem hsSend_eq : hsSend s id h kind code body =
    { s with egress := [1, 0].flatMap (hsPart s id h kind code body) ++ s.egress } := by
  have hone : ∀ (u : State) (n : Nat), (if bit h.nets n && (h.service || (hubSends u n && reachesNet u n)) then
      (hsFragments u id h kind body).foldl (fun s d =>
        send s { kind := kind, port := if h.service then 16 else n, a := id, b := code, data := d }) u
      else u) = { u with egress := hsPart u id h kind code body n ++ u.egress } := fun u n => by
    unfold hsPart
    by_cases hc : bit h.nets n = true ∧ (h.service = true ∨ hubSends u n = true ∧ reachesNet u n = true)
    · rw [if_pos (by simpa using hc), if_pos hc, foldl_send]
    · rw [if_neg (by simpa using hc), if_neg hc]
      rfl
  unfold hsSend
  rw [List.foldl_cons, List.foldl_cons, List.foldl_nil, hone, hone]
  simp only [List.flatMap_cons, List.flatMap_nil, List.append_nil, List.append_assoc]
  rfl

/-- What the consist ports hold, and the free values drawn, bear on no handshake message. -/
theorem hsLeaves_hsSend (c : Consist) (x : Startup) :
    hsLeaves s (hsSend { s with con := c, st := x } id h kind code body) id h kind code body := by
  rw [hsSend_eq]
  rfl

@[simp] theorem hsSend_con : (hsSend s id h kind code body).con = s.con := by rw [hsSend_eq]

end

section
variable {s t : State} (hn : noted s t) (id : Nat) (h : Handshake) (kind : EgKind) (code : Nat) (body : List Byte)
include hn

theorem hsPart_of_noted (n : Nat) : hsPart t id h kind code body n = hsPart s id h kind code body n := by
  have hmtu : gv t E.conMtu = gv s E.conMtu := by
    show dval t.sup.dict .. = dval s.sup.dict ..
    rw [dict_of_noted hn]
  unfold hsPart hsFragments
  rw [hubSends_of_noted hn, reachesNet_of_noted hn, hmtu]

theorem hsLeaves_hsSend_of_noted : hsLeaves s (hsSend t id h kind code body) id h kind code body := by
  rw [hsSend_eq]
  show [1, 0].flatMap (hsPart t id h kind code body) ++ t.egress = [1, 0].flatMap (hsPart s id h kind code body) ++ s.egress
  rw [funext (hsPart_of_noted hn id h kind code body), egress_of_noted hn]

end

/-! ## The end of an association -/

section
variable {s : State} {id : Nat} {h : Handshake}

/-- Before its ANSWER an association has no session. -/
theorem dropHandshake_unanswered (hh : getHs? s id = some h) (hnum : h.number = none) :
    dropHandshake s id = { s with con.handshakes := nerase s.con.handshakes id } := by
  unfold dropHandshake
  rw [hh]
  dsimp only
  rw [hnum]

/-- The end of an association changes nothing but what the consist ports hold. -/
theorem dropHandshake_only (s : State) (id : Nat) : ∃ c, dropHandshake s id = { s with con := c } := by
  unfold dropHandshake
  split
  · exact ⟨_, rfl⟩
  · dsimp only
    split
    · split
      · split
        · exact ⟨_, rfl⟩
        · exact ⟨_, rfl⟩
      · exact ⟨_, rfl⟩
    · exact ⟨_, rfl⟩

theorem recorded_dropHandshake (s : State) (id : Nat) {c : Nat} (hrec : recorded s c) : recorded (dropHandshake s id) c := by
  obtain ⟨x, hx⟩ := dropHandshake_only s id
  rw [hx]
  exact hrec

theorem dropHandshake_answered {n : Nat} {e : Session} (hh : getHs? s id = some h) (hnum : h.number = some n)
    (he : nget? s.con.sessions n = some e) (hstate : e.state = 1) :
    dropHandshake s id = { s with con.sessions := nerase s.con.sessions n, con.handshakes := nerase s.con.handshakes id } := by
  have he' : getSess? s n = some e := he
  unfold dropHandshake
  rw [hh]
  dsimp only
  rw [hnum]
  dsimp only
  rw [he']
  dsimp only
  rw [if_pos hstate]

end

/-! ## REFUSE (R300) -/

/-- A refusal is counted, recorded and sent. -/
def refusalSent (s : State) (id : Nat) (h : Handshake) (port code reason fp : Nat) : State :=
  hsSend (emitL (bump s E.sessRefused) (srcHub 0) 0x3032 1 (u32 code ++ u8 reason ++ leBytes 16 fp ++ u8 port)) id h
    .handshakeRefuse code (beBytes 4 code ++ u8 reason)

section
variable (s : State) (id : Nat) (h : Handshake) (port code reason fp : Nat)

theorem refuseHs_eq {s : State} {id : Nat} {h : Handshake} (hh : getHs? s id = some h) :
    refuseHs s id port code reason fp = dropHandshake (refusalSent s id h port code reason fp) id := by
  unfold refuseHs
  rw [hh]
  rfl

@[simp] theorem refusalSent_con : (refusalSent s id h port code reason fp).con = s.con := by
  unfold refusalSent
  rw [hsSend_con, emitL_con, bump_con]

theorem getHs?_refusalSent (j : Nat) : getHs? (refusalSent s id h port code reason fp) j = getHs? s j := by
  unfold getHs?
  rw [refusalSent_con]

theorem recorded_refusalSent : recorded (refusalSent s id h port code reason fp) 0x3032 := by
  unfold refusalSent
  rw [hsSend_eq]
  exact recorded_emitL _ _ _ _ _ _ (by decide)

theorem hsLeaves_refusalSent :
    hsLeaves s (refusalSent s id h port code reason fp) id h .handshakeRefuse code (beBytes 4 code ++ u8 reason) :=
  hsLeaves_hsSend_of_noted (s := bump s E.sessRefused) (noted_emitL ..) ..

theorem noted_refusalSent (c : Consist) :
    noted { bump s E.sessRefused with con := c, egress := (refusalSent s id h port code reason fp).egress }
      { refusalSent s id h port code reason fp with con := c } := by
  unfold refusalSent
  rw [hsSend_eq]
  exact noted_sent (noted_emitL ..) c _

/-- Before its ANSWER a refused association has no session. -/
theorem dropHandshake_refused {s : State} {id : Nat} {h : Handshake} (hh : getHs? s id = some h) (hnum : h.number = none) :
    dropHandshake (refusalSent s id h port code reason fp) id =
      { refusalSent s id h port code reason fp with con := { s.con with handshakes := nerase s.con.handshakes id } } := by
  rw [dropHandshake_unanswered ((getHs?_refusalSent ..).trans hh) hnum, refusalSent_con]

end

/-! ## HELLO (R291, R297 to R300) -/

section
variable {s : State} {port : Fin 17} {id i : Nat} {f : Fragment} {m : HelloMsg}

theorem fragmentOk_of {count : Nat} (hlen : f.data.length ≤ gv s E.conMtu - 44) (hcount : f.count = count) (hnum : f.num < count)
    (hmax : count ≤ 16) : fragmentOk s f count = true := by
  have h1 : 1 ≤ count := by omega
  simp [fragmentOk, hlen, hcount, hnum, hmax, h1]

/-- The first fragment of an association that can be kept: a HELLO of one fragment is judged. -/
theorem exec_hello_first (hup : portUp s port = true) (hip : endpointIp s port ≠ 0)
    (hreach : port.val = 16 ∨ reachesNet s (port / 8) = true) (hnew : nget? s.con.handshakes id = none) (hid : id ≠ 0)
    (hversion : f.version = 1) (hroom : s.con.handshakes.length < 64) (hlen : f.data.length ≤ gv s E.conMtu - 44)
    (hnum : f.num < f.count) (hmax : f.count ≤ 16) :
    exec (.hello port id f m i) s = .next (
      if f.count = 1 then judgeHello (withHs s id (newHandshake port i f)) id port i m
      else withHs s id (newHandshake port i f)) := by
  have hnew' : getHs? s id = none := hnew
  have hok : (id = 0 || !(fragmentOk (withHs s id (newHandshake port i f)) f f.count)) = false := by
    rw [fragmentOk_of (s := withHs s id (newHandshake port i f)) hlen rfl hnum hmax]
    simp [hid]
  refine congrArg Host.Outcome.next ?_
  rw [if_neg (by simp [hup, hip]), if_neg (by simp [hversion]), if_pos (by simpa using hreach)]
  unfold helloArrives
  dsimp only
  rw [hnew']
  dsimp only
  rw [if_neg (Nat.not_le.mpr hroom)]
  exact if_neg (ne_true_of_eq_false hok)

/-- The association once its HELLO is answered. -/
def answering (s : State) (m : HelloMsg) (slot n : Nat) (h : Handshake) : Handshake :=
  { h with
    number := some n, fp := m.fp, secret := Config.hkdf m.share (freeVal s) m.nonce, anchor := slot
    undated := !s.sup.tp.utcValid, valid := some (m.notBefore, m.notAfter), finish := true, frags := []
    answered := answerBody n m.nonce (freeVal (freeNext s)), service := false }

/-- The session of an association that is answered. -/
def inHandshake (s : State) (m : HelloMsg) (slot n : Nat) : Session :=
  { state := 1, fp := m.fp, anchor := slot, reserved := (reservations s).any (fun r => r.2 = n) }

/-- The state in which ANSWER is sent. -/
def answered (s : State) (id : Nat) (m : HelloMsg) (slot n : Nat) (h : Handshake) : State :=
  { withHs s id (answering s m slot n h) with
    con.sessions := nset s.con.sessions n (inHandshake s m slot n), st.freeCount := s.st.freeCount + 2 }

theorem judgeHello_answered {p n slot : Nat} {h : Handshake} (hport : p < 16) (hh : getHs? s id = some h) (hformed : m.formed = true)
    (hsupported : m.supported = true) (hdenied : denied s m.fp = false) (hanchor : anchorOf s false m.root = some slot)
    (hchain : m.chainOk = true) (hvalid : s.sup.tp.utcValid = true → withinValidity s i m.notBefore m.notAfter = true)
    (hothers : ∀ q ∈ s.con.handshakes, q.1 ≠ id → q.2.fp ≠ m.fp) (hassign : assignNumber s m.fp = some n)
    (hfree : nhas s.con.sessions n = false) :
    judgeHello s id p i m =
      hsSend (answered s id m slot n h) id (answering s m slot n h) .handshakeAnswer 0 (answering s m slot n h).answered := by
  have hp : ¬ p = 16 := by omega
  have hstays : s.con.handshakes.foldl (fun s q =>
      if q.1 ≠ id && q.2.number.isSome && !q.2.done && q.2.fp = m.fp then dropHandshake s q.1 else s) s = s :=
    foldl_stays fun q hq => if_neg (by
      have := hothers q hq
      simp only [Bool.and_eq_true, decide_eq_true_eq, not_and]
      tauto)
  unfold judgeHello
  dsimp only
  rw [decide_eq_false hp, if_neg (by simp [hformed]), if_neg (by simp), if_neg (by simp [hsupported]), if_neg (by simp [hdenied]),
    hanchor]
  dsimp only
  rw [if_neg (by simp [hchain]), if_neg (by simpa using hvalid), hstays, if_neg hp, hassign]
  dsimp only
  have hnone : ∀ h', nhas (withHs (freeNext (freeNext s)) id h').con.sessions n = false := fun _ => hfree
  have hkept : ∀ h' x, getHs? { withHs (freeNext (freeNext s)) id h' with con.sessions := x } id = some h' :=
    fun _ _ => nget?_nset_self ..
  rw [updHs_of_held (s := freeNext (freeNext s)) hh, hnone, if_neg Bool.false_ne_true, hkept]
  rfl

theorem judgeHello_malformed {p : Nat} {h : Handshake} (hh : getHs? s id = some h) (hformed : m.formed = false) :
    judgeHello s id p i m = dropHandshake (refusalSent s id h p 0x04000002 0 0) id := by
  unfold judgeHello
  dsimp only
  rw [if_pos (by simp [hformed]), refuseHs_eq _ _ _ _ hh]

/-- The number in ANSWER stands after its nonce of 32 octets (11 Table 11-3). -/
theorem number_of_answerBody (n nonce free : Nat) : ((answerBody n nonce free).drop 32).take 2 = beBytes 2 n := by
  have hnonce : (leBytes 32 free).length = 32 := length_leBytes ..
  have hnumber : (beBytes 2 n).length = 2 := by rw [beBytes, List.length_reverse, length_leBytes]
  unfold answerBody
  dsimp only
  rw [List.append_assoc, List.append_assoc, List.append_assoc, List.append_assoc, List.append_assoc,
    List.drop_left' hnonce, List.take_left' hnumber]

end

/-- The association that a HELLO fragment began is kept once. -/
theorem answered_withHs (s : State) (id : Nat) (m : HelloMsg) (slot n : Nat) (h h' : Handshake) :
    answered (withHs s id h) id m slot n h' = answered s id m slot n h' := by
  unfold answered
  rw [withHs_withHs]
  rfl

theorem helloRule_holds : helloRule := by
  intro s port id i f m hup hip hreach hnew hid hversion hroom hlen hnum hmax
  have hexec : exec (.hello port id f m i) s = _ := exec_hello_first hup hip hreach hnew hid hversion hroom hlen hnum hmax
  have hheld := getHs?_withHs s id (newHandshake port i f)
  refine ⟨fun n slot hone hport hformed hsupported hdenied hanchor hchain hvalid hothers hassign hfree => ?_,
    fun hmany => ⟨_, hexec, if_neg (by omega)⟩, fun hone hformed => ?_⟩
  · have hfps : ∀ q ∈ (withHs s id (newHandshake port i f)).con.handshakes, q.1 ≠ id → q.2.fp ≠ m.fp := fun q hq hne => by
      rcases eq_or_mem_of_mem_nset hq with rfl | hold
      · exact absurd rfl hne
      · exact hothers q hold
    have hnets : (newHandshake port i f).nets = 2 ^ (port.val / 8) := by simp [newHandshake, Nat.ne_of_lt hport]
    rw [if_pos hone, judgeHello_answered hport hheld hformed hsupported hdenied hanchor hchain hvalid hfps hassign hfree,
      answered_withHs] at hexec
    refine ⟨_, hexec, ?_, ?_, answering s m slot n (newHandshake port i f), ?_, rfl, rfl, rfl, rfl, rfl, rfl, rfl, hnets,
      number_of_answerBody .., hsLeaves_hsSend ..⟩
    · rw [hsSend_eq]
      rfl
    · rw [hsSend_con]
      rfl
    · rw [hsSend_con]
      rfl
  · rw [if_pos hone, judgeHello_malformed hheld hformed, dropHandshake_refused _ _ _ _ hheld rfl] at hexec
    refine ⟨_, hexec, ?_, ?_, ?_⟩
    · exact recorded_refusalSent ..
    · exact noted_refusalSent (withHs s id (newHandshake port i f)) ..
    · have hbody : beBytes 4 0x04000002 ++ u8 0 = [4, 0, 0, 2, 0] := by decide
      rw [← hbody]
      exact hsLeaves_refusalSent (withHs s id (newHandshake port i f)) ..

/-! ## FINISH (R297, R298) -/

section
variable {s : State} {port : Fin 17} {id i n : Nat} {f : Fragment} {fin : FinishMsg} {h : Handshake}

/-- An association that has received its FINISH in one fragment. -/
def finishing (i : Nat) (f : Fragment) (h : Handshake) : Handshake :=
  { h with count := 1, fragSince := i, frags := [(0, f.data)] }

theorem exec_finish_first (hup : portUp s port = true) (hreach : port.val = 16 ∨ reachesNet s (port / 8) = true)
    (hh : nget? s.con.handshakes id = some h) (hnumber : h.number = some n) (hdone : h.done = false) (hfrags : h.frags = [])
    (hversion : f.version = 1) (hone : f.count = 1) (hnum : f.num = 0) (hlen : f.data.length ≤ gv s E.conMtu - 44) :
    exec (.finish port id f fin i) s = .next (judgeFinish (withHs s id (finishing i f h)) id port fin) := by
  have hh' : getHs? s id = some h := hh
  show execFinish port id f fin i s = _
  unfold execFinish
  dsimp only
  rw [hh']
  dsimp only
  rw [if_neg (by simpa [hup, hnumber] using hreach.resolve_left), if_neg (by simp [hversion]), if_neg (by simp [hdone])]
  have hok : ∀ h', fragmentOk (withHs s id h') f 1 = true := fun _ => fragmentOk_of hlen hone (by omega) (by decide)
  rw [updHs_of_held hh']
  simp only [hfrags, if_true, hone, hnum]
  rw [hok, updHs_of_held (getHs?_withHs ..), withHs_withHs]
  rfl

/-- The association once READY has left. -/
def readied (s : State) (h : Handshake) : Handshake := { h with done := true, frags := [], ready := leBytes 16 (freeVal s) }

theorem judgeFinish_right {p : Nat} (hh : getHs? s id = some h) (hformed : fin.formed = true) (hok : fin.ok = true) :
    judgeFinish s id p fin =
      hsSend (withHs (freeNext s) id (readied s h)) id h .handshakeReady 0 (readied s h).ready := by
  unfold judgeFinish
  rw [hh]
  dsimp only
  rw [if_neg (by simp [hformed]), if_neg (by simp [hok]), updHs_of_held (s := freeNext s) hh]
  rfl

theorem judgeFinish_wrong {p : Nat} (hh : getHs? s id = some h) (hformed : fin.formed = true) (hok : fin.ok = false) :
    judgeFinish s id p fin = dropHandshake (refusalSent s id h p 0x0B000003 1 h.fp) id := by
  unfold judgeFinish
  rw [hh]
  dsimp only
  rw [if_neg (by simp [hformed]), if_pos (by simp [hok]), refuseHs_eq _ _ _ _ hh]

end

theorem finishRule_holds : finishRule := by
  intro s port id i n f fin h hup hreach hh hnumber hdone hfrags hversion hone hnum hlen hformed
  have hexec : exec (.finish port id f fin i) s = _ :=
    exec_finish_first hup hreach hh hnumber hdone hfrags hversion hone hnum hlen
  have hheld := getHs?_withHs s id (finishing i f h)
  refine ⟨fun hok => ?_, fun hwrong => ?_⟩
  · rw [judgeFinish_right hheld hformed hok] at hexec
    refine ⟨_, hexec, ?_, readied s (finishing i f h), ⟨leBytes 16 (freeVal s), length_leBytes .., rfl⟩, ?_, ?_⟩
    · rw [hsSend_eq]
      rfl
    · rw [hsSend_con]
      exact nset_nset ..
    · exact hsLeaves_hsSend s id (finishing i f h) ..
  · rw [judgeFinish_wrong hheld hformed hwrong] at hexec
    refine ⟨_, hexec, ?_, fun e he hstate => ?_⟩
    · exact recorded_dropHandshake _ _ (recorded_refusalSent ..)
    · rw [dropHandshake_answered (e := e) ((getHs?_refusalSent ..).trans hheld) hnumber (by rw [refusalSent_con]; exact he) hstate,
        refusalSent_con]
      rfl

/-! ## FRAGMENT_TIMEOUT and HANDSHAKE_TIMEOUT (R297) -/

theorem handshakeEndRule_holds : handshakeEndRule := by
  intro s id i h hh
  have hh' : getHs? s id = some h := hh
  refine ⟨fun hfrags hlate => ?_, fun n e hdone hlate hnumber he hstate => ?_⟩
  · refine ⟨if h.number.isNone then { s with con.handshakes := nerase s.con.handshakes id } else withHs s id { h with frags := [] },
      ?_, ?_⟩
    · show execFragmentTimeout id i s = _
      unfold execFragmentTimeout
      rw [hh']
      dsimp only
      rw [if_neg (by simp [hfrags, hlate]), updHs_of_held hh']
    · cases h.number
      · rfl
      · rfl
  · refine ⟨_, ?_, rfl⟩
    show execHandshakeTimeout id i s = _
    unfold execHandshakeTimeout
    rw [hh']
    dsimp only
    rw [if_pos (by simp [hdone, hlate]), dropHandshake_answered hh' hnumber he hstate]

end Sys2Proof.Machine

open Sys2Proof.Machine in
/-- Settles O36: a HELLO or FINISH of one fragment is judged at once, with ANSWER, READY or REFUSE; a time-out drops what it names. -/
theorem handshakes : Obligations.Handshakes := ⟨helloRule_holds, finishRule_holds, handshakeEndRule_holds⟩

/-!
PROOFS. O37: session records and their replay windows (11 R294 to R296, R303, R304), rekeying (R301, R302), and the end of a session
(R292, R299, R306).
-/

namespace Sys2Proof.Machine

open Sys2Proof.Claims Safe

/-! ## One session of many -/

section
variable {s t : State} (hn : noted s t)
include hn

theorem getSess?_of_noted {n : Nat} {e : Session} (he : getSess? s n = some e) : getSess? t n = some e := by
  unfold getSess? at *
  rw [con_of_noted hn, he]

/-- What is sent and counted is no part of the records. -/
theorem noted_counted (c : Consist) (x : List Egress) (k : NMap Nat) :
    noted { s with con := c, egress := x, cnt := k } { t with con := c, egress := x, cnt := k } := by
  have h := congrArg (fun u : State => { u with con := c, egress := x, cnt := nset k suppressedKey 0 }) (show bare t = bare s from hn)
  exact h

end

section
variable (s : State) (n : Nat) (e e' : Session)

@[simp] theorem getSess?_withSess : getSess? (withSess s n e) n = some e := nget?_nset_self ..

@[simp] theorem withSess_withSess : withSess (withSess s n e) n e' = withSess s n e' := by
  unfold withSess
  rw [nset_nset]

theorem updSess_of_held {s : State} {n : Nat} {e : Session} (he : getSess? s n = some e) (f : Session → Session) :
    updSess s n f = withSess s n (f e) := by
  have hget : nget? s.con.sessions n = some e := he
  unfold updSess withSess nupd
  rw [hget]

end

/-! ## The replay window (R296) -/

section
variable {w : Window1} {n : Nat}

theorem windowTake_above (h0 : 0 < n) (hn : w.high < n) :
    windowTake w n = some { high := n, seen := (n :: w.seen).filter (fun x => n ≤ x + 1023) } :=
  (if_neg h0.ne').trans (if_pos hn)

theorem windowTake_within (h0 : 0 < n) (hn : n ≤ w.high) (hwin : w.high ≤ n + 1023) (hnew : w.seen.contains n = false) :
    windowTake w n = some { w with seen := n :: w.seen } :=
  (if_neg h0.ne').trans ((if_neg (Nat.not_lt.mpr hn)).trans (if_pos (by rw [hnew, decide_eq_true hwin]; rfl)))

/-- A number at or below the highest one is discarded where it is out of the window or not new. -/
theorem windowTake_refused (hn : n ≤ w.high) (hbad : n + 1023 < w.high ∨ w.seen.contains n = true) : windowTake w n = none := by
  have hno : (w.high ≤ n + 1023 && !(w.seen.contains n)) = false := by
    rcases hbad with hold | hseen
    · simp [Nat.not_le.mpr hold]
    · rw [hseen, Bool.not_true, Bool.and_false]
  unfold windowTake
  rw [if_neg (Nat.not_lt.mpr hn), if_neg (ne_true_of_eq_false hno), ite_self]

end

theorem windowRule_holds : windowRule := fun _ _ =>
  ⟨rfl, fun h0 hn => ⟨_, windowTake_above h0 hn, rfl⟩, windowTake_within, fun hn hseen => windowTake_refused hn (.inr hseen),
    fun hold => windowTake_refused (by omega) (.inl hold)⟩

/-! ## Arrival of a record (R294, R296) -/

section
variable {s : State} {hub : Nat} {r : SessRecord} {n : Nat} {e : Session} {w : Window1}

/-- The record's window and path are taken, and its phase is followed. -/
theorem followPhase_heardBy (hub : Nat) (r : SessRecord) (e : Session) (w : Window1) :
    followPhase { e with
      wins := vupd e.wins hub (fun _ => w), lastRx := r.t
      pathA := if hub = 0 then some { mac := r.mac, ip := r.ip, udp := r.udp, vlan := r.vlan, port := r.port, at_ := r.t } else e.pathA
      pathB := if hub = 1 then some { mac := r.mac, ip := r.ip, udp := r.udp, vlan := r.vlan, port := r.port, at_ := r.t } else e.pathB }
      r = heardBy hub r e w := by
  unfold followPhase heardBy
  simp only [Bool.and_eq_true, decide_eq_true_eq]

theorem recordArrives_accepted (hrec : recAccepted s hub r n e w) :
    recordArrives s hub r = (some n, withSess s n (heardBy hub r e w)) := by
  obtain ⟨hversion, rfl, hup, hport, hhub, he, hopen, htag, hkey, hw⟩ := hrec
  have hverifies : recVerifies s (recSession r.port r.session) r = true := by simp [recVerifies, he, hopen, htag, hkey]
  unfold recordArrives
  dsimp only
  rw [if_neg (by simp [hup, hport, hhub]), if_neg (by simp [hversion]), if_neg (by simp [hverifies]), he]
  dsimp only
  rw [hw]
  dsimp only
  rw [updSess_of_held he, followPhase_heardBy]

section
variable (hup : hubUp s hub = true) (hport : portUp s r.port = true) (hhub : portHub s r.port = hub)
  (he : getSess? s (recSession r.port r.session) = some e) (hversion : r.version = 1)
include hup hport hhub he hversion

theorem recordArrives_untagged (htag : r.tagOk = false) : recordArrives s hub r = (none,
    emitH (blockCount (withSess s (recSession r.port r.session) { e with authFail := e.authFail + 1 }) (0x5381 + hub) 4) hub r.t
      (srcHub hub) 0x3034 2 (u16 (recSession r.port r.session) ++ u8 r.port ++ u64 r.seq ++ u8 r.phase)) := by
  have hverifies : recVerifies s (recSession r.port r.session) r = false := by simp [recVerifies, he, htag]
  unfold recordArrives
  dsimp only
  rw [if_neg (by simp [hup, hport, hhub]), if_neg (by simp [hversion]), if_pos (by simp [hverifies]), updSess_of_held he, htag]
  rfl

theorem recordArrives_repeated (hopen : 2 ≤ e.state) (htag : r.tagOk = true) (hkey : nhas e.secrets (r.phase % 4) = true)
    (hw : windowTake (vget e.wins hub {}) r.seq = none) :
    recordArrives s hub r = (none, withSess s (recSession r.port r.session) { e with replays := e.replays + 1 }) := by
  have hverifies : recVerifies s (recSession r.port r.session) r = true := by simp [recVerifies, he, hopen, htag, hkey]
  unfold recordArrives
  dsimp only
  rw [if_neg (by simp [hup, hport, hhub]), if_neg (by simp [hversion]), if_neg (by simp [hverifies]), he]
  dsimp only
  rw [hw]
  dsimp only
  rw [updSess_of_held he]

end
end

theorem recRefusedRule_holds : recRefusedRule := by
  rintro s hub r n e rfl hup hport hhub he hversion
  exact ⟨fun htag => ⟨_, congrArg Host.Outcome.next (congrArg Prod.snd (recordArrives_untagged hup hport hhub he hversion htag)),
      recorded_emitH _ _ _ _ _ _ _ hub.isLt (by decide), bare_emitH ..⟩,
    fun hopen htag hkey hw => ⟨_, congrArg Host.Outcome.next (congrArg Prod.snd
      (recordArrives_repeated hup hport hhub he hversion hopen htag hkey hw)), rfl⟩⟩

/-! ## What a record carries (R303, R304, R306) -/

section
variable {s : State} {hub : Fin 2} {r : SessRecord} {n : Nat} {e : Session} {w : Window1}

/-- A number that the peer has not used before is taken, unless it is too old. -/
theorem adoptSeq_new {seq : Nat} (he : getSess? s n = some e) (hnew : e.taken.contains seq = false)
    (hwin : e.taken.foldl max 0 < seq + 1024) : adoptSeq s n seq = (true, withSess s n { e with
      taken := (seq :: e.taken).filter (fun x => max (e.taken.foldl max 0) seq ≤ x + 1023) }) := by
  unfold adoptSeq
  rw [he]
  dsimp only
  rw [if_neg (by rw [hnew, decide_eq_false (Nat.not_le.mpr hwin)]; decide), updSess_of_held he]

theorem adoptSeq_again {seq : Nat} (he : getSess? s n = some e) (hseen : e.taken.contains seq = true) :
    adoptSeq s n seq = (false, s) := by
  unfold adoptSeq
  rw [he]
  dsimp only
  rw [if_pos (by rw [hseen]; rfl)]

/-- Following a record's phase takes no number. -/
theorem heardBy_taken (hub : Nat) (r : SessRecord) (e : Session) (w : Window1) : (heardBy hub r e w).taken = e.taken := by
  unfold heardBy
  dsimp only
  split
  · rfl
  · rfl

end

section
variable {s : State} {ctx op : Nat} {m : DapMsg} {c : Context} (hc : nget? s.sup.ctxs ctx = some c)
include hc

/-- A DAP message that is not whole is discarded, and counts as a refusal. -/
theorem dapArrive_discarded (via : Option Nat) (hubs seq : Nat)
    (hbad : ¬ (1 ≤ op ∧ op ≤ 5 ∧ m.version = 1 ∧ m.flags = 0 ∧ m.plen = m.body.length)) :
    dapArrive s ctx op m via hubs seq = { s with sup.ctxs := nset s.sup.ctxs ctx { c with refusals := c.refusals + 1 } } := by
  have hopen : nhas s.sup.ctxs ctx = true := by rw [nhas, hc, Option.isSome_some]
  have hmal : (m.version ≠ 1 || m.flags ≠ 0 || m.plen ≠ m.body.length || op = 0 || 5 < op) = true := by
    by_contra hok
    simp only [Bool.or_eq_true, decide_eq_true_eq, not_or, not_not, Nat.not_lt] at hok
    obtain ⟨⟨⟨⟨hversion, hflags⟩, hlen⟩, hop⟩, hmax⟩ := hok
    exact hbad ⟨Nat.pos_of_ne_zero hop, hmax, hversion, hflags, hlen⟩
  simp only [dapArrive, hc, hmal, dapDiscard, hopen, updCtx_open hc, if_true]

/-- A request through a port of a shed in CLOSING waits as any other, and is held for no derivation. -/
theorem dapArrive_via (port hubs seq : Nat) (hwhole : 1 ≤ op ∧ op ≤ 5 ∧ m.version = 1 ∧ m.flags = 0 ∧ m.plen = m.body.length)
    (hroom : c.outstanding < 16) :
    dapArrive s ctx op m (some port) hubs seq =
      { s with
        sup.ctxs := nset s.sup.ctxs ctx { c with outstanding := c.outstanding + 1 }
        sup.reqs := s.sup.reqs ++ [{ ctx := ctx, due := s.cyc.k + 2, reqId := m.reqId, op := op, index := m.index, sub := m.sub,
                                     elen := m.elen, payload := m.body, via := some port, hubs := hubs, seq := seq }] } := by
  obtain ⟨h1, h5, hversion, hflags, hlen⟩ := hwhole
  have hnot : ¬ 16 ≤ c.outstanding := Nat.not_le.mpr hroom
  simp only [dapArrive, hc, dapHeader_ok hversion hflags hlen h1 h5, hnot, updCtx_open hc, Bool.false_eq_true, if_false,
    Option.isNone_some, Bool.false_and]

end

section
variable {s : State} {hub : Fin 2} {r : SessRecord} {n : Nat} {e : Session} {w : Window1} (hrec : recAccepted s hub r n e w)
include hrec

theorem exec_sessionCloseRecord :
    exec (.sessionCloseRecord hub r) s = .next (withSess s n { heardBy hub r e w with closing := some 1 }) := by
  show execSessionCloseRecord hub r s = _
  unfold execSessionCloseRecord
  rw [recordArrives_accepted hrec]
  dsimp only
  rw [updSess_of_held (getSess?_withSess ..), withSess_withSess]

theorem exec_sessionTelegramRecord {ident : Nat} {data : List Byte} (hn : ident % 4096 = n) (hmin : 1 ≤ ident / 4096)
    (hmax : ident / 4096 ≤ 255) (hlen : data.length ≤ min 4088 (gv s E.conMtu - 68)) :
    exec (.sessionTelegramRecord hub r ident data) s = .next { withSess s n (heardBy hub r e w) with
      cyc.hubOpen := vupd s.cyc.hubOpen hub
        (· ++ [{ kind := 2, source := ident, seq := r.seq, stamp := r.t, port := r.port, data := data }]) } := by
  show execSessionTelegramRecord hub r ident data s = _
  unfold execSessionTelegramRecord
  rw [recordArrives_accepted hrec]
  have hfits : (decide (ident % 4096 = n) && decide (1 ≤ ident / 4096) && decide (ident / 4096 ≤ 255) &&
      decide (data.length ≤ min 4088 (gv s E.conMtu - 68))) = true := by
    simp only [hn, hmin, hmax, hlen, decide_true, Bool.and_self]
  exact congrArg Host.Outcome.next (if_pos hfits)

theorem exec_sessionDapRecord_closing {op : Nat} {m : DapMsg} (hclosing : shedClosing s r.port = true) :
    exec (.sessionDapRecord hub r op m) s = .next
      (dapArrive (withSess s n (heardBy hub r e w)) (sessCtx n) op m (some r.port) (2 ^ hub.val) r.seq) := by
  show execSessionDapRecord hub r op m s = _
  unfold execSessionDapRecord
  rw [recordArrives_accepted hrec]
  exact congrArg Host.Outcome.next (if_pos hclosing)

theorem exec_sessionDapRecord_first {op : Nat} {m : DapMsg} (hclosing : shedClosing s r.port = false)
    (hnew : e.taken.contains r.seq = false) (hwin : e.taken.foldl max 0 < r.seq + 1024) :
    exec (.sessionDapRecord hub r op m) s = .next
      (dapArrive (withSess s n { heardBy hub r e w with
        taken := (r.seq :: e.taken).filter (fun x => max (e.taken.foldl max 0) r.seq ≤ x + 1023) })
        (sessCtx n) op m none (2 ^ hub.val) r.seq) := by
  have htaken := heardBy_taken hub r e w
  have hadopt := adoptSeq_new (getSess?_withSess s n (heardBy hub r e w)) (seq := r.seq) (by rw [htaken, hnew])
    (by rw [htaken]; exact hwin)
  rw [withSess_withSess, htaken] at hadopt
  show execSessionDapRecord hub r op m s = _
  unfold execSessionDapRecord
  rw [recordArrives_accepted hrec]
  refine congrArg Host.Outcome.next ((if_neg (ne_true_of_eq_false hclosing)).trans ?_)
  rw [hadopt]
  rfl

theorem exec_sessionDapRecord_again {op : Nat} {m : DapMsg} (hclosing : shedClosing s r.port = false)
    (hseen : e.taken.contains r.seq = true) :
    exec (.sessionDapRecord hub r op m) s = .next (secondCopy (withSess s n (heardBy hub r e w)) (sessCtx n) r.seq hub) := by
  have hadopt := adoptSeq_again (getSess?_withSess s n (heardBy hub r e w)) (seq := r.seq) (by rw [heardBy_taken, hseen])
  show execSessionDapRecord hub r op m s = _
  unfold execSessionDapRecord
  rw [recordArrives_accepted hrec]
  refine congrArg Host.Outcome.next ((if_neg (ne_true_of_eq_false hclosing)).trans ?_)
  rw [hadopt]
  rfl

end

theorem recRule_holds : recRule := by
  intro s hub r n e w hrec
  refine ⟨⟨_, congrArg Host.Outcome.next (congrArg Prod.snd (recordArrives_accepted hrec)), rfl⟩,
    ⟨_, exec_sessionCloseRecord hrec, rfl⟩,
    fun ident data hn hmin hmax hlen => ⟨_, exec_sessionTelegramRecord hrec hn hmin hmax hlen, rfl⟩,
    fun op m c q hc hq => ?_, fun op m hclosing hseen => ⟨_, exec_sessionDapRecord_again hrec hclosing hseen, ?_⟩⟩
  · subst hq
    refine ⟨fun hwhole hfirst hroom hder => ?_, fun hbad hfirst => ?_, fun hwhole hclosing hroom => ?_⟩
    · obtain ⟨hnew, hwin, hclosing⟩ := hfirst
      obtain ⟨h1, h5, hversion, hflags, hlen⟩ := hwhole
      exact ⟨_, exec_sessionDapRecord_first hrec hclosing hnew hwin,
        (dapArrive_taken (s := withSess s n _) hc hversion hflags hlen h1 h5 _ _ hroom).trans (if_neg (ne_true_of_eq_false hder))⟩
    · obtain ⟨hnew, hwin, hclosing⟩ := hfirst
      exact ⟨_, exec_sessionDapRecord_first hrec hclosing hnew hwin, dapArrive_discarded (s := withSess s n _) hc _ _ _ hbad⟩
    · exact ⟨_, exec_sessionDapRecord_closing hrec hclosing, dapArrive_via (s := withSess s n _) hc _ _ _ hwhole hroom⟩
  · unfold secondCopy
    simp only [Bool.and_eq_true, decide_eq_true_eq, and_assoc]
    rfl

/-! ## Records of the hub series (R295) -/

/-- A record of the hub series as it leaves by a path of its session, where the path's port sends and its network is reached. -/
def pathRecord (s : State) (n ty : Nat) (e : Session) (body : List Byte) (p : Option Path) : Option Egress :=
  p.bind fun q =>
    if portSends s q.port = true ∧ reachesNet s (portHub s q.port) = true then
      some { kind := .sessionRecord, port := q.port, a := n, b := e.hubSeq + 1, c := ty * 4 + e.phase
             data := sessHead ty n e.phase 0 body.length (e.hubSeq + 1) ++ body }
    else none

/-- What leaves of a record of the hub series, newest first. -/
def pathRecords (s : State) (n ty : Nat) (e : Session) (body : List Byte) : List Egress :=
  [e.pathB, e.pathA].filterMap (pathRecord s n ty e body)

theorem pathRecords_of_noted {s t : State} (hn : noted s t) (n ty : Nat) (e : Session) (body : List Byte) :
    pathRecords t n ty e body = pathRecords s n ty e body := by
  have hsheds : t.sup.en = s.sup.en := by
    have h := congrArg (fun u => u.sup.en) (show bare t = bare s from hn)
    exact h
  unfold pathRecords pathRecord portSends portHub getShed
  simp only [hubSends_of_noted hn, reachesNet_of_noted hn, con_of_noted hn, hsheds]

/-- A record of number `seq` leaves by one path. -/
def leaveBy (n ty seq phase : Nat) (body : List Byte) (u : State) (p : Option Path) : State :=
  p.elim u fun q =>
    if !(portSends u q.port) || !(reachesNet u (portHub u q.port)) then u
    else send (sentBy u q.port)
      { kind := .sessionRecord, port := q.port, a := n, b := seq, c := ty * 4 + phase, data := sessRecord u n ty seq body }

theorem leaveBy_eq {u : State} {n ty : Nat} {e e' : Session} {body : List Byte} (he' : getSess? u n = some e')
    (hphase : e'.phase = e.phase) (p : Option Path) : ∃ c, leaveBy n ty (e.hubSeq + 1) e.phase body u p =
      { u with egress := (pathRecord u n ty e body p).toList ++ u.egress, cnt := c } := by
  have hdata : sessRecord u n ty (e.hubSeq + 1) body = sessHead ty n e.phase 0 body.length (e.hubSeq + 1) ++ body := by
    unfold sessRecord nget
    rw [show nget? u.con.sessions n = some e' from he', Option.getD_some, hphase]
  cases p with
  | none => exact ⟨_, rfl⟩
  | some q =>
    unfold leaveBy pathRecord
    rw [Option.elim_some, Option.bind_some, hdata]
    by_cases hout : portSends u q.port = true ∧ reachesNet u (portHub u q.port) = true
    · obtain ⟨hport, hnet⟩ := hout
      obtain ⟨c, hc⟩ := sentBy_only u q.port
      refine ⟨c, ?_⟩
      rw [if_neg (by simp [hport, hnet]), if_pos ⟨hport, hnet⟩, hc]
      rfl
    · refine ⟨u.cnt, ?_⟩
      rw [if_pos (by simpa [imp_iff_not_or] using hout), if_neg hout]
      rfl

theorem foldl_leaveBy {n ty : Nat} {e e' : Session} {body : List Byte} (hphase : e'.phase = e.phase) (l : List (Option Path)) :
    ∀ u : State, getSess? u n = some e' → ∃ c, l.foldl (leaveBy n ty (e.hubSeq + 1) e.phase body) u =
      { u with egress := l.reverse.filterMap (pathRecord u n ty e body) ++ u.egress, cnt := c } := by
  induction l with
  | nil => exact fun u _ => ⟨u.cnt, rfl⟩
  | cons p l ih =>
    intro u hu
    obtain ⟨a, ha⟩ := leaveBy_eq (ty := ty) (body := body) hu hphase p
    obtain ⟨c, hc⟩ := ih { u with egress := (pathRecord u n ty e body p).toList ++ u.egress, cnt := a } hu
    refine ⟨c, ?_⟩
    rw [List.foldl_cons, ha, hc, List.reverse_cons, List.filterMap_append, List.filterMap_eq_flatMap_toList _ [p],
      List.flatMap_singleton, List.append_assoc]
    rfl

section
variable {s : State} {n t ty : Nat} {e : Session} {body : List Byte}

theorem hubRecord_leaveBy (he : getSess? s n = some e) : hubRecord s n t ty body =
    [e.pathA, e.pathB].foldl (leaveBy n ty (e.hubSeq + 1) e.phase body) (withSess s n (sealedAt e t)) := by
  unfold hubRecord
  rw [he]
  dsimp only
  rw [updSess_of_held he]
  refine List.foldl_ext _ _ _ fun u p _ => ?_
  cases p with
  | none => rfl
  | some q => rfl

/-- A record of the hub series is sealed, and leaves; ports count it. -/
theorem hubRecord_eq (he : getSess? s n = some e) : ∃ c, hubRecord s n t ty body =
    { withSess s n (sealedAt e t) with egress := pathRecords s n ty e body ++ s.egress, cnt := c } := by
  rw [hubRecord_leaveBy he]
  exact foldl_leaveBy (e := e) (e' := sealedAt e t) rfl _ _ (getSess?_withSess ..)

end

/-! ## Rekeying (R301, R302) -/

section
variable {s : State} {hub : Fin 2} {r : SessRecord} {n share : Nat} {e : Session} {w : Window1} (hrec : recAccepted s hub r n e w)

/-- The session with the keys of the next phase, once the module has answered REKEY. -/
def rekeyed (s : State) (share : Nat) (e : Session) : Session :=
  { e with
    state := 3, rekeyMine := none, rekeyAccept := true
    secrets := nset e.secrets ((e.phase + 1) % 4) (Config.hkdf (nget e.secrets e.phase 0) share (freeVal s)) }

/-- The session that seals under the next phase, once its own REKEY is answered. -/
def advanced (share mine t : Nat) (e : Session) : Session :=
  { e with
    rekeyMine := none
    phase := (e.phase + 1) % 4, phaseChanged := some t, phaseBegan := t, sealedCount := 0, recvCount := 0,
    secrets := nset e.secrets ((e.phase + 1) % 4) (Config.hkdf (nget e.secrets e.phase 0) share mine) }

include hrec

theorem exec_rekey_answered (hfree : ¬((heardBy hub r e w).state = 3 ∧ (heardBy hub r e w).rekeyMine = none))
    (hlate : ∀ x, (heardBy hub r e w).phaseChanged = some x → x + 10000000000 ≤ r.t) :
    exec (.rekey hub r share) s = .next (hubRecord
      (emitL (withSess (freeNext s) n (rekeyed s share (heardBy hub r e w))) (srcHub 0) 0x3033 0
        (u16 n ++ u8 (((heardBy hub r e w).phase + 1) % 4) ++ u8 1)) n r.t 0x15 (leBytes 1185 (freeVal s))) := by
  show execRekey hub r share s = _
  unfold execRekey
  rw [recordArrives_accepted hrec]
  dsimp only
  rw [getSess?_withSess]
  dsimp only
  have hanswered : (decide ((heardBy hub r e w).state = 3) && (heardBy hub r e w).rekeyMine.isNone) = false := by
    simpa [Option.isSome_iff_ne_none] using hfree
  have hrecent : (heardBy hub r e w).phaseChanged.any (fun t => decide (r.t < t + 10000000000)) = false := by
    simpa [Option.any_eq_false] using hlate
  have hcommute : ∀ x, freeNext (withSess s n x) = withSess (freeNext s) n x := fun _ => rfl
  rw [if_neg (by rw [hanswered, hrecent]; decide), hcommute, updSess_of_held (getSess?_withSess ..), withSess_withSess]
  rfl

theorem exec_rekey_ignored (hbusy : (heardBy hub r e w).state = 3) (hmine : (heardBy hub r e w).rekeyMine = none) :
    exec (.rekey hub r share) s = .next (withSess s n { heardBy hub r e w with ignored := (heardBy hub r e w).ignored + 1 }) := by
  show execRekey hub r share s = _
  unfold execRekey
  rw [recordArrives_accepted hrec]
  dsimp only
  rw [getSess?_withSess]
  dsimp only
  rw [if_pos (by simp [hbusy, hmine]), updSess_of_held (getSess?_withSess ..), withSess_withSess]

theorem exec_rekeyAnswer {x y mine : Nat} (hmine : (heardBy hub r e w).rekeyMine = some (x, y, mine)) :
    exec (.rekeyAnswer hub r share) s = .next (emitL (withSess s n (advanced share mine r.t (heardBy hub r e w))) (srcHub 0) 0x3033 0
      (u16 n ++ u8 (((heardBy hub r e w).phase + 1) % 4) ++ u8 2)) := by
  show execRekeyAnswer hub r share s = _
  unfold execRekeyAnswer
  rw [recordArrives_accepted hrec]
  dsimp only
  rw [getSess?_withSess]
  dsimp only
  rw [hmine]
  dsimp only
  rw [updSess_of_held (getSess?_withSess ..), withSess_withSess]
  rfl

end

theorem rekeyRule_holds : rekeyRule := by
  rintro s hub r n share e e' w hrec rfl
  refine ⟨fun hfree hlate => ⟨_, exec_rekey_answered hrec hfree hlate, ?_⟩,
    fun hbusy hmine => ⟨_, exec_rekey_ignored hrec hbusy hmine, rfl⟩,
    fun x y mine hmine => ⟨_, exec_rekeyAnswer hrec hmine, recorded_emitL _ _ _ _ _ _ (by decide), bare_emitL ..⟩⟩
  have hn := noted_emitL (withSess (freeNext s) n (rekeyed s share (heardBy hub r e w))) (srcHub 0) 0x3033 0
    (u16 n ++ u8 (((heardBy hub r e w).phase + 1) % 4) ++ u8 1) 0xFFFF
  have hrecorded := recorded_emitL (withSess (freeNext s) n (rekeyed s share (heardBy hub r e w))) (srcHub 0) 0x3033 0 0xFFFF
    (u16 n ++ u8 (((heardBy hub r e w).phase + 1) % 4) ++ u8 1) (by decide)
  generalize emitL .. = v at *
  obtain ⟨c, hc⟩ := hubRecord_eq (t := r.t) (ty := 0x15) (body := leBytes 1185 (freeVal s))
    (getSess?_of_noted hn (getSess?_withSess ..))
  rw [hc]
  refine ⟨hrecorded, ?_, freeVal s, ?_, ?_⟩
  · unfold withSess
    rw [con_of_noted hn]
    exact noted_counted hn _ _ _
  · unfold withSess
    rw [con_of_noted hn]
    exact nset_nset ..
  · rw [pathRecords_of_noted hn, egress_of_noted hn]
    rfl

/-! ## The module's own rekey (R301, R302) -/

/-- The session whose own REKEY is on its way. -/
def asking (i tries f : Nat) (e : Session) : Session := { e with state := 3, rekeyMine := some (i, tries, f) }

theorem sendRekey_eq {s : State} {n i tries : Nat} {e : Session} (he : getSess? s n = some e) : ∃ c,
    sendRekey s n i tries = { withSess s n (sealedAt (asking i tries (freeVal s) e) i) with
      egress := pathRecords s n 0x14 e (leBytes 1281 (freeVal s)) ++ s.egress, cnt := c, st.freeCount := s.st.freeCount + 1 } := by
  unfold sendRekey
  dsimp only
  rw [updSess_of_held (s := freeNext s) he]
  obtain ⟨c, hc⟩ := hubRecord_eq (t := i) (ty := 0x14) (body := leBytes 1281 (freeVal s))
    (getSess?_withSess (freeNext s) n (asking i tries (freeVal s) e))
  refine ⟨c, hc.trans ?_⟩
  rw [withSess_withSess]
  rfl

theorem ownRekeyRule_holds : ownRekeyRule := by
  intro s n i e he
  dsimp only
  have hsends : ∀ (c : Instr) (tries : Nat), exec c s = .next (sendRekey s n i tries) → does c s (fun t =>
      t = { s with con.sessions := t.con.sessions, egress := t.egress, cnt := t.cnt, st.freeCount := t.st.freeCount } ∧
      ∃ f, t.con.sessions = nset s.con.sessions n (sealedAt { e with state := 3, rekeyMine := some (i, tries, f) } i) ∧
        recordLeaves s t n 0x14 e (leBytes 1281 f)) := by
    intro c tries hexec
    obtain ⟨x, hx⟩ := sendRekey_eq (i := i) (tries := tries) he
    rw [hx] at hexec
    exact ⟨_, hexec, rfl, freeVal s, rfl, rfl⟩
  refine ⟨fun hopen hdue => hsends _ _ ?_, fun i0 tries x hmine hlate htries => hsends _ _ ?_,
    fun i0 tries x hmine hlate htries => ⟨_, ?_, rfl⟩, fun u hold hlate => ⟨_, ?_, rfl⟩⟩
  · show execModuleRekeyStart n i s = _
    unfold execModuleRekeyStart
    rw [he]
    dsimp only
    rw [if_pos (by simpa [hopen, or_assoc] using hdue)]
  · show execRekeyRetry n i s = _
    unfold execRekeyRetry
    rw [he]
    dsimp only
    rw [hmine]
    dsimp only
    rw [if_neg (Nat.not_lt.mpr hlate), if_pos htries]
  · show execRekeyRetry n i s = _
    unfold execRekeyRetry
    rw [he]
    dsimp only
    rw [hmine]
    dsimp only
    rw [if_neg (Nat.not_lt.mpr hlate), if_neg (Nat.not_lt.mpr htries), updSess_of_held he]
  · show execPhaseKeyErase n i s = _
    unfold execPhaseKeyErase
    rw [he]
    dsimp only
    rw [hold]
    dsimp only
    rw [if_pos hlate, updSess_of_held he]

/-! ## The end of a session (R294, R299, R306) -/

theorem sessEndRule_holds : sessEndRule := by
  intro s n i e he
  refine ⟨fun hopen hlate => ?_, fun hopen hlate => ⟨_, ?_, rfl⟩,
    fun p hp hlate => ⟨_, ?_, rfl⟩, fun p hp hlate => ⟨_, ?_, rfl⟩,
    fun x hutc hopen hafter hlate => ⟨_, ?_, rfl⟩, fun ctx ha hchosen => ⟨_, congrArg Host.Outcome.next
      (writeCmd_volatile (h := hSessClose) (fun _ => rfl) rfl rfl ha rfl), ?_⟩⟩
  · obtain ⟨c, hc⟩ := hubRecord_eq (t := i) (ty := 0x12) (body := []) he
    refine ⟨hubRecord s n i 0x12, ?_, ?_⟩
    · show execIdlePing n i s = _
      unfold execIdlePing idleLimit
      rw [he]
      dsimp only
      rw [if_pos (by simp [hopen, hlate])]
    · rw [hc]
      exact ⟨rfl, rfl⟩
  · show execSessionIdleTimeout n i s = _
    unfold execSessionIdleTimeout idleLimit
    rw [he]
    dsimp only
    rw [if_pos (by simp [hopen, hlate]), updSess_of_held he]
  · show execPathForget n false i s = _
    unfold execPathForget idleLimit
    dsimp only
    rw [updSess_of_held he]
    simp only [hp, hlate, if_true, Bool.false_eq_true, if_false]
  · show execPathForget n true i s = _
    unfold execPathForget idleLimit
    dsimp only
    rw [updSess_of_held he]
    simp only [hp, hlate, if_true]
  · show execCertExpiry n s = _
    unfold execCertExpiry utcAt
    rw [he]
    dsimp only
    rw [if_pos (by rw [hafter]; simp [hutc, hopen, hlate]), updSess_of_held he]
  · subst hchosen
    exact updSess_of_held he _

/-! ## Reservations and denials (R292) -/

/-- An accepted write of an entry that is logged has its handler's effect, and is filed. -/
theorem writeCmd_filed {s : State} {ctx idx sub v : Nat} {e : Entry} {h : Handler} (hact : ∀ w, h.act w = none) (hlog : h.log = true)
    (ha : accepts s e ctx idx sub v) (hc : h.conds s (mkW s ctx idx sub e.len v e) = []) :
    writeCmd h e ctx idx sub v s = filed s e ctx idx sub v (h.eff s (mkW s ctx idx sub e.len v e)) := by
  obtain ⟨hopen, hgen⟩ := ha
  rw [writeCmd_accepted s idx sub ctx h e v hopen hgen (fun _ _ _ h => by simp [hact] at h) hc, hlog, Bool.and_true]
  rfl

theorem sessListRule_holds : sessListRule := by
  intro s ctx sub v
  exact ⟨fun ha hc => ⟨_, congrArg Host.Outcome.next (writeCmd_filed (h := hSessReserve) (fun _ => rfl) rfl ha hc), rfl⟩,
    fun ha => ⟨_, congrArg Host.Outcome.next (writeCmd_filed (h := hSessDeny) (fun _ => rfl) rfl ha rfl), rfl⟩⟩

end Sys2Proof.Machine

open Sys2Proof.Machine in
/-- Settles O37: a record that a hub accepts leaves `heardBy` of its session, a record of the hub series leaves by each path that is
open, and each end of a session or phase sets what it names. -/
theorem sessionRecords : Obligations.SessionRecords :=
  ⟨windowRule_holds, recRefusedRule_holds, recRule_holds, rekeyRule_holds, ownRekeyRule_holds, sessEndRule_holds, sessListRule_holds⟩
